-- ==== Sys2Proof/Word.lean ====
section
/-!
DEFINITION. The word types of the hub (R11: the register space is 32 bits wide) and their plainest arithmetic.
-/
namespace Sys2Proof

/-- A register word, R11. -/
abbrev Word := BitVec 32

/-- One byte. -/
abbrev Byte := BitVec 8

/-- One word of the capture memory or of the Bridle table, R10. -/
abbrev Word64 := BitVec 64

/-- A field of 72 bits: 64 data bits with 8 check bits, or a Stitch word with its CRC-8 (R21). -/
abbrev Word72 := BitVec 72

end Sys2Proof
end

