-- ==== Sys2Proof/Syntax.lean ====
section
/-!
DEFINITION. The commands of the hub: one constructor per row of spec/opcode_table.json. A command is something that
reaches the block from outside (a register access, a block or frame on a port, an event on a pin or of the sensors) or
one of the block's own steps, whose occurrence in time the sender of commands chooses and whose effect is the block's.
-/
namespace Sys2Proof

/-- Who asks for a register access (R17, R641). -/
inductive Requester where
  | loader | mspi | portA | portB | jtag
  deriving DecidableEq, Repr

/-- The two Halyard ports (R5). -/
inductive Port where
  | a | b
  deriving DecidableEq, Repr

/-- The clock domains that start and stop (R25); CONV has one clock per ADC core. AON always runs; the lane clocks of the
ports follow the lane sleep rules. -/
inductive Domain where
  | timing | core | stitch
  /-- the CONV clock of core c -/
  | conv (c : Nat)
  deriving DecidableEq, Repr

/-- The unscheduled demands that wake CORE (R28). -/
inductive Demand where
  /-- a frame addressed to the hub or broadcast arrived -/
  | frame
  /-- an MSPI access -/
  | mspi
  /-- a fault indication that needs CORE to act -/
  | fault
  /-- a wake request of the link partner at a port -/
  | partner (p : Port)
  deriving DecidableEq, Repr

/-- The entries of the sleep controller's wake list (R26). -/
inductive WakeEntry where
  /-- the next strobe instant of sample group g -/
  | strobe (g : Nat)
  /-- the next timer expiry of trigger unit n -/
  | burgee (n : Nat)
  /-- the next scheduled open-wire probe -/
  | probe
  /-- the next calibration step -/
  | calibration
  /-- the next recorder flush -/
  | recFlush
  /-- the next operating-seconds persistence -/
  | opsec
  deriving DecidableEq, Repr

/-- What the field die's next Stitch word is (R21). A sample word takes the next three samples in slot order. -/
inductive StitchKind where
  | sample
  | status (payload : BitVec 54)
  | idle
  deriving DecidableEq, Repr

/-- The walks of the Bridle that issue table entries: the regular program, the running injected list and
the running calibration list. -/
inductive Walk where
  | regular | list | cal
  deriving DecidableEq, Repr

/-- What the next calibration step is for (R510, R514, R515). -/
inductive CalTrack where
  /-- a front-end unit (0-359) -/
  | frontEnd (unit : Nat)
  /-- an ADC core (0-8) -/
  | adc (core : Nat)
  deriving DecidableEq, Repr

/-- What the NVM device answers to the loader's SFDP read (R596, R615). -/
structure SfdpParams where
  ok : Bool
  addr4 : Bool
  maxWidth : Nat
  densityLog2 : Nat
  pageLog2 : Nat
  erase4k : Nat
  deriving DecidableEq, Repr

/-- What the tracking of a lane saw at one received symbol (R401): the lane, the symbol's place among those that the command
carries for the lane, the sample's position, and whether the edge sampled between it and the reference before fell in the
direction of the transition. -/
structure TrackObs where
  lane : Nat
  sym : Nat
  sample : Int
  edge : Bool
  deriving DecidableEq, Repr

/-- The commands, in the order of spec/opcode_table.json. Of the nine critical commands, `ctrOk` says whether the device
holds the new counter entry, and `opOk` whether the command's own NVM or OTP operation succeeds (R626, R628). `mv` is the
voltage of a terminal's pin in mV (R66), `ma` the total VEXC current in mA (R99). -/
inductive Instr where
  /-- REGISTER_WRITE (R13): A write to a register that has no row of its own replaces RW fields, stages RWS fields, or clears W1C bits whose cause is gone. -/
  | registerWrite (q : Requester) (nbytes : Nat) (a : Nat) (v : Word)
  /-- RC_READ (R13): A read of a register with an RC field returns its value and clears it, unless a snapshot is in force. -/
  | rcRead (q : Requester) (a : Nat)
  /-- MULTIWORD_LATCH_READ (R17): A read of the lowest-addressed word of a multi-word value latches the other words for this requester. -/
  | multiwordLatchRead (q : Requester) (a : Nat)
  /-- FRAME_BOUNDARY (R118): Network time reaches a frame boundary, and the switch, driver, substitution and map changes that wait for a boundary act. -/
  | frameBoundary (totalMa : Nat) (imeas : List Nat)
  /-- AON_TICK (R484): At each 40 ns AON tick the timebase advances by the increment plus any pending step or load. -/
  | aonTick
  /-- COMMIT_GO (R35): A write of 1 to SYS_COMMIT.GO seals the staging set and requests validation. -/
  | commitGo (q : Requester) (src : Nat) (v : Word)
  /-- COMMIT_VALIDATED (R36): Validation of a sealed set completes within 24 µs, and the set either passes or fails. -/
  | commitValidated (bad : List Nat)
  /-- COMMIT_APPLY (R36): A validated set applies at the first frame boundary after validation, or at once if the Bridle is stopped, and EPOCH increments. -/
  | commitApply
  /-- SNAP_REQ (R41): A write of SYS_SNAP.REQ asks for a snapshot at the next frame boundary, or is refused while another requester holds one. -/
  | snapReq (q : Requester)
  /-- SNAP_TAKE (R40): At the frame boundary a snapshot freezes every RO, RC and W1C field. -/
  | snapTake
  /-- SNAP_REL (R41): The owner writes SYS_SNAP.REL and the snapshot is released. -/
  | snapRel (q : Requester)
  /-- SNAP_TIMEOUT (R41): A snapshot not released within SYS_SNAP_TO ms is released by the hub. -/
  | snapTimeout
  /-- STITCH_WORD_RECEIVE (R22): A 64-bit Stitch word arrives with its CRC-8, and its samples are placed by slot. -/
  | stitchWordReceive (ty : StitchKind) (err : Word72)
  /-- SIDEBAND_EVENT (R23): A field-die fault or wake indication crosses the AON sideband as a counter. -/
  | sidebandEvent (src : Nat) (cnt : Nat)
  /-- DOMAIN_WAKE_START (R26): A wake-list entry comes due and the sleep controller starts the domains it needs, early enough to cover their latency. -/
  | domainWakeStart (entry : WakeEntry)
  /-- CORE_WAKE_DEMAND (R28): An unscheduled demand such as a frame, an MSPI access or a fault wakes CORE. -/
  | coreWakeDemand (dem : Demand)
  /-- DOMAIN_WAKE_DONE (R25): A domain completes its wake latency and runs. -/
  | domainWakeDone (dom : Domain)
  /-- DOMAIN_SLEEP (R27): A domain with no pending work and enough margin to its next entry enters sleep. -/
  | domainSleep (dom : Domain)
  /-- OV_TRIP (R67): A terminal's overvoltage detector trips after 2 µs, and the terminal is isolated within 1 µs. -/
  | ovTrip (t : Nat) (neg : Bool) (mv : Int)
  /-- SWITCH_CURRENT_LIMIT (R68): A bias or return switch held in current limit for 10 µs isolates its terminal. -/
  | switchCurrentLimit (t : Nat) (neg : Bool)
  /-- OV_CLEAR (R66): A detector clears after the voltage stays inside the clear window for RECOVER_MS. -/
  | ovClear (t : Nat) (neg : Bool) (mv : Int)
  /-- ROUTE_RECLOSE (R69): At the next frame boundary after a clear with AUTO = 1, the terminal's routes re-close and settle windows start. -/
  | routeReclose (t : Nat)
  /-- TSTAT_OV_CLEAR (R69): Firmware clears both OV bits of HRN_TSTAT inside the clear window, which ends an isolation under AUTO = 0. -/
  | tstatOvClear (q : Requester) (t : Nat) (mv : Int) (v : Word)
  /-- OPEN_COMPARATOR_TRIP (R74): A channel's open comparator trips and the channel enters the open-wire state. -/
  | openComparatorTrip (ch : Nat)
  /-- OPEN_COMPARATOR_CLEAR (R88): The open comparator clears; for an unprobed channel the recovery time starts. -/
  | openComparatorClear (ch : Nat)
  /-- OPEN_STATE_END (R88): At the first frame boundary after the comparator or COMPLIANCE has stayed clear for RECOVER_MS, an unprobed channel leaves the open-wire state. -/
  | openStateEnd (ch : Nat)
  /-- PROBE_INTERVAL (R75): A terminal's probe interval expires and its probe becomes due. -/
  | probeInterval (t : Nat)
  /-- PROBE_PULSE_START (R75): A 1 mA probe pulse starts 100 ns after a strobe of the terminal's group. -/
  | probePulseStart (t : Nat)
  /-- PROBE_PULSE_END (R76): After 20 µs the probe compares the rise and judges the terminal open, shorted or passed. -/
  | probePulseEnd (t : Nat) (riseUv : Int)
  /-- PROBE_RECOVERY_END (R75): The terminal's recovery of RECOVER × 10 µs after a probe ends. -/
  | probeRecoveryEnd (t : Nat)
  /-- SATURATION_TRIP (R89): A front end's saturation detector trips; samples carry OVR, and a charge-mode reset may close. -/
  | saturationTrip (ch : Nat)
  /-- SATURATION_CLEAR (R89): The saturation detector clears, which allows a later raise. -/
  | saturationClear (ch : Nat)
  /-- DRIVER_CHANGE (R100): 0.3 µs after a frame boundary a driver takes its new enable, mode, set point or other setting, and an excitation window starts. -/
  | driverChange (d : Nat)
  /-- DRIVER_LIMIT_ENTER (R98): A driver enters its 50 mA current limit and LIMIT reads 1. -/
  | driverLimitEnter (d : Nat)
  /-- DRIVER_LIMIT_LEAVE (R98): A driver's output falls below the limit and LIMIT returns to 0. -/
  | driverLimitLeave (d : Nat)
  /-- EXC_OVERCURRENT (R98): A driver held in limit for 10 µs raises EXC_OVERCURRENT and sets OVERCURRENT. -/
  | excOvercurrent (d : Nat)
  /-- VEXC_TOTAL_OVERCURRENT (R99): Total VEXC current above 2.0 A for 10 µs raises EXC_OVERCURRENT with driver 0x7F. -/
  | vexcTotalOvercurrent (ma : Nat)
  /-- EXC_REVERSED (R100): Reversed leads are detected; the driver's output goes to zero and REVERSED is set. -/
  | excReversed (d : Nat)
  /-- REVERSED_CLEAR (R100): Firmware clears EXC_STATUS.REVERSED, and the driver restarts at the next frame boundary. -/
  | reversedClear (q : Requester) (d : Nat) (v : Word)
  /-- COMPLIANCE (R101): A current-mode driver held at its compliance limit for 20 µs sets COMPLIANCE, and the linked channels enter the open-wire state. -/
  | compliance (d : Nat)
  /-- CHOP_START (R102): A chopped driver starts its positive output in the first frame that is a multiple of 2 × HALF after its enable. -/
  | chopStart (d : Nat)
  /-- CHOP_EDGE (R103): A chopped driver reverses polarity 0.3 µs after the strobes of every HALF-th frame boundary. -/
  | chopEdge (d : Nat)
  /-- RELIEF_PREPARE (R105): At B0 the spare front end takes the channel's settings and is pre-charged. -/
  | reliefPrepare (ch : Nat)
  /-- RELIEF_SWITCHOVER (R105): At B1 the spare's input switches close, and from B1 + 0.5 µs it serves the channel with CAL = 1. -/
  | reliefSwitchover (k : Nat)
  /-- RELIEF_OLD_OPEN (R51): At B1 + 1.1 µs the relieved unit's input switches open and it goes to calibration. -/
  | reliefOldOpen (k : Nat)
  /-- RELIEF_FINISH (R105): At the first frame boundary after the relieved unit's calibration ends, it becomes the spare and CAL returns to 0. -/
  | reliefFinish (k : Nat)
  /-- STROBE_PLACE (R123): At the reference AON tick the scheduler computes the coarse and fine delay of an instant. -/
  | strobePlace (g : Nat)
  /-- GROUP_STROBE (R121): At a group instant every track-and-hold of the group's channels holds. -/
  | groupStrobe (g : Nat)
  /-- SYNC_RESET (R128): At its reset instant a group's streams restart at index 0, its chains are zeroed and SYNC_OUT may pulse. -/
  | syncReset (g : Nat)
  /-- SYNC_IN_EDGE (R131): A selected SYNC_IN edge registers at an AON tick and makes a sync request two ticks later. -/
  | syncInEdge (rising : Bool)
  /-- SYNC_SCHEDULE_ARM (R132): A write of SMP_SYNC_T2 with ARM = 1 arms a scheduled sync request, replacing any pending one. -/
  | syncScheduleArm (q : Requester) (v : Word)
  /-- SYNC_SCHEDULE_CANCEL (R132): A write of SMP_SYNC_T2 with ARM = 0 cancels the pending scheduled request. -/
  | syncScheduleCancel (q : Requester) (v : Word)
  /-- SYNC_SCHEDULE_EVAL (R132): At the first AON tick after arming the request is evaluated and its frame boundary F chosen. -/
  | syncScheduleEval
  /-- SYNC_OUT_PULSE_END (R135): A SYNC_OUT pulse ends after WIDTH_NS. -/
  | syncOutPulseEnd
  /-- SLOT_SAMPLE (R152): A position samples the source of its slot at the slot's end, and its code leaves 192 ns later. -/
  | slotSample (pos : Nat) (slot : Nat) (code : BitVec 16) (ovr : Bool) (resid : Nat)
  /-- HK_TIMER_EXPIRE (R159): The housekeeping interval expires and list LIST is started at the next frame boundary. -/
  | hkTimerExpire
  /-- HK_CTL_WRITE (R159): A write to ADC_HK_CTL restarts the housekeeping timer, or stops it with INTERVAL_MS = 0. -/
  | hkCtlWrite (q : Requester) (v : Word)
  /-- IL_START (R159): A write of ADC_IL_CTL.START makes the list pending, or sets AGAIN and counts merges. -/
  | ilStart (q : Requester) (l : Nat) (v : Word)
  /-- IL_RUN_START (R160): With no list running, the lowest pending list starts at the next slack slot. -/
  | ilRunStart
  /-- IL_DEADLINE (R161): A list's deadline expires before its last conversion, which raises INJ_DEFERRED and sets LATE. -/
  | ilDeadline (l : Nat)
  /-- CAL_STARVED (R164): The calibration list or a substitution waits for CAL_STARVE_TO, and a slack slot is forced from the next boundary. -/
  | calStarved
  /-- CORE_RELIEF (R165): ADC_MAP gives a position to the spare core at a frame boundary, and the relieved core goes to calibration. -/
  | coreRelief (pos : Nat)
  /-- ADC_CORE_FAIL (R166): A core fails on residue or on clock loss: it is marked failed and its position moves to the spare at the next boundary. -/
  | adcCoreFail (c : Nat) (clk : Bool)
  /-- ADC_CORE_REHAB (R167): A write of 1 to FAILED hands a failed core to calibration. -/
  | adcCoreRehab (q : Requester) (c : Nat)
  /-- FIL_SWAP (R203): A write of FIL_SWAP requests a bank swap, which starts, queues, replaces or is ignored. -/
  | filSwap (q : Requester) (v : Word) (bad : Bool)
  /-- ROM_BACKGROUND_CHECK (R208): Once per millisecond one response's CRC is verified, and a repeated mismatch marks it bad. -/
  | romBackgroundCheck (bad1 : Bool) (bad2 : Bool)
  /-- NOP (R217): The Bridle issues a NOP entry, which does nothing. -/
  | nop (w : Walk) (u : Word72)
  /-- CONV (R218): The Bridle issues a CONV entry, which schedules regular conversions of a run of channels on one position. -/
  | conv (u : Word72)
  /-- AUXC (R221): A list issues an AUXC entry that claims a slack slot for an auxiliary conversion, and optionally sends the code to a stream. -/
  | auxc (u : Word72)
  /-- FEED (R219): The Bridle issues a FEED entry, which presents stored raw samples to chains and to the Burgees. -/
  | feed (u : Word72)
  /-- WRITE (R229): The Bridle issues a WRITE entry, which hands the completed outputs of the named streams to the DMA and the Burgees. -/
  | write (u : Word72)
  /-- WAIT (R225): The Bridle issues a WAIT entry, which holds the regular walk until cycle T_NS. -/
  | wait (u : Word72)
  /-- WAIT_END (R225): The cycle named by a WAIT is reached and the regular walk continues. -/
  | waitEnd
  /-- FEND (R225): The Bridle issues a FEND entry, which ends the frame's program. -/
  | fend (u : Word72)
  /-- LOOP (R227): The Bridle issues a LOOP entry, which pushes, counts down or pops the loop stack. -/
  | loop (w : Walk) (u : Word72)
  /-- JUMP (R223): The Bridle issues a JUMP entry, which continues at TARGET. -/
  | jump (w : Walk) (u : Word72)
  /-- LEND (R230): A list walk issues LEND, which ends the run and lets calibration read its accumulators. -/
  | lend (w : Walk) (u : Word72)
  /-- CCONV (R222): The calibration walk issues a CCONV entry, which converts a front end or an auxiliary source into an accumulator. -/
  | cconv (u : Word72)
  /-- LOCATE_COMPLETE (R241): The locate after an illegal step completes, and the walk resumes at the next boundary. -/
  | locateComplete
  /-- SEQ_TABLE_WRITE (R234): A write through the table window goes to the staged copy, or is refused for a sealed entry. -/
  | seqTableWrite (q : Requester) (a : Nat) (v : Word)
  /-- SEQ_SCRUB_READ (R240): Every 64 idle CORE cycles the background check reads one live entry and advances the pass CRC. -/
  | seqScrubRead (u : Word72)
  /-- STREAM_FRAME_BUILD (R265): A stream frame is built from RPOS when WM words wait, MAXAGE_MS passes, or the era or epoch changes. -/
  | streamFrameBuild (s : Nat)
  /-- GAP_RECORD_BUILD (R270): A placeholder run or a pending loss run becomes a gap record and is queued in class 3. -/
  | gapRecordBuild (s : Nat)
  /-- ERA_END_RECORD (R271): After the last position of an ended era is taken, an ERA_END record is queued. -/
  | eraEndRecord (s : Nat)
  /-- STOPPED_RECORD (R271): After a disabled buffer's positions are taken or lost, a STOPPED record is queued. -/
  | stoppedRecord (s : Nat)
  /-- BACKFILL_SUBMIT (R274): A write of STR_BF_CTL with GO = 1 queues a backfill request, or refuses a fifth. -/
  | backfillSubmit (q : Requester) (src : Nat) (v : Word)
  /-- BACKFILL_SERVE (R275): The service resolves a request index by index into backfill frames, gap records or Cinch blocks. -/
  | backfillServe
  /-- TRIGGER_DECIDE (R286): A unit evaluates its state's conditions on a cause and makes a hit with its actions and transition. -/
  | triggerDecide (n : Nat)
  /-- TRIGGER_TIMEOUT (R293): A state's timer expires, and the unit performs ACT_TO and goes to NEXT_TO. -/
  | triggerTimeout (n : Nat)
  /-- TRG_RESTART (R285): A write of TRG_RESTART enters the start state of each named armed unit. -/
  | trgRestart (q : Requester) (v : Word)
  /-- TRG_FIRE (R288): A write of TRG_FIRE makes the CMD conditions of the named units true. -/
  | trgFire (q : Requester) (v : Word)
  /-- SEGMENT_ALLOCATE (R300): Within 400 ns of a CAPTURE action a segment entry and slot are allocated, or the trigger is missed. -/
  | segmentAllocate (n : Nat)
  /-- SEGMENT_WORD_COPY (R302): The capture engine copies a stream word into a slot, or writes a placeholder and a capture gap record for a word it missed. -/
  | segmentWordCopy (k : Nat) (i : Nat)
  /-- SEGMENT_CLOSE (R304): A segment closes when it holds HELD words, or closes early, and passes to test and measurement. -/
  | segmentClose (k : Nat)
  /-- SEGMENT_MEASURE_DONE (R304): The mask test and measurements of a segment complete and the entry reads closed. -/
  | segmentMeasureDone (k : Nat)
  /-- TRG_SEG_REL (R305): A write of TRG_SEG_REL releases a closed segment. -/
  | trgSegRel (q : Requester) (v : Word)
  /-- MEM_WINDOW_WRITE (R336): A register-bus write to the capture memory window is held, or applied as a full or narrow word write. -/
  | memWindowWrite (q : Requester) (a : Nat) (v : Word)
  /-- MEM_CLR (R334): A write of MEM_CLR.GO starts clearing tiles, or is refused. -/
  | memClr (q : Requester) (v : Word)
  /-- MEM_CLR_DONE (R334): A tile clear completes, with the valid bits and checksum reset and RETIRED cleared. -/
  | memClrDone
  /-- TILE_VERIFY (R339): A verification pass over an unverified tile completes, setting VERIFIED or retiring the tile. -/
  | tileVerify (t : Nat) (u : Word72)
  /-- TILE_RESEAL (R342): A write of 1 to RETIRED starts a reseal of the tile. -/
  | tileReseal (q : Requester) (t : Nat) (v : Word)
  /-- TILE_RESEAL_DONE (R342): A reseal completes and clears the retirement, unless it met an uncorrectable word. -/
  | tileResealDone (t : Nat)
  /-- MEM_SCRUB_READ (R343): Every 64 CORE cycles the patrol scrub visits the next word. -/
  | memScrubRead (u : Word72) (vflip : Nat)
  /-- FLIPMASK_ARM (R345): A write of MEM_FLIPMASK_HI arms a flip mask for the next qualifying write. -/
  | flipmaskArm (q : Requester) (v : Word)
  /-- HIST_BLOCK_START (R368): A history block for a stream comes due and the engine starts coding it from HPOS. -/
  | histBlockStart (s : Nat)
  /-- SEG_BLOCK_START (R374): The engine starts coding the next readout block of an auto segment. -/
  | segBlockStart (k : Nat)
  /-- CINCH_BLOCK_DONE (R365): The engine completes a block and self-checks it by decoding. -/
  | cinchBlockDone
  /-- CIN_JOB_GO (R375): A write of CIN_JOB_CTL.GO starts a compression job, or is refused. -/
  | cinJobGo (q : Requester) (src : Nat) (v : Word)
  /-- CIN_JOB_RESUME (R377): A write of RESUME continues a stopped job mid-block or from the block's start. -/
  | cinJobResume (q : Requester) (v : Word)
  /-- CIN_JOB_ABORT (R378): A write of ABORT ends a running or stopped job. -/
  | cinJobAbort (q : Requester) (v : Word)
  /-- CIN_JOB_AUTO_RESUME (R377): With SEND = 1 a stopped job continues by itself once egress has freed 4 KiB. -/
  | cinJobAutoResume
  /-- CIN_OUT_RD_WRITE (R376): A write of CIN_OUT_RD frees ring bytes, or is refused. -/
  | cinOutRdWrite (q : Requester) (v : Word)
  /-- PORT_DOWN_END (R397): After 10 µs in DOWN the port moves to CLOCK. -/
  | portDownEnd (p : Port)
  /-- CLOCK_LANE_LOCKED (R397): The clock lane receiver holds lock for 100 µs and the port moves to LOCK. -/
  | clockLaneLocked (p : Port) (heldNs : Nat)
  /-- LOCK_DONE (R397): All lanes are healthy, or 8 ms pass with one healthy, and the port moves to WIDTH. -/
  | lockDone (p : Port) (steps : List Nat)
  /-- PORT_UP (R397): The partner's AMs show WIDTH or UP, the port sends immediate AMs and enters UP. -/
  | portUp (p : Port) (lvs : List (List Int))
  /-- TRAINING_FAIL (R397): The port does not reach UP within TRAIN_MS, raises x_TRAINING_FAIL and returns to DOWN. -/
  | trainingFail (p : Port)
  /-- LANE_DOWN (R404): A data lane goes down on signal loss, phase loss, bad markers or skew, and leaves HEALTHY. -/
  | laneDown (p : Port) (l : Nat) (cause : Nat) (backNs : Nat)
  /-- CLOCK_LANE_LOSS (R405): No clock edge arrives for 100 ns, and the port goes to DOWN and retrains. -/
  | clockLaneLoss (p : Port)
  /-- LNK_RETRAIN (R405): A write of LNKx_CTL.RETRAIN sends the port to DOWN. -/
  | lnkRetrain (q : Requester) (p : Port) (v : Word)
  /-- WIDTH_CHANGE (R406): A HEALTHY change is announced by WIDTH blocks and immediate AMs, and the port restripes. -/
  | widthChange (p : Port)
  /-- WIDTH_BLOCK_RECEIVE (R406): A WIDTH block or AM with a new HEALTHY arrives, and the port adopts the AND of both. -/
  | widthBlockReceive (p : Port) (lvs : List (List Int))
  /-- LANE_READMIT (R408): After 10 ms of good training AMs a lane returns to HEALTHY and the port widens. -/
  | laneReadmit (p : Port) (l : Nat)
  /-- TRACK_BOUND (R402): A tracking offset reaches ±8 taps, raising x_TRACK_BOUND and requesting recalibration. -/
  | trackBound (p : Port) (l : Nat) (which : Nat) (up : Bool)
  /-- RECAL_TIMEOUT (R403): A lane pending recalibration for RECAL_MAX_S is removed from the active set. -/
  | recalTimeout (p : Port) (l : Nat)
  /-- LANE_REEQUALISE (R400): A changed data-lane cell is applied by taking the lane out, applying it and readmitting it. -/
  | laneReequalise (p : Port) (l : Nat)
  /-- CLOCK_EQ_STEP (R400): Every 100 µs a changed clock-lane field steps one code. -/
  | clockEqStep (p : Port)
  /-- LANE_SLEEP (R410): After IDLE_NS with nothing to send, the port sends SLEEP blocks and stops its data lanes. -/
  | laneSleep (p : Port)
  /-- SLEEP_BLOCK_RECEIVE (R410): SLEEP blocks arrive and the receiver holds its tracking while the partner's lanes sleep. -/
  | sleepBlockReceive (p : Port) (lvs : List (List Int))
  /-- LANE_WAKE (R411): Something is to be sent and the transmitter wakes its lanes with RICH_IDLE and wake AMs. -/
  | laneWake (p : Port)
  /-- ABORT_BLOCK_RECEIVE (R392): An ABORT block, or a reserved control block, ends the frame in progress. -/
  | abortBlockReceive (p : Port) (lvs : List (List Int))
  /-- FRAME_HEADER_RECEIVE (R427): An SOF block arrives, its HCHK is checked, and the frame is consumed, forwarded or discarded. -/
  | frameHeaderReceive (p : Port) (lvs : List (List Int)) (off : Nat) (obs : List TrackObs)
  /-- FRAME_TRAILER_CHECK (R426): A frame's trailer completes; a failure discards it and aborts its forwarded copy. -/
  | frameTrailerCheck (p : Port) (lvs : List (List Int))
  /-- FRAME_FORWARD (R430): An idle port sends the next forwarded or own frame, by cut-through or store-and-forward. -/
  | frameForward (p : Port) (off : Nat)
  /-- EGRESS_SEND (R450): A port sends the oldest unsent descriptor of the lowest class, and a descriptor sent on both ports leaves. -/
  | egressSend (p : Port) (off : Nat)
  /-- EGRESS_LAG_DROP (R450): A port that lags LAG_US behind the other drops its copy. -/
  | egressLagDrop (p : Port)
  /-- EVENT_FRAME_BUILD (R445): Waiting event items are built into an EVENT frame when class 4 has room. -/
  | eventFrameBuild
  /-- REG_READ (R437): A REG_READ command reads COUNT words and returns them. -/
  | regRead
  /-- REG_WRITE (R437): A REG_WRITE command writes COUNT words, stopping at the first that cannot complete. -/
  | regWrite
  /-- SNAP_READ (R438): A SNAP_READ command reads up to 16 ranges from one frozen state. -/
  | snapRead
  /-- CAP_DISC (R440): A CAP_DISC command returns ID0, EPOCH and capability-list words. -/
  | capDisc
  /-- LINK_CTL_WAKE (R441): A LINK_CTL WAKE wakes CORE and holds the port's transmit lanes awake for ARG ms. -/
  | linkCtlWake (p : Port)
  /-- LINK_CTL_STATUS (R441): A LINK_CTL STATUS is answered with LNKx_STATUS and the hub ID. -/
  | linkCtlStatus (p : Port)
  /-- LINK_CTL_RETRAIN (R441): A LINK_CTL RETRAIN acts as LNKx_CTL.RETRAIN. -/
  | linkCtlRetrain (p : Port)
  /-- TIME_SYNC (R493): A valid SYNC time frame is stamped and DIFF is recorded for the arrival port. -/
  | timeSync (p : Port)
  /-- TIME_PING (R494): A valid PING addressed to the hub draws a PONG on its arrival port within 4 µs. -/
  | timePing (p : Port)
  /-- FLT_EVT_QUEUE_READ (R452): A read of FLT_EVT_QUEUE removes and returns the highest-class oldest item. -/
  | fltEvtQueueRead (q : Requester)
  /-- CRC_WINDOW_END (R467): A CRC window ends and the CRC-rate condition is set or cleared. -/
  | crcWindowEnd (p : Port)
  /-- GIVE_UP (R471): The active port becomes unhealthy and gives up control within 200 ns, raising x_GIVE_UP. -/
  | giveUp
  /-- PORT_HEALTHY (R472): While ACTIVE is EITHER the first port to become healthy becomes active. -/
  | portHealthy (p : Port)
  /-- REVERT_HOLD_EXPIRE (R473): The preferred port has stayed healthy for HOLD_MS and takes control back. -/
  | revertHoldExpire
  /-- SHADOW_TIMEOUT (R469): A shadow entry not promoted within SHADOW_US is discarded. -/
  | shadowTimeout
  /-- FORCE_WRITE (R476): A direct write of LNK_PORT_CTL.FORCE forces a port outside FIELD. -/
  | forceWrite (q : Requester) (v : Word)
  /-- TIM_INCR_WRITE (R487): A write of TIM_INCR_NS submits a new increment, or is refused. -/
  | timIncrWrite (q : Requester) (v : Word)
  /-- TIM_ADJ_WRITE (R488): A write of TIM_ADJ_NS submits a step, or is refused with TIME_STEP_REJECT. -/
  | timAdjWrite (q : Requester) (v : Word)
  /-- TIM_SET_WRITE (R489): A write of TIM_SET_SHI submits an absolute load, or is refused. -/
  | timSetWrite (q : Requester) (v : Word)
  /-- TIM_NOW_READ (R486): A read of TIM_NOW_FRAC latches the present network time. -/
  | timNowRead (q : Requester) (d : Nat)
  /-- TIM_LOCK (R496): A write of TIM_CTL.LOCK sets QUALITY to LOCKED, or is refused. -/
  | timLock (q : Requester) (v : Word)
  /-- TIME_HOLDOVER (R497): No valid time frame arrives for TO_MS; QUALITY becomes HOLDOVER and TIME_HOLDOVER is raised. -/
  | timeHoldover
  /-- FREE_TIMEOUT (R496): FREE_S seconds in HOLDOVER pass and QUALITY becomes FREE. -/
  | freeTimeout
  /-- CAL_STEP_START (R514): A calibration track picks its next due item and starts a step. -/
  | calStepStart (track : CalTrack)
  /-- CAL_RUN_START (R511): The controller starts a calibration-list run and clears the accumulators. -/
  | calRunStart
  /-- CAL_STEP_TIMEOUT (R525): A run that does not reach LEND within STEP_TO fails with timeout. -/
  | calStepTimeout
  /-- CAL_PERIODIC_RUN (R513): With no run needed, a run is started every 100 ms to keep temperatures current. -/
  | calPeriodicRun
  /-- CAL_RUN_ALL (R510): A write of CAL_CTL.RUN_ALL makes every item due. -/
  | calRunAll (q : Requester) (v : Word)
  /-- DELAY_STEP (R524): A lane delay step sets TX_PS and RX_PS together at one AON tick. -/
  | delayStep (p : Port) (l : Nat) (readings : List Int)
  /-- SLICER_STEP (R523): A slicer step runs on the training pattern, sweeping the phase and setting the thresholds. -/
  | slicerStep (p : Port) (l : Nat) (meas : List Int)
  /-- XING_ACK (R542): The sender sees ACK on a request crossing and sends the next pending request. -/
  | xingAck (x : Nat)
  /-- XING_REQUEST (R541): A request on a crossing toggles REQ, or adds to the pending count, or is discarded at 255. -/
  | xingRequest (x : Nat)
  /-- QUEUE_RESYNC (R547): One side of an asynchronous queue is reset, and the two sides resynchronise their pointers. -/
  | queueResync (qu : Nat) (side : Nat)
  /-- FAULT_RAISE (R552): A source is raised; status, INFO and RAISES update, items are queued, and a timer or critical reaction starts. -/
  | faultRaise (i : Nat) (info : Nat)
  /-- FAULT_CAUSE_END (R552): The cause of a level source stops being present. -/
  | faultCauseEnd (i : Nat)
  /-- REACTION_TIMER_EXPIRE (R555): A reaction timer expires with the bit set, and the reaction acts. -/
  | reactionTimerExpire (i : Nat)
  /-- FAULT_STATUS_CLEAR (R560): Firmware clears fault status bits by W1C, which cancels timers and starts the end of parks. -/
  | faultStatusClear (q : Requester) (hi : Bool) (v : Word)
  /-- PARK_END (R557): At the first frame boundary after a clear, a park or stop of excitation ends. -/
  | parkEnd (i : Nat)
  /-- FAULT_N_MINW_END (R561): The FAULT_N minimum width ends, and the pin is released unless a FAULT or CRITICAL bit is set. -/
  | faultNMinwEnd
  /-- SAFE_ENTER (R558): A write of FLT_SAFE.ENTER, or a reaction, enters SAFE. -/
  | safeEnter (q : Requester) (v : Word)
  /-- SAFE_RESUME (R559): A write of FLT_SAFE.RESUME requests the end of SAFE, or is refused. -/
  | safeResume (q : Requester) (v : Word)
  /-- SAFE_END (R559): At the next frame boundary after an accepted RESUME, SAFE ends and routes and drivers restart. -/
  | safeEnd
  /-- REC_TRIGGER (R565): A write of REC_CTL.TRIGGER makes a recorder trigger. -/
  | recTrigger (q : Requester) (v : Word)
  /-- RECORD_ASSEMBLE (R566): CORE assembles a Pennant record from the listed registers into a slot. -/
  | recordAssemble
  /-- RECORD_FLUSH (R571): A record is programmed into the NVM ring with its sector erase and read-back. -/
  | recordFlush (ok : Bool)
  /-- RECORDER_SCAN (R573): After the first commit the recorder scans the ring and continues the SEQ. -/
  | recorderScan
  /-- OPSEC_SAVE (R575): Every 900 s an operating-seconds entry is appended to the counter area. -/
  | opsecSave (ok : Bool)
  /-- REC_FETCH (R572): A write of REC_FETCH_CTL.GO sends COUNT stored records from SEQ FIRST. -/
  | recFetch (q : Requester) (src : Nat) (v : Word)
  /-- REC_BUNT_CLR (R576): A write of REC_BUNT_CLR clears the named Bunting words. -/
  | recBuntClr (q : Requester) (v : Word)
  /-- REC_SLOT_BAD_CLEAR (R578): A W1C of REC_SLOT_BAD returns a slot to rotation. -/
  | recSlotBadClear (q : Requester) (w : Nat) (v : Word)
  /-- POWER_ON (R591): The supplies reach their ranges with REFCLK running, which begins a power-on start. -/
  | powerOn
  /-- RESET_N (R591): RESET_N held low for at least 1 µs begins a start. -/
  | resetN (lowNs : Nat)
  /-- AON_RESET_END (R591): AON reset ends 2.0 ms after the start condition ends; POS is sampled and the OTP read begins. -/
  | aonResetEnd (pos : Nat)
  /-- OTP_READ_DONE (R642): The OTP read completes, trims and the safe row load, and the register bus opens. -/
  | otpReadDone (bad : List Nat)
  /-- LOADER_SFDP (R596): The loader reads SFDP and accepts or rejects the NVM. -/
  | loaderSfdp (params : SfdpParams)
  /-- IMAGE_HEADER_JUDGE (R602): The loader reads and judges both image headers. -/
  | imageHeaderJudge
  /-- IMAGE_LOAD (R603): The loader reads, verifies and applies one slot's image to the staging set. -/
  | imageLoad
  /-- FIELD_REFERENCES_READY (R603): The field-die references become ready and the loader writes GO. -/
  | fieldReferencesReady
  /-- REPEATER_MODE (R606): Neither slot loads and the hub enters repeater mode. -/
  | repeaterMode
  /-- START_FREE (R595): A write of SYS_RUN_CTL.START_FREE releases sampling with QUALITY FREE. -/
  | startFree (q : Requester) (v : Word)
  /-- SUPPLY_MONITOR_TRIP (R654): A supply monitor crosses its threshold and raises its power source. -/
  | supplyMonitorTrip (rail : Nat)
  /-- FIELD_RAIL_TIMEOUT (R654): A field-die rail that has not entered range 1 s after t = 0 raises its source. -/
  | fieldRailTimeout (rail : Nat)
  /-- REFCLK_LOSS (R656): No REFCLK edge arrives for 1 µs; the watchdog takes over and fast domains stop until the next start. -/
  | refclkLoss
  /-- MSPI_READ (R659): An MSPI READ command issues a register read and returns status and data bytes. -/
  | mspiRead (a : Nat) (n : Nat)
  /-- MSPI_WRITE (R659): An MSPI WRITE command issues a register write for each data word. -/
  | mspiWrite (a : Nat) (ws : List Word)
  /-- LIFECYCLE (R630): The LIFECYCLE critical command programs a life-cycle state bit, then restarts. -/
  | lifecycle (ctrOk : Bool) (opOk : Bool)
  /-- KEY_ROTATE (R623): The KEY_ROTATE critical command programs the next key slot and revokes the old one. -/
  | keyRotate (ctrOk : Bool) (opOk : Bool)
  /-- IMAGE_WRITE (R629): The IMAGE_WRITE critical command erases, programs or restarts, according to OP. -/
  | imageWrite (ctrOk : Bool) (opOk : Bool)
  /-- RECORDER_ERASE (R629): The RECORDER_ERASE critical command erases the ring and frees the recorder slots. -/
  | recorderErase (ctrOk : Bool) (opOk : Bool)
  /-- FORCE_PORT (R477): The FORCE_PORT critical command writes LNK_PORT_CTL.FORCE. -/
  | forcePort (ctrOk : Bool) (opOk : Bool)
  /-- RESUME (R629): The RESUME critical command ends SAFE under the rule for ending SAFE. -/
  | resume (ctrOk : Bool) (opOk : Bool)
  /-- ZEROIZE (R629): The ZEROIZE critical command revokes the keys, erases images and records, then restarts. -/
  | zeroize (ctrOk : Bool) (opOk : Bool)
  /-- DEBUG_UNLOCK (R629): The DEBUG_UNLOCK critical command opens the named JTAG paths until the next start. -/
  | debugUnlock (ctrOk : Bool) (opOk : Bool)
  /-- FACTORY_RESET (R629): The FACTORY_RESET critical command erases images and records, then restarts. -/
  | factoryReset (ctrOk : Bool) (opOk : Bool)
  /-- COMMAND_RESTART (R631): 1 ms after its response is accepted, a restarting command begins a command restart. -/
  | commandRestart
  /-- AON_RESET_BEGIN (R654): When VAON falls below 0.65 V, AON reset begins and the whole hub loses its state except what survives a power loss. -/
  | aonResetBegin
  /-- WAKE_AM_RECEIVE (R411): Signal returns on a partner's sleeping data lanes; the receiver restarts its precoder at 0 and takes the wake AMs to resume the lane set. -/
  | wakeAmReceive (p : Port) (lvs : List (List Int))
  /-- COMPLIANCE_CLEAR (R101): A current-mode or IEPE driver's force output leaves its compliance limit, COMPLIANCE clears and the RECOVER_MS count toward ending the open-wire state begins. -/
  | complianceClear (d : Nat)
  /-- ERASURE_COMPLETE (R631): The erasure ordered by ZEROIZE or FACTORY_RESET completes, and the hub then makes its command restart. -/
  | erasureComplete
  deriving DecidableEq, Repr

end Sys2Proof
end

