-- ==== Sys2Proof/Config.lean ====
section
/-!
DEFINITION. What the spec leaves open and the machine still does: constants without a body, so that nothing can be
proved of their values. A statement holds whatever they are.
-/
namespace Sys2Proof.Config

/-- A free word; the argument is the number of the draw (a counter in the state). -/
opaque freeWord : Nat → Word

/-- A free choice between two courses; the argument is the number of the draw. -/
opaque freeBool : Nat → Bool

/-- The hash of four bytes by which the Cinch encoder looks a position up (R364 fixes the search, not the hash). -/
opaque cinchHash : Byte → Byte → Byte → Byte → Nat

/-- What the coder writes of a block's predicted stream at a level has been upset, so that the engine's own decoder does not
find the input in it (R366). -/
opaque cinchUpset : Nat → List Byte → Bool

/-- A stage threshold that an ADC step computes from residue histograms (R522): core, comparator, number of the draw. -/
opaque adcThreshold : Nat → Nat → Nat → Int

end Sys2Proof.Config
end

