-- ==== Sys2Proof/Machine/Bits.lean ====
section
/-!
DEFINITION. Bit fields, two's complement, byte order (R8: frames are sent most significant byte first; R9: stored
structures are held least significant byte first) and saturation.
-/
namespace Sys2Proof.Machine

/-- Bits [hi:lo] of a natural number. -/
def natBits (n hi lo : Nat) : Nat := (n >>> lo) % 2 ^ (hi + 1 - lo)

/-- Bit `i` of a natural number. -/
def natBit (n i : Nat) : Bool := n.testBit i

/-- `n` with bits [hi:lo] replaced by `v`, cut to the field's width. -/
def natPut (n hi lo v : Nat) : Nat :=
  let w := 2 ^ (hi + 1 - lo)
  (n / 2 ^ (hi + 1)) * 2 ^ (hi + 1) + (v % w) * 2 ^ lo + n % 2 ^ lo

/-- Bits [hi:lo] of a word. -/
def bits (w : Word) (hi lo : Nat) : Nat := natBits w.toNat hi lo

/-- A word with bits [hi:lo] replaced. -/
def putBits (w : Word) (hi lo v : Nat) : Word := BitVec.ofNat 32 (natPut w.toNat hi lo v)

/-- 1 for true and 0 for false. -/
def b2n (b : Bool) : Nat := if b then 1 else 0

/-- The two's-complement value of the low `w` bits of `n`. -/
def toSigned (w n : Nat) : Int :=
  let m := n % 2 ^ w
  if 2 * m < 2 ^ w then (m : Int) else (m : Int) - (2 ^ w : Nat)

/-- The low `w` bits of an integer, as two's complement. -/
def ofSigned (w : Nat) (i : Int) : Nat := (i % ((2 ^ w : Nat) : Int)).toNat

/-- An integer kept within [lo, hi]. -/
def clampInt (lo hi i : Int) : Int := if i < lo then lo else if hi < i then hi else i

/-- `n / d` rounded to the nearest integer, a half to the even one. -/
def roundHalfEven (n : Int) (d : Nat) : Int :=
  let q := n / (d : Int)
  let r := (n % (d : Int)).toNat
  if 2 * r < d then q
  else if d < 2 * r then q + 1
  else if q % 2 = 0 then q else q + 1

/-- Saturating addition below `2^w`. -/
def satAdd (w a b : Nat) : Nat := if a + b < 2 ^ w then a + b else 2 ^ w - 1

/-- `n` as `k` bytes, most significant byte first (R8). -/
def beBytes : Nat → Nat → List Byte
  | 0, _ => []
  | k + 1, n => BitVec.ofNat 8 (n >>> (8 * k)) :: beBytes k n

/-- `n` as `k` bytes, least significant byte first (R9). -/
def leBytes : Nat → Nat → List Byte
  | 0, _ => []
  | k + 1, n => BitVec.ofNat 8 n :: leBytes k (n >>> 8)

/-- The number that bytes spell, most significant byte first. -/
def beNat (l : List Byte) : Nat := l.foldl (fun a b => a * 256 + b.toNat) 0

/-- The number that bytes spell, least significant byte first. -/
def leNat : List Byte → Nat
  | [] => 0
  | b :: t => b.toNat + 256 * leNat t

/-- `n` bytes of a list from offset `o`; bytes beyond its end are absent. -/
def slice {α : Type} (l : List α) (o n : Nat) : List α := (l.drop o).take n

/-- The number in `n` bytes at offset `o`, most significant byte first. -/
def beAt (l : List Byte) (o n : Nat) : Nat := beNat (slice l o n)

/-- The number in `n` bytes at offset `o`, least significant byte first. -/
def leAt (l : List Byte) (o n : Nat) : Nat := leNat (slice l o n)

/-- The bits of `n` below `w`, most significant first. -/
def msbBits : Nat → Nat → List Bool
  | 0, _ => []
  | w + 1, n => n.testBit w :: msbBits w n

/-- The number that bits spell, most significant first. -/
def bitsNat (l : List Bool) : Nat := l.foldl (fun a b => 2 * a + b2n b) 0

/-- Zero bytes. -/
def zeros (n : Nat) : List Byte := List.replicate n 0

/-- The numbers below `n` at which `p` holds, in rising order. -/
def indices (n : Nat) (p : Nat → Bool) : List Nat := (List.range n).filter p

/-- Parity (exclusive or) of the low `w` bits. -/
def parityBits : Nat → Nat → Bool
  | 0, _ => false
  | w + 1, n => xor (n.testBit w) (parityBits w n)

/-- The number of ones among the low `w` bits. -/
def popCount : Nat → Nat → Nat
  | 0, _ => 0
  | w + 1, n => b2n (n.testBit w) + popCount w n

end Sys2Proof.Machine
end

