-- ==== Sys2Proof/Machine/Crc.lean ====
section
/-!
DEFINITION. The hub's checksums: CRC-8 of the Stitch and of frame headers (R21, R422) and CRC-32C of frames, the
Bridle table, tiles and the Poloc image.
-/
namespace Sys2Proof.Machine

/-- CRC-8 with polynomial x^8 + x^2 + x + 1, no final inversion, over bits taken most significant first (R21). -/
def crc8Bits (init : Nat) (l : List Bool) : Nat :=
  l.foldl (fun c b =>
    let top := xor (natBit c 7) b
    let s := (c * 2) % 256
    if top then s ^^^ 0x07 else s) init

/-- CRC-8 over bytes, each most significant bit first, from 0. -/
def crc8Bytes (l : List Byte) : Nat := crc8Bits 0 (l.flatMap (fun b => msbBits 8 b.toNat))

/-- One byte through the reflected CRC-32C register (polynomial 0x1EDC6F41, reflected 0x82F63B78). -/
def crc32cStep : Nat → Nat → Nat
  | 0, c => c
  | k + 1, c => crc32cStep k (if c % 2 = 1 then (c / 2) ^^^ 0x82F63B78 else c / 2)

/-- CRC-32C of bytes: start value all ones, final inversion. -/
def crc32c (l : List Byte) : Nat :=
  (l.foldl (fun c b => crc32cStep 8 (c ^^^ b.toNat)) 0xFFFFFFFF) ^^^ 0xFFFFFFFF

/-- Continue a CRC-32C over further bytes. -/
def crc32cMore (crc : Nat) (l : List Byte) : Nat :=
  (l.foldl (fun c b => crc32cStep 8 (c ^^^ b.toNat)) (crc ^^^ 0xFFFFFFFF)) ^^^ 0xFFFFFFFF

/-- Product of two polynomials modulo the CRC-32C polynomial, in the reflected form (x^0 in bit 31): `k` bits of `a` are
left, the next at bit `k - 1`. -/
def crcMul : Nat → Nat → Nat → Nat → Nat
  | 0, _, _, acc => acc
  | k + 1, a, b, acc =>
    crcMul k a (if b % 2 = 1 then (b / 2) ^^^ 0x82F63B78 else b / 2) (if natBit a k then acc ^^^ b else acc)

/-- The register after `n` zero bytes, by squaring: `p` is x^(8 * 2^j) at step j. -/
def crcZeros : Nat → Nat → Nat → Nat → Nat
  | 0, _, _, c => c
  | k + 1, n, p, c => crcZeros k (n / 2) (crcMul 32 p p 0) (if n % 2 = 1 then crcMul 32 p c 0 else c)

/-- What a change of 8 bytes by `d` (exclusive or, least significant byte first), `after` bytes before the end, changes
in a CRC-32C (R338). -/
def crcDelta (d after : Nat) : Nat :=
  let r := (leBytes 8 d).foldl (fun c b => crc32cStep 8 (c ^^^ b.toNat)) 0
  crcZeros 13 after 0x00800000 r

end Sys2Proof.Machine
end

