-- ==== Sys2Proof/Machine/RegMap.lean ====
section
/-!
DEFINITION. The register map: every register of every block with its address, its instances, the access code of each
of its bits and its reset value (R3, R640; the field tables of the chapters). Written from the spec's field tables.
A bit that no field names is reserved: it reads 0 and a write does not change it (R12).
-/
namespace Sys2Proof.Machine

/-- A register, or an array of registers, of the map: instance i stands at `base + stride * i` (R640). -/
structure RegRow where
  name : String
  base : Nat
  count : Nat
  stride : Nat
  /-- bits that read and write at once (RW) -/
  rw : Nat
  /-- bits that are staged until a commit (RWS) -/
  rws : Nat
  /-- bits that a write of 1 clears (W1C) -/
  w1c : Nat
  /-- bits that a read clears (RC) -/
  rc : Nat
  /-- bits that only read (RO) -/
  ro : Nat
  /-- bits that act when written and read 0 (WO) -/
  wo : Nat
  /-- the value after reset, where it is the same for every instance and the spec states it -/
  reset : Nat
  deriving DecidableEq, Repr

/-- A field of a register: its address and its bits [hi:lo]. -/
structure Fld where
  addr : Nat
  hi : Nat
  lo : Nat
  deriving DecidableEq, Repr

/-- Registers of block 0x0000_0000. -/
def regRowsSys : List RegRow := [
  ⟨"SYS_ID", 0x0, 1, 4, 0, 0, 0, 0, 0xffffff, 0, 0xa13248⟩,
  ⟨"SYS_HUB_ID", 0x4, 1, 4, 0, 0, 0, 0, 0xffff, 0, 0⟩,
  ⟨"SYS_BOOT", 0x8, 1, 4, 0, 0, 0, 0, 0xfec0003f, 0, 0x2c00000⟩,
  ⟨"SYS_RUN_CTL", 0xc, 1, 4, 0, 0, 0, 0, 0, 1, 0⟩,
  ⟨"SYS_EPOCH", 0x20, 1, 4, 0, 0, 0, 0, 0xffffffff, 0, 0⟩,
  ⟨"SYS_COMMIT", 0x24, 1, 4, 0, 0, 0, 0, 0, 1, 0⟩,
  ⟨"SYS_COMMIT_STATUS", 0x28, 1, 4, 0, 0, 6, 0, 0xf1, 0, 0⟩,
  ⟨"SYS_COMMIT_SRC", 0x2c, 1, 4, 0, 0, 0, 0, 0x3ffff, 0, 0⟩,
  ⟨"SYS_SNAP", 0x30, 1, 4, 0, 0, 8, 0, 0x34, 3, 0⟩,
  ⟨"SYS_SNAP_TO", 0x34, 1, 4, 0xffff, 0, 0, 0, 0, 0, 0x64⟩,
  ⟨"CAP_WORD", 0x100, 18, 4, 0, 0, 0, 0, 0xffffffff, 0, 0⟩]

/-- Registers of block 0x0001_0000. -/
def regRowsHrn : List RegRow := [
  ⟨"HRN_TERM", 0x10000, 640, 4, 0, 0x1ffff, 0, 0, 0, 0, 0⟩,
  ⟨"HRN_CHIN", 0x10a00, 320, 4, 0, 0x77, 0, 0, 0, 0, 0⟩,
  ⟨"HRN_CLUS", 0x10f00, 40, 4, 0, 0xf, 0, 0, 0, 0, 0⟩,
  ⟨"HRN_PROBE_CTL", 0x11000, 1, 4, 0, 0x1f7ffff, 0, 0, 0, 0, 0x1320064⟩,
  ⟨"HRN_OV_CTL", 0x11004, 1, 4, 0, 0x1ffff, 0, 0, 0, 0, 0x1000a⟩,
  ⟨"HRN_CONFLICT", 0x11008, 1, 4, 0, 0, 0x80000000, 0, 0xffff, 0, 0⟩,
  ⟨"HRN_TSTAT", 0x12000, 640, 4, 0, 0, 0x33, 0, 0xc, 0, 0⟩]

/-- Registers of block 0x0002_0000. -/
def regRowsFe : List RegRow := [
  ⟨"FE_CFG", 0x20000, 320, 4, 0, 0x3fff, 0, 0, 0, 0, 0⟩,
  ⟨"FE_STATUS", 0x20800, 320, 4, 0, 0, 0x10000, 0, 0xf1ff, 0, 0⟩,
  ⟨"FE_UNIT", 0x21000, 360, 4, 0, 0, 0, 0, 0x3f, 0, 0⟩,
  ⟨"FE_SAT_CTL", 0x22000, 1, 4, 0, 0xff, 0, 0, 0, 0, 4⟩]

/-- Registers of block 0x0003_0000. -/
def regRowsExc : List RegRow := [
  ⟨"EXC_CFG", 0x30000, 80, 4, 0, 0x3ff, 0, 0, 0, 0, 0⟩,
  ⟨"EXC_SET", 0x30200, 80, 4, 0, 0xffffffff, 0, 0, 0, 0, 0⟩,
  ⟨"EXC_CHOP", 0x30400, 80, 4, 0, 0xffff, 0, 0, 0, 0, 0x40⟩,
  ⟨"EXC_STATUS", 0x30600, 80, 4, 0, 0, 0xc0000, 0, 0x33ffff, 0, 0⟩,
  ⟨"EXC_TOTAL", 0x30800, 1, 4, 0, 0, 0, 0xffff0000, 0xffff, 0, 0⟩]

/-- Registers of block 0x0004_0000. -/
def regRowsSmp : List RegRow := [
  ⟨"SMP_FRAME_PERIOD", 0x40000, 1, 4, 0, 0x3fffffff, 0, 0, 0, 0, 0xf4240⟩,
  ⟨"SMP_FRAME_PHASE", 0x40004, 1, 4, 0, 0x3fffffff, 0, 0, 0, 0, 0⟩,
  ⟨"SMP_STATUS", 0x40008, 1, 4, 0, 0, 0, 0, 0x1ff, 0, 0x100⟩,
  ⟨"SMP_SYNC_CTL", 0x40010, 1, 4, 0xff07, 0, 0, 0, 0, 0, 0⟩,
  ⟨"SMP_SYNC_T0", 0x40014, 1, 4, 0x3fffffff, 0, 0, 0, 0, 0, 0⟩,
  ⟨"SMP_SYNC_T1", 0x40018, 1, 4, 0xffffffff, 0, 0, 0, 0, 0, 0⟩,
  ⟨"SMP_SYNC_T2", 0x4001c, 1, 4, 0xffffff, 0, 0, 0, 0, 0x80000000, 0⟩,
  ⟨"SMP_SYNC_STATUS", 0x40020, 1, 4, 0, 0, 0x1c, 0, 0xff3003, 0, 0⟩,
  ⟨"SMP_SYNC_OUT", 0x40024, 1, 4, 0xffffff73, 0, 0, 0, 0, 0, 0x3e80000⟩,
  ⟨"SMP_GRP_CTL", 0x40100, 8, 16, 0, 0xffffffff, 0, 0, 0, 0, 0⟩,
  ⟨"SMP_GRP_DLY", 0x40104, 8, 16, 0, 0xbfffffff, 0, 0, 0, 0, 0⟩,
  ⟨"SMP_GRP_FRAC", 0x40108, 8, 16, 0, 0xffffffff, 0, 0, 0, 0, 0⟩,
  ⟨"SMP_GRP_SKIP", 0x4010c, 8, 16, 0, 0, 0, 0xffffffff, 0, 0, 0⟩,
  ⟨"SMP_CH", 0x40200, 320, 4, 0, 0xf, 0, 0, 0, 0, 0⟩,
  ⟨"SMP_SKEW", 0x40800, 360, 4, 0, 0, 0, 0, 0x3f, 0, 0⟩]

/-- Registers of block 0x0005_0000. -/
def regRowsAdc : List RegRow := [
  ⟨"ADC_MAP", 0x50000, 1, 4, 0, 0, 0, 0, 0xffffffff, 0, 0x76543210⟩,
  ⟨"ADC_CORE_STAT", 0x50010, 9, 4, 0, 0, 0x100, 0, 0x73, 0, 0⟩,
  ⟨"ADC_CORE_CHK", 0x50040, 1, 4, 0xff, 0, 0, 0, 0, 0, 8⟩,
  ⟨"ADC_SLACK", 0x50044, 1, 4, 0, 0, 0, 0xffff, 0x80000000, 0, 0⟩,
  ⟨"ADC_HK_CTL", 0x50048, 1, 4, 0xfffff, 0, 0, 0, 0, 0, 0xf03e8⟩,
  ⟨"ADC_IL_CTL", 0x50100, 16, 8, 0, 0xffff, 0, 0, 0, 0x80000000, 0⟩,
  ⟨"ADC_IL_STAT", 0x50104, 16, 8, 0, 0, 0x30, 0xff000000, 0xb, 0, 0⟩,
  ⟨"ADC_AUX_RES", 0x50400, 128, 4, 0, 0, 0, 0, 0xffffffff, 0, 0⟩,
  ⟨"DMA_CFG", 0x58000, 512, 32, 0, 0x83ffffff, 0, 0, 0, 0, 0⟩,
  ⟨"DMA_WM", 0x58004, 512, 32, 0, 0xffff, 0, 0, 0, 0, 0⟩,
  ⟨"DMA_WPOS_LO", 0x58008, 512, 32, 0, 0, 0, 0, 0xffffffff, 0, 0⟩,
  ⟨"DMA_WPOS_HI", 0x5800c, 512, 32, 0, 0, 0, 0, 0xffffffff, 0, 0⟩,
  ⟨"DMA_RPOS_LO", 0x58010, 512, 32, 0, 0, 0, 0, 0xffffffff, 0, 0⟩,
  ⟨"DMA_RPOS_HI", 0x58014, 512, 32, 0, 0, 0, 0, 0xffffffff, 0, 0⟩,
  ⟨"DMA_SYNC_POS_LO", 0x58018, 512, 32, 0, 0, 0, 0, 0xffffffff, 0, 0⟩,
  ⟨"DMA_SYNC_POS_HI", 0x5801c, 512, 32, 0, 0, 0, 0, 0xffffffff, 0, 0⟩,
  ⟨"ADC_DMA_STAT", 0x5c000, 512, 4, 0, 0, 0x80000000, 0xffffff, 0, 0, 0⟩]

/-- Registers of block 0x0006_0000. -/
def regRowsFil : List RegRow := [
  ⟨"FIL_CHAIN", 0x60000, 512, 8, 0, 0xffffffe0, 0, 0, 0, 0, 0x2600800⟩,
  ⟨"FIL_RESP", 0x60004, 512, 8, 0, 0xbc3f3f3f, 0, 0, 0x40000000, 0, 0x1d0000⟩,
  ⟨"FIL_SWAP", 0x61000, 1, 4, 0, 0, 0, 0, 0, 0x800101ff, 0⟩,
  ⟨"FIL_LOAD", 0x61004, 1, 4, 0, 0, 0, 0, 0x8000ffff, 0, 0⟩,
  ⟨"FIL_ROM_BAD", 0x61008, 2, 4, 0, 0, 0, 0, 0xffffffff, 0, 0⟩,
  ⟨"FIL_STATUS", 0x62000, 512, 4, 0, 0, 0x178, 0xffff0000, 0x87, 0, 0⟩]

/-- Registers of block 0x0007_0000. -/
def regRowsSeq : List RegRow := [
  ⟨"SEQ_CTL", 0x70000, 1, 4, 2, 1, 0, 0, 0, 0, 2⟩,
  ⟨"SEQ_START", 0x70004, 1, 4, 0, 0x1fff, 0, 0, 0, 0, 0⟩,
  ⟨"SEQ_SF_LEN", 0x70008, 1, 4, 0, 0xffffffff, 0, 0, 0, 0, 0⟩,
  ⟨"SEQ_REG_RGN", 0x7000c, 1, 4, 0, 0x1fff1fff, 0, 0, 0, 0, 0⟩,
  ⟨"SEQ_CAL_RGN", 0x70010, 1, 4, 0, 0x9fff1fff, 0, 0, 0, 0, 0⟩,
  ⟨"SEQ_TABLE_CRC", 0x70014, 1, 4, 0, 0xffffffff, 0, 0, 0, 0, 0⟩,
  ⟨"SEQ_STATUS", 0x70018, 1, 4, 0, 0, 0x1c0000, 0, 0x3ffff, 0, 0⟩,
  ⟨"SEQ_FRAME_POS", 0x7001c, 1, 4, 0, 0, 0, 0, 0xffffffff, 0, 0⟩,
  ⟨"SEQ_CHECK", 0x70020, 1, 4, 0, 0, 0x80000000, 0, 0xf1fff, 0, 0⟩,
  ⟨"SEQ_ERR", 0x70024, 1, 4, 0, 0, 0x80000000, 0, 0x37fff, 0, 0⟩,
  ⟨"SEQ_SCRUB", 0x70028, 1, 4, 0, 0, 0, 0xffff0000, 0xffff, 0, 0⟩,
  ⟨"SEQ_WIN_PAGE", 0x7002c, 1, 4, 1, 0, 0, 0, 0, 0, 0⟩,
  ⟨"SEQ_IL_RGN", 0x70040, 16, 4, 0, 0x9fff1fff, 0, 0, 0, 0, 0⟩]

/-- Registers of block 0x0008_0000. -/
def regRowsStr : List RegRow := [
  ⟨"STR_CTL", 0x80000, 1, 4, 0, 0xffff, 0, 0, 0, 0, 0xfff0⟩,
  ⟨"STR_CFG", 0x80100, 512, 4, 0, 0x8000ffff, 0, 0, 0x40000000, 0, 0x64⟩,
  ⟨"STR_ERA", 0x80900, 512, 4, 0, 0, 0, 0, 0xffff, 0, 0⟩,
  ⟨"STR_GAP", 0x81100, 512, 4, 0, 0, 0, 0xffffffff, 0, 0, 0⟩,
  ⟨"STR_BF_FIRST_LO", 0x82000, 1, 4, 0xffffffff, 0, 0, 0, 0, 0, 0⟩,
  ⟨"STR_BF_FIRST_HI", 0x82004, 1, 4, 0xffffffff, 0, 0, 0, 0, 0, 0⟩,
  ⟨"STR_BF_COUNT", 0x82008, 1, 4, 0xffffffff, 0, 0, 0, 0, 0, 0⟩,
  ⟨"STR_BF_CTL", 0x8200c, 1, 4, 0x1ffffff, 0, 0, 0, 0, 0x80000000, 0⟩,
  ⟨"STR_BF_STATUS", 0x82010, 1, 4, 0, 0, 0x100000, 0, 0x1e000, 0, 0⟩,
  ⟨"STR_BF_CLIPPED", 0x82014, 1, 4, 0, 0, 0, 0xffffffff, 0, 0, 0⟩,
  ⟨"STR_FRM_CTL", 0x83000, 1, 4, 0xffff00ff, 0, 0, 0, 0, 0, 0x3e80040⟩,
  ⟨"STR_EGQ_STATUS", 0x83004, 1, 4, 0, 0, 0xff, 0, 0xff00, 0, 0⟩,
  ⟨"STR_SEQ", 0x83008, 1, 4, 0, 0, 0, 0, 0xffffffff, 0, 0⟩,
  ⟨"STR_EGQ_CLASS", 0x83010, 8, 4, 0, 0x3ff0000, 0, 0, 0x3ff, 0, 0⟩]

/-- Registers of block 0x0009_0000. -/
def regRowsTrg : List RegRow := [
  ⟨"TRG_CTL", 0x90000, 1, 4, 0, 0xffff, 0, 0, 0, 0, 0⟩,
  ⟨"TRG_RESTART", 0x90004, 1, 4, 0, 0, 0, 0, 0, 0xffff, 0⟩,
  ⟨"TRG_FIRE", 0x90008, 1, 4, 0, 0, 0, 0, 0, 0xffff, 0⟩,
  ⟨"TRG_SEG_REL", 0x9000c, 1, 4, 0, 0, 0, 0, 0, 0x80000fff, 0⟩,
  ⟨"TRG_WIN_PAGE", 0x90010, 1, 4, 0xf03, 0, 0, 0, 0, 0, 0⟩,
  ⟨"TRG_UNIT", 0x90100, 16, 32, 0, 0x71f01ff, 0, 0, 0, 0, 0⟩,
  ⟨"TRG_CAP", 0x90104, 16, 32, 0, 0x8f0ff1ff, 0, 0, 0, 0, 0⟩,
  ⟨"TRG_CAP_LEN", 0x90108, 16, 32, 0, 0x1fffff, 0, 0, 0, 0, 0x40⟩,
  ⟨"TRG_CAP_PRE", 0x9010c, 16, 32, 0, 0x1fffff, 0, 0, 0, 0, 0⟩,
  ⟨"TRG_CAP_POOL", 0x90110, 16, 32, 0, 0x3ffffff, 0, 0, 0, 0, 0⟩,
  ⟨"TRG_CAP_SEG", 0x90114, 16, 32, 0, 0xfff0fff, 0, 0, 0, 0, 0⟩,
  ⟨"TRG_MEAS", 0x90118, 16, 32, 0, 0xffffff00, 0, 0, 0, 0, 0⟩,
  ⟨"TRG_MASK", 0x9011c, 16, 32, 0, 0xffff1fff, 0, 0, 0, 0, 0⟩,
  ⟨"TRG_STAT", 0x90400, 16, 4, 0, 0, 0x70000000, 0, 0x88070fff, 0, 0⟩,
  ⟨"TRG_COUNT", 0x90440, 16, 4, 0, 0, 0, 0, 0xffffffff, 0, 0⟩,
  ⟨"TRG_MISSED", 0x90480, 16, 4, 0, 0, 0, 0xffffffff, 0, 0, 0⟩,
  ⟨"TRG_ST_CA", 0x91000, 128, 64, 0, 0xffffffff, 0, 0, 0, 0, 0⟩,
  ⟨"TRG_ST_CA_LO", 0x91004, 128, 64, 0, 0xffffffff, 0, 0, 0, 0, 0⟩,
  ⟨"TRG_ST_CA_HI", 0x91008, 128, 64, 0, 0xffffffff, 0, 0, 0, 0, 0⟩,
  ⟨"TRG_ST_CB", 0x9100c, 128, 64, 0, 0xffffffff, 0, 0, 0, 0, 0⟩,
  ⟨"TRG_ST_CB_LO", 0x91010, 128, 64, 0, 0xffffffff, 0, 0, 0, 0, 0⟩,
  ⟨"TRG_ST_CB_HI", 0x91014, 128, 64, 0, 0xffffffff, 0, 0, 0, 0, 0⟩,
  ⟨"TRG_ST_CTL", 0x91018, 128, 64, 0, 0xffffffff, 0, 0, 0, 0, 0⟩,
  ⟨"TRG_ST_CNT", 0x9101c, 128, 64, 0, 0xffffffff, 0, 0, 0, 0, 0⟩,
  ⟨"TRG_ST_TMR_LO", 0x91020, 128, 64, 0, 0xffffffff, 0, 0, 0, 0, 0⟩,
  ⟨"TRG_ST_TMR_HI", 0x91024, 128, 64, 0, 0xffffffff, 0, 0, 0, 0, 0⟩]

/-- Registers of block 0x000A_0000. -/
def regRowsMem : List RegRow := [
  ⟨"MEM_CTL", 0xa0000, 1, 4, 1, 0, 0x40000000, 0, 0x80000000, 0, 1⟩,
  ⟨"MEM_HIST_POOL", 0xa0004, 1, 4, 0, 0x3ffffff, 0, 0, 0, 0, 0⟩,
  ⟨"MEM_WORK_POOL", 0xa0008, 1, 4, 0, 0x3ffffff, 0, 0, 0, 0, 0⟩,
  ⟨"MEM_CLR", 0xa000c, 1, 4, 0, 0, 0, 0, 0, 0x83ffffff, 0⟩,
  ⟨"MEM_FLIPMASK_LO", 0xa0010, 1, 4, 0xffffffff, 0, 0, 0, 0, 0, 0⟩,
  ⟨"MEM_FLIPMASK_MID", 0xa0014, 1, 4, 0xffffffff, 0, 0, 0, 0, 0, 0⟩,
  ⟨"MEM_FLIPMASK_HI", 0xa0018, 1, 4, 0x107ff, 0, 0, 0, 0x80000000, 0, 0⟩,
  ⟨"MEM_ERR_LAST", 0xa0020, 1, 4, 0, 0, 0x80000000, 0, 0x7fffffff, 0, 0⟩,
  ⟨"MEM_ERR_INFO", 0xa0024, 1, 4, 0, 0, 0, 0, 0x107, 0, 0⟩,
  ⟨"MEM_CE_COUNT", 0xa0028, 1, 4, 0, 0, 0, 0xffffffff, 0, 0, 0⟩,
  ⟨"MEM_UE_COUNT", 0xa002c, 1, 4, 0, 0, 0, 0xffffffff, 0, 0, 0⟩,
  ⟨"MEM_SCRUB", 0xa0030, 1, 4, 0, 0, 0, 0, 0xffff0000, 0, 0⟩,
  ⟨"MEM_SCRUB_POS", 0xa0034, 1, 4, 0, 0, 0, 0, 0x3fffff, 0, 0⟩,
  ⟨"MEM_RETIRED", 0xa0038, 1, 4, 0, 0, 0, 0, 0x1fff, 0, 0⟩,
  ⟨"MEM_TILE_STAT", 0xa2000, 6144, 4, 0, 0, 0x80, 0, 0x7f, 0, 8⟩,
  ⟨"MEM_TILE_CRC", 0xa8000, 6144, 4, 0, 0, 0, 0, 0xffffffff, 0, 0⟩]

/-- Registers of block 0x000B_0000. -/
def regRowsCin : List RegRow := [
  ⟨"CIN_CTL", 0xb0000, 1, 4, 0, 0x3f3f, 0, 0, 0, 0, 0x1111⟩,
  ⟨"CIN_STATUS", 0xb0004, 1, 4, 0, 0, 0, 0, 0x7ff0003, 0, 0⟩,
  ⟨"CIN_HIST_MISSED", 0xb0008, 1, 4, 0, 0, 0, 0xffffffff, 0, 0, 0⟩,
  ⟨"CIN_ERR", 0xb000c, 1, 4, 0, 0, 0x80000000, 0, 0x7300ffff, 0, 0⟩,
  ⟨"CIN_JOB_SRC", 0xb0010, 1, 4, 0x7fffff, 0, 0, 0, 0, 0, 0⟩,
  ⟨"CIN_JOB_LEN", 0xb0014, 1, 4, 0x7fffff, 0, 0, 0, 0, 0, 0⟩,
  ⟨"CIN_JOB_CTL", 0xb0018, 1, 4, 0x1000013f, 0, 0, 0, 0, 0xe0000000, 1⟩,
  ⟨"CIN_JOB_STAT", 0xb001c, 1, 4, 0, 0, 0x80, 0, 0xffff0067, 0, 0⟩,
  ⟨"CIN_JOB_IN", 0xb0020, 1, 4, 0, 0, 0, 0, 0xffffffff, 0, 0⟩,
  ⟨"CIN_JOB_OUT", 0xb0024, 1, 4, 0, 0, 0, 0, 0xffffffff, 0, 0⟩,
  ⟨"CIN_OUT_WR", 0xb0028, 1, 4, 0, 0, 0, 0, 0xffffffff, 0, 0⟩,
  ⟨"CIN_OUT_RD", 0xb002c, 1, 4, 0xffffffff, 0, 0, 0, 0, 0, 0⟩]

/-- Registers of block 0x000C_0000. -/
def regRowsLnkA : List RegRow := [
  ⟨"LNKA_CTL", 0xc0000, 1, 4, 0xf0000, 7, 0, 0, 0, 0x80000000, 0x40002⟩,
  ⟨"LNKA_TIMING", 0xc0004, 1, 4, 0xffffffff, 0, 0, 0, 0, 0, 0x6407d0⟩,
  ⟨"LNKA_RECAL", 0xc0008, 1, 4, 0xffff, 0, 0, 0, 0, 0, 0x3c⟩,
  ⟨"LNKA_STATUS", 0xc0010, 1, 4, 0, 0, 0, 0, 0xfcfffff7, 0, 0⟩,
  ⟨"LNKA_EVT", 0xc0014, 1, 4, 0, 0, 0x1f, 0, 0, 0, 0⟩,
  ⟨"LNKA_LANE_l", 0xc0020, 4, 4, 0, 0, 0, 0xffff0000, 0xffff, 0, 0⟩,
  ⟨"LNKA_TRK_l", 0xc0030, 4, 4, 0, 0, 0, 0, 0x1cfffff, 0, 0⟩,
  ⟨"LNKA_EQ_l", 0xc0040, 5, 4, 0, 0xff7fff, 0, 0, 0, 0, 0⟩,
  ⟨"LNKA_WIDTH_CHG", 0xc0054, 1, 4, 0, 0, 0, 0xffffffff, 0, 0, 0⟩,
  ⟨"LNKA_RX_FRAMES", 0xc0100, 1, 4, 0, 0, 0, 0xffffffff, 0, 0, 0⟩,
  ⟨"LNKA_RX_ERR", 0xc0104, 1, 4, 0, 0, 0, 0xffffffff, 0, 0, 0⟩,
  ⟨"LNKA_DUP", 0xc0108, 1, 4, 0, 0, 0, 0xffffffff, 0, 0, 0⟩,
  ⟨"LNKA_FIFO", 0xc010c, 1, 4, 0, 0, 0, 0xffff0000, 0x7f, 0, 0⟩,
  ⟨"LNKA_FWD_DROP", 0xc0110, 1, 4, 0, 0, 0, 0xffffffff, 0, 0, 0⟩,
  ⟨"LNKA_CRC_MON", 0xc0120, 1, 4, 0xffffffff, 0, 0, 0, 0, 0, 0x640020⟩,
  ⟨"LNKA_SHADOW", 0xc0124, 1, 4, 0, 0, 0, 0xffffffff, 0, 0, 0⟩,
  ⟨"LNK_PORT_CTL", 0xc0200, 1, 4, 0x3fff0, 3, 0, 0, 0, 0, 0x1f42⟩,
  ⟨"LNK_REVERT_HOLD", 0xc0204, 1, 4, 0, 0xfffff, 0, 0, 0, 0, 0x2710⟩,
  ⟨"LNK_PORT_STATUS", 0xc0208, 1, 4, 0, 0, 0x30000, 0, 0x770f, 0, 0x2202⟩,
  ⟨"LNK_SWITCH_COUNT", 0xc020c, 1, 4, 0, 0, 0, 0xffffffff, 0, 0, 0⟩]

/-- Registers of block 0x000D_0000. -/
def regRowsLnkB : List RegRow := [
  ⟨"LNKB_CTL", 0xd0000, 1, 4, 0xf0000, 7, 0, 0, 0, 0x80000000, 0x40002⟩,
  ⟨"LNKB_TIMING", 0xd0004, 1, 4, 0xffffffff, 0, 0, 0, 0, 0, 0x6407d0⟩,
  ⟨"LNKB_RECAL", 0xd0008, 1, 4, 0xffff, 0, 0, 0, 0, 0, 0x3c⟩,
  ⟨"LNKB_STATUS", 0xd0010, 1, 4, 0, 0, 0, 0, 0xfcfffff7, 0, 0⟩,
  ⟨"LNKB_EVT", 0xd0014, 1, 4, 0, 0, 0x1f, 0, 0, 0, 0⟩,
  ⟨"LNKB_LANE_l", 0xd0020, 4, 4, 0, 0, 0, 0xffff0000, 0xffff, 0, 0⟩,
  ⟨"LNKB_TRK_l", 0xd0030, 4, 4, 0, 0, 0, 0, 0x1cfffff, 0, 0⟩,
  ⟨"LNKB_EQ_l", 0xd0040, 5, 4, 0, 0xff7fff, 0, 0, 0, 0, 0⟩,
  ⟨"LNKB_WIDTH_CHG", 0xd0054, 1, 4, 0, 0, 0, 0xffffffff, 0, 0, 0⟩,
  ⟨"LNKB_RX_FRAMES", 0xd0100, 1, 4, 0, 0, 0, 0xffffffff, 0, 0, 0⟩,
  ⟨"LNKB_RX_ERR", 0xd0104, 1, 4, 0, 0, 0, 0xffffffff, 0, 0, 0⟩,
  ⟨"LNKB_DUP", 0xd0108, 1, 4, 0, 0, 0, 0xffffffff, 0, 0, 0⟩,
  ⟨"LNKB_FIFO", 0xd010c, 1, 4, 0, 0, 0, 0xffff0000, 0x7f, 0, 0⟩,
  ⟨"LNKB_FWD_DROP", 0xd0110, 1, 4, 0, 0, 0, 0xffffffff, 0, 0, 0⟩,
  ⟨"LNKB_CRC_MON", 0xd0120, 1, 4, 0xffffffff, 0, 0, 0, 0, 0, 0x640020⟩,
  ⟨"LNKB_SHADOW", 0xd0124, 1, 4, 0, 0, 0, 0xffffffff, 0, 0, 0⟩]

/-- Registers of block 0x000E_0000. -/
def regRowsTim : List RegRow := [
  ⟨"TIM_NOW_FRAC", 0xe0000, 1, 4, 0, 0, 0, 0, 0xffffffff, 0, 0⟩,
  ⟨"TIM_NOW_NS", 0xe0004, 1, 4, 0, 0, 0, 0, 0x3fffffff, 0, 0⟩,
  ⟨"TIM_NOW_SLO", 0xe0008, 1, 4, 0, 0, 0, 0, 0xffffffff, 0, 0⟩,
  ⟨"TIM_NOW_SHI", 0xe000c, 1, 4, 0, 0, 0, 0, 0xffff, 0, 0⟩,
  ⟨"TIM_INCR_FRAC", 0xe0010, 1, 4, 0xffffffff, 0, 0, 0, 0, 0, 0⟩,
  ⟨"TIM_INCR_NS", 0xe0014, 1, 4, 0x3f, 0, 0, 0, 0, 0, 0x28⟩,
  ⟨"TIM_ADJ_FRAC", 0xe0018, 1, 4, 0, 0, 0, 0, 0, 0xffffffff, 0⟩,
  ⟨"TIM_ADJ_NS", 0xe001c, 1, 4, 0, 0, 0, 0, 0, 0xffffffff, 0⟩,
  ⟨"TIM_SET_FRAC", 0xe0020, 1, 4, 0, 0, 0, 0, 0, 0xffffffff, 0⟩,
  ⟨"TIM_SET_NS", 0xe0024, 1, 4, 0, 0, 0, 0, 0, 0x3fffffff, 0⟩,
  ⟨"TIM_SET_SLO", 0xe0028, 1, 4, 0, 0, 0, 0, 0, 0xffffffff, 0⟩,
  ⟨"TIM_SET_SHI", 0xe002c, 1, 4, 0, 0, 0, 0, 0, 0xffff, 0⟩,
  ⟨"TIM_STEP_LIM", 0xe0030, 1, 4, 0x7fffffff, 0, 0, 0, 0, 0, 0x2710⟩,
  ⟨"TIM_HOLDOVER_TO", 0xe0034, 1, 4, 0xffff, 0, 0, 0, 0, 0, 0x7d0⟩,
  ⟨"TIM_FREE_TO", 0xe0038, 1, 4, 0xffff, 0, 0, 0, 0, 0, 0x258⟩,
  ⟨"TIM_CTL", 0xe003c, 1, 4, 0x4000ffff, 0, 0, 0, 0, 0x80000000, 0xfff0⟩,
  ⟨"TIM_STATUS", 0xe0040, 1, 4, 0, 0, 0xf00, 0, 0x3b, 0, 3⟩,
  ⟨"TIM_RX_DIFF_LO", 0xe0100, 2, 16, 0, 0, 0, 0, 0xffffffff, 0, 0⟩,
  ⟨"TIM_RX_DIFF_HI", 0xe0104, 2, 16, 0, 0, 0, 0, 0xffffffff, 0, 0⟩,
  ⟨"TIM_RX_INFO", 0xe0108, 2, 16, 0, 0, 0, 0, 0xff80ffff, 0, 0⟩,
  ⟨"TIM_DLY", 0xe0200, 8, 4, 0, 0, 0, 0, 0xffffffff, 0, 0⟩]

/-- Registers of block 0x000F_0000. -/
def regRowsCal : List RegRow := [
  ⟨"CAL_CTL", 0xf0000, 1, 4, 0, 7, 0, 0, 0, 0x80000000, 7⟩,
  ⟨"CAL_TEMP_DELTA", 0xf0004, 1, 4, 0, 0xff, 0, 0, 0, 0, 0x20⟩,
  ⟨"CAL_AGREE_TAPS", 0xf0008, 1, 4, 0, 0xf0f, 0, 0, 0, 0, 0x301⟩,
  ⟨"CAL_STARVE_TO", 0xf000c, 1, 4, 0, 0xffff, 0, 0, 0, 0, 0x3e8⟩,
  ⟨"CAL_STEP_TO", 0xf0010, 1, 4, 0, 0xffff, 0, 0, 0, 0, 0x7d0⟩,
  ⟨"CAL_PRE", 0xf0014, 1, 4, 0, 0xffffffff, 0, 0, 0, 0, 0xc0000060⟩,
  ⟨"CAL_STATUS", 0xf0018, 1, 4, 0, 0, 0, 0, 0xfffe0, 0, 0⟩,
  ⟨"CAL_LAST", 0xf001c, 1, 4, 0, 0, 0x80000000, 0, 0x7c000fff, 0, 0⟩,
  ⟨"CAL_COUNT", 0xf0020, 1, 4, 0, 0, 0, 0xffffffff, 0, 0, 0⟩,
  ⟨"CAL_TEMP", 0xf0040, 10, 4, 0, 0, 0, 0, 0xffff, 0, 0⟩,
  ⟨"CAL_STROBE_TGT", 0xf0080, 1, 4, 0, 0, 0, 0, 0xffffffff, 0, 0⟩,
  ⟨"CAL_FE_PAGE", 0xf0100, 1, 4, 0x1ff, 0, 0, 0, 0, 0, 0⟩,
  ⟨"CAL_FE_UNIT", 0xf0104, 1, 4, 0, 0, 0, 0, 0xf800ffff, 0, 0x8000000⟩,
  ⟨"CAL_FE_TRIM", 0xf0200, 64, 4, 0, 0, 0, 0, 0xffffffff, 0, 0⟩,
  ⟨"CAL_ACC_CNT", 0xf0400, 16, 16, 0, 0, 0, 0, 0xffffffff, 0, 0⟩,
  ⟨"CAL_ACC_SLO", 0xf0404, 16, 16, 0, 0, 0, 0, 0xffffffff, 0, 0⟩,
  ⟨"CAL_ACC_SHI", 0xf0408, 16, 16, 0, 0, 0, 0, 0xffff, 0, 0⟩,
  ⟨"CAL_ACC_MM", 0xf040c, 16, 16, 0, 0, 0, 0, 0xffffffff, 0, 0⟩,
  ⟨"CAL_ADC_STAT", 0xf1000, 9, 128, 0, 0, 0, 0, 0xffff, 0, 0⟩,
  ⟨"CAL_ADC_OG", 0xf1004, 9, 128, 0, 0, 0, 0, 0xffffffff, 0, 0⟩,
  ⟨"CAL_ADC_THR_0", 0xf1040, 16, 4, 0, 0, 0, 0, 0x3f, 0, 0⟩,
  ⟨"CAL_ADC_THR_1", 0xf10c0, 16, 4, 0, 0, 0, 0, 0x3f, 0, 0⟩,
  ⟨"CAL_ADC_THR_2", 0xf1140, 16, 4, 0, 0, 0, 0, 0x3f, 0, 0⟩,
  ⟨"CAL_ADC_THR_3", 0xf11c0, 16, 4, 0, 0, 0, 0, 0x3f, 0, 0⟩,
  ⟨"CAL_ADC_THR_4", 0xf1240, 16, 4, 0, 0, 0, 0, 0x3f, 0, 0⟩,
  ⟨"CAL_ADC_THR_5", 0xf12c0, 16, 4, 0, 0, 0, 0, 0x3f, 0, 0⟩,
  ⟨"CAL_ADC_THR_6", 0xf1340, 16, 4, 0, 0, 0, 0, 0x3f, 0, 0⟩,
  ⟨"CAL_ADC_THR_7", 0xf13c0, 16, 4, 0, 0, 0, 0, 0x3f, 0, 0⟩,
  ⟨"CAL_ADC_THR_8", 0xf1440, 16, 4, 0, 0, 0, 0, 0x3f, 0, 0⟩,
  ⟨"CAL_LINK_A", 0xf2000, 4, 4, 0, 0, 0, 0, 0x3f1fffff, 0, 0⟩,
  ⟨"CAL_LINK_B", 0xf2020, 4, 4, 0, 0, 0, 0, 0x3f1fffff, 0, 0⟩]

/-- Registers of block 0x0010_0000. -/
def regRowsFlt : List RegRow := [
  ⟨"FLT_MAP", 0x100000, 64, 4, 0, 0xffffffff, 0, 0, 0, 0, 0x2000000⟩,
  ⟨"FLT_STATUS", 0x100100, 2, 4, 0, 0, 0xffffffff, 0, 0, 0, 0⟩,
  ⟨"FLT_CAUSE", 0x100108, 2, 4, 0, 0, 0, 0, 0xffffffff, 0, 0⟩,
  ⟨"FLT_PIN", 0x100110, 1, 4, 0x3ff, 0, 0, 0, 0x80000000, 0, 0xa⟩,
  ⟨"FLT_SAFE", 0x100114, 1, 4, 0, 0, 2, 0, 0xff0001, 0xc0000000, 0⟩,
  ⟨"FLT_CTL", 0x100118, 1, 4, 0xff, 0, 0, 0, 0, 0, 0x69⟩,
  ⟨"FLT_EVT_QUEUE", 0x100200, 1, 4, 0, 0, 0, 0xefffffff, 0, 0, 0⟩,
  ⟨"FLT_EVQ_STAT", 0x100204, 1, 4, 0, 0, 0x80000000, 0, 0x1ff, 0, 0⟩,
  ⟨"FLT_INFO", 0x100400, 64, 4, 0, 0, 0, 0xff000000, 0x3fffff, 0, 0⟩,
  ⟨"FLT_OPEN_IDX_LO", 0x102000, 320, 32, 0, 0, 0, 0, 0xffffffff, 0, 0⟩,
  ⟨"FLT_OPEN_IDX_HI", 0x102004, 320, 32, 0, 0, 0, 0, 0xffffffff, 0, 0⟩,
  ⟨"FLT_OPEN_NS", 0x102008, 320, 32, 0, 0, 0, 0, 0x3fffffff, 0, 0⟩,
  ⟨"FLT_OPEN_SLO", 0x10200c, 320, 32, 0, 0, 0, 0, 0xffffffff, 0, 0⟩,
  ⟨"FLT_OPEN_INFO", 0x102010, 320, 32, 0, 0, 0, 0, 0xc1ffffff, 0, 0⟩]

/-- Registers of block 0x0011_0000. -/
def regRowsRec : List RegRow := [
  ⟨"REC_CTL", 0x110000, 1, 4, 0, 0x3f0f, 0, 0, 0, 0x80000000, 0xb⟩,
  ⟨"REC_REGION", 0x110004, 1, 4, 0, 0x7fffff, 0, 0, 0, 0, 0⟩,
  ⟨"REC_STATUS", 0x110008, 1, 4, 0, 0, 0, 0xff000000, 0xc07fff, 0, 0⟩,
  ⟨"REC_SEQ", 0x11000c, 1, 4, 0, 0, 0, 0, 0xffffffff, 0, 0⟩,
  ⟨"REC_OPSEC_LO", 0x110010, 1, 4, 0, 0, 0, 0, 0xffffffff, 0, 0⟩,
  ⟨"REC_OPSEC_HI", 0x110014, 1, 4, 0, 0, 0, 0, 0xff, 0, 0⟩,
  ⟨"REC_PWRCYC", 0x110018, 1, 4, 0, 0, 0, 0, 0xffffffff, 0, 0⟩,
  ⟨"REC_BUNT_CLR", 0x110020, 1, 4, 0, 0, 0, 0, 0, 0xff, 0⟩,
  ⟨"REC_BUNT_STAT", 0x110024, 1, 4, 0, 0, 0, 0xff00, 0xff, 0, 0⟩,
  ⟨"REC_FETCH_FIRST", 0x110030, 1, 4, 0xffffffff, 0, 0, 0, 0, 0, 0⟩,
  ⟨"REC_FETCH_CTL", 0x110034, 1, 4, 0xffff, 0, 0, 0, 0x40000000, 0x80000000, 1⟩,
  ⟨"REC_WIN_SLOT", 0x110038, 1, 4, 0xff, 0, 0, 0, 0, 0, 0⟩,
  ⟨"REC_SLOT_BAD", 0x110040, 8, 4, 0, 0, 0xffffffff, 0, 0, 0, 0⟩,
  ⟨"REC_BUNT_LO", 0x110080, 8, 8, 0, 0, 0, 0, 0xffffffff, 0, 0⟩,
  ⟨"REC_BUNT_HI", 0x110084, 8, 8, 0, 0, 0, 0, 0xffffffff, 0, 0⟩,
  ⟨"REC_LIST", 0x110200, 52, 4, 0, 0xffffffff, 0, 0, 0, 0, 0⟩]

/-- Registers of block 0x0012_0000. -/
def regRowsCfg : List RegRow := [
  ⟨"CFG_QSPI", 0x120000, 1, 4, 0xff03, 0, 0, 0, 0, 0, 0x2802⟩,
  ⟨"CFG_NVM", 0x120004, 1, 4, 0, 0, 0, 0, 0xf0ffffff, 0, 0⟩,
  ⟨"CFG_IMG", 0x120008, 2, 4, 0, 0, 0, 0, 0xffffffff, 0, 0⟩]

/-- Registers of block 0x0013_0000. -/
def regRowsLcs : List RegRow := [
  ⟨"LCS_STATE", 0x130000, 1, 4, 0, 0, 0, 0, 0x307, 0, 0⟩,
  ⟨"LCS_KEYS", 0x130004, 1, 4, 0, 0, 0, 0, 0x3fffff, 0, 0⟩,
  ⟨"LCS_CTR_LO", 0x130008, 1, 4, 0, 0, 0, 0, 0xffffffff, 0, 0⟩,
  ⟨"LCS_CTR_HI", 0x13000c, 1, 4, 0, 0, 0, 0, 0xffffffff, 0, 0⟩,
  ⟨"LCS_STATUS", 0x130010, 1, 4, 0, 0, 0, 0xffff, 0xc0000000, 0, 0⟩,
  ⟨"LCS_LAST_CMD", 0x130014, 1, 4, 0, 0, 0, 0, 0xcfffffff, 0, 0⟩]

/-- Registers of block 0x0014_0000. -/
def regRowsClk : List RegRow := [
  ⟨"CLK_SLEEP_CTL", 0x140000, 1, 4, 0, 0x3f, 0, 0, 0, 0, 0x3f⟩,
  ⟨"CLK_SLEEP_MIN", 0x140004, 1, 4, 0, 0xffff, 0, 0, 0, 0, 0xa⟩,
  ⟨"CLK_DOMAIN_STATUS", 0x140008, 1, 4, 0, 0, 0, 0, 0x3f, 0, 2⟩,
  ⟨"CLK_WAKE_COUNT", 0x14000c, 1, 4, 0, 0, 0, 0xffffffff, 0, 0, 0⟩,
  ⟨"CLK_XING_OVR", 0x140010, 1, 4, 0, 0, 0xff, 0, 0, 0, 0⟩,
  ⟨"CLK_RESYNC", 0x140014, 1, 4, 0, 0, 0, 0xffffffff, 0, 0, 0⟩]

/-- The rows of the block that an address lies in (R639). -/
def regRowsOf (a : Nat) : List RegRow :=
  match a / 0x10000 with
  | 0 => regRowsSys
  | 1 => regRowsHrn
  | 2 => regRowsFe
  | 3 => regRowsExc
  | 4 => regRowsSmp
  | 5 => regRowsAdc
  | 6 => regRowsFil
  | 7 => regRowsSeq
  | 8 => regRowsStr
  | 9 => regRowsTrg
  | 10 => regRowsMem
  | 11 => regRowsCin
  | 12 => regRowsLnkA
  | 13 => regRowsLnkB
  | 14 => regRowsTim
  | 15 => regRowsCal
  | 16 => regRowsFlt
  | 17 => regRowsRec
  | 18 => regRowsCfg
  | 19 => regRowsLcs
  | 20 => regRowsClk
  | _ => []

/-- Does the row hold a register at this address? -/
def RegRow.has (r : RegRow) (a : Nat) : Bool :=
  decide (r.base ≤ a) && decide ((a - r.base) % r.stride = 0) && decide ((a - r.base) / r.stride < r.count)

/-- The row of an address, if the address holds a register. -/
def regRowAt (a : Nat) : Option RegRow := (regRowsOf a).find? (fun r => r.has a)

/-- R610: address of `SYS_ID`. -/
abbrev SYS_ID : Nat := 0x0
abbrev SYS_ID_STEP : Fld := ⟨SYS_ID, 23, 16⟩
abbrev SYS_ID_PART : Fld := ⟨SYS_ID, 15, 0⟩
/-- R611: address of `SYS_HUB_ID`. -/
abbrev SYS_HUB_ID : Nat := 0x4
abbrev SYS_HUB_ID_ID : Fld := ⟨SYS_HUB_ID, 15, 0⟩
/-- R612: address of `SYS_BOOT`. -/
abbrev SYS_BOOT : Nat := 0x8
abbrev SYS_BOOT_MODE : Fld := ⟨SYS_BOOT, 31, 30⟩
abbrev SYS_BOOT_RELEASED : Fld := ⟨SYS_BOOT, 29, 29⟩
abbrev SYS_BOOT_FREE_START : Fld := ⟨SYS_BOOT, 28, 28⟩
abbrev SYS_BOOT_RST_SRC : Fld := ⟨SYS_BOOT, 27, 26⟩
abbrev SYS_BOOT_WAIT_FIELD : Fld := ⟨SYS_BOOT, 25, 25⟩
abbrev SYS_BOOT_IMAGE : Fld := ⟨SYS_BOOT, 23, 22⟩
abbrev SYS_BOOT_POS : Fld := ⟨SYS_BOOT, 5, 0⟩
/-- R613: address of `SYS_RUN_CTL`. -/
abbrev SYS_RUN_CTL : Nat := 0xc
abbrev SYS_RUN_CTL_START_FREE : Fld := ⟨SYS_RUN_CTL, 0, 0⟩
/-- R42: address of `SYS_EPOCH`. -/
abbrev SYS_EPOCH : Nat := 0x20
abbrev SYS_EPOCH_EPOCH : Fld := ⟨SYS_EPOCH, 31, 0⟩
/-- R43: address of `SYS_COMMIT`. -/
abbrev SYS_COMMIT : Nat := 0x24
abbrev SYS_COMMIT_GO : Fld := ⟨SYS_COMMIT, 0, 0⟩
/-- R44: address of `SYS_COMMIT_STATUS`. -/
abbrev SYS_COMMIT_STATUS : Nat := 0x28
abbrev SYS_COMMIT_STATUS_FAIL_CODE : Fld := ⟨SYS_COMMIT_STATUS, 7, 4⟩
abbrev SYS_COMMIT_STATUS_FAILED : Fld := ⟨SYS_COMMIT_STATUS, 2, 2⟩
abbrev SYS_COMMIT_STATUS_REFUSED : Fld := ⟨SYS_COMMIT_STATUS, 1, 1⟩
abbrev SYS_COMMIT_STATUS_PENDING : Fld := ⟨SYS_COMMIT_STATUS, 0, 0⟩
/-- R46: address of `SYS_COMMIT_SRC`. -/
abbrev SYS_COMMIT_SRC : Nat := 0x2c
abbrev SYS_COMMIT_SRC_PATH : Fld := ⟨SYS_COMMIT_SRC, 17, 16⟩
abbrev SYS_COMMIT_SRC_SRC_ID : Fld := ⟨SYS_COMMIT_SRC, 15, 0⟩
/-- R47: address of `SYS_SNAP`. -/
abbrev SYS_SNAP : Nat := 0x30
abbrev SYS_SNAP_OWNER : Fld := ⟨SYS_SNAP, 5, 4⟩
abbrev SYS_SNAP_REFUSED : Fld := ⟨SYS_SNAP, 3, 3⟩
abbrev SYS_SNAP_HELD : Fld := ⟨SYS_SNAP, 2, 2⟩
abbrev SYS_SNAP_REL : Fld := ⟨SYS_SNAP, 1, 1⟩
abbrev SYS_SNAP_REQ : Fld := ⟨SYS_SNAP, 0, 0⟩
/-- R48: address of `SYS_SNAP_TO`. -/
abbrev SYS_SNAP_TO : Nat := 0x34
abbrev SYS_SNAP_TO_TIMEOUT_MS : Fld := ⟨SYS_SNAP_TO, 15, 0⟩
/-- R609: address of `CAP_WORD`. -/
abbrev CAP_WORD (i : Nat) : Nat := 0x100 + 4 * i
abbrev CAP_WORD_WORD (i : Nat) : Fld := ⟨CAP_WORD i, 31, 0⟩
/-- R56: address of `HRN_TERM`. -/
abbrev HRN_TERM (i : Nat) : Nat := 0x10000 + 4 * i
abbrev HRN_TERM_PROBE (i : Nat) : Fld := ⟨HRN_TERM i, 16, 16⟩
abbrev HRN_TERM_BURN_DIR (i : Nat) : Fld := ⟨HRN_TERM i, 15, 15⟩
abbrev HRN_TERM_BURN_I (i : Nat) : Fld := ⟨HRN_TERM i, 14, 12⟩
abbrev HRN_TERM_BIAS (i : Nat) : Fld := ⟨HRN_TERM i, 11, 10⟩
abbrev HRN_TERM_CMP (i : Nat) : Fld := ⟨HRN_TERM i, 9, 8⟩
abbrev HRN_TERM_EXC (i : Nat) : Fld := ⟨HRN_TERM i, 7, 5⟩
abbrev HRN_TERM_IN_EN (i : Nat) : Fld := ⟨HRN_TERM i, 4, 4⟩
abbrev HRN_TERM_IN_POL (i : Nat) : Fld := ⟨HRN_TERM i, 3, 3⟩
abbrev HRN_TERM_IN_CH (i : Nat) : Fld := ⟨HRN_TERM i, 2, 0⟩
/-- R58: address of `HRN_CHIN`. -/
abbrev HRN_CHIN (i : Nat) : Nat := 0x10a00 + 4 * i
abbrev HRN_CHIN_N_INT (i : Nat) : Fld := ⟨HRN_CHIN i, 6, 4⟩
abbrev HRN_CHIN_P_INT (i : Nat) : Fld := ⟨HRN_CHIN i, 2, 0⟩
/-- R59: address of `HRN_CLUS`. -/
abbrev HRN_CLUS (i : Nat) : Nat := 0x10f00 + 4 * i
abbrev HRN_CLUS_CN1_VAL (i : Nat) : Fld := ⟨HRN_CLUS i, 3, 2⟩
abbrev HRN_CLUS_CN0_VAL (i : Nat) : Fld := ⟨HRN_CLUS i, 1, 0⟩
/-- R78: address of `HRN_PROBE_CTL`. -/
abbrev HRN_PROBE_CTL : Nat := 0x11000
abbrev HRN_PROBE_CTL_EN : Fld := ⟨HRN_PROBE_CTL, 24, 24⟩
abbrev HRN_PROBE_CTL_RECOVER : Fld := ⟨HRN_PROBE_CTL, 23, 20⟩
abbrev HRN_PROBE_CTL_OPEN_THR : Fld := ⟨HRN_PROBE_CTL, 18, 16⟩
abbrev HRN_PROBE_CTL_INTERVAL_MS : Fld := ⟨HRN_PROBE_CTL, 15, 0⟩
/-- R71: address of `HRN_OV_CTL`. -/
abbrev HRN_OV_CTL : Nat := 0x11004
abbrev HRN_OV_CTL_AUTO : Fld := ⟨HRN_OV_CTL, 16, 16⟩
abbrev HRN_OV_CTL_RECOVER_MS : Fld := ⟨HRN_OV_CTL, 15, 0⟩
/-- R64: address of `HRN_CONFLICT`. -/
abbrev HRN_CONFLICT : Nat := 0x11008
abbrev HRN_CONFLICT_VALID : Fld := ⟨HRN_CONFLICT, 31, 31⟩
abbrev HRN_CONFLICT_RULE : Fld := ⟨HRN_CONFLICT, 15, 12⟩
abbrev HRN_CONFLICT_KIND : Fld := ⟨HRN_CONFLICT, 11, 10⟩
abbrev HRN_CONFLICT_INDEX : Fld := ⟨HRN_CONFLICT, 9, 0⟩
/-- R72: address of `HRN_TSTAT`. -/
abbrev HRN_TSTAT (i : Nat) : Nat := 0x12000 + 4 * i
abbrev HRN_TSTAT_PROBE_OPEN (i : Nat) : Fld := ⟨HRN_TSTAT i, 5, 5⟩
abbrev HRN_TSTAT_SHORT_GND (i : Nat) : Fld := ⟨HRN_TSTAT i, 4, 4⟩
abbrev HRN_TSTAT_OPEN (i : Nat) : Fld := ⟨HRN_TSTAT i, 3, 3⟩
abbrev HRN_TSTAT_ISOLATED (i : Nat) : Fld := ⟨HRN_TSTAT i, 2, 2⟩
abbrev HRN_TSTAT_OV_NEG (i : Nat) : Fld := ⟨HRN_TSTAT i, 1, 1⟩
abbrev HRN_TSTAT_OV_POS (i : Nat) : Fld := ⟨HRN_TSTAT i, 0, 0⟩
/-- R109: address of `FE_CFG`. -/
abbrev FE_CFG (i : Nat) : Nat := 0x20000 + 4 * i
abbrev FE_CFG_AUTO_RST (i : Nat) : Fld := ⟨FE_CFG i, 13, 13⟩
abbrev FE_CFG_XLINK (i : Nat) : Fld := ⟨FE_CFG i, 12, 11⟩
abbrev FE_CFG_OPEN_K (i : Nat) : Fld := ⟨FE_CFG i, 10, 9⟩
abbrev FE_CFG_LOWPWR (i : Nat) : Fld := ⟨FE_CFG i, 8, 8⟩
abbrev FE_CFG_COUPLE (i : Nat) : Fld := ⟨FE_CFG i, 7, 6⟩
abbrev FE_CFG_RANGE (i : Nat) : Fld := ⟨FE_CFG i, 5, 3⟩
abbrev FE_CFG_MODE (i : Nat) : Fld := ⟨FE_CFG i, 2, 1⟩
abbrev FE_CFG_EN (i : Nat) : Fld := ⟨FE_CFG i, 0, 0⟩
/-- R110: address of `FE_STATUS`. -/
abbrev FE_STATUS (i : Nat) : Nat := 0x20800 + 4 * i
abbrev FE_STATUS_SAT_SEEN (i : Nat) : Fld := ⟨FE_STATUS i, 16, 16⟩
abbrev FE_STATUS_CAL (i : Nat) : Fld := ⟨FE_STATUS i, 15, 15⟩
abbrev FE_STATUS_SAT (i : Nat) : Fld := ⟨FE_STATUS i, 14, 14⟩
abbrev FE_STATUS_OPEN (i : Nat) : Fld := ⟨FE_STATUS i, 13, 13⟩
abbrev FE_STATUS_SETTLING (i : Nat) : Fld := ⟨FE_STATUS i, 12, 12⟩
abbrev FE_STATUS_UNIT (i : Nat) : Fld := ⟨FE_STATUS i, 8, 0⟩
/-- R111: address of `FE_UNIT`. -/
abbrev FE_UNIT (i : Nat) : Nat := 0x21000 + 4 * i
abbrev FE_UNIT_PREP (i : Nat) : Fld := ⟨FE_UNIT i, 5, 5⟩
abbrev FE_UNIT_LOCAL (i : Nat) : Fld := ⟨FE_UNIT i, 4, 2⟩
abbrev FE_UNIT_ROLE (i : Nat) : Fld := ⟨FE_UNIT i, 1, 0⟩
/-- R112: address of `FE_SAT_CTL`. -/
abbrev FE_SAT_CTL : Nat := 0x22000
abbrev FE_SAT_CTL_PERSIST : Fld := ⟨FE_SAT_CTL, 7, 0⟩
/-- R113: address of `EXC_CFG`. -/
abbrev EXC_CFG (i : Nat) : Nat := 0x30000 + 4 * i
abbrev EXC_CFG_GROUP (i : Nat) : Fld := ⟨EXC_CFG i, 9, 7⟩
abbrev EXC_CFG_IEPE (i : Nat) : Fld := ⟨EXC_CFG i, 6, 5⟩
abbrev EXC_CFG_RANGE (i : Nat) : Fld := ⟨EXC_CFG i, 4, 4⟩
abbrev EXC_CFG_SENSE (i : Nat) : Fld := ⟨EXC_CFG i, 3, 3⟩
abbrev EXC_CFG_MODE (i : Nat) : Fld := ⟨EXC_CFG i, 2, 0⟩
/-- R114: address of `EXC_SET`. -/
abbrev EXC_SET (i : Nat) : Nat := 0x30200 + 4 * i
abbrev EXC_SET_XSETTLE (i : Nat) : Fld := ⟨EXC_SET i, 31, 24⟩
abbrev EXC_SET_ILOAD (i : Nat) : Fld := ⟨EXC_SET i, 23, 16⟩
abbrev EXC_SET_SET (i : Nat) : Fld := ⟨EXC_SET i, 15, 0⟩
/-- R115: address of `EXC_CHOP`. -/
abbrev EXC_CHOP (i : Nat) : Nat := 0x30400 + 4 * i
abbrev EXC_CHOP_HALF (i : Nat) : Fld := ⟨EXC_CHOP i, 15, 0⟩
/-- R116: address of `EXC_STATUS`. -/
abbrev EXC_STATUS (i : Nat) : Nat := 0x30600 + 4 * i
abbrev EXC_STATUS_POL (i : Nat) : Fld := ⟨EXC_STATUS i, 21, 21⟩
abbrev EXC_STATUS_FAULT_OFF (i : Nat) : Fld := ⟨EXC_STATUS i, 20, 20⟩
abbrev EXC_STATUS_OVERCURRENT (i : Nat) : Fld := ⟨EXC_STATUS i, 19, 19⟩
abbrev EXC_STATUS_REVERSED (i : Nat) : Fld := ⟨EXC_STATUS i, 18, 18⟩
abbrev EXC_STATUS_COMPLIANCE (i : Nat) : Fld := ⟨EXC_STATUS i, 17, 17⟩
abbrev EXC_STATUS_LIMIT (i : Nat) : Fld := ⟨EXC_STATUS i, 16, 16⟩
abbrev EXC_STATUS_IMEAS (i : Nat) : Fld := ⟨EXC_STATUS i, 15, 0⟩
/-- R117: address of `EXC_TOTAL`. -/
abbrev EXC_TOTAL : Nat := 0x30800
abbrev EXC_TOTAL_PEAK : Fld := ⟨EXC_TOTAL, 31, 16⟩
abbrev EXC_TOTAL_TOTAL : Fld := ⟨EXC_TOTAL, 15, 0⟩
/-- R136: address of `SMP_FRAME_PERIOD`. -/
abbrev SMP_FRAME_PERIOD : Nat := 0x40000
abbrev SMP_FRAME_PERIOD_PERIOD_NS : Fld := ⟨SMP_FRAME_PERIOD, 29, 0⟩
/-- R137: address of `SMP_FRAME_PHASE`. -/
abbrev SMP_FRAME_PHASE : Nat := 0x40004
abbrev SMP_FRAME_PHASE_PHASE_NS : Fld := ⟨SMP_FRAME_PHASE, 29, 0⟩
/-- R138: address of `SMP_STATUS`. -/
abbrev SMP_STATUS : Nat := 0x40008
abbrev SMP_STATUS_WAIT_TIME : Fld := ⟨SMP_STATUS, 8, 8⟩
abbrev SMP_STATUS_ACTIVE : Fld := ⟨SMP_STATUS, 7, 0⟩
/-- R139: address of `SMP_SYNC_CTL`. -/
abbrev SMP_SYNC_CTL : Nat := 0x40010
abbrev SMP_SYNC_CTL_IN_MASK : Fld := ⟨SMP_SYNC_CTL, 15, 8⟩
abbrev SMP_SYNC_CTL_LATE_ACT : Fld := ⟨SMP_SYNC_CTL, 2, 2⟩
abbrev SMP_SYNC_CTL_IN_EDGE : Fld := ⟨SMP_SYNC_CTL, 1, 1⟩
abbrev SMP_SYNC_CTL_IN_EN : Fld := ⟨SMP_SYNC_CTL, 0, 0⟩
/-- R140: address of `SMP_SYNC_T0`. -/
abbrev SMP_SYNC_T0 : Nat := 0x40014
abbrev SMP_SYNC_T0_NS : Fld := ⟨SMP_SYNC_T0, 29, 0⟩
/-- R140: address of `SMP_SYNC_T1`. -/
abbrev SMP_SYNC_T1 : Nat := 0x40018
abbrev SMP_SYNC_T1_S_LO : Fld := ⟨SMP_SYNC_T1, 31, 0⟩
/-- R140: address of `SMP_SYNC_T2`. -/
abbrev SMP_SYNC_T2 : Nat := 0x4001c
abbrev SMP_SYNC_T2_ARM : Fld := ⟨SMP_SYNC_T2, 31, 31⟩
abbrev SMP_SYNC_T2_MASK : Fld := ⟨SMP_SYNC_T2, 23, 16⟩
abbrev SMP_SYNC_T2_S_HI : Fld := ⟨SMP_SYNC_T2, 15, 0⟩
/-- R141: address of `SMP_SYNC_STATUS`. -/
abbrev SMP_SYNC_STATUS : Nat := 0x40020
abbrev SMP_SYNC_STATUS_LAST_MASK : Fld := ⟨SMP_SYNC_STATUS, 23, 16⟩
abbrev SMP_SYNC_STATUS_LAST_SRC : Fld := ⟨SMP_SYNC_STATUS, 13, 12⟩
abbrev SMP_SYNC_STATUS_IN_MERGED : Fld := ⟨SMP_SYNC_STATUS, 4, 4⟩
abbrev SMP_SYNC_STATUS_REPLACED : Fld := ⟨SMP_SYNC_STATUS, 3, 3⟩
abbrev SMP_SYNC_STATUS_LATE : Fld := ⟨SMP_SYNC_STATUS, 2, 2⟩
abbrev SMP_SYNC_STATUS_IN_PEND : Fld := ⟨SMP_SYNC_STATUS, 1, 1⟩
abbrev SMP_SYNC_STATUS_SCHED_PEND : Fld := ⟨SMP_SYNC_STATUS, 0, 0⟩
/-- R142: address of `SMP_SYNC_OUT`. -/
abbrev SMP_SYNC_OUT : Nat := 0x40024
abbrev SMP_SYNC_OUT_WIDTH_NS : Fld := ⟨SMP_SYNC_OUT, 31, 16⟩
abbrev SMP_SYNC_OUT_OUT_MASK : Fld := ⟨SMP_SYNC_OUT, 15, 8⟩
abbrev SMP_SYNC_OUT_SEL : Fld := ⟨SMP_SYNC_OUT, 6, 4⟩
abbrev SMP_SYNC_OUT_MODE : Fld := ⟨SMP_SYNC_OUT, 1, 0⟩
/-- R143: address of `SMP_GRP_CTL`. -/
abbrev SMP_GRP_CTL (i : Nat) : Nat := 0x40100 + 16 * i
abbrev SMP_GRP_CTL_FOFS (i : Nat) : Fld := ⟨SMP_GRP_CTL i, 31, 16⟩
abbrev SMP_GRP_CTL_MULT_M1 (i : Nat) : Fld := ⟨SMP_GRP_CTL i, 15, 0⟩
/-- R144: address of `SMP_GRP_DLY`. -/
abbrev SMP_GRP_DLY (i : Nat) : Nat := 0x40104 + 16 * i
abbrev SMP_GRP_DLY_ARM (i : Nat) : Fld := ⟨SMP_GRP_DLY i, 31, 31⟩
abbrev SMP_GRP_DLY_D_NS (i : Nat) : Fld := ⟨SMP_GRP_DLY i, 29, 0⟩
/-- R145: address of `SMP_GRP_FRAC`. -/
abbrev SMP_GRP_FRAC (i : Nat) : Nat := 0x40108 + 16 * i
abbrev SMP_GRP_FRAC_FRAC (i : Nat) : Fld := ⟨SMP_GRP_FRAC i, 31, 0⟩
/-- R146: address of `SMP_GRP_SKIP`. -/
abbrev SMP_GRP_SKIP (i : Nat) : Nat := 0x4010c + 16 * i
abbrev SMP_GRP_SKIP_SKIPPED (i : Nat) : Fld := ⟨SMP_GRP_SKIP i, 31, 0⟩
/-- R147: address of `SMP_CH`. -/
abbrev SMP_CH (i : Nat) : Nat := 0x40200 + 4 * i
abbrev SMP_CH_EN (i : Nat) : Fld := ⟨SMP_CH i, 3, 3⟩
abbrev SMP_CH_GROUP (i : Nat) : Fld := ⟨SMP_CH i, 2, 0⟩
/-- R148: address of `SMP_SKEW`. -/
abbrev SMP_SKEW (i : Nat) : Nat := 0x40800 + 4 * i
abbrev SMP_SKEW_TRIM (i : Nat) : Fld := ⟨SMP_SKEW i, 5, 0⟩
/-- R176: address of `ADC_MAP`. -/
abbrev ADC_MAP : Nat := 0x50000
abbrev ADC_MAP_CORE_P7 : Fld := ⟨ADC_MAP, 31, 28⟩
abbrev ADC_MAP_CORE_P6 : Fld := ⟨ADC_MAP, 27, 24⟩
abbrev ADC_MAP_CORE_P5 : Fld := ⟨ADC_MAP, 23, 20⟩
abbrev ADC_MAP_CORE_P4 : Fld := ⟨ADC_MAP, 19, 16⟩
abbrev ADC_MAP_CORE_P3 : Fld := ⟨ADC_MAP, 15, 12⟩
abbrev ADC_MAP_CORE_P2 : Fld := ⟨ADC_MAP, 11, 8⟩
abbrev ADC_MAP_CORE_P1 : Fld := ⟨ADC_MAP, 7, 4⟩
abbrev ADC_MAP_CORE_P0 : Fld := ⟨ADC_MAP, 3, 0⟩
/-- R177: address of `ADC_CORE_STAT`. -/
abbrev ADC_CORE_STAT (i : Nat) : Nat := 0x50010 + 4 * i
abbrev ADC_CORE_STAT_FAILED (i : Nat) : Fld := ⟨ADC_CORE_STAT i, 8, 8⟩
abbrev ADC_CORE_STAT_POS (i : Nat) : Fld := ⟨ADC_CORE_STAT i, 6, 4⟩
abbrev ADC_CORE_STAT_ROLE (i : Nat) : Fld := ⟨ADC_CORE_STAT i, 1, 0⟩
/-- R178: address of `ADC_CORE_CHK`. -/
abbrev ADC_CORE_CHK : Nat := 0x50040
abbrev ADC_CORE_CHK_RESID_LIM : Fld := ⟨ADC_CORE_CHK, 7, 0⟩
/-- R179: address of `ADC_SLACK`. -/
abbrev ADC_SLACK : Nat := 0x50044
abbrev ADC_SLACK_FORCING : Fld := ⟨ADC_SLACK, 31, 31⟩
abbrev ADC_SLACK_SHORT_FRAMES : Fld := ⟨ADC_SLACK, 15, 0⟩
/-- R180: address of `ADC_HK_CTL`. -/
abbrev ADC_HK_CTL : Nat := 0x50048
abbrev ADC_HK_CTL_LIST : Fld := ⟨ADC_HK_CTL, 19, 16⟩
abbrev ADC_HK_CTL_INTERVAL_MS : Fld := ⟨ADC_HK_CTL, 15, 0⟩
/-- R181: address of `ADC_IL_CTL`. -/
abbrev ADC_IL_CTL (i : Nat) : Nat := 0x50100 + 8 * i
abbrev ADC_IL_CTL_START (i : Nat) : Fld := ⟨ADC_IL_CTL i, 31, 31⟩
abbrev ADC_IL_CTL_DEADLINE_US (i : Nat) : Fld := ⟨ADC_IL_CTL i, 15, 0⟩
/-- R182: address of `ADC_IL_STAT`. -/
abbrev ADC_IL_STAT (i : Nat) : Nat := 0x50104 + 8 * i
abbrev ADC_IL_STAT_MERGED (i : Nat) : Fld := ⟨ADC_IL_STAT i, 31, 24⟩
abbrev ADC_IL_STAT_ABANDONED (i : Nat) : Fld := ⟨ADC_IL_STAT i, 5, 5⟩
abbrev ADC_IL_STAT_LATE (i : Nat) : Fld := ⟨ADC_IL_STAT i, 4, 4⟩
abbrev ADC_IL_STAT_AGAIN (i : Nat) : Fld := ⟨ADC_IL_STAT i, 3, 3⟩
abbrev ADC_IL_STAT_STATE (i : Nat) : Fld := ⟨ADC_IL_STAT i, 1, 0⟩
/-- R183: address of `ADC_AUX_RES`. -/
abbrev ADC_AUX_RES (i : Nat) : Nat := 0x50400 + 4 * i
abbrev ADC_AUX_RES_COUNT (i : Nat) : Fld := ⟨ADC_AUX_RES i, 31, 16⟩
abbrev ADC_AUX_RES_CODE (i : Nat) : Fld := ⟨ADC_AUX_RES i, 15, 0⟩
/-- R169: address of `DMA_CFG`. -/
abbrev DMA_CFG (i : Nat) : Nat := 0x58000 + 32 * i
abbrev DMA_CFG_EN (i : Nat) : Fld := ⟨DMA_CFG i, 31, 31⟩
abbrev DMA_CFG_LEN_TILES (i : Nat) : Fld := ⟨DMA_CFG i, 25, 13⟩
abbrev DMA_CFG_BASE_TILE (i : Nat) : Fld := ⟨DMA_CFG i, 12, 0⟩
/-- R169: address of `DMA_WM`. -/
abbrev DMA_WM (i : Nat) : Nat := 0x58004 + 32 * i
abbrev DMA_WM_WM (i : Nat) : Fld := ⟨DMA_WM i, 15, 0⟩
/-- R169: address of `DMA_WPOS_LO`. -/
abbrev DMA_WPOS_LO (i : Nat) : Nat := 0x58008 + 32 * i
abbrev DMA_WPOS_LO_WPOS_LO (i : Nat) : Fld := ⟨DMA_WPOS_LO i, 31, 0⟩
/-- R169: address of `DMA_WPOS_HI`. -/
abbrev DMA_WPOS_HI (i : Nat) : Nat := 0x5800c + 32 * i
abbrev DMA_WPOS_HI_WPOS_HI (i : Nat) : Fld := ⟨DMA_WPOS_HI i, 31, 0⟩
/-- R169: address of `DMA_RPOS_LO`. -/
abbrev DMA_RPOS_LO (i : Nat) : Nat := 0x58010 + 32 * i
abbrev DMA_RPOS_LO_RPOS_LO (i : Nat) : Fld := ⟨DMA_RPOS_LO i, 31, 0⟩
/-- R169: address of `DMA_RPOS_HI`. -/
abbrev DMA_RPOS_HI (i : Nat) : Nat := 0x58014 + 32 * i
abbrev DMA_RPOS_HI_RPOS_HI (i : Nat) : Fld := ⟨DMA_RPOS_HI i, 31, 0⟩
/-- R169: address of `DMA_SYNC_POS_LO`. -/
abbrev DMA_SYNC_POS_LO (i : Nat) : Nat := 0x58018 + 32 * i
abbrev DMA_SYNC_POS_LO_SYNC_POS_LO (i : Nat) : Fld := ⟨DMA_SYNC_POS_LO i, 31, 0⟩
/-- R169: address of `DMA_SYNC_POS_HI`. -/
abbrev DMA_SYNC_POS_HI (i : Nat) : Nat := 0x5801c + 32 * i
abbrev DMA_SYNC_POS_HI_SYNC_POS_HI (i : Nat) : Fld := ⟨DMA_SYNC_POS_HI i, 31, 0⟩
/-- R184: address of `ADC_DMA_STAT`. -/
abbrev ADC_DMA_STAT (i : Nat) : Nat := 0x5c000 + 4 * i
abbrev ADC_DMA_STAT_WRAPPED (i : Nat) : Fld := ⟨ADC_DMA_STAT i, 31, 31⟩
abbrev ADC_DMA_STAT_LOST (i : Nat) : Fld := ⟨ADC_DMA_STAT i, 23, 0⟩
/-- R209: address of `FIL_CHAIN`. -/
abbrev FIL_CHAIN (i : Nat) : Nat := 0x60000 + 8 * i
abbrev FIL_CHAIN_SH1 (i : Nat) : Fld := ⟨FIL_CHAIN i, 31, 26⟩
abbrev FIL_CHAIN_SH2 (i : Nat) : Fld := ⟨FIL_CHAIN i, 25, 21⟩
abbrev FIL_CHAIN_N2 (i : Nat) : Fld := ⟨FIL_CHAIN i, 20, 18⟩
abbrev FIL_CHAIN_S1_R (i : Nat) : Fld := ⟨FIL_CHAIN i, 17, 14⟩
abbrev FIL_CHAIN_S1_K (i : Nat) : Fld := ⟨FIL_CHAIN i, 13, 11⟩
abbrev FIL_CHAIN_DBLANK (i : Nat) : Fld := ⟨FIL_CHAIN i, 10, 7⟩
abbrev FIL_CHAIN_DEMOD (i : Nat) : Fld := ⟨FIL_CHAIN i, 6, 5⟩
/-- R210: address of `FIL_RESP`. -/
abbrev FIL_RESP (i : Nat) : Nat := 0x60004 + 8 * i
abbrev FIL_RESP_SWAP_EN (i : Nat) : Fld := ⟨FIL_RESP i, 31, 31⟩
abbrev FIL_RESP_ACTIVE (i : Nat) : Fld := ⟨FIL_RESP i, 30, 30⟩
abbrev FIL_RESP_FADE_LOG2 (i : Nat) : Fld := ⟨FIL_RESP i, 29, 26⟩
abbrev FIL_RESP_SH3 (i : Nat) : Fld := ⟨FIL_RESP i, 21, 16⟩
abbrev FIL_RESP_RESP1 (i : Nat) : Fld := ⟨FIL_RESP i, 13, 8⟩
abbrev FIL_RESP_RESP0 (i : Nat) : Fld := ⟨FIL_RESP i, 5, 0⟩
/-- R211: address of `FIL_SWAP`. -/
abbrev FIL_SWAP : Nat := 0x61000
abbrev FIL_SWAP_REQ : Fld := ⟨FIL_SWAP, 31, 31⟩
abbrev FIL_SWAP_BANK : Fld := ⟨FIL_SWAP, 16, 16⟩
abbrev FIL_SWAP_STREAM : Fld := ⟨FIL_SWAP, 8, 0⟩
/-- R212: address of `FIL_LOAD`. -/
abbrev FIL_LOAD : Nat := 0x61004
abbrev FIL_LOAD_HB_BAD : Fld := ⟨FIL_LOAD, 31, 31⟩
abbrev FIL_LOAD_S3_MMACS : Fld := ⟨FIL_LOAD, 15, 0⟩
/-- R213: address of `FIL_ROM_BAD`. -/
abbrev FIL_ROM_BAD (i : Nat) : Nat := 0x61008 + 4 * i
abbrev FIL_ROM_BAD_BAD (i : Nat) : Fld := ⟨FIL_ROM_BAD i, 31, 0⟩
/-- R214: address of `FIL_STATUS`. -/
abbrev FIL_STATUS (i : Nat) : Nat := 0x62000 + 4 * i
abbrev FIL_STATUS_SAT_COUNT (i : Nat) : Fld := ⟨FIL_STATUS i, 31, 16⟩
abbrev FIL_STATUS_IGNORED (i : Nat) : Fld := ⟨FIL_STATUS i, 8, 8⟩
abbrev FIL_STATUS_ROM_BAD (i : Nat) : Fld := ⟨FIL_STATUS i, 7, 7⟩
abbrev FIL_STATUS_OVF (i : Nat) : Fld := ⟨FIL_STATUS i, 6, 6⟩
abbrev FIL_STATUS_CUT (i : Nat) : Fld := ⟨FIL_STATUS i, 5, 5⟩
abbrev FIL_STATUS_DROPPED (i : Nat) : Fld := ⟨FIL_STATUS i, 4, 4⟩
abbrev FIL_STATUS_REPLACED (i : Nat) : Fld := ⟨FIL_STATUS i, 3, 3⟩
abbrev FIL_STATUS_Q_BANK (i : Nat) : Fld := ⟨FIL_STATUS i, 2, 2⟩
abbrev FIL_STATUS_QUEUED (i : Nat) : Fld := ⟨FIL_STATUS i, 1, 1⟩
abbrev FIL_STATUS_FADING (i : Nat) : Fld := ⟨FIL_STATUS i, 0, 0⟩
/-- R243: address of `SEQ_CTL`. -/
abbrev SEQ_CTL : Nat := 0x70000
abbrev SEQ_CTL_SCRUB_EN : Fld := ⟨SEQ_CTL, 1, 1⟩
abbrev SEQ_CTL_RUN : Fld := ⟨SEQ_CTL, 0, 0⟩
/-- R244: address of `SEQ_START`. -/
abbrev SEQ_START : Nat := 0x70004
abbrev SEQ_START_ENTRY : Fld := ⟨SEQ_START, 12, 0⟩
/-- R245: address of `SEQ_SF_LEN`. -/
abbrev SEQ_SF_LEN : Nat := 0x70008
abbrev SEQ_SF_LEN_LEN_M1 : Fld := ⟨SEQ_SF_LEN, 31, 0⟩
/-- R246: address of `SEQ_REG_RGN`. -/
abbrev SEQ_REG_RGN : Nat := 0x7000c
abbrev SEQ_REG_RGN_LIMIT : Fld := ⟨SEQ_REG_RGN, 28, 16⟩
abbrev SEQ_REG_RGN_BASE : Fld := ⟨SEQ_REG_RGN, 12, 0⟩
/-- R247: address of `SEQ_CAL_RGN`. -/
abbrev SEQ_CAL_RGN : Nat := 0x70010
abbrev SEQ_CAL_RGN_EN : Fld := ⟨SEQ_CAL_RGN, 31, 31⟩
abbrev SEQ_CAL_RGN_LIMIT : Fld := ⟨SEQ_CAL_RGN, 28, 16⟩
abbrev SEQ_CAL_RGN_BASE : Fld := ⟨SEQ_CAL_RGN, 12, 0⟩
/-- R248: address of `SEQ_TABLE_CRC`. -/
abbrev SEQ_TABLE_CRC : Nat := 0x70014
abbrev SEQ_TABLE_CRC_CRC : Fld := ⟨SEQ_TABLE_CRC, 31, 0⟩
/-- R249: address of `SEQ_STATUS`. -/
abbrev SEQ_STATUS : Nat := 0x70018
abbrev SEQ_STATUS_WR_REFUSED : Fld := ⟨SEQ_STATUS, 20, 20⟩
abbrev SEQ_STATUS_CHKSUM : Fld := ⟨SEQ_STATUS, 19, 19⟩
abbrev SEQ_STATUS_ILLEGAL : Fld := ⟨SEQ_STATUS, 18, 18⟩
abbrev SEQ_STATUS_LOCATING : Fld := ⟨SEQ_STATUS, 17, 17⟩
abbrev SEQ_STATUS_RUNNING : Fld := ⟨SEQ_STATUS, 16, 16⟩
abbrev SEQ_STATUS_DEPTH : Fld := ⟨SEQ_STATUS, 15, 13⟩
abbrev SEQ_STATUS_PC : Fld := ⟨SEQ_STATUS, 12, 0⟩
/-- R250: address of `SEQ_FRAME_POS`. -/
abbrev SEQ_FRAME_POS : Nat := 0x7001c
abbrev SEQ_FRAME_POS_Q : Fld := ⟨SEQ_FRAME_POS, 31, 0⟩
/-- R251: address of `SEQ_CHECK`. -/
abbrev SEQ_CHECK : Nat := 0x70020
abbrev SEQ_CHECK_VALID : Fld := ⟨SEQ_CHECK, 31, 31⟩
abbrev SEQ_CHECK_REASON : Fld := ⟨SEQ_CHECK, 19, 16⟩
abbrev SEQ_CHECK_ENTRY : Fld := ⟨SEQ_CHECK, 12, 0⟩
/-- R252: address of `SEQ_ERR`. -/
abbrev SEQ_ERR : Nat := 0x70024
abbrev SEQ_ERR_VALID : Fld := ⟨SEQ_ERR, 31, 31⟩
abbrev SEQ_ERR_KIND : Fld := ⟨SEQ_ERR, 17, 16⟩
abbrev SEQ_ERR_WALK : Fld := ⟨SEQ_ERR, 14, 13⟩
abbrev SEQ_ERR_ENTRY : Fld := ⟨SEQ_ERR, 12, 0⟩
/-- R253: address of `SEQ_SCRUB`. -/
abbrev SEQ_SCRUB : Nat := 0x70028
abbrev SEQ_SCRUB_CE_COUNT : Fld := ⟨SEQ_SCRUB, 31, 16⟩
abbrev SEQ_SCRUB_PASSES : Fld := ⟨SEQ_SCRUB, 15, 0⟩
/-- R254: address of `SEQ_WIN_PAGE`. -/
abbrev SEQ_WIN_PAGE : Nat := 0x7002c
abbrev SEQ_WIN_PAGE_PAGE : Fld := ⟨SEQ_WIN_PAGE, 0, 0⟩
/-- R247: address of `SEQ_IL_RGN`. -/
abbrev SEQ_IL_RGN (i : Nat) : Nat := 0x70040 + 4 * i
abbrev SEQ_IL_RGN_EN (i : Nat) : Fld := ⟨SEQ_IL_RGN i, 31, 31⟩
abbrev SEQ_IL_RGN_LIMIT (i : Nat) : Fld := ⟨SEQ_IL_RGN i, 28, 16⟩
abbrev SEQ_IL_RGN_BASE (i : Nat) : Fld := ⟨SEQ_IL_RGN i, 12, 0⟩
/-- R277: address of `STR_CTL`. -/
abbrev STR_CTL : Nat := 0x80000
abbrev STR_CTL_DEST : Fld := ⟨STR_CTL, 15, 0⟩
/-- R278: address of `STR_CFG`. -/
abbrev STR_CFG (i : Nat) : Nat := 0x80100 + 4 * i
abbrev STR_CFG_HIST (i : Nat) : Fld := ⟨STR_CFG i, 31, 31⟩
abbrev STR_CFG_AUX (i : Nat) : Fld := ⟨STR_CFG i, 30, 30⟩
abbrev STR_CFG_MAXAGE_MS (i : Nat) : Fld := ⟨STR_CFG i, 15, 0⟩
/-- R279: address of `STR_ERA`. -/
abbrev STR_ERA (i : Nat) : Nat := 0x80900 + 4 * i
abbrev STR_ERA_ERA (i : Nat) : Fld := ⟨STR_ERA i, 15, 0⟩
/-- R280: address of `STR_GAP`. -/
abbrev STR_GAP (i : Nat) : Nat := 0x81100 + 4 * i
abbrev STR_GAP_GAPPED (i : Nat) : Fld := ⟨STR_GAP i, 31, 0⟩
/-- R281: address of `STR_BF_FIRST_LO`. -/
abbrev STR_BF_FIRST_LO : Nat := 0x82000
abbrev STR_BF_FIRST_LO_FIRST_LO : Fld := ⟨STR_BF_FIRST_LO, 31, 0⟩
/-- R281: address of `STR_BF_FIRST_HI`. -/
abbrev STR_BF_FIRST_HI : Nat := 0x82004
abbrev STR_BF_FIRST_HI_FIRST_HI : Fld := ⟨STR_BF_FIRST_HI, 31, 0⟩
/-- R281: address of `STR_BF_COUNT`. -/
abbrev STR_BF_COUNT : Nat := 0x82008
abbrev STR_BF_COUNT_COUNT : Fld := ⟨STR_BF_COUNT, 31, 0⟩
/-- R281: address of `STR_BF_CTL`. -/
abbrev STR_BF_CTL : Nat := 0x8200c
abbrev STR_BF_CTL_GO : Fld := ⟨STR_BF_CTL, 31, 31⟩
abbrev STR_BF_CTL_STREAM : Fld := ⟨STR_BF_CTL, 24, 16⟩
abbrev STR_BF_CTL_ERA : Fld := ⟨STR_BF_CTL, 15, 0⟩
/-- R282: address of `STR_BF_STATUS`. -/
abbrev STR_BF_STATUS : Nat := 0x82010
abbrev STR_BF_STATUS_REFUSED : Fld := ⟨STR_BF_STATUS, 20, 20⟩
abbrev STR_BF_STATUS_ACTIVE : Fld := ⟨STR_BF_STATUS, 16, 16⟩
abbrev STR_BF_STATUS_QUEUED : Fld := ⟨STR_BF_STATUS, 15, 13⟩
/-- R283: address of `STR_BF_CLIPPED`. -/
abbrev STR_BF_CLIPPED : Nat := 0x82014
abbrev STR_BF_CLIPPED_CLIPPED : Fld := ⟨STR_BF_CLIPPED, 31, 0⟩
/-- R454: address of `STR_FRM_CTL`. -/
abbrev STR_FRM_CTL : Nat := 0x83000
abbrev STR_FRM_CTL_LAG_US : Fld := ⟨STR_FRM_CTL, 31, 16⟩
abbrev STR_FRM_CTL_HOPS : Fld := ⟨STR_FRM_CTL, 7, 0⟩
/-- R455: address of `STR_EGQ_STATUS`. -/
abbrev STR_EGQ_STATUS : Nat := 0x83004
abbrev STR_EGQ_STATUS_NONEMPTY : Fld := ⟨STR_EGQ_STATUS, 15, 8⟩
abbrev STR_EGQ_STATUS_OVR : Fld := ⟨STR_EGQ_STATUS, 7, 0⟩
/-- R456: address of `STR_SEQ`. -/
abbrev STR_SEQ : Nat := 0x83008
abbrev STR_SEQ_NEXT : Fld := ⟨STR_SEQ, 31, 0⟩
/-- R457: address of `STR_EGQ_CLASS`. -/
abbrev STR_EGQ_CLASS (i : Nat) : Nat := 0x83010 + 4 * i
abbrev STR_EGQ_CLASS_CAP (i : Nat) : Fld := ⟨STR_EGQ_CLASS i, 25, 16⟩
abbrev STR_EGQ_CLASS_FILL (i : Nat) : Fld := ⟨STR_EGQ_CLASS i, 9, 0⟩
/-- R312: address of `TRG_CTL`. -/
abbrev TRG_CTL : Nat := 0x90000
abbrev TRG_CTL_ARM : Fld := ⟨TRG_CTL, 15, 0⟩
/-- R313: address of `TRG_RESTART`. -/
abbrev TRG_RESTART : Nat := 0x90004
abbrev TRG_RESTART_UNITS : Fld := ⟨TRG_RESTART, 15, 0⟩
/-- R313: address of `TRG_FIRE`. -/
abbrev TRG_FIRE : Nat := 0x90008
abbrev TRG_FIRE_UNITS : Fld := ⟨TRG_FIRE, 15, 0⟩
/-- R314: address of `TRG_SEG_REL`. -/
abbrev TRG_SEG_REL : Nat := 0x9000c
abbrev TRG_SEG_REL_GO : Fld := ⟨TRG_SEG_REL, 31, 31⟩
abbrev TRG_SEG_REL_SEG : Fld := ⟨TRG_SEG_REL, 11, 0⟩
/-- R315: address of `TRG_WIN_PAGE`. -/
abbrev TRG_WIN_PAGE : Nat := 0x90010
abbrev TRG_WIN_PAGE_SEG_PAGE : Fld := ⟨TRG_WIN_PAGE, 11, 8⟩
abbrev TRG_WIN_PAGE_MASK_PAGE : Fld := ⟨TRG_WIN_PAGE, 1, 0⟩
/-- R318: address of `TRG_UNIT`. -/
abbrev TRG_UNIT (i : Nat) : Nat := 0x90100 + 32 * i
abbrev TRG_UNIT_START (i : Nat) : Fld := ⟨TRG_UNIT i, 26, 24⟩
abbrev TRG_UNIT_SWAP_BANK (i : Nat) : Fld := ⟨TRG_UNIT i, 20, 20⟩
abbrev TRG_UNIT_ILSEL (i : Nat) : Fld := ⟨TRG_UNIT i, 19, 16⟩
abbrev TRG_UNIT_SWAP_STREAM (i : Nat) : Fld := ⟨TRG_UNIT i, 8, 0⟩
/-- R319: address of `TRG_CAP`. -/
abbrev TRG_CAP (i : Nat) : Nat := 0x90104 + 32 * i
abbrev TRG_CAP_EN (i : Nat) : Fld := ⟨TRG_CAP i, 31, 31⟩
abbrev TRG_CAP_MEAS_EN (i : Nat) : Fld := ⟨TRG_CAP i, 27, 27⟩
abbrev TRG_CAP_MASK_STOP (i : Nat) : Fld := ⟨TRG_CAP i, 26, 26⟩
abbrev TRG_CAP_MASK_EN (i : Nat) : Fld := ⟨TRG_CAP i, 25, 25⟩
abbrev TRG_CAP_AUTO (i : Nat) : Fld := ⟨TRG_CAP i, 24, 24⟩
abbrev TRG_CAP_MSTR (i : Nat) : Fld := ⟨TRG_CAP i, 19, 16⟩
abbrev TRG_CAP_NSTR_M1 (i : Nat) : Fld := ⟨TRG_CAP i, 15, 12⟩
abbrev TRG_CAP_STREAM (i : Nat) : Fld := ⟨TRG_CAP i, 8, 0⟩
/-- R320: address of `TRG_CAP_LEN`. -/
abbrev TRG_CAP_LEN (i : Nat) : Nat := 0x90108 + 32 * i
abbrev TRG_CAP_LEN_LEN (i : Nat) : Fld := ⟨TRG_CAP_LEN i, 20, 0⟩
/-- R320: address of `TRG_CAP_PRE`. -/
abbrev TRG_CAP_PRE (i : Nat) : Nat := 0x9010c + 32 * i
abbrev TRG_CAP_PRE_PRE (i : Nat) : Fld := ⟨TRG_CAP_PRE i, 20, 0⟩
/-- R320: address of `TRG_CAP_POOL`. -/
abbrev TRG_CAP_POOL (i : Nat) : Nat := 0x90110 + 32 * i
abbrev TRG_CAP_POOL_LEN_TILES (i : Nat) : Fld := ⟨TRG_CAP_POOL i, 25, 13⟩
abbrev TRG_CAP_POOL_BASE_TILE (i : Nat) : Fld := ⟨TRG_CAP_POOL i, 12, 0⟩
/-- R320: address of `TRG_CAP_SEG`. -/
abbrev TRG_CAP_SEG (i : Nat) : Nat := 0x90114 + 32 * i
abbrev TRG_CAP_SEG_SEG_LIMIT (i : Nat) : Fld := ⟨TRG_CAP_SEG i, 27, 16⟩
abbrev TRG_CAP_SEG_SEG_BASE (i : Nat) : Fld := ⟨TRG_CAP_SEG i, 11, 0⟩
/-- R321: address of `TRG_MEAS`. -/
abbrev TRG_MEAS (i : Nat) : Nat := 0x90118 + 32 * i
abbrev TRG_MEAS_TH (i : Nat) : Fld := ⟨TRG_MEAS i, 31, 8⟩
/-- R321: address of `TRG_MASK`. -/
abbrev TRG_MASK (i : Nat) : Nat := 0x9011c + 32 * i
abbrev TRG_MASK_HY (i : Nat) : Fld := ⟨TRG_MASK i, 31, 16⟩
abbrev TRG_MASK_MASK_BASE (i : Nat) : Fld := ⟨TRG_MASK i, 12, 0⟩
/-- R322: address of `TRG_STAT`. -/
abbrev TRG_STAT (i : Nat) : Nat := 0x90400 + 4 * i
abbrev TRG_STAT_STOPPED (i : Nat) : Fld := ⟨TRG_STAT i, 31, 31⟩
abbrev TRG_STAT_MASK_HIT (i : Nat) : Fld := ⟨TRG_STAT i, 30, 30⟩
abbrev TRG_STAT_TFULL (i : Nat) : Fld := ⟨TRG_STAT i, 29, 29⟩
abbrev TRG_STAT_CFULL (i : Nat) : Fld := ⟨TRG_STAT i, 28, 28⟩
abbrev TRG_STAT_HELD (i : Nat) : Fld := ⟨TRG_STAT i, 27, 27⟩
abbrev TRG_STAT_STATE (i : Nat) : Fld := ⟨TRG_STAT i, 18, 16⟩
abbrev TRG_STAT_LAST_SEG (i : Nat) : Fld := ⟨TRG_STAT i, 11, 0⟩
/-- R323: address of `TRG_COUNT`. -/
abbrev TRG_COUNT (i : Nat) : Nat := 0x90440 + 4 * i
abbrev TRG_COUNT_COUNT (i : Nat) : Fld := ⟨TRG_COUNT i, 31, 0⟩
/-- R323: address of `TRG_MISSED`. -/
abbrev TRG_MISSED (i : Nat) : Nat := 0x90480 + 4 * i
abbrev TRG_MISSED_MISSED (i : Nat) : Fld := ⟨TRG_MISSED i, 31, 0⟩
/-- R324: address of `TRG_ST_CA`. -/
abbrev TRG_ST_CA (i : Nat) : Nat := 0x91000 + 64 * i
abbrev TRG_ST_CA_CA (i : Nat) : Fld := ⟨TRG_ST_CA i, 31, 0⟩
/-- R324: address of `TRG_ST_CA_LO`. -/
abbrev TRG_ST_CA_LO (i : Nat) : Nat := 0x91004 + 64 * i
abbrev TRG_ST_CA_LO_CA_LO (i : Nat) : Fld := ⟨TRG_ST_CA_LO i, 31, 0⟩
/-- R324: address of `TRG_ST_CA_HI`. -/
abbrev TRG_ST_CA_HI (i : Nat) : Nat := 0x91008 + 64 * i
abbrev TRG_ST_CA_HI_CA_HI (i : Nat) : Fld := ⟨TRG_ST_CA_HI i, 31, 0⟩
/-- R324: address of `TRG_ST_CB`. -/
abbrev TRG_ST_CB (i : Nat) : Nat := 0x9100c + 64 * i
abbrev TRG_ST_CB_CB (i : Nat) : Fld := ⟨TRG_ST_CB i, 31, 0⟩
/-- R324: address of `TRG_ST_CB_LO`. -/
abbrev TRG_ST_CB_LO (i : Nat) : Nat := 0x91010 + 64 * i
abbrev TRG_ST_CB_LO_CB_LO (i : Nat) : Fld := ⟨TRG_ST_CB_LO i, 31, 0⟩
/-- R324: address of `TRG_ST_CB_HI`. -/
abbrev TRG_ST_CB_HI (i : Nat) : Nat := 0x91014 + 64 * i
abbrev TRG_ST_CB_HI_CB_HI (i : Nat) : Fld := ⟨TRG_ST_CB_HI i, 31, 0⟩
/-- R324: address of `TRG_ST_CTL`. -/
abbrev TRG_ST_CTL (i : Nat) : Nat := 0x91018 + 64 * i
abbrev TRG_ST_CTL_COMB (i : Nat) : Fld := ⟨TRG_ST_CTL i, 31, 30⟩
abbrev TRG_ST_CTL_NEXT_TO (i : Nat) : Fld := ⟨TRG_ST_CTL i, 27, 24⟩
abbrev TRG_ST_CTL_NEXT_HIT (i : Nat) : Fld := ⟨TRG_ST_CTL i, 23, 20⟩
abbrev TRG_ST_CTL_ACT_TO (i : Nat) : Fld := ⟨TRG_ST_CTL i, 15, 8⟩
abbrev TRG_ST_CTL_ACT_HIT (i : Nat) : Fld := ⟨TRG_ST_CTL i, 7, 0⟩
/-- R324: address of `TRG_ST_CNT`. -/
abbrev TRG_ST_CNT (i : Nat) : Nat := 0x9101c + 64 * i
abbrev TRG_ST_CNT_TARGET (i : Nat) : Fld := ⟨TRG_ST_CNT i, 31, 0⟩
/-- R324: address of `TRG_ST_TMR_LO`. -/
abbrev TRG_ST_TMR_LO (i : Nat) : Nat := 0x91020 + 64 * i
abbrev TRG_ST_TMR_LO_TMR_LO (i : Nat) : Fld := ⟨TRG_ST_TMR_LO i, 31, 0⟩
/-- R324: address of `TRG_ST_TMR_HI`. -/
abbrev TRG_ST_TMR_HI (i : Nat) : Nat := 0x91024 + 64 * i
abbrev TRG_ST_TMR_HI_TMR_HI (i : Nat) : Fld := ⟨TRG_ST_TMR_HI i, 15, 0⟩
/-- R346: address of `MEM_CTL`. -/
abbrev MEM_CTL : Nat := 0xa0000
abbrev MEM_CTL_CLR_BUSY : Fld := ⟨MEM_CTL, 31, 31⟩
abbrev MEM_CTL_CLR_REFUSED : Fld := ⟨MEM_CTL, 30, 30⟩
abbrev MEM_CTL_SCRUB_EN : Fld := ⟨MEM_CTL, 0, 0⟩
/-- R347: address of `MEM_HIST_POOL`. -/
abbrev MEM_HIST_POOL : Nat := 0xa0004
abbrev MEM_HIST_POOL_LEN_TILES : Fld := ⟨MEM_HIST_POOL, 25, 13⟩
abbrev MEM_HIST_POOL_BASE_TILE : Fld := ⟨MEM_HIST_POOL, 12, 0⟩
/-- R347: address of `MEM_WORK_POOL`. -/
abbrev MEM_WORK_POOL : Nat := 0xa0008
abbrev MEM_WORK_POOL_LEN_TILES : Fld := ⟨MEM_WORK_POOL, 25, 13⟩
abbrev MEM_WORK_POOL_BASE_TILE : Fld := ⟨MEM_WORK_POOL, 12, 0⟩
/-- R348: address of `MEM_CLR`. -/
abbrev MEM_CLR : Nat := 0xa000c
abbrev MEM_CLR_GO : Fld := ⟨MEM_CLR, 31, 31⟩
abbrev MEM_CLR_COUNT_M1 : Fld := ⟨MEM_CLR, 25, 13⟩
abbrev MEM_CLR_FIRST : Fld := ⟨MEM_CLR, 12, 0⟩
/-- R349: address of `MEM_FLIPMASK_LO`. -/
abbrev MEM_FLIPMASK_LO : Nat := 0xa0010
abbrev MEM_FLIPMASK_LO_DATA_LO : Fld := ⟨MEM_FLIPMASK_LO, 31, 0⟩
/-- R349: address of `MEM_FLIPMASK_MID`. -/
abbrev MEM_FLIPMASK_MID : Nat := 0xa0014
abbrev MEM_FLIPMASK_MID_DATA_HI : Fld := ⟨MEM_FLIPMASK_MID, 31, 0⟩
/-- R349: address of `MEM_FLIPMASK_HI`. -/
abbrev MEM_FLIPMASK_HI : Nat := 0xa0018
abbrev MEM_FLIPMASK_HI_ARMED : Fld := ⟨MEM_FLIPMASK_HI, 31, 31⟩
abbrev MEM_FLIPMASK_HI_SCOPE : Fld := ⟨MEM_FLIPMASK_HI, 16, 16⟩
abbrev MEM_FLIPMASK_HI_VFLIP : Fld := ⟨MEM_FLIPMASK_HI, 10, 8⟩
abbrev MEM_FLIPMASK_HI_CHECK : Fld := ⟨MEM_FLIPMASK_HI, 7, 0⟩
/-- R350: address of `MEM_ERR_LAST`. -/
abbrev MEM_ERR_LAST : Nat := 0xa0020
abbrev MEM_ERR_LAST_VALID : Fld := ⟨MEM_ERR_LAST, 31, 31⟩
abbrev MEM_ERR_LAST_UE : Fld := ⟨MEM_ERR_LAST, 30, 30⟩
abbrev MEM_ERR_LAST_SYNDROME : Fld := ⟨MEM_ERR_LAST, 29, 22⟩
abbrev MEM_ERR_LAST_WORD : Fld := ⟨MEM_ERR_LAST, 21, 0⟩
/-- R351: address of `MEM_ERR_INFO`. -/
abbrev MEM_ERR_INFO : Nat := 0xa0024
abbrev MEM_ERR_INFO_VCOPY : Fld := ⟨MEM_ERR_INFO, 8, 8⟩
abbrev MEM_ERR_INFO_SRC : Fld := ⟨MEM_ERR_INFO, 2, 0⟩
/-- R352: address of `MEM_CE_COUNT`. -/
abbrev MEM_CE_COUNT : Nat := 0xa0028
abbrev MEM_CE_COUNT_CE : Fld := ⟨MEM_CE_COUNT, 31, 0⟩
/-- R352: address of `MEM_UE_COUNT`. -/
abbrev MEM_UE_COUNT : Nat := 0xa002c
abbrev MEM_UE_COUNT_UE : Fld := ⟨MEM_UE_COUNT, 31, 0⟩
/-- R353: address of `MEM_SCRUB`. -/
abbrev MEM_SCRUB : Nat := 0xa0030
abbrev MEM_SCRUB_PASSES : Fld := ⟨MEM_SCRUB, 31, 16⟩
/-- R353: address of `MEM_SCRUB_POS`. -/
abbrev MEM_SCRUB_POS : Nat := 0xa0034
abbrev MEM_SCRUB_POS_POS : Fld := ⟨MEM_SCRUB_POS, 21, 0⟩
/-- R354: address of `MEM_RETIRED`. -/
abbrev MEM_RETIRED : Nat := 0xa0038
abbrev MEM_RETIRED_COUNT : Fld := ⟨MEM_RETIRED, 12, 0⟩
/-- R355: address of `MEM_TILE_STAT`. -/
abbrev MEM_TILE_STAT (i : Nat) : Nat := 0xa2000 + 4 * i
abbrev MEM_TILE_STAT_RETIRED (i : Nat) : Fld := ⟨MEM_TILE_STAT i, 7, 7⟩
abbrev MEM_TILE_STAT_CAUSE (i : Nat) : Fld := ⟨MEM_TILE_STAT i, 6, 5⟩
abbrev MEM_TILE_STAT_RESEALING (i : Nat) : Fld := ⟨MEM_TILE_STAT i, 4, 4⟩
abbrev MEM_TILE_STAT_VERIFIED (i : Nat) : Fld := ⟨MEM_TILE_STAT i, 3, 3⟩
abbrev MEM_TILE_STAT_ALLOT (i : Nat) : Fld := ⟨MEM_TILE_STAT i, 2, 0⟩
/-- R356: address of `MEM_TILE_CRC`. -/
abbrev MEM_TILE_CRC (i : Nat) : Nat := 0xa8000 + 4 * i
abbrev MEM_TILE_CRC_CRC (i : Nat) : Fld := ⟨MEM_TILE_CRC i, 31, 0⟩
/-- R379: address of `CIN_CTL`. -/
abbrev CIN_CTL : Nat := 0xb0000
abbrev CIN_CTL_SEG_PRED : Fld := ⟨CIN_CTL, 13, 12⟩
abbrev CIN_CTL_SEG_LEVEL : Fld := ⟨CIN_CTL, 11, 8⟩
abbrev CIN_CTL_HIST_PRED : Fld := ⟨CIN_CTL, 5, 4⟩
abbrev CIN_CTL_HIST_LEVEL : Fld := ⟨CIN_CTL, 3, 0⟩
/-- R380: address of `CIN_STATUS`. -/
abbrev CIN_STATUS : Nat := 0xb0004
abbrev CIN_STATUS_HIST_ENTRIES : Fld := ⟨CIN_STATUS, 26, 16⟩
abbrev CIN_STATUS_CHANNEL : Fld := ⟨CIN_STATUS, 1, 0⟩
/-- R381: address of `CIN_HIST_MISSED`. -/
abbrev CIN_HIST_MISSED : Nat := 0xb0008
abbrev CIN_HIST_MISSED_MISSED : Fld := ⟨CIN_HIST_MISSED, 31, 0⟩
/-- R382: address of `CIN_ERR`. -/
abbrev CIN_ERR : Nat := 0xb000c
abbrev CIN_ERR_VALID : Fld := ⟨CIN_ERR, 31, 31⟩
abbrev CIN_ERR_CAUSE : Fld := ⟨CIN_ERR, 30, 28⟩
abbrev CIN_ERR_CHANNEL : Fld := ⟨CIN_ERR, 25, 24⟩
abbrev CIN_ERR_ID : Fld := ⟨CIN_ERR, 15, 0⟩
/-- R383: address of `CIN_JOB_SRC`. -/
abbrev CIN_JOB_SRC : Nat := 0xb0010
abbrev CIN_JOB_SRC_SRC : Fld := ⟨CIN_JOB_SRC, 22, 0⟩
/-- R383: address of `CIN_JOB_LEN`. -/
abbrev CIN_JOB_LEN : Nat := 0xb0014
abbrev CIN_JOB_LEN_WORDS : Fld := ⟨CIN_JOB_LEN, 22, 0⟩
/-- R384: address of `CIN_JOB_CTL`. -/
abbrev CIN_JOB_CTL : Nat := 0xb0018
abbrev CIN_JOB_CTL_GO : Fld := ⟨CIN_JOB_CTL, 31, 31⟩
abbrev CIN_JOB_CTL_RESUME : Fld := ⟨CIN_JOB_CTL, 30, 30⟩
abbrev CIN_JOB_CTL_ABORT : Fld := ⟨CIN_JOB_CTL, 29, 29⟩
abbrev CIN_JOB_CTL_MODE : Fld := ⟨CIN_JOB_CTL, 28, 28⟩
abbrev CIN_JOB_CTL_SEND : Fld := ⟨CIN_JOB_CTL, 8, 8⟩
abbrev CIN_JOB_CTL_PRED : Fld := ⟨CIN_JOB_CTL, 5, 4⟩
abbrev CIN_JOB_CTL_LEVEL : Fld := ⟨CIN_JOB_CTL, 3, 0⟩
/-- R385: address of `CIN_JOB_STAT`. -/
abbrev CIN_JOB_STAT : Nat := 0xb001c
abbrev CIN_JOB_STAT_JOBNO : Fld := ⟨CIN_JOB_STAT, 31, 16⟩
abbrev CIN_JOB_STAT_REFUSED : Fld := ⟨CIN_JOB_STAT, 7, 7⟩
abbrev CIN_JOB_STAT_FLAGGED : Fld := ⟨CIN_JOB_STAT, 6, 6⟩
abbrev CIN_JOB_STAT_MID : Fld := ⟨CIN_JOB_STAT, 5, 5⟩
abbrev CIN_JOB_STAT_STATE : Fld := ⟨CIN_JOB_STAT, 2, 0⟩
/-- R386: address of `CIN_JOB_IN`. -/
abbrev CIN_JOB_IN : Nat := 0xb0020
abbrev CIN_JOB_IN_IN : Fld := ⟨CIN_JOB_IN, 31, 0⟩
/-- R386: address of `CIN_JOB_OUT`. -/
abbrev CIN_JOB_OUT : Nat := 0xb0024
abbrev CIN_JOB_OUT_OUT : Fld := ⟨CIN_JOB_OUT, 31, 0⟩
/-- R386: address of `CIN_OUT_WR`. -/
abbrev CIN_OUT_WR : Nat := 0xb0028
abbrev CIN_OUT_WR_WR : Fld := ⟨CIN_OUT_WR, 31, 0⟩
/-- R386: address of `CIN_OUT_RD`. -/
abbrev CIN_OUT_RD : Nat := 0xb002c
abbrev CIN_OUT_RD_RD : Fld := ⟨CIN_OUT_RD, 31, 0⟩
/-- R412: address of `LNK_CTL`. -/
abbrev LNK_CTL (p : Nat) : Nat := 0xC0000 + 0x10000 * p + 0x0
abbrev LNK_CTL_RETRAIN (p : Nat) : Fld := ⟨LNK_CTL p, 31, 31⟩
abbrev LNK_CTL_RICH_EVERY (p : Nat) : Fld := ⟨LNK_CTL p, 19, 16⟩
abbrev LNK_CTL_MIN_WIDTH (p : Nat) : Fld := ⟨LNK_CTL p, 2, 0⟩
/-- R413: address of `LNK_TIMING`. -/
abbrev LNK_TIMING (p : Nat) : Nat := 0xC0000 + 0x10000 * p + 0x4
abbrev LNK_TIMING_TRAIN_MS (p : Nat) : Fld := ⟨LNK_TIMING p, 31, 16⟩
abbrev LNK_TIMING_IDLE_NS (p : Nat) : Fld := ⟨LNK_TIMING p, 15, 0⟩
/-- R414: address of `LNK_RECAL`. -/
abbrev LNK_RECAL (p : Nat) : Nat := 0xC0000 + 0x10000 * p + 0x8
abbrev LNK_RECAL_RECAL_MAX_S (p : Nat) : Fld := ⟨LNK_RECAL p, 15, 0⟩
/-- R415: address of `LNK_STATUS`. -/
abbrev LNK_STATUS (p : Nat) : Nat := 0xC0000 + 0x10000 * p + 0x10
abbrev LNK_STATUS_STATE (p : Nat) : Fld := ⟨LNK_STATUS p, 31, 29⟩
abbrev LNK_STATUS_CLK_LOCK (p : Nat) : Fld := ⟨LNK_STATUS p, 28, 28⟩
abbrev LNK_STATUS_TX_ASLEEP (p : Nat) : Fld := ⟨LNK_STATUS p, 27, 27⟩
abbrev LNK_STATUS_RX_ASLEEP (p : Nat) : Fld := ⟨LNK_STATUS p, 26, 26⟩
abbrev LNK_STATUS_P_RECAL (p : Nat) : Fld := ⟨LNK_STATUS p, 23, 20⟩
abbrev LNK_STATUS_MY_RECAL (p : Nat) : Fld := ⟨LNK_STATUS p, 19, 16⟩
abbrev LNK_STATUS_P_HEALTHY (p : Nat) : Fld := ⟨LNK_STATUS p, 15, 12⟩
abbrev LNK_STATUS_HEALTHY (p : Nat) : Fld := ⟨LNK_STATUS p, 11, 8⟩
abbrev LNK_STATUS_ACTIVE (p : Nat) : Fld := ⟨LNK_STATUS p, 7, 4⟩
abbrev LNK_STATUS_WIDTH (p : Nat) : Fld := ⟨LNK_STATUS p, 2, 0⟩
/-- R416: address of `LNK_EVT`. -/
abbrev LNK_EVT (p : Nat) : Nat := 0xC0000 + 0x10000 * p + 0x14
abbrev LNK_EVT_TRAINING_FAIL (p : Nat) : Fld := ⟨LNK_EVT p, 4, 4⟩
abbrev LNK_EVT_CLOCK_LANE_LOSS (p : Nat) : Fld := ⟨LNK_EVT p, 3, 3⟩
abbrev LNK_EVT_TRACK_BOUND (p : Nat) : Fld := ⟨LNK_EVT p, 2, 2⟩
abbrev LNK_EVT_WIDTH_DEGRADED (p : Nat) : Fld := ⟨LNK_EVT p, 1, 1⟩
abbrev LNK_EVT_LANE_DOWN (p : Nat) : Fld := ⟨LNK_EVT p, 0, 0⟩
/-- R417: address of `LNK_LANE`. -/
abbrev LNK_LANE (p l : Nat) : Nat := 0xC0000 + 0x10000 * p + 0x20 + 4 * l
abbrev LNK_LANE_DOWN_COUNT (p l : Nat) : Fld := ⟨LNK_LANE p l, 31, 16⟩
abbrev LNK_LANE_CAUSE (p l : Nat) : Fld := ⟨LNK_LANE p l, 15, 14⟩
abbrev LNK_LANE_LOCKED (p l : Nat) : Fld := ⟨LNK_LANE p l, 13, 13⟩
abbrev LNK_LANE_READMIT (p l : Nat) : Fld := ⟨LNK_LANE p l, 12, 12⟩
abbrev LNK_LANE_GOOD_MS (p l : Nat) : Fld := ⟨LNK_LANE p l, 11, 0⟩
/-- R418: address of `LNK_TRK`. -/
abbrev LNK_TRK (p l : Nat) : Nat := 0xC0000 + 0x10000 * p + 0x30 + 4 * l
abbrev LNK_TRK_RECAL_PEND (p l : Nat) : Fld := ⟨LNK_TRK p l, 24, 24⟩
abbrev LNK_TRK_BOUND (p l : Nat) : Fld := ⟨LNK_TRK p l, 23, 23⟩
abbrev LNK_TRK_FROZEN (p l : Nat) : Fld := ⟨LNK_TRK p l, 22, 22⟩
abbrev LNK_TRK_PHASE (p l : Nat) : Fld := ⟨LNK_TRK p l, 19, 15⟩
abbrev LNK_TRK_THR_U (p l : Nat) : Fld := ⟨LNK_TRK p l, 14, 10⟩
abbrev LNK_TRK_THR_M (p l : Nat) : Fld := ⟨LNK_TRK p l, 9, 5⟩
abbrev LNK_TRK_THR_L (p l : Nat) : Fld := ⟨LNK_TRK p l, 4, 0⟩
/-- R419: address of `LNK_EQ`. -/
abbrev LNK_EQ (p l : Nat) : Nat := 0xC0000 + 0x10000 * p + 0x40 + 4 * l
abbrev LNK_EQ_RX_GAIN (p l : Nat) : Fld := ⟨LNK_EQ p l, 23, 20⟩
abbrev LNK_EQ_CTLE (p l : Nat) : Fld := ⟨LNK_EQ p l, 19, 16⟩
abbrev LNK_EQ_TX_POST (p l : Nat) : Fld := ⟨LNK_EQ p l, 14, 10⟩
abbrev LNK_EQ_TX_MAIN (p l : Nat) : Fld := ⟨LNK_EQ p l, 9, 4⟩
abbrev LNK_EQ_TX_PRE (p l : Nat) : Fld := ⟨LNK_EQ p l, 3, 0⟩
/-- R420: address of `LNK_WIDTH_CHG`. -/
abbrev LNK_WIDTH_CHG (p : Nat) : Nat := 0xC0000 + 0x10000 * p + 0x54
abbrev LNK_WIDTH_CHG_CHANGES (p : Nat) : Fld := ⟨LNK_WIDTH_CHG p, 31, 0⟩
/-- R458: address of `LNK_RX_FRAMES`. -/
abbrev LNK_RX_FRAMES (p : Nat) : Nat := 0xC0000 + 0x10000 * p + 0x100
abbrev LNK_RX_FRAMES_FRAMES (p : Nat) : Fld := ⟨LNK_RX_FRAMES p, 31, 0⟩
/-- R459: address of `LNK_RX_ERR`. -/
abbrev LNK_RX_ERR (p : Nat) : Nat := 0xC0000 + 0x10000 * p + 0x104
abbrev LNK_RX_ERR_CRC_ERR (p : Nat) : Fld := ⟨LNK_RX_ERR p, 31, 16⟩
abbrev LNK_RX_ERR_HCHK_ERR (p : Nat) : Fld := ⟨LNK_RX_ERR p, 15, 0⟩
/-- R460: address of `LNK_DUP`. -/
abbrev LNK_DUP (p : Nat) : Nat := 0xC0000 + 0x10000 * p + 0x108
abbrev LNK_DUP_OLD (p : Nat) : Fld := ⟨LNK_DUP p, 31, 16⟩
abbrev LNK_DUP_DUP (p : Nat) : Fld := ⟨LNK_DUP p, 15, 0⟩
/-- R461: address of `LNK_FIFO`. -/
abbrev LNK_FIFO (p : Nat) : Nat := 0xC0000 + 0x10000 * p + 0x10c
abbrev LNK_FIFO_BUSY (p : Nat) : Fld := ⟨LNK_FIFO p, 31, 16⟩
abbrev LNK_FIFO_FILL (p : Nat) : Fld := ⟨LNK_FIFO p, 6, 0⟩
/-- R462: address of `LNK_FWD_DROP`. -/
abbrev LNK_FWD_DROP (p : Nat) : Nat := 0xC0000 + 0x10000 * p + 0x110
abbrev LNK_FWD_DROP_LAG (p : Nat) : Fld := ⟨LNK_FWD_DROP p, 31, 16⟩
abbrev LNK_FWD_DROP_FWD (p : Nat) : Fld := ⟨LNK_FWD_DROP p, 15, 0⟩
/-- R482: address of `LNK_CRC_MON`. -/
abbrev LNK_CRC_MON (p : Nat) : Nat := 0xC0000 + 0x10000 * p + 0x120
abbrev LNK_CRC_MON_WIN_MS (p : Nat) : Fld := ⟨LNK_CRC_MON p, 31, 16⟩
abbrev LNK_CRC_MON_THR (p : Nat) : Fld := ⟨LNK_CRC_MON p, 15, 0⟩
/-- R483: address of `LNK_SHADOW`. -/
abbrev LNK_SHADOW (p : Nat) : Nat := 0xC0000 + 0x10000 * p + 0x124
abbrev LNK_SHADOW_PROMOTED (p : Nat) : Fld := ⟨LNK_SHADOW p, 31, 16⟩
abbrev LNK_SHADOW_DROPPED (p : Nat) : Fld := ⟨LNK_SHADOW p, 15, 0⟩
/-- R478: address of `LNK_PORT_CTL`. -/
abbrev LNK_PORT_CTL : Nat := 0xc0200
abbrev LNK_PORT_CTL_FORCE : Fld := ⟨LNK_PORT_CTL, 17, 16⟩
abbrev LNK_PORT_CTL_SHADOW_US : Fld := ⟨LNK_PORT_CTL, 15, 4⟩
abbrev LNK_PORT_CTL_REVERT_EN : Fld := ⟨LNK_PORT_CTL, 1, 1⟩
abbrev LNK_PORT_CTL_PREF : Fld := ⟨LNK_PORT_CTL, 0, 0⟩
/-- R479: address of `LNK_REVERT_HOLD`. -/
abbrev LNK_REVERT_HOLD : Nat := 0xc0204
abbrev LNK_REVERT_HOLD_HOLD_MS : Fld := ⟨LNK_REVERT_HOLD, 19, 0⟩
/-- R480: address of `LNK_PORT_STATUS`. -/
abbrev LNK_PORT_STATUS : Nat := 0xc0208
abbrev LNK_PORT_STATUS_B_GAVE_UP : Fld := ⟨LNK_PORT_STATUS, 17, 17⟩
abbrev LNK_PORT_STATUS_A_GAVE_UP : Fld := ⟨LNK_PORT_STATUS, 16, 16⟩
abbrev LNK_PORT_STATUS_B_CAUSE : Fld := ⟨LNK_PORT_STATUS, 14, 12⟩
abbrev LNK_PORT_STATUS_A_CAUSE : Fld := ⟨LNK_PORT_STATUS, 10, 8⟩
abbrev LNK_PORT_STATUS_HOLD_RUN : Fld := ⟨LNK_PORT_STATUS, 3, 3⟩
abbrev LNK_PORT_STATUS_FORCED : Fld := ⟨LNK_PORT_STATUS, 2, 2⟩
abbrev LNK_PORT_STATUS_ACTIVE : Fld := ⟨LNK_PORT_STATUS, 1, 0⟩
/-- R481: address of `LNK_SWITCH_COUNT`. -/
abbrev LNK_SWITCH_COUNT : Nat := 0xc020c
abbrev LNK_SWITCH_COUNT_SWITCHES : Fld := ⟨LNK_SWITCH_COUNT, 31, 0⟩
/-- R499: address of `TIM_NOW_FRAC`. -/
abbrev TIM_NOW_FRAC : Nat := 0xe0000
abbrev TIM_NOW_FRAC_FRAC : Fld := ⟨TIM_NOW_FRAC, 31, 0⟩
/-- R499: address of `TIM_NOW_NS`. -/
abbrev TIM_NOW_NS : Nat := 0xe0004
abbrev TIM_NOW_NS_NS : Fld := ⟨TIM_NOW_NS, 29, 0⟩
/-- R499: address of `TIM_NOW_SLO`. -/
abbrev TIM_NOW_SLO : Nat := 0xe0008
abbrev TIM_NOW_SLO_S_LO : Fld := ⟨TIM_NOW_SLO, 31, 0⟩
/-- R499: address of `TIM_NOW_SHI`. -/
abbrev TIM_NOW_SHI : Nat := 0xe000c
abbrev TIM_NOW_SHI_S_HI : Fld := ⟨TIM_NOW_SHI, 15, 0⟩
/-- R500: address of `TIM_INCR_FRAC`. -/
abbrev TIM_INCR_FRAC : Nat := 0xe0010
abbrev TIM_INCR_FRAC_FRAC : Fld := ⟨TIM_INCR_FRAC, 31, 0⟩
/-- R500: address of `TIM_INCR_NS`. -/
abbrev TIM_INCR_NS : Nat := 0xe0014
abbrev TIM_INCR_NS_NS : Fld := ⟨TIM_INCR_NS, 5, 0⟩
/-- R501: address of `TIM_ADJ_FRAC`. -/
abbrev TIM_ADJ_FRAC : Nat := 0xe0018
abbrev TIM_ADJ_FRAC_FRAC : Fld := ⟨TIM_ADJ_FRAC, 31, 0⟩
/-- R501: address of `TIM_ADJ_NS`. -/
abbrev TIM_ADJ_NS : Nat := 0xe001c
abbrev TIM_ADJ_NS_NS : Fld := ⟨TIM_ADJ_NS, 31, 0⟩
/-- R502: address of `TIM_SET_FRAC`. -/
abbrev TIM_SET_FRAC : Nat := 0xe0020
abbrev TIM_SET_FRAC_FRAC : Fld := ⟨TIM_SET_FRAC, 31, 0⟩
/-- R502: address of `TIM_SET_NS`. -/
abbrev TIM_SET_NS : Nat := 0xe0024
abbrev TIM_SET_NS_NS : Fld := ⟨TIM_SET_NS, 29, 0⟩
/-- R502: address of `TIM_SET_SLO`. -/
abbrev TIM_SET_SLO : Nat := 0xe0028
abbrev TIM_SET_SLO_S_LO : Fld := ⟨TIM_SET_SLO, 31, 0⟩
/-- R502: address of `TIM_SET_SHI`. -/
abbrev TIM_SET_SHI : Nat := 0xe002c
abbrev TIM_SET_SHI_S_HI : Fld := ⟨TIM_SET_SHI, 15, 0⟩
/-- R503: address of `TIM_STEP_LIM`. -/
abbrev TIM_STEP_LIM : Nat := 0xe0030
abbrev TIM_STEP_LIM_LIM_NS : Fld := ⟨TIM_STEP_LIM, 30, 0⟩
/-- R503: address of `TIM_HOLDOVER_TO`. -/
abbrev TIM_HOLDOVER_TO : Nat := 0xe0034
abbrev TIM_HOLDOVER_TO_TO_MS : Fld := ⟨TIM_HOLDOVER_TO, 15, 0⟩
/-- R503: address of `TIM_FREE_TO`. -/
abbrev TIM_FREE_TO : Nat := 0xe0038
abbrev TIM_FREE_TO_FREE_S : Fld := ⟨TIM_FREE_TO, 15, 0⟩
/-- R504: address of `TIM_CTL`. -/
abbrev TIM_CTL : Nat := 0xe003c
abbrev TIM_CTL_LOCK : Fld := ⟨TIM_CTL, 31, 31⟩
abbrev TIM_CTL_SET_EN : Fld := ⟨TIM_CTL, 30, 30⟩
abbrev TIM_CTL_MASTER : Fld := ⟨TIM_CTL, 15, 0⟩
/-- R505: address of `TIM_STATUS`. -/
abbrev TIM_STATUS : Nat := 0xe0040
abbrev TIM_STATUS_LOCK_REFUSED : Fld := ⟨TIM_STATUS, 11, 11⟩
abbrev TIM_STATUS_INCR_REJ : Fld := ⟨TIM_STATUS, 10, 10⟩
abbrev TIM_STATUS_ADJ_REPLACED : Fld := ⟨TIM_STATUS, 9, 9⟩
abbrev TIM_STATUS_STEP_REJ : Fld := ⟨TIM_STATUS, 8, 8⟩
abbrev TIM_STATUS_SET_DONE : Fld := ⟨TIM_STATUS, 5, 5⟩
abbrev TIM_STATUS_SET_PEND : Fld := ⟨TIM_STATUS, 4, 4⟩
abbrev TIM_STATUS_ADJ_PEND : Fld := ⟨TIM_STATUS, 3, 3⟩
abbrev TIM_STATUS_QUALITY : Fld := ⟨TIM_STATUS, 1, 0⟩
/-- R506: address of `TIM_RX_DIFF_LO`. -/
abbrev TIM_RX_DIFF_LO (i : Nat) : Nat := 0xe0100 + 16 * i
abbrev TIM_RX_DIFF_LO_FRAC (i : Nat) : Fld := ⟨TIM_RX_DIFF_LO i, 31, 0⟩
/-- R506: address of `TIM_RX_DIFF_HI`. -/
abbrev TIM_RX_DIFF_HI (i : Nat) : Nat := 0xe0104 + 16 * i
abbrev TIM_RX_DIFF_HI_NS (i : Nat) : Fld := ⟨TIM_RX_DIFF_HI i, 31, 0⟩
/-- R506: address of `TIM_RX_INFO`. -/
abbrev TIM_RX_INFO (i : Nat) : Nat := 0xe0108 + 16 * i
abbrev TIM_RX_INFO_COUNT (i : Nat) : Fld := ⟨TIM_RX_INFO i, 31, 24⟩
abbrev TIM_RX_INFO_SAT (i : Nat) : Fld := ⟨TIM_RX_INFO i, 23, 23⟩
abbrev TIM_RX_INFO_MSGSEQ (i : Nat) : Fld := ⟨TIM_RX_INFO i, 15, 0⟩
/-- R507: address of `TIM_DLY`. -/
abbrev TIM_DLY (p l : Nat) : Nat := 0xE0200 + 0x10 * p + 4 * l
abbrev TIM_DLY_TX_PS (p l : Nat) : Fld := ⟨TIM_DLY p l, 31, 16⟩
abbrev TIM_DLY_RX_PS (p l : Nat) : Fld := ⟨TIM_DLY p l, 15, 0⟩
/-- R528: address of `CAL_CTL`. -/
abbrev CAL_CTL : Nat := 0xf0000
abbrev CAL_CTL_RUN_ALL : Fld := ⟨CAL_CTL, 31, 31⟩
abbrev CAL_CTL_LINK_EN : Fld := ⟨CAL_CTL, 2, 2⟩
abbrev CAL_CTL_ADC_EN : Fld := ⟨CAL_CTL, 1, 1⟩
abbrev CAL_CTL_FE_EN : Fld := ⟨CAL_CTL, 0, 0⟩
/-- R529: address of `CAL_TEMP_DELTA`. -/
abbrev CAL_TEMP_DELTA : Nat := 0xf0004
abbrev CAL_TEMP_DELTA_DELTA : Fld := ⟨CAL_TEMP_DELTA, 7, 0⟩
/-- R529: address of `CAL_AGREE_TAPS`. -/
abbrev CAL_AGREE_TAPS : Nat := 0xf0008
abbrev CAL_AGREE_TAPS_FAIL_LIM : Fld := ⟨CAL_AGREE_TAPS, 11, 8⟩
abbrev CAL_AGREE_TAPS_TAPS : Fld := ⟨CAL_AGREE_TAPS, 3, 0⟩
/-- R529: address of `CAL_STARVE_TO`. -/
abbrev CAL_STARVE_TO : Nat := 0xf000c
abbrev CAL_STARVE_TO_TO_MS : Fld := ⟨CAL_STARVE_TO, 15, 0⟩
/-- R529: address of `CAL_STEP_TO`. -/
abbrev CAL_STEP_TO : Nat := 0xf0010
abbrev CAL_STEP_TO_TO_MS : Fld := ⟨CAL_STEP_TO, 15, 0⟩
/-- R529: address of `CAL_PRE`. -/
abbrev CAL_PRE : Nat := 0xf0014
abbrev CAL_PRE_RAMP_MIN : Fld := ⟨CAL_PRE, 31, 16⟩
abbrev CAL_PRE_SPREAD : Fld := ⟨CAL_PRE, 15, 0⟩
/-- R530: address of `CAL_STATUS`. -/
abbrev CAL_STATUS : Nat := 0xf0018
abbrev CAL_STATUS_FE_BUSY : Fld := ⟨CAL_STATUS, 19, 19⟩
abbrev CAL_STATUS_FE_UNIT : Fld := ⟨CAL_STATUS, 18, 10⟩
abbrev CAL_STATUS_ADC_BUSY : Fld := ⟨CAL_STATUS, 9, 9⟩
abbrev CAL_STATUS_ADC_CORE : Fld := ⟨CAL_STATUS, 8, 5⟩
/-- R530: address of `CAL_LAST`. -/
abbrev CAL_LAST : Nat := 0xf001c
abbrev CAL_LAST_VALID : Fld := ⟨CAL_LAST, 31, 31⟩
abbrev CAL_LAST_RESULT : Fld := ⟨CAL_LAST, 30, 28⟩
abbrev CAL_LAST_KIND : Fld := ⟨CAL_LAST, 27, 26⟩
abbrev CAL_LAST_RETRIES : Fld := ⟨CAL_LAST, 11, 10⟩
abbrev CAL_LAST_ITEM : Fld := ⟨CAL_LAST, 9, 0⟩
/-- R530: address of `CAL_COUNT`. -/
abbrev CAL_COUNT : Nat := 0xf0020
abbrev CAL_COUNT_PASSED : Fld := ⟨CAL_COUNT, 31, 16⟩
abbrev CAL_COUNT_FAILED : Fld := ⟨CAL_COUNT, 15, 0⟩
/-- R531: address of `CAL_TEMP`. -/
abbrev CAL_TEMP (i : Nat) : Nat := 0xf0040 + 4 * i
abbrev CAL_TEMP_T (i : Nat) : Fld := ⟨CAL_TEMP i, 15, 0⟩
/-- R531: address of `CAL_STROBE_TGT`. -/
abbrev CAL_STROBE_TGT : Nat := 0xf0080
abbrev CAL_STROBE_TGT_TGT : Fld := ⟨CAL_STROBE_TGT, 31, 0⟩
/-- R532: address of `CAL_FE_PAGE`. -/
abbrev CAL_FE_PAGE : Nat := 0xf0100
abbrev CAL_FE_PAGE_UNIT : Fld := ⟨CAL_FE_PAGE, 8, 0⟩
/-- R532: address of `CAL_FE_UNIT`. -/
abbrev CAL_FE_UNIT : Nat := 0xf0104
abbrev CAL_FE_UNIT_FAILS : Fld := ⟨CAL_FE_UNIT, 31, 28⟩
abbrev CAL_FE_UNIT_NEVER : Fld := ⟨CAL_FE_UNIT, 27, 27⟩
abbrev CAL_FE_UNIT_T_CAL : Fld := ⟨CAL_FE_UNIT, 15, 0⟩
/-- R532: address of `CAL_FE_TRIM`. -/
abbrev CAL_FE_TRIM (i : Nat) : Nat := 0xf0200 + 4 * i
abbrev CAL_FE_TRIM_GAIN (i : Nat) : Fld := ⟨CAL_FE_TRIM i, 31, 16⟩
abbrev CAL_FE_TRIM_OFS (i : Nat) : Fld := ⟨CAL_FE_TRIM i, 15, 0⟩
/-- R533: address of `CAL_ACC_CNT`. -/
abbrev CAL_ACC_CNT (i : Nat) : Nat := 0xf0400 + 16 * i
abbrev CAL_ACC_CNT_CNT (i : Nat) : Fld := ⟨CAL_ACC_CNT i, 31, 0⟩
/-- R533: address of `CAL_ACC_SLO`. -/
abbrev CAL_ACC_SLO (i : Nat) : Nat := 0xf0404 + 16 * i
abbrev CAL_ACC_SLO_SUM_LO (i : Nat) : Fld := ⟨CAL_ACC_SLO i, 31, 0⟩
/-- R533: address of `CAL_ACC_SHI`. -/
abbrev CAL_ACC_SHI (i : Nat) : Nat := 0xf0408 + 16 * i
abbrev CAL_ACC_SHI_SUM_HI (i : Nat) : Fld := ⟨CAL_ACC_SHI i, 15, 0⟩
/-- R533: address of `CAL_ACC_MM`. -/
abbrev CAL_ACC_MM (i : Nat) : Nat := 0xf040c + 16 * i
abbrev CAL_ACC_MM_MAX (i : Nat) : Fld := ⟨CAL_ACC_MM i, 31, 16⟩
abbrev CAL_ACC_MM_MIN (i : Nat) : Fld := ⟨CAL_ACC_MM i, 15, 0⟩
/-- R534: address of `CAL_ADC_STAT`. -/
abbrev CAL_ADC_STAT (i : Nat) : Nat := 0xf1000 + 128 * i
abbrev CAL_ADC_STAT_T_CAL (i : Nat) : Fld := ⟨CAL_ADC_STAT i, 15, 0⟩
/-- R534: address of `CAL_ADC_OG`. -/
abbrev CAL_ADC_OG (i : Nat) : Nat := 0xf1004 + 128 * i
abbrev CAL_ADC_OG_GAIN (i : Nat) : Fld := ⟨CAL_ADC_OG i, 31, 16⟩
abbrev CAL_ADC_OG_OFS (i : Nat) : Fld := ⟨CAL_ADC_OG i, 15, 0⟩
/-- R534: address of `CAL_ADC_THR`. -/
abbrev CAL_ADC_THR (c i : Nat) : Nat := 0xF1040 + 0x80 * c + 4 * i
abbrev CAL_ADC_THR_THR (c i : Nat) : Fld := ⟨CAL_ADC_THR c i, 5, 0⟩
/-- R535: address of `CAL_LINK`. -/
abbrev CAL_LINK (p l : Nat) : Nat := 0xF2000 + 0x20 * p + 4 * l
abbrev CAL_LINK_PHASE (p l : Nat) : Fld := ⟨CAL_LINK p l, 29, 24⟩
abbrev CAL_LINK_THR_U (p l : Nat) : Fld := ⟨CAL_LINK p l, 20, 14⟩
abbrev CAL_LINK_THR_M (p l : Nat) : Fld := ⟨CAL_LINK p l, 13, 7⟩
abbrev CAL_LINK_THR_L (p l : Nat) : Fld := ⟨CAL_LINK p l, 6, 0⟩
/-- R580: address of `FLT_MAP`. -/
abbrev FLT_MAP (i : Nat) : Nat := 0x100000 + 4 * i
abbrev FLT_MAP_CLASS (i : Nat) : Fld := ⟨FLT_MAP i, 31, 30⟩
abbrev FLT_MAP_REACT (i : Nat) : Fld := ⟨FLT_MAP i, 29, 27⟩
abbrev FLT_MAP_REC (i : Nat) : Fld := ⟨FLT_MAP i, 26, 26⟩
abbrev FLT_MAP_EVQ (i : Nat) : Fld := ⟨FLT_MAP i, 25, 25⟩
abbrev FLT_MAP_EVT (i : Nat) : Fld := ⟨FLT_MAP i, 24, 24⟩
abbrev FLT_MAP_TMR_US (i : Nat) : Fld := ⟨FLT_MAP i, 23, 0⟩
/-- R581: address of `FLT_STATUS`. -/
abbrev FLT_STATUS (i : Nat) : Nat := 0x100100 + 4 * i
abbrev FLT_STATUS_RAISED (i : Nat) : Fld := ⟨FLT_STATUS i, 31, 0⟩
/-- R581: address of `FLT_CAUSE`. -/
abbrev FLT_CAUSE (i : Nat) : Nat := 0x100108 + 4 * i
abbrev FLT_CAUSE_LIVE (i : Nat) : Fld := ⟨FLT_CAUSE i, 31, 0⟩
/-- R582: address of `FLT_PIN`. -/
abbrev FLT_PIN : Nat := 0x100110
abbrev FLT_PIN_LOW : Fld := ⟨FLT_PIN, 31, 31⟩
abbrev FLT_PIN_MINW_US : Fld := ⟨FLT_PIN, 9, 0⟩
/-- R582: address of `FLT_SAFE`. -/
abbrev FLT_SAFE : Nat := 0x100114
abbrev FLT_SAFE_ENTER : Fld := ⟨FLT_SAFE, 31, 31⟩
abbrev FLT_SAFE_RESUME : Fld := ⟨FLT_SAFE, 30, 30⟩
abbrev FLT_SAFE_SOURCE : Fld := ⟨FLT_SAFE, 23, 16⟩
abbrev FLT_SAFE_REFUSED : Fld := ⟨FLT_SAFE, 1, 1⟩
abbrev FLT_SAFE_ACTIVE : Fld := ⟨FLT_SAFE, 0, 0⟩
/-- R582: address of `FLT_CTL`. -/
abbrev FLT_CTL : Nat := 0x100118
abbrev FLT_CTL_TEMP_WARN : Fld := ⟨FLT_CTL, 7, 0⟩
/-- R463: address of `FLT_EVT_QUEUE`. -/
abbrev FLT_EVT_QUEUE : Nat := 0x100200
abbrev FLT_EVT_QUEUE_V : Fld := ⟨FLT_EVT_QUEUE, 31, 31⟩
abbrev FLT_EVT_QUEUE_CLASS : Fld := ⟨FLT_EVT_QUEUE, 30, 29⟩
abbrev FLT_EVT_QUEUE_SOURCE : Fld := ⟨FLT_EVT_QUEUE, 27, 22⟩
abbrev FLT_EVT_QUEUE_INFO : Fld := ⟨FLT_EVT_QUEUE, 21, 0⟩
/-- R464: address of `FLT_EVQ_STAT`. -/
abbrev FLT_EVQ_STAT : Nat := 0x100204
abbrev FLT_EVQ_STAT_OVERRUN : Fld := ⟨FLT_EVQ_STAT, 31, 31⟩
abbrev FLT_EVQ_STAT_COUNT : Fld := ⟨FLT_EVQ_STAT, 8, 0⟩
/-- R583: address of `FLT_INFO`. -/
abbrev FLT_INFO (i : Nat) : Nat := 0x100400 + 4 * i
abbrev FLT_INFO_RAISES (i : Nat) : Fld := ⟨FLT_INFO i, 31, 24⟩
abbrev FLT_INFO_INFO (i : Nat) : Fld := ⟨FLT_INFO i, 21, 0⟩
/-- R584: address of `FLT_OPEN_IDX_LO`. -/
abbrev FLT_OPEN_IDX_LO (i : Nat) : Nat := 0x102000 + 32 * i
abbrev FLT_OPEN_IDX_LO_IDX_LO (i : Nat) : Fld := ⟨FLT_OPEN_IDX_LO i, 31, 0⟩
/-- R584: address of `FLT_OPEN_IDX_HI`. -/
abbrev FLT_OPEN_IDX_HI (i : Nat) : Nat := 0x102004 + 32 * i
abbrev FLT_OPEN_IDX_HI_IDX_HI (i : Nat) : Fld := ⟨FLT_OPEN_IDX_HI i, 31, 0⟩
/-- R584: address of `FLT_OPEN_NS`. -/
abbrev FLT_OPEN_NS (i : Nat) : Nat := 0x102008 + 32 * i
abbrev FLT_OPEN_NS_NS (i : Nat) : Fld := ⟨FLT_OPEN_NS i, 29, 0⟩
/-- R584: address of `FLT_OPEN_SLO`. -/
abbrev FLT_OPEN_SLO (i : Nat) : Nat := 0x10200c + 32 * i
abbrev FLT_OPEN_SLO_S_LO (i : Nat) : Fld := ⟨FLT_OPEN_SLO i, 31, 0⟩
/-- R584: address of `FLT_OPEN_INFO`. -/
abbrev FLT_OPEN_INFO (i : Nat) : Nat := 0x102010 + 32 * i
abbrev FLT_OPEN_INFO_VALID (i : Nat) : Fld := ⟨FLT_OPEN_INFO i, 31, 31⟩
abbrev FLT_OPEN_INFO_NOPROBE (i : Nat) : Fld := ⟨FLT_OPEN_INFO i, 30, 30⟩
abbrev FLT_OPEN_INFO_STREAM (i : Nat) : Fld := ⟨FLT_OPEN_INFO i, 24, 16⟩
abbrev FLT_OPEN_INFO_S_HI (i : Nat) : Fld := ⟨FLT_OPEN_INFO i, 15, 0⟩
/-- R585: address of `REC_CTL`. -/
abbrev REC_CTL : Nat := 0x110000
abbrev REC_CTL_TRIGGER : Fld := ⟨REC_CTL, 31, 31⟩
abbrev REC_CTL_NREG : Fld := ⟨REC_CTL, 13, 8⟩
abbrev REC_CTL_AUTH_REC : Fld := ⟨REC_CTL, 3, 3⟩
abbrev REC_CTL_COMMIT_REC : Fld := ⟨REC_CTL, 2, 2⟩
abbrev REC_CTL_SEND : Fld := ⟨REC_CTL, 1, 1⟩
abbrev REC_CTL_EN : Fld := ⟨REC_CTL, 0, 0⟩
/-- R585: address of `REC_REGION`. -/
abbrev REC_REGION : Nat := 0x110004
abbrev REC_REGION_SIZE_MIB : Fld := ⟨REC_REGION, 22, 16⟩
abbrev REC_REGION_BASE_4K : Fld := ⟨REC_REGION, 15, 0⟩
/-- R586: address of `REC_STATUS`. -/
abbrev REC_STATUS : Nat := 0x110008
abbrev REC_STATUS_DROPPED : Fld := ⟨REC_STATUS, 31, 24⟩
abbrev REC_STATUS_SCAN_DONE : Fld := ⟨REC_STATUS, 23, 23⟩
abbrev REC_STATUS_NVM_STOP : Fld := ⟨REC_STATUS, 22, 22⟩
abbrev REC_STATUS_BAD_SECT : Fld := ⟨REC_STATUS, 14, 9⟩
abbrev REC_STATUS_HELD : Fld := ⟨REC_STATUS, 8, 0⟩
/-- R586: address of `REC_SEQ`. -/
abbrev REC_SEQ : Nat := 0x11000c
abbrev REC_SEQ_NEXT : Fld := ⟨REC_SEQ, 31, 0⟩
/-- R586: address of `REC_OPSEC_LO`. -/
abbrev REC_OPSEC_LO : Nat := 0x110010
abbrev REC_OPSEC_LO_S_LO : Fld := ⟨REC_OPSEC_LO, 31, 0⟩
/-- R586: address of `REC_OPSEC_HI`. -/
abbrev REC_OPSEC_HI : Nat := 0x110014
abbrev REC_OPSEC_HI_S_HI : Fld := ⟨REC_OPSEC_HI, 7, 0⟩
/-- R586: address of `REC_PWRCYC`. -/
abbrev REC_PWRCYC : Nat := 0x110018
abbrev REC_PWRCYC_COUNT : Fld := ⟨REC_PWRCYC, 31, 0⟩
/-- R587: address of `REC_BUNT_CLR`. -/
abbrev REC_BUNT_CLR : Nat := 0x110020
abbrev REC_BUNT_CLR_CLR : Fld := ⟨REC_BUNT_CLR, 7, 0⟩
/-- R587: address of `REC_BUNT_STAT`. -/
abbrev REC_BUNT_STAT : Nat := 0x110024
abbrev REC_BUNT_STAT_LOST : Fld := ⟨REC_BUNT_STAT, 15, 8⟩
abbrev REC_BUNT_STAT_VALID : Fld := ⟨REC_BUNT_STAT, 7, 0⟩
/-- R587: address of `REC_FETCH_FIRST`. -/
abbrev REC_FETCH_FIRST : Nat := 0x110030
abbrev REC_FETCH_FIRST_FIRST : Fld := ⟨REC_FETCH_FIRST, 31, 0⟩
/-- R587: address of `REC_FETCH_CTL`. -/
abbrev REC_FETCH_CTL : Nat := 0x110034
abbrev REC_FETCH_CTL_GO : Fld := ⟨REC_FETCH_CTL, 31, 31⟩
abbrev REC_FETCH_CTL_BUSY : Fld := ⟨REC_FETCH_CTL, 30, 30⟩
abbrev REC_FETCH_CTL_COUNT : Fld := ⟨REC_FETCH_CTL, 15, 0⟩
/-- R587: address of `REC_WIN_SLOT`. -/
abbrev REC_WIN_SLOT : Nat := 0x110038
abbrev REC_WIN_SLOT_SLOT : Fld := ⟨REC_WIN_SLOT, 7, 0⟩
/-- R588: address of `REC_SLOT_BAD`. -/
abbrev REC_SLOT_BAD (i : Nat) : Nat := 0x110040 + 4 * i
abbrev REC_SLOT_BAD_BAD (i : Nat) : Fld := ⟨REC_SLOT_BAD i, 31, 0⟩
/-- R588: address of `REC_BUNT_LO`. -/
abbrev REC_BUNT_LO (i : Nat) : Nat := 0x110080 + 8 * i
abbrev REC_BUNT_LO_LO (i : Nat) : Fld := ⟨REC_BUNT_LO i, 31, 0⟩
/-- R588: address of `REC_BUNT_HI`. -/
abbrev REC_BUNT_HI (i : Nat) : Nat := 0x110084 + 8 * i
abbrev REC_BUNT_HI_HI (i : Nat) : Fld := ⟨REC_BUNT_HI i, 31, 0⟩
/-- R590: address of `REC_LIST`. -/
abbrev REC_LIST (i : Nat) : Nat := 0x110200 + 4 * i
abbrev REC_LIST_ADDR (i : Nat) : Fld := ⟨REC_LIST i, 31, 0⟩
/-- R614: address of `CFG_QSPI`. -/
abbrev CFG_QSPI : Nat := 0x120000
abbrev CFG_QSPI_DIV2 : Fld := ⟨CFG_QSPI, 15, 8⟩
abbrev CFG_QSPI_WIDTH : Fld := ⟨CFG_QSPI, 1, 0⟩
/-- R615: address of `CFG_NVM`. -/
abbrev CFG_NVM : Nat := 0x120004
abbrev CFG_NVM_SFDP_OK : Fld := ⟨CFG_NVM, 31, 31⟩
abbrev CFG_NVM_ADDR4 : Fld := ⟨CFG_NVM, 30, 30⟩
abbrev CFG_NVM_MAX_WIDTH : Fld := ⟨CFG_NVM, 29, 28⟩
abbrev CFG_NVM_DENSITY_LOG2 : Fld := ⟨CFG_NVM, 23, 16⟩
abbrev CFG_NVM_PAGE_LOG2 : Fld := ⟨CFG_NVM, 15, 8⟩
abbrev CFG_NVM_ERASE4K : Fld := ⟨CFG_NVM, 7, 0⟩
/-- R616: address of `CFG_IMG`. -/
abbrev CFG_IMG (i : Nat) : Nat := 0x120008 + 4 * i
abbrev CFG_IMG_TRIED (i : Nat) : Fld := ⟨CFG_IMG i, 31, 31⟩
abbrev CFG_IMG_LOADED (i : Nat) : Fld := ⟨CFG_IMG i, 30, 30⟩
abbrev CFG_IMG_TAGGED (i : Nat) : Fld := ⟨CFG_IMG i, 29, 29⟩
abbrev CFG_IMG_TAG_OK (i : Nat) : Fld := ⟨CFG_IMG i, 28, 28⟩
abbrev CFG_IMG_FAIL (i : Nat) : Fld := ⟨CFG_IMG i, 27, 24⟩
abbrev CFG_IMG_SECT (i : Nat) : Fld := ⟨CFG_IMG i, 23, 16⟩
abbrev CFG_IMG_VER_LO (i : Nat) : Fld := ⟨CFG_IMG i, 15, 0⟩
/-- R634: address of `LCS_STATE`. -/
abbrev LCS_STATE : Nat := 0x130000
abbrev LCS_STATE_DBG_REG : Fld := ⟨LCS_STATE, 9, 9⟩
abbrev LCS_STATE_DBG_BSCAN : Fld := ⟨LCS_STATE, 8, 8⟩
abbrev LCS_STATE_STATE : Fld := ⟨LCS_STATE, 2, 0⟩
/-- R635: address of `LCS_KEYS`. -/
abbrev LCS_KEYS : Nat := 0x130004
abbrev LCS_KEYS_IMG_NONE : Fld := ⟨LCS_KEYS, 21, 21⟩
abbrev LCS_KEYS_CMD_NONE : Fld := ⟨LCS_KEYS, 20, 20⟩
abbrev LCS_KEYS_IMG_SLOT : Fld := ⟨LCS_KEYS, 19, 18⟩
abbrev LCS_KEYS_CMD_SLOT : Fld := ⟨LCS_KEYS, 17, 16⟩
abbrev LCS_KEYS_IMG_REVOKED : Fld := ⟨LCS_KEYS, 15, 12⟩
abbrev LCS_KEYS_IMG_WRITTEN : Fld := ⟨LCS_KEYS, 11, 8⟩
abbrev LCS_KEYS_CMD_REVOKED : Fld := ⟨LCS_KEYS, 7, 4⟩
abbrev LCS_KEYS_CMD_WRITTEN : Fld := ⟨LCS_KEYS, 3, 0⟩
/-- R636: address of `LCS_CTR_LO`. -/
abbrev LCS_CTR_LO : Nat := 0x130008
abbrev LCS_CTR_LO_CTR_LO : Fld := ⟨LCS_CTR_LO, 31, 0⟩
/-- R636: address of `LCS_CTR_HI`. -/
abbrev LCS_CTR_HI : Nat := 0x13000c
abbrev LCS_CTR_HI_CTR_HI : Fld := ⟨LCS_CTR_HI, 31, 0⟩
/-- R637: address of `LCS_STATUS`. -/
abbrev LCS_STATUS : Nat := 0x130010
abbrev LCS_STATUS_CTR_VALID : Fld := ⟨LCS_STATUS, 31, 31⟩
abbrev LCS_STATUS_FLOOR : Fld := ⟨LCS_STATUS, 30, 30⟩
abbrev LCS_STATUS_REPLAYS : Fld := ⟨LCS_STATUS, 15, 8⟩
abbrev LCS_STATUS_AUTH_FAILS : Fld := ⟨LCS_STATUS, 7, 0⟩
/-- R638: address of `LCS_LAST_CMD`. -/
abbrev LCS_LAST_CMD : Nat := 0x130014
abbrev LCS_LAST_CMD_PATH : Fld := ⟨LCS_LAST_CMD, 31, 30⟩
abbrev LCS_LAST_CMD_CMD : Fld := ⟨LCS_LAST_CMD, 27, 24⟩
abbrev LCS_LAST_CMD_STATUS : Fld := ⟨LCS_LAST_CMD, 23, 16⟩
abbrev LCS_LAST_CMD_SRC_ID : Fld := ⟨LCS_LAST_CMD, 15, 0⟩
/-- R31: address of `CLK_SLEEP_CTL`. -/
abbrev CLK_SLEEP_CTL : Nat := 0x140000
abbrev CLK_SLEEP_CTL_LANE_B_EN : Fld := ⟨CLK_SLEEP_CTL, 5, 5⟩
abbrev CLK_SLEEP_CTL_LANE_A_EN : Fld := ⟨CLK_SLEEP_CTL, 4, 4⟩
abbrev CLK_SLEEP_CTL_STITCH_EN : Fld := ⟨CLK_SLEEP_CTL, 3, 3⟩
abbrev CLK_SLEEP_CTL_CONV_EN : Fld := ⟨CLK_SLEEP_CTL, 2, 2⟩
abbrev CLK_SLEEP_CTL_CORE_EN : Fld := ⟨CLK_SLEEP_CTL, 1, 1⟩
abbrev CLK_SLEEP_CTL_TIMING_EN : Fld := ⟨CLK_SLEEP_CTL, 0, 0⟩
/-- R32: address of `CLK_SLEEP_MIN`. -/
abbrev CLK_SLEEP_MIN : Nat := 0x140004
abbrev CLK_SLEEP_MIN_MIN_US : Fld := ⟨CLK_SLEEP_MIN, 15, 0⟩
/-- R33: address of `CLK_DOMAIN_STATUS`. -/
abbrev CLK_DOMAIN_STATUS : Nat := 0x140008
abbrev CLK_DOMAIN_STATUS_B_AWAKE : Fld := ⟨CLK_DOMAIN_STATUS, 5, 5⟩
abbrev CLK_DOMAIN_STATUS_A_AWAKE : Fld := ⟨CLK_DOMAIN_STATUS, 4, 4⟩
abbrev CLK_DOMAIN_STATUS_STITCH_ON : Fld := ⟨CLK_DOMAIN_STATUS, 3, 3⟩
abbrev CLK_DOMAIN_STATUS_CONV_ON : Fld := ⟨CLK_DOMAIN_STATUS, 2, 2⟩
abbrev CLK_DOMAIN_STATUS_CORE_ON : Fld := ⟨CLK_DOMAIN_STATUS, 1, 1⟩
abbrev CLK_DOMAIN_STATUS_TIMING_ON : Fld := ⟨CLK_DOMAIN_STATUS, 0, 0⟩
/-- R34: address of `CLK_WAKE_COUNT`. -/
abbrev CLK_WAKE_COUNT : Nat := 0x14000c
abbrev CLK_WAKE_COUNT_CORE_WAKES : Fld := ⟨CLK_WAKE_COUNT, 31, 0⟩
/-- R550: address of `CLK_XING_OVR`. -/
abbrev CLK_XING_OVR : Nat := 0x140010
abbrev CLK_XING_OVR_WAKE_MSPI : Fld := ⟨CLK_XING_OVR, 7, 7⟩
abbrev CLK_XING_OVR_WAKE_B : Fld := ⟨CLK_XING_OVR, 6, 6⟩
abbrev CLK_XING_OVR_WAKE_A : Fld := ⟨CLK_XING_OVR, 5, 5⟩
abbrev CLK_XING_OVR_SYNC_RST : Fld := ⟨CLK_XING_OVR, 4, 4⟩
abbrev CLK_XING_OVR_HK_START : Fld := ⟨CLK_XING_OVR, 3, 3⟩
abbrev CLK_XING_OVR_OPSEC_SAVE : Fld := ⟨CLK_XING_OVR, 2, 2⟩
abbrev CLK_XING_OVR_REC_FLUSH : Fld := ⟨CLK_XING_OVR, 1, 1⟩
abbrev CLK_XING_OVR_REC_TRIG : Fld := ⟨CLK_XING_OVR, 0, 0⟩
/-- R551: address of `CLK_RESYNC`. -/
abbrev CLK_RESYNC : Nat := 0x140014
abbrev CLK_RESYNC_RESYNCS : Fld := ⟨CLK_RESYNC, 31, 0⟩

end Sys2Proof.Machine
end

