-- ==== Sys2Proof/Machine/Resets.lean ====
section
/-!
DEFINITION. The reset value of every register (R640, R642 and the field tables), and the numbers of the 64 event
sources with their kind and default map (R553).
-/
namespace Sys2Proof.Machine

/-- Default fault map, R553: CLASS, REACT, REC, EVQ, EVT and TMR_US of sources 0-31. -/
def defaultMapLo : List Nat := [
  0xE70F4240, 0xE70F4240, 0xA7002710, 0xE70F4240, 0xE70F4240, 0x870F4240, 0x870F4240, 0xE70F4240,
  0x430F4240, 0x430F4240, 0x97000064, 0x470F4240, 0x020F4240, 0x020F4240, 0x430F4240, 0x430F4240,
  0x870F4240, 0x020F4240, 0x430F4240, 0x020F4240, 0x870F4240, 0x020F4240, 0x430F4240, 0x020F4240,
  0x020F4240, 0x470F4240, 0x470F4240, 0x870F4240, 0x020F4240, 0x430F4240, 0x430F4240, 0x020F4240]

/-- Default fault map of sources 32-63. -/
def defaultMapHi : List Nat := [
  0x430F4240, 0x430F4240, 0x430F4240, 0x020F4240, 0x870F4240, 0x020F4240, 0x470F4240, 0x430F4240,
  0x430F4240, 0x430F4240, 0x430F4240, 0x020F4240, 0x870F4240, 0x020F4240, 0x470F4240, 0x430F4240,
  0x470F4240, 0x020F4240, 0x430F4240, 0x870F4240, 0x020F4240, 0x020F4240, 0x020F4240, 0x060F4240,
  0x470F4240, 0x470F4240, 0x870F4240, 0x470F4240, 0x430F4240, 0x470F4240, 0x020F4240, 0x470F4240]

/-- The level sources (kind L) of R553; every other source is an event source. -/
def levelSources : List Nat := [0, 1, 2, 3, 4, 5, 6, 7, 8, 9, 10, 15, 33, 34, 36, 41, 42, 44, 48]

/-! Source numbers, R553. A port's sources stand at 32 + 8p. -/
abbrev srcPwrCoreUv : Nat := 0
abbrev srcPwrAonUv : Nat := 1
abbrev srcPwrAnaUv : Nat := 2
abbrev srcPwrHvFault : Nat := 3
abbrev srcRefclkLoss : Nat := 4
abbrev srcPllTimingUnlock : Nat := 5
abbrev srcPllCoreUnlock : Nat := 6
abbrev srcThermLimit : Nat := 7
abbrev srcTermOvervolt : Nat := 8
abbrev srcTermOpen : Nat := 9
abbrev srcExcOvercurrent : Nat := 10
abbrev srcExcReversed : Nat := 11
abbrev srcFeSaturation : Nat := 12
abbrev srcHarnessConflict : Nat := 13
abbrev srcStitchCrc : Nat := 14
abbrev srcFieldDieTemp : Nat := 15
abbrev srcAdcCoreFail : Nat := 16
abbrev srcInjDeferred : Nat := 17
abbrev srcSlackOverrun : Nat := 18
abbrev srcFilterOverflow : Nat := 19
abbrev srcFilterRomCheck : Nat := 20
abbrev srcStreamGap : Nat := 21
abbrev srcDmaWrapOverrun : Nat := 22
abbrev srcCalDisagree : Nat := 23
abbrev srcMemCe : Nat := 24
abbrev srcMemUe : Nat := 25
abbrev srcTileChecksum : Nat := 26
abbrev srcSeqTableChecksum : Nat := 27
abbrev srcEgressQueueOverrun : Nat := 28
abbrev srcEvqOverrun : Nat := 29
abbrev srcCinchError : Nat := 30
abbrev srcCaptureFull : Nat := 31
abbrev srcTimeHoldover : Nat := 48
abbrev srcTimeStepReject : Nat := 49
abbrev srcSyncLate : Nat := 50
abbrev srcSeqIllegalStep : Nat := 51
abbrev srcTriggerMaskViolation : Nat := 52
abbrev srcSegmentTableFull : Nat := 53
abbrev srcCalStarved : Nat := 54
abbrev srcEpochCommitFail : Nat := 55
abbrev srcAuthFail : Nat := 56
abbrev srcCounterReplay : Nat := 57
abbrev srcLcsViolation : Nat := 58
abbrev srcImageFallback : Nat := 59
abbrev srcRecStoreFail : Nat := 60
abbrev srcNvmWriteFail : Nat := 61
abbrev srcEscalationTimer : Nat := 62
abbrev srcEscalated : Nat := 63
abbrev srcPortLaneDown (p : Nat) : Nat := 32 + 8 * p
abbrev srcPortWidthDegraded (p : Nat) : Nat := 33 + 8 * p
abbrev srcPortCrcRate (p : Nat) : Nat := 34 + 8 * p
abbrev srcPortTrackBound (p : Nat) : Nat := 35 + 8 * p
abbrev srcPortClockLaneLoss (p : Nat) : Nat := 36 + 8 * p
abbrev srcPortDupWindow (p : Nat) : Nat := 37 + 8 * p
abbrev srcPortGiveUp (p : Nat) : Nat := 38 + 8 * p
abbrev srcPortTrainingFail (p : Nat) : Nat := 39 + 8 * p

/-- CRC-32C of 4,096 zero bytes, the reset value of a tile checksum (R333, R356). -/
def crcZeroTile : Nat := 0x98F94189

/-- CRC-32C of 65,536 zero bytes, the reset value of SEQ_TABLE_CRC (R248). -/
def crcZeroTable : Nat := 0x72C0C4A4

/-- The capability list, R609. -/
def capList : List Nat := [
  0x00103101, 0x01400280, 0x00500168, 0x00000809, 0x00203102, 0x40102000, 0x00100200, 0x18001000, 0x00281103,
  0x00100901, 0x00301104, 0x00FA1402, 0x00381105, 0x0000190A, 0x00401106, 0x08340100, 0x00001107, 0x000011FF]

/-- CAP of the eight egress classes after reset, R457. -/
def capDefault : List Nat := [16, 64, 192, 64, 32, 48, 32, 64]

/-- The reset value of a register as a number; a register whose value comes from OTP or NVM holds 0 until the start has
read it (R642), and an address that holds no register reads 0 (R12). -/
def regResetNat (a : Nat) : Nat :=
  let blk := a / 0x10000
  if blk = 0 ∧ 0x100 ≤ a ∧ a < 0x148 then capList.getD ((a - 0x100) / 4) 0
  else if blk = 2 ∧ 0x20800 ≤ a ∧ a < 0x20D00 then
    let m := (a - 0x20800) / 4
    9 * (m / 8) + m % 8
  else if blk = 2 ∧ 0x21000 ≤ a ∧ a < 0x215A0 then
    let n := (a - 0x21000) / 4
    if n % 9 = 8 then 1 else (n % 9) * 4
  else if blk = 5 ∧ 0x50010 ≤ a ∧ a < 0x50034 then
    let c := (a - 0x50010) / 4
    if c = 8 then 1 else c * 16
  else if blk = 7 ∧ a = 0x70014 then crcZeroTable
  else if blk = 8 ∧ 0x83010 ≤ a ∧ a < 0x83030 then capDefault.getD ((a - 0x83010) / 4) 0 * 0x10000
  else if blk = 10 ∧ 0xA8000 ≤ a ∧ a < 0xAE000 then crcZeroTile
  else if blk = 16 ∧ a < 0x100080 then defaultMapLo.getD ((a - 0x100000) / 4) 0
  else if blk = 16 ∧ a < 0x100100 then defaultMapHi.getD ((a - 0x100080) / 4) 0
  else match regRowAt a with
    | some r => r.reset
    | none => 0

/-- The reset value of the register at an address. -/
def regReset (a : Nat) : Word := BitVec.ofNat 32 (regResetNat a)

end Sys2Proof.Machine
end

