-- ==== Sys2Proof/Machine/Store.lean ====
section
/-!
DEFINITION. Sparse maps held as plain data: a list of (key, value) pairs in one canonical form, keys strictly rising
and no entry equal to what an unlisted key reads as. Every memory, register file and per-index table of the hub that
is large is held so.
-/
namespace Sys2Proof.Machine

/-- A sparse map from Nat keys. -/
abbrev Store (α : Type) := List (Nat × α)

/-- What key `k` holds; a key not listed holds `d k`. -/
def storeGet {α : Type} (d : Nat → α) : Store α → Nat → α
  | [], k => d k
  | (j, v) :: t, k => if j = k then v else storeGet d t k

/-- The map without any entry of `k`. -/
def storeErase {α : Type} : Store α → Nat → Store α
  | [], _ => []
  | (j, v) :: t, k => if j = k then storeErase t k else (j, v) :: storeErase t k

/-- Insert an entry before the first larger key. -/
def storeIns {α : Type} : Store α → Nat → α → Store α
  | [], k, v => [(k, v)]
  | (j, w) :: t, k, v => if k < j then (k, v) :: (j, w) :: t else (j, w) :: storeIns t k v

/-- Write `v` at `k`. Writing what an unlisted key reads as removes the entry. -/
def storeSet {α : Type} [DecidableEq α] (d : Nat → α) (m : Store α) (k : Nat) (v : α) : Store α :=
  if v = d k then storeErase m k else storeIns (storeErase m k) k v

/-- Keys strictly rise, from a first key above `lo`. -/
def storeSorted {α : Type} : Option Nat → Store α → Bool
  | _, [] => true
  | none, (j, _) :: t => storeSorted (some j) t
  | some l, (j, _) :: t => decide (l < j) && storeSorted (some j) t

/-- The canonical form: keys strictly rising, and no entry equal to what its key reads as unlisted. -/
def storeWf {α : Type} [DecidableEq α] (d : Nat → α) (m : Store α) : Bool :=
  storeSorted none m && m.all (fun p => decide (p.2 ≠ d p.1))

/-- Write a run of values at rising keys. -/
def storeSetMany {α : Type} [DecidableEq α] (d : Nat → α) (m : Store α) (k : Nat) : List α → Store α
  | [] => m
  | v :: vs => storeSetMany d (storeSet d m k v) (k + 1) vs

end Sys2Proof.Machine
end

