-- ==== Sys2Proof/Machine/State.lean ====
section
/-!
DEFINITION. The state of the hub as plain data, the reasons a step stops, and the state after reset.

Every register of the map has ONE home: `Hw.regs`, keyed by address, where an address not listed holds its register's
reset value. What the spec gives the block beside its registers stands in the groups below, one per chapter.
-/
namespace Sys2Proof.Machine

/-! ### Stops -/

/-- Why a step stops. SAFE: the machine stops where the spec gives no such object. -/
inductive Fault where
  /-- A command names an object that the hub does not have (terminal 640, channel 320, stream 512 ...): raised by the
  meaning of every command with such an operand. Safe: R5 fixes the numbers. -/
  | noSuchObject
  deriving DecidableEq, Repr

/-- Why a command has no meaning. -/
inductive Refusal where
  /-- The command has no meaning in the model: raised by the arms of `exec` only. Safe. -/
  | notModelled (mnemonic : String)
  deriving DecidableEq, Repr

/-! ### Frames (chapter 13) -/

/-- A Halyard frame, R421. -/
structure Frame where
  ty : Nat
  cls : Nat
  rsp : Bool
  sr : Bool
  flg : Bool
  src : Nat
  dst : Nat
  seq : Nat
  epoch : Nat
  hops : Nat
  payload : List Byte
  deriving DecidableEq, Repr

/-- One descriptor of the egress queue, R449, R450. -/
structure EgDesc where
  frame : Frame
  /-- the port has sent it, or does not carry it -/
  sentA : Bool
  sentB : Bool
  /-- local ns at which one port sent it first (R450) -/
  firstSent : Option Nat
  /-- the frame is a PONG, whose ORIG is put in when it is sent (R495) -/
  pong : Bool
  deriving DecidableEq, Repr

/-- One item of the firmware event queue, R452, R463. -/
structure EvqItem where
  cls : Nat
  src : Nat
  info : Nat
  deriving DecidableEq, Repr

/-- One waiting item of an EVENT frame, R445. -/
inductive EventItem where
  /-- a fault item: source, class and INFO of the raise, RAISES and the network time of the raise (R563) -/
  | fault (src cls raises info time : Nat)
  /-- a trigger item, complete when queued -/
  | trigger (bytes : List Byte)
  deriving DecidableEq, Repr

/-- One source of the duplicate table, R429: bit i of `map` stands for sequence number head − i. -/
structure DupEntry where
  src : Nat
  head : Nat
  map : Nat
  /-- x_DUP_WINDOW was raised for the source since it was last accepted -/
  warned : Bool
  deriving DecidableEq, Repr

/-- One command frame in an ingress FIFO, R434, R468-R470. -/
structure CmdEntry where
  frame : Frame
  /-- HOPS on arrival (R440) -/
  hopsArr : Nat
  /-- place in the arrival order of the port that will perform it -/
  order : Nat
  /-- place in the order in which trailers completed; none: not complete -/
  trailer : Option Nat
  /-- local ns at which the trailer completed -/
  trailerNs : Nat
  /-- the entry stands for a frame discarded on the active port (R469) -/
  promoted : Bool
  /-- the entry was held when ACTIVE changed, and is taken whatever port is active (R470) -/
  held : Bool
  deriving DecidableEq, Repr

/-- A frame being received, R426, R427. -/
structure RxFrame where
  /-- the frame bytes of its SOF block -/
  sof : List Byte
  consumed : Bool
  /-- it stands in the other port's forwarding buffer -/
  forwarded : Bool
  /-- it stands in the FIFO, incomplete -/
  queued : Bool
  /-- it was refused by a full FIFO, and is answered BUSY (R434) -/
  refused : Bool
  /-- stamp of its SOF: network time in 2^-32 ns, corrected under R492 -/
  stamp : Nat
  deriving DecidableEq, Repr

/-- A frame in a forwarding buffer, R430-R433. -/
structure FwdEntry where
  /-- header bytes 0 to 13 as received, and the frame with HOPS as it leaves -/
  head : List Byte
  frame : Frame
  /-- bytes of the whole frame -/
  size : Nat
  /-- the trailer bytes as received -/
  trailer : List Byte
  complete : Bool
  /-- its outbound SOF has been sent -/
  started : Bool
  stamp : Nat
  /-- stamp of its outbound SOF, once that has been sent -/
  sentStamp : Nat
  deriving DecidableEq, Repr

/-- A time or link message that a port serves itself, R441, R491. -/
structure PortMsg where
  frame : Frame
  stamp : Nat
  deriving DecidableEq, Repr

/-- One lane of a port beside its registers, R390, R394, R401. -/
structure Lane where
  /-- the transmitter's last 58 scrambled bits, the newest in bit 0 -/
  scr : Nat
  /-- the transmitter's precoder value p(n-1) -/
  prec : Nat
  /-- the first bit of a symbol whose second bit is not sent yet -/
  half : Option Bool
  /-- idle blocks sent on the lane, of which RICH_EVERY makes some RICH_IDLE (R412) -/
  idles : Nat
  /-- the receiver's precoder value p(n-1), its last 58 scrambled bits, and the bits of the block it is in (R387, R390) -/
  rprec : Nat
  rscr : Nat
  rbits : List Bool
  /-- number of the next striped block that the lane receives (R395) -/
  rstripe : Nat
  /-- blocks received since the AM that fixed the slots of AMs, and whether that was a regular one (R394) -/
  rslot : Option (Nat × Bool)
  /-- AMs received in a row that were missing or not good (R404) -/
  badAms : Nat
  /-- symbols still to come that are not qualified, and blocks received since the last qualified one (R401, R418) -/
  quiet : Nat
  blank : Nat
  /-- steps of R397 that the lane's receiver has achieved in LOCK -/
  lockStep : Nat
  /-- per-lane blocks sent since the port left DOWN (MCOUNT) -/
  mcount : Nat
  /-- threshold accumulators, lower, middle, upper -/
  accL : Int
  accM : Int
  accU : Int
  /-- phase accumulator -/
  pacc : Int
  /-- the previous reference level was above 0 -/
  prevHigh : Option Bool
  /-- x_TRACK_BOUND was raised since the last successful calibration -/
  boundRaised : Bool
  /-- local ns since which a recalibration is pending -/
  recalSince : Nat
  /-- local ns since which good training AMs have been counted -/
  goodSince : Nat
  /-- out of the active set for re-equalisation (R400) -/
  reEq : Bool
  /-- the equalisation cell applied to the lane -/
  eq : Word
  /-- where calibration last measured the levels -3, -1, +1 and +3 (R401, R523) -/
  expected : List Int
  /-- levels last sent, of the last block on the lane -/
  sent : List Int
  deriving DecidableEq, Repr

/-- A Halyard port beside its registers. -/
structure PortSt where
  lanes : Store Lane
  /-- local ns of the last change of the training state -/
  stateSince : Nat
  /-- local ns at which the port left DOWN -/
  leftDown : Nat
  /-- HEALTHY as the port's last WIDTH block or immediate AM announced it -/
  told : Nat
  /-- number of the next striped block, and the stripe number b0 of the last width change -/
  block : Nat
  b0 : Nat
  /-- number of the next lane slot since the port left DOWN, and its start in 10 ps of local time (R389, R394) -/
  slot : Nat
  slotAt : Nat
  /-- lanes on which the partner stripes (R394) -/
  rxSet : Nat
  /-- lanes that sleep only after the partner's recalibration, and since when the others sleep (R403) -/
  nap : Nat
  napSince : Nat
  /-- local ns since which the clock lane receiver holds lock (R397) -/
  clkSince : Nat
  /-- local ns of the last send, and until when LINK_CTL WAKE holds the lanes awake -/
  idleSince : Nat
  holdAwake : Nat
  fifo : List CmdEntry
  rx : Option RxFrame
  fwd : List FwdEntry
  linkMsgs : List PortMsg
  timeMsgs : List PortMsg
  /-- answers that the port itself makes (R434, R441) -/
  answers : List Frame
  /-- header and trailer failures of the running CRC window, its start, and the CRC-rate condition (R467) -/
  crcCount : Nat
  crcStart : Option Nat
  crcRate : Bool
  /-- the last frame sent, as its bytes on the wire -/
  lastSent : List Byte
  deriving DecidableEq, Repr

/-- Both ports and what they share (chapters 12 to 14). -/
structure NetSt where
  portA : PortSt
  portB : PortSt
  egress : List EgDesc
  evq : List EvqItem
  /-- with the epoch under which each was queued (R39) -/
  events : List (EventItem × Nat)
  dup : List DupEntry
  orderNext : Nat
  trailerNext : Nat
  /-- SR is sent until the counter first reaches 4,096 (R425) -/
  srDone : Bool
  /-- next block number of BULK payloads (R448) -/
  bseq : Nat
  /-- local ns at which the hold timer of R473 started -/
  holdSince : Option Nat
  deriving DecidableEq, Repr

/-! ### Clocks, crossings and requesters (chapters 01 and 17) -/

/-- What a stopping and starting domain is doing, R25-R29. -/
inductive DomMode where
  | off | waking | on | entering
  deriving DecidableEq, Repr

/-- A domain: its mode, and a wake request that came while it was entering sleep (R29). -/
structure DomSt where
  mode : DomMode
  again : Bool
  since : Nat
  deriving DecidableEq, Repr

/-- A request crossing, R541, R542. -/
structure Crossing where
  busy : Bool
  pending : Nat
  /-- the receiver has acted on the request in flight -/
  acted : Bool
  deriving DecidableEq, Repr

/-- What is kept separately for each requester, R17, R641. -/
structure ReqSt where
  /-- latched words of multi-word values, by address -/
  latch : Store (Option Word)
  /-- held words of multi-word values, by address -/
  held : Store (Option Word)
  seqPage : Word
  trgPage : Word
  fePage : Word
  recSlot : Word
  deriving DecidableEq, Repr

/-- An MSPI access: words read from, or written at, rising addresses (R659). -/
inductive MspiAccess where
  | read (a n : Nat)
  | write (a : Nat) (ws : List Word)
  deriving DecidableEq, Repr

/-- The clock domains and the request crossings. -/
structure ClkSt where
  timing : DomSt
  core : DomSt
  /-- the CONV clocks, by core -/
  conv : Store DomSt
  stitch : DomSt
  /-- MSPI accesses that wait for CORE to run, oldest first (R28, R659) -/
  mspi : List MspiAccess
  crossings : Store Crossing
  /-- last counts of the field die's sideband sources (R539, R540) -/
  sideband : Store Nat
  deriving DecidableEq, Repr

/-! ### Network time (chapter 15) -/

/-- The timebase, R484-R490. Times are in units of 2^-32 ns. -/
structure TimeSt where
  /-- network time T_k -/
  now : Nat
  /-- AON ticks since the AON reset ended -/
  tick : Nat
  /-- TIM_INCR in effect -/
  incr : Nat
  incrPend : Option Nat
  incrHold : Option Nat
  adjPend : Option Int
  adjHold : Option Int
  setPend : Option Nat
  setHold : Option Nat
  /-- local ns of the last valid time frame -/
  lastValid : Option Nat
  /-- local ns at which HOLDOVER was entered -/
  holdoverSince : Nat
  deriving DecidableEq, Repr

/-! ### Faults and recorder (chapter 18) -/

/-- The fault collector beside its registers. -/
structure FltSt where
  /-- reaction timers: local ns of their expiry -/
  timers : Store (Option Nat)
  /-- INFO of the raises of a source since its status bit was set -/
  objects : Store (List Nat)
  /-- sources whose reaction is in force, with the reaction that acts -/
  inForce : Store (Option Nat)
  /-- sources whose park or stop ends at the next frame boundary, with the reaction and the objects it acts on -/
  ending : List (Nat × Nat × List Nat)
  /-- SAFE ends at the next frame boundary -/
  safeEnding : Bool
  /-- local ns until which FAULT_N keeps its minimum width -/
  faultNUntil : Option Nat
  /-- power-up until the AON reset ends: FAULT_N is driven low -/
  faultNBoot : Bool
  deriving DecidableEq, Repr

/-- A recorder trigger that has been accepted, R565, R566. -/
structure RecTrig where
  code : Nat
  time : Nat
  tq : Nat
  opsec : Nat
  woke : Bool
  /-- the three words of a TRIG 0x43 record (R567) -/
  words : Option (List Word)
  /-- the epoch under which the record is produced (R39) -/
  epoch : Nat
  deriving DecidableEq, Repr

/-- A slot of the recorder RAM in use. -/
structure RecSlot where
  /-- the record stands whole in the slot -/
  whole : Bool
  seq : Nat
  code : Nat
  flushed : Bool
  sent : Bool
  /-- the epoch under which the record was produced (R39) -/
  epoch : Nat
  deriving DecidableEq, Repr

/-- The event recorder beside its registers. -/
structure RecSt where
  /-- triggers at the REC_TRIG crossing, the oldest first -/
  atCrossing : List RecTrig
  /-- triggers with a staging buffer and a slot -/
  staging : List (RecTrig × Nat)
  /-- recorder RAM: 32 coded words per slot -/
  ram : Store Word72
  slots : Store (Option RecSlot)
  nextSlot : Nat
  /-- next page of the ring, counted from the ring's first page -/
  nextPage : Nat
  badSectors : List Nat
  /-- the epochs of the records that this power cycle has written to the NVM, by address (R39) -/
  pageEpoch : Store (Option Nat)
  /-- operating seconds at local ns `opsecSince` (R575) -/
  opsecBase : Nat
  opsecSince : Nat
  /-- operating second of the last appended entry -/
  opsecSaved : Nat
  /-- the start's entry has been appended (R575) -/
  opsecInit : Bool
  /-- a fetch: next SEQ, records left, destination -/
  fetch : Option (Nat × Nat × Nat)
  deriving DecidableEq, Repr

/-! ### Epochs (chapter 01) -/

/-- Bridle table entries staged, and the set of staged register words. -/
structure StageSet where
  regs : Store (Option Word)
  table : Store (Option Word64)
  deriving DecidableEq, Repr

/-- A sealed set, R35, R36. -/
structure Sealed where
  set : StageSet
  path : Nat
  srcId : Nat
  validated : Bool
  /-- last frame boundary when validation ended: the set applies at a later one -/
  seen : Option Nat
  deriving DecidableEq, Repr

/-- The staging set and the commit under way. -/
structure EpochSt where
  staging : StageSet
  sealedSet : Option Sealed
  /-- the requester that waits for a snapshot at the next boundary -/
  snapReq : Option Requester
  /-- last frame boundary when the request was made -/
  snapSeen : Option Nat
  /-- local ns at which the snapshot held was taken -/
  snapSince : Nat
  /-- taken for a SNAP_READ, released when it has been answered (R438) -/
  snapAuto : Bool
  deriving DecidableEq, Repr

/-! ### Terminals, front ends and excitation (chapters 02 and 03) -/

/-- The open-wire probe under way in a cluster, R75. -/
inductive ProbePhase where
  /-- the visit is due; the pulse waits for its strobe (and chop edge) -/
  | due
  | pulse
  | recover
  deriving DecidableEq, Repr

/-- Switches that move together (R52, R53, R60): a terminal's, or a channel's internal sources with the input switches of
its serving front end. -/
inductive SwitchId where
  | term (t : Nat)
  | chan (ch : Nat)
  deriving DecidableEq, Repr

/-- A probe: its terminal, its phase and when the phase began (local ns). -/
structure ProbeSt where
  term : Nat
  phase : ProbePhase
  since : Nat
  /-- network time at which the pulse began -/
  net : Nat
  /-- a chop edge of the cluster has passed since the visit fell due -/
  edge : Bool
  /-- instant (network time) of the last strobe of the channel's group that the pulse may follow -/
  strobed : Option Nat
  deriving DecidableEq, Repr

/-- The last passed probe of a terminal, R77: its network time, and the stream, index and whether there was one. -/
structure ProbePass where
  time : Nat
  stream : Nat
  index : Nat
  deriving DecidableEq, Repr

/-- Where a relief of a front end stands, R105. -/
inductive ReliefPhase where
  /-- the spare is being prepared (from B0) -/
  | prepared
  /-- the spare's inputs are closed beside the relieved unit's (B1 + 0.1 us) -/
  | overlap
  /-- the relieved unit's inputs are open (B1 + 1.1 us); it is under calibration -/
  | calibrating
  /-- its calibration has ended; it becomes the spare at the next frame boundary -/
  | ended
  deriving DecidableEq, Repr

/-- A relief under way in a cluster. -/
structure Relief where
  ch : Nat
  oldUnit : Nat
  newUnit : Nat
  /-- network time of B0 -/
  b0 : Nat
  /-- network time of B1, once the switch-over has begun -/
  b1 : Nat
  phase : ReliefPhase
  deriving DecidableEq, Repr

/-- What an excitation driver is doing beside its registers. -/
structure DriverSt where
  /-- the configuration words that the output follows (R100): EXC_CFG, EXC_SET, EXC_CHOP -/
  cfg : Word
  set : Word
  chop : Word
  /-- the output is driven (not off, not held at zero) -/
  on : Bool
  /-- a change waits for the next frame boundary, and for 0.3 us after it (R100) -/
  wants : Bool
  change : Bool
  /-- a chopped driver waits for its start frame (R102) -/
  chopWait : Bool
  /-- held at zero after a reversal until the frame boundary after REVERSED is cleared (R100) -/
  revHold : Bool
  /-- local ns at which the current limit was entered -/
  limitSince : Nat
  /-- EXC_OVERCURRENT was raised for the present stay in limit -/
  limitRaised : Bool
  /-- local ns since which COMPLIANCE has been clear -/
  compClear : Nat
  /-- polarity edges since reset (R102, R190) -/
  edges : Nat
  deriving DecidableEq, Repr

/-- The field die beside its registers. -/
structure FieldSt where
  /-- the route whose switches are closed at a terminal; 0: all open (R60, R67) -/
  closed : Store Word
  /-- the internal source whose switches are closed at a channel's inputs (R58) -/
  closedIn : Store Word
  /-- the channel to whose input paths a front-end unit's input switches are closed; none: open (R51, R79, R105) -/
  inputs : Store (Option Nat)
  /-- switches that move at the next frame boundary; those that have been opened there, and the network time at which
  they close (R60) -/
  toMove : List SwitchId
  toClose : List SwitchId
  closeAt : Nat
  /-- voltage at a terminal in mV, as its pin was last told -/
  pinMv : Store Int
  /-- tripped detectors of a terminal: bit 0 OV_POS, bit 1 OV_NEG (R66, R68) -/
  ov : Store Nat
  /-- local ns of a terminal's last trip (R66) -/
  ovAt : Store Nat
  /-- terminals whose routes close again at the next frame boundary (R69) -/
  reclose : List Nat
  /-- open comparator tripped, by channel (R88) -/
  cmp : Store Bool
  /-- local ns since which the comparator has been clear -/
  cmpClear : Store Nat
  /-- 1 + local ns of the last TERM_OPEN raised for a channel (R76) -/
  openRaised : Store Nat
  /-- what holds a channel in the open-wire state: bit 0 comparator or probe, bit 1 compliance (R88, R101) -/
  openBy : Store Nat
  /-- probe under way, by cluster -/
  probe : Store (Option ProbeSt)
  /-- local ns of a terminal's last visit -/
  visited : Store Nat
  /-- last passed probe, by terminal -/
  passed : Store (Option ProbePass)
  /-- a probe has passed since the open-wire state began, by terminal (R76) -/
  passedNow : Store Bool
  /-- end of the front-end settle window in network time, and whether its first strobe is still to come (R92) -/
  feEnd : Store Nat
  feFirst : Store Bool
  /-- the same of the excitation window (R104) -/
  exEnd : Store Nat
  exFirst : Store Bool
  /-- consecutive strobes with the saturation detector tripped, and whether FE_SATURATION was raised (R89) -/
  satRun : Store Nat
  satRaised : Store Bool
  relief : Store (Option Relief)
  drivers : Store DriverSt
  /-- local ns since which total VEXC current is above 2.0 A, when it is (R99) -/
  totalOver : Option Nat
  /-- EXC_OVERCURRENT was raised for the present excess of the total -/
  totalRaised : Bool
  deriving DecidableEq, Repr

/-! ### Sample instants (chapter 04) -/

/-- The grid of a sample group, R119: M, F, D and FRAC in frames of period `per` and phase `ph`. -/
structure Grid where
  m : Nat
  f : Nat
  d : Nat
  frac : Nat
  per : Nat
  ph : Nat
  deriving DecidableEq, Repr

/-- A placed strobe, R123: its instant (network time), the local ns of its reference tick, coarse steps and fine
taps. -/
structure Placed where
  instant : Nat
  tick : Nat
  coarse : Nat
  fine : Nat
  deriving DecidableEq, Repr

/-- A sample group beside its registers. -/
structure GroupSt where
  grid : Grid
  /-- a grid that takes over at a network time (R130, R669) -/
  nextGrid : Option (Nat × Grid)
  armed : Bool
  placed : Option Placed
  /-- the last instant strobed or skipped (R125) -/
  last : Option Nat
  /-- no instant before this one is taken (R122, R669) -/
  notBefore : Nat
  /-- the pending reset instant, and its sources: bit 0 commit or release, bit 1 SYNC_IN, bit 2 scheduled -/
  resetAt : Option Nat
  resetSrc : Nat
  /-- the reset instant lay less than 80 ns ahead when it was set, so that it is strobed without being placed (R669) -/
  soon : Bool
  /-- I_s, the instant of the last synchronising reset -/
  origin : Option Nat
  /-- frames since the boundary that started I_s's frame (R102, R128) -/
  chopN : Nat
  /-- raw indices skipped since the last reset (R125): first and count -/
  skips : List (Nat × Nat)
  deriving DecidableEq, Repr

/-- A sync request, R129: effective time, groups, source bit, and the boundary F it resolved to. -/
structure SyncReq where
  time : Nat
  mask : Nat
  src : Nat
  boundary : Option Nat
  deriving DecidableEq, Repr

/-- What a track-and-hold holds, R121, with everything of its strobe that the sample's tag will need. -/
structure Hold where
  ch : Nat
  group : Nat
  instant : Nat
  /-- raw index: instants of the group since its reset (R185) -/
  raw : Nat
  /-- the era origin the raw index counts from -/
  origin : Nat
  enabled : Bool
  isOpen : Bool
  sat : Bool
  /-- the open comparator or the saturation detector was tripped (R90) -/
  flag : Bool
  isolated : Bool
  settle : Bool
  exc : Bool
  cal : Bool
  parked : Bool
  /-- polarity of the drivers a and b at the strobe: true is negative (R103); and their polarity edges so far (R190) -/
  polA : Bool
  polB : Bool
  edgesA : Nat
  edgesB : Nat
  /-- the frame in which it held, as the raw-sample store counts frames (R228) -/
  frame : Nat
  /-- time quality at the strobe (R267) -/
  tq : Nat
  deriving DecidableEq, Repr

/-- The strobe scheduler beside its registers. -/
structure SmpSt where
  groups : Store GroupSt
  /-- frame period and phase in effect -/
  per : Nat
  ph : Nat
  /-- a schedule that takes over at a network time (R130) -/
  nextSched : Option (Nat × Nat × Nat)
  /-- last frame boundary that has acted -/
  lastBoundary : Option Nat
  reqs : List SyncReq
  /-- scheduled request that has been armed and not evaluated (R132): T, mask and the tick of its arming -/
  armReq : Option (Nat × Nat × Nat)
  /-- AON ticks until a registered SYNC_IN edge takes its effective time (R131) -/
  pinWait : Option Nat
  /-- rise and fall of the SYNC_OUT pulses that have not ended, in order; they do not overlap (R135) -/
  syncOut : List (Nat × Nat)
  /-- the boundary at which the last commit applied, and the channels isolated on the routes before it (R60, R669) -/
  isolatedAt : Option (Nat × List Nat)
  held : Store (Option Hold)
  /-- the last value that a channel held before its group's last synchronising reset (R168) -/
  heldOld : Store (Option Hold)
  deriving DecidableEq, Repr

/-! ### Conversion (chapter 05) and the Bridle (chapter 07) -/

/-- What a conversion is for. -/
inductive ConvFor where
  /-- the regular conversion of a channel (R218) -/
  | regular (ch : Nat)
  /-- an auxiliary source of injected list l; with a stream when SEND = 1 (R221) -/
  | aux (l src : Nat) (stream : Option Nat)
  /-- a calibration conversion: KIND, SRC and accumulator (R222) -/
  | cal (aux : Bool) (src acc : Nat)
  deriving DecidableEq, Repr

/-- A regular conversion scheduled in the present frame. -/
structure SlotJob where
  pos : Nat
  slot : Nat
  ch : Nat
  /-- its slot has been sampled -/
  done : Bool
  deriving DecidableEq, Repr

/-- A code between its slot and its place in the core die, in slot order (R154). -/
structure Flight where
  /-- the frame whose slot it is (R153): frames counted since reset -/
  frame : Nat
  /-- the end of its slot, in network time, and the time quality there -/
  instant : Nat
  tq : Nat
  what : ConvFor
  code : BitVec 16
  ovr : Bool
  flag : Bool
  /-- the hold that was converted; none: the track-and-hold holds nothing (R670), or an auxiliary source -/
  hold : Option Hold
  /-- converted by a core that cannot be trusted, or by no core (R166) -/
  bad : Bool
  /-- converted by a core that stands in for one under calibration (R165) -/
  cal : Bool
  deriving DecidableEq, Repr

/-- A relief of an ADC core, R165. -/
structure CoreRelief where
  pos : Nat
  oldCore : Nat
  newCore : Nat
  /-- local ns since which the substitution waits for injected lists; none: it waits for none (R163, R164) -/
  since : Option Nat
  /-- in force since a frame boundary -/
  active : Bool
  /-- the relieved core's calibration has ended -/
  ended : Bool
  deriving DecidableEq, Repr

/-- The running injected list, R160, R230. -/
structure ListRun where
  list : Nat
  pc : Nat
  stack : List (Nat × Nat)
  /-- conversions issued that still await their slots, in entry order -/
  claims : List ConvFor
  /-- network time from which they may take slots: when the first of them was issued -/
  since : Nat
  /-- LEND has issued -/
  ended : Bool
  /-- the run's start point, network time -/
  start : Nat
  deriving DecidableEq, Repr

/-- One conversion claimed by the calibration list: its KIND, SRC, accumulator and core (15: position slack), the number of
its entry in the run, and whether it is that entry's first. -/
structure CalClaim where
  aux : Bool
  src : Nat
  acc : Nat
  core : Nat
  entry : Nat
  first : Bool
  deriving DecidableEq, Repr

/-- A run of the calibration list. -/
structure CalRun where
  pc : Nat
  stack : List (Nat × Nat)
  claims : List CalClaim
  /-- entries that have claimed conversions, and the network time from which the claims may take slots -/
  issued : Nat
  since : Nat
  ended : Bool
  /-- the run's start point, network time -/
  start : Nat
  /-- the ramp cycle that gave the last hold of a ramp run (R512) -/
  cycle : Option Nat := none
  deriving DecidableEq, Repr

/-- The converter pool beside its registers. -/
structure AdcSt where
  jobs : List SlotJob
  /-- slots of a position (0-7), or of a core outside every position (8 + core), below this one have been sampled -/
  slotAt : Store Nat
  /-- codes on their way to the core die, in slot order -/
  flight : List Flight
  /-- the frame of the words on the link, and the SEQ of the next word sent and of the next word expected -/
  wordFrame : Nat
  sendSeq : Nat
  wantSeq : Nat
  /-- consecutive words lost, and words lost in the frame (R22) -/
  lostRun : Nat
  lostWords : Nat
  /-- the frame's remaining samples are lost (R22) -/
  frameLost : Bool
  /-- consecutive out-of-range residues, by core (R166) -/
  resid : Store Nat
  /-- cores whose samples are not valid until the end of the frame -/
  badCores : List Nat
  /-- changes of ADC_MAP that wait for a frame boundary: position, core -/
  mapNext : List (Nat × Nat)
  relief : Option CoreRelief
  /-- cores handed to calibration at the next boundary (R167), and the outcome of a finished step of such a core -/
  rehab : List Nat
  rehabDone : List (Nat × Bool)
  /-- the start that made a list pending, and the start that AGAIN holds: local ns, and network time (R160, R230) -/
  ilAt : Store (Nat × Nat)
  ilAgain : Store (Nat × Nat)
  /-- INJ_DEFERRED was raised for the list's present run (R161) -/
  ilLate : Store Bool
  run : Option ListRun
  calRun : Option CalRun
  /-- the housekeeping lists to start at the next frame boundary, one for each expiry (R159) -/
  hkDue : List Nat
  hkExpiry : Option Nat
  /-- local ns of the last calibration-list entry (R164) -/
  calIssued : Nat
  /-- forcing begins, and ends, at the next frame boundary (R164) -/
  forceNext : Bool
  forceEnd : Bool
  deriving DecidableEq, Repr

/-- A raw sample in the raw-sample store, R228. -/
structure RawCell where
  /-- count of frames in which it was converted -/
  frame : Nat
  /-- lost on the way (R22), or absent: no conversion has brought it to the store (R228), which counts as lost too -/
  lost : Bool
  absent : Bool
  code : BitVec 16
  ovr : Bool
  flag : Bool
  hold : Hold
  bad : Bool
  cal : Bool
  /-- a FEED has offered it to the Burgees (R219) -/
  offered : Bool
  deriving DecidableEq, Repr

/-- The Bridle beside its registers. -/
structure SeqSt where
  /-- the live copy of the table, coded (R215) -/
  live : Store Word72
  /-- the regular walk: next entry, loop stack (entry, passes left), innermost first -/
  pc : Nat
  stack : List (Nat × Nat)
  /-- the cycle until which WAIT holds the walk -/
  holdUntil : Option Nat
  /-- FEND has issued in the present frame -/
  frameDone : Bool
  /-- the walk is running (SEQ_STATUS.RUNNING shows it) -/
  running : Bool
  /-- the walk stopped at an illegal step or a cut frame, and waits for a locate -/
  stopped : Bool
  /-- located state for the next frame boundary -/
  located : Option (Nat × List (Nat × Nat))
  /-- in a frame with q = 0, SEQ_START has issued (R226) -/
  begun : Bool
  /-- in the transition frame of R130: the table, SEQ_REG_RGN and SEQ_START of the program that still runs (R236) -/
  trans : Option (Store Word72 × Word × Nat)
  /-- frames counted since reset, for the raw-sample store -/
  frame : Nat
  raw : Store (Option RawCell)
  /-- next entry the background check reads, its CRC register, and whether the pass met a bad entry -/
  scrubPos : Nat
  scrubCrc : Nat
  scrubBad : Bool
  /-- the buffer of the mirror in use, and the entries of the mirror (R235) -/
  mirror : List (Nat × Word64)
  mirrorNext : List (Nat × Word64)
  deriving DecidableEq, Repr

/-! ### Filter chains and streams (chapters 06 and 08) -/

/-- An output that a chain has completed and that WRITE has not handed on yet (R229). -/
structure ReadyOut where
  era : Nat
  index : Nat
  word : Word
  /-- the hold instant of its newest raw sample, and the time quality there -/
  instant : Nat
  tq : Nat
  deriving DecidableEq, Repr

/-- Settings of a chain that a commit has made and that wait for the first raw sample strobed at or after its boundary
(R200): the boundary, the source channel and its group, FIL_CHAIN and FIL_RESP, and the era of the outputs. -/
structure ChainSet where
  at_ : Nat
  src : Option Nat
  group : Nat
  chainW : Word
  respW : Word
  era : Nat
  deriving DecidableEq, Repr

/-- The chain of one stream, R188-R200. -/
structure Chain where
  /-- the source channel and the settings in effect: FIL_CHAIN, and the response and shift of FIL_RESP -/
  src : Option Nat
  chainW : Word
  respW : Word
  /-- the settings that wait, oldest first -/
  pend : List ChainSet
  /-- the group of its source, and the origin I_s that raw indices count from; none: no synchronising reset yet -/
  group : Nat
  origin : Option Nat
  /-- raw index of the next raw sample -/
  next : Nat
  integ : List Int
  comb : List Int
  /-- histories of the half-band stages and of S3, newest first -/
  hb : List (List Int)
  s3 : List Int
  /-- the demodulator's held value, the value that last entered, and the driver that DEMOD named at the last raw sample with
  its edges so far; blanked samples left (R190) -/
  heldIn : Int
  lastIn : Int
  lastEdge : Option (Nat × Nat)
  blank : Nat
  /-- 1 + the last raw index at which a condition held, by condition -/
  marks : Store Nat
  /-- the era its outputs belong to -/
  era : Nat
  /-- a fade: target bank, outputs done (R204) -/
  fade : Option (Nat × Nat)
  /-- outputs completed and not yet written -/
  ready : List ReadyOut
  deriving DecidableEq, Repr

/-- One era of a stream, R256, R259. -/
structure Era where
  era : Nat
  /-- its first output has been written; until then the start is where it will be written -/
  started : Bool
  startPos : Nat
  endPos : Option Nat
  /-- its positions belong to a buffer that has been enabled anew since -/
  gone : Bool
  j0 : Nat
  /-- I_s and P of a channel stream; 0 for an auxiliary stream -/
  origin : Nat
  period : Nat
  deriving DecidableEq, Repr

/-- What a buffer word's position does not say of itself. -/
structure WordMark where
  pos : Nat
  /-- local ns of the write, epoch, time quality and instant in network ns -/
  ns : Nat
  epoch : Nat
  tq : Nat
  instant : Nat
  /-- an auxiliary source made it (R264, R267) -/
  aux : Bool
  deriving DecidableEq, Repr

/-- Lost positions that wait for their gap record, R270: the first position, the first index and the count. -/
structure LossRun where
  era : Nat
  epoch : Nat
  reason : Nat
  pos : Nat
  first : Nat
  count : Nat
  deriving DecidableEq, Repr

/-- A STOPPED or ERA_END record to be queued once the positions below `after` are taken, R271. -/
structure EndRecord where
  era : Nat
  reason : Nat
  first : Nat
  after : Nat
  /-- the record stands before whatever a new enable brings: the buffer it belongs to has been left (R271) -/
  left : Bool
  deriving DecidableEq, Repr

/-- A stream's buffer beside its registers. -/
structure StreamSt where
  wpos : Nat
  rpos : Nat
  eras : List Era
  marks : List WordMark
  losses : List LossRun
  ends : List EndRecord
  /-- first position that Cinch history has not taken (R368) -/
  hpos : Nat
  /-- positions below this one are not in the buffer's present tiles (R174) -/
  floor : Nat
  /-- an output for an even position that waits for its partner or for the end of the frame's program, and whether an
  auxiliary source made it (R171) -/
  lone : Option (ReadyOut × Bool)
  deriving DecidableEq, Repr

/-- A backfill request, R274. -/
structure BfReq where
  stream : Nat
  era : Nat
  first : Nat
  count : Nat
  /-- source hub ID of the frame that wrote GO; none: STR_CTL.DEST (R275) -/
  dest : Option Nat
  /-- the directory entry of the history block being sent, the bytes that the queue has accepted, and its number -/
  sending : Option (Nat × Nat × Nat)
  /-- a commit moved, resized or disabled the buffer during the request (R276) -/
  cut : Bool
  deriving DecidableEq, Repr

/-- Filter chains, streams and backfill. -/
structure StrSt where
  chains : Store Chain
  streams : Store StreamSt
  backfill : List BfReq
  /-- the source channel of each channel stream in the epoch in effect, from the FEED entries (R219, R255) -/
  sources : Store (Option Nat)
  /-- the response that the background check reads next, and local ns at which it is due (R208) -/
  romNext : Nat
  romDue : Nat
  deriving DecidableEq, Repr

/-! ### Burgee units and segments (chapter 09) -/

/-- What a unit decides on, R286, R288. Times are network time in 2^-32 ns. -/
inductive TrgCause where
  /-- a data word of a stream: index, buffer position, word, its instant; aux: an auxiliary stream -/
  | word (stream index pos : Nat) (w : Word) (time : Nat) (aux : Bool)
  | raw (ch index : Nat) (code : Int) (time : Nat)
  | syncIn (falling : Bool) (time : Nat)
  /-- the unit that signalled -/
  | unit (n : Nat)
  | cmd
  | fault (src : Nat)
  /-- the first CORE cycle after a state was entered -/
  | entry
  /-- network time has reached the TIME condition of the state -/
  | time
  deriving DecidableEq, Repr

/-- A condition that became true: CAUSE code of R306, time, source and index. -/
structure CondHit where
  code : Nat
  time : Nat
  src : Nat
  index : Nat
  /-- era of the output, for CAUSE 0 -/
  era : Nat
  deriving DecidableEq, Repr

/-- The history of one condition, R290: evaluated values, newest first, and the test of the newest. -/
structure CondHist where
  vals : List Int
  met : Bool
  deriving DecidableEq, Repr

/-- A CAPTURE action that waits for its allocation, R300, R301. -/
structure CapReq where
  hit : CondHit
  stateAt : Nat
  deriving DecidableEq, Repr

/-- Causes that a unit decides on in one CORE cycle (R286): the local time at which they reached it; late: samples, which
are decided on 4 CORE cycles after that. -/
structure TrgBatch where
  ns : Nat
  late : Bool
  causes : List TrgCause
  deriving DecidableEq, Repr

/-- A trigger unit beside its registers. -/
structure UnitSt where
  /-- what waits for a decision, by deciding cycle, the first one first -/
  causes : List TrgBatch
  latchA : Option CondHit
  latchB : Option CondHit
  /-- network time at which the state was entered; whether TIME conditions A and B have been true, and the timer has
  expired, since -/
  entered : Nat
  timeA : Bool
  timeB : Bool
  expired : Bool
  /-- histories by 2 * state + (0: condition A, 1: condition B) -/
  hist : Store CondHist
  next : Nat
  alloc : Option CapReq
  heldReq : Option CapReq
  /-- SEGMENT_TABLE_FULL and CAPTURE_FULL were raised since the last allocation that succeeded (R300) -/
  fullT : Bool
  fullC : Bool
  deriving DecidableEq, Repr

/-- One capture stream of an open segment, R298, R302. -/
structure SegStream where
  stream : Nat
  era : Nat
  first : Nat
  pre : Nat
  /-- words to hold, and those held before and from the trigger index on -/
  want : Nat
  preDone : Nat
  postDone : Nat
  /-- runs of words not captured that are not reported yet, in order: first word offset and count (R303) -/
  miss : List (Nat × Nat)
  deriving DecidableEq, Repr

/-- A segment that is not free, beside its table entry. -/
structure SegSt where
  unit : Nat
  /-- the settings it was opened with -/
  len : Nat
  cap : Word
  meas : Word
  mask : Word
  /-- output period P of its streams in ns -/
  period : Nat
  /-- epoch in which it opened (R39) -/
  epoch : Nat
  streams : List SegStream
  /-- readout: the entry has been queued; next stream offset and word offset -/
  entrySent : Bool
  rdStream : Nat
  rdWord : Nat
  deriving DecidableEq, Repr

/-- The Burgees, the segment table and the mask store. -/
structure TrgSt where
  units : Store UnitSt
  segs : Store (Option SegSt)
  /-- the segment table: word i of entry k at 32 k + i (R306) -/
  table : Store Word
  mask : Store Word64
  /-- closed segments that await the engine, and measured ones that await readout, in order -/
  closing : List Nat
  reading : List Nat
  /-- capture gap records that wait for the egress queue: epoch and record (R303) -/
  gaps : List (Nat × List Byte)
  deriving DecidableEq, Repr

/-! ### Capture memory (chapter 10) -/

/-- Capture memory beside its registers. -/
structure MemSt where
  /-- stored codewords: data in bits [63:0], check bits in [71:64] (R330) -/
  words : Store Word72
  /-- the three copies of each valid bit (R332) -/
  valid : Store Nat
  /-- tiles still to be cleared: first and count (R334) -/
  clr : Option (Nat × Nat)
  /-- who armed the flip mask (R345) -/
  flipBy : Option Requester
  /-- by tile: what has upset the stored code word of its checksum entry (R338, R340) -/
  entryUpset : Store Word72
  deriving DecidableEq, Repr

/-! ### Cinch (chapter 11) -/

/-- A block being coded: channel (1 history, 2 segment, 3 job), its input words, flags and place. -/
structure CinBlock where
  chan : Nat
  id : Nat
  sub : Nat
  first : Nat
  last : Bool
  flagged : Bool
  level : Nat
  pred : Nat
  input : List Word
  /-- byte offset in the history pool (history), block number in the stream (segment) -/
  place : Nat
  /-- epoch of the first word (R39) -/
  epoch : Nat
  /-- a job block that is continued: the bytes of its predicted stream that are coded, and the bits that code them (R377) -/
  saved : Nat × List Bool
  deriving DecidableEq, Repr

/-- A history block in the pool, R373. -/
structure HistBlk where
  stream : Nat
  era : Nat
  count : Nat
  first : Nat
  offset : Nat
  size : Nat
  age : Nat
  /-- epoch of the first word, and whether the block holds flagged words (R39, R448) -/
  epoch : Nat
  flagged : Bool
  deriving DecidableEq, Repr

/-- A compression job beside its registers, R375-R378. -/
structure JobSt where
  src : Nat
  words : Nat
  level : Nat
  pred : Nat
  send : Bool
  /-- source hub ID of the frame that wrote GO; none: STR_CTL.DEST (R376) -/
  dest : Option Nat
  /-- words in complete blocks, and the partial block that waits for space, as far as it has been read, with the bytes that it
  takes in the ring -/
  done : Nat
  partBlock : Option CinBlock
  partSize : Nat
  /-- the blocks in the ring that are still to be sent, the oldest first: size, epoch, and whether it is flagged -/
  toSend : List (Nat × Nat × Bool)
  /-- bytes of the first of them that the queue has accepted, and its block number (R448) -/
  off : Nat
  bseq : Nat
  /-- bytes egress has freed since the job stopped (R377) -/
  freed : Nat
  deriving DecidableEq, Repr

/-- A segment block in the engine's staging buffer, R374, R446. -/
structure SegOut where
  seg : Nat
  sofs : Nat
  block : Nat
  bytes : List Byte
  /-- bytes that the egress queue has accepted -/
  off : Nat
  flagged : Bool
  /-- words of the block -/
  words : Nat
  deriving DecidableEq, Repr

/-- Cinch beside its registers. -/
structure CinSt where
  block : Option CinBlock
  staging : Option SegOut
  dir : Store (Option HistBlk)
  /-- next byte of the pool and the next AGE -/
  nextOff : Nat
  nextAge : Nat
  /-- streams for which CINCH_ERROR with CAUSE 2 was raised and no block taken without loss since (R369) -/
  missRaised : Store Bool
  /-- streams in the order in which a history block of them became due (R365) -/
  due : List Nat
  job : Option JobSt
  deriving DecidableEq, Repr

/-! ### Calibration (chapter 16) -/

/-- What the controller knows of an item, R510. -/
structure CalItem where
  /-- a step has succeeded since reset -/
  done : Bool
  /-- start temperature of the last successful step, in 0.125 degC; none: not known yet (R509) -/
  tCal : Option Int
  /-- RUN_ALL was written since the last successful step -/
  runAll : Bool
  fails : Nat
  deriving DecidableEq, Repr

/-- A run of a front-end measurement: setting index and input state (0 short, 1 positive and 2 negative reference,
3 strobe ramp). -/
structure CalRunKind where
  setting : Nat
  input : Nat
  deriving DecidableEq, Repr

/-- A step under way on a front-end unit or an ADC core, R514-R518. -/
structure CalStep where
  unit : Nat
  inPlace : Bool
  tStart : Int
  retries : Nat
  /-- RUN_ALL was written during the step (R526) -/
  again : Bool
  /-- the runs of one measurement, and what the ended runs of the present measurement gave: SUM and CNT by run -/
  plan : List CalRunKind
  got : List (Int × Nat)
  /-- the first computation of the pair, once it is made: trim fields in order -/
  first : Option (List Int)
  deriving DecidableEq, Repr

/-- The calibration controller beside its registers. -/
structure CalSt where
  fe : Store CalItem
  adc : Store CalItem
  slicer : Store CalItem
  delay : Store CalItem
  /-- CAL_FE_TRIM of unit u and setting i at 64 u + i -/
  trims : Store Word
  feStep : Option CalStep
  adcStep : Option CalStep
  /-- local ns since which the front-end step's relief waits for injected lists; none: it waits for none (R163, R164) -/
  feSince : Option Nat
  /-- the tracks whose steps the run under way serves, and its start in local ns -/
  runFe : Bool
  runAdc : Bool
  runSince : Nat
  lastRun : Nat
  /-- local ns at which the COUNT of TS0-TS9 last advanced -/
  seen : Store (Option Nat)
  /-- sensors that have been above 118 degC and not below 115 degC since (R553) -/
  hot : Store Bool
  /-- a cleared SAFE holds the next pick to the next frame boundary (R526) -/
  pickHold : Bool
  deriving DecidableEq, Repr

/-! ### Start-up, NVM and OTP (chapters 19 and 20) -/

/-- Where a start stands. -/
inductive Phase where
  /-- the supplies are out of range, or VAON fell below 0.65 V -/
  | off
  | aonReset
  | otp
  | sfdp
  | headers
  /-- slots still to be tried, in order -/
  | load (slots : List Nat)
  /-- an image has been applied to the staging set and waits for the references -/
  | waitField (slot : Nat) (rest : List Nat)
  /-- its commit is under way -/
  | committing (slot : Nat) (rest : List Nat)
  | running
  | repeater
  deriving DecidableEq, Repr

/-- The loader, the NVM and what is around them. -/
structure BootSt where
  phase : Phase
  /-- the hub ID that the image under way gives, and the registers whose RW fields the loader wrote -/
  hubId : Nat
  rwWritten : List Nat
  nvm : Store Byte
  /-- supply monitors that have armed, by rail (R654) -/
  armed : List Nat
  refclkLost : Bool
  /-- local ns at which an ordered restart falls due; restart waits for its response to be accepted (R631) -/
  restartAt : Option Nat
  /-- an erasure under way that a critical command ordered (R631), and whether it takes the whole recorder region or its
  ring sectors only -/
  erasure : Option Bool
  deriving DecidableEq, Repr

/-- A key slot in OTP, R621. -/
structure KeySlot where
  key : Nat
  written : Bool
  revoked : Bool
  deriving DecidableEq, Repr

/-- What OTP holds (R618, R621, R508). -/
structure LcsSt where
  /-- three copies of the state bits DEVELOP, FIELD, RETURN and SCRAP: bit i of each (R618) -/
  copies : List Nat
  cmdKeys : List KeySlot
  imgKeys : List KeySlot
  /-- production values of the OTP-derived registers, by address (R508, R642), and of CAL_FE_TRIM, by 64 u + i -/
  otpRegs : Store Word
  otpTrims : Store Word
  deriving DecidableEq, Repr

/-! ### The whole block -/

/-- The hub: its registers by address, and one group per chapter for what is not a register. -/
structure Hw where
  /-- every register by address; an address not listed holds its reset value (`regReset`) -/
  regs : Store Word
  clk : ClkSt
  reqs : Store ReqSt
  epoch : EpochSt
  time : TimeSt
  net : NetSt
  flt : FltSt
  recd : RecSt
  field : FieldSt
  smp : SmpSt
  adc : AdcSt
  seq : SeqSt
  str : StrSt
  trg : TrgSt
  mem : MemSt
  cin : CinSt
  cal : CalSt
  boot : BootSt
  /-- what the start has read from OTP (R642) -/
  lcs : LcsSt
  /-- the model's own: how many free values have been drawn -/
  draws : Nat
  deriving DecidableEq, Repr

/-- The state of the machine: the hub, its OTP array, the frozen copy of a held snapshot (R40), what the last register
access answered, and the queue of the commands that wait. -/
structure State where
  hw : Hw
  /-- the OTP array, which no reset touches -/
  otp : LcsSt
  frozen : Option Hw
  /-- the words and the STATUS (R436) that the last register access answered -/
  rdata : List Word
  status : Nat
  pending : List Instr
  deriving DecidableEq, Repr

/-! ### What an unlisted entry of a table reads as -/

/-- The safe equalisation row of OTP, R399, R663: TX_MAIN 48, TX_PRE 0, TX_POST 8 (0 on the clock lane), CTLE 6 and
RX_GAIN 4, in the cell format of R398. -/
def otpSafeRow : Store Word :=
  [(LNK_EQ 0 0, 0x462300), (LNK_EQ 0 1, 0x462300), (LNK_EQ 0 2, 0x462300), (LNK_EQ 0 3, 0x462300),
   (LNK_EQ 0 4, 0x460300), (LNK_EQ 1 0, 0x462300), (LNK_EQ 1 1, 0x462300), (LNK_EQ 1 2, 0x462300),
   (LNK_EQ 1 3, 0x462300), (LNK_EQ 1 4, 0x460300)]

def lane0 : Lane :=
  { scr := 0, prec := 0, half := none, idles := 0, rprec := 0, rscr := 0, rbits := [], rstripe := 0, rslot := none, badAms := 0, quiet := 0,
    blank := 0, lockStep := 0, mcount := 0, accL := 0, accM := 0, accU := 0, pacc := 0, prevHigh := none,
    boundRaised := false, recalSince := 0, goodSince := 0, reEq := false, eq := 0, expected := [0, 0, 0, 0], sent := [] }

def port0 : PortSt :=
  { lanes := [], stateSince := 0, leftDown := 0, told := 0, block := 0, b0 := 0, slot := 0, slotAt := 0, rxSet := 0, nap := 0,
    napSince := 0, clkSince := 0, idleSince := 0, holdAwake := 0,
    fifo := [], rx := none, fwd := [], linkMsgs := [], timeMsgs := [], answers := [], crcCount := 0, crcStart := none,
    crcRate := false, lastSent := [] }

def net0 : NetSt :=
  { portA := port0, portB := port0, egress := [], evq := [], events := [], dup := [], orderNext := 0,
    trailerNext := 0, srDone := false, bseq := 0, holdSince := none }

def dom0 : DomSt := { mode := .off, again := false, since := 0 }

def clk0 : ClkSt :=
  { timing := dom0, core := dom0, conv := [], stitch := dom0, mspi := [], crossings := [], sideband := [] }

def req0 : ReqSt := { latch := [], held := [], seqPage := 0, trgPage := 0, fePage := 0, recSlot := 0 }

def time0 : TimeSt :=
  { now := 0, tick := 0, incr := 40 * 2 ^ 32, incrPend := none, incrHold := none, adjPend := none, adjHold := none,
    setPend := none, setHold := none, lastValid := none, holdoverSince := 0 }

def flt0 : FltSt :=
  { timers := [], objects := [], inForce := [], ending := [], safeEnding := false, faultNUntil := none,
    faultNBoot := false }

def rec0 : RecSt :=
  { atCrossing := [], staging := [], ram := [], slots := [], nextSlot := 0, nextPage := 0, badSectors := [], pageEpoch := [],
    opsecBase := 0, opsecSince := 0, opsecSaved := 0, opsecInit := false, fetch := none }

def epoch0 : EpochSt :=
  { staging := { regs := [], table := [] }, sealedSet := none, snapReq := none, snapSeen := none, snapSince := 0, snapAuto := false }

def driver0 : DriverSt :=
  { cfg := 0, set := 0, chop := 0, on := false, wants := false, change := false, chopWait := false, revHold := false,
    limitSince := 0, limitRaised := false, compClear := 0, edges := 0 }

def field0 : FieldSt :=
  { closed := [], closedIn := [], inputs := [], toMove := [], toClose := [], closeAt := 0, pinMv := [], ov := [], ovAt := [],
    reclose := [], cmp := [], cmpClear := [], openRaised := [], openBy := [], probe := [],
    visited := [], passed := [], passedNow := [], feEnd := [], feFirst := [], exEnd := [], exFirst := [],
    satRun := [], satRaised := [], relief := [], drivers := [], totalOver := none, totalRaised := false }

def grid0 : Grid := { m := 0, f := 0, d := 0, frac := 0, per := 1000000, ph := 0 }

def group0 : GroupSt :=
  { grid := grid0, nextGrid := none, armed := false, placed := none, last := none, notBefore := 0, resetAt := none,
    resetSrc := 0, soon := false, origin := none, chopN := 0, skips := [] }

def smp0 : SmpSt :=
  { groups := [], per := 1000000, ph := 0, nextSched := none, lastBoundary := none, reqs := [], armReq := none,
    pinWait := none, syncOut := [], isolatedAt := none, held := [], heldOld := [] }

/-- The housekeeping timer starts at reset with its reset value, 1,000 ms (R159). -/
def adc0 : AdcSt :=
  { jobs := [], slotAt := [], flight := [], wordFrame := 0, sendSeq := 0, wantSeq := 0, lostRun := 0, lostWords := 0,
    frameLost := false, resid := [], badCores := [], mapNext := [], relief := none, rehab := [], rehabDone := [],
    ilAt := [], ilAgain := [], ilLate := [], run := none, calRun := none, hkDue := [],
    hkExpiry := some 1000000000, calIssued := 0, forceNext := false, forceEnd := false }

def seq0 : SeqSt :=
  { live := [], pc := 0, stack := [], holdUntil := none, frameDone := false, running := false, stopped := false,
    located := none, begun := false, trans := none, frame := 0, raw := [], scrubPos := 0, scrubCrc := 0xFFFFFFFF, scrubBad := false,
    mirror := [], mirrorNext := [] }

def chain0 : Chain :=
  { src := none, chainW := 0, respW := 0, pend := [], group := 0, origin := none, next := 0, integ := [0, 0, 0, 0, 0],
    comb := [0, 0, 0, 0, 0], hb := [], s3 := [], heldIn := 0, lastIn := 0, lastEdge := none, blank := 0, marks := [],
    era := 0, fade := none, ready := [] }

def stream0 : StreamSt :=
  { wpos := 0, rpos := 0, eras := [], marks := [], losses := [], ends := [], hpos := 0, floor := 0, lone := none }

def str0 : StrSt := { chains := [], streams := [], backfill := [], sources := [], romNext := 0, romDue := 1000000 }

def unit0 : UnitSt :=
  { causes := [], latchA := none, latchB := none, entered := 0, timeA := false, timeB := false,
    expired := false, hist := [], next := 0, alloc := none, heldReq := none, fullT := false, fullC := false }

def hist0 : CondHist := { vals := [], met := false }

def trg0 : TrgSt := { units := [], segs := [], table := [], mask := [], closing := [], reading := [], gaps := [] }

def mem0 : MemSt := { words := [], valid := [], clr := none, flipBy := none, entryUpset := [] }

def cin0 : CinSt :=
  { block := none, staging := none, dir := [], nextOff := 0, nextAge := 0, missRaised := [], due := [], job := none }

def item0 : CalItem := { done := false, tCal := none, runAll := false, fails := 0 }

def cal0 : CalSt :=
  { fe := [], adc := [], slicer := [], delay := [], trims := [], feStep := none, adcStep := none, feSince := none, runFe := false, runAdc := false,
    runSince := 0, lastRun := 0, seen := [], hot := [], pickHold := false }

/-- The NVM reads as erased where nothing has been programmed (R596: serial NOR flash). -/
def nvm0 : Byte := 0xFF

def boot0 : BootSt :=
  { phase := .otp, hubId := 0, rwWritten := [], nvm := [],
    armed := [], refclkLost := false, restartAt := none, erasure := none }

def keySlot0 : KeySlot := { key := 0, written := false, revoked := false }

/-- OTP as shipped, R2: BLANK, no key programmed, and the production values. -/
def lcs0 : LcsSt :=
  { copies := [0, 0, 0], cmdKeys := List.replicate 4 keySlot0, imgKeys := List.replicate 4 keySlot0, otpRegs := otpSafeRow,
    otpTrims := [] }

def hw0 : Hw :=
  { regs := [], clk := clk0, reqs := [], epoch := epoch0, time := time0, net := net0, flt := flt0, recd := rec0,
    field := field0, smp := smp0, adc := adc0, seq := seq0, str := str0, trg := trg0, mem := mem0, cin := cin0,
    cal := cal0, boot := boot0, lcs := lcs0, draws := 0 }

/-- The machine right after reset: t = 0 of a power-on start, the instant at which AON reset has ended, with the OTP
read under way (R591, R642). Every register reads its reset value (`regReset`); POS reads the pins, taken as 0. -/
def State.reset : State := { hw := hw0, otp := lcs0, frozen := none, rdata := [], status := 0, pending := [] }

end Sys2Proof.Machine
end

