-- ==== Sys2Proof/Machine/Ops.lean ====
section
/-!
DEFINITION. The named operations over the state that the commands share: registers and their fields, topology, time,
request crossings, and how a command's effect becomes an outcome.
-/
namespace Sys2Proof.Machine

/-- What a command answers. -/
abbrev Out := Host.Outcome State Fault Refusal

/-! ### Registers and fields -/

/-- The register at an address. -/
def Hw.reg (h : Hw) (a : Nat) : Word := storeGet regReset h.regs a

/-- Replace the register at an address. -/
def Hw.setReg (h : Hw) (a : Nat) (w : Word) : Hw := { h with regs := storeSet regReset h.regs a w }

/-- A field's value. -/
def Hw.get (h : Hw) (f : Fld) : Nat := bits (h.reg f.addr) f.hi f.lo

/-- Write a field. -/
def Hw.put (h : Hw) (f : Fld) (v : Nat) : Hw := h.setReg f.addr (putBits (h.reg f.addr) f.hi f.lo v)

/-- A one-bit field reads 1. -/
def Hw.on (h : Hw) (f : Fld) : Bool := decide (h.get f ≠ 0)

/-- Add to a field that saturates. -/
def Hw.bump (h : Hw) (f : Fld) (n : Nat) : Hw := h.put f (satAdd (f.hi + 1 - f.lo) (h.get f) n)

/-- A 64-bit value in two fields of 32 bits. -/
def Hw.get64 (h : Hw) (lo hi : Fld) : Nat := h.get lo + 2 ^ 32 * h.get hi

/-- Write a 64-bit value into two fields of 32 bits. -/
def Hw.put64 (h : Hw) (lo hi : Fld) (v : Nat) : Hw := (h.put lo v).put hi (v / 2 ^ 32)

/-- A row of register writes at rising addresses. -/
def Hw.setRegs (h : Hw) (a : Nat) : List Word → Hw
  | [] => h
  | w :: ws => Hw.setRegs (h.setReg a w) (a + 4) ws

/-- The next free value's number, and the state that has drawn it. -/
def Hw.draw (h : Hw) : Hw := { h with draws := h.draws + 1 }

/-! ### Outcomes -/

/-- A command's effect on the hub as an outcome. -/
def act (s : State) (f : Hw → Hw) : Out := .next { s with hw := f s.hw }

/-- The hub is powered and its AON reset has ended (R591). -/
def Hw.live (h : Hw) : Bool := decide (h.boot.phase ≠ .off ∧ h.boot.phase ≠ .aonReset)

/-- A command on an object that exists, of a hub that is not in reset; while it is in reset nothing happens (R591). -/
def actOn (s : State) (exists_ : Bool) (f : Hw → Hw) : Out :=
  if exists_ then (if s.hw.live then act s f else .next s) else .fault .noSuchObject

/-- An effect that takes place only where its condition holds (the condition the spec names for the event). -/
def Hw.when (h : Hw) (c : Bool) (f : Hw → Hw) : Hw := if c then f h else h

/-- Apply an operation for each element of a list, in order. -/
def Hw.each {α : Type} (h : Hw) (l : List α) (f : Hw → α → Hw) : Hw := l.foldl f h

/-! ### Time -/

/-- Local time in ns since AON reset ended: AON ticks of 40 ns (R25). -/
def Hw.ns (h : Hw) : Nat := 40 * h.time.tick

/-- Operating seconds: a 40-bit counter of seconds of AON operation (R575). -/
def Hw.opsec (h : Hw) : Nat := (h.recd.opsecBase + (h.ns - h.recd.opsecSince) / 1000000000) % 2 ^ 40

/-- One nanosecond of network time, in units of 2^-32 ns (R485). -/
abbrev nsUnit : Nat := 2 ^ 32

/-- Network time in whole ns. -/
def Hw.netNs (h : Hw) : Nat := h.time.now / nsUnit

/-- Seconds of a network time. -/
def secOf (t : Nat) : Nat := t / nsUnit / 1000000000 % 2 ^ 48
/-- Nanoseconds of a network time. -/
def nsOf (t : Nat) : Nat := t / nsUnit % 1000000000
/-- Fraction of a network time. -/
def fracOf (t : Nat) : Nat := t % nsUnit
/-- The network time of seconds, nanoseconds and fraction. -/
def timeOf (sec ns frac : Nat) : Nat := (sec * 1000000000 + ns) * nsUnit + frac

/-- SEC, NS and FRAC as 14 bytes, most significant first (frames, R8). -/
def timeBytesBe (t : Nat) : List Byte := beBytes 6 (secOf t) ++ beBytes 4 (nsOf t) ++ beBytes 4 (fracOf t)
/-- SEC, NS and FRAC as 14 bytes, least significant first (stored structures, R9). -/
def timeBytesLe (t : Nat) : List Byte := leBytes 6 (secOf t) ++ leBytes 4 (nsOf t) ++ leBytes 4 (fracOf t)

/-- INCR_k, the rate in effect at the present tick k: what network time advances by to the next tick (R484). -/
def Hw.incrNow (h : Hw) : Nat := h.time.incrHold.getD h.time.incr

/-- The present AON tick interval of network time contains the instant, or the instant has passed. -/
def Hw.reached (h : Hw) (t : Nat) : Bool := decide (t < h.time.now + h.incrNow)

/-- A deadline in local ns has been reached: it falls in the present tick's interval or before it. -/
def Hw.due (h : Hw) (ns : Nat) : Bool := decide (ns < h.ns + 40)

/-- A time in ms as ns, with 0 taken as 1 where the spec says so. -/
def msNs (ms : Nat) : Nat := (if ms = 0 then 1 else ms) * 1000000

/-! ### Topology (R5, R50) -/

abbrev nTerm : Nat := 640
abbrev nChan : Nat := 320
abbrev nClus : Nat := 40
abbrev nUnit : Nat := 360
abbrev nDrv : Nat := 80
abbrev nStream : Nat := 512

/-- Cluster of a terminal, and its terminals. -/
def clusOfTerm (t : Nat) : Nat := t / 16
def termsOfClus (k : Nat) : List Nat := (List.range 16).map (16 * k + ·)
/-- Cluster of a channel, and its channels. -/
def clusOfChan (m : Nat) : Nat := m / 8
def chansOfClus (k : Nat) : List Nat := (List.range 8).map (8 * k + ·)
/-- Cluster of a driver; driver a of a cluster is the even one. -/
def clusOfDrv (d : Nat) : Nat := d / 2
/-- Cluster of a front-end unit; a cluster holds nine. -/
def clusOfUnit (u : Nat) : Nat := u / 9

/-- Ports as numbers: A is 0, B is 1. -/
def portNo : Port → Nat
  | .a => 0
  | .b => 1

/-- The other port. -/
def otherPort : Port → Port
  | .a => .b
  | .b => .a

/-- A port beside its registers. -/
def Hw.port (h : Hw) : Port → PortSt
  | .a => h.net.portA
  | .b => h.net.portB

def Hw.setPort (h : Hw) (p : Port) (x : PortSt) : Hw :=
  match p with
  | .a => { h with net := { h.net with portA := x } }
  | .b => { h with net := { h.net with portB := x } }

/-- A lane of a port beside its registers. -/
def Hw.lane (h : Hw) (p : Port) (l : Nat) : Lane := storeGet (fun _ => lane0) (h.port p).lanes l

def Hw.setLane (h : Hw) (p : Port) (l : Nat) (x : Lane) : Hw :=
  h.setPort p { h.port p with lanes := storeSet (fun _ => lane0) (h.port p).lanes l x }

/-- What is kept per requester, and the requesters' numbers (R17, R641). -/
def reqNo : Requester → Nat
  | .loader => 0
  | .mspi => 1
  | .portA => 2
  | .portB => 3
  | .jtag => 4

/-- Commit and snapshot path of a requester (R46, R619: JTAG counts as MSPI). -/
def pathOf : Requester → Nat
  | .loader => 0
  | .mspi => 1
  | .jtag => 1
  | .portA => 2
  | .portB => 3

def reqOfPort : Port → Requester
  | .a => .portA
  | .b => .portB

def Hw.rq (h : Hw) (q : Requester) : ReqSt := storeGet (fun _ => req0) h.reqs (reqNo q)

def Hw.setRq (h : Hw) (q : Requester) (r : ReqSt) : Hw :=
  { h with reqs := storeSet (fun _ => req0) h.reqs (reqNo q) r }

/-! ### Life-cycle state and running phases -/

/-- FIELD is the life-cycle state in effect (R618). -/
def Hw.inField (h : Hw) : Bool := decide (h.get LCS_STATE_STATE = 2)

/-- SAFE is in force (R558). -/
def Hw.safe (h : Hw) : Bool := h.on FLT_SAFE_ACTIVE

/-- Sampling has been released (R122). -/
def Hw.released (h : Hw) : Bool := h.on SYS_BOOT_RELEASED

/-- The first commit has applied (R594). -/
def Hw.running (h : Hw) : Bool := decide (h.get SYS_BOOT_MODE = 1)

/-- CORE runs. -/
def Hw.coreOn (h : Hw) : Bool := decide (h.clk.core.mode = .on)

/-! ### Request crossings (R541, R542) -/

def crossing0 : Crossing := { busy := false, pending := 0, acted := false }

def Hw.xing (h : Hw) (x : Nat) : Crossing := storeGet (fun _ => crossing0) h.clk.crossings x

def Hw.setXing (h : Hw) (x : Nat) (c : Crossing) : Hw :=
  { h with clk := { h.clk with crossings := storeSet (fun _ => crossing0) h.clk.crossings x c } }

/-- The overrun bit of a crossing. -/
def xingOvr (x : Nat) : Fld := ⟨CLK_XING_OVR, x, x⟩

/-- Is a request of this crossing accepted? -/
def Hw.xingTakes (h : Hw) (x : Nat) : Bool := !(h.xing x).busy || decide ((h.xing x).pending < 255)

/-- A request on a crossing: REQ toggles at once when it is idle, else it is counted, and at 255 it is discarded. -/
def Hw.xingReq (h : Hw) (x : Nat) : Hw :=
  let c := h.xing x
  if !c.busy then h.setXing x { busy := true, pending := c.pending, acted := false }
  else if c.pending < 255 then h.setXing x { c with pending := c.pending + 1 }
  else h.put (xingOvr x) 1

/-- The sender sees ACK: the next counted request goes out, or the crossing is idle. -/
def Hw.xingAck (h : Hw) (x : Nat) : Hw :=
  let c := h.xing x
  if !c.busy then h
  else if 0 < c.pending then h.setXing x { busy := true, pending := c.pending - 1, acted := false }
  else h.setXing x crossing0

/-- The receiver has acted on the request in flight. -/
def Hw.xingActed (h : Hw) (x : Nat) : Hw := h.setXing x { h.xing x with acted := true }

/-! ### Clock domains (R25, R29) -/

def Hw.dom (h : Hw) : Domain → DomSt
  | .timing => h.clk.timing
  | .core => h.clk.core
  | .conv c => storeGet (fun _ => dom0) h.clk.conv c
  | .stitch => h.clk.stitch

def Hw.setDom (h : Hw) (d : Domain) (x : DomSt) : Hw :=
  match d with
  | .timing => { h with clk := { h.clk with timing := x } }
  | .core => { h with clk := { h.clk with core := x } }
  | .conv c => { h with clk := { h.clk with conv := storeSet (fun _ => dom0) h.clk.conv c x } }
  | .stitch => { h with clk := { h.clk with stitch := x } }

/-- A wake request: a stopped domain starts; one that is entering sleep completes its entry first; a wake in progress is
joined (R29). The domains other than AON do not start while REFCLK is lost (R656), nor before the OTP read is complete
(R591: CORE and TIMING start then). -/
def Hw.wake (h : Hw) (d : Domain) : Hw :=
  let x := h.dom d
  match x.mode with
  | .off => if h.boot.refclkLost || decide (h.boot.phase = .otp) then h else h.setDom d { mode := .waking, again := false, since := h.ns }
  | .entering => h.setDom d { x with again := true }
  | _ => h

/-! ### Small list tools -/

/-- The last element that meets a test. -/
def lastSome {α : Type} (p : α → Bool) (l : List α) : Option α := l.foldl (fun r x => if p x then some x else r) none

/-- Replace element `i`. -/
def setAt {α : Type} (l : List α) (i : Nat) (x : α) : List α := l.set i x

/-- Elements at even places are kept in pairs: the low and the high word of 64 bits. -/
def word64 (lo hi : Word) : Word64 := hi ++ lo

def lo32 (w : Word64) : Word := w.setWidth 32
def hi32 (w : Word64) : Word := (w >>> 32).setWidth 32

end Sys2Proof.Machine
end

