-- ==== Sys2Proof/Machine/Operands.lean ====
section
/-!
DEFINITION. What a register access names and carries: which requester may reach the registers (R435, R594, R606, R619,
R642), multi-word values with their latches and holding sets (R17, R335), and the objects that a command's operand
names (R5).
-/
namespace Sys2Proof.Machine

/-! ### Who reaches the registers -/

/-- The register bus serves the requester: from the end of the OTP read (R642), and JTAG only while its path is open
(R619). -/
def Hw.readable (h : Hw) (q : Requester) : Bool :=
  let up := match h.boot.phase with
    | .off => false
    | .aonReset => false
    | .otp => false
    | _ => true
  up && (match q with
    | .jtag => h.on LCS_STATE_DBG_REG
    | _ => true)

/-- The requester's writes have effect: the loader's until the first commit has applied, every other requester's from
then on (R594, R606). -/
def Hw.writable (h : Hw) (q : Requester) : Bool :=
  h.readable q && (match q with
    | .loader => !h.running
    | _ => h.running)

/-- A register write that has a row of its own: its effect on the hub where the requester's writes have effect; it
answers no words. -/
def accWrite (s : State) (q : Requester) (exists_ : Bool) (f : Hw → Hw) : Out :=
  if exists_ then
    .next { s with hw := if s.hw.writable q then f s.hw else s.hw, rdata := [], status := 0 }
  else .fault .noSuchObject

/-! ### Multi-word values (R17, R640) -/

/-- The value that a register word belongs to: its lowest address and its number of words; a word alone is a value of
one word. -/
def valueOf (a : Nat) : Nat × Nat :=
  let pair := (a / 8 * 8, 2)
  let blk := a / 0x10000
  if a % 4 ≠ 0 then (a, 1)
  else if blk = 4 ∧ SMP_SYNC_T0 ≤ a ∧ a ≤ SMP_SYNC_T2 then (SMP_SYNC_T0, 3)
  else if blk = 5 ∧ 0x58000 ≤ a ∧ a < 0x5C000 ∧ 8 ≤ a % 32 then pair
  else if blk = 7 ∧ 0x78000 ≤ a then pair
  else if blk = 8 ∧ STR_BF_FIRST_LO ≤ a ∧ a ≤ STR_BF_CTL then (STR_BF_FIRST_LO, 4)
  else if blk = 9 ∧ 0x91000 ≤ a ∧ a < 0x93000 ∧ 0x20 ≤ a % 64 ∧ a % 64 < 0x28 then pair
  else if blk = 9 ∧ 0x94000 ≤ a ∧ a < 0x98000 then pair
  else if blk = 10 ∧ MEM_FLIPMASK_LO ≤ a ∧ a ≤ MEM_FLIPMASK_HI then (MEM_FLIPMASK_LO, 3)
  else if blk = 14 ∧ a ≤ TIM_NOW_SHI then (TIM_NOW_FRAC, 4)
  else if blk = 14 ∧ TIM_INCR_FRAC ≤ a ∧ a ≤ TIM_ADJ_NS then pair
  else if blk = 14 ∧ TIM_SET_FRAC ≤ a ∧ a ≤ TIM_SET_SHI then (TIM_SET_FRAC, 4)
  else if blk = 14 ∧ TIM_RX_DIFF_LO 0 ≤ a ∧ a < 0xE0120 ∧ a % 16 < 12 then (a / 16 * 16, 3)
  else if blk = 15 ∧ 0xF0400 ≤ a ∧ a < 0xF0500 then (a / 16 * 16, 4)
  else if blk = 16 ∧ 0x102000 ≤ a ∧ a < 0x104800 ∧ a % 32 < 20 then (a / 32 * 32, 5)
  else if blk = 17 ∧ REC_OPSEC_LO ≤ a ∧ a ≤ REC_OPSEC_HI then pair
  else if blk = 17 ∧ 0x110080 ≤ a ∧ a < 0x1100C0 then pair
  else if blk = 19 ∧ LCS_CTR_LO ≤ a ∧ a ≤ LCS_CTR_HI then pair
  else if 0x10000000 ≤ a ∧ a < 0x11800000 then pair
  else (a, 1)

/-- Addresses of the words of a value. -/
def valueWords (base n : Nat) : List Nat := (List.range n).map (fun i => base + 4 * i)

/-- What the requester has written to a word since it last wrote the highest word of the value. -/
def Hw.heldAt (h : Hw) (q : Requester) (a : Nat) : Option Word := storeGet (fun _ => none) (h.rq q).held a

def Hw.setHeld (h : Hw) (q : Requester) (a : Nat) (v : Option Word) : Hw :=
  h.setRq q { h.rq q with held := storeSet (fun _ => none) (h.rq q).held a v }

/-- The word that a write of the highest word applies: the held one, else its present value. -/
def Hw.heldOr (h : Hw) (q : Requester) (a : Nat) (present : Word) : Word := (h.heldAt q a).getD present

/-- Forget the held words of a value. -/
def Hw.dropHeld (h : Hw) (q : Requester) (base n : Nat) : Hw :=
  h.each (valueWords base n) (fun h a => h.setHeld q a none)

/-- The word that a requester's latch holds. -/
def Hw.latched (h : Hw) (q : Requester) (a : Nat) : Option Word := storeGet (fun _ => none) (h.rq q).latch a

def Hw.setLatch (h : Hw) (q : Requester) (a : Nat) (v : Word) : Hw :=
  h.setRq q { h.rq q with latch := storeSet (fun _ => none) (h.rq q).latch a (some v) }

/-- Latch the words of a value above its lowest. -/
def Hw.latchWords (h : Hw) (q : Requester) (base : Nat) (ws : List Word) : Hw :=
  (ws.zip (valueWords (base + 4) ws.length)).foldl (fun h p => h.setLatch q p.2 p.1) h

/-- Write the RW bits of a register; its other bits keep their values. -/
def Hw.writeRw (h : Hw) (a mask : Nat) (v : Word) : Hw :=
  h.setReg a ((h.reg a &&& ~~~(BitVec.ofNat 32 mask)) ||| (v &&& BitVec.ofNat 32 mask))

/-- Stage the RWS bits that a write gives a register; a later write replaces them (R13, R14). -/
def Hw.stage (h : Hw) (a rws : Nat) (v : Word) : Hw :=
  let st := h.epoch.staging
  { h with epoch := { h.epoch with
      staging := { st with regs := storeSet (fun _ => none) st.regs a (some (v &&& BitVec.ofNat 32 rws)) } } }

/-! ### Objects (R5) -/

def isTerm (t : Nat) : Bool := decide (t < nTerm)
def isChan (m : Nat) : Bool := decide (m < nChan)
def isUnit (u : Nat) : Bool := decide (u < nUnit)
def isClus (k : Nat) : Bool := decide (k < nClus)
def isDrv (d : Nat) : Bool := decide (d < nDrv)
def isStream (s : Nat) : Bool := decide (s < nStream)
def isGroup (g : Nat) : Bool := decide (g < 8)
def isTrig (n : Nat) : Bool := decide (n < 16)
def isSeg (k : Nat) : Bool := decide (k < 4096)
def isTile (t : Nat) : Bool := decide (t < 6144)
def isPos (p : Nat) : Bool := decide (p < 8)
def isCore (c : Nat) : Bool := decide (c < 9)
def isDomain : Domain → Bool
  | .conv c => isCore c
  | _ => true
def isList (l : Nat) : Bool := decide (l < 16)
def isLane (l : Nat) : Bool := decide (l < 4)
def isSource (i : Nat) : Bool := decide (i < 64)

end Sys2Proof.Machine
end

