-- ==== Sys2Proof/Machine/Field.lean ====
section
/-!
DEFINITION. What the other chapters ask of the field die: routes and inputs (chapter 02), settle times and windows
(R91-R94, R104), excitation links and driver state (chapter 03), and which channels and drivers an event source's
object names (R554).
-/
namespace Sys2Proof.Machine

/-! ### Routes -/

/-- The terminals routed to a channel's inputs in the epoch in effect (R51, R56). -/
def Hw.inTerms (h : Hw) (ch : Nat) : List Nat :=
  (termsOfClus (clusOfChan ch)).filter (fun t =>
    h.on (HRN_TERM_IN_EN t) && decide (8 * clusOfTerm t + h.get (HRN_TERM_IN_CH t) = ch))

/-- The channels with an input on a terminal. -/
def Hw.termChans (h : Hw) (t : Nat) : List Nat :=
  if h.on (HRN_TERM_IN_EN t) then [8 * clusOfTerm t + h.get (HRN_TERM_IN_CH t)] else []

/-- What feeds one input of a channel: its terminals (polarity 0 P, 1 N) and its internal source (R58). -/
def Hw.inputPath (h : Hw) (ch pol : Nat) : List Nat × Nat :=
  ((h.inTerms ch).filter (fun t => decide (h.get (HRN_TERM_IN_POL t) = pol)),
   if pol = 0 then h.get (HRN_CHIN_P_INT ch) else h.get (HRN_CHIN_N_INT ch))

/-- The bits of a route that are switches: all but burn-out and probing (R52, R56). -/
def routeSwitches (w : Word) : Word := w &&& 0xFFF

def Hw.ovState (h : Hw) (t : Nat) : Nat := storeGet (fun _ => 0) h.field.ov t
/-- Detector bits 0 OV_POS and 1 OV_NEG, bit 2 isolated. -/
def Hw.setOv (h : Hw) (t v : Nat) : Hw :=
  { h with field := { h.field with ov := storeSet (fun _ => 0) h.field.ov t v } }

/-- The terminal is isolated (R67). -/
def Hw.isolated (h : Hw) (t : Nat) : Bool := natBit (h.ovState t) 2

/-- An input terminal of the channel is isolated. -/
def Hw.chanIsolated (h : Hw) (ch : Nat) : Bool := (h.inTerms ch).any (fun t => h.isolated t)

/-- Route switches closed at a terminal. -/
def Hw.closedAt (h : Hw) (t : Nat) : Word := storeGet (fun _ => 0) h.field.closed t

def Hw.setClosed (h : Hw) (t : Nat) (w : Word) : Hw :=
  { h with field := { h.field with closed := storeSet (fun _ => 0) h.field.closed t w } }

def Hw.closedInAt (h : Hw) (ch : Nat) : Word := storeGet (fun _ => 0) h.field.closedIn ch

def Hw.setClosedIn (h : Hw) (ch : Nat) (w : Word) : Hw :=
  { h with field := { h.field with closedIn := storeSet (fun _ => 0) h.field.closedIn ch w } }

/-- The channel to whose input paths a unit's input switches are closed. -/
def Hw.inputsAt (h : Hw) (u : Nat) : Option Nat := storeGet (fun _ => none) h.field.inputs u

def Hw.setInputs (h : Hw) (u : Nat) (ch : Option Nat) : Hw :=
  { h with field := { h.field with inputs := storeSet (fun _ => none) h.field.inputs u ch } }

/-- The switches that a terminal is to have: none before the first commit, in SAFE or while isolated (R60, R62, R558,
R606); no input switch of a channel whose front end is disabled (R79). -/
def Hw.route (h : Hw) (t : Nat) : Word :=
  if h.running && !h.safe && !h.isolated t then
    let w := routeSwitches (h.reg (HRN_TERM t))
    if w.toNat.testBit 4 && !h.on (FE_CFG_EN (8 * clusOfTerm t + h.get (HRN_TERM_IN_CH t))) then w &&& 0xFE0 else w
  else 0

/-- Move the switches of a terminal to what they are to be. -/
def Hw.closeRoute (h : Hw) (t : Nat) : Hw := h.setClosed t (h.route t)

/-- A channel's input switches are to be closed: its front end is enabled, and the routes are in force (R79, R558). -/
def Hw.inputsOn (h : Hw) (ch : Nat) : Bool := h.running && !h.safe && h.on (FE_CFG_EN ch)

/-- The internal sources that a channel's inputs are to have (R53, R58, R79). -/
def Hw.internal (h : Hw) (ch : Nat) : Word := if h.inputsOn ch then h.reg (HRN_CHIN ch) else 0

/-- Internal sources, and the input switches of the unit that serves the channel, close like routes (R51, R53). -/
def Hw.closeInternal (h : Hw) (ch : Nat) : Hw :=
  (h.setClosedIn ch (h.internal ch)).setInputs (h.get (FE_STATUS_UNIT ch)) (if h.inputsOn ch then some ch else none)

/-- Move every switch to what it is to be. -/
def Hw.closeAll (h : Hw) : Hw :=
  (h.each (List.range nTerm) Hw.closeRoute).each (List.range nChan) Hw.closeInternal

/-! ### Settle windows -/

/-- Settle time of a setting in us, R91: MODE, RANGE, LOWPWR, COUPLE. -/
def settleUsOf (mode range : Nat) (low : Bool) (couple : Nat) : Nat :=
  let pick (n l : List Nat) := (if low then l else n).getD range 0
  let base :=
    if mode = 0 then pick [4, 4, 6, 10, 20, 50] [40, 40, 40, 50, 60, 120]
    else if mode = 1 then pick [4, 4, 10, 100, 2000] [40, 40, 50, 150, 2000]
    else if low then 60 else 30
  base + (if couple ≠ 0 then 5000 else 0)

/-- Settle time of a channel's setting, in ns. -/
def Hw.settleNs (h : Hw) (ch : Nat) : Nat :=
  1000 * settleUsOf (h.get (FE_CFG_MODE ch)) (h.get (FE_CFG_RANGE ch)) (h.on (FE_CFG_LOWPWR ch)) (h.get (FE_CFG_COUPLE ch))

/-- A front-end settle window from instant S (R92), joined to one that is open (R94). -/
def Hw.feWindow (h : Hw) (ch s : Nat) : Hw :=
  let e := s + (300 + h.settleNs ch) * nsUnit
  let old := storeGet (fun _ => 0) h.field.feEnd ch
  { h with field := { h.field with
      feEnd := storeSet (fun _ => 0) h.field.feEnd ch (max old e),
      feFirst := storeSet (fun _ => false) h.field.feFirst ch true } }

/-- The hold of a strobe at or after `s` falls in the window that starts at `s`, though the strobe came first at that
instant (R60, R61, R92). -/
def Hw.markHeld (h : Hw) (ch s : Nat) : Hw :=
  match storeGet (fun _ => none) h.smp.held ch with
  | some x =>
    if s ≤ x.instant then
      { h with
        smp := { h.smp with held := storeSet (fun _ => none) h.smp.held ch (some { x with settle := true }) }
        field := { h.field with feFirst := storeSet (fun _ => false) h.field.feFirst ch false } }
    else h
  | none => h

/-- A front-end window that starts at a frame boundary takes in the strobe of the boundary's instant. -/
def Hw.feWindowAt (h : Hw) (ch b : Nat) : Hw := (h.feWindow ch b).markHeld ch b

/-- An excitation window of a driver's linked channel from the switch instant X (R104). -/
def Hw.exWindow (h : Hw) (d x ch : Nat) : Hw :=
  let e := x + (300 + max (h.get (EXC_SET_XSETTLE d) * 10000) (h.settleNs ch)) * nsUnit
  let old := storeGet (fun _ => 0) h.field.exEnd ch
  { h with field := { h.field with
      exEnd := storeSet (fun _ => 0) h.field.exEnd ch (max old e),
      exFirst := storeSet (fun _ => false) h.field.exFirst ch true } }

/-- A strobe at instant t falls in the channel's front-end window. -/
def Hw.inFeWindow (h : Hw) (ch t : Nat) : Bool :=
  storeGet (fun _ => false) h.field.feFirst ch || decide (t < storeGet (fun _ => 0) h.field.feEnd ch)

/-- A strobe at instant t falls in the channel's excitation window. -/
def Hw.inExWindow (h : Hw) (ch t : Nat) : Bool :=
  storeGet (fun _ => false) h.field.exFirst ch || decide (t < storeGet (fun _ => 0) h.field.exEnd ch)

/-- A strobe of the channel has passed: the windows' first strobes have come. -/
def Hw.windowsStrobed (h : Hw) (ch : Nat) : Hw :=
  { h with field := { h.field with
      feFirst := storeSet (fun _ => false) h.field.feFirst ch false,
      exFirst := storeSet (fun _ => false) h.field.exFirst ch false } }

/-! ### Switches that move at a frame boundary (R60) -/

/-- The switches that are not as they are to be. -/
def Hw.unsettled (h : Hw) : List SwitchId :=
  ((List.range nTerm).filter (fun t => decide (h.closedAt t ≠ h.route t))).map SwitchId.term ++
  ((List.range nChan).filter (fun m => decide (h.closedInAt m ≠ h.internal m) ||
    decide ((h.inputsAt (h.get (FE_STATUS_UNIT m))).isSome ≠ h.inputsOn m))).map SwitchId.chan

/-- The switch groups of `old` that `new` keeps; a group that changes opens. Groups are given by their masks. -/
def keepGroups (masks : List Word) (old new : Word) : Word :=
  masks.foldl (fun w m => if old &&& m = new &&& m then w ||| (old &&& m) else w) 0

/-- Step 2 of R60: what the new routes open is opened. The groups of a terminal are IN, EXC, CMP and BIAS; those of a
channel are its P and its N source. -/
def Hw.openMoving (h : Hw) : SwitchId → Hw
  | .term t => h.setClosed t (keepGroups [0x1F, 0xE0, 0x300, 0xC00] (h.closedAt t) (h.route t))
  | .chan m =>
    let h1 := h.setClosedIn m (keepGroups [0x7, 0x70] (h.closedInAt m) (h.internal m))
    h1.when (!h1.inputsOn m) (fun h => h.setInputs (h.get (FE_STATUS_UNIT m)) none)

/-- Step 3 of R60: what the new routes close is closed. -/
def Hw.closeMoving (h : Hw) : SwitchId → Hw
  | .term t => h.closeRoute t
  | .chan m => h.closeInternal m

/-- At frame boundary `b` switches begin to move: they open, and 200 ns later they close. -/
def Hw.moveSwitches (h : Hw) (b : Nat) (l : List SwitchId) : Hw :=
  let h1 := h.each l Hw.openMoving
  { h1 with field := { h1.field with toMove := [], toClose := h1.field.toClose ++ l, closeAt := b + 200 * nsUnit } }

/-- The channels whose inputs a switch lies in. -/
def Hw.switchChans (h : Hw) : SwitchId → List Nat
  | .term t => h.termChans t
  | .chan m => [m]

/-- Switches that waited for this boundary move, and the settle windows of their channels start with it (R36, R60, R61). -/
def Hw.takeMoves (h : Hw) (b : Nat) : Hw :=
  let l := h.field.toMove
  if l.isEmpty then h else (h.each (l.flatMap h.switchChans) (fun h m => h.feWindowAt m b)).moveSwitches b l

/-- Network time reaches the closing of the moving switches, and of a relieving unit's inputs at B1 + 0.1 us (R105). -/
def Hw.switchTick (h : Hw) : Hw :=
  let h1 := h.when (!h.field.toClose.isEmpty && h.reached h.field.closeAt) (fun h =>
    let h2 := h.each h.field.toClose Hw.closeMoving
    { h2 with field := { h2.field with toClose := [] } })
  h1.each h1.field.relief (fun h q =>
    match q.2 with
    | some r => h.when (decide (r.phase = .overlap) && h.reached (r.b1 + 100 * nsUnit)) (fun h =>
        h.setInputs r.newUnit (if h.inputsOn r.ch then some r.ch else none))
    | none => h)

/-! ### The open-wire state -/

def Hw.openBits (h : Hw) (ch : Nat) : Nat := storeGet (fun _ => 0) h.field.openBy ch
/-- The channel is in the open-wire state (R74). -/
def Hw.isOpen (h : Hw) (ch : Nat) : Bool := decide (h.openBits ch ≠ 0)
def Hw.setOpenBits (h : Hw) (ch v : Nat) : Hw :=
  { h with field := { h.field with openBy := storeSet (fun _ => 0) h.field.openBy ch v } }

/-! ### Drivers -/

def Hw.drv (h : Hw) (d : Nat) : DriverSt := storeGet (fun _ => driver0) h.field.drivers d
def Hw.setDrv (h : Hw) (d : Nat) (x : DriverSt) : Hw :=
  { h with field := { h.field with drivers := storeSet (fun _ => driver0) h.field.drivers d x } }

/-- XLINK of the channel names the driver (R109). -/
def Hw.xlinks (h : Hw) (d ch : Nat) : Bool :=
  let x := h.get (FE_CFG_XLINK ch)
  decide (clusOfChan ch = clusOfDrv d) && (decide (x = 3) || decide (x = 1 + d % 2))

/-- The channels linked to a driver. -/
def Hw.linked (h : Hw) (d : Nat) : List Nat := (chansOfClus (clusOfDrv d)).filter (h.xlinks d)

/-- Excitation windows of every channel linked to a driver, from X. -/
def Hw.exWindows (h : Hw) (d x : Nat) : Hw := h.each (h.linked d) (fun h ch => h.exWindow d x ch)

/-- The polarity of a driver; a change is a polarity edge (R102, R190). -/
def Hw.setPol (h : Hw) (d v : Nat) : Hw :=
  (h.put (EXC_STATUS_POL d) v).when (decide (h.get (EXC_STATUS_POL d) ≠ v)) (fun h =>
    h.setDrv d { h.drv d with edges := (h.drv d).edges + 1 })

/-- The driver's output goes to zero at once (R557, R558, R100), and its excitation windows start (R104): those of a driver
that was driven, that waited for its chop start or that a reversal held at zero. -/
def Hw.zeroDriver (h : Hw) (d : Nat) : Hw :=
  let was := (h.drv d).on || (h.drv d).chopWait || (h.drv d).revHold
  let h1 := h.setDrv d { h.drv d with on := false, chopWait := false }
  (h1.setPol d 0).when was (fun h => h.exWindows d h.time.now)

/-! ### The objects that a raise names (R554) -/

/-- The source channel of a channel stream in the epoch in effect (R219, R255); an auxiliary stream has none. -/
def Hw.streamChan (h : Hw) (s : Nat) : Option Nat := storeGet (fun _ => none) h.str.sources s

/-- The channels that a raise of source `i` with INFO `info` names. -/
def Hw.objChans (h : Hw) (i info : Nat) : List Nat :=
  let ofTerm (t : Nat) := h.termChans t
  let ofDrv (d : Nat) := if d = 0x7F then (List.range nChan).filter (fun m => h.on (FE_CFG_XLINK m)) else h.linked d
  let ofStream (s : Nat) := (h.streamChan s).toList
  if i = srcTermOvervolt then ofTerm (natBits info 9 0)
  else if i = srcTermOpen ∨ i = srcFeSaturation then [natBits info 8 0]
  else if i = srcExcOvercurrent ∨ i = srcExcReversed then ofDrv (natBits info 6 0)
  else if i = srcHarnessConflict then
    match natBits info 11 10 with
    | 0 => ofTerm (natBits info 9 0)
    | 1 => [natBits info 9 0]
    | _ => ofDrv (natBits info 9 0)
  else if i = srcFilterOverflow ∨ i = srcStreamGap ∨ i = srcDmaWrapOverrun then ofStream (natBits info 8 0)
  else List.range nChan

/-- The drivers that a raise of source `i` with INFO `info` names: both of the cluster of its terminal, channel or
driver, and every driver otherwise. -/
def objDrivers (i info : Nat) : List Nat :=
  let ofClus (k : Nat) := [2 * k, 2 * k + 1]
  let ofDrv (d : Nat) := if d = 0x7F then List.range nDrv else ofClus (clusOfDrv d)
  if i = srcTermOvervolt then ofClus (clusOfTerm (natBits info 9 0))
  else if i = srcTermOpen ∨ i = srcFeSaturation then ofClus (clusOfChan (natBits info 8 0))
  else if i = srcExcOvercurrent ∨ i = srcExcReversed then ofDrv (natBits info 6 0)
  else if i = srcHarnessConflict then
    match natBits info 11 10 with
    | 0 => ofClus (clusOfTerm (natBits info 9 0))
    | 1 => ofClus (clusOfChan (natBits info 9 0))
    | _ => ofDrv (natBits info 9 0)
  else List.range nDrv

/-- The reactions in force, with those whose end waits for a frame boundary (R557): source, reaction and objects. -/
def Hw.reactions (h : Hw) : List (Nat × Nat × List Nat) :=
  (h.flt.inForce.filterMap (fun p =>
    match p.2 with
    | some r => some (p.1, r, storeGet (fun _ => []) h.flt.objects p.1)
    | none => none)) ++ h.flt.ending

/-- The channel is parked (R554, R557, R558). -/
def Hw.parked (h : Hw) (ch : Nat) : Bool :=
  h.safe || h.reactions.any (fun r => decide (r.2.1 = 1) && r.2.2.any (fun o => (h.objChans r.1 o).contains ch))

/-- The driver is stopped by a reaction (R554, R557). -/
def Hw.stopped (h : Hw) (d : Nat) : Bool :=
  h.reactions.any (fun r => decide (r.2.1 = 2) && r.2.2.any (fun o => (objDrivers r.1 o).contains d))

/-- The driver's output is held at zero by a reaction, by SAFE or after a reversal; FAULT_OFF shows it (R116). -/
def Hw.faultOff (h : Hw) (d : Nat) : Bool := h.safe || h.stopped d || (h.drv d).revHold

/-- Write FAULT_OFF of every driver of a list. -/
def Hw.showFaultOff (h : Hw) (ds : List Nat) : Hw :=
  h.each ds (fun h d => h.put (EXC_STATUS_FAULT_OFF d) (b2n (h.faultOff d)))

/-- The first frame boundary at or after time `t` of a schedule (R118). -/
def boundaryFrom (per ph t : Nat) : Nat :=
  t + ((((ph * nsUnit : Nat) : Int) - (t : Int)) % ((per * nsUnit : Nat) : Int)).toNat

/-- The first frame boundary at or after `t`: of the schedule in effect, or of the one that takes over (R130), in whose
transition frame no boundary falls. -/
def Hw.boundaryFrom (h : Hw) (t : Nat) : Nat :=
  match h.smp.nextSched with
  | some (f, per, ph) =>
    if h.smp.lastBoundary.any (fun l => decide (t ≤ l)) then Machine.boundaryFrom h.smp.per h.smp.ph t
    else if t ≤ f then f
    else Machine.boundaryFrom per ph t
  | none => Machine.boundaryFrom h.smp.per h.smp.ph t

/-- The first frame boundary after `t`. -/
def Hw.boundaryAfter (h : Hw) (t : Nat) : Nat := h.boundaryFrom (t + 1)

def Hw.grp (h : Hw) (g : Nat) : GroupSt := storeGet (fun _ => group0) h.smp.groups g
def Hw.setGrp (h : Hw) (g : Nat) (x : GroupSt) : Hw :=
  { h with smp := { h.smp with groups := storeSet (fun _ => group0) h.smp.groups g x } }

/-- Frames of a group since its last synchronising reset (R102): a reset that falls in the present frame counts from
the boundary that started it (R128). -/
def Hw.chopCount (h : Hw) (g : Nat) : Nat :=
  let x := h.grp g
  match x.resetAt, h.smp.lastBoundary with
  | some i, some b => if i < h.boundaryAfter b then 0 else x.chopN
  | _, _ => x.chopN

/-- The frame boundary that acts now: one that has been reached in the present tick interval. -/
def Hw.boundaryNow (h : Hw) : Option Nat :=
  match h.smp.lastBoundary with
  | some b => if h.time.now ≤ b ∧ h.reached b then some b else none
  | none => none

end Sys2Proof.Machine
end

