-- ==== Sys2Proof/Machine/LineCode.lean ====
section
/-!
DEFINITION. Line coding of the Halyard ports (R387 to R395): symbols and precoding, the scrambler, blocks, idle and
training patterns, per-lane marker blocks, striping, a lane's receiver, and the bytes of a frame on the wire (R421 to R423).
-/
namespace Sys2Proof.Machine

/-! ### Symbols (R387) -/

/-- The Gray map of a pair of bits, the first sent first, and its inverse. -/
def gray (b1 b0 : Bool) : Nat :=
  match b1, b0 with
  | false, false => 0
  | false, true => 1
  | true, true => 2
  | true, false => 3

def ungray (g : Nat) : Bool × Bool :=
  match g with
  | 0 => (false, false)
  | 1 => (false, true)
  | 2 => (true, true)
  | _ => (true, false)

/-- The precoder's next value, and what the receiver recovers. -/
def precode (g prev : Nat) : Nat := (g + 4 - prev) % 4
def unprecode (p prev : Nat) : Nat := (p + prev) % 4

/-- The level sent. -/
def level (p : Nat) : Int := 2 * (p : Int) - 3

/-- One bit of the lane's stream: it waits for its partner, or both make a symbol. -/
def Lane.bit (x : Lane) (b : Bool) : Lane :=
  match x.half with
  | none => { x with half := some b }
  | some b1 =>
    let p := precode (gray b1 b) x.prec
    { x with half := none, prec := p, sent := x.sent ++ [level p] }

/-! ### The scrambler (R390) -/

/-- Bits s(n-39) and s(n-58), exclusive or. -/
def taps (scr : Nat) : Bool := xor (natBit scr 38) (natBit scr 57)

/-- One body bit, scrambled and sent. -/
def Lane.scrambled (x : Lane) (d : Bool) : Lane :=
  let s := xor d (taps x.scr)
  { x with scr := (2 * x.scr + b2n s) % 2 ^ 58 }.bit s

/-- A scrambled bit chosen by the transmitter (R393). -/
def Lane.chosen (x : Lane) (s : Bool) : Lane := { x with scr := (2 * x.scr + b2n s) % 2 ^ 58 }.bit s

/-- The descrambler: the bit that a scrambled bit stands for, and its state after it. -/
def descramble (scr : Nat) (s : Bool) : Bool × Nat := (xor s (taps scr), (2 * scr + b2n s) % 2 ^ 58)

/-! ### Blocks (R389, R391) -/

/-- Body bits in sending order. -/
def bodyBits (body : List Byte) : List Bool := body.flatMap (fun b => (List.range 8).map (natBit b.toNat))

/-- Send a block on the lane: the header bit, then the scrambled body. -/
def Lane.sendBlock (x : Lane) (control : Bool) (body : List Byte) : Lane :=
  (bodyBits body).foldl Lane.scrambled ({ x with sent := [] }.bit control)

/-- The training levels T(j mod 8), R393. -/
def richLevel (j : Nat) : Int := [3, -3, 1, -1, -3, 3, -1, 1].getD (j % 8) 0

/-- A symbol whose level is the j-th of the pattern. -/
def Lane.richSymbol (x : Lane) (j : Nat) : Lane :=
  let p := ((richLevel j + 3) / 2).toNat
  let b := ungray ((p + x.prec) % 4)
  (x.chosen b.1).chosen b.2

/-- Send a RICH_IDLE block (R393). Body bits from 16 on that share a symbol with a bit before bit 16 or outside the block
are 0. -/
def Lane.sendRich (x : Lane) : Lane :=
  let head := (bodyBits [0x0E, 0x00]).foldl Lane.scrambled ({ x with sent := [] }.bit true)
  match head.half with
  | some _ => ((List.range 119).foldl Lane.richSymbol (head.scrambled false)).scrambled false
  | none => (List.range 120).foldl Lane.richSymbol head

/-! ### Frames on the wire (R392, R421 to R423) -/

/-- Header bytes 0 to 13. -/
def Frame.head14 (f : Frame) : List Byte :=
  [BitVec.ofNat 8 f.ty, BitVec.ofNat 8 (32 * f.cls + 16 * b2n f.rsp + 8 * b2n f.sr + 4 * b2n f.flg)] ++ beBytes 2 f.src ++
  beBytes 2 f.dst ++ beBytes 4 f.seq ++ beBytes 2 f.payload.length ++ beBytes 2 f.epoch

/-- The whole header with HOPS and HCHK. -/
def headWith (head14 : List Byte) (hops : Nat) : List Byte :=
  let h := head14 ++ [BitVec.ofNat 8 hops]
  h ++ [BitVec.ofNat 8 (crc8Bytes h)]

def Frame.header (f : Frame) : List Byte := headWith f.head14 f.hops

/-- The trailer: CRC-32C over header bytes 0 to 13 and the payload, most significant byte first. -/
def Frame.trailer (f : Frame) : List Byte := beBytes 4 (crc32c (f.head14 ++ f.payload))

def Frame.bytes (f : Frame) : List Byte := f.header ++ f.payload ++ f.trailer

/-- The frame that header bytes spell, with a payload. -/
def frameOf (hdr payload : List Byte) : Frame :=
  { ty := beAt hdr 0 1, cls := natBits (beAt hdr 1 1) 7 5, rsp := natBit (beAt hdr 1 1) 4, sr := natBit (beAt hdr 1 1) 3,
    flg := natBit (beAt hdr 1 1) 2, src := beAt hdr 2 2, dst := beAt hdr 4 2, seq := beAt hdr 6 4, epoch := beAt hdr 12 2,
    hops := beAt hdr 14 1, payload := payload }

/-- LEN of a header. -/
def lenOf (hdr : List Byte) : Nat := beAt hdr 10 2 % 8192

/-- Chunks of 32 bytes, the last padded with zeros. -/
def dataBodies : Nat → List Byte → List (List Byte)
  | 0, _ => []
  | fuel + 1, l => if l.isEmpty then [] else (l.take 32 ++ zeros (32 - (l.take 32).length)) :: dataBodies fuel (l.drop 32)

/-- The blocks of a frame's bytes: control or data, and body. -/
def frameBlocks (bytes : List Byte) : List (Bool × List Byte) :=
  let sof := [0x1E, 0x00] ++ bytes.take 30
  (true, sof ++ zeros (32 - sof.length)) :: (dataBodies 200 (bytes.drop 30)).map (fun b => (false, b))

/-- ABORT (R391). -/
def abortBlock : Bool × List Byte := (true, [0x2D] ++ zeros 31)

/-! ### Lanes and slots (R389, R394, R395) -/

/-- The lanes of a mask in ascending order. -/
def lanesOf (mask : Nat) : List Nat := indices 4 (fun l => natBit mask l)

/-- The lanes on which a port stripes: ACTIVE in UP, none before. -/
def Hw.txLanes (h : Hw) (p : Port) : List Nat :=
  if h.get (LNK_STATUS_STATE (portNo p)) = 4 then lanesOf (h.get (LNK_STATUS_ACTIVE (portNo p))) else []

/-- Data lanes that a port drives outside the stripe: with the training pattern (R397, R408). -/
def Hw.outLanes (h : Hw) (p : Port) : List Nat := [0, 1, 2, 3].filter (fun l => !(h.txLanes p).contains l)

/-- Where the next striped block stands in its slot: 0 begins one. -/
def Hw.inSlot (h : Hw) (p : Port) : Nat := ((h.port p).block - (h.port p).b0) % (h.txLanes p).length

/-- The lane that carries the next striped block. -/
def Hw.nextLane (h : Hw) (p : Port) : Nat := (h.txLanes p).getD (h.inSlot p) 0

/-- A lane slot is taken: 257 bits at 25 Gbit/s, 10.28 ns. -/
def Hw.nextSlot (h : Hw) (p : Port) : Hw :=
  h.setPort p { h.port p with slot := (h.port p).slot + 1, slotAt := (h.port p).slotAt + 1028 }

/-! ### Marker blocks (R394) -/

abbrev ctypeIdle : Nat := 0x00
abbrev ctypeRich : Nat := 0x0E
abbrev ctypeSof : Nat := 0x1E
abbrev ctypeAm : Nat := 0x4B
abbrev ctypeWidth : Nat := 0x55
abbrev ctypeSleep : Nat := 0x66

/-- PATTERN of an AM. -/
def amPattern : List Byte := [0x5A, 0xC3, 0x96, 0x3C, 0x5A, 0xC3, 0x96, 0x3C, 0x5A, 0xC3, 0x96, 0x3C, 0x5A, 0xC3, 0x96, 0x3C]

/-- STRIPE: the number of the next striped block on a lane; 0 on a lane that carries none. -/
def Hw.stripeOf (h : Hw) (p : Port) (lane : Nat) : Nat :=
  let ls := h.txLanes p
  match ls.findIdx? (fun l => decide (l = lane)) with
  | some i => (h.port p).block + (i + ls.length - h.inSlot p) % ls.length
  | none => 0

/-- The body of an AM, WIDTH or SLEEP block for a lane. -/
def Hw.markerBody (h : Hw) (p : Port) (ctype kind lane : Nat) : List Byte :=
  let n := portNo p
  let am := decide (ctype = ctypeAm)
  let active := h.get (LNK_STATUS_ACTIVE n)
  let stripe := if am && decide (kind ≠ 3) then h.stripeOf p lane else 0
  [BitVec.ofNat 8 ctype, BitVec.ofNat 8 (64 * kind + 4 * lane), BitVec.ofNat 8 (16 * active + popCount 4 active),
   BitVec.ofNat 8 (16 * h.get (LNK_STATUS_MY_RECAL n) + h.get (LNK_STATUS_HEALTHY n)),
   BitVec.ofNat 8 (32 * h.get (LNK_STATUS_STATE n)), 0, 0, 0] ++ beBytes 4 stripe ++ beBytes 4 (h.lane p lane).mcount ++
  (if am then amPattern else zeros 16)

/-- Send a per-lane block on one lane. -/
def Hw.markLane (h : Hw) (p : Port) (ctype kind l : Nat) : Hw :=
  let x := (h.lane p l).sendBlock true (h.markerBody p ctype kind l)
  h.setLane p l { x with mcount := (x.mcount + 1) % 2 ^ 32 }

/-! ### What fills the lanes (R391, R394, R397, R408, R412) -/

/-- The training pattern on a lane in the present slot: RICH_IDLE blocks with a training AM in every 1,024th slot. -/
def Hw.trainLane (h : Hw) (p : Port) (l : Nat) : Hw :=
  if (h.port p).slot % 1024 = 0 then h.markLane p ctypeAm 3 l else h.setLane p l (h.lane p l).sendRich

/-- The slot of the next striped blocks begins: in every 16,384th slot a regular AM goes first on every striped lane, and the
other lanes carry the training pattern. -/
def Hw.openSlot (h : Hw) (p : Port) : Hw :=
  let out (h : Hw) : Hw := (h.each (h.outLanes p) (fun h l => h.trainLane p l)).nextSlot p
  out (h.when (decide ((h.port p).slot % 16384 = 0)) (fun h => out (h.each (h.txLanes p) (fun h l => h.markLane p ctypeAm 0 l))))

/-- One block in the stripe. -/
def Hw.sendBlock (h : Hw) (p : Port) (b : Bool × List Byte) : Hw :=
  let g := h.when (decide (h.inSlot p = 0)) (fun h => h.openSlot p)
  let l := g.nextLane p
  let g1 := g.setLane p l ((g.lane p l).sendBlock b.1 b.2)
  g1.setPort p { g1.port p with block := (g1.port p).block + 1 }

/-- One idle block in the stripe: RICH_IDLE as often on its lane as RICH_EVERY says, the first of every 2^n (log 197). -/
def Hw.sendIdle (h : Hw) (p : Port) : Hw :=
  let g := h.when (decide (h.inSlot p = 0)) (fun h => h.openSlot p)
  let l := g.nextLane p
  let x := g.lane p l
  let n := g.get (LNK_CTL_RICH_EVERY (portNo p))
  let y := if n < 15 ∧ x.idles % 2 ^ n = 0 then x.sendRich else x.sendBlock true (zeros 32)
  let g1 := g.setLane p l { y with idles := x.idles + 1 }
  g1.setPort p { g1.port p with block := (g1.port p).block + 1 }

/-- Idle blocks complete the slot that striped blocks have begun. -/
def Hw.padSlot (h : Hw) (p : Port) : Hw :=
  let w := (h.txLanes p).length
  h.each (List.range ((w - h.inSlot p) % w)) (fun h _ => h.sendIdle p)

/-- What the lanes carry in one slot in which nothing is sent. -/
def Hw.fillSlot (h : Hw) (p : Port) : Hw :=
  let w := (h.txLanes p).length
  if w = 0 then (h.each (h.outLanes p) (fun h l => h.trainLane p l)).nextSlot p
  else h.each (List.range w) (fun h _ => h.sendIdle p)

/-- Slots that have begun and are not filled. -/
def Hw.slotsDue (h : Hw) (p : Port) : Nat := (100 * h.ns + 1027 - (h.port p).slotAt) / 1028

/-- The lanes of a port are made up to the present (DESIGN CHOICE, log 110: at the next command that sends on the port or
changes what its lanes carry): idle blocks and markers in UP, the training pattern before, and on lanes that the partner
recalibrates while the others sleep (R403). In DOWN, and asleep, nothing is sent. -/
def Hw.fillLanes (h : Hw) (p : Port) : Hw :=
  let n := portNo p
  if h.get (LNK_STATUS_STATE n) = 0 then h
  else if h.on (LNK_STATUS_TX_ASLEEP n) then
    let lanes := lanesOf (h.port p).nap
    if lanes.isEmpty then h
    else h.each (List.range (h.slotsDue p)) (fun h _ => (h.each lanes (fun h l => h.trainLane p l)).nextSlot p)
  else
    let k := h.slotsDue p
    if k = 0 then h
    else
      let g := h.padSlot p
      g.each (List.range (g.slotsDue p)) (fun h _ => h.fillSlot p)

/-- Send blocks in the stripe over the active lanes, after what has filled them up to now. -/
def Hw.sendStriped (h : Hw) (p : Port) (bs : List (Bool × List Byte)) : Hw :=
  (h.fillLanes p).each bs (fun h b => h.sendBlock p b)

/-- Send a per-lane block on every lane that the port drives, all in one slot. -/
def Hw.sendMarker (h : Hw) (p : Port) (ctype kind : Nat) : Hw :=
  (((h.fillLanes p).padSlot p).each [0, 1, 2, 3] (fun h l => h.markLane p ctype kind l)).nextSlot p

/-! ### Reception on a lane (R387, R389, R390) -/

/-- The bits that received levels stand for: the inverse Gray map of g(n) = (p(n) + p(n-1)) mod 4. Answers the last p too. -/
def lineBits : Nat → List Int → Nat × List Bool
  | p, [] => (p, [])
  | p, v :: t =>
    let q := ((v + 3) / 2).toNat % 4
    let b := ungray (unprecode q p)
    let r := lineBits q t
    (r.1, b.1 :: b.2 :: r.2)

/-- Descramble body bits: the state after them, and the bits. -/
def descrambled : Nat → List Bool → Nat × List Bool
  | scr, [] => (scr, [])
  | scr, s :: t =>
    let d := descramble scr s
    let r := descrambled d.2 t
    (r.1, d.1 :: r.2)

/-- Cut bits into blocks of 257; the rest belongs to the block that is still coming in. -/
def cutBlocks : Nat → List Bool → List (List Bool) × List Bool
  | 0, l => ([], l)
  | n + 1, l => ((cutBlocks n (l.drop 257)).map (l.take 257 :: ·) id)

/-- Bytes of body bits, bit 0 of each byte first. -/
def bitsBytes : Nat → List Bool → List Byte
  | 0, _ => []
  | n + 1, l => BitVec.ofNat 8 ((l.take 8).foldr (fun b v => b2n b + 2 * v) 0) :: bitsBytes n (l.drop 8)

/-- A lane's receiver takes levels: the blocks that are complete with them, as control or data and body. -/
def Lane.receive (x : Lane) (lv : List Int) : Lane × List (Bool × List Byte) :=
  let r := lineBits x.rprec lv
  let bits := x.rbits ++ r.2
  let c := cutBlocks (bits.length / 257) bits
  let z := c.1.foldl (fun (q : Nat × List (Bool × List Byte)) b =>
    let d := descrambled q.1 (b.drop 1)
    (d.1, q.2 ++ [(b.headD false, bitsBytes 32 d.2)])) (x.rscr, [])
  ({ x with rprec := r.1, rbits := c.2, rscr := z.1 }, z.2)

/-- The reference level of a received symbol (R401): the k-th of those received after `pend` bits of a block. In the body of a
data block it is the decided level; among the symbols of a RICH_IDLE block made only of body bits 16 to 255, the
level T(j mod 8) that they are compared with (R393). Other symbols are not qualified. -/
def symRef (pend : Nat) (bs : List (Bool × List Byte)) (k : Nat) (v : Int) : Option Int :=
  let a := pend + 2 * k
  let j := a % 257
  match bs[a / 257]? with
  | some b =>
    if j = 0 ∨ j = 256 then none
    else if b.1 = false then some v
    else if beAt b.2 0 1 = ctypeRich ∧ 17 ≤ j then some (richLevel ((j - 17) / 2))
    else none
  | none => none

/-! ### Markers received (R394) -/

/-- The fields of a marker block. -/
structure Marker where
  ctype : Nat
  kind : Nat
  lane : Nat
  active : Nat
  recal : Nat
  healthy : Nat
  state : Nat
  stripe : Nat
  deriving DecidableEq, Repr

def markerOf (b : List Byte) : Marker :=
  { ctype := beAt b 0 1, kind := natBits (beAt b 1 1) 7 6, lane := natBits (beAt b 1 1) 3 2, active := natBits (beAt b 2 1) 7 4,
    recal := natBits (beAt b 3 1) 7 4, healthy := natBits (beAt b 3 1) 3 0, state := natBits (beAt b 4 1) 7 5, stripe := beAt b 8 4 }

/-- The slot in which an AM arrives is one in which its kind is expected: a training AM in a 1,024th slot from the AM that
fixed the slots, a regular one in a 16,384th from a regular one, and in a 1,024th from a training one. The first AM fixes
them, and an immediate or wake AM may come in any. -/
def slotGood (kind : Nat) : Option (Nat × Bool) → Bool
  | none => true
  | some (n, regular) =>
    match kind with
    | 0 => decide (n % (if regular then 16384 else 1024) = 0)
    | 3 => decide (n % 1024 = 0)
    | _ => true

/-- A marker is good: its fields are consistent with each other and with the lane that received it, reserved bits and PATTERN
are exact, and it arrives in a slot at which it is expected. MCOUNT is not judged: DEDUCED (log 196), since markers may be
lost before it. -/
def Marker.good (m : Marker) (b : List Byte) (l : Nat) (slot : Option (Nat × Bool)) : Bool :=
  let am := decide (m.ctype = ctypeAm)
  decide (beAt b 1 1 = 64 * m.kind + 4 * l) && decide (beAt b 2 1 = 16 * m.active + popCount 4 m.active) &&
  decide (beAt b 4 1 = 32 * m.state ∧ m.state ≤ 4) && decide (beAt b 5 3 = 0) &&
  decide (slice b 16 16 = if am then amPattern else zeros 16) && (am || decide (m.kind = 0)) &&
  (decide (m.stripe = 0) || (am && decide (m.kind ≠ 3))) && (!am || slotGood m.kind slot)

/-- A block of the stripe as a lane received it. -/
structure RxBlock where
  lane : Nat
  number : Nat
  control : Bool
  body : List Byte
  deriving DecidableEq, Repr

/-- What a lane's receiver has made of its blocks: the lane, its striped blocks, its good markers, how many AMs were missing
or not good, and the lanes on which the partner stripes now. -/
structure Ear where
  lane : Lane
  striped : List RxBlock
  marks : List Marker
  bad : Nat
  set : Nat
  deriving DecidableEq, Repr

/-- An AM is expected in the slot. -/
def amDue (striped : Bool) : Option (Nat × Bool) → Bool
  | none => false
  | some (n, regular) => if striped then regular && decide (n % 16384 = 0) else decide (n % 1024 = 0)

/-- The next block that a lane receives; `next` is the symbol with which the block after it begins. -/
def Ear.block (l : Nat) (qual : Bool) (next : Nat) (e : Ear) (b : Bool × List Byte) : Ear :=
  let x0 := e.lane
  let slot := x0.rslot.map (fun q => (q.1 + 1, q.2))
  let feeds := qual && decide (x0.quiet < next) && (!b.1 || decide (beAt b.2 0 1 = ctypeRich))
  let x := { x0 with rslot := slot, blank := if feeds then 0 else x0.blank + 1 }
  let m := markerOf b.2
  let inSet := natBit e.set l
  if b.1 && ([ctypeAm, ctypeWidth, ctypeSleep] : List Nat).contains m.ctype then
    if m.good b.2 l slot = false then { e with lane := { x with badAms := x.badAms + 1 }, bad := e.bad + 1 }
    else if m.ctype = ctypeAm then
      let slot1 := if m.kind = 0 then some (0, true) else if m.kind = 3 then some (slot.filter (fun q => q.2) |>.getD (0, false)) else slot
      { e with
        lane := { x with badAms := 0, rslot := slot1, rstripe := if m.kind = 3 then x.rstripe else m.stripe,
                         quiet := if m.kind = 1 then next + 64 else x.quiet }
        marks := e.marks ++ [m], set := if m.kind = 1 ∨ m.kind = 2 then m.active else e.set }
    else { e with lane := x, marks := e.marks ++ [m] }
  else
    let miss := b2n (amDue inSet slot)
    let y := { x with badAms := x.badAms + miss }
    if inSet then
      { e with lane := { y with rstripe := (y.rstripe + popCount 4 e.set) % 2 ^ 32 }, bad := e.bad + miss
               striped := e.striped ++ [{ lane := l, number := y.rstripe, control := b.1, body := b.2 }] }
    else { e with lane := y, bad := e.bad + miss }

/-- A lane's receiver takes levels; `qual`: the lane is active. Answers what it made of them, and the reference level of
each qualified symbol (R401). -/
def Lane.listen (x : Lane) (l set : Nat) (qual : Bool) (lv : List Int) : Ear × List (Option Int) :=
  let r := x.receive lv
  let pend := x.rbits.length
  let e := r.2.zipIdx.foldl (fun e b => e.block l qual ((257 * (b.2 + 1) + 1 - pend) / 2) b.1)
    ({ lane := r.1, striped := [], marks := [], bad := 0, set := set } : Ear)
  let q := e.lane.quiet
  let refs := lv.zipIdx.map (fun v => if qual && decide (x.quiet ≤ v.2) && !(decide (x.quiet < q ∧ v.2 < q ∧ q ≤ v.2 + 64)) then symRef pend r.2 v.2 v.1 else none)
  ({ e with lane := { e.lane with quiet := q - lv.length } }, refs)

/-- Blocks in the order of their stripe numbers, modulo 2^32 (R395). -/
def stripeInsert (b : RxBlock) : List RxBlock → List RxBlock
  | [] => [b]
  | c :: t => if (c.number + 2 ^ 32 - b.number) % 2 ^ 32 < 2 ^ 31 then b :: c :: t else c :: stripeInsert b t
def stripeOrder (l : List RxBlock) : List RxBlock := l.foldr stripeInsert []

end Sys2Proof.Machine
end

