-- ==== Sys2Proof/Machine/Raise.lean ====
section
/-!
DEFINITION. The fault collector's shared operations (chapter 18): raising a source with everything that follows from it
(R552-R563), reactions (R554, R555), SAFE (R558), recorder triggers (R565), and the egress queue's acceptance (R449).
-/
namespace Sys2Proof.Machine

/-! ### The fault map and status -/

/-- A bit of the two status words, and of the two cause words (R581). -/
def statusBit (i : Nat) : Fld := ⟨FLT_STATUS (i / 32), i % 32, i % 32⟩
def causeBit (i : Nat) : Fld := ⟨FLT_CAUSE (i / 32), i % 32, i % 32⟩

def isLevel (i : Nat) : Bool := levelSources.contains i

/-- The source's cause is present. -/
def Hw.present (h : Hw) (i : Nat) : Bool := h.on (causeBit i)

/-- The cause of a level source is no longer present (R552). -/
def Hw.causeEnd (h : Hw) (i : Nat) : Hw := h.put (causeBit i) 0

def Hw.quality (h : Hw) : Nat := h.get TIM_STATUS_QUALITY

/-! ### Recorder triggers (R565, R566) -/

/-- A recorder trigger crosses to AON; it is taken up where REC_CTL.EN = 1 and its crossing accepts it. It wakes a CORE
that sleeps, which assembles the record (R28, R566). -/
def Hw.recTriggerAt (h : Hw) (code : Nat) (words : Option (List Word)) : Hw :=
  if h.on REC_CTL_EN then
    let t : RecTrig := { code := code, time := h.time.now, tq := h.quality, opsec := h.opsec,
                         woke := !h.coreOn, words := words, epoch := h.get SYS_EPOCH_EPOCH }
    let ok := h.xingTakes 0
    (h.xingReq 0).when ok (fun h => ({ h with recd := { h.recd with atCrossing := h.recd.atCrossing ++ [t] } } : Hw).wake .core)
  else h

/-! ### FAULT_N (R561) -/

/-- Minimum width of FAULT_N in ns (R582). -/
def Hw.minw (h : Hw) : Nat := 1000 * max 1 (min 1000 (h.get FLT_PIN_MINW_US))

/-- A FAULT- or CRITICAL-class status bit is set. -/
def Hw.hardStatus (h : Hw) : Bool :=
  (List.range 64).any (fun i => h.on (statusBit i) && decide (2 ≤ h.get (FLT_MAP_CLASS i)))

/-- FAULT_N is driven low (R561). -/
def Hw.faultNLow (h : Hw) : Bool :=
  h.flt.faultNBoot || h.flt.faultNUntil.isSome || h.hardStatus

/-- FAULT_N is driven low for a new minimum width. -/
def Hw.pullFaultN (h : Hw) : Hw :=
  let e := h.ns + h.minw
  let e := match h.flt.faultNUntil with
    | some x => max x e
    | none => e
  { h with flt := { h.flt with faultNUntil := some e } }

/-! ### Burgee causes -/

def Hw.unitSt (h : Hw) (n : Nat) : UnitSt := storeGet (fun _ => unit0) h.trg.units n
def Hw.setUnit (h : Hw) (n : Nat) (u : UnitSt) : Hw :=
  { h with trg := { h.trg with units := storeSet (fun _ => unit0) h.trg.units n u } }

/-- The unit is armed in the epoch in effect (R284). -/
def Hw.armed (h : Hw) (n : Nat) : Bool := natBit (h.get TRG_CTL_ARM) n

/-- Where causes stand among those that wait: samples are decided on 4 CORE cycles after they reach the unit, so what reaches
it later in the same AON tick is decided on before them: DESIGN CHOICE (log 94), since the model times CORE cycles by ticks. -/
def queueBatch (b : TrgBatch) : List TrgBatch → List TrgBatch
  | [] => [b]
  | x :: t => if !b.late && x.late && decide (x.ns = b.ns) then b :: x :: t else x :: queueBatch b t

/-- Causes that arrive while CORE sleeps are all decided on in the first CORE cycle after the wake (R291). -/
def holdBatch (b : TrgBatch) : List TrgBatch → List TrgBatch
  | [] => [b]
  | x :: t => { x with causes := x.causes ++ b.causes } :: t

/-- Causes of one CORE cycle reach a unit, if it is armed and not stopped (R284, R294). -/
def Hw.unitCauses (h : Hw) (n : Nat) (late : Bool) (cs : List TrgCause) : Hw :=
  if h.armed n && !h.on (TRG_STAT_STOPPED n) then
    let b : TrgBatch := { ns := h.ns, late := late, causes := cs }
    let u := h.unitSt n
    h.setUnit n { u with causes := if h.coreOn then queueBatch b u.causes else holdBatch b u.causes }
  else h

/-- A cause that is no sample reaches a unit. -/
def Hw.unitCause (h : Hw) (n : Nat) (c : TrgCause) : Hw := h.unitCauses n false [c]

/-- Such a cause reaches every armed unit. -/
def Hw.unitsCause (h : Hw) (c : TrgCause) : Hw := h.each (List.range 16) (fun h n => h.unitCause n c)

/-! ### The two reporting queues (R452, R453, R563) -/

/-- An item is written to the EVQ; answers whether it was lost to a full queue. -/
def Hw.evqWrite (h : Hw) (cls i info : Nat) : Hw × Bool :=
  if h.net.evq.length < 256 then
    ({ h with net := { h.net with evq := h.net.evq ++ [⟨cls, i, info⟩] } }, false)
  else (h.put FLT_EVQ_STAT_OVERRUN 1, true)

def Hw.eventItem (h : Hw) (e : EventItem) : Hw := { h with net := { h.net with events := h.net.events ++ [(e, h.get SYS_EPOCH_EPOCH)] } }

/-! ### Port health and ports leaving UP (R405, R466, R473) -/

/-- A port's cause: 0 healthy, else the lowest condition present (R466). -/
def Hw.portCause (h : Hw) (p : Port) : Nat :=
  let n := portNo p
  if h.present (srcPortClockLaneLoss n) then 1
  else if h.get (LNK_STATUS_STATE n) ≠ 4 then 2
  else if h.get (LNK_STATUS_WIDTH n) < h.get (LNK_CTL_MIN_WIDTH n) then 3
  else if (h.port p).crcRate then 4
  else 0

/-- The preferred port, and the port that FORCE names (R476, R478). -/
def Hw.prefPort (h : Hw) : Port := if h.on LNK_PORT_CTL_PREF then .b else .a
def Hw.forcedPort (h : Hw) : Option Port :=
  match h.get LNK_PORT_CTL_FORCE with
  | 1 => some .a
  | 2 => some .b
  | _ => none

/-- FORCE decides control: it names a port that is in UP with its clock (R476). -/
def Hw.forcing (h : Hw) : Option Port :=
  match h.forcedPort with
  | some p => if h.portCause p = 1 ∨ h.portCause p = 2 then none else some p
  | none => none

def Hw.activePort (h : Hw) : Nat := h.get LNK_PORT_STATUS_ACTIVE

/-- The hold timer of R473 runs while the preferred port is healthy and not active; it starts again each time that
begins. -/
def Hw.holdCheck (h : Hw) : Hw :=
  let p := h.prefPort
  let run := h.on LNK_PORT_CTL_REVERT_EN && decide (h.portCause p = 0) && decide (h.activePort ≠ portNo p) && h.forcing.isNone
  let since := if run then (match h.net.holdSince with
    | some t => some t
    | none => some h.ns) else none
  { h with net := { h.net with holdSince := since } }

/-- ACTIVE changes: every complete entry of either FIFO is held for taking (R470). -/
def Hw.setActive (h : Hw) (a : Nat) : Hw :=
  if h.activePort = a then h
  else
    let hold (x : PortSt) : PortSt := { x with fifo := x.fifo.map (fun e => { e with held := e.held || e.trailer.isSome }) }
    let h1 := (h.put LNK_PORT_STATUS_ACTIVE a).bump LNK_SWITCH_COUNT_SWITCHES 1
    ((h1.setPort .a (hold h1.net.portA)).setPort .b (hold h1.net.portB)).holdCheck

/-- What follows at once from a change of the ports' health: a forced port in UP is active (R476), and the hold timer. -/
def Hw.control (h : Hw) : Hw :=
  match h.forcing with
  | some p => (h.setActive (portNo p)).holdCheck
  | none => h.holdCheck

/-- The frame that a port is receiving is discarded: its FIFO entry goes, and a copy on its way out of the other port
ends (R392, R407, R433). -/
def Hw.dropRx (h : Hw) (p : Port) : Hw :=
  match (h.port p).rx with
  | some r =>
    let x := h.port p
    let h1 := h.setPort p { x with rx := none, fifo := x.fifo.filter (fun e => e.trailer.isSome) }
    let y := h1.port (otherPort p)
    let cut := y.fwd.any (fun e => e.started && !e.complete) && decide (h.get (LNK_STATUS_STATE (portNo (otherPort p))) = 4)
    let h2 := h1.when r.forwarded (fun h => h.setPort (otherPort p) { y with fwd := y.fwd.filter (fun e => e.complete) })
    h2.when (r.forwarded && cut) (fun h => h.sendStriped (otherPort p) [abortBlock])
  | none => h

/-- Descriptors leave that both ports have sent; a port that is not in UP counts as having sent them (R450). While neither
port is in UP nothing leaves. -/
def Hw.sweep (h : Hw) : Hw :=
  let up (p : Port) : Bool := decide (h.get (LNK_STATUS_STATE (portNo p)) = 4)
  let gone (d : EgDesc) : Bool := (d.sentA || !up .a) && (d.sentB || !up .b) && ((d.sentA && d.sentB) || up .a || up .b)
  { h with net := { h.net with egress := h.net.egress.filter (fun d => !gone d) } }

/-- The port goes to DOWN (R397, R405): it stops its lanes, its frame in progress is discarded, its CRC window is abandoned
(R467), and changed equalisation cells apply at once (R400). -/
def Hw.portDown (h0 : Hw) (p : Port) : Hw :=
  let n := portNo p
  let h := (h0.dropRx p).fillLanes p
  let recal := h.get (LNK_STATUS_MY_RECAL n)
  let h1 := (h.setReg (LNK_STATUS n) 0).put (LNK_STATUS_MY_RECAL n) recal
  let x := h1.port p
  let h2 := h1.setPort p { x with stateSince := h.ns, told := 0, rxSet := 0, nap := 0, answers := [], fwd := [], crcCount := 0, crcStart := none }
  let h3 := h2.each [0, 1, 2, 3, 4] (fun h l => h.setLane p l { h.lane p l with
    prec := 0, half := none, rprec := 0, rbits := [], rslot := none, badAms := 0, lockStep := 0, goodSince := h.ns,
    reEq := false, eq := h.reg (LNK_EQ n l), prevHigh := none })
  let h4 := h3.each [0, 1, 2, 3] (fun h l =>
    ((h.put (LNK_LANE_LOCKED n l) 0).put (LNK_LANE_READMIT n l) 0).put (LNK_LANE_GOOD_MS n l) 0)
  h4.sweep.control

/-! ### Calibration steps that fail (R514, R519) -/

/-- A failed step is recorded: RESULT 1 precondition, 2 disagreement, 3 timeout, 4 abandoned; KIND 0 front end or strobe,
1 ADC, 2 lane slicer, 3 lane delay (R530). -/
def Hw.noteFail (h : Hw) (result kind retries item : Nat) : Hw :=
  (((((h.put CAL_LAST_VALID 1).put CAL_LAST_RESULT result).put CAL_LAST_KIND kind).put CAL_LAST_RETRIES retries).put
    CAL_LAST_ITEM item).bump CAL_COUNT_FAILED 1

def Hw.relief (h : Hw) (k : Nat) : Option Relief := storeGet (fun _ => none) h.field.relief k
def Hw.setRelief (h : Hw) (k : Nat) (r : Option Relief) : Hw :=
  { h with field := { h.field with relief := storeSet (fun _ => none) h.field.relief k r } }

/-- Failed steps in a row that take a front end out of service (R519, R529). -/
def Hw.failLimit (h : Hw) : Nat := max 1 (h.get CAL_AGREE_TAPS_FAIL_LIM)
def Hw.unitFails (h : Hw) (u : Nat) : Nat := (storeGet (fun _ => item0) h.cal.fe u).fails

/-- A front-end step is over: its unit waits for the boundary that makes it the spare (R105), or, calibrated in place,
becomes the spare again; a unit with too many failed steps in a row is out of service. -/
def Hw.feStepOver (h : Hw) (x : CalStep) : Hw :=
  let u := x.unit
  let k := clusOfUnit u
  let out := decide (h.failLimit ≤ h.unitFails u)
  let h1 := ({ h with cal := { h.cal with feStep := none, runFe := false } }).put CAL_STATUS_FE_BUSY 0
  match h1.relief k with
  | some r =>
    if r.oldUnit ≠ u then h1
    else if r.phase = .prepared then
      -- the switch-over never came: the spare stays the spare
      ((h1.setRelief k none).put (FE_UNIT_PREP r.newUnit) 0).put (FE_UNIT_LOCAL r.newUnit) 0
    else (h1.setRelief k (some { r with phase := .ended })).when out (fun h => h.put (FE_UNIT_ROLE u) 3)
  | none => h1.when x.inPlace (fun h => h.put (FE_UNIT_ROLE u) (if out then 3 else 1))

/-- The front-end step under way is abandoned; no trim changes. -/
def Hw.abandonFeStep (h : Hw) : Hw :=
  match h.cal.feStep with
  | some x => (h.feStepOver x).noteFail 4 0 x.retries x.unit
  | none => h

/-! ### Reactions (R554, R555, R558) -/

/-- Enter SAFE: every switch opens, every driver goes to zero; SOURCE names the new cause and a pending end is cancelled
(R558, R559). A front-end step in progress is abandoned (R514). -/
def Hw.enterSafe (h0 : Hw) (source : Nat) : Hw :=
  let h := h0.abandonFeStep
  let again := h.safe && !h.flt.safeEnding
  let h1 := if again then h else (h.put FLT_SAFE_SOURCE source).put FLT_SAFE_ACTIVE 1
  let h2 := { h1 with
    flt := { h1.flt with safeEnding := false }
    field := { h1.field with closed := [], closedIn := [], inputs := [] } }
  (h2.each (List.range nDrv) Hw.zeroDriver).showFaultOff (List.range nDrv)

/-- Stop the drivers that an object names. -/
def Hw.stopDrivers (h : Hw) (ds : List Nat) : Hw := (h.each ds Hw.zeroDriver).showFaultOff ds

/-- Reset the block that a source's raise names (REACT 3). -/
def Hw.resetBlock (h : Hw) (i info : Nat) : Hw :=
  if i = srcStitchCrc then { h with adc := { h.adc with frameLost := true } }
  else if i = srcAdcCoreFail then
    { h with adc := { h.adc with rehab := h.adc.rehab ++ [natBits info 3 0] } }
  else if i = srcCinchError then
    let h1 := { h with cin := { h.cin with block := none, staging := none, job := none } }
    let h2 := h1.put CIN_STATUS_CHANNEL 0
    let st := h.get CIN_JOB_STAT_STATE
    if st = 1 ∨ st = 2 then (h2.put CIN_JOB_STAT_STATE 4).put CIN_JOB_STAT_MID 0 else h2
  else if i = srcPortCrcRate 0 then h.portDown .a
  else if i = srcPortCrcRate 1 then h.portDown .b
  else h

/-- The reaction acts on the object of one raise. -/
def Hw.reactOn (h : Hw) (i react info : Nat) : Hw :=
  match react with
  | 2 => h.stopDrivers (objDrivers i info)
  | 3 => h.resetBlock i info
  | 4 => h.enterSafe i
  | _ => h

def Hw.objects (h : Hw) (i : Nat) : List Nat := storeGet (fun _ => []) h.flt.objects i
def Hw.setObjects (h : Hw) (i : Nat) (l : List Nat) : Hw :=
  { h with flt := { h.flt with objects := storeSet (fun _ => []) h.flt.objects i l } }

def Hw.forceOf (h : Hw) (i : Nat) : Option Nat := storeGet (fun _ => none) h.flt.inForce i
def Hw.setForce (h : Hw) (i : Nat) (r : Option Nat) : Hw :=
  { h with flt := { h.flt with inForce := storeSet (fun _ => none) h.flt.inForce i r } }

def Hw.setTimer (h : Hw) (i : Nat) (t : Option Nat) : Hw :=
  { h with flt := { h.flt with timers := storeSet (fun _ => none) h.flt.timers i t } }

/-- The reaction of a source acts on every object named so far (R555). -/
def Hw.reactAll (h : Hw) (i : Nat) : Hw :=
  let r := h.get (FLT_MAP_REACT i)
  (h.setForce i (some r)).each (h.objects i) (fun h o => h.reactOn i r o)

/-! ### A raise -/

/-- Raise source `i` with INFO (R552-R563); the fuel bounds the raises that a raise itself makes (EVQ_OVERRUN,
ESCALATION_TIMER, ESCALATED), none of which makes another of its own kind. -/
def raiseN : Nat → Hw → Nat → Nat → Hw
  | 0, h, _, _ => h
  | fuel + 1, h, i, info =>
    let info := info % 2 ^ 22
    let was := h.on (statusBit i)
    let cls := h.get (FLT_MAP_CLASS i)
    let h := (h.put (statusBit i) 1).when (isLevel i) (fun h => h.put (causeBit i) 1)
    let h := (h.put (FLT_INFO_INFO i) info).bump (FLT_INFO_RAISES i) 1
    -- objects named since the status bit was set (R555)
    let h := h.setObjects i (if was then (if (h.objects i).contains info then h.objects i else h.objects i ++ [info]) else [info])
    let h := h.when (decide (1 ≤ cls)) Hw.pullFaultN
    let h := h.when (h.on (FLT_MAP_EVT i)) (fun h =>
      h.eventItem (.fault i cls (h.get (FLT_INFO_RAISES i)) info h.time.now))
    let h := h.when (!was && h.on (FLT_MAP_REC i) && decide (i ≠ srcRecStoreFail)) (fun h => h.recTriggerAt i none)
    let h := h.unitsCause (.fault i)
    let (h, lost) := if h.on (FLT_MAP_EVQ i) then h.evqWrite cls i info else (h, false)
    let h := h.when (lost && decide (i ≠ srcEvqOverrun)) (fun h => raiseN fuel h srcEvqOverrun 0)
    match h.forceOf i with
    | some r => if was then h.reactOn i r info else h
    | none =>
      if cls = 2 ∧ was = false then
        let us := max 1 (h.get (FLT_MAP_TMR_US i))
        raiseN fuel (h.setTimer i (some (h.ns + 1000 * us))) srcEscalationTimer i
      else if cls = 3 ∧ was = false then
        raiseN fuel (h.reactAll i) srcEscalated (64 * h.get (FLT_MAP_REACT i) + i)
      else h

/-- Raise source `i`. -/
def Hw.raise (h : Hw) (i info : Nat) : Hw := raiseN 4 h i info

/-! ### The egress queue (R449) -/

def Hw.classFill (h : Hw) (c : Nat) : Nat := (h.net.egress.filter (fun d => decide (d.frame.cls = c))).length

/-- A class has room for a descriptor. -/
def Hw.classRoom (h : Hw) (c : Nat) : Bool := decide (h.classFill c < h.get (STR_EGQ_CLASS_CAP c))

/-- The hub may write a frame of its own into a class: it has an ID (R428), and the class has room. -/
def Hw.room (h : Hw) (c : Nat) : Bool := h.classRoom c && decide (h.get SYS_HUB_ID_ID ≠ 0)

/-- An ignored write sets the class's OVR bit and raises EGRESS_QUEUE_OVERRUN when the bit goes from 0 to 1. -/
def Hw.classFull (h : Hw) (c : Nat) : Hw :=
  let f : Fld := ⟨STR_EGQ_STATUS, c, c⟩
  if h.on f then h else (h.put f 1).raise srcEgressQueueOverrun (2 ^ c)

/-- What a writer does that finds no room: the write is ignored if the class is full (R449). -/
def Hw.noRoom (h : Hw) (c : Nat) : Hw := if h.classRoom c then h else h.classFull c

/-- Number a frame of the hub's own (R425). -/
def Hw.number (h : Hw) (f : Frame) : Hw × Frame :=
  let q := h.get STR_SEQ_NEXT
  let h1 := h.put STR_SEQ_NEXT (q + 1)
  ({ h1 with net := { h1.net with srDone := h1.net.srDone || decide (q = 4095) } }, { f with seq := q, sr := !h.net.srDone })

/-- A frame of the hub's own (R425, R428): its source is the hub ID, HOPS from STR_FRM_CTL; its SEQ is given when it is
accepted for sending. -/
def Hw.ownFrame (h : Hw) (ty cls dst : Nat) (rsp : Bool) (epoch : Nat) (payload : List Byte) : Frame :=
  { ty := ty, cls := cls, rsp := rsp, sr := false, flg := false, src := h.get SYS_HUB_ID_ID, dst := dst, seq := 0,
    epoch := epoch % 65536, hops := max 1 (h.get STR_FRM_CTL_HOPS), payload := payload }

/-- Write a descriptor; for a frame that only one port is to send, the other counts as having sent it (R428, R494).
Answers whether the queue accepted it. -/
def Hw.enqueueOn (h : Hw) (f : Frame) (pong : Bool) (only : Option Port) : Hw × Bool :=
  -- a hub whose ID is 0x0000 originates responses only (R428)
  if f.src = 0 ∧ f.rsp = false then (h, false)
  else if h.classRoom f.cls then
    let n := h.number f
    let d : EgDesc := { frame := n.2, sentA := decide (only = some .b), sentB := decide (only = some .a),
                        firstSent := none, pong := pong }
    ({ n.1 with net := { n.1.net with egress := n.1.net.egress ++ [d] } }, true)
  else (h.classFull f.cls, false)

/-- Write a descriptor of a frame that both ports send. -/
def Hw.enqueue (h : Hw) (f : Frame) : Hw × Bool := h.enqueueOn f false none

/-- Write several descriptors only if the class takes them all. -/
def Hw.enqueueAll (h : Hw) (c : Nat) (fs : List Frame) : Hw × Bool :=
  if h.classFill c + fs.length ≤ h.get (STR_EGQ_CLASS_CAP c) then
    (h.each fs (fun h f => (h.enqueue f).1), true)
  else (h.classFull c, false)

end Sys2Proof.Machine
end

