-- ==== Sys2Proof/Machine/Harness.lean ====
section
/-!
DEFINITION. Terminals and the Harness (chapter 02) with the front-end detectors (R88, R89): overvoltage and isolation,
open wires, probes, saturation, and the commit checks of the routes.
-/
namespace Sys2Proof.Machine

/-! ### Overvoltage and isolation (R66-R69) -/

/-- OV_POS or OV_NEG of a terminal. -/
def ovBit (t : Nat) (neg : Bool) : Fld := if neg then HRN_TSTAT_OV_NEG t else HRN_TSTAT_OV_POS t

def Hw.setProbe (h : Hw) (k : Nat) (p : Option ProbeSt) : Hw :=
  { h with field := { h.field with probe := storeSet (fun _ => none) h.field.probe k p } }
def Hw.probe (h : Hw) (k : Nat) : Option ProbeSt := storeGet (fun _ => none) h.field.probe k

/-- Abandon a probe in progress on a terminal without result (R76). -/
def Hw.dropProbe (h : Hw) (t : Nat) : Hw :=
  match h.probe (clusOfTerm t) with
  | some p => if p.term = t then h.setProbe (clusOfTerm t) none else h
  | none => h

/-- What is known of a terminal's voltage: its pin has been told it. -/
def Hw.pinAt (h : Hw) (t : Nat) : Int := storeGet (fun _ => 0) h.field.pinMv t
def Hw.setPin (h : Hw) (t : Nat) (mv : Int) : Hw :=
  { h with field := { h.field with pinMv := storeSet (fun _ => 0) h.field.pinMv t mv } }

/-- The terminal has a force or a sense role, which widens its thresholds (R66). -/
def Hw.forceRoute (h : Hw) (t : Nat) : Bool := decide (1 ≤ h.get (HRN_TERM_EXC t) ∧ h.get (HRN_TERM_EXC t) ≤ 6)

/-- The thresholds of OV_NEG and OV_POS of a terminal, and its clear window, in mV (R66). -/
def Hw.ovLimits (h : Hw) (t : Nat) : Int × Int := if h.forceRoute t then (-17000, 27000) else (-13000, 21000)
def Hw.ovWindow (h : Hw) (t : Nat) : Int × Int := if h.forceRoute t then (-16000, 26000) else (-12000, 20000)

/-- A voltage may trip a detector: it lies beyond the threshold, which holds to +-0.5 V (R66). -/
def Hw.mayTrip (h : Hw) (t : Nat) (neg : Bool) (mv : Int) : Bool :=
  if neg then decide (mv < (h.ovLimits t).1 + 500) else decide ((h.ovLimits t).2 - 500 < mv)

/-- A voltage may lie in the clear window, whose ends hold to +-0.5 V; and it surely does. -/
def Hw.mayClear (h : Hw) (t : Nat) (mv : Int) : Bool := decide ((h.ovWindow t).1 - 500 < mv ∧ mv < (h.ovWindow t).2 + 500)
def Hw.surelyClear (h : Hw) (t : Nat) (mv : Int) : Bool := decide ((h.ovWindow t).1 + 500 ≤ mv ∧ mv ≤ (h.ovWindow t).2 - 500)

/-- Whether a voltage lies in the clear window; within 0.5 V of an end of it the spec leaves that open, and the choice is
free. -/
def Hw.inWindow (h : Hw) (t : Nat) (mv : Int) : Bool :=
  h.surelyClear t mv || (h.mayClear t mv && Config.freeBool h.draws)

/-- A detector trips: the terminal is isolated, its switches open, the bit is set and TERM_OVERVOLT is raised (R67). -/
def Hw.ovTrip (h : Hw) (t : Nat) (neg : Bool) : Hw :=
  let b := if neg then 2 else 1
  if natBit (h.ovState t) (if neg then 1 else 0) then h
  else
    let h1 := h.setOv t (h.ovState t ||| b ||| 4)
    let h2 := { h1 with field := { h1.field with
      reclose := h1.field.reclose.filter (fun x => decide (x ≠ t))
      ovAt := storeSet (fun _ => 0) h1.field.ovAt t h1.ns } }
    (((h2.setClosed t 0).dropProbe t).put (ovBit t neg) 1).raise srcTermOvervolt (t + 1024 * b2n neg)

/-- TERM_OVERVOLT's cause ends when no detector is tripped. -/
def Hw.ovCause (h : Hw) : Hw :=
  h.when (!h.field.ov.any (fun q => decide (q.2 % 4 ≠ 0))) (fun h => h.causeEnd srcTermOvervolt)

/-- The terminal's routes are to close again at the next frame boundary (R62, R69). It stays isolated until then: DESIGN
CHOICE (log 183), as R69 does not say whether the isolation ends with the clear or with the closing. -/
def Hw.wantReclose (h : Hw) (t : Nat) : Hw :=
  if h.isolated t && !h.field.reclose.contains t then
    { h with field := { h.field with reclose := h.field.reclose ++ [t] } }
  else h

/-- The recovery time of HRN_OV_CTL, in ns (R71). -/
def Hw.recoverNs (h : Hw) : Nat := msNs (h.get HRN_OV_CTL_RECOVER_MS)

/-- A detector clears, RECOVER_MS after the terminal's last trip at the earliest (R66); with AUTO = 1 the routes close again
at the next boundary (R69). -/
def Hw.ovClear (h : Hw) (t : Nat) (neg : Bool) : Hw :=
  let i := if neg then 1 else 0
  if natBit (h.ovState t) i ∧ h.due (storeGet (fun _ => 0) h.field.ovAt t + h.recoverNs) then
    let h1 := (h.setOv t (natPut (h.ovState t) i i 0)).ovCause
    h1.when (decide (h1.ovState t % 4 = 0) && h1.on HRN_OV_CTL_AUTO) (fun h => h.wantReclose t)
  else h

/-- Firmware's write of 1 to W1C bits of HRN_TSTAT (R69, R72): the OV bits clear only inside the clear window; with both
clear an isolation under AUTO = 0 ends. A terminal that was isolated under AUTO = 0 and whose detectors have cleared stays
isolated when AUTO becomes 1, until a detector clears again or both bits are cleared under AUTO = 0: DESIGN CHOICE (log
183). -/
def Hw.tstatWrite (h : Hw) (t : Nat) (inWindow : Bool) (v : Word) : Hw :=
  let clr (h : Hw) (f : Fld) (c : Bool) : Hw := h.when (c && decide (bits v f.hi f.lo ≠ 0)) (fun h => h.put f 0)
  let h1 := clr (clr h (HRN_TSTAT_PROBE_OPEN t) true) (HRN_TSTAT_SHORT_GND t) true
  let h2 := clr (clr h1 (HRN_TSTAT_OV_NEG t) inWindow) (HRN_TSTAT_OV_POS t) inWindow
  h2.when (inWindow && !h2.on (HRN_TSTAT_OV_NEG t) && !h2.on (HRN_TSTAT_OV_POS t) && h2.isolated t
           && !h2.on HRN_OV_CTL_AUTO)
    (fun h => ((h.setOv t 4).ovCause).wantReclose t)

/-! ### The open-wire state (R74, R76, R77, R88, R101) -/

/-- The lowest-numbered enabled stream that carries a channel. -/
def Hw.streamOf (h : Hw) (ch : Nat) : Option Nat :=
  (h.str.sources.find? (fun q => decide (q.2 = some ch) && h.on (DMA_CFG_EN q.1))).map (·.1)

def Hw.stream (h : Hw) (s : Nat) : StreamSt := storeGet (fun _ => stream0) h.str.streams s
def Hw.setStream (h : Hw) (s : Nat) (x : StreamSt) : Hw :=
  { h with str := { h.str with streams := storeSet (fun _ => stream0) h.str.streams s x } }

/-- The index, in the stream's current era, of the last sample strobed at or before a network time. -/
def Hw.indexAt (h : Hw) (s t : Nat) : Nat :=
  match (h.stream s).eras with
  | e :: _ => if e.origin ≤ t ∧ 0 < e.period then (t - e.origin) / (e.period * nsUnit) else 0
  | [] => 0

def Hw.lastPass (h : Hw) (t : Nat) : Option ProbePass := storeGet (fun _ => none) h.field.passed t

/-- Fill FLT_OPEN of a channel for a TERM_OPEN (R77, R564, R584): the latest passed probe on any of its inputs. A channel that
no enabled stream carries names stream 0 (log 187). -/
def Hw.fillOpen (h : Hw) (ch : Nat) : Hw :=
  let ps := (h.inTerms ch).filterMap h.lastPass
  match ps.foldl (fun (r : Option ProbePass) p =>
      match r with
      | some q => if q.time < p.time then some p else r
      | none => some p) none with
  | some p =>
    let h1 := h.put64 (FLT_OPEN_IDX_LO_IDX_LO ch) (FLT_OPEN_IDX_HI_IDX_HI ch) p.index
    let h2 := (h1.put (FLT_OPEN_NS_NS ch) (nsOf p.time)).put (FLT_OPEN_SLO_S_LO ch) (secOf p.time)
    let h3 := (h2.put (FLT_OPEN_INFO_S_HI ch) (secOf p.time / 2 ^ 32)).put (FLT_OPEN_INFO_STREAM ch) p.stream
    (h3.put (FLT_OPEN_INFO_NOPROBE ch) 0).put (FLT_OPEN_INFO_VALID ch) 1
  | none =>
    let h1 := (h.put64 (FLT_OPEN_IDX_LO_IDX_LO ch) (FLT_OPEN_IDX_HI_IDX_HI ch) 0).put (FLT_OPEN_NS_NS ch) 0
    let h2 := (h1.put (FLT_OPEN_SLO_S_LO ch) 0).setReg (FLT_OPEN_INFO ch) 0
    let h3 := h2.put (FLT_OPEN_INFO_STREAM ch) ((h.streamOf ch).getD 0)
    (h3.put (FLT_OPEN_INFO_NOPROBE ch) 1).put (FLT_OPEN_INFO_VALID ch) 1

/-- Raise TERM_OPEN for a channel, with its content. -/
def Hw.raiseOpen (h : Hw) (ch : Nat) : Hw :=
  let h1 := (h.fillOpen ch).raise srcTermOpen ch
  { h1 with field := { h1.field with openRaised := storeSet (fun _ => 0) h1.field.openRaised ch (h1.ns + 1) } }

/-- TERM_OPEN has been raised for the channel in the present AON tick, which stands for the cycle of R76 (log 6). -/
def Hw.openNow (h : Hw) (ch : Nat) : Bool := decide (storeGet (fun _ => 0) h.field.openRaised ch = h.ns + 1)

/-- Whether a probe of the terminal has passed, in the visit that counts for the end of the open-wire state (R76). -/
def Hw.setPassedNow (h : Hw) (t : Nat) (b : Bool) : Hw :=
  { h with field := { h.field with passedNow := storeSet (fun _ => false) h.field.passedNow t b } }

/-- The channel enters the open-wire state for a reason (bit 1 comparator or probe, bit 2 compliance). `always`: TERM_OPEN is
raised though the channel is in that state already, but once where two detections fall together (R76). -/
def Hw.enterOpen (h : Hw) (ch bit : Nat) (always : Bool) : Hw :=
  let was := h.isOpen ch
  let h1 := h.setOpenBits ch (h.openBits ch ||| bit)
  let h2 := h1.when (!was) (fun h => h.each (h.inTerms ch) (fun h t =>
    h.setPassedNow t false))
  h2.when ((always && !h2.openNow ch) || !was) (fun h => h.raiseOpen ch)

/-- A reason of the open-wire state ends. -/
def Hw.leaveOpen (h : Hw) (ch bit : Nat) : Hw :=
  let v := h.openBits ch
  let h1 := h.setOpenBits ch (v &&& (3 ^^^ bit))
  h1.when (!h1.field.openBy.any (fun q => decide (q.2 ≠ 0))) (fun h => h.causeEnd srcTermOpen)

/-- A channel with an input terminal that is probed. -/
def Hw.probed (h : Hw) (ch : Nat) : Bool := (h.inTerms ch).any (fun t => h.on (HRN_TERM_PROBE t))

def Hw.cmpTripped (h : Hw) (ch : Nat) : Bool := storeGet (fun _ => false) h.field.cmp ch
def Hw.setCmp (h : Hw) (ch : Nat) (b : Bool) : Hw :=
  { h with field := { h.field with cmp := storeSet (fun _ => false) h.field.cmp ch b } }
def Hw.setCmpClear (h : Hw) (ch : Nat) : Hw :=
  { h with field := { h.field with cmpClear := storeSet (fun _ => 0) h.field.cmpClear ch h.ns } }

/-- The channel has an open comparator that works: enabled, OPEN_K not 0, not charge mode (R79, R87, R88). -/
def Hw.hasCmp (h : Hw) (ch : Nat) : Bool :=
  h.on (FE_CFG_EN ch) && h.on (FE_CFG_OPEN_K ch) && decide (h.get (FE_CFG_MODE ch) ≠ 2)

/-- The comparator trips: the open-wire state begins, unless an input terminal is isolated (R67, R74). -/
def Hw.cmpTrip (h : Hw) (ch : Nat) : Hw :=
  if h.hasCmp ch && !h.cmpTripped ch then
    let h1 := h.setCmp ch true
    if h.chanIsolated ch then h1 else h1.enterOpen ch 1 (decide (h.openBits ch % 2 = 0 ∧ h.isOpen ch = false))
  else h

def Hw.cmpClear (h : Hw) (ch : Nat) : Hw :=
  if h.cmpTripped ch then (h.setCmp ch false).setCmpClear ch else h

/-- At a frame boundary an unprobed channel leaves the open-wire state, each reason under its own rule (R88, R101); the
comparator ends nothing while an input is isolated (R67). -/
def Hw.openStateEnd (h : Hw) (ch : Nat) : Hw :=
  if h.boundaryNow.isSome && h.isOpen ch && !h.probed ch then
    let cmpOk := !h.chanIsolated ch && !h.cmpTripped ch && h.due (storeGet (fun _ => 0) h.field.cmpClear ch + h.recoverNs)
    let comp := (List.range 2).all (fun i =>
      let d := 2 * clusOfChan ch + i
      !h.xlinks d ch || (!h.on (EXC_STATUS_COMPLIANCE d) && h.due ((h.drv d).compClear + h.recoverNs)))
    let bitsOn := h.openBits ch
    if (bitsOn % 2 = 0 ∨ cmpOk = true) ∧ (bitsOn / 2 % 2 = 0 ∨ comp = true) then h.leaveOpen ch 3 else h
  else h

/-- Close the routes of a terminal again at a frame boundary; the comparator is acted on again (R67, R69). Its recovery time
starts here, also where it cleared during the isolation: DESIGN CHOICE (log 184), since R88 does not say from when it counts. -/
def Hw.reclose (h : Hw) (t : Nat) : Hw :=
  match h.boundaryNow with
  | some b =>
    if h.field.reclose.contains t then
      let h1 := { h with field := { h.field with reclose := h.field.reclose.filter (fun x => decide (x ≠ t)) } }
      let h2 := (h1.setOv t 0).closeRoute t
      h2.each (h2.termChans t) (fun h ch =>
        let h := h.feWindowAt ch b
        if h.cmpTripped ch && !h.chanIsolated ch then h.enterOpen ch 1 false else h.setCmpClear ch)
    else h
  | none => h

/-! ### The open-wire probe (R75-R77) -/

/-- A terminal's visit: its interval has passed and its cluster probes nothing; an isolated terminal's visit is missed, which
counts as one that did not pass (R76). A terminal that feeds no channel that strobes is visited too, and its probe stays
due, so that its cluster probes nothing else: DESIGN CHOICE (log 185), since R75 places its pulse after a strobe and says
nothing of a terminal that has none. -/
def Hw.probeVisit (h : Hw) (t : Nat) : Hw :=
  let last := storeGet (fun _ => 0) h.field.visited t
  if h.on HRN_PROBE_CTL_EN && h.on (HRN_TERM_PROBE t) && h.due (last + msNs (h.get HRN_PROBE_CTL_INTERVAL_MS))
      && h.running then
    let visit (h : Hw) := { h with field := { h.field with visited := storeSet (fun _ => 0) h.field.visited t h.ns } }
    if h.isolated t then (visit h).setPassedNow t false
    else if (h.probe (clusOfTerm t)).isSome then h
    else (visit h).setProbe (clusOfTerm t)
      (some { term := t, phase := .due, since := h.ns, net := 0, edge := false, strobed := none })
  else h

/-- A chopped driver works in the cluster. -/
def Hw.chopped (h : Hw) (k : Nat) : Bool :=
  (List.range 2).any (fun i => (h.drv (2 * k + i)).on && decide (4 ≤ bits (h.drv (2 * k + i)).cfg 2 0))

/-- The pulse starts 100 ns after a strobe of the group of the terminal's channel, which follows a chop edge where the
cluster chops (R75). The start of the pulse is the probe's network time: DESIGN CHOICE (log 186). -/
def Hw.probeStart (h : Hw) (t : Nat) : Hw :=
  match h.probe (clusOfTerm t) with
  | some p =>
    match p.strobed with
    | some i =>
      let x := i + 100 * nsUnit
      if p.term = t ∧ p.phase = .due ∧ h.time.now ≤ x ∧ h.reached x = true then
        h.setProbe (clusOfTerm t) (some { p with phase := .pulse, since := h.ns, net := x })
      else h
    | none => h
  | none => h

/-- Open threshold in uV: 0.5 V times 2^code (R78). -/
def openThrUv (code : Nat) : Int := 500000 * (2 : Int) ^ code

/-- A probe's judgement after 20 us (R75, R76): more than OPEN_THR is open, below 5 mV is a short, else a pass. Where no
enabled stream carries the channel, a pass names stream 0 and an index of its era: DESIGN CHOICE (log 187), since R77 names
the stream that carries it. -/
def Hw.probeJudge (h : Hw) (t : Nat) (riseUv : Int) : Hw :=
  match h.probe (clusOfTerm t) with
  | some p =>
    if p.term = t ∧ p.phase = .pulse ∧ h.due (p.since + 20000) then
      let h0 := h.setProbe (clusOfTerm t) (some { p with phase := .recover, since := h.ns })
      if openThrUv (h.get HRN_PROBE_CTL_OPEN_THR) < riseUv then
        ((h0.put (HRN_TSTAT_PROBE_OPEN t) 1).setPassedNow t false).each (h0.termChans t) (fun h ch => h.enterOpen ch 1 true)
      else if riseUv < 5000 then
        ((h0.put (HRN_TSTAT_SHORT_GND t) 1).setPassedNow t false).each (h0.termChans t) (fun h ch => h.raiseOpen ch)
      else
        let ch := (h0.termChans t).headD 0
        let st := (h0.streamOf ch).getD 0
        let pass : ProbePass := { time := p.net, stream := st, index := h0.indexAt st p.net }
        let h1 := ({ h0 with field := { h0.field with
          passed := storeSet (fun _ => none) h0.field.passed t (some pass) } } : Hw).setPassedNow t true
        h1.each (h1.termChans t) (fun h ch =>
          let all := ((h.inTerms ch).filter (fun t => h.on (HRN_TERM_PROBE t))).all
            (fun t => storeGet (fun _ => false) h.field.passedNow t)
          if h.isOpen ch && all then h.leaveOpen ch 3 else h)
    else h
  | none => h

/-- The recovery of RECOVER x 10 us ends. -/
def Hw.probeRecovered (h : Hw) (t : Nat) : Hw :=
  match h.probe (clusOfTerm t) with
  | some p =>
    if p.term = t ∧ p.phase = .recover ∧ h.due (p.since + 10000 * h.get HRN_PROBE_CTL_RECOVER) then
      h.setProbe (clusOfTerm t) none
    else h
  | none => h

/-- Samples strobed during the pulse or the recovery of a probe settle (R75). -/
def Hw.probeBusy (h : Hw) (ch : Nat) : Bool :=
  match h.probe (clusOfChan ch) with
  | some p => decide (p.phase ≠ .due) && (h.inTerms ch).contains p.term
  | none => false

/-! ### Saturation (R86, R89) -/

/-- The saturation detector trips; in charge mode with AUTO_RST = 1 the reset switch closes and a window starts. -/
def Hw.satTrip (h : Hw) (ch : Nat) : Hw :=
  if h.on (FE_CFG_EN ch) && !h.on (FE_STATUS_SAT ch) then
    (h.put (FE_STATUS_SAT ch) 1).when (decide (h.get (FE_CFG_MODE ch) = 2) && h.on (FE_CFG_AUTO_RST ch))
      (fun h => h.feWindow ch h.time.now)
  else h

/-- What a strobe of a channel does to the detector's persistence (R89). -/
def Hw.satStrobe (h : Hw) (ch : Nat) : Hw :=
  let run := storeGet (fun _ => 0) h.field.satRun ch
  let raised := storeGet (fun _ => false) h.field.satRaised ch
  let setRun (h : Hw) (n : Nat) (r : Bool) : Hw := { h with field := { h.field with
    satRun := storeSet (fun _ => 0) h.field.satRun ch n
    satRaised := storeSet (fun _ => false) h.field.satRaised ch r } }
  if h.on (FE_STATUS_SAT ch) then
    if max 1 (h.get FE_SAT_CTL_PERSIST) ≤ run + 1 ∧ raised = false then
      ((setRun h (run + 1) true).put (FE_STATUS_SAT_SEEN ch) 1).raise srcFeSaturation ch
    else setRun h (run + 1) raised
  else setRun h 0 false

/-! ### The commands -/

/-- R66, R67: the voltage at the pin has been beyond the threshold for 2 us. -/
def execOvTrip (t : Nat) (neg : Bool) (mv : Int) (s : State) : Out :=
  actOn s (decide (t < nTerm)) (fun h => (h.setPin t mv).when (h.mayTrip t neg mv) (fun h => h.ovTrip t neg))

/-- R68: only a terminal with the solid bias or the return switch closed can be held in current limit; it is isolated as
for an overvoltage. -/
def execSwitchCurrentLimit (t : Nat) (neg : Bool) (s : State) : Out :=
  actOn s (decide (t < nTerm)) (fun h =>
    let w := h.closedAt t
    if bits w 11 10 = 1 ∨ bits w 7 5 = 7 then h.ovTrip t neg else h)

/-- R66: the voltage at the pin has stayed in the clear window for RECOVER_MS. -/
def execOvClear (t : Nat) (neg : Bool) (mv : Int) (s : State) : Out :=
  actOn s (decide (t < nTerm)) (fun h => (h.setPin t mv).when (h.mayClear t mv) (fun h => h.ovClear t neg))

def execRouteReclose (t : Nat) (s : State) : Out := actOn s (decide (t < nTerm)) (fun h => h.reclose t)

def execOpenComparatorTrip (ch : Nat) (s : State) : Out := actOn s (decide (ch < nChan)) (fun h => h.cmpTrip ch)

def execOpenComparatorClear (ch : Nat) (s : State) : Out := actOn s (decide (ch < nChan)) (fun h => h.cmpClear ch)

def execOpenStateEnd (ch : Nat) (s : State) : Out := actOn s (decide (ch < nChan)) (fun h => h.openStateEnd ch)

def execProbeInterval (t : Nat) (s : State) : Out := actOn s (decide (t < nTerm)) (fun h => h.probeVisit t)

def execProbePulseStart (t : Nat) (s : State) : Out := actOn s (decide (t < nTerm)) (fun h => h.probeStart t)

def execProbePulseEnd (t : Nat) (riseUv : Int) (s : State) : Out :=
  actOn s (decide (t < nTerm)) (fun h => h.probeJudge t riseUv)

def execProbeRecoveryEnd (t : Nat) (s : State) : Out := actOn s (decide (t < nTerm)) (fun h => h.probeRecovered t)

def execSaturationTrip (ch : Nat) (s : State) : Out := actOn s (decide (ch < nChan)) (fun h => h.satTrip ch)

def execSaturationClear (ch : Nat) (s : State) : Out :=
  actOn s (decide (ch < nChan)) (fun h => h.put (FE_STATUS_SAT ch) 0)

/-! ### Commit checks (R56-R59, R63, R78, R83, R87, R109) -/

/-- A field of the routes or the front ends is out of its range. -/
def routesOutOfRange (h : Hw) : Bool :=
  (List.range nTerm).any (fun t => decide (4 < h.get (HRN_TERM_BURN_I t)) || decide (h.get (HRN_TERM_CMP t) = 3)) ||
  (List.range nChan).any (fun m =>
    let mode := h.get (FE_CFG_MODE m)
    decide (4 < h.get (HRN_CHIN_P_INT m)) || decide (4 < h.get (HRN_CHIN_N_INT m)) || decide (mode = 3) ||
    decide ([6, 5, 4].getD mode 0 ≤ h.get (FE_CFG_RANGE m)) ||
    decide (h.get (FE_CFG_COUPLE m) = 3) || (decide (mode ≠ 0) && h.on (FE_CFG_COUPLE m)) ||
    (decide (mode = 2) && (h.on (FE_CFG_OPEN_K m) || h.probed m))) ||
  decide (5 < h.get HRN_PROBE_CTL_OPEN_THR)

/-- Conflicts of a route set: RULE, KIND and INDEX (R63). -/
def conflicts (h : Hw) : List (Nat × Nat × Nat) :=
  let exc (t : Nat) := h.get (HRN_TERM_EXC t)
  let bias (t : Nat) := h.get (HRN_TERM_BIAS t)
  let netVal (k i : Nat) := if i = 0 then h.get (HRN_CLUS_CN0_VAL k) else h.get (HRN_CLUS_CN1_VAL k)
  let count (k r : Nat) := ((termsOfClus k).filter (fun t => decide (exc t = r))).length
  let chans := List.range nChan
  let terms := List.range nTerm
  let drvs := List.range nDrv
  let paths (m : Nat) := [h.inputPath m 0, h.inputPath m 1]
  (chans.filter (fun m => (paths m).any (fun q => decide (1 < q.1.length)))).map (fun m => (1, 1, m)) ++
  (chans.filter (fun m => (paths m).any (fun q => !q.1.isEmpty && decide (q.2 ≠ 0)))).map (fun m => (2, 1, m)) ++
  (chans.filter (fun m => h.on (FE_CFG_EN m) && (paths m).any (fun q => q.1.isEmpty && decide (q.2 = 0)))).map
    (fun m => (3, 1, m)) ++
  (terms.filter (fun t => decide (exc t ≠ 0) && decide (bias t = 1))).map (fun t => (4, 0, t)) ++
  (drvs.filter (fun d =>
    let hi := count (d / 2) (3 + d % 2)
    let lo := count (d / 2) (5 + d % 2)
    decide (1 < hi) || decide (1 < lo) || decide (hi ≠ lo))).map (fun d => (5, 2, d)) ++
  (drvs.filter (fun d => h.on (EXC_CFG_MODE d) && decide (count (d / 2) (1 + d % 2) = 0) &&
    decide (netVal (d / 2) (d % 2) = 0))).map (fun d => (6, 2, d)) ++
  (terms.filter (fun t =>
    let c := h.get (HRN_TERM_CMP t)
    decide (c = 1 ∨ c = 2) && (decide (netVal (clusOfTerm t) (c - 1) = 0) ||
      decide (1 < ((termsOfClus (clusOfTerm t)).filter (fun u => decide (h.get (HRN_TERM_CMP u) = c))).length)))).map
    (fun t => (7, 0, t)) ++
  (terms.filter (fun t => (h.on (HRN_TERM_BURN_I t) || h.on (HRN_TERM_PROBE t)) &&
    (decide (exc t ≠ 0) || decide (bias t = 1)))).map (fun t => (8, 0, t))

/-- Record the first conflict of a refused set and raise HARNESS_CONFLICT (R63, R64): the list above runs by RULE, and by
INDEX within a rule. -/
def Hw.noteConflict (h : Hw) (c : Nat × Nat × Nat) : Hw :=
  let h1 := (h.put HRN_CONFLICT_RULE c.1).put HRN_CONFLICT_KIND c.2.1
  ((h1.put HRN_CONFLICT_INDEX c.2.2).put HRN_CONFLICT_VALID 1).raise srcHarnessConflict
    (4096 * c.1 + 1024 * c.2.1 + c.2.2)

end Sys2Proof.Machine
end

