-- ==== Sys2Proof/Machine/Excitation.lean ====
section
/-!
DEFINITION. Excitation drivers (R95-R104): changes at frame boundaries, current limits, reversal, compliance and
chopping, and the commit checks of the drivers.
-/
namespace Sys2Proof.Machine

/-- MODE of a driver as its output follows it (R95). -/
def DriverSt.mode (x : DriverSt) : Nat := bits x.cfg 2 0
def DriverSt.group (x : DriverSt) : Nat := bits x.cfg 9 7
/-- Chop half-period in frames; 0 acts as 1 (R115). -/
def DriverSt.half (x : DriverSt) : Nat := max 1 (bits x.chop 15 0)

/-- The instant 0.3 us after the last frame boundary, when it falls in the present tick (R100, R102, R103). -/
def Hw.driverInstant (h : Hw) : Option Nat :=
  match h.smp.lastBoundary with
  | some b =>
    let x := b + 300 * nsUnit
    if h.time.now ≤ x ∧ h.reached x then some x else none
  | none => none

/-- A driver takes its settings (R100): off, held at zero by a reaction, waiting for its chop start (R102) or driven. -/
def Hw.driverTake (h : Hw) (d x : Nat) : Hw :=
  let old := h.drv d
  let cfg := h.reg (EXC_CFG d)
  let mode := bits cfg 2 0
  let drive := decide (mode ≠ 0) && !h.faultOff d && h.running
  let wait := drive && decide (4 ≤ mode) && !(old.on && decide (4 ≤ old.mode))
  let h1 := h.setDrv d { old with cfg := cfg, set := h.reg (EXC_SET d), chop := h.reg (EXC_CHOP d), wants := false, change := false,
                                  on := drive && !wait, chopWait := wait }
  let h2 := h1.when (!(drive && decide (4 ≤ mode) && !wait)) (fun h => h.setPol d 0)
  h2.exWindows d x

/-- A driver's configuration differs from what its output follows in a way that R100 names. -/
def Hw.driverStale (h : Hw) (d : Nat) : Bool :=
  let x := h.drv d
  decide (h.reg (EXC_CFG d) ≠ x.cfg) || decide (bits (h.reg (EXC_SET d)) 15 0 ≠ bits x.set 15 0) ||
  decide (h.reg (EXC_CHOP d) ≠ x.chop)

def Hw.markChange (h : Hw) (d : Nat) : Hw := h.setDrv d { h.drv d with change := true }

/-- A change that waits for the next frame boundary (R100). -/
def Hw.wantChange (h : Hw) (d : Nat) : Hw := h.setDrv d { h.drv d with wants := true }

/-- At a frame boundary the changes that wait for one are marked; they act 0.3 us later (R100). -/
def Hw.takeChanges (h : Hw) : Hw :=
  h.each (h.field.drivers.filter (fun q => q.2.wants)) (fun h q => h.setDrv q.1 { h.drv q.1 with wants := false, change := true })

/-- The start frame of a chopped driver (R102). -/
def Hw.chopStart (h : Hw) (d : Nat) : Hw :=
  match h.driverInstant with
  | some x =>
    let v := h.drv d
    if v.chopWait ∧ h.chopCount v.group % (2 * v.half) = 0 then
      ((h.setDrv d { v with on := true, chopWait := false }).setPol d 0).exWindows d x
    else h
  | none => h

/-- A polarity edge (R102, R103); a due probe of the cluster notes it (R75). -/
def Hw.chopEdge (h : Hw) (d : Nat) : Hw :=
  match h.driverInstant with
  | some _ =>
    let v := h.drv d
    let pol := h.chopCount v.group / v.half % 2
    if v.on ∧ 4 ≤ v.mode ∧ pol ≠ h.get (EXC_STATUS_POL d) then
      let h1 := h.setPol d pol
      match h1.probe (clusOfDrv d) with
      | some p => h1.setProbe (clusOfDrv d) (some { p with edge := true })
      | none => h1
    else h
  | none => h

/-- EXC_OVERCURRENT's cause is present while a driver that raised it is in limit, or the total is in excess. -/
def Hw.overCause (h : Hw) : Hw :=
  let live := (List.range nDrv).any (fun d => h.on (EXC_STATUS_LIMIT d) && (h.drv d).limitRaised) || h.field.totalRaised
  h.when (!live) (fun h => h.causeEnd srcExcOvercurrent)

/-- A driver enters its current limit (R98): one that is driven, or that holds its output at 0 V until its chop start or after
a reversal. -/
def Hw.limitEnter (h : Hw) (d : Nat) : Hw :=
  let v := h.drv d
  if (v.on ∨ v.chopWait ∨ v.revHold) ∧ (v.mode = 1 ∨ v.mode = 4) ∧ h.on (EXC_STATUS_LIMIT d) = false then
    (h.setDrv d { v with limitSince := h.ns, limitRaised := false }).put (EXC_STATUS_LIMIT d) 1
  else h

def Hw.limitLeave (h : Hw) (d : Nat) : Hw :=
  ((h.put (EXC_STATUS_LIMIT d) 0).setDrv d { h.drv d with limitRaised := false }).overCause

/-- Held in limit for 10 us (R98). -/
def Hw.overcurrent (h : Hw) (d : Nat) : Hw :=
  let v := h.drv d
  if h.on (EXC_STATUS_LIMIT d) && h.due (v.limitSince + 10000) && !v.limitRaised then
    ((h.setDrv d { v with limitRaised := true }).put (EXC_STATUS_OVERCURRENT d) 1).raise srcExcOvercurrent d
  else h

/-- The total stays above 2.0 A for 10 us (R99). -/
def Hw.totalOvercurrent (h : Hw) : Hw :=
  match h.field.totalOver with
  | some t =>
    if h.due (t + 10000) && !h.field.totalRaised then
      ({ h with field := { h.field with totalRaised := true } }).raise srcExcOvercurrent 0x7F
    else h
  | none => h

/-- Since when the measured total has been above 2.0 A (R99). -/
def Hw.totalSeen (h : Hw) (ma : Nat) : Hw :=
  if 2000 < ma then
    match h.field.totalOver with
    | some _ => h
    | none => { h with field := { h.field with totalOver := some h.ns } }
  else ({ h with field := { h.field with totalOver := none, totalRaised := false } }).overCause

/-- The total measured at a frame boundary (R99, R117). -/
def Hw.measureTotal (h : Hw) (ma : Nat) : Hw :=
  let h1 := h.put EXC_TOTAL_TOTAL (min ma 65535)
  let h2 := h1.when (decide (h1.get EXC_TOTAL_PEAK < min ma 65535)) (fun h => h.put EXC_TOTAL_PEAK (min ma 65535))
  h2.totalSeen ma

/-- Reversed leads: remote sense in a voltage mode, or an IEPE driver (R70, R100). -/
def Hw.reversed (h : Hw) (d : Nat) : Hw :=
  let v := h.drv d
  if v.on ∧ (((v.mode = 1 ∨ v.mode = 4) ∧ natBit v.cfg.toNat 3) ∨ v.mode = 3) then
    let h1 := h.zeroDriver d
    let h2 := h1.setDrv d { h1.drv d with revHold := true }
    ((h2.put (EXC_STATUS_REVERSED d) 1).showFaultOff [d]).raise srcExcReversed d
  else h

/-- Firmware's write to EXC_STATUS: REVERSED clears and the driver restarts at the next boundary (R100); OVERCURRENT
clears unless the driver is in limit (R13). -/
def Hw.excStatusWrite (h : Hw) (d : Nat) (v : Word) : Hw :=
  let h1 := h.when (natBit v.toNat 19 && !h.on (EXC_STATUS_LIMIT d)) (fun h => h.put (EXC_STATUS_OVERCURRENT d) 0)
  if natBit v.toNat 18 ∧ h1.on (EXC_STATUS_REVERSED d) then
    let h2 := h1.put (EXC_STATUS_REVERSED d) 0
    (h2.setDrv d { h2.drv d with revHold := false, wants := true }).showFaultOff [d]
  else h1

/-- A current-mode or IEPE driver held at its compliance limit for 20 us (R101), also one that holds 0 A until its chop start.
TERM_OPEN is raised once for each linked channel, whether or not it was in the open-wire state. -/
def Hw.compliant (h : Hw) (d : Nat) : Hw :=
  let v := h.drv d
  if (v.on ∨ v.chopWait) ∧ (v.mode = 2 ∨ v.mode = 3 ∨ v.mode = 5) ∧ h.on (EXC_STATUS_COMPLIANCE d) = false then
    (h.put (EXC_STATUS_COMPLIANCE d) 1).each (h.linked d) (fun h ch => h.enterOpen ch 2 true)
  else h

def Hw.complianceClear (h : Hw) (d : Nat) : Hw :=
  if h.on (EXC_STATUS_COMPLIANCE d) then
    (h.put (EXC_STATUS_COMPLIANCE d) 0).setDrv d { h.drv d with compClear := h.ns }
  else h

/-! ### The commands -/

def execDriverChange (d : Nat) (s : State) : Out :=
  actOn s (decide (d < nDrv)) (fun h =>
    match h.driverInstant with
    | some x => if (h.drv d).change then h.driverTake d x else h
    | none => h)

def execDriverLimitEnter (d : Nat) (s : State) : Out := actOn s (decide (d < nDrv)) (fun h => h.limitEnter d)

def execDriverLimitLeave (d : Nat) (s : State) : Out := actOn s (decide (d < nDrv)) (fun h => h.limitLeave d)

def execExcOvercurrent (d : Nat) (s : State) : Out := actOn s (decide (d < nDrv)) (fun h => h.overcurrent d)

/-- R99: the total at this instant, which counts as seen whether or not a frame boundary falls here. -/
def execVexcTotalOvercurrent (ma : Nat) (s : State) : Out := actOn s true (fun h => (h.totalSeen ma).totalOvercurrent)

def execExcReversed (d : Nat) (s : State) : Out := actOn s (decide (d < nDrv)) (fun h => h.reversed d)

def execCompliance (d : Nat) (s : State) : Out := actOn s (decide (d < nDrv)) (fun h => h.compliant d)

def execComplianceClear (d : Nat) (s : State) : Out := actOn s (decide (d < nDrv)) (fun h => h.complianceClear d)

def execChopStart (d : Nat) (s : State) : Out := actOn s (decide (d < nDrv)) (fun h => h.chopStart d)

def execChopEdge (d : Nat) (s : State) : Out := actOn s (decide (d < nDrv)) (fun h => h.chopEdge d)

/-! ### Commit checks (R95-R99, R102, R113, R114) -/

/-- Magnitude of SET. -/
def setMag (h : Hw) (d : Nat) : Nat := (toSigned 16 (h.get (EXC_SET_SET d))).natAbs

/-- Full scale of a current mode in uA (R97). -/
def fsxUa (h : Hw) (d : Nat) : Nat := if h.on (EXC_CFG_RANGE d) then 25000 else 250

/-- Resistance of the completion network that a driver feeds: CN0 from driver a, CN1 from driver b (R55, R59). -/
def netOhm (h : Hw) (d : Nat) : Nat :=
  [0, 120, 350, 1000].getD (if d % 2 = 0 then h.get (HRN_CLUS_CN0_VAL (d / 2)) else h.get (HRN_CLUS_CN1_VAL (d / 2))) 0

/-- Fields of the drivers out of range. SENSE = 1 asks for both sense terminals whatever the MODE: DESIGN CHOICE (log 188),
since R96 states the check without naming a mode. -/
def driversOutOfRange (h : Hw) : Bool :=
  (List.range nDrv).any (fun d =>
    let mode := h.get (EXC_CFG_MODE d)
    let volt := decide (mode = 1 ∨ mode = 4)
    let cur := decide (mode = 2 ∨ mode = 5)
    let senses (r : Nat) := (termsOfClus (d / 2)).any (fun t => decide (h.get (HRN_TERM_EXC t) = r + d % 2))
    decide (5 < mode) || decide (h.get (EXC_CFG_IEPE d) = 3) || decide (50 < h.get (EXC_SET_ILOAD d)) ||
    (h.on (EXC_CFG_SENSE d) && !(senses 3 && senses 5)) ||
    (cur && decide (setMag h d ≠ 0) && decide (setMag h d * fsxUa h d < 10 * 32768)) ||
    (volt && decide (netOhm h d ≠ 0) && decide (32768 * netOhm h d < 200 * setMag h d)) ||
    (decide (mode = 4 ∨ mode = 5) &&
      decide (max 1 (h.get (EXC_CHOP_HALF d)) * h.get SMP_FRAME_PERIOD_PERIOD_NS < 50000)))

/-- Configured excitation in units of 1/32768 uA (R99). -/
def excitationSum (h : Hw) : Nat :=
  ((List.range nDrv).map (fun d =>
    let mode := h.get (EXC_CFG_MODE d)
    if mode = 1 ∨ mode = 4 then h.get (EXC_SET_ILOAD d) * 1000 * 32768
    else if mode = 2 ∨ mode = 5 then setMag h d * fsxUa h d
    else if mode = 3 then [2, 4, 8, 0].getD (h.get (EXC_CFG_IEPE d)) 0 * 1000 * 32768
    else 0)).foldl (· + ·) 0

/-- The sum exceeds 2.0 A. -/
def excitationOver (h : Hw) : Bool := decide (2000000 * 32768 < excitationSum h)

end Sys2Proof.Machine
end

