-- ==== Sys2Proof/Machine/Flags.lean ====
section
/-!
DEFINITION. Status bits and counters of registers: what sets and clears a W1C bit (R13, R15), and counters that a read
clears.
-/
namespace Sys2Proof.Machine

/-- Set a status bit. -/
def Hw.flag (h : Hw) (f : Fld) : Hw := h.put f 1

/-- A write of `v` to a W1C field: it clears where the written bit is 1 and the cause is gone (R13). -/
def Hw.clearFlag (h : Hw) (f : Fld) (v : Word) (cause : Bool) : Hw :=
  h.when (decide (bits v f.hi f.lo ≠ 0) && !cause) (fun h => h.put f 0)

/-- A write of `v` clears the bits of `mask` that it has at 1 (W1C bits without a cause of their own). -/
def Hw.clearBits (h : Hw) (a mask : Nat) (v : Word) : Hw :=
  h.setReg a (h.reg a &&& ~~~(v &&& BitVec.ofNat 32 mask))

/-- What a read of a register with RC fields leaves of it (R13). -/
def Hw.clearOnRead (h : Hw) (a rc : Nat) : Hw := h.setReg a (h.reg a &&& ~~~(BitVec.ofNat 32 rc))

/-- Bit `i` of a register. -/
def bitFld (a i : Nat) : Fld := ⟨a, i, i⟩

/-- Set bit `i` of a register to a truth value. -/
def Hw.putBit (h : Hw) (a i : Nat) (b : Bool) : Hw := h.put (bitFld a i) (b2n b)

end Sys2Proof.Machine
end

