-- ==== Sys2Proof/Machine/Sampling.lean ====
section
/-!
DEFINITION. Sample instants and synchronisation (chapter 04): frame boundaries, the grids of the sample groups, placing
and firing strobes, sync requests and synchronising resets, and the SYNC pins.
-/
namespace Sys2Proof.Machine

/-! ### Grids (R118, R119) -/

def Grid.period (x : Grid) : Nat := x.m * x.per * nsUnit
def Grid.phase (x : Grid) : Nat := (x.ph + x.f * x.per + x.d) * nsUnit + x.frac

/-- The first instant of a grid at or after `t`. -/
def Grid.atOrAfter (x : Grid) (t : Nat) : Nat :=
  t + (((x.phase : Int) - (t : Int)) % (x.period : Int)).toNat

/-- Instants of a grid in [a, b). -/
def Grid.countIn (x : Grid) (a b : Nat) : Nat :=
  let i := x.atOrAfter a
  if b ≤ i then 0 else (b - 1 - i) / x.period + 1

/-- The grid that a group's registers give. -/
def gridOf (h : Hw) (g : Nat) : Grid :=
  { m := h.get (SMP_GRP_CTL_MULT_M1 g) + 1, f := h.get (SMP_GRP_CTL_FOFS g), d := h.get (SMP_GRP_DLY_D_NS g),
    frac := h.get (SMP_GRP_FRAC_FRAC g), per := h.get SMP_FRAME_PERIOD_PERIOD_NS,
    ph := h.get SMP_FRAME_PHASE_PHASE_NS }

/-- The first instant of a group at or after `t`, with the grid that takes over (R130). -/
def GroupSt.atOrAfter (x : GroupSt) (t : Nat) : Nat :=
  match x.nextGrid with
  | some (f, g2) =>
    let i := x.grid.atOrAfter t
    if i < f then i else g2.atOrAfter (max t f)
  | none => x.grid.atOrAfter t

/-- Instants of a group in [a, b). -/
def GroupSt.countIn (x : GroupSt) (a b : Nat) : Nat :=
  match x.nextGrid with
  | some (f, g2) => x.grid.countIn a (min b f) + g2.countIn (max a f) b
  | none => x.grid.countIn a b

/-- The earliest time at which the group may take its next instant (R122, R125, R669). -/
def GroupSt.floor (x : GroupSt) : Nat :=
  match x.last with
  | some l => max x.notBefore (l + 1)
  | none => x.notBefore

/-- The member channels of a group (R121). -/
def Hw.members (h : Hw) (g : Nat) : List Nat :=
  (List.range nChan).filter (fun m => h.on (SMP_CH_EN m) && decide (h.get (SMP_CH_GROUP m) = g))

/-- Show which groups are armed and strobing (R138). -/
def Hw.showActive (h : Hw) : Hw :=
  let mask := (List.range 8).foldl (fun a g => a + b2n (h.released && (h.grp g).armed) * 2 ^ g) 0
  (h.put SMP_STATUS_ACTIVE mask).put SMP_STATUS_WAIT_TIME (b2n (!h.released))

/-! ### Sync requests (R129, R134) -/

/-- A source of requests has one that has not reached its instants: source bit 0 commit or release, 1 SYNC_IN, 2
scheduled. -/
def Hw.syncPending (h : Hw) (src : Nat) : Bool :=
  (decide (src = 1) && h.smp.pinWait.isSome) || (decide (src = 2) && h.smp.armReq.isSome) ||
  h.smp.reqs.any (fun r => natBit r.src src && decide (r.mask ≠ 0)) ||
  (List.range 8).any (fun g => natBit (h.grp g).resetSrc src)

/-- Show the pending bits of SMP_SYNC_STATUS (R141). -/
def Hw.showPend (h : Hw) : Hw :=
  (h.put SMP_SYNC_STATUS_IN_PEND (b2n (h.syncPending 1))).put SMP_SYNC_STATUS_SCHED_PEND (b2n (h.syncPending 2))

/-- Give a group its reset from a request whose boundary F has come (R129): the first instant at or after F. Requests
that resolve to one instant merge, with the sources of a request whose reset a commit at F moved to its new grid; while the
group waits for another reset instant the request waits (R134). `edge`: 80 ns after the present tick. -/
def GroupSt.resolve (x : GroupSt) (f src edge : Nat) : Option GroupSt :=
  let i := x.atOrAfter f
  match x.resetAt with
  | some r => if r = i then some { x with resetSrc := x.resetSrc ||| src } else none
  | none => some { x with resetAt := some i, resetSrc := x.resetSrc ||| src, soon := decide (i < edge),
                          notBefore := max x.notBefore (if x.origin.isNone then i else 0) }

/-- 80 ns after the present tick: an instant before it is placed no more (R123). -/
def Hw.placeEdge (h : Hw) : Nat := h.time.now + 80 * nsUnit

/-- Resolve the groups of one request that are armed; a group of the mask that is not armed keeps its bit while F's tick
lasts, since a commit at F may arm it. -/
def Hw.resolveReq (h : Hw) (r : SyncReq) : Hw × SyncReq :=
  match r.boundary with
  | some f =>
    (List.range 8).foldl (fun (p : Hw × SyncReq) g =>
      if natBit p.2.mask g ∧ (p.1.grp g).armed = true ∧ p.1.released then
        match (p.1.grp g).resolve f r.src p.1.placeEdge with
        | some x => (p.1.setGrp g x, { p.2 with mask := natPut p.2.mask g g 0 })
        | none => p
      else p) (h, r)
  | none => (h, r)

/-- Resolve every request whose boundary has come. -/
def Hw.settleReqs (h : Hw) : Hw :=
  let r := h.smp.reqs.foldl (fun (p : Hw × List SyncReq) r =>
    let q := p.1.resolveReq r
    (q.1, if q.2.mask = 0 then p.2 else p.2 ++ [q.2])) (h, [])
  ({ r.1 with smp := { r.1.smp with reqs := r.2 } }).showPend

/-- Once F has passed, a request is ignored by the groups of its mask that were not armed at F (R129). -/
def Hw.dropIgnored (h : Hw) : Hw :=
  if h.smp.reqs.any (fun r => r.boundary.isSome) then
    let keep (r : SyncReq) : SyncReq :=
      if r.boundary.isSome then
        { r with mask := (List.range 8).foldl (fun a g => a + b2n (natBit r.mask g && (h.grp g).armed && h.released) * 2 ^ g) 0 }
      else r
    ({ h with smp := { h.smp with reqs := (h.smp.reqs.map keep).filter (fun r => decide (r.mask ≠ 0)) } }).showPend
  else h

/-- Before a strobe at `i`: a request whose boundary F is not past `i`, and that makes `i` the group's reset instant, gives
the group its reset, since the hold at F precedes what else F does (R60, R129). -/
def Hw.settleFor (h : Hw) (g i : Nat) : Hw :=
  let r := h.smp.reqs.foldl (fun (p : Hw × List SyncReq) r =>
    if r.boundary.isNone ∧ natBit r.mask g = true ∧ h.boundaryFrom r.time ≤ i then
      match (p.1.grp g).resolve (h.boundaryFrom r.time) r.src p.1.placeEdge with
      | some x => if x.resetAt = some i then (p.1.setGrp g x, p.2 ++ [{ r with mask := natPut r.mask g g 0 }]) else (p.1, p.2 ++ [r])
      | none => (p.1, p.2 ++ [r])
    else (p.1, p.2 ++ [r])) (h, [])
  { r.1 with smp := { r.1.smp with reqs := r.2 } }

/-- Make a sync request; its boundary has come if it is the one that acts now. -/
def Hw.syncRequest (h : Hw) (t mask src : Nat) : Hw :=
  let b := match h.boundaryNow with
    | some b => if h.boundaryFrom t = b then some b else none
    | none => none
  let r : SyncReq := { time := t, mask := mask, src := 2 ^ src, boundary := b }
  ({ h with smp := { h.smp with reqs := h.smp.reqs ++ [r] } }).settleReqs

/-- Drop what a source has pending (R132). -/
def Hw.cancelSource (h : Hw) (src : Nat) : Hw :=
  let h1 := { h with smp := { h.smp with reqs := h.smp.reqs.filter (fun r => !natBit r.src src) } }
  (h1.each (List.range 8) (fun h g =>
    let x := h.grp g
    let s := natPut x.resetSrc src src 0
    h.setGrp g (if x.resetAt.isSome && decide (s = 0) then { x with resetAt := none, resetSrc := 0 }
                else { x with resetSrc := s }))).showPend

/-- Sampling is released (R122): a sync request of all armed groups at the time of release. -/
def Hw.release (h : Hw) : Hw :=
  let h1 := h.put SYS_BOOT_RELEASED 1
  let f := h1.boundaryFrom h1.time.now
  let armed := (List.range 8).filter (fun g => (h1.grp g).armed)
  let h2 := h1.each armed (fun h g => h.setGrp g { h.grp g with notBefore := f })
  (h2.syncRequest h2.time.now (armed.foldl (fun a g => a + 2 ^ g) 0) 0).showActive

/-- Raw index and origin of an instant of a group: the reset instant is index 0 (R125, R128). -/
def GroupSt.indexOf (x : GroupSt) (i : Nat) : Option (Nat × Nat) :=
  if x.resetAt = some i then some (0, i)
  else match x.origin with
    | some o => if o ≤ i then some ((i - o) / x.grid.period, o) else none
    | none => none

/-! ### Placing a strobe (R123-R125) -/

/-- Coarse steps and fine taps of an instant `i` from the tick at network time `t` with increment `incr` (R123). -/
def coarseFine (i t incr : Nat) : Nat × Nat :=
  let num := (i - t) * 40
  let f := (roundHalfEven ((num % incr * 800 : Nat) : Int) incr).toNat
  if f = 1024 then (num / incr + 1, 0) else (num / incr, f)

/-- The scheduler's work for a group at the present tick: skip what no tick places any more, then place the next
instant if this is its tick. A reset instant that was set when no tick could place it any more is not skipped. -/
def Hw.place (h : Hw) (g : Nat) : Hw :=
  let x := h.grp g
  if h.released && x.armed && x.placed.isNone then
    let edge := h.placeEdge
    let i0 := x.atOrAfter x.floor
    if x.soon = true ∧ (x.resetAt = some i0 ∨ x.origin = some i0) ∧ h.time.now ≤ i0 ∧ i0 < edge then h
    else
      let n := x.countIn x.floor edge
      let first := (x.indexOf i0).map (fun p => (p.1, n))
      let x1 := if n = 0 then x else { x with last := some (edge - 1), skips := x.skips ++ first.toList }
      let h1 := (h.setGrp g x1).when (decide (n ≠ 0)) (fun h => h.bump (SMP_GRP_SKIP_SKIPPED g) n)
      let i := x1.atOrAfter (max x1.floor edge)
      if i < edge + h.incrNow then
        let cf := coarseFine i h.time.now h.incrNow
        h1.setGrp g { x1 with placed := some { instant := i, tick := h.ns, coarse := cf.1, fine := cf.2 } }
      else h1
  else h

/-! ### Strobes (R121, R122, R128, R135) -/

/-- A pulse joins those before it: one that would overlap the last merges with it, and ends at the later end. -/
def joinPulse (l : List (Nat × Nat)) (p : Nat × Nat) : List (Nat × Nat) :=
  match l.getLast? with
  | some q => if p.1 ≤ q.2 then l.dropLast ++ [(min p.1 q.1, max p.2 q.2)] else l ++ [p]
  | none => [p]

/-- SYNC_OUT pulses from 3 ns after an instant for WIDTH_NS; overlapping pulses merge (R135). -/
def Hw.syncPulse (h : Hw) (i : Nat) : Hw :=
  let rise := i + 3 * nsUnit
  { h with smp := { h.smp with syncOut := joinPulse h.smp.syncOut (rise, rise + max 20 (h.get SMP_SYNC_OUT_WIDTH_NS) * nsUnit) } }

/-- SYNC_OUT is high at a network time. -/
def Hw.syncHigh (h : Hw) (t : Nat) : Bool := h.smp.syncOut.any (fun p => decide (p.1 ≤ t ∧ t < p.2))

/-- The instant at which a group strobes now: its placed instant when its coarse delay is reached, or a reset instant
that comes sooner than 80 ns after the boundary that made it. -/
def Hw.strobeInstant (h : Hw) (g : Nat) : Option Nat :=
  let x := h.grp g
  if h.released && x.armed then
    match x.placed with
    | some p => if h.due (p.tick + p.coarse) then some p.instant else none
    | none =>
      match (if x.resetAt.isSome then x.resetAt else x.origin) with
      | some r => if x.soon = true ∧ h.time.now ≤ r ∧ h.reached r ∧ x.floor ≤ r then some r else none
      | none => none
  else none

/-- A strobe at instant t of a channel that a relieving unit serves: from B1 + 0.5 us (R105). -/
def Hw.calAt (h : Hw) (ch t : Nat) : Bool :=
  h.on (FE_STATUS_CAL ch) &&
  (match storeGet (fun _ => none) h.field.relief (clusOfChan ch) with
    | some r => decide (r.ch ≠ ch) || decide (r.b1 + 500 * nsUnit ≤ t)
    | none => true)

/-- The front-end flag of a channel: its open comparator or its saturation detector is tripped (R90). -/
def Hw.feFlag (h : Hw) (ch : Nat) : Bool := h.cmpTripped ch || h.on (FE_STATUS_SAT ch)

/-- An input terminal of the channel is isolated at instant `i`. A hold at the boundary at which a commit applies is taken on
the routes before the commit (R60, R669). -/
def Hw.isolatedFor (h : Hw) (i ch : Nat) : Bool :=
  match h.smp.isolatedAt with
  | some (b, l) => if b = i then l.contains ch else h.chanIsolated ch
  | none => h.chanIsolated ch

/-- The frame of an instant, as the raw-sample store counts frames: the present one, or one after it (R228). -/
def Hw.frameCount (h : Hw) (i : Nat) : Nat :=
  match h.smp.lastBoundary with
  | some b => h.seq.frame + (i - b) / (h.smp.per * nsUnit)
  | none => h.seq.frame

/-- What a track-and-hold holds at an instant, with all that the sample's tag will need. -/
def Hw.holdOf (h : Hw) (g i raw origin ch : Nat) : Hold :=
  let d := 2 * clusOfChan ch
  { ch := ch, group := g, instant := i, raw := raw, origin := origin, enabled := h.on (FE_CFG_EN ch),
      isOpen := h.isOpen ch, sat := h.on (FE_STATUS_SAT ch), flag := h.feFlag ch, isolated := h.isolatedFor i ch,
      settle := h.inFeWindow ch i || h.inExWindow ch i || h.probeBusy ch, exc := h.inExWindow ch i,
      cal := h.calAt ch i, parked := h.parked ch,
      polA := h.on (EXC_STATUS_POL d), polB := h.on (EXC_STATUS_POL (d + 1)), 
      edgesA := (h.drv d).edges, edgesB := (h.drv (d + 1)).edges, frame := h.frameCount i, tq := h.get TIM_STATUS_QUALITY }

/-- What the raw-sample store has of a held value. -/
def Hw.stored (h : Hw) (x : Hold) : Option RawCell :=
  (storeGet (fun _ => none) h.seq.raw (4 * x.ch + x.frame % 4)).filter (fun c => decide (c.frame = x.frame))

/-- A held value that is not in the raw-sample store, as a FEED presents it: a lost sample (R228). -/
def Hold.lostCell (x : Hold) : RawCell :=
  { frame := x.frame, lost := true, absent := true, code := 0, ovr := false, flag := x.flag, hold := x, bad := false, cal := false,
    offered := false }

/-- The next hold replaces a value that no conversion has brought to the raw-sample store (R168, R228): FEEDs of its frame
present a lost sample. -/
def Hw.noteMissing (h : Hw) (x : Hold) : Hw :=
  if (h.stored x).isSome then h
  else { h with seq := { h.seq with raw := storeSet (fun _ => none) h.seq.raw (4 * x.ch + x.frame % 4) (some x.lostCell) } }

/-- A track-and-hold holds (R121). -/
def Hw.holdChan (h : Hw) (g i raw origin ch : Nat) : Hw :=
  let x := h.holdOf g i raw origin ch
  let y := storeGet (fun _ => none) h.smp.held ch
  let old := if y.any (fun y => decide (y.origin ≠ origin)) then storeSet (fun _ => none) h.smp.heldOld ch y else h.smp.heldOld
  let h0 := match y with
    | some y => h.noteMissing y
    | none => h
  let h1 := { h0 with smp := { h0.smp with held := storeSet (fun _ => none) h0.smp.held ch (some x), heldOld := old } }
  (h1.satStrobe ch).windowsStrobed ch

/-- A due probe of the channel's cluster may pulse after this strobe at `i` (R75). -/
def Hw.probeSees (h : Hw) (i ch : Nat) : Hw :=
  match h.probe (clusOfChan ch) with
  | some p =>
    if p.phase = .due ∧ (h.termChans p.term).contains ch ∧ (p.edge = true ∨ h.chopped (clusOfChan ch) = false) then
      h.setProbe (clusOfChan ch) (some { p with strobed := some i })
    else h
  | none => h

/-- A group strobes. -/
def Hw.strobe (h : Hw) (g : Nat) : Hw :=
  match h.strobeInstant g with
  | some i =>
    let h0 := h.settleFor g i
    let x := h0.grp g
    let h1 := h0.setGrp g { x with placed := none, last := some i }
    match x.indexOf i with
    | some (raw, origin) =>
      let h2 := h1.each (h1.members g) (fun h ch => (h.holdChan g i raw origin ch).probeSees i ch)
      h2.when (decide (h2.get SMP_SYNC_OUT_MODE = 2 ∧ h2.get SMP_SYNC_OUT_SEL = g)) (fun h => h.syncPulse i)
    | none => h1
  | none => h

/-- LAST_SRC of a set of sources (R134, R141). -/
def lastSrc (src : Nat) : Nat := if src = 1 then 0 else if src = 2 then 1 else if src = 4 then 2 else 3

/-- Holds that a group took at the reset instant before its reset was known belong to the new origin as raw index 0 (R669):
a commit or a late request that applies at the boundary at which the hold was taken makes that hold the reset instant. -/
def Hw.relabel (h : Hw) (g i : Nat) : Hw :=
  h.each (h.members g) (fun h ch =>
    match storeGet (fun _ => none) h.smp.held ch with
    | some x =>
      if x.group = g ∧ x.instant = i ∧ x.origin ≠ i then
        let before := if x.raw = 0 then none else some { x with raw := x.raw - 1 }
        { h with smp := { h.smp with held := storeSet (fun _ => none) h.smp.held ch (some { x with raw := 0, origin := i }),
                                     heldOld := storeSet (fun _ => none) h.smp.heldOld ch before } }
      else h
    | none => h)

/-- The sampling part of a group's reset at its instant (R128): the origin, SYNC_OUT and SMP_SYNC_STATUS. -/
def Hw.groupReset (h : Hw) (g i : Nat) : Hw :=
  let x := h.grp g
  let same := (List.range 8).filter (fun k => decide ((h.grp k).origin = some i) && natBit (h.get SMP_SYNC_STATUS_LAST_MASK) k)
  let h1 := h.setGrp g { x with origin := some i, resetAt := none, resetSrc := 0, chopN := 0, skips := [] }
  let src := lastSrc x.resetSrc
  let src := if same.isEmpty ∨ src = h.get SMP_SYNC_STATUS_LAST_SRC then src else 3
  let h2 := (h1.put SMP_SYNC_STATUS_LAST_MASK ((g :: same.filter (fun k => decide (k ≠ g))).foldl (fun a k => a + 2 ^ k) 0)).put
    SMP_SYNC_STATUS_LAST_SRC src
  (h2.when (decide (h2.get SMP_SYNC_OUT_MODE = 1) && natBit (h2.get SMP_SYNC_OUT_OUT_MASK) g)
    (fun h => h.syncPulse i)).settleReqs

/-- The reset that a group takes now. -/
def Hw.resetNow (h : Hw) (g : Nat) : Option Nat :=
  match (h.grp g).resetAt with
  | some i => if h.reached i then some i else none
  | none => none

/-! ### Frame boundaries (R118, R130) -/

/-- The frame boundary that network time reaches in the present tick and that has not acted. -/
def Hw.nextBoundary (h : Hw) : Option Nat :=
  let b := match h.smp.lastBoundary with
    | some l => h.boundaryFrom (max (l + 1) h.time.now)
    | none => h.boundaryFrom h.time.now
  if h.reached b then some b else none

/-- What the scheduler does at a boundary: a new schedule and new grids take over, frames are counted, and sync
requests whose boundary this is give the groups their resets. -/
def Hw.smpBoundary (h : Hw) (b : Nat) : Hw :=
  let s := h.smp
  let (per, ph, sched) := match s.nextSched with
    | some (f, per, ph) => if f ≤ b then (per, ph, none) else (s.per, s.ph, s.nextSched)
    | none => (s.per, s.ph, none)
  let reqs := s.reqs.map (fun r =>
    match r.boundary with
    | some _ => { r with mask := (List.range 8).foldl (fun a g => a + b2n (natBit r.mask g && (h.grp g).armed && h.released) * 2 ^ g) 0 }
    | none => if r.time ≤ b then { r with boundary := some b } else r)
  let h1 := { h with smp := { s with per := per, ph := ph, nextSched := sched, lastBoundary := some b, reqs := reqs } }
  let h2 := h1.each (List.range 8) (fun h g =>
    let x := h.grp g
    let x1 := match x.nextGrid with
      -- what the old grid's origin gave is held no more (R670)
      | some (f, g2) => if f ≤ b then { x with grid := g2, nextGrid := none, origin := x.origin.filter (fun o => decide (f ≤ o)) } else x
      | none => x
    let early := x1.resetAt.any (fun i => decide (s.lastBoundary.any (fun l => decide (l ≤ i)) ∧ i < b))
    -- a reset at this boundary's own instant may have been taken already
    h.setGrp g { x1 with chopN := if x1.origin = some b then 0 else if early then 1 else x1.chopN + 1 })
  h2.settleReqs

/-! ### SYNC_IN and scheduled requests (R131-R133) -/

/-- An AON tick brings a registered SYNC_IN edge nearer to its effective time, T_(k+2) (R131). -/
def Hw.pinTick (h : Hw) : Hw :=
  match h.smp.pinWait with
  | some (n + 2) => { h with smp := { h.smp with pinWait := some (n + 1) } }
  | some _ => ({ h with smp := { h.smp with pinWait := none } }).syncRequest h.time.now (h.get SMP_SYNC_CTL_IN_MASK) 1
  | none => h

/-- An edge of SYNC_IN registers at a tick. -/
def Hw.pinEdge (h : Hw) (rising : Bool) : Hw :=
  let h1 := h.unitsCause (.syncIn (!rising) h.time.now)
  if h1.on SMP_SYNC_CTL_IN_EN && (h1.on SMP_SYNC_CTL_IN_EDGE == !rising) then
    if h1.syncPending 1 then h1.flag SMP_SYNC_STATUS_IN_MERGED
    else ({ h1 with smp := { h1.smp with pinWait := some 2 } }).showPend
  else h1

/-- A write of SMP_SYNC_T2 with the held words (R17): ARM = 1 arms a request and replaces a pending one, ARM = 0 cancels
(R132). -/
def Hw.syncT2Write (h : Hw) (q : Requester) (v : Word) : Hw :=
  let ns := h.heldOr q SMP_SYNC_T0 (h.reg SMP_SYNC_T0)
  let lo := h.heldOr q SMP_SYNC_T1 (h.reg SMP_SYNC_T1)
  let h1 := ((h.dropHeld q SMP_SYNC_T0 3).writeRw SMP_SYNC_T0 0x3FFFFFFF ns).setReg SMP_SYNC_T1 lo
  let h2 := h1.writeRw SMP_SYNC_T2 0xFFFFFF v
  let had := h2.syncPending 2
  let h3 := ({ h2 with smp := { h2.smp with armReq := none } }).cancelSource 2
  if natBit v.toNat 31 then
    let t := timeOf (lo.toNat + 2 ^ 32 * bits v 15 0) (bits ns 29 0) 0
    let h4 := h3.when had (fun h => h.flag SMP_SYNC_STATUS_REPLACED)
    ({ h4 with smp := { h4.smp with armReq := some (t, bits v 23 16, h4.time.tick) } }).showPend
  else h3

/-- The evaluation of an armed request at the first tick after its arming (R132, R133). -/
def Hw.syncEval (h : Hw) : Hw :=
  match h.smp.armReq with
  | some (t, mask, tick) =>
    if tick < h.time.tick then
      let te := h.time.now
      let h1 := { h with smp := { h.smp with armReq := none } }
      if h.boundaryFrom t ≤ te then
        let h2 := (h1.flag SMP_SYNC_STATUS_LATE).raise srcSyncLate mask
        if h2.on SMP_SYNC_CTL_LATE_ACT then h2.syncRequest (te + 1) mask 2 else h2.showPend
      else h1.syncRequest t mask 2
    else h
  | none => h

/-! ### Commits (R120, R129, R130, R669) -/

/-- Values that R120 refuses, in a candidate configuration. -/
def samplingOutOfRange (h : Hw) : Bool :=
  let per := h.get SMP_FRAME_PERIOD_PERIOD_NS
  decide (per < 800) || decide (1000000000 < per) || decide (per ≤ h.get SMP_FRAME_PHASE_PHASE_NS) ||
  (List.range 8).any (fun g => h.on (SMP_GRP_DLY_ARM g) &&
    (decide (h.get (SMP_GRP_CTL_MULT_M1 g) + 1 ≤ h.get (SMP_GRP_CTL_FOFS g)) ||
     decide ((per - 800) * nsUnit < h.get (SMP_GRP_DLY_D_NS g) * nsUnit + h.get (SMP_GRP_FRAC_FRAC g))))

/-- A group at a commit that applies at boundary `b` (with the Bridle stopped, the first one after it): F is the boundary from which a changed schedule runs. Answers the group and
whether the commit's own request names it. -/
def groupCommit (x : GroupSt) (arm : Bool) (grid : Grid) (sched : Option Nat) (b : Nat) : GroupSt × Bool :=
  let drop (x : GroupSt) (from_ : Nat) : GroupSt :=
    { x with placed := match x.placed with
        | some p => if p.instant < from_ then some p else none
        | none => none }
  if arm = false then
    -- a disarmed group loses its pending reset (R134)
    ({ drop x b with armed := false, resetAt := none, resetSrc := 0, nextGrid := none }, false)
  else match sched with
    | some f =>
      if x.armed then
        let x1 := drop { x with nextGrid := some (f, grid), notBefore := x.notBefore } f
        (match x1.resetAt with
          | some i => if f ≤ i then { x1 with resetAt := none } else x1
          | none => x1, true)
      else ({ drop x b with armed := true, grid := grid, nextGrid := none, notBefore := f, origin := none, resetAt := none, resetSrc := 0 }, true)
    | none =>
      if x.armed ∧ grid = x.grid then (x, false)
      else
        let keep := x.placed.any (fun p => decide (p.instant = grid.atOrAfter b))
        -- before its reset instant the group holds nothing (R670); a pending reset's sources join the commit's (R134)
        ({ x with armed := true, grid := grid, nextGrid := none, notBefore := b, resetAt := none,
                  resetSrc := if x.armed then x.resetSrc else 0, origin := none,
                  placed := if keep then x.placed else (drop x b).placed }, true)

/-- The commit's effect on the scheduler, with the new registers in place; `old` holds the old ones. -/
def Hw.smpCommit (h old : Hw) (b : Nat) : Hw :=
  let per := h.get SMP_FRAME_PERIOD_PERIOD_NS
  let ph := h.get SMP_FRAME_PHASE_PHASE_NS
  let changed := decide (per ≠ old.get SMP_FRAME_PERIOD_PERIOD_NS) || decide (ph ≠ old.get SMP_FRAME_PHASE_PHASE_NS)
  let f := Machine.boundaryFrom per ph (b + 800 * nsUnit)
  let routes := (List.range nChan).filter old.chanIsolated
  let h0 : Hw := { h with smp := { h.smp with isolatedAt := some (b, routes) } }
  let h1 := h0.when changed (fun h => { h with smp := { h.smp with nextSched := some (f, per, ph) } })
  let r := (List.range 8).foldl (fun (p : Hw × Nat) g =>
    let q := groupCommit (p.1.grp g) (h.on (SMP_GRP_DLY_ARM g)) (gridOf h g) (if changed then some f else none)
      (h.boundaryFrom b)
    (p.1.setGrp g q.1, p.2 + b2n q.2 * 2 ^ g)) (h1, 0)
  let h2 := if r.2 = 0 then r.1.settleReqs else r.1.syncRequest (if changed then f else b) r.2 0
  -- R147: a channel whose EN or GROUP changes starts a front-end settle window
  (h2.each ((List.range nChan).filter (fun m => decide (h.reg (SMP_CH m) ≠ old.reg (SMP_CH m)))) (fun h m => h.feWindow m b)).showActive

/-! ### The commands -/

def execStrobePlace (g : Nat) (s : State) : Out := actOn s (isGroup g) (fun h => h.place g)

def execGroupStrobe (g : Nat) (s : State) : Out := actOn s (isGroup g) (fun h => h.strobe g)

def execSyncInEdge (rising : Bool) (s : State) : Out := actOn s true (fun h => h.pinEdge rising)

def execSyncScheduleArm (q : Requester) (v : Word) (s : State) : Out := accWrite s q true (fun h => h.syncT2Write q v)

def execSyncScheduleCancel (q : Requester) (v : Word) (s : State) : Out :=
  accWrite s q true (fun h => h.syncT2Write q v)

def execSyncScheduleEval (s : State) : Out := actOn s true Hw.syncEval

def execSyncOutPulseEnd (s : State) : Out :=
  actOn s true (fun h =>
    match h.smp.syncOut with
    | p :: rest => if h.reached p.2 then { h with smp := { h.smp with syncOut := rest } } else h
    | [] => h)

end Sys2Proof.Machine
end

