-- ==== Sys2Proof/Machine/Epochs.lean ====
section
/-!
DEFINITION. The requests around a commit and a snapshot: sealing the staging set (R35, R38), taking, releasing and
timing out the snapshot (R40, R41, R438), and START_FREE (R595).
-/
namespace Sys2Proof.Machine

/-! ### Sealing (R35, R38) -/

/-- The staging set as it stands becomes the sealed set, and later writes go to a new staging set. -/
def Hw.seal (h : Hw) (path srcId : Nat) : Hw :=
  let x : Sealed := { set := h.epoch.staging, path := path, srcId := srcId, validated := false, seen := none }
  let h1 : Hw := { h with epoch := { h.epoch with staging := { regs := [], table := [] }, sealedSet := some x } }
  h1.put SYS_COMMIT_STATUS_PENDING 1

/-- The source hub ID that a requester's commit records: the frame's for a port, 0 for the loader and MSPI (R46). -/
def sourceId (q : Requester) (src : Nat) : Nat :=
  match q with
  | .portA => src % 65536
  | .portB => src % 65536
  | _ => 0

/-- A write of SYS_COMMIT. The loader's own GO is part of its start (R603). -/
def Hw.commitGo (h : Hw) (q : Requester) (src : Nat) (v : Word) : Hw :=
  if v.toNat.testBit 0 = false ∨ q = .loader then h
  else if h.epoch.sealedSet.isSome then h.put SYS_COMMIT_STATUS_REFUSED 1
  else h.seal (pathOf q) (sourceId q src)

/-! ### The snapshot (R40, R41) -/

/-- Another requester than `q` holds the snapshot or waits for one. -/
def Hw.snapTaken (h : Hw) (q : Requester) : Bool :=
  (h.on SYS_SNAP_HELD && decide (h.get SYS_SNAP_OWNER ≠ pathOf q)) ||
  h.epoch.snapReq.any (fun r => decide (pathOf r ≠ pathOf q))

/-- `q` holds the snapshot. -/
def Hw.snapOwned (h : Hw) (q : Requester) : Bool :=
  h.on SYS_SNAP_HELD && decide (h.get SYS_SNAP_OWNER = pathOf q)

/-- A request of a snapshot at the next frame boundary. It is refused while another requester holds the snapshot; an
owner's second request has no effect. -/
def Hw.snapAsk (h : Hw) (q : Requester) : Hw :=
  if q = .loader then h
  else if h.snapTaken q then h.put SYS_SNAP_REFUSED 1
  else if h.on SYS_SNAP_HELD ∨ h.epoch.snapReq.isSome then h
  else { h with epoch := { h.epoch with snapReq := some q, snapSeen := h.smp.lastBoundary } }

/-- The request under way falls due: a boundary after the request is reached, before or after its other effects; or the
Bridle is stopped and the request is a SNAP_READ's (R438). -/
def Hw.snapDue (h : Hw) : Bool :=
  h.epoch.snapReq.isSome &&
  (h.nextBoundary.isSome || (h.boundaryNow.isSome && decide (h.boundaryNow ≠ h.epoch.snapSeen)) ||
    (h.epoch.snapAuto && !h.seq.running))

/-- The requester takes the snapshot: every RO, RC and W1C field reads from now on as it stands, SYS_EPOCH included. -/
def State.snapTakeFor (s : State) (q : Requester) : State :=
  let h := (s.hw.put SYS_SNAP_HELD 1).put SYS_SNAP_OWNER (pathOf q)
  let h1 : Hw := { h with epoch := { h.epoch with snapReq := none, snapSeen := none, snapSince := h.ns } }
  { s with hw := h1, frozen := some h1 }

/-- The snapshot that is due is taken. -/
def State.snapTake (s : State) : State :=
  match s.hw.epoch.snapReq with
  | some q => if s.hw.snapDue then s.snapTakeFor q else s
  | none => s

/-- The snapshot is released. -/
def State.snapRelease (s : State) : State :=
  let h := (s.hw.put SYS_SNAP_HELD 0).put SYS_SNAP_OWNER 0
  { s with hw := { h with epoch := { h.epoch with snapAuto := false } }, frozen := none }

/-- A write of REL acts only when the owner writes it. -/
def State.snapRel (s : State) (q : Requester) : State := if s.hw.snapOwned q then s.snapRelease else s

/-- A write of SYS_SNAP: REFUSED clears, REL acts, then REQ. -/
def State.snapWrite (s : State) (q : Requester) (v : Word) : State :=
  let s1 : State := { s with hw := s.hw.clearBits SYS_SNAP 0x8 v }
  let s2 := if v.toNat.testBit 1 then s1.snapRel q else s1
  if v.toNat.testBit 0 then { s2 with hw := s2.hw.snapAsk q } else s2

/-- The owner has not released the snapshot within SYS_SNAP_TO. -/
def State.snapTimeout (s : State) : State :=
  if s.hw.on SYS_SNAP_HELD && s.hw.due (s.hw.epoch.snapSince + msNs (s.hw.get SYS_SNAP_TO_TIMEOUT_MS)) then s.snapRelease else s

/-! ### START_FREE (R595) -/

/-- Sampling is released with QUALITY FREE, once the first commit has applied and while QUALITY is UNSET. -/
def Hw.startFree (h : Hw) (v : Word) : Hw :=
  if v.toNat.testBit 0 ∧ h.running = true ∧ h.quality = 3 then
    let h1 := (h.put TIM_STATUS_QUALITY 2).put SYS_BOOT_FREE_START 1
    h1.when (!h1.released) Hw.release
  else h

/-! ### The commands -/

def execCommitGo (q : Requester) (src : Nat) (v : Word) (s : State) : Out :=
  accWrite s q true (fun h => h.commitGo q src v)

/-- SYS_SNAP.REQ written by a requester (R41). -/
def execSnapReq (q : Requester) (s : State) : Out := accWrite s q true (fun h => h.snapAsk q)

def execSnapTake (s : State) : Out := .next (if s.hw.live && s.hw.coreOn then s.snapTake else s)

/-- SYS_SNAP.REL written by a requester (R41). -/
def execSnapRel (q : Requester) (s : State) : Out :=
  .next (if s.hw.writable q then { s.snapRel q with rdata := [], status := 0 } else { s with rdata := [], status := 0 })

def execSnapTimeout (s : State) : Out := .next (if s.hw.live then s.snapTimeout else s)

def execStartFree (q : Requester) (v : Word) (s : State) : Out := accWrite s q true (fun h => h.startFree v)

end Sys2Proof.Machine
end

