-- ==== Sys2Proof/Machine/Domains.lean ====
section
/-!
DEFINITION. The clock domains that stop and start (R25 to R29), and the wake crossings (R543).
-/
namespace Sys2Proof.Machine

/-- The cores that serve a position (R150, R176). -/
def Hw.servingCores (h : Hw) : List Nat := ((List.range 8).map (fun p => h.get ⟨ADC_MAP, 4 * p + 3, 4 * p⟩)).filter (fun c => decide (c < 9))

/-- Conversions of some cores are due: their CONV clocks run for the burst, TIMING because CONV is divided from it, and
STITCH for the results (R25). -/
def Hw.wakeConv (h : Hw) (cores : List Nat) : Hw := ((h.wake .timing).each cores (fun h c => h.wake (.conv c))).wake .stitch

/-- Every domain that stops. -/
def allDomains : List Domain := [.timing, .core, .stitch] ++ (List.range 9).map .conv

/-- The tick at which a domain's entry into sleep completes; a request that came meanwhile wakes it (R29). -/
def Hw.domTick (h : Hw) : Hw :=
  h.each allDomains (fun h d =>
    let x := h.dom d
    if x.mode = .entering then
      let h1 := h.setDom d { mode := .off, again := false, since := h.ns }
      if x.again then h1.wake d else h1
    else h)

/-- A WAKE crossing's request: it wakes CORE, and is acted on when CORE runs (R543). -/
def Hw.wakeRequest (h : Hw) (x : Nat) : Hw :=
  let h1 := (h.xingReq x).wake .core
  h1.when h1.coreOn (fun h => h.xingActed x)

/-- CONV is divided from TIMING, and waits for it (R25). -/
def Hw.wakeable (h : Hw) : Domain → Bool
  | .conv _ => decide (h.clk.timing.mode = .on)
  | _ => true

/-- A domain completes its wake. -/
def Hw.wakeDone (h : Hw) (d : Domain) : Hw :=
  let x := h.dom d
  if x.mode = .waking ∧ h.wakeable d = true then
    let h1 := h.setDom d { mode := .on, again := false, since := h.ns }
    if d = .core then
      let h2 := h1.bump CLK_WAKE_COUNT_CORE_WAKES 1
      h2.each [5, 6, 7] (fun h x => h.when (h.xing x).busy (fun h => h.xingActed x))
    else h1
  else h

/-! ### The commands -/

/-- R28. -/
def execCoreWakeDemand (dem : Demand) (s : State) : Out :=
  actOn s true (fun h =>
    match dem with
    | .mspi => h.wakeRequest 7
    | .partner p => h.wakeRequest (5 + portNo p)
    | _ => h.wake .core)

end Sys2Proof.Machine
end

