-- ==== Sys2Proof/Machine/FirRom.lean ====
section
/-!
DEFINITION. The coefficient stores of the filter chain (R192, R201, R202): the half-band set and the 64 responses of
the ROM, computed from the spec's design rule. A response is symmetric with an odd number of taps (R193), so a table
holds its taps from the first to the centre one.
-/
namespace Sys2Proof.Machine

/-- Half-band taps 0 to 31 (R192): the centre tap is 2^18, and taps an even, non-zero distance from it are 0. -/
def hbHalf : List Int :=
  [-3, 0, 20, 0, -67, 0, 172, 0, -375, 0, 732, 0, -1318, 0, 2228, 0, -3585, 0, 5559, 0, -8399, 0, 12534, 0,
   -18848, 0, 29627, 0, -53302, 0, 166097, 262144]

def rom0 : List Int :=
  [4194304]

def rom1 : List Int :=
  [0, 7838, 21822, 14034, -47582, -135221, -128240, 108739, 572844, 1053379, 1259078]

def rom2 : List Int :=
  [-33, -787, -1467, 1326, 7813, 7917, -9817, -33169, -22286, 41537, 98462, 42926, -136545, -258376, -62046,
   513209, 1174510, 1467956]

def rom3 : List Int :=
  [0, 364, 0, -1315, 0, 3339, 0, -7089, 0, 13422, 0, -23445, 0, 38626, 0, -61083, 0, 94338, 0, -145507, 0, 232853,
   0, -423738, 0, 1327831, 2097112]

def rom4 : List Int :=
  [14, 0, -102, 0, 352, 0, -916, 0, 2024, 0, -4002, 0, 7287, 0, -12443, 0, 20191, 0, -31463, 0, 47542, 0, -70368,
   0, 103337, 0, -153503, 0, 239159, 0, -427781, 0, 1329249, 2097150]

def rom5 : List Int :=
  [81, -364, 434, 406, -2051, 2701, 0, -5735, 9387, -4148, -10516, 23445, -17798, -11937, 46387, -49419, 0, 76323,
   -111248, 44965, 107310, -232860, 179781, 130946, -621221, 1074266, 2936034]

def rom6 : List Int :=
  [-4, 42, -83, 0, 285, -554, 283, 813, -2024, 1693, 1237, -5183, 5895, 0, -10067, 15160, -6239, -14881, 31463,
   -22807, -14691, 55112, -56929, 0, 83601, -119411, 47435, 111557, -239158, 182853, 132191, -623827, 1075383,
   2936014]

def rom7 : List Int :=
  [-62, 121, -168, 162, -60, -162, 489, -852, 1126, -1157, 805, 0, -1197, 2567, -3741, 4270, -3739, 1913, 1128,
   -4909, 8580, -11057, 11267, -8469, 2560, 5725, -14791, 22404, -26143, 24014, -15087, 0, 18837, -37463, 51028,
   -54828, 45517, -22239, -12611, 53231] ++
  [-91002, 115795, -117804, 89579, -27835, -65346, 182254, -310344, 434004, -537019, 605268, 3565186]

def rom8 : List Int :=
  [-33, -787, -1467, 1326, 7813, 7917, -9817, -33169, -22286, 41537, 98462, 42926, -136545, -258376, -62046,
   513209, 1174510, 1467956]

def rom9 : List Int :=
  [-16, -93, 0, 610, 1111, -394, -4108, -4965, 3378, 16211, 14054, -15415, -47195, -29270, 51091, 114779, 47899,
   -147095, -270754, -63679, 519120, 1177884, 1467998]

def rom10 : List Int :=
  [-2, -4, 30, 103, 37, -375, -756, 0, 2142, 3071, -906, -8160, -8756, 5397, 23846, 19275, -19917, -57954, -34416,
   57896, 126074, 51260, -154087, -278831, -64732, 522895, 1180018, 1468008]

def rom11 : List Int :=
  [-12, -67, 0, 372, 542, -515, -2227, -1345, 3771, 7241, 0, -14449, -15123, 10994, 38008, 18996, -45369, -76033,
   0, 123904, 121622, -85512, -297921, -159786, 458858, 1224773, 1572860]

def rom12 : List Int :=
  [131, 0, -703, -773, 1268, 3176, 0, -6742, -5802, 7889, 17016, 0, -28798, -22705, 28669, 58096, 0, -89725,
   -68756, 85530, 173634, 0, -290897, -249078, 383943, 1262899, 1677760]

def rom13 : List Int :=
  [-8, 26, 97, 0, -335, -342, 538, 1316, 0, -2739, -2352, 3203, 6930, 0, -11834, -9370, 11868, 24078, 0, -36903,
   -27944, 34061, 66924, 0, -98279, -73800, 90226, 180503, 0, -295862, -251443, 385546, 1264187, 1677720]

def rom14 : List Int :=
  [0, -5, -8, 17, 54, 0, -157, -154, 236, 568, 0, -1166, -1000, 1363, 2959, 0, -5103, -4065, 5180, 10574, 0,
   -16372, -12439, 15185, 29804, 0, -43170, -31917, 38077, 73397, 0, -104390, -77366, 93516, 185278, 0, -299276,
   -253064, 386646, 1265088] ++
  [1677724]

def rom15 : List Int :=
  [8, -12, -53, 0, 155, 112, -280, -430, 286, 1011, 108, -1732, -1239, 2156, 3301, -1503, -6029, -1166, 8414,
   6492, -8638, -14181, 4420, 22404, 6159, -27567, -23476, 24746, 45191, -8875, -65532, -23538, 75344, 72678,
   -62744, -134360, 13175, 200183, 95777, -259079] ++
  [-330622, 299944, 1294855, 1782578]

def rom16 : List Int :=
  [11, 121, 29, -262, -175, 423, 489, -526, -1016, 442, 1751, 0, -2604, -980, 3375, 2639, -3739, -5008, 3272,
   7942, -1506, -11056, -1978, 13703, 7429, -14988, -14790, 13846, 23584, -9172, -32821, 0, 40980, 14309, -46032,
   -33885, 45516, 58220, -36598, -86127] ++
  [15977, 115792, 20682, -144938, -80779, 171073, 182249, -191798, -391510, 205118, 1316769, 1887398]

def rom17 : List Int :=
  [-5, 8, 20, -11, -52, 0, 103, 43, -165, -141, 217, 313, -220, -569, 115, 891, 168, -1224, -696, 1467, 1509,
   -1468, -2592, 1043, 3849, 0, -5072, -1812, 5943, 4447, -6049, -7804, 4925, 11572, -2130, -15203, -2650, 17919,
   9496, -18758] ++
  [-18148, 16677, 27920, -10685, -37661, 0, 45762, 15785, -50207, -36571, 48649, 61672, -38449, -89804, 16545,
   119169, 21168, -147607, -81912, 172828, 183544, -192668, -392510, 205352, 1317161, 1887430]

def rom18 : List Int :=
  [-1, 0, 3, 3, -5, -9, 7, 21, -5, -39, -8, 64, 39, -89, -98, 101, 189, -80, -312, 0, 453, 169, -579, -452, 639,
   856, -560, -1362, 259, 1909, 343, -2387, -1300, 2634, 2611, -2454, -4196, 1637, 5871, 0] ++
  [-7341, -2560, 8211, 6013, -8015, -10143, 6286, 14518, -2629, -18479, -3174, 21168, 11072, -21601, -20655,
   18772, 31099, -11785, -41153, 0, 49163, 16828, -53139, -38447, 50825, 64058, -39723, -92324, 16933, 121466,
   21497, -149413, -82676, 174010, 184413, -193251, -393177, 205507, 1317410, 1887432]

def rom19 : List Int :=
  [10, -4, -55, 0, 159, 39, -359, -164, 689, 465, -1174, -1070, 1804, 2156, -2514, -3934, 3160, 6640, -3485,
   -10504, 3105, 15720, -1486, -22404, -2070, 30558, 8438, -40040, -18719, 50547, 34346, -61623, -57389, 72678,
   91313, -83039, -143182, 92014, 231225, -98959] ++
  [-422783, 103354, 1327542, 1992294]

def rom20 : List Int :=
  [-3, -47, -5, 77, 22, -111, -54, 149, 103, -187, -174, 219, 270, -238, -392, 236, 542, -203, -716, 129, 911, 0,
   -1117, -193, 1324, 462, -1515, -814, 1670, 1255, -1767, -1785, 1779, 2400, -1676, -3088, 1430, 3830, -1011,
   -4599] ++
  [392, 5361, 451, -6070, -1534, 6676, 2867, -7118, -4448, 7333, 6263, -7249, -8283, 6798, 10465, -5910, -12749,
   4518, 15057, -2564, -17294, 0, 19349, 3210, -21095, -7086, 22390, 11627, -23079, -16815, 22995, 22609, -21962,
   -28945, 19788, 35739, -16269, -42886, 11177, 50263] ++
  [-4250, -57732, -4837, 65143, 16512, -72339, -31400, 79161, 50484, -85452, -75459, 91063, 109557, -95858,
   -159779, 99720, 244485, -102550, -431338, 104278, 1330506, 1992304]

def rom21 : List Int :=
  [7, 0, -23, 0, 53, 0, -104, 0, 185, 0, -307, 0, 484, 0, -733, 0, 1075, 0, -1532, 0, 2133, 0, -2910, 0, 3896, 0,
   -5135, 0, 6670, 0, -8555, 0, 10847, 0, -13616, 0, 16941, 0, -20917, 0] ++
  [25665, 0, -31335, 0, 38131, 0, -46333, 0, 56348, 0, -68800, 0, 84692, 0, -105764, 0, 135313, 0, -180427, 0,
   259570, 0, -440525, 0, 1333580, 2097156]

def rom22 : List Int :=
  [0, -8, -18, 23, 124, 89, -288, -626, 0, 1539, 1759, -1385, -5141, -2738, 6909, 12126, 0, -20948, -20684, 14292,
   47255, 22715, -52436, -85314, 0, 132575, 127745, -88450, -304382, -161714, 461302, 1226400, 1572862]

def rom23 : List Int :=
  [-8, 111, 642, 968, -1113, -6722, -10348, 0, 28409, 51827, 25325, -70835, -175139, -150091, 118395, 594161,
   1062416, 1258308]

def rom24 : List Int :=
  [-16, -149, -393, -658, -733, -354, 663, 2241, 3906, 4809, 3959, 674, -4909, -11475, -16584, -17271, -11143,
   2317, 20768, 38852, 49231, 44786, 21463, -19109, -68273, -111058, -129189, -105857, -31023, 94347, 256606,
   431127, 587258, 695349, 733980]

def rom25 : List Int :=
  [-10, -24, -29, 0, 83, 221, 368, 430, 286, -160, -894, -1732, -2306, -2156, -904, 1503, 4598, 7360, 8414, 6492,
   1044, -7226, -16144, -22404, -22496, -14046, 2836, 24746, 45190, 56032, 49985, 23538, -20628, -72677, -116766,
   -134359, -109060, -31706, 95776, 259077] ++
  [433454, 588669, 695779, 733996]

def rom26 : List Int :=
  [-1, -1, 2, 9, 22, 35, 38, 14, -48, -146, -250, -305, -241, 0, 417, 918, 1311, 1345, 797, -404, -2068, -3703,
   -4596, -4031, -1595, 2516, 7338, 11240, 12340, 9175, 1425, -9562, -20752, -28037, -27463, -16760, 3314, 28359,
   50877, 62063] ++
  [54548, 25341, -21938, -76444, -121614, -138725, -111750, -32276, 96965, 261126, 435376, 589828, 696124, 733998]

def rom27 : List Int :=
  [41, 0, -111, -262, -367, -308, 0, 526, 1084, 1360, 1042, 0, -1550, -3018, -3603, -2639, 0, 3639, 6856, 7942,
   5660, 0, -7433, -13704, -15563, -10890, 0, 13847, 25174, 28231, 19533, 0, -24389, -44041, -49137, -33887, 0,
   42302, 76672, 86132] ++
  [60035, 0, -77716, -144946, -169232, -124299, 0, 191809, 417920, 631323, 783670, 838898]

def rom28 : List Int :=
  [0, 8, 22, 34, 31, 0, -61, -133, -176, -141, 0, 228, 460, 569, 431, 0, -632, -1224, -1457, -1066, 0, 1468, 2767,
   3209, 2290, 0, -3018, -5575, -6344, -4447, 0, 5670, 10316, 11572, 8003, 0, -9957, -17919, -19894, -13628] ++
  [0, 16677, 29801, 32885, 22413, 0, -27234, -48581, -53590, -36571, 0, 44807, 80546, 89804, 62166, 0, -79535,
   -147607, -171596, -125567, 0, 192668, 418963, 632008, 783858, 838862]

def rom29 : List Int :=
  [0, -1, -3, -3, 0, 6, 15, 21, 17, 0, -31, -64, -82, -65, 0, 101, 202, 247, 186, 0, -270, -521, -618, -452, 0,
   622, 1173, 1362, 974, 0, -1289, -2387, -2723, -1914, 0, 2454, 4479, 5038, 3494, 0] ++
  [-4369, -7879, -8764, -6013, 0, 7370, 13168, 14518, 9879, 0, -11927, -21168, -23195, -15694, 0, 18772, 33195,
   36269, 24491, 0, -29258, -51791, -56720, -38447, 0, 46541, 83215, 92324, 63624, 0, -80771, -149413, -173197,
   -126425, 0, 193251, 419675, 632485, 784006, 838864]

def rom30 : List Int :=
  [27, 47, 47, 12, -50, -111, -130, -76, 46, 187, 267, 219, 28, -238, -447, -464, -224, 203, 628, 811, 593, 0,
   -728, -1222, -1161, -462, 627, 1598, 1905, 1255, -182, -1785, -2730, -2400, -749, 1573, 3453, 3830, 2264, -728] ++
  [-3801, -5361, -4367, -961, 3433, 6676, 6921, 3627, -1987, -7332, -9613, -7249, -855, 6798, 11935, 11599, 5281,
   -4518, -13203, -16191, -11266, 0, 12605, 20269, 18497, 7086, -9274, -22820, -26319, -16815, 2373, 22609, 33711,
   28945, 8841, -18210, -39275, -42885, -25015, 7961] ++
  [41185, 57731, 46874, 10317, -36957, -72338, -75805, -40334, 22555, 85450, 115829, 91061, 11304, -95856,
   -182211, -195707, -101267, 102548, 378219, 658370, 866749, 943704]

def rom31 : List Int :=
  [-4, -14, -20, -16, 3, 29, 50, 49, 17, -39, -94, -113, -72, 25, 138, 207, 179, 42, -158, -322, -351, -193, 111,
   426, 582, 456, 56, -461, -838, -843, -396, 350, 1053, 1329, 951, 0, -1119, -1844, -1721, -674] ++
  [900, 2258, 2652, 1724, -247, -2389, -3609, -3135, -968, 2011, 4369, 4797, 2809, -896, -4633, -6479, -5235,
   -1144, 4053, 7824, 8055, 4193, -2282, -8369, -10905, -8176, -958, 7583, 13242, 12804, 5801, -4940, -14370,
   -17545, -12157, 0, 13493, 21615, 19654, 7502] ++
  [-9786, -24001, -27595, -17577, 2473, 23499, 34945, 29927, 9119, -18738, -40324, -43936, -25576, 8123, 41948,
   58699, 47581, 10457, -37400, -73105, -76510, -40660, 22712, 85956, 116404, 91434, 11341, -96108, -182577,
   -195996, -101371, 102616, 378363, 658488, 866798, 943732]

def rom32 : List Int :=
  [5, 5, -2, -15, -27, -25, 0, 43, 79, 78, 19, -84, -179, -194, -82, 132, 345, 411, 232, -161, -587, -778, -535,
   122, 902, 1346, 1078, 68, -1257, -2157, -1967, -530, 1580, 3234, 3320, 1427, -1743, -4558, -5252, -2964] ++
  [1553, 6054, 7860, 5377, -743, -7567, -11202, -8932, -1035, 8848, 15279, 13909, 4219, -9534, -20020, -20611,
   -9359, 9118, 25274, 29389, 17173, -6902, -30811, -40727, -28694, 1870, 36339, 55467, 45657, 7647, -41520,
   -75416, -71591, -24981, 46007, 105283, 115613, 58934, -49480, -161220] ++
  [-211392, -145971, 51677, 347465, 663771, 905676, 996144]

def rom33 : List Int :=
  [-6, -19, -33, -34, 0, 78, 186, 276, 271, 100, -258, -725, -1114, -1169, -672, 424, 1886, 3182, 3620, 2611, 0,
   -3687, -7225, -8990, -7561, -2423, 5497, 13762, 19004, 18084, 9498, -5511, -22685, -35663, -38017, -25842, 0,
   32970, 61952, 74403] ++
  [60811, 19080, -42756, -106798, -148961, -145387, -79893, 49838, 229429, 429591, 612386, 740424, 786436]

def rom34 : List Int :=
  [4, 2, -6, -18, -27, -23, 0, 39, 77, 91, 56, -30, -140, -222, -215, -86, 143, 382, 505, 404, 54, -441, -866,
   -977, -620, 158, 1078, 1708, 1650, 752, -751, -2257, -3014, -2467, -583, 2015, 4207, 4831, 3246, -238] ++
  [-4319, -7141, -7091, -3636, 2210, 8092, 11202, 9552, 3080, -5984, -13783, -16407, -11738, -766, 12373, 21844,
   22595, 12872, -4437, -22423, -32766, -29416, -11769, 14195, 37672, 47300, 36339, 6524, -31372, -61035, -67180,
   -42720, 6588, 62471, 100092, 97911, 47888, -38210, -129539, -184638] ++
  [-165311, -51258, 149972, 401810, 647428, 826014, 891292]

def rom35 : List Int :=
  [2, 26, 91, 199, 314, 342, 143, -428, -1431, -2739, -3953, -4409, -3308, 0, 5649, 12896, 19942, 24078, 22248,
   11990, -7437, -34061, -62699, -85274, -92075, -73801, -24013, 58650, 169112, 295865, 422518, 530665, 603472,
   629156]

def rom36 : List Int :=
  [-31, -119, -258, -414, -514, -459, -146, 480, 1387, 2418, 3283, 3600, 2982, 1162, -1869, -5760, -9758, -12785,
   -13632, -11255, -5121, 4480, 16255, 27932, 36559, 39046, 32896, 16972, -7862, -38401, -69210, -93229, -102834,
   -91198, -53713, 10808, 99423, 205030, 317090, 423024] ++
  [510063, 567245, 587170]

def rom37 : List Int :=
  [-8, -18, -26, -23, 0, 54, 138, 241, 331, 363, 283, 48, -355, -883, -1435, -1847, -1923, -1481, -417, 1232,
   3245, 5211, 6578, 6758, 5279, 1951, -2991, -8817, -14347, -18116, -18672, -14942, -6606, 5628, 19927, 33478,
   42917, 44969, 37226, 18897] ++
  [-8626, -41566, -74001, -98580, -107654, -94624, -55293, 11049, 101044, 207341, 319371, 424737, 510990, 567520,
   587194]

def rom38 : List Int :=
  [14, -22, -89, -172, -238, -244, -150, 64, 373, 704, 942, 957, 651, 0, -905, -1852, -2541, -2662, -1988, -485,
   1625, 3862, 5571, 6083, 4922, 2004, -2240, -6876, -10625, -12179, -10579, -5586, 2098, 10838, 18346, 22223,
   20621, 12891, 0, -15435] ++
  [-29574, -38202, -37844, -26864, -6262, 20119, 46110, 64457, 68562, 54348, 21812, -24193, -74234, -115703,
   -135159, -121177, -67095, 26975, 153363, 297578, 440484, 561565, 642611, 671108]

def rom39 : List Int :=
  [1, 6, 14, 22, 26, 21, 0, -36, -80, -119, -135, -108, -28, 100, 253, 384, 442, 375, 160, -186, -596, -957,
   -1138, -1024, -559, 217, 1153, 2009, 2499, 2378, 1522, 0, -1901, -3710, -4872, -4897, -3519, -829, 2682, 6177] ++
  [8649, 9182, 7236, 2874, -3138, -9417, -14249, -16009, -13645, -7077, 2614, 13285, 22149, 26445, 24206, 14938,
   0, -17465, -33100, -42318, -41516, -29203, -6749, 21509, 48927, 67917, 71770, 56547, 22568, -24903, -76053,
   -118033, -137352, -122724, -67748, 27167, 154117, 298508, 441251, 561988] ++
  [642715, 671084]

def rom40 : List Int :=
  [24, 36, 38, 23, -8, -49, -86, -102, -83, -26, 58, 146, 203, 200, 123, -18, -186, -327, -382, -313, -117, 160,
   437, 615, 611, 394, 0, -464, -850, -1007, -845, -365, 317, 998, 1445, 1467, 994, 114, -933, -1812] ++
  [-2202, -1903, -922, 500, 1941, 2918, 3041, 2162, 451, -1621, -3402, -4262, -3803, -2026, 629, 3377, 5312, 5701,
   4243, 1223, -2527, -5840, -7572, -6985, -4032, 552, 5419, 8990, 9958, 7746, 2769, -3603, -9409, -12682, -12106,
   -7501, 0, 8208, 14495, 16618] ++
  [13494, 5657, -4759, -14583, -20541, -20324, -13431, -1500, 12034, 22892, 27271, 23129, 11014, -5870, -22459,
   -33299, -34279, -24102, -4975, 17756, 37026, 46158, 41067, 21850, -6795, -36573, -57849, -62584, -47093,
   -13761, 28946, 68346, 90947, 86539, 51840, -7410, -76678, -135364, -161520, -137466] ++
  [-54878, 82037, 256224, 440599, 603449, 715205, 754960]

def rom41 : List Int :=
  [4, 3, -1, -9, -17, -21, -16, 0, 25, 50, 63, 53, 14, -46, -110, -149, -138, -62, 65, 205, 302, 303, 178, -55,
   -330, -543, -591, -413, -25, 467, 888, 1052, 837, 245, -571, -1334, -1732, -1535, -703, 563] ++
  [1852, 2666, 2603, 1527, -323, -2372, -3863, -4132, -2873, -317, 2768, 5290, 6204, 4914, 1577, -2851, -6855,
   -8865, -7836, -3724, 2355, 8393, 12119, 11825, 7081, -929, -9646, -15910, -17068, -12033, -1886, 10250, 20118,
   23769, 19067, 6707, -9692, -24560, -32201, -28875] ++
  [-14423, 7229, 28999, 42852, 42624, 26520, -1659, -33163, -56810, -62706, -46007, -9394, 36773, 76984, 95263,
   80715, 32192, -39568, -113315, -162166, -160844, -93330, 41337, 226964, 432686, 619634, 750120, 796910]

def rom42 : List Int :=
  [-5, -13, -23, -29, -24, 0, 47, 113, 182, 228, 217, 120, -76, -352, -653, -891, -957, -757, -240, 560, 1509,
   2375, 2874, 2730, 1769, 0, -2331, -4743, -6588, -7195, -6049, -2981, 1697, 7152, 12132, 15203, 15094, 11074,
   3272, -7165] ++
  [-18148, -26985, -30949, -27973, -17311, 0, 21034, 41326, 55654, 59173, 48649, 23556, -13249, -55502, -94236,
   -119168, -120564, -91226, -28225, 66014, 183543, 311743, 435099, 537616, 605430, 629150]

def rom43 : List Int :=
  [3, 17, 51, 108, 180, 242, 254, 156, -111, -590, -1278, -2097, -2880, -3371, -3251, -2204, 0, 3400, 7748, 12455,
   16588, 18965, 18326, 13595, 4177, -9751, -27025, -45406, -61685, -71983, -72239, -58833, -29233, 17411, 79871,
   154709, 236488, 318287, 392504, 451805] ++
  [490089, 503320]

def rom44 : List Int :=
  [-22, -53, -97, -153, -213, -268, -306, -309, -263, -153, 31, 292, 623, 1004, 1402, 1773, 2062, 2207, 2149,
   1835, 1228, 315, -884, -2313, -3876, -5443, -6850, -7915, -8451, -8288, -7288, -5374, -2541, 1123, 5432, 10103,
   14762, 18969, 22247, 24118] ++
  [24150, 22007, 17488, 10576, 1460, -9439, -21476, -33797, -45380, -55085, -61735, -64189, -61435, -52675,
   -37401, -15457, 12914, 47059, 85926, 128103, 171886, 215373, 256569, 293510, 324382, 347634, 362082, 366974]

def rom45 : List Int :=
  [-5, -9, -12, -14, -14, -10, 0, 17, 42, 73, 110, 149, 184, 208, 215, 196, 143, 51, -80, -249, -447, -660, -866,
   -1040, -1153, -1175, -1078, -841, -452, 85, 751, 1508, 2299, 3051, 3680, 4095, 4207, 3942, 3246, 2099] ++
  [522, -1420, -3613, -5896, -8072, -9918, -11202, -11707, -11248, -9702, -7023, -3263, 1418, 6753, 12373, 17823,
   22595, 26160, 28016, 27730, 24992, 19655, 11769, 1610, -10314, -23273, -36339, -48432, -58383, -65006, -67180,
   -63934, -54530, -38530, -15853, 13190, 47888, 87148, 129538, 173358] ++
  [216727, 257690, 294334, 324900, 347889, 362161, 367010]

def rom46 : List Int :=
  [11, 0, -19, -46, -78, -111, -141, -159, -160, -136, -83, 0, 110, 238, 372, 495, 586, 626, 596, 483, 282, 0,
   -346, -727, -1102, -1423, -1640, -1706, -1585, -1255, -718, 0, 846, 1744, 2596, 3296, 3738, 3830, 3505, 2737] ++
  [1545, 0, -1775, -3613, -5316, -6676, -7492, -7598, -6887, -5328, -2980, 0, 3366, 6799, 9930, 12381, 13800,
   13906, 12528, 9636, 5361, 0, -5998, -12063, -17551, -21809, -24235, -24359, -21899, -16816, -9345, 0, 10450,
   21030, 30640, 38149, 42513, 42887, 38735, 29913] ++
  [16738, 0, -19050, -38769, -57225, -72341, -82055, -84498, -78170, -62086, -35906, 0, 44523, 95861, 151608,
   208907, 264636, 315626, 358886, 391823, 412432, 419454]

def rom47 : List Int :=
  [-11, -15, -17, -16, -10, 0, 16, 36, 59, 82, 102, 113, 111, 93, 56, 0, -73, -157, -244, -322, -380, -404, -383,
   -309, -180, 0, 220, 461, 698, 900, 1036, 1077, 999, 791, 452, 0, -533, -1097, -1633, -2074] ++
  [-2352, -2411, -2207, -1724, -973, 0, 1119, 2278, 3353, 4212, 4729, 4797, 4349, 3365, 1883, 0, -2127, -4297,
   -6276, -7824, -8719, -8783, -7909, -6080, -3380, 0, 3775, 7583, 11017, 13667, 15159, 15204, 13635, 10441, 5784,
   0, -6420, -12863, -18648, -23089] ++
  [-25571, -25618, -22958, -17577, -9740, 0, 10832, 21743, 31600, 39253, 43645, 43935, 39600, 30522, 17047, 0,
   -19336, -39289, -57908, -73103, -82812, -85176, -78708, -62449, -36081, 0, 44668, 96106, 151903, 209202,
   264891, 315814, 358999, 391867, 412428, 419422]

def rom48 : List Int :=
  [-4, -7, -10, -13, -14, -13, -9, 0, 14, 33, 56, 80, 103, 121, 128, 120, 93, 45, -26, -117, -221, -331, -432,
   -512, -553, -541, -463, -313, -90, 199, 533, 887, 1225, 1504, 1683, 1719, 1579, 1245, 712, 0] ++
  [-849, -1770, -2679, -3479, -4066, -4342, -4226, -3662, -2636, -1177, 637, 2676, 4770, 6715, 8294, 9293, 9527,
   8861, 7232, 4663, 1276, -2710, -6987, -11175, -14853, -17595, -19010, -18784, -16723, -12786, -7105, 0, 8035,
   16352, 24196, 30760, 35253, 36979, 35409, 30251] ++
  [21505, 9499, -5100, -21303, -37843, -53248, -65933, -74314, -76932, -72570, -60363, -39897, -11264, 24898,
   67421, 114651, 164533, 214728, 262756, 306151, 342620, 370199, 387379, 393208]

def rom49 : List Int :=
  [3, 8, 17, 32, 52, 75, 101, 125, 140, 141, 117, 61, -38, -185, -383, -630, -916, -1224, -1528, -1791, -1971,
   -2020, -1890, -1532, -910, 0, 1199, 2661, 4332, 6121, 7904, 9527, 10814, 11572, 11610, 10750, 8852, 5822, 1641,
   -3627] ++
  [-9822, -16678, -23828, -30809, -37077, -42034, -45053, -45514, -42848, -36571, -26329, -11925, 6645, 29179,
   55262, 84266, 115374, 147609, 179872, 210999, 239813, 265187, 286100, 301694, 311320, 314576]

def rom50 : List Int :=
  [0, -1, -2, -4, -7, -11, -15, -21, -25, -28, -27, -21, -7, 17, 53, 101, 161, 231, 307, 382, 446, 488, 495, 452,
   346, 166, -97, -443, -866, -1350, -1870, -2387, -2854, -3216, -3411, -3378, -3058, -2405, -1388, 0] ++
  [1735, 3761, 5985, 8276, 10472, 12384, 13803, 14518, 14330, 13066, 10602, 6878, 1913, -4177, -11178, -18772,
   -26541, -33979, -40515, -45531, -48401, -48521, -45350, -38447, -27506, -12386, 6865, 29998, 56557, 85890,
   117167, 149413, 181549, 212440, 240947, 265987, 286584, 301919, 311377, 314574]

def rom51 : List Int :=
  [0, 1, 3, 6, 10, 15, 22, 28, 33, 35, 31, 19, -6, -46, -104, -183, -283, -401, -532, -667, -792, -891, -941,
   -919, -800, -560, -177, 361, 1061, 1914, 2895, 3962, 5054, 6091, 6976, 7597, 7837, 7577, 6706, 5134] ++
  [2800, -315, -4180, -8705, -13732, -19038, -24333, -29270, -33449, -36441, -37801, -37094, -33920, -27938,
   -18894, -6641, 8840, 27427, 48851, 72694, 98403, 125302, 152615, 179503, 205094, 228524, 248974, 265715,
   278136, 285778, 288362]

def rom52 : List Int :=
  [-16, -34, -59, -92, -129, -169, -207, -239, -257, -256, -229, -170, -73, 64, 240, 453, 694, 951, 1209, 1447,
   1641, 1767, 1800, 1714, 1491, 1115, 581, -107, -935, -1873, -2880, -3904, -4879, -5734, -6392, -6777, -6816,
   -6448, -5628, -4331] ++
  [-2561, -349, 2240, 5109, 8128, 11140, 13966, 16412, 18279, 19375, 19523, 18581, 16448, 13077, 8486, 2762,
   -3931, -11355, -19201, -27093, -34605, -41273, -46615, -50148, -51417, -50013, -45599, -37926, -26857, -12375,
   5404, 26227, 49711, 75347, 102515, 130506, 158545, 185820, 211512, 234827] ++
  [255031, 271474, 283622, 291075, 293590]

def rom53 : List Int :=
  [-4, -6, -8, -10, -10, -9, -6, 0, 10, 23, 40, 60, 82, 106, 128, 147, 160, 163, 153, 128, 85, 22, -61, -163,
   -281, -409, -541, -668, -780, -864, -910, -904, -837, -700, -487, -198, 163, 586, 1056, 1551] ++
  [2042, 2499, 2885, 3164, 3300, 3260, 3018, 2554, 1862, 946, -171, -1454, -2852, -4297, -5711, -7007, -8089,
   -8865, -9246, -9154, -8531, -7339, -5570, -3250, -437, 2773, 6250, 9833, 13332, 16543, 19248, 21234, 22301,
   22276, 21023, 18460, 14564, 9381, 3032, -4286] ++
  [-12301, -20672, -28999, -36833, -43697, -49103, -52573, -53659, -51971, -47193, -39103, -27592, -12671, 5516,
   26696, 50466, 76305, 103590, 131613, 159607, 186773, 212310, 235445, 255464, 271738, 283751, 291117, 293600]

def rom54 : List Int :=
  [10, 15, 20, 25, 28, 29, 26, 19, 6, -14, -39, -70, -104, -141, -177, -207, -229, -238, -229, -199, -145, -66,
   37, 163, 305, 456, 607, 746, 860, 934, 957, 916, 802, 611, 342, 0, -402, -848, -1311, -1764] ++
  [-2173, -2503, -2719, -2789, -2685, -2389, -1891, -1198, -325, 693, 1810, 2965, 4088, 5102, 5925, 6479, 6694,
   6514, 5899, 4836, 3337, 1445, -767, -3197, -5716, -8176, -10416, -12269, -13577, -14194, -14006, -12934,
   -10946, -8065, -4370, 0, 4850, 9935, 14970, 19641] ++
  [23625, 26605, 28292, 28441, 26875, 23499, 18316, 11431, 3065, -6457, -16703, -27154, -37222, -46269, -53642,
   -58700, -60845, -59559, -54430, -45182, -31692, -14011, 7633, 32833, 61010, 91435, 123252, 155508, 187189,
   217266, 244735, 268656, 288199, 302678, 311576, 314580]

def rom55 : List Int :=
  [83, 111, 137, 156, 163, 154, 125, 74, 0, -96, -209, -334, -460, -578, -673, -732, -744, -697, -583, -400, -149,
   162, 518, 897, 1274, 1619, 1898, 2080, 2134, 2037, 1774, 1339, 740, 0, -847, -1751, -2653, -3487, -4181, -4666] ++
  [-4880, -4773, -4311, -3486, -2313, -833, 882, 2737, 4616, 6388, 7916, 9062, 9704, 9742, 9107, 7771, 5753, 3123,
   0, -3451, -7022, -10480, -13572, -16048, -17674, -18254, -17642, -15761, -12613, -8287, -2960, 3105, 9568,
   16031, 22055, 27190, 30997, 33084, 33134, 30931] ++
  [26386, 19551, 10634, 0, -11841, -24244, -36459, -47666, -57007, -63640, -66783, -65754, -60026, -49254, -33310,
   -12302, 13417, 43258, 76406, 111856, 148448, 184920, 219961, 252272, 280627, 303929, 321267, 331953, 335564]

def rom56 : List Int :=
  [2, 6, 11, 19, 29, 42, 57, 73, 88, 101, 109, 108, 96, 68, 21, -49, -143, -264, -409, -577, -763, -957, -1149,
   -1326, -1471, -1564, -1588, -1520, -1342, -1037, -592, 0, 739, 1618, 2616, 3705, 4844, 5982, 7058, 8001] ++
  [8736, 9182, 9263, 8905, 8043, 6628, 4630, 2043, -1112, -4781, -8879, -13285, -17844, -22372, -26655, -30458,
   -33529, -35612, -36450, -35801, -33448, -29203, -22927, -14531, -3987, 8666, 23320, 39795, 57845, 77156, 97358,
   118034, 138727, 158963, 178255, 196127, 212126, 225838, 236903, 245027] ++
  [249990, 251648]

def rom57 : List Int :=
  [0, -1, -1, -2, -4, -6, -8, -11, -14, -17, -19, -20, -18, -15, -7, 4, 22, 44, 73, 108, 148, 192, 238, 282, 322,
   353, 370, 367, 339, 281, 187, 53, -121, -336, -591, -878, -1189, -1513, -1832, -2127] ++
  [-2378, -2559, -2646, -2613, -2439, -2102, -1587, -886, 0, 1063, 2281, 3622, 5041, 6483, 7881, 9158, 10232,
   11018, 11429, 11384, 10811, 9651, 7865, 5436, 2374, -1280, -5452, -10035, -14887, -19835, -24676, -29183,
   -33113, -36208, -38212, -38875, -37965, -35276, -30642, -23940] ++
  [-15104, -4127, 8933, 23948, 40725, 59005, 78470, 98746, 119419, 140042, 160150, 179271, 196947, 212740, 226256,
   237149, 245139, 250018, 251664]

def rom58 : List Int :=
  [0, 1, 2, 3, 6, 8, 11, 15, 19, 22, 25, 25, 23, 16, 4, -14, -41, -78, -124, -181, -247, -322, -403, -486, -567,
   -638, -692, -721, -714, -662, -555, -382, -137, 186, 591, 1076, 1634, 2255, 2920, 3607] ++
  [4285, 4918, 5466, 5883, 6121, 6130, 5865, 5280, 4341, 3019, 1300, -814, -3305, -6135, -9242, -12546, -15941,
   -19303, -22486, -25331, -27663, -29303, -30067, -29779, -28270, -25392, -21020, -15060, -7456, 1807, 12698,
   25139, 39002, 54110, 70243, 87137, 104493, 121983, 139261, 155967] ++
  [171743, 186242, 199135, 210126, 218958, 225421, 229362, 230690]

def rom59 : List Int :=
  [0, -2, -5, -11, -18, -28, -39, -52, -65, -77, -87, -91, -87, -73, -46, -4, 55, 131, 224, 331, 449, 571, 689,
   794, 874, 917, 911, 842, 701, 479, 171, -222, -696, -1237, -1826, -2438, -3041, -3595, -4058, -4385] ++
  [-4529, -4449, -4107, -3475, -2535, -1286, 255, 2054, 4056, 6186, 8348, 10433, 12316, 13865, 14947, 15432,
   15206, 14171, 12260, 9441, 5722, 1162, -4135, -10009, -16253, -22612, -28791, -34461, -39274, -42872, -44905,
   -45042, -42987, -38498, -31397, -21584, -9043, 6146, 23806, 43667] ++
  [65364, 88452, 112415, 136680, 160640, 183668, 205145, 224478, 241120, 254595, 264513, 270583, 272628]

def rom60 : List Int :=
  [0, -5, -9, 13, 31, -16, -72, 0, 133, 55, -205, -174, 262, 375, -258, -665, 131, 1022, 194, -1382, -783, 1633,
   1675, -1614, -2844, 1131, 4179, 8, -5457, -1951, 6342, 4741, -6407, -8258, 5177, 12165, -2214, -15890, -2784,
   18630] ++
  [9878, -19408, -18777, 17175, 28763, -10944, -38653, -48, 46810, 16184, -51201, -37332, 49468, 62774, -38969,
   -91200, 16638, 120784, 21650, -149338, -83182, 174504, 186017, -193830, -397405, 202306, 1320449, 1894260]

def rom61 : List Int :=
  [0, -5, -10, 13, 31, -16, -73, -1, 134, 56, -206, -175, 263, 377, -259, -669, 131, 1027, 196, -1389, -789, 1640,
   1685, -1620, -2860, 1134, 4200, 11, -5484, -1965, 6372, 4770, -6434, -8303, 5196, 12229, -2216, -15970, -2809,
   18720] ++
  [9939, -19498, -18882, 17248, 28915, -10980, -38850, -73, 47041, 16293, -51443, -37549, 49687, 63117, -39117,
   -91677, 16649, 121390, 21863, -150045, -83751, 175239, 187182, -194362, -399805, 200760, 1322078, 1897702]

def rom62 : List Int :=
  [0, -6, -10, 13, 32, -16, -73, -1, 135, 57, -207, -176, 263, 379, -259, -672, 130, 1032, 198, -1395, -794, 1647,
   1695, -1626, -2875, 1137, 4222, 15, -5511, -1979, 6402, 4798, -6462, -8349, 5215, 12293, -2219, -16050, -2834,
   18810] ++
  [10000, -19587, -18987, 17321, 29069, -11016, -39049, -97, 47273, 16402, -51686, -37767, 49907, 63461, -39266,
   -92155, 16661, 121998, 22077, -150755, -84322, 175978, 188351, -194895, -402216, 199208, 1323715, 1901140]

def rom63 : List Int :=
  [0, -6, -10, 13, 32, -16, -73, -1, 135, 57, -208, -177, 264, 382, -260, -676, 130, 1038, 201, -1402, -800, 1654,
   1705, -1632, -2891, 1140, 4244, 19, -5538, -1994, 6431, 4827, -6490, -8395, 5235, 12357, -2221, -16131, -2859,
   18901] ++
  [10062, -19677, -19093, 17394, 29223, -11052, -39248, -122, 47506, 16513, -51930, -37985, 50128, 63806, -39415,
   -92636, 16673, 122609, 22292, -151468, -84897, 176719, 189526, -195431, -404637, 197649, 1325358, 1904600]

/-- Taps of a response, from the first to the centre one. -/
def romHalf : Nat → List Int
  | 0 => rom0
  | 1 => rom1
  | 2 => rom2
  | 3 => rom3
  | 4 => rom4
  | 5 => rom5
  | 6 => rom6
  | 7 => rom7
  | 8 => rom8
  | 9 => rom9
  | 10 => rom10
  | 11 => rom11
  | 12 => rom12
  | 13 => rom13
  | 14 => rom14
  | 15 => rom15
  | 16 => rom16
  | 17 => rom17
  | 18 => rom18
  | 19 => rom19
  | 20 => rom20
  | 21 => rom21
  | 22 => rom22
  | 23 => rom23
  | 24 => rom24
  | 25 => rom25
  | 26 => rom26
  | 27 => rom27
  | 28 => rom28
  | 29 => rom29
  | 30 => rom30
  | 31 => rom31
  | 32 => rom32
  | 33 => rom33
  | 34 => rom34
  | 35 => rom35
  | 36 => rom36
  | 37 => rom37
  | 38 => rom38
  | 39 => rom39
  | 40 => rom40
  | 41 => rom41
  | 42 => rom42
  | 43 => rom43
  | 44 => rom44
  | 45 => rom45
  | 46 => rom46
  | 47 => rom47
  | 48 => rom48
  | 49 => rom49
  | 50 => rom50
  | 51 => rom51
  | 52 => rom52
  | 53 => rom53
  | 54 => rom54
  | 55 => rom55
  | 56 => rom56
  | 57 => rom57
  | 58 => rom58
  | 59 => rom59
  | 60 => rom60
  | 61 => rom61
  | 62 => rom62
  | 63 => rom63
  | _ => rom0

/-- Number of taps L of each response (R202). -/
def romTaps : List Nat :=
  [1, 21, 35, 53, 67, 53, 67, 103, 35, 45, 55, 53, 53, 67, 81, 87, 103, 131, 159, 87, 203, 131, 65, 35, 69, 87,
   107, 103, 131, 159, 203, 231] ++
  [173, 105, 173, 67, 85, 109, 127, 163, 253, 215, 131, 83, 135, 173, 203, 231, 207, 131, 159, 141, 169, 215, 231,
   217, 163, 197, 175, 185, 135, 135, 135, 135]

/-- D3 of each response (R202). -/
def romD3 : List Nat :=
  [1, 1, 1, 1, 1, 1, 1, 1, 2, 2, 2, 2, 2, 2, 2, 2, 2, 2, 2, 2, 2, 2, 2, 2, 4, 4, 4, 4, 4, 4, 4, 4] ++
  [4, 4, 4, 4, 5, 5, 5, 5, 5, 5, 5, 5, 8, 8, 8, 8, 8, 8, 8, 8, 10, 10, 10, 10, 10, 10, 10, 10, 2, 2, 2, 2]

end Sys2Proof.Machine
end

