-- ==== Sys2Proof/Machine/Secded.lean ====
section
/-!
DEFINITION. The (72,64) SECDED code of capture memory, the Bridle table and the recorder RAM (R330, R331, R215). A coded
word holds the data in bits [63:0] and check bits c0-c7 in bits [71:64].
-/
namespace Sys2Proof.Machine

/-- The columns of data bits 0-63 (R330): the 56 columns of weight 3 in ascending order, then eight of weight 5. -/
def secColumns : List Nat := [
  0x07, 0x0B, 0x0D, 0x0E, 0x13, 0x15, 0x16, 0x19, 0x1A, 0x1C, 0x23, 0x25, 0x26, 0x29, 0x2A, 0x2C,
  0x31, 0x32, 0x34, 0x38, 0x43, 0x45, 0x46, 0x49, 0x4A, 0x4C, 0x51, 0x52, 0x54, 0x58, 0x61, 0x62,
  0x64, 0x68, 0x70, 0x83, 0x85, 0x86, 0x89, 0x8A, 0x8C, 0x91, 0x92, 0x94, 0x98, 0xA1, 0xA2, 0xA4,
  0xA8, 0xB0, 0xC1, 0xC2, 0xC4, 0xC8, 0xD0, 0xE0, 0x1F, 0x2F, 0x37, 0x3B, 0x3D, 0x3E, 0x4F, 0x57]

/-- Exclusive or of the columns of the bits that are 1. -/
def secFold : List Nat → Nat → Nat
  | [], _ => 0
  | c :: t, n => (if n % 2 = 1 then c else 0) ^^^ secFold t (n / 2)

/-- Check bits of 64 data bits. -/
def secCheck (d : Nat) : Nat := secFold secColumns d

/-- Code a data word. -/
def secEncode (w : Word64) : Word72 := BitVec.ofNat 72 (w.toNat + 2 ^ 64 * secCheck w.toNat)

/-- The data bits of a coded word as stored. -/
def secData (c : Word72) : Word64 := c.setWidth 64

/-- Syndrome of a coded word (R331). -/
def secSyndrome (c : Word72) : Nat := secCheck (c.toNat % 2 ^ 64) ^^^ (c.toNat / 2 ^ 64)

/-- The bit that a syndrome names: a data bit, or check bit j as 64 + j. -/
def secBit (s : Nat) : Option Nat :=
  match secColumns.findIdx? (fun c => decide (c = s)) with
  | some i => some i
  | none => ((List.range 8).find? (fun j => decide (s = 2 ^ j))).map (64 + ·)

/-- What a read makes of a coded word: the corrected code word, or none where it is uncorrectable (R331). -/
def secCorrect (c : Word72) : Option Word72 :=
  let s := secSyndrome c
  if s = 0 then some c
  else (secBit s).map (fun b => c ^^^ BitVec.ofNat 72 (2 ^ b))

end Sys2Proof.Machine
end

