-- ==== Sys2Proof/Machine/Memory.lean ====
section
/-!
DEFINITION. Capture memory (chapter 10): words with their code and valid bits, tile checksums, retirement, the patrol
scrub and the flip mask.
-/
namespace Sys2Proof.Machine

/-- Words of the capture memory, and who finds an error (MEM_ERR_INFO.SRC, R351). -/
abbrev memWordCount : Nat := 3145728
abbrev finderDma : Nat := 0
abbrev finderMark : Nat := 1
abbrev finderCapture : Nat := 2
abbrev finderConsumer : Nat := 3
abbrev finderPass : Nat := 4
abbrev finderBus : Nat := 5
abbrev finderScrub : Nat := 6
abbrev finderTable : Nat := 7

/-- Tile of a word (R325). -/
def tileOf (a : Nat) : Nat := a / 512

/-- What a word that nothing has written holds: zero data with their check bits (R332, R333). -/
def memBlank : Nat → Word72 := fun _ => 0

def Hw.memStored (h : Hw) (a : Nat) : Word72 := storeGet memBlank h.mem.words a
def Hw.setMemStored (h : Hw) (a : Nat) (c : Word72) : Hw :=
  { h with mem := { h.mem with words := storeSet memBlank h.mem.words a c } }
/-- The three copies of a word's valid bit. -/
def Hw.validCopies (h : Hw) (a : Nat) : Nat := storeGet (fun _ => 0) h.mem.valid a
def Hw.setValid (h : Hw) (a v : Nat) : Hw :=
  { h with mem := { h.mem with valid := storeSet (fun _ => 0) h.mem.valid a v } }
/-- Majority of the copies. -/
def majority3 (v : Nat) : Bool := decide (2 ≤ popCount 3 v)

/-- The canonical form of capture memory: words and valid bits at rising addresses, and none that reads as unlisted. -/
def Memory.wf (m : MemSt) : Bool :=
  storeWf memBlank m.words && storeWf (fun _ => 0) m.valid && storeWf (fun _ => 0) m.entryUpset

/-! ### Errors (R331, R340, R344) -/

/-- Record an error; a correctable one does not overwrite an uncorrectable one (R344). -/
def Hw.noteMem (h : Hw) (ue : Bool) (synd word src : Nat) (vcopy : Bool) : Hw :=
  if !ue && h.on MEM_ERR_LAST_VALID && h.on MEM_ERR_LAST_UE then h
  else
    let h1 := ((h.put MEM_ERR_LAST_VALID 1).put MEM_ERR_LAST_UE (b2n ue)).put MEM_ERR_LAST_SYNDROME synd
    ((h1.put MEM_ERR_LAST_WORD word).put MEM_ERR_INFO_VCOPY (b2n vcopy)).put MEM_ERR_INFO_SRC src

/-- A corrected error (R331, R332, R344). -/
def Hw.memCe (h : Hw) (synd word src tile : Nat) (vcopy : Bool) : Hw :=
  ((h.noteMem false synd word src vcopy).bump MEM_CE_COUNT_CE 1).raise srcMemCe tile

def Hw.retired (h : Hw) (t : Nat) : Bool := h.on (MEM_TILE_STAT_RETIRED t)

/-- Retire a tile with its cause (R340). -/
def Hw.retire (h : Hw) (t cause : Nat) : Hw :=
  if h.retired t then h
  else ((h.put (MEM_TILE_STAT_RETIRED t) 1).put (MEM_TILE_STAT_CAUSE t) cause).put MEM_RETIRED_COUNT
    (h.get MEM_RETIRED_COUNT + 1)

/-- An uncorrectable word: MEM_UE, and the tile is retired (R331, R340). -/
def Hw.memUe (h : Hw) (synd word src : Nat) : Hw :=
  (((h.noteMem true synd word src false).bump MEM_UE_COUNT_UE 1).raise srcMemUe (tileOf word)).retire (tileOf word) 1

/-! ### Reads (R331, R332, R342) -/

/-- A disagreement of the valid-bit copies is repaired (R332). -/
def Hw.checkValid (h : Hw) (a src : Nat) : Hw :=
  let v := h.validCopies a
  if v = 0 ∨ v = 7 then h
  else (h.setValid a (if majority3 v then 7 else 0)).memCe 0 a src (tileOf a) true

/-- A read of a word: the data as the reader gets them. -/
def Hw.memRead (h : Hw) (a src : Nat) : Hw × Word64 :=
  let h1 := h.checkValid a src
  if majority3 (h1.validCopies a) then
    let c := h1.memStored a
    let s := secSyndrome c
    if s = 0 then (h1, secData c)
    else match secCorrect c with
      | some d => ((h1.setMemStored a d).memCe s a src (tileOf a) false, secData d)
      | none => (h1.memUe s a src, secData c)
  else (h1, 0)

/-- The word's data without any effect: the old word that a bank returns for the checksum (R335, R338). -/
def Hw.memPeek (h : Hw) (a : Nat) : Word64 :=
  if majority3 (h.validCopies a) then
    match secCorrect (h.memStored a) with
    | some d => secData d
    | none => secData (h.memStored a)
  else 0

/-! ### Writes (R335, R338, R345) -/

/-- The flip mask applies to this write: of any source, or a window write of the requester that armed it (R345). -/
def Hw.flips (h : Hw) (win : Option Requester) : Bool :=
  h.on MEM_FLIPMASK_HI_ARMED && (h.on MEM_FLIPMASK_HI_SCOPE || (win.isSome && decide (win = h.mem.flipBy)))

/-- The mask and VFLIP clear themselves after their write. -/
def Hw.flipDone (h : Hw) : Hw :=
  let h1 := (((h.put MEM_FLIPMASK_LO_DATA_LO 0).put MEM_FLIPMASK_MID_DATA_HI 0).put MEM_FLIPMASK_HI_VFLIP 0).put
    MEM_FLIPMASK_HI_CHECK 0
  let h2 := h1.put MEM_FLIPMASK_HI_ARMED 0
  { h2 with mem := { h2.mem with flipBy := none } }

/-- The stored bits that the flip mask inverts, and the copies of the valid bit as it leaves them (R345). -/
def Hw.flipMask (h : Hw) : Word72 :=
  BitVec.ofNat 72 (h.get MEM_FLIPMASK_LO_DATA_LO + 2 ^ 32 * h.get MEM_FLIPMASK_MID_DATA_HI + 2 ^ 64 * h.get MEM_FLIPMASK_HI_CHECK)
def Hw.flipValid (h : Hw) : Nat := 7 ^^^ h.get MEM_FLIPMASK_HI_VFLIP

/-- Store a code word with its valid bit, and the flip mask where it applies. -/
def Hw.storeCode (h : Hw) (a : Nat) (code : Word72) (win : Option Requester) : Hw :=
  if h.flips win then ((h.setMemStored a (code ^^^ h.flipMask)).setValid a h.flipValid).flipDone
  else (h.setMemStored a code).setValid a 7

/-! ### The checksum table (R338, R340, R344) -/

/-- What has upset a tile's checksum entry, and the entry's code word as stored. -/
def Hw.entryUpset (h : Hw) (t : Nat) : Word72 := storeGet (fun _ => 0) h.mem.entryUpset t
def Hw.setEntryUpset (h : Hw) (t : Nat) (u : Word72) : Hw :=
  { h with mem := { h.mem with entryUpset := storeSet (fun _ => 0) h.mem.entryUpset t u } }
def Hw.entryCode (h : Hw) (t : Nat) : Word72 :=
  secEncode (BitVec.ofNat 64 (h.get (MEM_TILE_CRC_CRC t))) ^^^ h.entryUpset t

/-- A tile's checksum entry is read, by a checksum update or a pass: a correctable error is corrected, and an uncorrectable
one retires the tile. -/
def Hw.checkEntry (h : Hw) (t : Nat) : Hw :=
  if h.entryUpset t = 0 then h
  else match secCorrect (h.entryCode t) with
    | some _ => (h.setEntryUpset t 0).memCe (secSyndrome (h.entryCode t)) t finderTable t false
    | none => (((h.noteMem true (secSyndrome (h.entryCode t)) t finderTable false).bump MEM_UE_COUNT_UE 1).raise
        srcTileChecksum t).retire t 2

/-- The checksum that a tile's entry gives: as stored where it is uncorrectable (log 194). -/
def Hw.entryCrc (h : Hw) (t : Nat) : Nat :=
  if h.entryUpset t = 0 then h.get (MEM_TILE_CRC_CRC t) else (secData (h.entryCode t)).toNat % 2 ^ 32

/-- A tile's checksum entry is written. -/
def Hw.putEntry (h : Hw) (t c : Nat) : Hw := (h.setEntryUpset t 0).put (MEM_TILE_CRC_CRC t) c

/-- The checksum of the tile of word `a` once that word becomes `w` (R338). -/
def Hw.crcAfter (h : Hw) (a : Nat) (w : Word64) : Nat :=
  h.entryCrc (tileOf a) ^^^ crcDelta (h.memPeek a ^^^ w).toNat (8 * (511 - a % 512))

/-- What a writer's access to a word meets before the write: valid-bit copies that disagree, and an error of the checksum
entry (R332, R344). -/
def Hw.meetWrite (h : Hw) (a src : Nat) : Hw := (h.checkValid a src).checkEntry (tileOf a)

/-- A full-word write: the code word with the flip mask, the valid bit, the checksum and VERIFIED. -/
def Hw.memWrite (h : Hw) (a : Nat) (w : Word64) (src : Nat) (win : Option Requester) : Hw :=
  let g := h.meetWrite a src
  ((g.putEntry (tileOf a) (g.crcAfter a w)).put (MEM_TILE_STAT_VERIFIED (tileOf a)) 0).storeCode a (secEncode w) win

/-- A narrow write of one half of a word: read, corrected, merged and written (R335). -/
def Hw.memWriteHalf (h : Hw) (a : Nat) (hi : Bool) (w : Word) (src : Nat) (win : Option Requester) : Hw :=
  let r := h.memRead a src
  let old := r.2
  let new := if hi then word64 (lo32 old) w else word64 w (hi32 old)
  r.1.memWrite a new src win

/-! ### Verification and reseal (R339, R342) -/

/-- Read every word of a tile as a pass does; the words, and whether one is uncorrectable. -/
def Hw.passRead (h : Hw) (t : Nat) : Hw × List Byte × Bool :=
  (List.range 512).foldl (fun (p : Hw × List Byte × Bool) i =>
    let a := 512 * t + i
    let bad := majority3 (p.1.validCopies a) && (secCorrect (p.1.memStored a)).isNone
    let r := p.1.memRead a finderPass
    (r.1, p.2.1 ++ leBytes 8 r.2.toNat, p.2.2 || bad)) (h, [], false)

/-- A verification pass over a tile (R339, R340): its words, then its checksum entry. Only a match sets VERIFIED. -/
def Hw.verifyTile (h : Hw) (t : Nat) : Hw :=
  let r := h.passRead t
  let g := r.1.checkEntry t
  if r.2.2 || decide (g.entryUpset t ≠ 0) then g
  else if crc32c r.2.1 = g.get (MEM_TILE_CRC_CRC t) then g.put (MEM_TILE_STAT_VERIFIED t) 1
  else ((g.noteMem true 0 (512 * t) finderPass false).raise srcTileChecksum t).retire t 0

/-- A consumer or the capture engine uses a tile: it is verified first (R339). -/
def Hw.useTile (h : Hw) (t : Nat) : Hw := h.when (!h.on (MEM_TILE_STAT_VERIFIED t)) (fun h => h.verifyTile t)

/-- The tiles of the words that one consumer's read takes are verified first, each once. -/
def Hw.useTiles (h : Hw) (as : List Nat) : Hw := h.each (as.map tileOf).dedup Hw.useTile

/-- A word of a verified tile: its data, and whether it is flagged (R340, R341). -/
def Hw.takeWord (h : Hw) (a src : Nat) : Hw × Word64 × Bool :=
  let r := h.memRead a src
  (r.1, r.2, r.1.retired (tileOf a))

/-- A 32-bit half of a word of a verified tile. -/
def Hw.takeHalf (h : Hw) (a : Nat) (hi : Bool) (src : Nat) : Hw × Word × Bool :=
  let r := h.takeWord a src
  (r.1, if hi then hi32 r.2.1 else lo32 r.2.1, r.2.2)

/-- A consumer's read of one word: the word and whether it is flagged. -/
def Hw.consume (h : Hw) (a src : Nat) : Hw × Word64 × Bool := (h.useTile (tileOf a)).takeWord a src

/-- A 32-bit half as a consumer reads it. -/
def Hw.consumeHalf (h : Hw) (a : Nat) (hi : Bool) (src : Nat) : Hw × Word × Bool :=
  let r := h.consume a src
  (r.1, if hi then hi32 r.2.1 else lo32 r.2.1, r.2.2)

/-- Halves of words that one consumer's read takes, in order: each with whether it is flagged. -/
def Hw.consumeHalves (h : Hw) (as : List (Nat × Bool)) (src : Nat) : Hw × List (Word × Bool) :=
  as.foldl (fun (p : Hw × List (Word × Bool)) a =>
    let r := p.1.takeHalf a.1 a.2 src
    (r.1, p.2 ++ [r.2])) (h.useTiles (as.map (·.1)), [])

/-- Whole words that one consumer's read takes, in order: each with whether it is flagged. -/
def Hw.consumeWords (h : Hw) (as : List Nat) (src : Nat) : Hw × List (Word64 × Bool) :=
  as.foldl (fun (p : Hw × List (Word64 × Bool)) a =>
    let r := p.1.takeWord a src
    (r.1, p.2 ++ [r.2])) (h.useTiles as, [])

/-! ### Allotments (R327) -/

/-- A tile belongs to a pool field [25:13] length, [12:0] base. -/
def inPool (w : Word) (t : Nat) : Bool := decide (bits w 12 0 ≤ t) && decide (t < bits w 12 0 + bits w 25 13)

/-- ALLOT of a tile in the epoch in effect (R355). -/
def allotOf (h : Hw) (t : Nat) : Nat :=
  if (List.range nStream).any (fun s => h.on (DMA_CFG_EN s) && inPool (h.reg (DMA_CFG s)) t) then 1
  else if (List.range 16).any (fun n => h.on (TRG_CAP_EN n) && inPool (h.reg (TRG_CAP_POOL n)) t) then 2
  else if inPool (h.reg MEM_HIST_POOL) t then 3
  else if inPool (h.reg MEM_WORK_POOL) t then 4
  else 0

/-! ### Clear, reseal, scrub (R334, R342, R343) -/

/-- A write of MEM_CLR: the clear begins, or is refused. Tiles past the last do not exist and are passed over. -/
def Hw.memClear (h : Hw) (v : Word) : Hw :=
  if natBit v.toNat 31 then
    let first := bits v 12 0
    let count := bits v 25 13 + 1
    let tiles := (List.range count).map (first + ·)
    if h.mem.clr.isSome || tiles.any (fun t => decide (allotOf h t ≠ 0)) then h.flag MEM_CTL_CLR_REFUSED
    else ({ h with mem := { h.mem with clr := some (first, count) } }).put MEM_CTL_CLR_BUSY 1
  else h

/-- A tile's retirement ends (R334, R342); MEM_RETIRED counts the tiles now retired. -/
def Hw.unretire (h : Hw) (t : Nat) : Hw :=
  let h1 := h.when (h.retired t) (fun h => h.put MEM_RETIRED_COUNT (h.get MEM_RETIRED_COUNT - 1))
  (h1.put (MEM_TILE_STAT_RETIRED t) 0).put (MEM_TILE_STAT_CAUSE t) 0

/-- A cleared tile: checksum as at reset, and no retirement. -/
def Hw.clearTile (h : Hw) (t : Nat) : Hw :=
  ((h.unretire t).put (MEM_TILE_STAT_VERIFIED t) 1).putEntry t crcZeroTile

def Hw.memClearDone (h : Hw) : Hw :=
  match h.mem.clr with
  | some (first, count) =>
    let inside (a : Nat) := decide (first * 512 ≤ a ∧ a < (first + count) * 512)
    let h1 := { h with mem := { h.mem with clr := none, valid := h.mem.valid.filter (fun p => !inside p.1) } }
    (h1.each ((List.range count).filter (fun i => decide (first + i < 6144))) (fun h i => h.clearTile (first + i))).put
      MEM_CTL_CLR_BUSY 0
  | none => h

/-- A write of 1 to RETIRED starts a reseal, of a tile that is not retired too (R342, R345). -/
def Hw.resealStart (h : Hw) (t : Nat) (v : Word) : Hw :=
  h.when (natBit v.toNat 7) (fun h => h.put (MEM_TILE_STAT_RESEALING t) 1)

def Hw.resealDone (h : Hw) (t : Nat) : Hw :=
  if h.on (MEM_TILE_STAT_RESEALING t) then
    let r := (h.put (MEM_TILE_STAT_RESEALING t) 0).passRead t
    if r.2.2 then r.1
    else ((r.1.putEntry t (crc32c r.2.1)).unretire t).put (MEM_TILE_STAT_VERIFIED t) 1
  else h

/-- The scrub visits the next word; `u` and `vflip` are upsets that the word and its valid-bit copies have suffered. -/
def Hw.scrub (h : Hw) (u : Word72) (vflip : Nat) : Hw :=
  if h.coreOn && h.on MEM_CTL_SCRUB_EN then
    let a := h.get MEM_SCRUB_POS_POS
    let h1 := h.when (decide (u ≠ 0)) (fun h => h.setMemStored a (h.memStored a ^^^ u))
    let h2 := h1.when (decide (vflip % 8 ≠ 0)) (fun h => h.setValid a (h.validCopies a ^^^ (vflip % 8)))
    let h3 := (h2.memRead a finderScrub).1
    if a + 1 < memWordCount then h3.put MEM_SCRUB_POS_POS (a + 1)
    else (h3.put MEM_SCRUB_POS_POS 0).put MEM_SCRUB_PASSES (h3.get MEM_SCRUB_PASSES + 1)
  else h

/-! ### The register window (R10, R336, R345) -/

/-- The memory word of a window address, and whether the address is its high half. -/
def windowWord (a : Nat) : Nat × Bool := ((a - 0x10000000) / 8, decide (a % 8 = 4))

/-- A write of the window: the low half is held; the high half writes both, or itself alone. -/
def Hw.windowWrite (h : Hw) (q : Requester) (a : Nat) (v : Word) : Hw :=
  let w := windowWord a
  if w.2 then
    match h.heldAt q (a - 4) with
    | some lo => (h.setHeld q (a - 4) none).memWrite w.1 (word64 lo v) finderBus (some q)
    | none => h.memWriteHalf w.1 true v finderBus (some q)
  else h.setHeld q a (some v)

/-- A write of MEM_FLIPMASK_HI arms the mask with the held words (R345). -/
def Hw.flipArm (h : Hw) (q : Requester) (v : Word) : Hw :=
  let lo := h.heldOr q MEM_FLIPMASK_LO (h.reg MEM_FLIPMASK_LO)
  let mid := h.heldOr q MEM_FLIPMASK_MID (h.reg MEM_FLIPMASK_MID)
  let h1 := ((h.dropHeld q MEM_FLIPMASK_LO 3).setReg MEM_FLIPMASK_LO lo).setReg MEM_FLIPMASK_MID mid
  let h2 := (h1.writeRw MEM_FLIPMASK_HI 0x107FF v).put MEM_FLIPMASK_HI_ARMED 1
  { h2 with mem := { h2.mem with flipBy := some q } }

/-! ### The commands -/

/-- The address lies in the capture memory window and is a word address. -/
def isWindow (a : Nat) : Bool := decide (0x10000000 ≤ a ∧ a < 0x11800000 ∧ a % 4 = 0)

def execMemWindowWrite (q : Requester) (a : Nat) (v : Word) (s : State) : Out :=
  accWrite s q (isWindow a) (fun h => h.windowWrite q a v)

def execMemClr (q : Requester) (v : Word) (s : State) : Out := accWrite s q true (fun h => h.memClear v)

def execMemClrDone (s : State) : Out := actOn s true Hw.memClearDone

/-- R339: `u` is what has upset the tile's checksum entry since it was last read; the next checksum update or pass meets it
(R344), and this pass does where the tile is not verified. -/
def execTileVerify (t : Nat) (u : Word72) (s : State) : Out :=
  actOn s (isTile t) (fun h => (h.setEntryUpset t (h.entryUpset t ^^^ u)).useTile t)

def execTileReseal (q : Requester) (t : Nat) (v : Word) (s : State) : Out :=
  accWrite s q (isTile t) (fun h => h.resealStart t v)

def execTileResealDone (t : Nat) (s : State) : Out := actOn s (isTile t) (fun h => h.resealDone t)

def execMemScrubRead (u : Word72) (vflip : Nat) (s : State) : Out := actOn s true (fun h => h.scrub u vflip)

def execFlipmaskArm (q : Requester) (v : Word) (s : State) : Out := accWrite s q true (fun h => h.flipArm q v)

end Sys2Proof.Machine
end

