-- ==== Sys2Proof/Machine/Segments.lean ====
section
/-!
DEFINITION. The segment table and what closes a segment (R304, R306), gap records (R268, R269), and the clearing of
condition histories (R290): what the streams ask of the Burgees.
-/
namespace Sys2Proof.Machine

/-! ### Gap records (R268, R269) -/

abbrev gapOverwritten : Nat := 0x01
abbrev gapMoved : Nat := 0x02
abbrev gapStitch : Nat := 0x03
abbrev gapRawMissing : Nat := 0x04
abbrev gapSkipped : Nat := 0x05
abbrev gapNotHeld : Nat := 0x06
abbrev gapInHistory : Nat := 0x07
abbrev gapCapture : Nat := 0x08
abbrev gapStopped : Nat := 0x0E
abbrev gapEraEnd : Nat := 0x0F

/-- A gap record. -/
def gapBytes (s era reason first count : Nat) : List Byte :=
  beBytes 2 s ++ beBytes 2 era ++ beBytes 1 reason ++ zeros 3 ++ beBytes 8 first ++ beBytes 8 count

/-- The frame of one gap record, in class 3 (R268, R442). -/
def Hw.gapFrame (h : Hw) (dst epoch : Nat) (rec : List Byte) : Frame := h.ownFrame 0x11 3 dst false epoch rec

/-- A placeholder word (R260), and what tells one from a data word. -/
def placeholder (reason : Nat) : Word := BitVec.ofNat 32 (256 * reason + 0xC0)
def isPlaceholder (w : Word) : Bool := decide (bits w 7 0 = 0xC0)

/-! ### The segment table (R306) -/

def Hw.segWord (h : Hw) (k i : Nat) : Word := storeGet (fun _ => 0) h.trg.table (32 * k + i)
def Hw.setSegWord (h : Hw) (k i : Nat) (w : Word) : Hw :=
  { h with trg := { h.trg with table := storeSet (fun _ => 0) h.trg.table (32 * k + i) w } }
/-- Bits [hi:lo] of word i of entry k. -/
def Hw.segGet (h : Hw) (k i hi lo : Nat) : Nat := bits (h.segWord k i) hi lo
def Hw.segPut (h : Hw) (k i hi lo v : Nat) : Hw := h.setSegWord k i (putBits (h.segWord k i) hi lo v)
def Hw.segState (h : Hw) (k : Nat) : Nat := h.segGet k 0 31 30
def Hw.setSegState (h : Hw) (k v : Nat) : Hw := h.segPut k 0 31 30 v

def Hw.seg (h : Hw) (k : Nat) : Option SegSt := storeGet (fun _ => none) h.trg.segs k
def Hw.setSeg (h : Hw) (k : Nat) (x : Option SegSt) : Hw :=
  { h with trg := { h.trg with segs := storeSet (fun _ => none) h.trg.segs k x } }

/-! ### Capture gap records (R303) -/

/-- Offer the waiting capture gap records to the egress queue, in order. -/
def Hw.flushGaps (h : Hw) : Hw :=
  let r := h.trg.gaps.foldl (fun (p : Hw × List (Nat × List Byte)) g =>
    if p.2.isEmpty then
      let q := p.1.enqueue (p.1.gapFrame (p.1.get STR_CTL_DEST) g.1 g.2)
      (q.1, if q.2 then [] else [g])
    else (p.1, p.2 ++ [g])) ({ h with trg := { h.trg with gaps := [] } }, [])
  { r.1 with trg := { r.1.trg with gaps := r.2 } }

/-- Word w of a capture stream has been copied, or found missing. -/
def SegStream.copied (x : SegStream) (w : Nat) : Bool := decide (w < x.preDone ∨ (x.pre ≤ w ∧ w < x.pre + x.postDone))

/-- A run of words not captured is maximal: the words on both sides of it, if any, have been captured (R303). -/
def SegStream.closedRun (x : SegStream) (r : Nat × Nat) : Bool :=
  (decide (r.1 = 0) || x.copied (r.1 - 1)) && (decide (x.want ≤ r.1 + r.2) || x.copied (r.1 + r.2))

/-- Word w was not captured: it joins the runs beside it. -/
def addMiss (w : Nat) : List (Nat × Nat) → List (Nat × Nat)
  | [] => [(w, 1)]
  | r :: t =>
    if w + 1 = r.1 then (w, r.2 + 1) :: t
    else if w < r.1 then (w, 1) :: r :: t
    else if w = r.1 + r.2 then
      match t with
      | q :: t2 => if w + 1 = q.1 then (r.1, r.2 + 1 + q.2) :: t2 else (r.1, r.2 + 1) :: t
      | [] => [(r.1, r.2 + 1)]
    else r :: addMiss w t

/-- The records of the runs of words not captured that a test picks are queued, in order. -/
def Hw.missDone (h : Hw) (x : SegStream) (p : Nat × Nat → Bool) : Hw × SegStream :=
  let gs := (x.miss.filter p).map (fun r => (h.get SYS_EPOCH_EPOCH, gapBytes x.stream x.era gapCapture (x.first + r.1) r.2))
  if gs.isEmpty then (h, x)
  else (({ h with trg := { h.trg with gaps := h.trg.gaps ++ gs } }).flushGaps, { x with miss := x.miss.filter (fun r => !p r) })

/-! ### Closing (R304) -/

/-- Words held so far, from the first one on without a hole. -/
def SegStream.held (x : SegStream) : Nat := if x.preDone < x.pre then x.preDone else x.pre + x.postDone

/-- A filling segment closes, early or in full, and passes to the test and measurement engine. -/
def Hw.closeSeg (h : Hw) (k : Nat) (cut : Bool) : Hw :=
  match h.seg k with
  | some x =>
    if h.segState k = 1 then
      let r := x.streams.foldl (fun (p : Hw × List SegStream) y =>
        let q := p.1.missDone y (fun _ => true)
        (q.1, p.2 ++ [q.2])) (h, [])
      let held := match r.2.map SegStream.held with
        | a :: t => t.foldl min a
        | [] => 0
      let h1 := r.1.setSeg k (some { x with streams := r.2 })
      let h2 := h1.when cut (fun h => (h.segPut k 0 29 29 1).segPut k 8 31 0 held)
      let h3 := h2.setSegState k 2
      { h3 with trg := { h3.trg with closing := h3.trg.closing ++ [k] } }
    else h
  | none => h

/-- Close early every filling segment that a test picks. -/
def Hw.cutSegs (h : Hw) (p : SegSt → Bool) : Hw :=
  h.each h.trg.segs (fun h q =>
    match q.2 with
    | some x => if p x then h.closeSeg q.1 true else h
    | none => h)

/-! ### Condition histories (R290) -/

/-- Condition register `c` (0: A, 1: B) of state `s` of unit `n`. -/
def condAddr (n s c : Nat) : Nat := if c = 0 then TRG_ST_CA (8 * n + s) else TRG_ST_CB (8 * n + s)

/-- TYPE, RAW and SRC of a condition word (R287). -/
def condType (w : Word) : Nat := bits w 31 28
def condRaw (w : Word) : Bool := natBit w.toNat 27
def condSrc (w : Word) : Nat := bits w 8 0

/-- The condition evaluates samples of a stream (raw false) or of a channel (raw true). -/
def condTakes (w : Word) (raw : Bool) (src : Nat) : Bool :=
  decide (2 ≤ condType w ∧ condType w ≤ 8) && decide (condRaw w = raw) && decide (condSrc w = src)

/-- Clear the histories of every condition on a source. -/
def Hw.clearHist (h : Hw) (raw : Bool) (src : Nat) : Hw :=
  h.each h.trg.units (fun h q =>
    h.setUnit q.1 { h.unitSt q.1 with
      hist := (h.unitSt q.1).hist.filter (fun e => !condTakes (h.reg (condAddr q.1 (e.1 / 2) (e.1 % 2))) raw src) })

/-- Some condition of an armed unit evaluates the source. -/
def Hw.unitWatches (h : Hw) (n : Nat) (raw : Bool) (src : Nat) : Bool :=
  h.armed n && (List.range 16).any (fun i => condTakes (h.reg (condAddr n (i / 2) (i % 2))) raw src)

/-- Offer the samples of one CORE cycle to the units that watch their source, under the settings and histories of R289. -/
def Hw.offer (h : Hw) (raw : Bool) (src : Nat) (cs : List TrgCause) : Hw :=
  h.when (!cs.isEmpty) (fun h =>
    h.each (List.range 16) (fun h n => h.when (h.unitWatches n raw src) (fun h => h.unitCauses n true cs)))

end Sys2Proof.Machine
end

