-- ==== Sys2Proof/Machine/Streams.lean ====
section
/-!
DEFINITION. Circular buffers and their DMA (R169-R175), eras (R256-R259), stream frames (R265-R267) and live gap
records (R268-R273).
-/
namespace Sys2Proof.Machine

/-! ### Buffers (R169, R170) -/

/-- Capacity C of a stream's buffer in words. -/
def Hw.capacity (h : Hw) (s : Nat) : Nat := 1024 * h.get (DMA_CFG_LEN_TILES s)

/-- Memory word and half (true: bits [63:32]) of a buffer position. -/
def Hw.bufPlace (h : Hw) (s pos : Nat) : Nat × Bool :=
  (512 * h.get (DMA_CFG_BASE_TILE s) + pos % h.capacity s / 2, decide (pos % 2 = 1))

/-- What is remembered of the word at a position. -/
def StreamSt.mark (x : StreamSt) (pos : Nat) : Option WordMark :=
  if pos < x.wpos then x.marks[x.wpos - 1 - pos]? else none

/-- A position is held in the buffer (R275). -/
def Hw.inBuffer (h : Hw) (s pos : Nat) : Bool :=
  let x := h.stream s
  decide (pos < x.wpos) && decide (x.wpos ≤ pos + h.capacity s) && decide (x.floor ≤ pos)

/-! ### Eras (R256, R259, R271) -/

def Era.has (e : Era) (pos : Nat) : Bool :=
  e.started && !e.gone && decide (e.startPos ≤ pos) && e.endPos.all (fun x => decide (pos < x))
/-- Index of a position of the era. -/
def Era.indexOf (e : Era) (pos : Nat) : Nat := e.j0 + pos - e.startPos
/-- Position of an index of the era. -/
def Era.posOf (e : Era) (j : Nat) : Nat := e.startPos + j - e.j0
/-- SYNC_POS of the era, as 64 bits (R169). -/
def Era.syncPos (e : Era) : Nat := ofSigned 64 ((e.startPos : Int) - (e.j0 : Int))
def StreamSt.eraAt (x : StreamSt) (pos : Nat) : Option Era := x.eras.find? (fun e => e.has pos)
/-- One past the last index produced; j0 when none was. -/
def Era.nextIndex (e : Era) (wpos : Nat) : Nat := if e.started then e.indexOf (e.endPos.getD wpos) else e.j0

/-- The four eras of R259, with those that positions still to be delivered or to be taken by history belong to. -/
def StreamSt.keepEras (x : StreamSt) : List Era :=
  x.eras.take 4 ++ (x.eras.drop 4).filter (fun e => !e.gone &&
    e.endPos.any (fun p => decide ((x.rpos < p ∨ x.hpos < p) ∧ x.wpos < p + x.marks.length)))

/-! ### When history is due (R365, R368) -/

/-- Input words of a full block (R368). -/
abbrev blockWords : Nat := 16384

def Hw.histPool (h : Hw) : Nat := 4096 * h.get MEM_HIST_POOL_LEN_TILES

/-- The positions that a history block of the stream would take now: the era, the count, and whether it reaches the
era's last position (R368). -/
def Hw.histNext (h : Hw) (s : Nat) : Option (Era × Nat × Bool) :=
  let x := h.stream s
  (x.eraAt x.hpos).bind (fun e =>
    let lim := min x.wpos (e.endPos.getD x.wpos)
    let n := min blockWords (lim - x.hpos)
    if x.hpos < lim then some (e, n, decide (e.endPos = some (x.hpos + n))) else none)

/-- A history block of the stream is due (R368). -/
def Hw.histDue (h : Hw) (s : Nat) : Bool :=
  let x := h.stream s
  h.on (STR_CFG_HIST s) && decide (0 < h.histPool) &&
  (match h.histNext s with
    | some (e, _, _) =>
      decide (blockWords ≤ x.wpos - x.hpos ∨ h.capacity s ≤ 2 * (x.wpos - x.hpos)) || e.endPos.isSome
    | none => false)

/-- A stream whose history block has become due takes its place in the order of service (R365). -/
def Hw.noteDue (h : Hw) (s : Nat) : Hw :=
  if h.histDue s then
    if h.cin.due.contains s then h else { h with cin := { h.cin with due := h.cin.due ++ [s] } }
  else if h.cin.due.contains s then { h with cin := { h.cin with due := h.cin.due.filter (fun x => decide (x ≠ s)) } } else h

/-! ### The end and the start of an era (R256, R271) -/

/-- The current era ends at the write position: its ERA_END record waits until its last position is taken. -/
def Hw.endEra (h : Hw) (s : Nat) : Hw :=
  let x := h.stream s
  match x.eras with
  | e :: t =>
    if e.endPos.isNone then
      let r : EndRecord := { era := e.era, reason := gapEraEnd, first := e.nextIndex x.wpos, after := x.wpos, left := false }
      (h.setStream s { x with eras := { e with endPos := some x.wpos } :: t, ends := x.ends ++ [r] }).noteDue s
    else h
  | [] => h

/-- A new era begins (R256): ERA increments, and its first output will carry index `j0`. The conditions on the stream
lose their history (R290), and segments that capture the stream close early (R304). -/
def Hw.newEra (h : Hw) (s j0 origin period : Nat) : Hw :=
  let h1 := h.endEra s
  let n := (h1.get (STR_ERA_ERA s) + 1) % 65536
  let x := h1.stream s
  let e : Era := { era := n, started := false, startPos := x.wpos, endPos := none, gone := false, j0 := j0, origin := origin, period := period }
  let x1 := { x with eras := e :: x.eras }
  let h2 := (h1.put (STR_ERA_ERA s) n).setStream s { x1 with eras := x1.keepEras }
  (h2.clearHist false s).cutSegs (fun g => g.streams.any (fun y => decide (y.stream = s)))

/-- Era `a` began before era `b` (R256: the numbers count modulo 65,536). -/
def eraBefore (a b : Nat) : Bool := decide (0 < (b + 65536 - a) % 65536 ∧ (b + 65536 - a) % 65536 < 32768)

/-- The era list once a word of era `n` and index `j` has been written at `pos`: the first word of an era fixes its
start; a word of an era that has ended (completed before a reset and written after it) moves its end, and the eras after
it that have no word yet. -/
def placeWord (n j pos : Nat) (e : Era) : Era :=
  if e.era = n then
    let e1 := if e.started then e else { e with started := true, startPos := pos, j0 := j }
    { e1 with endPos := e1.endPos.map (fun _ => pos + 1) }
  else if e.started || eraBefore e.era n then e
  else { e with startPos := max e.startPos (pos + 1), endPos := e.endPos.map (fun p => max p (pos + 1)) }

/-- A record that waits, once that word has been written: the records of the eras before it stand. -/
def placeEnd (n j pos : Nat) (r : EndRecord) : EndRecord :=
  if r.era = n ∧ r.reason = gapEraEnd then { r with first := j + 1, after := pos + 1 }
  else if r.left || eraBefore r.era n then r else { r with after := max r.after (pos + 1) }

/-! ### Losses (R172, R174, R270) -/

/-- The DMA reports a position as lost: the pending run grows while positions, era, epoch and reason go on. -/
def Hw.reportLost (h : Hw) (s reason pos : Nat) : Hw :=
  let x := h.stream s
  let e := x.eraAt pos
  let j := (e.map (fun e => e.indexOf pos)).getD 0
  let n := (e.map Era.era).getD 0
  let ep := ((x.mark pos).map WordMark.epoch).getD (h.get SYS_EPOCH_EPOCH)
  let fresh : LossRun := { era := n, epoch := ep, reason := reason, pos := pos, first := j, count := 1 }
  let ls := match x.losses.getLast? with
    | some l =>
      if l.era = n ∧ l.epoch = ep ∧ l.reason = reason ∧ l.pos + l.count = pos then
        x.losses.dropLast ++ [{ l with count := l.count + 1 }]
      else x.losses ++ [fresh]
    | none => [fresh]
  (h.setStream s { x with losses := ls }).bump (ADC_DMA_STAT_LOST s) 1

/-- Cinch history holds a position (R369). -/
def Hw.inHistory (h : Hw) (s pos : Nat) : Bool := h.on (STR_CFG_HIST s) && decide (pos < (h.stream s).hpos)

/-- CINCH_ERROR with its record (R382). -/
def Hw.cinchError (h : Hw) (cause channel id : Nat) : Hw :=
  let h1 := ((h.put CIN_ERR_CAUSE cause).put CIN_ERR_CHANNEL channel).put CIN_ERR_ID id
  (h1.put CIN_ERR_VALID 1).raise srcCinchError (65536 * cause + id)

/-- A position that the DMA overwrites at or above HPOS is lost to history (R369). -/
def Hw.missHistory (h : Hw) (s pos : Nat) : Hw :=
  let x := h.stream s
  if h.on (STR_CFG_HIST s) && decide (x.hpos ≤ pos) && decide (x.floor ≤ pos) then
    let h1 := (h.setStream s { x with hpos := pos + 1 }).bump CIN_HIST_MISSED_MISSED 1
    if storeGet (fun _ => false) h1.cin.missRaised s then h1
    else
      let h2 := { h1 with cin := { h1.cin with missRaised := storeSet (fun _ => false) h1.cin.missRaised s true } }
      h2.cinchError 2 1 s
  else h

/-! ### The DMA (R170-R172) -/

/-- The DMA's account of one write at WPOS: what it overwrites, the positions, the era and the word's own facts. -/
def Hw.dmaStep (h : Hw) (s : Nat) (o : ReadyOut) (aux : Bool) : Hw :=
  let c := h.capacity s
  let w := (h.stream s).wpos
  let full := decide (w - (h.stream s).rpos = c)
  let r := (h.stream s).rpos
  let h1 := h.when full (fun h =>
    let h1 := h.reportLost s (if h.inHistory s r then gapInHistory else gapOverwritten) r
    h1.setStream s { h1.stream s with rpos := r + 1 })
  let h2 := h1.when (decide (c ≤ w)) (fun h => h.missHistory s (w - c))
  let x := h2.stream s
  let m : WordMark := { pos := w, ns := h2.ns, epoch := h2.get SYS_EPOCH_EPOCH, tq := o.tq, instant := o.instant, aux := aux }
  let h3 := h2.setStream s { x with
    wpos := w + 1, marks := (m :: x.marks).take c,
    eras := x.eras.map (placeWord o.era o.index w), ends := x.ends.map (placeEnd o.era o.index w) }
  (h3.when (!full && decide (w + 1 - (h3.stream s).rpos = c)) (fun h =>
    (h.put (ADC_DMA_STAT_WRAPPED s) 1).raise srcDmaWrapOverrun s)).noteDue s

/-- The words of one write, from a position on, are offered to the Burgees in its cycle (R171, R289); placeholders are not. -/
def Hw.offerWords (h : Hw) (s pos : Nat) (os : List ReadyOut) (aux : Bool) : Hw :=
  h.offer false s ((os.zip (List.range os.length)).filterMap (fun q =>
    if isPlaceholder q.1.word then none else some (.word s q.1.index (pos + q.2) q.1.word q.1.instant aux)))

/-- A word is written alone, by read-modify-write (R171). -/
def Hw.dmaAlone (h : Hw) (s : Nat) (o : ReadyOut) (aux : Bool) : Hw :=
  let w := (h.stream s).wpos
  let p := h.bufPlace s w
  ((h.dmaStep s o aux).memWriteHalf p.1 p.2 o.word finderDma none).offerWords s w [o] aux

/-- The words of an even position and the next one are written as one 64-bit word (R171). -/
def Hw.dmaPair (h : Hw) (s : Nat) (o o2 : ReadyOut) (aux : Bool) : Hw :=
  let w := (h.stream s).wpos
  let p := h.bufPlace s w
  (((h.dmaStep s o aux).dmaStep s o2 aux).memWrite p.1 (word64 o.word o2.word) finderDma none).offerWords s w [o, o2] aux

/-- One output reaches the DMA: it joins the word of the even position before it that waits for it, waits itself where its
position is even, or is written alone (R171). -/
def Hw.dmaTake (h : Hw) (s : Nat) (aux : Bool) (o : ReadyOut) : Hw :=
  let x := h.stream s
  match x.lone with
  | some (e, _) => (h.setStream s { x with lone := none }).dmaPair s e o aux
  | none => if x.wpos % 2 = 1 then h.dmaAlone s o aux else h.setStream s { x with lone := some (o, aux) }

/-- The frame's program has ended: a word without a partner is written alone (R171). -/
def Hw.dmaFlush (h : Hw) (s : Nat) : Hw :=
  let x := h.stream s
  match x.lone with
  | some (o, aux) => (h.setStream s { x with lone := none }).dmaAlone s o aux
  | none => h

/-- The frame's program ends, at its FEND or where it is cut short: no word waits for a partner. -/
def Hw.dmaFrameEnd (h : Hw) : Hw :=
  h.each (h.str.streams.filter (fun q => q.2.lone.isSome)) (fun h q => h.dmaFlush q.1)

/-- The program of a frame is under way (R225). -/
def Hw.programOpen (h : Hw) : Bool := h.seq.running && !h.seq.stopped && !h.seq.frameDone

/-- Outputs reach the DMA in order (R170, R171); a stream whose buffer is not in use keeps none. -/
def Hw.dmaPut (h : Hw) (s : Nat) (aux : Bool) (os : List ReadyOut) : Hw :=
  h.when (h.on (DMA_CFG_EN s) && decide (0 < h.capacity s)) (fun h =>
    let h1 := h.each os (fun h o => h.dmaTake s aux o)
    h1.when (!h1.programOpen) (fun h => h.dmaFlush s))

/-- A Burgee has still to decide on the word at a position (R263). -/
def Hw.undecided (h : Hw) (s pos : Nat) : Bool :=
  h.trg.units.any (fun u => u.2.causes.any (fun b => b.causes.any (fun c =>
    match c with
    | .word s2 _ p _ _ _ => decide (s2 = s ∧ p = pos)
    | _ => false)))

/-- One past the positions from `pos` on that may be taken: no word is taken before the Burgees have decided on it, so that
every copy of it carries its MARK (R263). -/
def Hw.takeLimit (h : Hw) (s pos : Nat) : Nat :=
  let waits := h.trg.units.flatMap (fun u => u.2.causes.flatMap TrgBatch.causes)
  waits.foldl (fun m c =>
    match c with
    | .word s2 _ p _ _ _ => if s2 = s ∧ pos ≤ p ∧ p < m then p else m
    | _ => m) (h.stream s).wpos

/-! ### Reading the buffer -/

/-- The word at a position as stored. -/
def Hw.bufPeek (h : Hw) (s pos : Nat) : Word :=
  let p := h.bufPlace s pos
  let d := h.memPeek p.1
  if p.2 then hi32 d else lo32 d

/-- A flagged data word leaves the hub with VALID = 0 (R341). -/
def flagWord (w : Word) (flagged : Bool) : Word := if flagged && !isPlaceholder w then w &&& 0xFFFFFF7F else w

/-- Consumer reads of `n` positions from `pos`: the words as they leave the hub, and whether any is flagged. -/
def Hw.bufRead (h : Hw) (s pos n : Nat) : Hw × List Word × Bool :=
  let r := h.consumeHalves ((List.range n).map (fun i => h.bufPlace s (pos + i))) finderConsumer
  (r.1, r.2.map (fun q => flagWord q.1 q.2), r.2.any (fun q => q.2))

/-- Positions from `pos` on, below `lim`, that form one run: one era, one epoch, one kind of source, and data words only or placeholders of
the first one's reason only; at most `fuel` of them. -/
def Hw.runLen (h : Hw) (s pos lim : Nat) : Nat → Nat
  | 0 => 0
  | fuel + 1 =>
    let x := h.stream s
    let same (a b : Nat) : Bool :=
      decide ((x.eraAt a).map Era.era = (x.eraAt b).map Era.era) &&
      decide ((x.mark a).map (fun m => (m.epoch, m.aux)) = (x.mark b).map (fun m => (m.epoch, m.aux))) &&
      (let u := h.bufPeek s a
       let v := h.bufPeek s b
       if isPlaceholder u then decide (bits u 31 8 = bits v 31 8) && isPlaceholder v else !isPlaceholder v)
    if lim ≤ pos then 0
    else if pos + 1 < lim ∧ same pos (pos + 1) then 1 + h.runLen s (pos + 1) lim fuel
    else 1

/-! ### What the live path sends next (R265, R266) -/

/-- Records that stand before everything of a buffer's new life (R271). -/
def StreamSt.leftOver (x : StreamSt) : Bool := x.ends.any (fun r => r.left)

/-- A trigger of R265 is due for the undelivered words. -/
def Hw.frameDue (h : Hw) (s : Nat) : Bool :=
  let x := h.stream s
  let maxage := msNs (h.get (STR_CFG_MAXAGE_MS s))
  decide (h.get (DMA_WM_WM s) ≤ x.wpos - x.rpos) ||
  (x.mark x.rpos).any (fun m => decide (m.ns + maxage < h.ns)) ||
  decide (0 < x.rpos ∧ ((x.eraAt x.rpos).map Era.era ≠ (x.eraAt (x.rpos - 1)).map Era.era ∨
    (x.mark x.rpos).map WordMark.epoch ≠ (x.mark (x.rpos - 1)).map WordMark.epoch) ∧ (x.mark (x.rpos - 1)).isSome)

/-- The run at RPOS is followed by a word that does not belong to it. -/
def Hw.runEnded (h : Hw) (s n : Nat) : Bool := decide ((h.stream s).rpos + n < (h.stream s).wpos)

/-- The run at RPOS ends at a word of another era or epoch. -/
def Hw.runTurns (h : Hw) (s n : Nat) : Bool :=
  let x := h.stream s
  let p := x.rpos + n
  decide (p < x.wpos) &&
  (decide ((x.eraAt p).map Era.era ≠ (x.eraAt (p - 1)).map Era.era) ||
   decide ((x.mark p).map WordMark.epoch ≠ (x.mark (p - 1)).map WordMark.epoch))

/-- The header of a stream frame (R267). -/
def streamHeader (tq : Nat) (bf aux : Bool) (s era count first instant period : Nat) : List Byte :=
  beBytes 2 (16384 * tq + 8192 * b2n bf + 4096 * b2n aux + s) ++ beBytes 2 era ++ beBytes 2 count ++ zeros 2 ++
  beBytes 8 first ++ timeBytesBe instant ++ zeros 2 ++ beBytes 8 period

/-- The payload of a stream frame of positions `pos` onward with their words. -/
def Hw.streamPayload (h : Hw) (s pos : Nat) (bf : Bool) (e : Era) (ws : List Word) : List Byte :=
  let x := h.stream s
  let m := x.mark pos
  let aux := (m.map WordMark.aux).getD (decide (e.period = 0))
  let body :=
    if aux then
      (ws.zip (List.range ws.length)).flatMap (fun q =>
        let t := ((x.mark (pos + q.2)).map WordMark.instant).getD 0
        beBytes 4 q.1.toNat ++ beBytes 4 (secOf t) ++ beBytes 4 (nsOf t))
    else ws.flatMap (fun w => beBytes 4 w.toNat)
  streamHeader ((m.map WordMark.tq).getD 0) bf aux s e.era ws.length (e.indexOf pos) ((m.map WordMark.instant).getD 0)
    (if aux then 0 else e.period) ++ body

/-- Most words of a stream frame that begins at a position (R265). -/
def StreamSt.frameMax (x : StreamSt) (pos : Nat) : Nat := if (x.mark pos).any (fun m => m.aux) then 338 else 1014

/-- A stream frame is built from RPOS when a trigger is due (R265, R266). -/
def Hw.buildStreamFrame (h : Hw) (s : Nat) : Hw :=
  let x := h.stream s
  match x.eraAt x.rpos with
  | some e =>
    let lim := h.takeLimit s x.rpos
    let n := h.runLen s x.rpos lim (x.frameMax x.rpos)
    if lim ≤ x.rpos ∨ isPlaceholder (h.bufPeek s x.rpos) ∨ x.leftOver then h
    else if h.frameDue s || h.runTurns s n then
      if h.room 2 then
        let r := h.bufRead s x.rpos n
        let ep := ((x.mark x.rpos).map WordMark.epoch).getD 0
        let f := r.1.ownFrame 0x10 2 (r.1.get STR_CTL_DEST) false ep (r.1.streamPayload s x.rpos false e r.2.1)
        let q := r.1.enqueue { f with flg := r.2.2 }
        q.1.when q.2 (fun h => h.setStream s { h.stream s with rpos := x.rpos + n })
      else h.noRoom 2
    else h
  | none => h

/-- Queue one live gap record (R270, R272, R273); answers whether the queue accepted it. -/
def Hw.liveGap (h : Hw) (s era epoch reason first count : Nat) : Hw × Bool :=
  let q := h.enqueue (h.gapFrame (h.get STR_CTL_DEST) epoch (gapBytes s era reason first count))
  if q.2 then
    let h1 := q.1.when (decide (reason ≠ gapInHistory)) (fun h => h.bump (STR_GAP_GAPPED s) count)
    (h1.when (decide (1 ≤ reason ∧ reason ≤ 5)) (fun h => h.raise srcStreamGap (512 * reason + s)), true)
  else (q.1, false)

/-- A loss run may go: nothing older stands before it. -/
def StreamSt.lossFree (x : StreamSt) (l : LossRun) : Bool :=
  !x.leftOver || x.ends.any (fun r => r.left && decide (r.era = l.era))

/-- The next gap record: a pending loss run first, then the placeholder run at RPOS once it has ended or a trigger is
due (R265, R270). -/
def Hw.buildGap (h : Hw) (s : Nat) : Hw :=
  let x := h.stream s
  match x.losses.filter (fun l => x.lossFree l) with
  | l :: _ =>
    let q := h.liveGap s l.era l.epoch l.reason l.first l.count
    q.1.when q.2 (fun h => h.setStream s { h.stream s with losses := (h.stream s).losses.erase l })
  | [] =>
    match x.eraAt x.rpos with
    | some e =>
      let w := h.bufPeek s x.rpos
      if x.wpos ≤ x.rpos ∨ isPlaceholder w = false ∨ x.leftOver then h
      else
        let n := h.runLen s x.rpos x.wpos (x.wpos - x.rpos)
        if h.runEnded s n || h.frameDue s then
          let ep := ((x.mark x.rpos).map WordMark.epoch).getD 0
          -- the placeholders are read like any other word (R331, R339)
          let q := (h.bufRead s x.rpos n).1.liveGap s e.era ep (bits w 31 8) (e.indexOf x.rpos) n
          q.1.when q.2 (fun h => h.setStream s { h.stream s with rpos := x.rpos + n })
        else h
    | none => h

/-- Queue the first STOPPED or ERA_END record that waits, if it is of the given kind, its positions have been taken or lost
and reported, and no output of its era awaits its WRITE (R271). -/
def Hw.buildEnd (h : Hw) (s reason : Nat) : Hw :=
  let x := h.stream s
  match x.ends with
  | r :: rest =>
    let c := storeGet (fun _ => chain0) h.str.chains s
    let late := (c.src.isSome && c.ready.any (fun o => decide (o.era = r.era))) || x.lone.any (fun o => decide (o.1.era = r.era))
    if late = false ∧ r.reason = reason ∧ (r.left ∨ r.after ≤ x.rpos) ∧ x.losses.all (fun l => decide (l.era ≠ r.era)) then
      let q := h.liveGap s r.era (h.get SYS_EPOCH_EPOCH) reason r.first 0
      q.1.when q.2 (fun h => h.setStream s { h.stream s with ends := rest })
    else h
  | [] => h

/-! ### Commits (R174, R371) -/

/-- Report every undelivered position as lost, with a reason. -/
def Hw.loseAll (h : Hw) (s reason : Nat) : Hw :=
  let x := h.stream s
  let h1 := h.each (List.range (x.wpos - x.rpos)) (fun h i => h.reportLost s reason (x.rpos + i))
  h1.setStream s { h1.stream s with rpos := x.wpos }

/-- A commit sets EN to 0: the buffer stops, and its STOPPED record waits. -/
def Hw.stopBuffer (h : Hw) (s : Nat) : Hw :=
  let x := h.stream s
  match x.eras with
  | e :: _ =>
    let r : EndRecord := { era := e.era, reason := gapStopped, first := e.nextIndex x.wpos, after := x.wpos, left := false }
    h.setStream s { x with ends := x.ends ++ [r] }
  | [] => h

/-- A commit sets EN to 1: positions of the stopped buffer are lost, the counts restart, and a new era begins. -/
def Hw.startBuffer (h : Hw) (s j0 origin period : Nat) : Hw :=
  let h1 := (h.loseAll s gapMoved).endEra s
  let x := h1.stream s
  let x1 := { x with wpos := 0, rpos := 0, marks := [], hpos := 0, floor := 0, lone := none,
                     ends := x.ends.map (fun r => { r with left := true }),
                     -- positions of the eras before belong to a buffer that is gone
                     eras := x.eras.map (fun e => { e with gone := true }) }
  (h1.setStream s x1).newEra s j0 origin period

/-- A commit moves or resizes an enabled buffer. -/
def Hw.moveBuffer (h : Hw) (s : Nat) : Hw :=
  let h1 := h.loseAll s gapMoved
  h1.setStream s { h1.stream s with floor := (h1.stream s).wpos, hpos := (h1.stream s).wpos }

/-! ### The commands -/

def execStreamFrameBuild (s : Nat) (st : State) : Out :=
  actOn st (decide (s < nStream)) (fun h => h.when h.coreOn (fun h => h.buildStreamFrame s))

def execGapRecordBuild (s : Nat) (st : State) : Out :=
  actOn st (decide (s < nStream)) (fun h => h.when h.coreOn (fun h => h.flushGaps.buildGap s))

def execEraEndRecord (s : Nat) (st : State) : Out :=
  actOn st (decide (s < nStream)) (fun h => h.when h.coreOn (fun h => h.buildEnd s gapEraEnd))

def execStoppedRecord (s : Nat) (st : State) : Out :=
  actOn st (decide (s < nStream)) (fun h => h.when h.coreOn (fun h => h.buildEnd s gapStopped))

end Sys2Proof.Machine
end

