-- ==== Sys2Proof/Machine/Filter.lean ====
section
/-!
DEFINITION. The filter chain (chapter 06): the arithmetic of the demodulator, S1, S2 and S3, the tags of an output
(R261, R262), coefficient banks and fades, synchronising resets, commits, the MAC budget and the check of the stores.
-/
namespace Sys2Proof.Machine

/-! ### Arithmetic (R188, R191-R194) -/

/-- rhe of R194. -/
def rhe (v : Int) (s : Nat) : Int := roundHalfEven v (2 ^ s)

/-- sat of R194, and whether it changed the value (R195). -/
def satBits (w : Nat) (v : Int) : Int × Bool :=
  let y := clampInt (-(2 ^ (w - 1) : Nat)) ((2 ^ (w - 1) : Nat) - 1) v
  (y, decide (y ≠ v))

abbrev m72 : Int := 4722366482869645213696

/-- The integrators of S1, modulo 2^72; the last one's value. -/
def integrate : Int → List Int → List Int × Int
  | x, [] => ([], x)
  | x, i :: t =>
    let y := (i + x) % m72
    let r := integrate y t
    (y :: r.1, r.2)

/-- The combs of S1. -/
def combs : Int → List Int → List Int × Int
  | v, [] => ([], v)
  | v, z :: t =>
    let r := combs ((v - z) % m72) t
    (v :: r.1, r.2)

/-- A symmetric filter over a history, newest first; entries beyond the history are zero (R193). -/
def fir (half xs : List Int) : Int :=
  let m := half.length - 1
  let ys := (xs ++ List.replicate (2 * m + 1 - xs.length) 0).take (2 * m + 1)
  let pairs := (ys.take m).zip (ys.reverse.take m)
  ((half.zip pairs).foldl (fun a q => a + q.1 * (q.2.1 + q.2.2)) 0) + half.getD m 0 * ys.getD m 0

/-- The half-band cascade from stage `i` on (R192): an input of index k gives an output where k is even. Answers the
histories, the output with its index, and the stages that saturated. -/
def hbCascade (sh2 : Nat) : Nat → List (List Int) → Nat → Int → List (List Int) × Option (Nat × Int) × List Nat
  | _, [], k, v => ([], some (k, v), [])
  | i, hst :: t, k, v =>
    let h2 := (v :: hst).take 63
    if k % 2 = 0 then
      let y := satBits 32 (rhe (fir hbHalf h2) sh2)
      let r := hbCascade sh2 (i + 1) t (k / 2) y.1
      (h2 :: r.1, r.2.1, if y.2 then i :: r.2.2 else r.2.2)
    else (h2 :: t, none, [])

/-! ### Settings -/

def chainK (w : Word) : Nat := bits w 13 11
def chainR1 (w : Word) : Nat := 2 ^ bits w 17 14
def chainN2 (w : Word) : Nat := bits w 20 18
def respOf (w : Word) (bank : Nat) : Nat := if bank = 0 then bits w 5 0 else bits w 13 8
def respD3 (r : Nat) : Nat := romD3.getD r 1
def respL (r : Nat) : Nat := romTaps.getD r 1

/-- Total decimation D (R185). -/
def decim (chainW respW : Word) (bank : Nat) : Nat := chainR1 chainW * 2 ^ chainN2 chainW * respD3 (respOf respW bank)

/-- Span H in raw samples with an S3 response of L taps (R197). -/
def spanOf (chainW : Word) (l : Nat) : Nat :=
  let r1 := chainR1 chainW
  let n2 := 2 ^ chainN2 chainW
  chainK chainW * (r1 - 1) + 62 * r1 * (n2 - 1) + (l - 1) * r1 * n2

def Hw.chain (h : Hw) (s : Nat) : Chain := storeGet (fun _ => chain0) h.str.chains s
def Hw.setChain (h : Hw) (s : Nat) (c : Chain) : Hw :=
  { h with str := { h.str with chains := storeSet (fun _ => chain0) h.str.chains s c } }

def Hw.activeBank (h : Hw) (s : Nat) : Nat := h.get (FIL_RESP_ACTIVE s)

/-- A response, or the half-band set, is marked bad (R208). -/
def Hw.respBad (h : Hw) (r : Nat) : Bool := natBit (h.get (FIL_ROM_BAD_BAD (r / 32))) (r % 32)

/-! ### Conditions of raw samples, as marked in a chain -/

abbrev mkSettle : Nat := 0
abbrev mkExc : Nat := 1
abbrev mkOvr : Nat := 2
abbrev mkIso : Nat := 3
abbrev mkOpen : Nat := 4
abbrev mkCal : Nat := 5
abbrev mkBad : Nat := 6
abbrev mkStitch : Nat := 7
abbrev mkMissing : Nat := 8
abbrev mkSkipped : Nat := 9
/-- Saturation of stage i: S1 is stage 0 (R195). -/
abbrev mkSat : Nat := 10

def Chain.markAt (c : Chain) (k : Nat) : Nat := storeGet (fun _ => 0) c.marks k
def Chain.setMark (c : Chain) (k n : Nat) : Chain :=
  { c with marks := storeSet (fun _ => 0) c.marks k (max (c.markAt k) (n + 1)) }
def Chain.markIf (c : Chain) (b : Bool) (k n : Nat) : Chain := if b then c.setMark k n else c
/-- The condition held at a raw index from `lo` on. -/
def Chain.marked (c : Chain) (k : Nat) (lo : Int) : Bool := decide (0 < c.markAt k ∧ lo < (c.markAt k : Int))

/-- Mark what a raw sample carries (R198, R261, R262). -/
def Chain.markRaw (c : Chain) (n : Nat) (x : RawCell) : Chain :=
  let o := x.hold
  ((((((c.markIf o.settle mkSettle n).markIf o.exc mkExc n).markIf (x.ovr || o.sat) mkOvr n).markIf
    o.isolated mkIso n).markIf o.isOpen mkOpen n).markIf (o.cal || x.cal) mkCal n).markIf
    (x.bad || !o.enabled || o.parked) mkBad n

/-- Histories and counters as after a reset (R199): no value that saturated is in them any more (R195). -/
def Chain.zeroed (c : Chain) : Chain :=
  { c with integ := List.replicate (chainK c.chainW) 0, comb := List.replicate (chainK c.chainW) 0,
           hb := List.replicate (chainN2 c.chainW) [], s3 := [], marks := c.marks.filter (fun q => decide (q.1 < mkSat)) }

/-! ### One raw sample (R189-R193) -/

/-- The driver that DEMOD names at a strobe: its number (1: a, 2: b), its edges so far and whether it was negative; none with
DEMOD = 0 (R189). -/
def demodDriver (demod : Nat) (o : Hold) : Option (Nat × Nat × Bool) :=
  match demod with
  | 1 => some (1, o.edgesA, o.polA)
  | 2 => some (2, o.edgesB, o.polB)
  | _ => none

/-- The demodulator (R189, R190): the value that enters S1. `code` is none for a lost sample. An edge counts between two raw
samples since the last reset under the same driver. -/
def Chain.demod (c : Chain) (drv : Option (Nat × Nat × Bool)) (code : Option Int) : Chain × Int :=
  let edge := match c.lastEdge, drv with
    | some a, some b => decide (a.1 = b.1 ∧ a.2 ≠ b.2.1)
    | _, _ => false
  let held := if edge then c.lastIn else c.heldIn
  let left := if edge then bits c.chainW 10 7 else c.blank
  let neg := drv.any (fun b => b.2.2)
  let c1 := { c with heldIn := held, blank := left - 1, lastEdge := drv.map (fun b => (b.1, b.2.1)) }
  match code with
  | some v =>
    let x := if 0 < left then held else (if neg then -v else v) * 32768
    ({ c1 with lastIn := x }, x)
  | none => (c1, 0)

/-- A raw sample of which no strobe is known enters as 0: one that was held counts toward DBLANK, a skipped instant does not
(R125, R190, R198). -/
def Chain.demodLost (c : Chain) (skipped : Bool) : Chain := if skipped then c else { c with blank := c.blank - 1 }

/-- The value of S3 in one bank (R193), and whether it saturated. -/
def Chain.s3Bank (c : Chain) (bank : Nat) : Int × Bool :=
  satBits 24 (rhe (fir (romHalf (respOf c.respW bank)) c.s3) (bits c.respW 21 16))

/-- The tag and word of output j at raw index n (R195, R260-R262). -/
def outWord (c : Chain) (n j h : Nat) (y : Int) (ovr badStore : Bool) : Word :=
  let lo : Int := (n : Int) - (h : Int)
  if c.marked mkStitch lo then placeholder 3
  else if c.marked mkMissing lo then placeholder 4
  else if c.marked mkSkipped lo then placeholder 5
  else
    let settle := c.marked mkSettle lo || decide (n < h)
    let op := c.marked mkOpen lo
    let iso := c.marked mkIso lo
    let valid := !(settle || op || iso || c.marked mkBad lo || badStore)
    let tag := 128 * b2n valid + 64 * b2n settle + 32 * b2n (ovr || iso || c.marked mkOvr lo) + 16 * b2n op +
      8 * b2n (c.marked mkExc lo) + 4 * b2n (c.marked mkCal lo) + 2 * b2n (decide (j = 0))
    BitVec.ofNat 32 (256 * ofSigned 24 y + tag)

/-- A stage saturated in the computation of the output at raw index n (R195): stage i's value at a raw index counts
while it lies within what the later stages reach back to. -/
def Chain.satIn (c : Chain) (n l : Nat) : Bool :=
  let r1 := chainR1 c.chainW
  let n2 := 2 ^ chainN2 c.chainW
  (List.range (chainN2 c.chainW + 1)).any (fun i =>
    c.marked (mkSat + i) ((n : Int) - ((l - 1) * r1 * n2 + 62 * r1 * (n2 - 2 ^ i) : Nat)))

/-- A queued swap request at the end of a fade or at a reset (R204, R205): it is dropped where it names the active bank,
else its fade starts. -/
def Hw.takeQueued (h : Hw) (s : Nat) : Hw :=
  if h.on (FIL_STATUS_QUEUED s) then
    let b := h.get (FIL_STATUS_Q_BANK s)
    let h1 := h.put (FIL_STATUS_QUEUED s) 0
    if b = h1.activeBank s then h1.put (FIL_STATUS_DROPPED s) 1
    else (h1.setChain s { h1.chain s with fade := some (b, 0) }).put (FIL_STATUS_FADING s) 1
  else h

/-- A running fade ends with its target active (R204, R205). -/
def Hw.endFade (h : Hw) (s : Nat) : Hw :=
  match (h.chain s).fade with
  | some (b, _) =>
    ((h.setChain s { h.chain s with fade := none }).put (FIL_RESP_ACTIVE s) b).put (FIL_STATUS_FADING s) 0
  | none => h

/-- S3's output at an input whose index is a multiple of D3: both banks in a fade (R204). Answers the value, whether a
bank saturated, the longer L, and whether a store it used is marked bad. -/
def Hw.s3Out (h : Hw) (s : Nat) : Int × Bool × Nat × Bool :=
  let c := h.chain s
  let a := h.activeBank s
  let hb := decide (1 ≤ chainN2 c.chainW) && h.on FIL_LOAD_HB_BAD
  let la := respL (respOf c.respW a)
  let ya := c.s3Bank a
  match c.fade with
  | some (b, k) =>
    let f := bits c.respW 29 26
    let n : Int := (2 ^ f : Nat)
    let yb := c.s3Bank b
    let y := rhe (ya.1 * (n - ((k : Int) + 1)) + yb.1 * ((k : Int) + 1)) f
    (y, ya.2 || yb.2, max la (respL (respOf c.respW b)),
      hb || h.respBad (respOf c.respW a) || h.respBad (respOf c.respW b))
  | none => (ya.1, ya.2, la, hb || h.respBad (respOf c.respW a))

/-- A fade has given one more output (R204). -/
def Hw.fadeStep (h : Hw) (s : Nat) : Hw :=
  match (h.chain s).fade with
  | some (b, k) =>
    if 2 ^ bits (h.chain s).respW 29 26 ≤ k + 1 then (h.endFade s).takeQueued s
    else h.setChain s { h.chain s with fade := some (b, k + 1) }
  | none => h

/-- An output with a saturation is counted (R195). -/
def Hw.noteSat (h : Hw) (s : Nat) : Hw :=
  let was := h.on (FIL_STATUS_OVF s)
  let h1 := (h.bump (FIL_STATUS_SAT_COUNT s) 1).put (FIL_STATUS_OVF s) 1
  h1.when (!was) (fun h => h.raise srcFilterOverflow s)

/-- A sample of index `n` of the chain passes S1 to S3; an output it completes is kept for WRITE. -/
def Hw.chainStep (h : Hw) (s n : Nat) (x0 : Int) (instant tq : Nat) : Hw :=
  let c := h.chain s
  let ri := integrate x0 c.integ
  let c1 := { c with integ := ri.1, next := n + 1 }
  let r1 := chainR1 c.chainW
  if n % r1 ≠ 0 then h.setChain s c1
  else
    let rc := combs ri.2 c1.comb
    let y1 := satBits 32 (rhe (toSigned 72 (ofSigned 72 rc.2)) (bits c.chainW 31 26))
    let c2 := ({ c1 with comb := rc.1 }).markIf y1.2 mkSat n
    let rh := hbCascade (bits c.chainW 25 21) 1 c2.hb (n / r1) y1.1
    let c3 := rh.2.2.foldl (fun c i => c.setMark (mkSat + i) n) { c2 with hb := rh.1 }
    match rh.2.1 with
    | none => h.setChain s c3
    | some (k, v) =>
      let c4 := { c3 with s3 := (v :: c3.s3).take 256 }
      let h1 := h.setChain s c4
      let d3 := respD3 (respOf c4.respW (h.activeBank s))
      if k % d3 ≠ 0 then h1
      else
        let o := h1.s3Out s
        let j := k / d3
        let sat := o.2.1 || c4.satIn n o.2.2.1
        let w := outWord c4 n j (spanOf c4.chainW o.2.2.1) o.1 sat o.2.2.2
        let out : ReadyOut := { era := c4.era, index := j, word := w, instant := instant, tq := tq }
        let h2 := h1.setChain s { c4 with ready := c4.ready ++ [out] }
        (h2.when (sat && !isPlaceholder w) (fun h => h.noteSat s)).fadeStep s

/-- The grid of a group: the one in effect, or while it is not armed the one that its registers give. -/
def Hw.gridFor (h : Hw) (g : Nat) : Grid := if (h.grp g).armed then (h.grp g).grid else gridOf h g

/-- Lost samples enter as 0 for the raw indices from the next one up to `n` (R198, R237); a skipped instant is marked as
such (R125). -/
def Hw.fillLost (h : Hw) (s g : Nat) (n : Nat) : Hw :=
  let x := h.grp g
  let first := (h.chain s).next
  h.each (List.range (n - first)) (fun h i =>
    let m := first + i
    let c := h.chain s
    let skip := x.skips.any (fun q => decide (q.1 ≤ m ∧ m < q.1 + q.2))
    let c1 := (c.demodLost skip).setMark (if skip then mkSkipped else mkMissing) m
    (h.setChain s c1).chainStep s m 0 (c.origin.getD 0 + m * (h.gridFor g).period) 0)

/-- First raw index of a group at or after an instant, counted from an origin. -/
def rawAt (x : Grid) (origin t : Nat) : Nat := if t ≤ origin then 0 else (t - origin + x.period - 1) / x.period

/-- The oldest settings that wait take effect, before the raw sample held as `o` (R200): raw samples before their boundary count
as settling, and histories are zeroed where D, S1_K, S1_R or N2 change. -/
def Hw.applySettings (h : Hw) (s : Nat) (o : Hold) (p : ChainSet) : Hw :=
  let c := h.chain s
  let org := if p.group = o.group then o.origin else ((h.grp p.group).origin).getD o.origin
  let nb := rawAt (h.gridFor p.group) org p.at_
  let fresh := c.src.isNone
  let moved := fresh || decide (c.origin ≠ some org ∨ c.group ≠ p.group)
  let h1 := if moved then h else h.fillLost s c.group nb
  let c1 := h1.chain s
  let a := h1.activeBank s
  let zero := fresh || decide (decim c1.chainW c1.respW a ≠ decim p.chainW p.respW a) ||
    decide (chainK c1.chainW ≠ chainK p.chainW) || decide (chainR1 c1.chainW ≠ chainR1 p.chainW) ||
    decide (chainN2 c1.chainW ≠ chainN2 p.chainW)
  let c2 := { c1 with src := p.src, group := p.group, chainW := p.chainW, respW := p.respW, pend := c1.pend.tail, origin := some org,
                      next := if moved then nb else c1.next, era := p.era, marks := if moved then [] else c1.marks }
  let c3 := if fresh then { c2 with heldIn := 0, lastIn := 0, lastEdge := none, blank := 0 } else c2
  let c4 := if zero then c3.zeroed else c3
  h1.setChain s (if 0 < nb then c4.setMark mkSettle (nb - 1) else c4)

/-- A FEED presents a raw sample to the chain of a stream (R186, R219). -/
def Hw.feedChain (h : Hw) (s : Nat) (x : RawCell) : Hw :=
  let o := x.hold
  let h1 := h.each ((h.chain s).pend.takeWhile (fun p => decide (p.at_ ≤ o.instant))) (fun h p => h.applySettings s o p)
  let c := h1.chain s
  if c.origin ≠ some o.origin ∨ c.group ≠ o.group ∨ o.raw < c.next ∨ c.src ≠ some o.ch then h1
  else
    let h2 := h1.fillLost s o.group o.raw
    let c2 := h2.chain s
    let d := c2.demod (demodDriver (bits c2.chainW 6 5) o) (if x.lost then none else some x.code.toInt)
    let c3 := if x.lost then d.1.setMark (if x.absent then mkMissing else mkStitch) o.raw else d.1.markRaw o.raw x
    (h2.setChain s c3).chainStep s o.raw d.2 o.instant o.tq

/-- WRITE hands the completed outputs of a stream to the DMA and the Burgees (R229). -/
def Hw.writeStream (h : Hw) (s : Nat) : Hw :=
  let os := (h.chain s).ready
  (h.setChain s { h.chain s with ready := [] }).dmaPut s false os

/-! ### Swap requests (R203) -/

def Hw.swapRequest (h : Hw) (s bank : Nat) : Hw :=
  let busy := h.on (FIL_STATUS_FADING s)
  if !h.on (FIL_RESP_SWAP_EN s) || h.respBad (respOf (h.reg (FIL_RESP s)) bank) ||
     (!busy && decide (bank = h.activeBank s)) then h.put (FIL_STATUS_IGNORED s) 1
  else if busy then
    let h1 := h.when (h.on (FIL_STATUS_QUEUED s)) (fun h => h.put (FIL_STATUS_REPLACED s) 1)
    (h1.put (FIL_STATUS_QUEUED s) 1).put (FIL_STATUS_Q_BANK s) bank
  else (h.setChain s { h.chain s with fade := some (bank, 0) }).put (FIL_STATUS_FADING s) 1

/-! ### Synchronising resets (R199, R205, R256) -/

/-- Output period P of a channel stream in ns (R255); 0 where it has no source channel. -/
def Hw.periodNs (h : Hw) (s : Nat) : Nat :=
  match h.streamChan s with
  | some ch =>
    let g := h.get (SMP_CH_GROUP ch)
    decim (h.reg (FIL_CHAIN s)) (h.reg (FIL_RESP s)) (h.activeBank s) *
      ((h.get (SMP_GRP_CTL_MULT_M1 g) + 1) * h.get SMP_FRAME_PERIOD_PERIOD_NS)
  | none => 0

/-- A raw sample of the era that origin `o` began has been converted: it is in the raw-sample store, or on its way. -/
def Hw.converted (h : Hw) (ch o n : Nat) : Bool :=
  let is (x : Option Hold) : Bool := x.any (fun x => decide (x.ch = ch ∧ x.origin = o ∧ x.raw = n))
  (List.range 4).any (fun f => (storeGet (fun _ => none) h.seq.raw (4 * ch + f)).any (fun c => !c.absent && is (some c.hold))) ||
  h.adc.flight.any (fun f => is f.hold)

/-- At the end of an era: the raw samples of a chain that were held and never converted (R168), or skipped (R125), and that
no later sample follows, enter it as lost, and the outputs that this completes go to the buffer with the era. -/
def Hw.flushLost (h : Hw) (s : Nat) : Hw :=
  let c := h.chain s
  match c.src, c.origin with
  | some ch, some o =>
    let g := h.get (SMP_CH_GROUP ch)
    let at_ (x : Option Hold) : Nat := ((x.filter (fun x => decide (x.origin = o ∧ x.group = g))).map (fun x => x.raw + 1)).getD 0
    let n := max (at_ (storeGet (fun _ => none) h.smp.heldOld ch)) (at_ (storeGet (fun _ => none) h.smp.held ch))
    let gone := ((List.range (n - c.next)).filter (fun i => !h.converted ch o (c.next + i))).foldl (fun m i => max m (c.next + i + 1)) 0
    let skip := (h.grp g).skips.foldl (fun m q => max m (q.1 + q.2)) 0
    h.when (c.pend.isEmpty && decide (c.next < max gone skip)) (fun h => (h.fillLost s g (max gone skip)).writeStream s)
  | _, _ => h

/-- The chain of a stream restarts at the reset instant (R199), and its stream begins a new era (R256). -/
def Hw.chainReset (h : Hw) (s i : Nat) : Hw :=
  let h0 := h.flushLost s
  let h1 := h0.when (h0.chain s).fade.isSome (fun h => (h.endFade s).put (FIL_STATUS_CUT s) 1)
  let h2 := h1.when (h1.on (DMA_CFG_EN s)) (fun h => h.newEra s 0 i (h.periodNs s))
  let c := h2.chain s
  let c1 := { c with src := h2.streamChan s, group := ((h2.streamChan s).map (fun ch => h2.get (SMP_CH_GROUP ch))).getD 0,
                     chainW := h2.reg (FIL_CHAIN s), respW := h2.reg (FIL_RESP s), pend := [],
                     origin := some i, next := 0, heldIn := 0, lastIn := 0, lastEdge := none, blank := 0, marks := [],
                     era := h2.get (STR_ERA_ERA s) }
  (h2.setChain s c1.zeroed).takeQueued s

/-- The streams that carry a channel of a group. -/
def Hw.groupStreams (h : Hw) (g : Nat) : List Nat :=
  h.str.sources.filterMap (fun q =>
    match q.2 with
    | some ch => if h.get (SMP_CH_GROUP ch) = g then some q.1 else none
    | none => none)

/-- A group's synchronising reset at its instant (R128, R290): the sampling part, the chains and eras of its streams, and
the histories of raw conditions on its channels; a reset crosses to CORE as a request (R541). -/
def Hw.syncReset (h : Hw) (g : Nat) : Hw :=
  match h.resetNow g with
  | some i =>
    let h0 := h.relabel g i
    let h1 := h0.each (h0.groupStreams g) (fun h s => h.chainReset s i)
    let h2 := h1.each (h1.members g) (fun h ch => h.clearHist true ch)
    (h2.groupReset g i).xingReq 4
  | none => h

/-! ### Commits (R200, R205, R256) -/

/-- The commit's effect on a stream's chain and buffer, with the new registers and sources in place. -/
def Hw.streamCommit (h old : Hw) (b s : Nat) : Hw :=
  let srcOld := old.streamChan s
  let srcNew := h.streamChan s
  let rws : Word := 0xBC3F3F3F
  let cfg := decide (h.reg (FIL_CHAIN s) ≠ old.reg (FIL_CHAIN s)) ||
    decide (h.reg (FIL_RESP s) &&& rws ≠ old.reg (FIL_RESP s) &&& rws)
  let h1 := h.when (cfg && (h.chain s).fade.isSome) (fun h =>
    ((h.endFade s).put (FIL_STATUS_QUEUED s) 0).put (FIL_STATUS_CUT s) 1)
  let a := h1.activeBank s
  let w := h1.reg (FIL_CHAIN s)
  let r := h1.reg (FIL_RESP s)
  let c := h1.chain s
  let changes := decide (srcOld ≠ srcNew) || decide (w ≠ old.reg (FIL_CHAIN s)) ||
    decide (bits r 21 16 ≠ bits (old.reg (FIL_RESP s)) 21 16) ||
    decide (respOf r a ≠ respOf (old.reg (FIL_RESP s)) a)
  let grpOf (x : Hw) (m : Option Nat) := m.map (fun ch => x.get (SMP_CH_GROUP ch))
  let d := decim w r a
  let reorigin := srcNew.isSome &&
    (decide (decim (old.reg (FIL_CHAIN s)) (old.reg (FIL_RESP s)) a ≠ d) || decide (grpOf old srcOld ≠ grpOf h1 srcNew))
  let grp := (grpOf h1 srcNew).getD 0
  -- the source stops: the stream is not running any more
  let c1 := if srcNew.isNone then { c with src := none, pend := [], chainW := w, respW := r }
    else if changes || reorigin then
      { c with pend := c.pend ++ [{ at_ := b, src := srcNew, group := grp, chainW := w, respW := r, era := 0 }] }
    else if c.pend.isEmpty then { c with respW := r }
    else { c with pend := c.pend.dropLast ++ (c.pend.getLast?.map (fun p => { p with respW := r })).toList }
  let h2 := h1.setChain s c1
  let x := h2.grp grp
  let j0 := match srcNew, x.origin with
    | some _, some o => (rawAt x.grid o b + d - 1) / d
    | _, _ => 0
  let org := if srcNew.isSome then x.origin.getD 0 else 0
  let was := old.on (DMA_CFG_EN s)
  let now := h2.on (DMA_CFG_EN s)
  let h3 :=
    if now && !was then
      ((h2.setChain s { h2.chain s with ready := [] }).startBuffer s j0 org (h2.periodNs s))
    else if now && reorigin then h2.newEra s j0 org (h2.periodNs s)
    else if was && !now then h2.stopBuffer s
    else h2
  -- outputs of the new settings, and of a buffer that starts all outputs, belong to the era in effect
  let era := h3.get (STR_ERA_ERA s)
  let c3 := h3.chain s
  let upd (p : ChainSet) : ChainSet := { p with era := if (now && !was) || decide (p.at_ = b) then era else p.era }
  let h4 := h3.setChain s { c3 with era := if now && !was then era else c3.era, pend := c3.pend.map upd }
  h4.when (was && now && decide (bits (h4.reg (DMA_CFG s)) 25 0 ≠ bits (old.reg (DMA_CFG s)) 25 0))
    (fun h => h.moveBuffer s)

/-- Every stream that a commit can touch: named before or after, or with a changed register. -/
def touchedStreams (h old : Hw) : List Nat :=
  (List.range nStream).filter (fun s =>
    decide (h.streamChan s ≠ old.streamChan s) || (h.streamChan s).isSome || h.on (DMA_CFG_EN s) || old.on (DMA_CFG_EN s) ||
    decide (h.reg (FIL_CHAIN s) ≠ old.reg (FIL_CHAIN s) ∨ h.reg (FIL_RESP s) ≠ old.reg (FIL_RESP s)))

/-! ### Commit checks (R189, R206-R209) -/

/-- Filter settings that a commit refuses with FAIL_CODE 0x7. -/
def filterOutOfRange (h : Hw) : Bool :=
  (List.range nStream).any (fun s =>
    let w := h.reg (FIL_CHAIN s)
    let r := h.reg (FIL_RESP s)
    let dm := bits w 6 5
    decide (4 < chainN2 w) || decide (8 < bits w 17 14) || decide (chainK w = 0 ∨ 5 < chainK w) || decide (dm = 3) ||
    decide (12 < bits r 29 26) || (natBit r.toNat 31 && decide (respD3 (respOf r 0) ≠ respD3 (respOf r 1))) ||
    (match h.streamChan s with
      | some ch =>
        let d := 2 * clusOfChan ch + (dm - 1)
        (decide (dm = 1 ∨ dm = 2) && !decide (h.get (EXC_CFG_MODE d) = 4 ∨ h.get (EXC_CFG_MODE d) = 5)) ||
        h.respBad (respOf r 0) || h.respBad (respOf r 1) || (decide (1 ≤ chainN2 w) && h.on FIL_LOAD_HB_BAD)
      | none => false))

/-! ### The stores (R208) -/

/-- A store has read wrong twice: a response is marked bad, or the half-band set, number 64. -/
def Hw.romMark (h : Hw) (i : Nat) : Hw :=
  (if i = 64 then h.put FIL_LOAD_HB_BAD 1 else h.putBit (FIL_ROM_BAD (i / 32)) (i % 32) true).raise srcFilterRomCheck i

/-- Some stores are verified; `bad` are the stores that read wrong twice now. -/
def Hw.romVerify (h : Hw) (stores bad : List Nat) : Hw := h.each (stores.filter (fun i => bad.contains i)) Hw.romMark

/-- Every store: the responses and the half-band set. -/
abbrev romStores : List Nat := List.range 65

/-- The background check of one store. -/
def Hw.romCheck (h : Hw) (bad : Bool) : Hw :=
  let i := h.str.romNext
  let h1 := { h with str := { h.str with romNext := (i + 1) % 65, romDue := h.ns + 1000000 } }
  h1.when bad (fun h => h.romMark i)

/-- The filter settings of a stream are new in a candidate: its registers or its source. -/
def newFilter (h cand : Hw) (s : Nat) : Bool :=
  decide (h.reg (FIL_CHAIN s) ≠ cand.reg (FIL_CHAIN s) ∨ h.reg (FIL_RESP s) ≠ cand.reg (FIL_RESP s)) ||
  decide (h.streamChan s ≠ cand.streamChan s)

/-- The stores that a candidate selects anew. -/
def newStores (h cand : Hw) : List Nat :=
  ((List.range nStream).filter (newFilter h cand)).flatMap (fun s =>
    let r := cand.reg (FIL_RESP s)
    [respOf r 0, respOf r 1] ++ (if 1 ≤ chainN2 (cand.reg (FIL_CHAIN s)) then [64] else []))

/-- A candidate selects a store that is marked bad (FAIL_CODE 0x7), for a stream that has a source or whose filter settings
it changes: DESIGN CHOICE (log 156), since every stream's registers name some response at reset. -/
def selectsBad (h cand : Hw) : Bool :=
  (newStores h cand).any (fun i => if i = 64 then h.on FIL_LOAD_HB_BAD else h.respBad i)

/-! ### The commands -/

def execSyncReset (g : Nat) (s : State) : Out := actOn s (isGroup g) (fun h => h.syncReset g)

/-- A write of FIL_SWAP (R203, R211). -/
def Hw.filSwap (h : Hw) (v : Word) : Hw := h.when (natBit v.toNat 31) (fun h => h.swapRequest (bits v 8 0) (bits v 16 16))

/-- The response that a swap request selects is verified; `bad`: it reads wrong twice (R208). -/
def Hw.verifySwap (h : Hw) (v : Word) (bad : Bool) : Hw :=
  let s := bits v 8 0
  h.when (bad && natBit v.toNat 31 && h.on (FIL_RESP_SWAP_EN s)) (fun h => h.romMark (respOf (h.reg (FIL_RESP s)) (bits v 16 16)))

def execFilSwap (q : Requester) (v : Word) (bad : Bool) (s : State) : Out :=
  accWrite s q true (fun h => (h.verifySwap v bad).filSwap v)

def execRomBackgroundCheck (bad1 bad2 : Bool) (s : State) : Out :=
  actOn s true (fun h => h.when (h.coreOn && h.due h.str.romDue) (fun h => h.romCheck (bad1 && bad2)))

end Sys2Proof.Machine
end

