-- ==== Sys2Proof/Machine/Conversion.lean ====
section
/-!
DEFINITION. The converter pool (chapter 05): slots and their claimants, injected lists, core relief and failure, Stitch
words with the raw-sample store (R21, R22, R228), and the temperatures taken from the auxiliary results (R509, R553).
-/
namespace Sys2Proof.Machine

/-! ### Positions and cores (R150, R176, R177) -/

def mapFld (p : Nat) : Fld := ⟨ADC_MAP, 4 * p + 3, 4 * p⟩
/-- Core serving a position; 15: none. -/
def Hw.coreOf (h : Hw) (p : Nat) : Nat := h.get (mapFld p)
def Hw.roleOf (h : Hw) (c : Nat) : Nat := h.get (ADC_CORE_STAT_ROLE c)
def Hw.posOfCore (h : Hw) (c : Nat) : Option Nat := (List.range 8).find? (fun p => decide (h.coreOf p = c))
/-- The spare core (ROLE 1). -/
def Hw.spareCore (h : Hw) : Option Nat := (List.range 9).find? (fun c => decide (h.roleOf c = 1))

/-- A position is given to a core, or to none. -/
def Hw.giveCore (h : Hw) (p c : Nat) : Hw :=
  let h1 := h.put (mapFld p) c
  if c < 9 then (h1.put (ADC_CORE_STAT_ROLE c) 0).put (ADC_CORE_STAT_POS c) p else h1

/-- The CONV clock that serves a position (0-7) or a core under calibration (8 + core) runs; a position without a core has
no conversion that needs one (R166). -/
def Hw.convOn (h : Hw) (p : Nat) : Bool :=
  let c := if p < 8 then h.coreOf p else p - 8
  decide (p < 8 ∧ c = 15) || decide ((h.dom (.conv c)).mode = .on)

/-- A CCONV's front end or core is not under calibration, so that the entry makes no conversions (R231, R512). -/
def Hw.calIdleClaim (h : Hw) (k : CalClaim) : Bool :=
  (decide (k.core < 9) && decide (h.roleOf k.core ≠ 2)) || (!k.aux && decide (h.get (FE_UNIT_ROLE k.src) ≠ 2))

/-- The next calibration conversion for position slack (15) or for a core. -/
def nextClaim (cs : List CalClaim) (core : Nat) : Option CalClaim := cs.find? (fun c => decide (c.core = core))

/-- The claims without the entries that are next for their core or for slack, have made no conversion yet, and whose unit is
not under calibration; the fuel bounds the entries. -/
def Hw.dropIdle (h : Hw) : Nat → List CalClaim → List CalClaim
  | 0, cs => cs
  | fuel + 1, cs =>
    match (15 :: List.range 9).findSome? (fun core => (nextClaim cs core).filter (fun k => k.first && h.calIdleClaim k)) with
    | some k => Hw.dropIdle h fuel (cs.filter (fun c => decide (c.entry ≠ k.entry)))
    | none => cs

/-- The calibration list's claims, each entry judged when its first conversion is due (R231, R512). -/
def Hw.calClaims (h : Hw) : List CalClaim := (h.adc.calRun.map (fun r => h.dropIdle r.claims.length r.claims)).getD []

/-- Conversions of a core are due: regular ones of its position, or claims on its slots (R25, R166). -/
def Hw.convDueOn (h : Hw) (c : Nat) : Bool :=
  let serves := (h.posOfCore c).isSome
  h.adc.jobs.any (fun j => !j.done && decide (h.coreOf j.pos = c)) || (serves && h.adc.run.any (fun r => !r.claims.isEmpty)) ||
  h.calClaims.any (fun k => decide (k.core = c) || (serves && decide (k.core = 15)))

/-- Slots per position in a frame (R152). -/
def Hw.slots (h : Hw) : Nat := h.smp.per / 16

/-! ### Injected lists (R159, R160) -/

def Hw.ilState (h : Hw) (l : Nat) : Nat := h.get (ADC_IL_STAT_STATE l)

def Hw.setIlAt (h : Hw) (l ns start : Nat) : Hw :=
  { h with adc := { h.adc with ilAt := storeSet (fun _ => (0, 0)) h.adc.ilAt l (ns, start),
                               ilLate := storeSet (fun _ => false) h.adc.ilLate l false } }

/-- A start of a list, registered at network time `start` (R160, R230). -/
def Hw.listStart (h : Hw) (l start : Nat) : Hw :=
  if h.ilState l = 0 then (h.put (ADC_IL_STAT_STATE l) 1).setIlAt l h.ns start
  else if h.on (ADC_IL_STAT_AGAIN l) then h.bump (ADC_IL_STAT_MERGED l) 1
  else
    let h1 := h.put (ADC_IL_STAT_AGAIN l) 1
    { h1 with adc := { h1.adc with ilAgain := storeSet (fun _ => (0, 0)) h1.adc.ilAgain l (h.ns, start) } }

/-- The list's run is over: it is idle, or pending once more with AGAIN. -/
def Hw.listOver (h : Hw) (l : Nat) : Hw :=
  let h1 := { h with adc := { h.adc with run := none } }
  if h1.on (ADC_IL_STAT_AGAIN l) then
    let t := storeGet (fun _ => (0, 0)) h1.adc.ilAgain l
    ((h1.put (ADC_IL_STAT_AGAIN l) 0).put (ADC_IL_STAT_STATE l) 1).setIlAt l t.1 t.2
  else h1.put (ADC_IL_STAT_STATE l) 0

/-- The run ends once LEND has issued and its last conversion is sampled (R161). -/
def Hw.runCheck (h : Hw) : Hw :=
  match h.adc.run with
  | some r => if r.ended && r.claims.isEmpty then h.listOver r.list else h
  | none => h

def Hw.listsWaiting (h : Hw) : Bool := (List.range 16).any (fun l => decide (h.ilState l ≠ 0))

/-- With no list running, the lowest pending list whose region is enabled starts (R160, R247). -/
def Hw.ilRunStart (h : Hw) : Hw :=
  match h.adc.run with
  | some _ => h
  | none =>
    match (List.range 16).find? (fun l => decide (h.ilState l = 1) && h.on (SEQ_IL_RGN_EN l)) with
    | some l =>
      let t := storeGet (fun _ => (0, 0)) h.adc.ilAt l
      let r : ListRun := { list := l, pc := h.get (SEQ_IL_RGN_BASE l), stack := [], claims := [], since := 0, ended := false, start := t.2 }
      ({ h with adc := { h.adc with run := some r } }).put (ADC_IL_STAT_STATE l) 2
    | none => h

/-- A list's deadline passes before its last conversion is sampled (R161). -/
def Hw.ilDeadline (h : Hw) (l : Nat) : Hw :=
  let us := h.get (ADC_IL_CTL_DEADLINE_US l)
  let t := storeGet (fun _ => (0, 0)) h.adc.ilAt l
  if us ≠ 0 ∧ h.ilState l ≠ 0 ∧ h.due (t.1 + 1000 * us) = true ∧ storeGet (fun _ => false) h.adc.ilLate l = false then
    let h1 := { h with adc := { h.adc with ilLate := storeSet (fun _ => false) h.adc.ilLate l true } }
    (h1.put (ADC_IL_STAT_LATE l) 1).raise srcInjDeferred l
  else h

/-- A commit abandons the running list (R162). -/
def Hw.ilAbandon (h : Hw) : Hw :=
  match h.adc.run with
  | some r => (h.put (ADC_IL_STAT_ABANDONED r.list) 1).listOver r.list
  | none => h

/-! ### Temperatures (R509, R553) -/

/-- A sensor's reading is current: its count advanced within the last second. -/
def Hw.tempKnown (h : Hw) (n : Nat) : Bool :=
  (storeGet (fun _ => none) h.cal.seen n).any (fun t => decide (h.ns < t + 1000000000))

/-- Temperature of a sensor in 0.125 degC, when it is known. -/
def Hw.temp (h : Hw) (n : Nat) : Option Int :=
  if h.tempKnown n then some (toSigned 16 (h.get (CAL_TEMP_T n))) else none

/-- FIELD_DIE_TEMP threshold in degC; values outside 60 to 115 act as 115. -/
def Hw.tempWarn (h : Hw) : Nat :=
  let w := h.get FLT_CTL_TEMP_WARN
  if 60 ≤ w ∧ w ≤ 115 then w else 115

/-- Code of a sensor, signed. -/
def Hw.auxCode (h : Hw) (a : Nat) : Int := toSigned 16 (h.get (ADC_AUX_RES_CODE a))

/-- FIELD_DIE_TEMP and THERM_LIMIT as the known readings leave them. -/
def Hw.judgeTemps (h : Hw) : Hw :=
  let known := (List.range 10).filter (fun n => h.tempKnown n)
  let warm := known.find? (fun n => decide (8000 + 40 * ((h.tempWarn : Int) - 25) < h.auxCode n))
  let hot := known.filter (fun n => decide (11720 < h.auxCode n) ||
    (storeGet (fun _ => false) h.cal.hot n && decide (11600 ≤ h.auxCode n)))
  let h1 := { h with cal := { h.cal with hot := hot.map (fun n => (n, true)) } }
  let h2 := match warm with
    | some n => h1.when (!h1.present srcFieldDieTemp) (fun h => h.raise srcFieldDieTemp n)
    | none => h1.causeEnd srcFieldDieTemp
  match hot with
  | n :: _ => h2.when (!h2.present srcThermLimit) (fun h => h.raise srcThermLimit n)
  | [] => h2.causeEnd srcThermLimit

/-! ### What is due (R509, R510) -/

/-- Relevant temperature of a front-end unit, of a core, and of the lanes (the mean of the known sensors). -/
def Hw.feTemp (h : Hw) (u : Nat) : Option Int := h.temp (clusOfUnit u / 4)
def Hw.laneTemp (h : Hw) : Option Int :=
  let ts := (List.range 10).filterMap (fun n => h.temp n)
  if ts = [] then none else some (roundHalfEven (ts.foldl (· + ·) 0) ts.length)

def Hw.feItem (h : Hw) (u : Nat) : CalItem := storeGet (fun _ => item0) h.cal.fe u
def Hw.adcItem (h : Hw) (c : Nat) : CalItem := storeGet (fun _ => item0) h.cal.adc c
/-- The link items of lane l of port p stand at 4 p + l. -/
def Hw.slicerItem (h : Hw) (i : Nat) : CalItem := storeGet (fun _ => item0) h.cal.slicer i
def Hw.delayItem (h : Hw) (i : Nat) : CalItem := storeGet (fun _ => item0) h.cal.delay i

def Hw.setFeItem (h : Hw) (u : Nat) (x : CalItem) : Hw :=
  { h with cal := { h.cal with fe := storeSet (fun _ => item0) h.cal.fe u x } }
def Hw.setAdcItem (h : Hw) (c : Nat) (x : CalItem) : Hw :=
  { h with cal := { h.cal with adc := storeSet (fun _ => item0) h.cal.adc c x } }
def Hw.setSlicerItem (h : Hw) (i : Nat) (x : CalItem) : Hw :=
  { h with cal := { h.cal with slicer := storeSet (fun _ => item0) h.cal.slicer i x } }
def Hw.setDelayItem (h : Hw) (i : Nat) (x : CalItem) : Hw :=
  { h with cal := { h.cal with delay := storeSet (fun _ => item0) h.cal.delay i x } }

/-- An item is due at a relevant temperature. -/
def CalItem.due (x : CalItem) (t : Option Int) (delta : Nat) : Bool :=
  !x.done || x.runAll ||
  (match x.tCal, t with
    | some a, some b => decide (delta < (b - a).natAbs)
    | _, _ => false)

def Hw.isDue (h : Hw) (x : CalItem) (t : Option Int) : Bool := x.due t (h.get CAL_TEMP_DELTA_DELTA)

/-- A due slicer of a port in UP asks for the training pattern (R402, R516). -/
def Hw.markSlicers (h : Hw) : Hw :=
  h.when (h.on CAL_CTL_LINK_EN) (fun h =>
    h.each (List.range 8) (fun h i =>
      let p := i / 4
      let l := i % 4
      let port := if p = 0 then Port.a else Port.b
      h.when (decide (h.get (LNK_STATUS_STATE p) = 4) && h.isDue (h.slicerItem i) h.laneTemp && !h.on (LNK_TRK_RECAL_PEND p l))
        (fun h => ((h.put (LNK_TRK_RECAL_PEND p l) 1).put (LNK_STATUS_MY_RECAL p) (h.get (LNK_STATUS_MY_RECAL p) ||| 2 ^ l)).setLane
          port l { h.lane port l with recalSince := h.ns })))

/-- A link step that started with no temperature known takes the first mean that becomes known (R509). -/
def Hw.fillLaneTemps (h : Hw) : Hw :=
  match h.laneTemp with
  | some t => h.each (List.range 8) (fun h i =>
      let h1 := h.when ((h.slicerItem i).done && (h.slicerItem i).tCal.isNone) (fun h =>
        h.setSlicerItem i { h.slicerItem i with tCal := some t })
      h1.when ((h1.delayItem i).done && (h1.delayItem i).tCal.isNone) (fun h =>
        h.setDelayItem i { h.delayItem i with tCal := some t }))
  | none => h

/-- A new reading of TSn. -/
def Hw.tsReading (h : Hw) (n : Nat) : Hw :=
  let t := roundHalfEven (h.auxCode n - 8000) 5 + 200
  let h1 := h.put (CAL_TEMP_T n) (ofSigned 16 t)
  ({ h1 with cal := { h1.cal with seen := storeSet (fun _ => none) h1.cal.seen n (some h.ns) } }).judgeTemps.fillLaneTemps.markSlicers

/-! ### Slots (R152, R157, R164) -/

def Hw.slotAt (h : Hw) (p : Nat) : Nat := storeGet (fun _ => 0) h.adc.slotAt p
def Hw.setSlotAt (h : Hw) (p k : Nat) : Hw :=
  { h with adc := { h.adc with slotAt := storeSet (fun _ => 0) h.adc.slotAt p k } }

/-- The first slack slot of a position in the frame: the first one that no regular entry names. -/
def slackFrom (jobs : List SlotJob) (p : Nat) : Nat → Nat → Nat
  | 0, k => k
  | fuel + 1, k => if jobs.any (fun j => decide (j.pos = p ∧ j.slot = k)) then slackFrom jobs p fuel (k + 1) else k

/-- The slot that starvation relief gives to the calibration list (R164, R166). -/
def Hw.forcedSlot (h : Hw) (p k : Nat) : Bool :=
  h.on ADC_SLACK_FORCING && decide ((List.range 8).find? (fun q => decide (h.coreOf q ≠ 15)) = some p) &&
  decide (k = slackFrom h.adc.jobs p h.adc.jobs.length 0)

/-- A code leaves for the core die. -/
def Hw.fly (h : Hw) (b slot : Nat) (what : ConvFor) (code : BitVec 16) (ovr flag : Bool) (hold : Option Hold)
    (bad cal : Bool) : Hw :=
  let f : Flight := { frame := h.seq.frame, instant := b + 16 * (slot + 1) * nsUnit, tq := h.quality, what := what,
                      code := code, ovr := ovr, flag := flag, hold := hold, bad := bad, cal := cal }
  { h with adc := { h.adc with flight := h.adc.flight ++ [f] } }

/-- The residue monitor of a core counts a conversion (R166). -/
def Hw.countResid (h : Hw) (c : Nat) (out ovr flag : Bool) : Hw :=
  if ovr || flag then h
  else
    let n := if out then storeGet (fun _ => 0) h.adc.resid c + 1 else 0
    { h with adc := { h.adc with resid := storeSet (fun _ => 0) h.adc.resid c n } }

/-- The held value that a regular conversion of a channel of an armed group takes; none where the track-and-hold holds nothing (R670). -/
def Hw.heldFor (h : Hw) (ch : Nat) : Option Hold :=
  match storeGet (fun _ => none) h.smp.held ch with
  | some x =>
    let g := h.get (SMP_CH_GROUP ch)
    if x.group ≠ g ∨ (h.grp g).origin ≠ some x.origin then none else some x
  | none => none

/-- What a conversion of a channel converts that is in no armed group (R121): a sample with VALID = 0 of the instant that
the channel's group takes, or would take, by its grid, counted from the group's origin, else from the channel's first such
conversion: DESIGN CHOICE (log 61), since the spec gives that sample no index. -/
def Hw.idleHold (h : Hw) (ch t : Nat) : Option Hold :=
  let g := h.get (SMP_CH_GROUP ch)
  let x := h.grp g
  let grid := if x.armed then x.grid else gridOf h g
  let n := grid.atOrAfter (t + 1)
  if n < grid.period then none
  else
    let i := n - grid.period
    let before (o : Option Nat) : Option Nat := o.filter (fun o => decide (o ≤ i))
    let o := (before x.origin <|> before ((storeGet (fun _ => none) h.smp.held ch).map Hold.origin)).getD i
    some { h.holdOf g i ((i - o) / grid.period) o ch with frame := h.seq.frame }

/-- A regular conversion (R151, R155, R166, R670). -/
def Hw.slotRegular (h : Hw) (b p slot ch : Nat) (code : BitVec 16) (ovr out : Bool) : Hw :=
  let c := h.coreOf p
  let g := h.get (SMP_CH_GROUP ch)
  let idle := !h.on (SMP_CH_EN ch) || !(h.grp g).armed
  let hold := if idle then h.idleHold ch (b + 16 * (slot + 1) * nsUnit) else h.heldFor ch
  -- the front-end flag is that of the sample's strobe (R90)
  let flag := hold.any (fun x => x.flag)
  let bad := decide (c = 15) || h.adc.badCores.contains c || idle
  let cal := h.adc.relief.any (fun r => r.active && decide (r.pos = p))
  let jobs := h.adc.jobs.map (fun j => if j.pos = p ∧ j.slot = slot then { j with done := true } else j)
  let held := if idle then storeSet (fun _ => none) h.smp.held ch hold else h.smp.held
  let h1 : Hw := { h with adc := { h.adc with jobs := jobs }, smp := { h.smp with held := held } }
  (h1.fly b slot (.regular ch) code ovr flag hold bad cal).countResid c out ovr flag

/-- A run of the calibration list that an illegal step has ended is over once its claims are served (R241). -/
def Hw.calRunCheck (h : Hw) : Hw :=
  if h.adc.calRun.any (fun r => r.ended) && h.calClaims.isEmpty then { h with adc := { h.adc with calRun := none } } else h

/-- The run under way is a front end's strobe run, with the ramp at the unit's input (R520). -/
def Hw.rampRun (h : Hw) : Bool :=
  h.cal.runFe && h.cal.feStep.any (fun x => (x.plan[x.got.length]?).any (fun k => decide (k.input = 3)))

/-- The ramp cycle of 2.5 us in which a slot starts: the cycles are counted from the run's start point. -/
def rampCycle (start b slot : Nat) : Nat := (b + 16 * slot * nsUnit - start) / (2500 * nsUnit)

/-- The slot's ramp cycle has given its hold (R512). -/
def Hw.paced (h : Hw) (r : CalRun) (k : CalClaim) (b slot : Nat) : Bool :=
  h.rampRun && !k.aux && decide (r.cycle = some (rampCycle r.start b slot))

/-- The calibration conversion that a slot takes, for position slack (15) or for a core. -/
def Hw.calNext (h : Hw) (b slot core : Nat) : Option CalClaim :=
  (nextClaim h.calClaims core).filter (fun k => h.adc.calRun.any (fun r => !h.paced r k b slot))

/-- A conversion of the calibration list takes a slot (R230, R511, R512). -/
def Hw.slotCal (h : Hw) (b slot core c : Nat) (code : BitVec 16) (ovr out : Bool) : Hw :=
  match h.adc.calRun with
  | some r =>
    let cs := h.calClaims
    match h.calNext b slot core with
    | some k =>
      let cycle := if h.rampRun && !k.aux then some (rampCycle r.start b slot) else r.cycle
      let h1 := { h with adc := { h.adc with calRun := some { r with claims := cs.erase k, cycle := cycle } } }
      ((h1.fly b slot (.cal k.aux k.src k.acc) code ovr false none false false).countResid c out ovr false).calRunCheck
    | none => h
  | none => h

def Hw.slotInjected (h : Hw) (b slot c : Nat) (code : BitVec 16) (ovr out : Bool) : Hw :=
  match h.adc.run with
  | some r =>
    match r.claims with
    | k :: rest =>
      let h1 := { h with adc := { h.adc with run := some { r with claims := rest } } }
      (((h1.fly b slot k code ovr false none (h.adc.badCores.contains c) false).countResid c out ovr false)).runCheck
    | [] => h
  | none => h

/-- A slot from `start` on may be claimed: it starts at least 64 ns after the run's start point (R230). -/
def mayClaim (b slot start : Nat) : Bool := decide (start + 64 * nsUnit ≤ b + 16 * slot * nsUnit)

/-- The first slot of the frame that claims issued from `since` on, of a run that started at `start`, may take. -/
def firstClaimable (b start since : Nat) : Nat :=
  max ((start + 64 * nsUnit - b + 16 * nsUnit - 1) / (16 * nsUnit)) ((since - b) / (16 * nsUnit))

/-- The first slot of the frame in the ramp cycle after the one that gave the last hold (R512). -/
def Hw.pacedTo (h : Hw) (r : CalRun) (k : CalClaim) (b : Nat) : Nat :=
  match r.cycle with
  | some c => if h.rampRun && !k.aux then (r.start + (c + 1) * (2500 * nsUnit) - b + 16 * nsUnit - 1) / (16 * nsUnit) else 0
  | none => 0

/-- The first slot from which slack is claimed; none where no list claims position slack. -/
def Hw.claimFrom (h : Hw) (b : Nat) : Option Nat :=
  let inj := h.adc.run.bind (fun r => if r.claims.isEmpty then none else some (firstClaimable b r.start r.since))
  let cal := h.adc.calRun.bind (fun r => (nextClaim h.calClaims 15).map (fun k =>
    max (firstClaimable b r.start r.since) (h.pacedTo r k b)))
  match inj, cal with
  | some x, some y => some (min x y)
  | some x, none => some x
  | none, y => y

/-- A conversion of an earlier slot, or of a lower position in the same slot, is still to be sampled: conversions go in
slot-major, position-minor order (R154, R157). -/
def Hw.dueBefore (h : Hw) (b p slot : Nat) : Bool :=
  let before (q k : Nat) : Bool := decide (k < slot ∨ (k = slot ∧ q < p))
  h.adc.jobs.any (fun j => !j.done && before j.pos j.slot) ||
  (match h.claimFrom b with
    | some k0 => (List.range 8).any (fun q =>
        decide (h.coreOf q ≠ 15) && before q (slackFrom h.adc.jobs q h.adc.jobs.length (max k0 (h.slotAt q))))
    | none => false)

/-- A slack slot (R157, R164, R230). -/
def Hw.slotSlack (h : Hw) (b p slot : Nat) (code : BitVec 16) (ovr out : Bool) : Hw :=
  let c := h.coreOf p
  if c = 15 then h
  else
    let inj := h.adc.run.any (fun r => !r.claims.isEmpty && mayClaim b slot r.start)
    let cal := (h.calNext b slot 15).isSome && h.adc.calRun.any (fun r => mayClaim b slot r.start)
    if cal && (h.forcedSlot p slot || !inj) then h.slotCal b slot 15 c code ovr out
    else if inj then h.slotInjected b slot c code ovr out
    else h

/-- The slot of a position (0-7), or of a core under calibration (8 + core), ends (R152). `out`: its residue was out of
range. -/
def Hw.slotSample (h : Hw) (p slot : Nat) (code : BitVec 16) (ovr out : Bool) : Hw :=
  match h.smp.lastBoundary with
  | some b =>
    if h.convOn p && decide (slot < h.slots) && decide (h.slotAt p ≤ slot) && h.reached (b + 16 * (slot + 1) * nsUnit) &&
        !(decide (p < 8) && h.dueBefore b p slot) then
      let h1 := h.setSlotAt p (slot + 1)
      if p < 8 then
        match h1.adc.jobs.find? (fun j => decide (j.pos = p ∧ j.slot = slot)) with
        | some j => h1.slotRegular b p slot j.ch code ovr out
        | none => h1.slotSlack b p slot code ovr out
      else if h1.roleOf (p - 8) = 2 then h1.slotCal b slot (p - 8) (p - 8) code ovr out
      else h1
    else h
  | none => h

/-! ### Arrival (R21, R22, R158, R183, R228, R229, R511) -/

/-- Add a code to a calibration accumulator. -/
def Hw.accumulate (h : Hw) (a : Nat) (code : Int) : Hw :=
  let n := h.get (CAL_ACC_CNT_CNT a)
  let sum := toSigned 48 (h.get (CAL_ACC_SLO_SUM_LO a) + 2 ^ 32 * h.get (CAL_ACC_SHI_SUM_HI a)) + code
  let mx := if n = 0 then code else max code (toSigned 16 (h.get (CAL_ACC_MM_MAX a)))
  let mn := if n = 0 then code else min code (toSigned 16 (h.get (CAL_ACC_MM_MIN a)))
  let s := ofSigned 48 sum
  ((((h.put (CAL_ACC_CNT_CNT a) (n + 1)).put (CAL_ACC_SLO_SUM_LO a) s).put (CAL_ACC_SHI_SUM_HI a) (s / 2 ^ 32)).put
    (CAL_ACC_MM_MAX a) (ofSigned 16 mx)).put (CAL_ACC_MM_MIN a) (ofSigned 16 mn)

/-- The result of an auxiliary source (R158, R183), and its temperature. -/
def Hw.auxResult (h : Hw) (a : Nat) (code : BitVec 16) : Hw :=
  let h1 := (h.put (ADC_AUX_RES_CODE a) code.toNat).put (ADC_AUX_RES_COUNT a) (h.get (ADC_AUX_RES_COUNT a) + 1)
  h1.when (decide (a < 10)) (fun h => h.tsReading a)

/-- The word of an auxiliary stream (R229): 256 x code with VALID, which a sample of a failed core lacks (R166). -/
def auxWord (code : BitVec 16) (bad : Bool) : Word := BitVec.ofNat 32 (256 * ofSigned 24 (256 * code.toInt) + 128 * b2n (!bad))

/-- A code arrives, or is known to be lost. -/
def Hw.arrive (h : Hw) (f : Flight) (lost : Bool) : Hw :=
  match f.what with
  | .regular ch =>
    match f.hold with
    | some x =>
      let c : RawCell := { frame := f.frame, lost := lost, absent := false, code := f.code, ovr := f.ovr, flag := f.flag, hold := x,
                           bad := f.bad, cal := f.cal, offered := false }
      { h with seq := { h.seq with raw := storeSet (fun _ => none) h.seq.raw (4 * ch + f.frame % 4) (some c) } }
    | none => h
  | .aux _ src stream =>
    if lost then h
    else
      let h1 := h.auxResult src f.code
      match stream with
      | some s =>
        let x := h1.stream s
        let j := match x.eras with
          | e :: _ => e.nextIndex x.wpos + b2n (x.lone.any (fun o => decide (o.1.era = e.era)))
          | [] => 0
        h1.dmaPut s true [{ era := h1.get (STR_ERA_ERA s), index := j, word := auxWord f.code f.bad, instant := f.instant, tq := f.tq }]
      | none => h1
  | .cal aux src acc =>
    if lost then h else (h.accumulate acc f.code.toInt).when aux (fun h => h.auxResult src f.code)

/-- An 18-bit sample of a Stitch word (R21). -/
def stitchSample (f : Flight) : Nat := 4 * f.code.toNat + 2 * b2n f.ovr + b2n f.flag

/-- The 64 bits of a sample word. -/
def stitchBits (seq : Nat) (fs : List Flight) : Nat :=
  let s (i : Nat) := ((fs[i]?).map stitchSample).getD 0
  2 ^ 60 + 2 ^ 54 * (seq % 64) + 2 ^ 36 * s 0 + 2 ^ 18 * s 1 + s 2

/-- The fields of a sample as received in place of those that were sent. -/
def Flight.received (f : Flight) (n : Nat) : Flight :=
  { f with code := BitVec.ofNat 16 (n / 4), ovr := natBit n 1, flag := natBit n 0 }

/-- The samples of a word are lost. -/
def Hw.loseFlights (h : Hw) (fs : List Flight) : Hw := h.each fs (fun h f => h.arrive f true)

/-- A discarded word (R22). -/
def Hw.stitchCrc (h : Hw) : Hw :=
  let n := min 65535 (h.adc.lostWords + 1)
  ({ h with adc := { h.adc with lostWords := n } }).raise srcStitchCrc n

/-- A sample word arrives (R21, R22): the next samples of one frame whose codes have left their cores, three to a word,
fewer at the frame's end, and fewer in mid-frame where a word leaves before three codes have left their cores: R21 does
not say that a word waits (DESIGN CHOICE, log 63). `err` is what the link did to the 64 bits and to the CRC-8 in
[71:64]. -/
def Hw.stitchSampleWord (h : Hw) (err : Word72) : Hw :=
  match h.adc.flight with
  | [] => h
  | f :: _ =>
    let fs := ((h.adc.flight.takeWhile (fun x => decide (x.frame = f.frame) && h.reached (x.instant + 192 * nsUnit))).take 3)
    if fs.isEmpty then h
    else
      let a := h.adc
      let fresh := decide (f.frame ≠ a.wordFrame)
      let seq := if fresh then 0 else a.sendSeq
      let want := if fresh then 0 else a.wantSeq
      let run := if fresh then 0 else a.lostRun
      let gone := !fresh && a.frameLost
      let h1 := { h with adc := { a with flight := a.flight.drop fs.length, wordFrame := f.frame, sendSeq := (seq + 1) % 64,
                                         wantSeq := want, lostRun := run, frameLost := gone,
                                         lostWords := if fresh then 0 else a.lostWords } }
      let sent := stitchBits seq fs
      let data := sent ^^^ (err.toNat % 2 ^ 64)
      let crc := crc8Bits 0 (msbBits 64 sent) ^^^ (err.toNat / 2 ^ 64)
      let good := decide (crc8Bits 0 (msbBits 64 data) = crc) && decide (natBits data 63 60 = 1 ∨ natBits data 63 60 = 2 ∨ natBits data 63 60 = 3)
      if good = false then
        let h2 := h1.stitchCrc.loseFlights fs
        { h2 with adc := { h2.adc with lostRun := run + 1, frameLost := h2.adc.frameLost || decide (64 ≤ run + 1) } }
      else
        -- a good word: its SEQ tells which words were lost before it
        let fits := decide (natBits data 63 60 = 1 ∧ natBits data 59 54 = (want + run) % 64)
        let h2 := { h1 with adc := { h1.adc with lostRun := 0, wantSeq := (want + run + 1) % 64 } }
        if gone || !fits then h2.loseFlights fs
        else h2.each (fs.zip [natBits data 53 36, natBits data 35 18, natBits data 17 0])
          (fun h q => h.arrive (q.1.received q.2) false)

/-- A status or idle word: its content reaches no part that the spec describes; a bad CRC or TYPE discards it. It takes
no place of its own in the SEQ sequence of the sample words, so one that is discarded adds nothing to the run of lost
words of R22 (DESIGN CHOICE, log 192). -/
def Hw.stitchOther (h : Hw) (ty : Nat) (payload : BitVec 54) (err : Word72) : Hw :=
  let sent := 2 ^ 60 * ty + payload.toNat
  let data := sent ^^^ (err.toNat % 2 ^ 64)
  let crc := crc8Bits 0 (msbBits 64 sent) ^^^ (err.toNat / 2 ^ 64)
  h.when (!(decide (crc8Bits 0 (msbBits 64 data) = crc) && decide (1 ≤ natBits data 63 60 ∧ natBits data 63 60 ≤ 3))) Hw.stitchCrc

/-! ### Calibration's hold on the pool (R163-R167) -/

/-- An ADC step is abandoned: no trim changes (R515, R519). -/
def Hw.abandonAdcStep (h : Hw) : Hw :=
  match h.cal.adcStep with
  | some x =>
    -- a relief that has not begun ends with the step that asked for it
    let relief := h.adc.relief.filter (fun r => r.active || decide (r.oldCore ≠ x.unit))
    (({ h with cal := { h.cal with adcStep := none, runAdc := false }, adc := { h.adc with relief := relief } }).put CAL_STATUS_ADC_BUSY
      0).noteFail 4 1 x.retries x.unit
  | none => h

/-- A position whose core has failed gets a core for the next boundary (R166): a spare that no other position gets, else one
under calibration in place, whose step is abandoned, else none. -/
def Hw.assignSpare (h : Hw) (p : Nat) : Hw :=
  let others := h.adc.mapNext.filter (fun q => decide (q.1 ≠ p))
  let taken := others.map (·.2)
  let give (h : Hw) (c : Nat) : Hw := { h with adc := { h.adc with mapNext := others ++ [(p, c)] } }
  match (List.range 9).find? (fun c => decide (h.roleOf c = 1) && !taken.contains c) with
  | some k => give h k
  | none =>
    match h.cal.adcStep.bind (fun x => if x.inPlace ∧ x.unit < 9 ∧ h.on (ADC_CORE_STAT_FAILED x.unit) = false then some x.unit else none) with
    | some k => give (h.abandonAdcStep.put (ADC_CORE_STAT_ROLE k) 1) k
    | none => give h 15

/-- A core fails (R166). -/
def Hw.coreFail (h : Hw) (c : Nat) : Hw :=
  let h1 := (h.put (ADC_CORE_STAT_FAILED c) 1).put (ADC_CORE_STAT_ROLE c) 3
  let h2 := ({ h1 with adc := { h1.adc with badCores := c :: h1.adc.badCores } }).raise srcAdcCoreFail c
  -- its own step, or that of the spare that must serve, is abandoned
  let h3 := h2.when (h2.cal.adcStep.any (fun x => decide (x.unit = c))) Hw.abandonAdcStep
  match h3.posOfCore c with
  | some p => h3.assignSpare p
  | none =>
    match h3.adc.mapNext.find? (fun q => decide (q.2 = c)) with
    -- a spare that was to serve a position
    | some q => h3.assignSpare q.1
    | none =>
    -- a relieved core that fails never becomes the spare: the relief just ends
    match h3.adc.relief with
    | some r => if r.oldCore = c ∧ r.active = true then { h3 with adc := { h3.adc with relief := some { r with ended := true } } } else h3
    | none => h3

def Hw.coreFails (h : Hw) (c : Nat) (clk : Bool) : Bool :=
  decide (h.roleOf c ≠ 3) && ((clk && h.convDueOn c) || decide (max 1 (h.get ADC_CORE_CHK_RESID_LIM) ≤ storeGet (fun _ => 0) h.adc.resid c))

/-- The substitution that waits is made at the boundary that acts now (R163-R165). -/
def Hw.coreRelief (h : Hw) (p : Nat) : Hw :=
  match h.adc.relief, h.boundaryNow with
  | some r, some _ =>
    -- the spare that the relief named may serve elsewhere by now
    let n := if h.roleOf r.newCore = 1 then r.newCore else h.spareCore.getD 15
    if r.pos = p ∧ r.active = false ∧ (r.since = none ∨ h.listsWaiting = false ∨ h.on ADC_SLACK_FORCING) ∧ n < 9 ∧ h.coreOf p = r.oldCore then
      let h1 := (h.giveCore p n).put (ADC_CORE_STAT_ROLE r.oldCore) 2
      { h1 with adc := { h1.adc with relief := some { r with newCore := n, active := true } } }
    else h
  | _, _ => h

/-- Starvation (R164). -/
def Hw.calStarved (h : Hw) : Hw :=
  let wt := msNs (h.get CAL_STARVE_TO_TO_MS)
  let idle := h.due (h.adc.calIssued + wt)
  let late (t : Option Nat) : Bool := t.any (fun t => h.due (t + wt))
  let wait := late h.cal.feSince || h.adc.relief.any (fun r => !r.active && late r.since)
  if (idle || wait) && !h.adc.forceNext && !h.on ADC_SLACK_FORCING then
    ({ h with adc := { h.adc with forceNext := true } }).raise srcCalStarved 0
  else h

/-- Positions without a core take a core that has become the spare (R166). -/
def Hw.refillCores (h : Hw) : Hw :=
  h.each (List.range 8) (fun h p =>
    if h.coreOf p = 15 then
      match h.spareCore with
      | some c => h.giveCore p c
      | none => h
    else h)

/-- What waits for a frame boundary in the pool: the end of a relief, cores back from calibration, map changes, forcing,
and the housekeeping start; a new frame's slots. -/
def Hw.adcBoundary (h : Hw) (b : Nat) : Hw :=
  -- the remaining samples of a frame whose lost words no good word followed are lost (R22)
  let h0 := { h with adc := { h.adc with frameLost := h.adc.frameLost || decide (0 < h.adc.lostRun), jobs := [], slotAt := [], badCores := [] } }
  let h1 := match h0.adc.relief with
    | some r =>
      if r.active && r.ended then
        ({ h0 with adc := { h0.adc with relief := none } }).when (decide (h0.roleOf r.oldCore = 2))
          (fun h => h.put (ADC_CORE_STAT_ROLE r.oldCore) 1)
      else h0
    | none => h0
  let h2 := h1.each h1.adc.rehabDone (fun h q =>
    if q.2 then (h.put (ADC_CORE_STAT_ROLE q.1) 1).put (ADC_CORE_STAT_FAILED q.1) 0 else h.put (ADC_CORE_STAT_ROLE q.1) 3)
  let h3 := h2.each h2.adc.rehab (fun h c => h.when (h.on (ADC_CORE_STAT_FAILED c)) (fun h => h.put (ADC_CORE_STAT_ROLE c) 2))
  let h4 := h3.each h3.adc.mapNext (fun h q => h.giveCore q.1 q.2)
  let h5 := ({ h4 with adc := { h4.adc with rehab := [], rehabDone := [], mapNext := [] } }).refillCores
  let h6 := if h5.adc.forceEnd then h5.put ADC_SLACK_FORCING 0 else h5
  let h7 := if h6.adc.forceNext then h6.put ADC_SLACK_FORCING 1 else h6
  let h8 := { h7 with adc := { h7.adc with forceEnd := false, forceNext := false } }
  (Hw.each { h8 with adc := { h8.adc with hkDue := [] } } h8.adc.hkDue (fun h l => h.listStart l b)).when
    (!h8.adc.hkDue.isEmpty && (h8.xing 3).busy) (fun h => h.xingActed 3)

/-! ### Commits (R162) -/

/-- A commit abandons the running list where `touched` says that its region's entries changed, or where its region
register changed. -/
def Hw.adcCommit (h old : Hw) (touched : Nat → Nat → Bool) : Hw :=
  match h.adc.run with
  | some r =>
    let w := old.reg (SEQ_IL_RGN r.list)
    if h.reg (SEQ_IL_RGN r.list) ≠ w ∨ touched (bits w 12 0) (bits w 28 16) then h.ilAbandon else h
  | none => h

/-! ### The commands -/

def execSlotSample (pos slot : Nat) (code : BitVec 16) (ovr : Bool) (resid : Nat) (s : State) : Out :=
  actOn s (decide (pos < 17)) (fun h => h.slotSample pos slot code ovr (decide (resid ≠ 0)))

def execStitchWordReceive (ty : StitchKind) (err : Word72) (s : State) : Out :=
  actOn s true (fun h => h.when (h.coreOn && decide (h.clk.stitch.mode = .on)) (fun h =>
    match ty with
    | .sample => h.stitchSampleWord err
    | .status p => h.stitchOther 2 p err
    | .idle => h.stitchOther 3 0 err))

def execHkTimerExpire (s : State) : Out :=
  actOn s true (fun h =>
    match h.adc.hkExpiry with
    | some t =>
      if h.due t then
        let iv := h.get ADC_HK_CTL_INTERVAL_MS
        ({ h with adc := { h.adc with hkDue := h.adc.hkDue ++ [h.get ADC_HK_CTL_LIST],
                                      hkExpiry := if iv = 0 then none else some (t + 1000000 * iv) } }).xingReq 3
      else h
    | none => h)

/-- A write of ADC_HK_CTL: the housekeeping timer starts again with the new interval (R159, R180). -/
def Hw.hkCtlWrite (h : Hw) (v : Word) : Hw :=
  let h1 := h.writeRw ADC_HK_CTL 0xFFFFF v
  let iv := bits v 15 0
  { h1 with adc := { h1.adc with hkExpiry := if iv = 0 then none else some (h.ns + 1000000 * iv) } }

/-- A write of ADC_IL_CTL: the deadline is staged, and START starts the list (R160, R181). -/
def Hw.ilCtlWrite (h : Hw) (l : Nat) (v : Word) : Hw :=
  (h.stage (ADC_IL_CTL l) 0xFFFF v).when (natBit v.toNat 31) (fun h => h.listStart l h.time.now)

/-- A write of 1 to FAILED of a failed core asks for its calibration from the next boundary (R167). -/
def Hw.rehabWrite (h : Hw) (c : Nat) : Hw :=
  h.when (h.on (ADC_CORE_STAT_FAILED c) && !h.adc.rehab.contains c && decide (h.roleOf c = 3)) (fun h =>
    { h with adc := { h.adc with rehab := h.adc.rehab ++ [c] } })

def execHkCtlWrite (q : Requester) (v : Word) (s : State) : Out := accWrite s q true (fun h => h.hkCtlWrite v)

def execIlStart (q : Requester) (l : Nat) (v : Word) (s : State) : Out := accWrite s q (isList l) (fun h => h.ilCtlWrite l v)

def execIlRunStart (s : State) : Out := actOn s true (fun h => h.when h.coreOn Hw.ilRunStart)

def execIlDeadline (l : Nat) (s : State) : Out := actOn s (isList l) (fun h => h.ilDeadline l)

def execCalStarved (s : State) : Out := actOn s true (fun h => h.when h.coreOn Hw.calStarved)

def execCoreRelief (pos : Nat) (s : State) : Out := actOn s (isPos pos) (fun h => h.coreRelief pos)

def execAdcCoreFail (c : Nat) (clk : Bool) (s : State) : Out :=
  actOn s (isCore c) (fun h => h.when (h.coreFails c clk) (fun h => h.coreFail c))

def execAdcCoreRehab (q : Requester) (c : Nat) (s : State) : Out := accWrite s q (isCore c) (fun h => h.rehabWrite c)

end Sys2Proof.Machine
end

