-- ==== Sys2Proof/Machine/Bridle.lean ====
section
/-!
DEFINITION. The Bridle sequencer (chapter 07): the table and its entries, the regular walk, the list walks, locating, the
table window, and the background check.
-/
namespace Sys2Proof.Machine

/-! ### Entries (R217-R223) -/

/-- A table entry. Counts are numbers of things, not the numbers minus 1 that the fields hold. -/
inductive Entry where
  | nop
  | conv (pos slot n ch stride : Nat)
  | auxc (src : Nat) (stream : Option Nat)
  | feed (lag ch stream n : Nat)
  | write (stream n : Nat)
  | wait (t : Nat)
  | fend
  | loop (n target : Nat)
  | jump (target : Nat)
  | lend
  | cconv (aux : Bool) (src core n acc : Nat)
  deriving DecidableEq, Repr

/-- A source code that R158 gives a source. -/
def auxSource (a : Nat) : Bool :=
  decide (a ≤ 0x09) || decide (0x10 ≤ a ∧ a ≤ 0x14) || decide (0x20 ≤ a ∧ a ≤ 0x73)

/-- The entry that 64 bits spell, in frames of `s` slots; none for a reserved opcode, a reserved or out-of-range field
value, or a reserved bit that is not 0 (R232 reason 0x1). -/
def readEntry (s w : Nat) : Option Entry :=
  let f (hi lo : Nat) := natBits w hi lo
  let want (ok : Bool) (e : Entry) : Option Entry := if ok then some e else none
  match f 63 60 with
  | 0x0 => want (decide (f 59 0 = 0)) .nop
  | 0x1 =>
    let n := f 30 25 + 1
    want (decide (f 11 0 = 0 ∧ f 15 12 ≠ 0 ∧ f 56 31 + n ≤ s ∧ f 24 16 + (n - 1) * f 15 12 < nChan))
      (.conv (f 59 57) (f 56 31) n (f 24 16) (f 15 12))
  | 0x2 =>
    want (decide (f 42 0 = 0) && auxSource (f 59 53) && decide (f 59 53 ≠ 0x73) && (natBit w 52 || decide (f 51 43 = 0)))
      (.auxc (f 59 53) (if natBit w 52 then some (f 51 43) else none))
  | 0x3 =>
    let n := f 39 32 + 1
    want (decide (f 31 0 = 0 ∧ f 57 49 + n ≤ nChan ∧ f 48 40 + n ≤ nStream)) (.feed (f 59 58) (f 57 49) (f 48 40) n)
  | 0x4 =>
    let n := f 50 43 + 1
    want (decide (f 42 0 = 0 ∧ f 59 51 + n ≤ nStream)) (.write (f 59 51) n)
  | 0x5 => want (decide (f 59 30 = 0)) (.wait (f 29 0))
  | 0x6 => want (decide (f 59 0 = 0)) .fend
  | 0x7 => want (decide (f 59 29 = 0)) (.loop (f 28 13 + 1) (f 12 0))
  | 0x8 => want (decide (f 59 13 = 0)) (.jump (f 12 0))
  | 0x9 => want (decide (f 59 0 = 0)) .lend
  | 0xA =>
    want (decide (f 33 0 = 0 ∧ (f 49 46 ≤ 8 ∨ f 49 46 = 15)) &&
        (if natBit w 59 then decide (f 58 57 = 0) && auxSource (f 56 50) else decide (f 58 50 < nUnit)))
      (.cconv (natBit w 59) (f 58 50) (f 49 46) (f 45 38 + 1) (f 37 34))
  | _ => none

/-- The walks, as SEQ_ERR numbers them (R252); 3 is the background check. -/
def walkNo : Walk → Nat
  | .regular => 0
  | .list => 1
  | .cal => 2

/-- The opcodes that a region allows (R216), by the walk that issues it. -/
def Entry.allowed (e : Entry) : Walk → Bool
  | .regular => match e with
    | .auxc .. => false
    | .lend => false
    | .cconv .. => false
    | _ => true
  | .list => match e with
    | .nop => true
    | .auxc .. => true
    | .loop .. => true
    | .jump .. => true
    | .lend => true
    | _ => false
  | .cal => match e with
    | .nop => true
    | .cconv .. => true
    | .loop .. => true
    | .jump .. => true
    | .lend => true
    | _ => false

/-- A place in a walk: the next entry, and the loop stack, innermost first: entry and passes left (R227). -/
abbrev Place := Nat × List (Nat × Nat)

/-- Where a walk goes after the entry at its place (R223, R227); none where a fifth loop would be pushed. -/
def Entry.after (e : Entry) (p : Place) : Option Place :=
  match e with
  | .jump t => some (t, p.2)
  | .loop n t =>
    match p.2 with
    | (x, left) :: rest =>
      if x = p.1 then
        if left = 0 then some (p.1 + 1, rest) else some (t, (x, left - 1) :: rest)
      else if n = 1 then some (p.1 + 1, p.2)
      else if p.2.length < 4 then some (t, (p.1, n - 2) :: p.2) else none
    | [] => if n = 1 then some (p.1 + 1, []) else some (t, [(p.1, n - 2)])
  | _ => some (p.1 + 1, p.2)

/-! ### The live copy (R215, R238) -/

abbrev tableSize : Nat := 8192

def codedAt (live : Store Word72) (e : Nat) : Word72 := storeGet (fun _ => 0) live e

def Hw.setLive (h : Hw) (e : Nat) (c : Word72) : Hw :=
  { h with seq := { h.seq with live := storeSet (fun _ => 0) h.seq.live e c } }

/-- The data of an entry, corrected where it can be. -/
def entryData (live : Store Word72) (e : Nat) : Word64 := secData ((secCorrect (codedAt live e)).getD (codedAt live e))

/-- The entry that 64 bits spell at entry number `e`: a LOOP's TARGET may not lie above the LOOP itself (R223, R232). -/
def readAt (s e w : Nat) : Option Entry :=
  match readEntry s w with
  | some (.loop n t) => if t ≤ e then some (.loop n t) else none
  | x => x

def Hw.entry (h : Hw) (e : Nat) : Option Entry := readAt h.slots e (entryData h.seq.live e).toNat

/-- SEQ_TABLE_CHECKSUM is raised with an entry (R238, R240). -/
def Hw.tableBad (h : Hw) (e : Nat) : Hw := (h.put SEQ_STATUS_CHKSUM 1).raise srcSeqTableChecksum (e % tableSize)

/-- An entry is read, with what has upset its stored word since: a single-bit error is corrected and rewritten. -/
def Hw.readLive (h : Hw) (e : Nat) (u : Word72) : Hw × Option Word64 :=
  let c := codedAt h.seq.live e ^^^ u
  match secCorrect c with
  | some k => ((h.setLive e k).when (decide (k ≠ c)) (fun h => h.bump SEQ_SCRUB_CE_COUNT 1), some (secData k))
  | none => (h.setLive e c, none)

/-! ### Illegal steps (R241) -/

/-- SEQ_ERR records an error (R252). -/
def Hw.noteSeqErr (h : Hw) (kind walk e : Nat) : Hw :=
  (((h.put SEQ_ERR_VALID 1).put SEQ_ERR_KIND kind).put SEQ_ERR_WALK walk).put SEQ_ERR_ENTRY e

/-- The regular walk stops and waits for a locate (R225, R241). -/
def Hw.stopWalk (h : Hw) : Hw :=
  let h0 := h.dmaFrameEnd
  let h1 := { h0 with seq := { h0.seq with stopped := true, located := none, holdUntil := none } }
  (h1.put SEQ_STATUS_LOCATING 1).put SEQ_STATUS_RUNNING 0

/-- An illegal step of a walk at an entry. -/
def Hw.illegalStep (h : Hw) (w : Walk) (kind e : Nat) : Hw :=
  let e := e % tableSize
  let h1 := ((h.noteSeqErr kind (walkNo w) e).put SEQ_STATUS_ILLEGAL 1).raise srcSeqIllegalStep
    (2 ^ 16 * kind + 2 ^ 13 * walkNo w + e)
  match w with
  | .regular => h1.stopWalk
  | .list => ({ h1 with adc := { h1.adc with run := h1.adc.run.map (fun (r : ListRun) => { r with ended := true }) } }).runCheck
  | .cal => ({ h1 with adc := { h1.adc with calRun := h1.adc.calRun.map (fun (r : CalRun) => { r with ended := true }) } }).calRunCheck

/-! ### Issuing an entry (R224, R225, R238) -/

/-- The table, region register and start entry of the regular program that runs: the new one, or in a transition frame
the old one (R236). -/
def Hw.program (h : Hw) : Store Word72 × Word × Nat :=
  h.seq.trans.getD (h.seq.live, h.reg SEQ_REG_RGN, h.get SEQ_START_ENTRY)

/-- The regular walk has an entry to issue: it is neither held nor stopped, and the frame's FEND has not issued. -/
def Hw.regularReady (h : Hw) : Bool :=
  h.coreOn && h.seq.running && !h.seq.stopped && !h.seq.frameDone && h.seq.holdUntil.isNone && h.smp.lastBoundary.isSome

/-- The injected list has an entry to issue (R224, R230). -/
def Hw.listReady (h : Hw) : Bool :=
  h.coreOn && !h.regularReady && h.adc.run.any (fun r => !r.ended && decide (r.claims.length < 8))

/-- The calibration list has an entry to issue; entries of a region that is not enabled never issue (R216). -/
def Hw.calReady (h : Hw) : Bool :=
  h.coreOn && !h.regularReady && !h.listReady && h.on SEQ_CAL_RGN_EN && h.adc.calRun.any (fun r => !r.ended) &&
  decide (h.calClaims.length < 8)

def Hw.walkReady (h : Hw) : Walk → Bool
  | .regular => h.regularReady
  | .list => h.listReady
  | .cal => h.calReady

/-- Where a walk stands. -/
def Hw.placeOf (h : Hw) : Walk → Place
  | .regular => (h.seq.pc, h.seq.stack)
  | .list => ((h.adc.run.map (fun r => (r.pc, r.stack))).getD (0, []))
  | .cal => ((h.adc.calRun.map (fun r => (r.pc, r.stack))).getD (0, []))

def Hw.setPlace (h : Hw) (w : Walk) (p : Place) : Hw :=
  match w with
  | .regular => { h with seq := { h.seq with pc := p.1, stack := p.2 } }
  | .list => { h with adc := { h.adc with run := h.adc.run.map (fun r => { r with pc := p.1, stack := p.2 }) } }
  | .cal => { h with adc := { h.adc with calRun := h.adc.calRun.map (fun r => { r with pc := p.1, stack := p.2 }) } }

/-- The region register of a walk. -/
def Hw.regionOf (h : Hw) : Walk → Word
  | .regular => h.program.2.1
  | .list => ((h.adc.run.map (fun r => h.reg (SEQ_IL_RGN r.list))).getD 0)
  | .cal => h.reg SEQ_CAL_RGN

/-- The entry lies in the region. -/
def inRegion (w : Word) (e : Nat) : Bool := decide (bits w 12 0 ≤ e ∧ e ≤ bits w 28 16)

/-- The walk's next entry as it reads now: uncorrectable, illegal to decode there, or an entry. -/
inductive Next where
  | uncorrectable
  | illegal
  | entry (e : Entry)
  deriving DecidableEq, Repr

def Hw.nextEntry (h : Hw) (w : Walk) (u : Word72) : Next :=
  let pc := (h.placeOf w).1
  let live := match w with
    | .regular => h.program.1
    | _ => h.seq.live
  if inRegion (h.regionOf w) pc = false then .illegal
  else match secCorrect (codedAt live pc ^^^ u) with
    | none => .uncorrectable
    | some k =>
      match readAt h.slots pc (secData k).toNat with
      | some e => if e.allowed w then .entry e else .illegal
      | none => .illegal

/-- In a frame with q = 0 only LOOP, JUMP and NOP may issue ahead of SEQ_START with an empty stack (R226). -/
def Hw.breachStart (h : Hw) (w : Walk) (e : Entry) : Bool :=
  decide (w = .regular) && decide (h.get SEQ_FRAME_POS_Q = 0) && !h.seq.begun &&
  !(decide (h.seq.pc = h.program.2.2) && h.seq.stack.isEmpty) &&
  (match e with
    | .loop .. => false
    | .jump .. => false
    | .nop => false
    | _ => true)

/-- The read of the entry that a walk issues (R238). In a transition frame the old copy is read: for an entry that the commit
did not flip that is the live copy too. -/
def Hw.fetchEffect (h : Hw) (w : Walk) (u : Word72) : Hw :=
  let pc := (h.placeOf w).1
  match w, h.seq.trans with
  | .regular, some (t, r) =>
    if codedAt t pc = codedAt h.seq.live pc then
      let h1 := (h.readLive pc u).1
      { h1 with seq := { h1.seq with trans := some (storeSet (fun _ => 0) t pc (codedAt h1.seq.live pc), r) } }
    else
      let c := codedAt t pc ^^^ u
      let k := (secCorrect c).getD c
      ({ h with seq := { h.seq with trans := some (storeSet (fun _ => 0) t pc k, r) } }).when (decide (k ≠ c)) (fun h =>
        h.bump SEQ_SCRUB_CE_COUNT 1)
  | _, _ => (h.readLive pc u).1

/-- What SEQ_STATUS shows of the regular walk, and R226's start; the time of the calibration list's last entry (R164). -/
def Hw.noteIssue (h : Hw) (w : Walk) (next : Place) : Hw :=
  match w with
  | .regular =>
    let at_ := decide (h.seq.pc = h.program.2.2) && h.seq.stack.isEmpty
    let h1 := { h with seq := { h.seq with begun := h.seq.begun || at_ } }
    (h1.put SEQ_STATUS_PC h.seq.pc).put SEQ_STATUS_DEPTH next.2.length
  | .list => h
  | .cal => { h with adc := { h.adc with calIssued := h.ns } }

/-! ### What the field die does at an entry (R218, R230, R231, R235) -/

/-- Regular conversions of a run of channels on one position (R218). -/
def Hw.addJobs (h : Hw) (pos slot n ch stride : Nat) : Hw :=
  let js := (List.range n).map (fun i =>
    ({ pos := pos, slot := slot + i, ch := ch + i * stride, done := false } : SlotJob))
  Hw.wakeConv { h with adc := { h.adc with jobs := h.adc.jobs ++ js } } (h.servingCores.filter (fun c => decide (c = h.coreOf pos)))

def Hw.claimAux (h : Hw) (src : Nat) (stream : Option Nat) : Hw :=
  let add (r : ListRun) : ListRun :=
    { r with claims := r.claims ++ [.aux r.list src stream], since := if r.claims.isEmpty then h.time.now else r.since }
  Hw.wakeConv { h with adc := { h.adc with run := h.adc.run.map add } }
    h.servingCores

/-- A calibration accumulator is empty (R511). -/
def Hw.emptyAcc (h : Hw) (a : Nat) : Hw :=
  (((h.put (CAL_ACC_CNT_CNT a) 0).put (CAL_ACC_SLO_SUM_LO a) 0).put (CAL_ACC_SHI_SUM_HI a) 0).setReg (CAL_ACC_MM a) 0

/-- A CCONV claims its conversions. Where it names a core or a front end that is not under calibration when its first
conversion is due, it makes none and adds nothing (R231, R511, R512): see `Hw.calClaims`. -/
def Hw.claimCal (h : Hw) (aux : Bool) (src core n acc : Nat) : Hw :=
  let k (i e : Nat) : CalClaim := { aux := aux, src := src, acc := acc, core := core, entry := e, first := decide (i = 0) }
  let add (r : CalRun) : CalRun :=
    let cs := h.calClaims
    { r with claims := cs ++ (List.range n).map (fun i => k i r.issued), issued := r.issued + 1,
             since := if cs.isEmpty then h.time.now else r.since }
  Hw.wakeConv { h with adc := { h.adc with calRun := h.adc.calRun.map add } } (if core < 9 then [core] else h.servingCores)

/-- The field die's entry at a number: from its mirror; in a transition frame from the old program's (R235, R236). -/
def Hw.mirrored (h : Hw) (w : Walk) (e : Nat) : Option Entry :=
  match w, h.seq.trans with
  | .regular, some (t, _) => readAt h.slots e (entryData t e).toNat
  | _, _ => (h.seq.mirror.find? (fun q => decide (q.1 = e))).bind (fun q => readAt h.slots e q.2.toNat)

/-- The field die converts what its mirror says, whatever the core die has read (R235). -/
def Hw.fieldStep (h : Hw) (w : Walk) (e : Option Entry) : Hw :=
  match w, e with
  | .regular, some (.conv pos slot n ch stride) => h.addJobs pos slot n ch stride
  | .list, some (.auxc src stream) => h.claimAux src stream
  | .cal, some (.cconv aux src core n acc) => h.claimCal aux src core n acc
  | _, _ => h

/-- A walk issues its next entry, if that is one of the command's kind; an illegal step is taken whatever the kind. The
walk moves on as the entry says, the field die follows its mirror, and `f` gives the rest of the entry's effect. -/
def Hw.issue (h : Hw) (w : Walk) (u : Word72) (kind : Entry → Bool) (f : Hw → Entry → Hw) : Hw :=
  let p := h.placeOf w
  let field (x : Hw) : Hw := x.fieldStep w (h.mirrored w p.1)
  if h.walkReady w then
    match h.nextEntry w u with
    | .uncorrectable => ((h.fetchEffect w u).tableBad p.1).illegalStep w 0 p.1
    | .illegal => (h.fetchEffect w u).illegalStep w 1 p.1
    | .entry e =>
      if h.breachStart w e then (h.fetchEffect w u).illegalStep w 2 p.1
      else if kind e then
        match e.after p with
        | some next => f (field (((h.fetchEffect w u).noteIssue w next).setPlace w next)) e
        | none => (h.fetchEffect w u).illegalStep w 1 p.1
      else h
  else h

/-! ### The regular program's entries -/

def Hw.rawCell (h : Hw) (ch frame : Nat) : Option RawCell := storeGet (fun _ => none) h.seq.raw (4 * ch + frame % 4)

/-- FEED offers a raw sample to the Burgees, once, whatever number of streams it is presented to (R219, R289). -/
def Hw.offerRaw (h : Hw) (ch : Nat) (c : RawCell) : Hw :=
  if c.lost || c.offered then h
  else
    let h1 := { h with seq := { h.seq with
      raw := storeSet (fun _ => none) h.seq.raw (4 * ch + c.frame % 4) (some { c with offered := true }) } }
    h1.offer true ch [.raw ch c.hold.raw (256 * c.code.toInt) c.hold.instant]

/-- A FEED of a value that the channel held in that frame and that is not in the store: a lost sample (R228). -/
def Hw.feedAbsent (h : Hw) (frame ch s : Nat) : Hw :=
  match (storeGet (fun _ => none) h.smp.held ch).filter (fun x => decide (x.frame = frame)) with
  | some x => h.feedChain s x.lostCell
  | none => h

/-- One pair of a FEED: the raw sample of a channel, converted `lag` frames ago, goes to a stream's chain. -/
def Hw.feedPair (h : Hw) (lag ch s : Nat) : Hw :=
  if h.seq.frame < lag then h
  else match h.rawCell ch (h.seq.frame - lag) with
    | some c => if c.frame = h.seq.frame - lag then (h.feedChain s c).offerRaw ch c else h.feedAbsent (h.seq.frame - lag) ch s
    | none => h.feedAbsent (h.seq.frame - lag) ch s

/-- WAIT holds the walk until cycle T of the frame, unless that is past (R225). -/
def Hw.waitUntil (h : Hw) (t : Nat) : Hw :=
  match h.smp.lastBoundary with
  | some b =>
    let e := b + t * nsUnit
    if e ≤ h.time.now then h else { h with seq := { h.seq with holdUntil := some e } }
  | none => h

/-! ### Locating (R225, R236, R241) -/

/-- Steps of a walk: more than a walk that ends can take. -/
abbrev walkFuel : Nat := 2 ^ 96

/-- The place after `frames` more FENDs of the walk from a place; none where it meets an entry that no regular walk
issues. -/
def locateFrom (live : Store Word72) (rgn : Word) (s : Nat) : Nat → Nat → Place → Option Place
  | 0, _, _ => none
  | fuel + 1, frames, p =>
    if frames = 0 then some p
    else if inRegion rgn p.1 then
      match readAt s p.1 (entryData live p.1).toNat with
      | some e =>
        if e.allowed .regular then
          match e.after p with
          | some next => locateFrom live rgn s fuel (if e = .fend then frames - 1 else frames) next
          | none => none
        else none
      | none => none
    else none

/-- Frame number of the boundary at time `b` (R118), and its position in the super-frame (R226). -/
def frameNo (per ph b : Nat) : Nat := (b / nsUnit - ph) / per
def Hw.framePos (h : Hw) (per ph b : Nat) : Nat := frameNo per ph b % (h.get SEQ_SF_LEN_LEN_M1 + 1)

/-- Where the program in effect begins the frame with position q. -/
def Hw.locate (h : Hw) (per q : Nat) : Option Place :=
  locateFrom h.seq.live (h.reg SEQ_REG_RGN) (per / 16) walkFuel q (h.get SEQ_START_ENTRY, [])

/-- A locate completes: the walk resumes at the next frame boundary (R241). Where the live table lets no walk reach that
frame, the locate does not complete. -/
def Hw.locateDone (h : Hw) : Hw :=
  if h.seq.running && h.seq.stopped && h.on SEQ_STATUS_LOCATING && h.seq.located.isNone then
    match h.smp.lastBoundary with
    | some b =>
      match h.locate h.smp.per (h.framePos h.smp.per h.smp.ph (h.boundaryAfter b)) with
      | some p => ({ h with seq := { h.seq with located := some p } }).put SEQ_STATUS_LOCATING 0
      | none => h
    | none => h
  else h

/-! ### Frame boundaries (R168, R225) -/

/-- The regular walk takes its place at a frame's first cycle. -/
def Hw.beginAt (h : Hw) (p : Place) : Hw :=
  let h1 := { h with seq := { h.seq with pc := p.1, stack := p.2, located := none, stopped := false, frameDone := false,
                                         holdUntil := none, begun := false, trans := none } }
  ((h1.put SEQ_STATUS_RUNNING 1).put SEQ_STATUS_LOCATING 0).put SEQ_STATUS_DEPTH p.2.length

/-- The frame that ends left regular work undone (R168): its program did not reach FEND, a slot was not converted, or a
failed core's position had no spare. -/
def Hw.shortFrame (h : Hw) : Bool :=
  h.seq.running && (!h.seq.frameDone || h.adc.jobs.any (fun j => !j.done || decide (h.coreOf j.pos = 15)) || h.adc.mapNext.any (fun q => decide (q.2 = 15)))

/-- What a boundary at `b` does to the walk; the new schedule is in effect. -/
def Hw.seqBoundary (h : Hw) (b : Nat) : Hw :=
  let h1 := h.dmaFrameEnd.when h.shortFrame (fun h => (h.bump ADC_SLACK_SHORT_FRAMES 1).raise srcSlackOverrun 0)
  -- a program that was cut short waits for a locate
  let h2 := h1.when (h1.seq.running && !h1.seq.stopped && !h1.seq.frameDone && h1.seq.located.isNone) Hw.stopWalk
  let h3 := ({ h2 with seq := { h2.seq with frame := h2.seq.frame + 1, frameDone := false, holdUntil := none, begun := false } }).put
    SEQ_FRAME_POS_Q (h2.framePos h2.smp.per h2.smp.ph b)
  match h3.seq.located with
  | some p => h3.when h3.seq.running (fun h => h.beginAt p)
  | none => h3

/-! ### The table in commits (R216, R234-R237, R239) -/

/-- Every entry of the candidate's live copy: staged entries replace it. -/
def mergeTable (live : Store Word72) (staged : Store (Option Word64)) : Store Word72 :=
  staged.foldl (fun m q =>
    match q.2 with
    | some w => storeSet (fun _ => 0) m q.1 (secEncode w)
    | none => m) live

/-- CRC-32C of the table (R239): the reset table's CRC, and what each entry that is not zero changes in it. -/
def tableCrc (live : Store Word72) : Nat :=
  live.foldl (fun c q =>
    let r := (leBytes 8 (entryData live q.1).toNat).foldl (fun c b => crc32cStep 8 (c ^^^ b.toNat)) 0
    c ^^^ crcZeros 17 (8 * (8191 - q.1)) 0x00800000 r) (regReset SEQ_TABLE_CRC).toNat

/-- A region of the table: the walk that issues it, its number among the injected lists, and its bounds. -/
structure Region where
  walk : Walk
  list : Nat
  base : Nat
  limit : Nat
  deriving DecidableEq, Repr

/-- The enabled regions (R216). -/
def Hw.regions (h : Hw) : List Region :=
  let r := h.reg SEQ_REG_RGN
  let c := h.reg SEQ_CAL_RGN
  (if h.on SEQ_CTL_RUN then [⟨.regular, 0, bits r 12 0, bits r 28 16⟩] else []) ++
  ((List.range 16).filter (fun l => h.on (SEQ_IL_RGN_EN l))).map (fun l =>
    ⟨.list, l, h.get (SEQ_IL_RGN_BASE l), h.get (SEQ_IL_RGN_LIMIT l)⟩) ++
  (if natBit c.toNat 31 then [⟨.cal, 0, bits c 12 0, bits c 28 16⟩] else [])

/-- The entries of a region. -/
def Region.entries (r : Region) : List Nat := (List.range (r.limit + 1 - r.base)).map (r.base + ·)

/-- The entries of a region that decode, with their numbers. -/
def Hw.decoded (h : Hw) (r : Region) : List (Nat × Entry) :=
  r.entries.filterMap (fun e => (readAt (h.get SMP_FRAME_PERIOD_PERIOD_NS / 16) e (entryData h.seq.live e).toNat).map (fun x => (e, x)))

/-- The source channel of each channel stream: from the FEED entries of the regular region (R219, R255). -/
def Hw.feedSources (h : Hw) : Store (Option Nat) :=
  (h.regions.filter (fun r => decide (r.walk = .regular))).foldl (fun m r =>
    (h.decoded r).foldl (fun m q =>
      match q.2 with
      | .feed _ ch s n => (List.range n).foldl (fun m i => storeSet (fun _ => none) m (s + i) (some (ch + i))) m
      | _ => m) m) []

/-- The streams that an AUXC entry writes (R229). -/
def Hw.auxStreams (h : Hw) : List Nat :=
  (h.regions.filter (fun r => decide (r.walk = .list))).flatMap (fun r =>
    (h.decoded r).filterMap (fun q =>
      match q.2 with
      | .auxc _ (some s) => some s
      | _ => none))

/-- An entry of the conversion skeleton, which the field die's mirror holds (R235). -/
def Entry.mirrored : Entry → Bool
  | .conv .. => true
  | .auxc .. => true
  | .cconv .. => true
  | .fend => true
  | .loop .. => true
  | .jump .. => true
  | .lend => true
  | _ => false

/-- The mirror's entries, in table order. -/
def Hw.mirrorOf (h : Hw) : List (Nat × Word64) :=
  let m := h.regions.foldl (fun m r => (h.decoded r).foldl (fun (m : Store Word64) q =>
    if q.2.mirrored then storeIns (storeErase m q.1) q.1 (entryData h.seq.live q.1) else m) m) ([] : Store Word64)
  m

/-- The set changed the regular program (R236). -/
def Hw.programChanged (h old : Hw) (flipped : List Nat) : Bool :=
  decide (h.reg SEQ_REG_RGN ≠ old.reg SEQ_REG_RGN) || decide (h.reg SEQ_START ≠ old.reg SEQ_START) ||
  decide (h.reg SEQ_SF_LEN ≠ old.reg SEQ_SF_LEN) || decide (h.get SEQ_CTL_RUN ≠ old.get SEQ_CTL_RUN) ||
  decide (h.reg SMP_FRAME_PERIOD ≠ old.reg SMP_FRAME_PERIOD) || decide (h.reg SMP_FRAME_PHASE ≠ old.reg SMP_FRAME_PHASE) ||
  flipped.any (fun e => inRegion (h.reg SEQ_REG_RGN) e)

/-- A commit's effect on the Bridle, with the new registers, live copy and sources in place. `first` is the boundary at
which the new program begins: the commit's own, F under R130, or the first one after the start of a stopped Bridle. -/
def Hw.seqCommit (h old : Hw) (flipped : List Nat) (first : Nat) : Hw :=
  let h0 := { h with seq := { h.seq with mirror := h.seq.mirrorNext, mirrorNext := h.seq.mirror } }
  let h1 := h0.when (!flipped.isEmpty) (fun h =>
    { h with seq := { h.seq with scrubPos := 0, scrubCrc := 0xFFFFFFFF, scrubBad := false } })
  if h1.programChanged old flipped then
    if h1.on SEQ_CTL_RUN then
      let per := h1.get SMP_FRAME_PERIOD_PERIOD_NS
      let ph := h1.get SMP_FRAME_PHASE_PHASE_NS
      let p := (h1.locate per (h1.framePos per ph first)).getD (h1.get SEQ_START_ENTRY, [])
      if h1.boundaryNow = some first then
        let h2 := { h1 with seq := { h1.seq with running := true } }
        (h2.put SEQ_FRAME_POS_Q (h1.framePos per ph first)).beginAt p
      else if h1.seq.running then
        -- the transition frame: the old program runs until F
        let h2 := { h1 with seq := { h1.seq with located := some p, trans := some (h1.seq.trans.getD (old.seq.live, old.reg SEQ_REG_RGN, old.get SEQ_START_ENTRY)) } }
        h2.put SEQ_STATUS_LOCATING 0
      else
        -- the walk begins at its first boundary; no frame is short before it
        { h1 with seq := { h1.seq with running := true, frameDone := true, stopped := false, located := some p } }
    else
      let h2 := { h1 with seq := { h1.seq with running := false, stopped := false, located := none, holdUntil := none, trans := none } }
      (h2.put SEQ_STATUS_RUNNING 0).put SEQ_STATUS_LOCATING 0
  else h1

/-! ### The table window (R17, R234) -/

def isTableWindow (a : Nat) : Bool := decide (0x78000 ≤ a ∧ a < 0x80000 ∧ a % 4 = 0)

/-- The entry that a window address shows a requester. -/
def Hw.windowEntry (h : Hw) (q : Requester) (a : Nat) : Nat :=
  4096 * bits (h.rq q).seqPage 0 0 + (a - 0x78000) / 8

/-- Where a requester's held and latched words of an entry stand among its others. -/
def entryKey (e : Nat) : Nat := 0x20000000 + 8 * e

def Hw.stagedEntry (h : Hw) (e : Nat) : Option Word64 := storeGet (fun _ => none) h.epoch.staging.table e

def Hw.sealedEntry (h : Hw) (e : Nat) : Bool :=
  h.epoch.sealedSet.any (fun x => (storeGet (fun _ => none) x.set.table e).isSome)

/-- A write through the window; answers the STATUS (R436): a sealed entry is busy. -/
def Hw.tableWrite (h : Hw) (q : Requester) (a : Nat) (v : Word) : Hw × Nat :=
  let e := h.windowEntry q a
  if a % 8 = 0 then (h.setHeld q (entryKey e) (some v), 0)
  else if h.sealedEntry e then ((h.put SEQ_STATUS_WR_REFUSED 1).setHeld q (entryKey e) none, 1)
  else
    let lo := h.heldOr q (entryKey e) (lo32 ((h.stagedEntry e).getD (entryData h.seq.live e)))
    let st := h.epoch.staging
    let h1 := h.setHeld q (entryKey e) none
    ({ h1 with epoch := { h1.epoch with
        staging := { st with table := storeSet (fun _ => none) st.table e (some (word64 lo v)) } } }, 0)

/-! ### The background check (R240) -/

def Hw.seqScrub (h : Hw) (u : Word72) : Hw :=
  if h.coreOn && h.on SEQ_CTL_SCRUB_EN then
    let e := h.seq.scrubPos
    let r := h.readLive e u
    let bad := r.2.isNone
    let h1 := r.1.when bad (fun h => (h.noteSeqErr 3 3 e).tableBad e)
    let d := (r.2.getD 0).toNat
    let crc := (leBytes 8 d).foldl (fun c b => crc32cStep 8 (c ^^^ b.toNat)) h.seq.scrubCrc
    if e = 8191 then
      let wrong := !(bad || h.seq.scrubBad) && decide (crc ^^^ 0xFFFFFFFF ≠ h.get SEQ_TABLE_CRC_CRC)
      let h2 := h1.when wrong (fun h => (h.noteSeqErr 3 3 e).tableBad e)
      ({ h2 with seq := { h2.seq with scrubPos := 0, scrubCrc := 0xFFFFFFFF, scrubBad := false } }).put SEQ_SCRUB_PASSES
        (h2.get SEQ_SCRUB_PASSES + 1)
    else { h1 with seq := { h1.seq with scrubPos := e + 1, scrubCrc := crc, scrubBad := h.seq.scrubBad || bad } }
  else h

/-! ### The commands -/

def execNop (w : Walk) (u : Word72) (s : State) : Out :=
  actOn s true (fun h => h.issue w u (fun e => decide (e = .nop)) (fun h _ => h))

def execConv (u : Word72) (s : State) : Out :=
  actOn s true (fun h => h.issue .regular u
    (fun e => match e with
      | .conv .. => true
      | _ => false)
    (fun h _ => h))

def execAuxc (u : Word72) (s : State) : Out :=
  actOn s true (fun h => h.issue .list u
    (fun e => match e with
      | .auxc .. => true
      | _ => false)
    (fun h _ => h))

def execFeed (u : Word72) (s : State) : Out :=
  actOn s true (fun h => h.issue .regular u
    (fun e => match e with
      | .feed .. => true
      | _ => false)
    (fun h e => match e with
      | .feed lag ch st n => h.each (List.range n) (fun h i => h.feedPair lag (ch + i) (st + i))
      | _ => h))

def execWrite (u : Word72) (s : State) : Out :=
  actOn s true (fun h => h.issue .regular u
    (fun e => match e with
      | .write .. => true
      | _ => false)
    (fun h e => match e with
      | .write st n => h.each (List.range n) (fun h i => h.writeStream (st + i))
      | _ => h))

def execWait (u : Word72) (s : State) : Out :=
  actOn s true (fun h => h.issue .regular u
    (fun e => match e with
      | .wait _ => true
      | _ => false)
    (fun h e => match e with
      | .wait t => h.waitUntil t
      | _ => h))

def execWaitEnd (s : State) : Out :=
  actOn s true (fun h => h.when (h.coreOn && h.seq.holdUntil.any (fun t => h.reached t))
    (fun h => { h with seq := { h.seq with holdUntil := none } }))

def execFend (u : Word72) (s : State) : Out :=
  actOn s true (fun h => h.issue .regular u (fun e => decide (e = .fend))
    (fun h _ =>
      let h1 := h.dmaFrameEnd
      { h1 with seq := { h1.seq with frameDone := true } }))

def execLoop (w : Walk) (u : Word72) (s : State) : Out :=
  actOn s true (fun h => h.issue w u
    (fun e => match e with
      | .loop .. => true
      | _ => false) (fun h _ => h))

def execJump (w : Walk) (u : Word72) (s : State) : Out :=
  actOn s true (fun h => h.issue w u
    (fun e => match e with
      | .jump _ => true
      | _ => false) (fun h _ => h))

def execCconv (u : Word72) (s : State) : Out :=
  actOn s true (fun h => h.issue .cal u
    (fun e => match e with
      | .cconv .. => true
      | _ => false)
    (fun h _ => h))

def execLocateComplete (s : State) : Out := actOn s true Hw.locateDone

def execSeqTableWrite (q : Requester) (a : Nat) (v : Word) (s : State) : Out :=
  if isTableWindow a then
    let r := if s.hw.writable q then s.hw.tableWrite q a v else (s.hw, 0)
    .next { s with hw := r.1, rdata := [], status := r.2 }
  else .fault .noSuchObject

def execSeqScrubRead (u : Word72) (s : State) : Out := actOn s true (fun h => h.seqScrub u)

end Sys2Proof.Machine
end

