-- ==== Sys2Proof/Machine/Calib.lean ====
section
/-!
DEFINITION. Calibration (chapter 16) with the relief of front ends (R105-R107): which item is taken, the runs of the
calibration list, what a step computes, and what it applies.
-/
namespace Sys2Proof.Machine

/-! ### Trims (R508) -/

/-- The production value of CAL_FE_TRIM of unit u and setting i, at 64 u + i. -/
def Hw.prodTrim (h : Hw) (k : Nat) : Word := storeGet (fun _ => 0) h.lcs.otpTrims k

/-- CAL_FE_TRIM of a unit and setting. -/
def Hw.feTrim (h : Hw) (u i : Nat) : Word := storeGet h.prodTrim h.cal.trims (64 * u + i)
def Hw.setFeTrim (h : Hw) (u i : Nat) (w : Word) : Hw :=
  { h with cal := { h.cal with trims := storeSet h.prodTrim h.cal.trims (64 * u + i) w } }

/-- The production value of a register (R508, R642). -/
def Hw.prodReg (h : Hw) (a : Nat) : Word := storeGet regReset h.lcs.otpRegs a

/-- Setting index of a channel: 32 x LOWPWR + 8 x MODE + RANGE. -/
def Hw.settingOf (h : Hw) (ch : Nat) : Nat :=
  32 * h.get (FE_CFG_LOWPWR ch) + 8 * h.get (FE_CFG_MODE ch) + h.get (FE_CFG_RANGE ch)

/-! ### Which front end is taken (R106, R514) -/

def unitsOfClus (k : Nat) : List Nat := (List.range 9).map (9 * k + ·)
def Hw.feRole (h : Hw) (u : Nat) : Nat := h.get (FE_UNIT_ROLE u)
def Hw.spareUnit (h : Hw) (k : Nat) : Option Nat := (unitsOfClus k).find? (fun u => decide (h.feRole u = 1))
def Hw.unitOfChan (h : Hw) (ch : Nat) : Nat := h.get (FE_STATUS_UNIT ch)

def Hw.feDue (h : Hw) (u : Nat) : Bool := h.isDue (h.feItem u) (h.feTemp u)

/-- No relief starts on the channel now (R106). -/
def Hw.barred (h : Hw) (ch : Nat) : Bool :=
  h.inFeWindow ch h.time.now || h.inExWindow ch h.time.now || h.isOpen ch || h.on (FE_STATUS_SAT ch) || h.chanIsolated ch

/-- The channels of a cluster whose serving units are due, in order. -/
def Hw.dueChans (h : Hw) (k : Nat) : List Nat := (chansOfClus k).filter (fun m => h.feDue (h.unitOfChan m))

/-- The unit that the front-end track takes in a cluster, and the channel that it relieves; none for a step in place. -/
def Hw.pickIn (h : Hw) (k : Nat) : Option (Nat × Option Nat) :=
  if (h.feTemp (9 * k)).isNone then none
  else
    -- a due spare, or a unit out of service for which RUN_ALL has been written
    match (unitsOfClus k).find? (fun u =>
        (decide (h.feRole u = 1) && h.feDue u) || (decide (h.feRole u = 3) && (h.feItem u).runAll)) with
    | some u => some (u, none)
    | none =>
      if (h.spareUnit k).isSome then ((h.dueChans k).find? (fun m => !h.barred m)).map (fun m => (h.unitOfChan m, some m))
      else none

/-- The front-end track's pick: the lowest cluster with a unit that it can take. -/
def Hw.feTrackPick (h : Hw) : Option (Nat × Option Nat) := (List.range nClus).findSome? h.pickIn

/-- The runs of one measurement of a unit: the strobe ramp at the reference setting, then for each setting of R521 the
short and both references. -/
def Hw.fePlan (h : Hw) (u : Nat) : List CalRunKind :=
  let k := clusOfUnit u
  let used := ((chansOfClus k).filter (fun m => h.on (FE_CFG_EN m))).map h.settingOf
  let nextChan := ((h.dueChans k).filter (fun m => decide (h.unitOfChan m ≠ u))).head?
  let all := used ++ (nextChan.map h.settingOf).toList
  { setting := 0, input := 3 } ::
    ((List.range 64).filter (fun i => all.contains i)).flatMap (fun i =>
      [{ setting := i, input := 0 }, { setting := i, input := 1 }, { setting := i, input := 2 }])

/-- A step of the front-end track starts on unit u. -/
def Hw.feStepStart (h : Hw) (u : Nat) : Hw :=
  match h.feTrackPick with
  | some (w, ch) =>
    if w = u ∧ h.cal.feStep = none ∧ h.on CAL_CTL_FE_EN ∧ h.safe = false ∧ h.cal.pickHold = false then
      let x : CalStep := { unit := u, inPlace := ch.isNone, tStart := (h.feTemp u).getD 0, retries := 0, again := false,
                           plan := h.fePlan u, got := [], first := none }
      let h1 := ({ h with cal := { h.cal with feStep := some x } })
      let h2 := (h1.put CAL_STATUS_FE_BUSY 1).put CAL_STATUS_FE_UNIT u
      match ch with
      | none => h2.put (FE_UNIT_ROLE u) 2
      | some _ => { h2 with cal := { h2.cal with feSince := if h2.listsWaiting then some h2.ns else none } }
    else h
  | none => h

/-! ### Relief of a front end (R105) -/

/-- The channel that the front-end step is to relieve. -/
def Hw.reliefChan (h : Hw) : Option Nat :=
  match h.cal.feStep with
  | some x => if x.inPlace then none else (chansOfClus (clusOfUnit x.unit)).find? (fun m => decide (h.unitOfChan m = x.unit))
  | none => none

/-- The track passes on: the step that waits for a relief is dropped before it has begun, and the next pick takes another
channel (R106). -/
def Hw.passOn (h : Hw) : Hw :=
  ({ h with cal := { h.cal with feStep := none, feSince := none } } : Hw).put CAL_STATUS_FE_BUSY 0

/-- B0: at a frame boundary at which no injected list waits, or under forcing (R163, R164). -/
def Hw.reliefPrepare (h : Hw) (ch : Nat) : Hw :=
  let k := clusOfChan ch
  match h.boundaryNow, h.spareUnit k with
  | some b, some n =>
    if h.reliefChan = some ch ∧ h.relief k = none ∧ h.barred ch = true then h.passOn
    else if h.reliefChan = some ch ∧ h.relief k = none ∧ (h.cal.feSince = none ∨ h.listsWaiting = false ∨ h.on ADC_SLACK_FORCING) then
      let r : Relief := { ch := ch, oldUnit := h.unitOfChan ch, newUnit := n, b0 := b, b1 := 0, phase := .prepared }
      let h1 := ((h.setRelief k (some r)).put (FE_UNIT_PREP n) 1).put (FE_UNIT_LOCAL n) (ch % 8)
      { h1 with cal := { h1.cal with feSince := none } }
    else h
  | _, _ => h

/-- B1: the first frame boundary at or after B0 + max(t_s, 20 us). The spare takes the channel; its samples count from
B1 + 0.5 us (`calAt`). -/
def Hw.reliefSwitch (h : Hw) (k : Nat) : Hw :=
  match h.relief k, h.boundaryNow with
  | some r, some b =>
    if r.phase = .prepared ∧ r.b0 + max (h.settleNs r.ch) 20000 * nsUnit ≤ b then
      let h1 := h.setRelief k (some { r with phase := .overlap, b1 := b })
      let h2 := ((h1.put (FE_UNIT_ROLE r.newUnit) 0).put (FE_UNIT_LOCAL r.newUnit) (r.ch % 8)).put (FE_UNIT_PREP r.newUnit) 0
      (((h2.put (FE_UNIT_ROLE r.oldUnit) 2).put (FE_UNIT_LOCAL r.oldUnit) 0).put (FE_STATUS_UNIT r.ch) r.newUnit).put
        (FE_STATUS_CAL r.ch) 1
    else h
  | _, _ => h

/-- B1 + 1.1 us: the relieved unit's inputs are open and it goes to calibration. -/
def Hw.reliefOpen (h : Hw) (k : Nat) : Hw :=
  match h.relief k with
  | some r =>
    if r.phase = .overlap ∧ h.reached (r.b1 + 1100 * nsUnit) = true then
      ((h.setRelief k (some { r with phase := .calibrating })).setInputs r.newUnit (if h.inputsOn r.ch then some r.ch else none)).setInputs
        r.oldUnit none
    else h
  | none => h

/-- The first frame boundary after the relieved unit's calibration: it becomes the spare. -/
def Hw.reliefFinish (h : Hw) (k : Nat) : Hw :=
  match h.relief k, h.boundaryNow with
  | some r, some _ =>
    if r.phase = .ended then
      ((h.setRelief k none).put (FE_STATUS_CAL r.ch) 0).when (decide (h.feRole r.oldUnit = 2)) (fun h =>
        h.put (FE_UNIT_ROLE r.oldUnit) 1)
    else h
  | _, _ => h

/-- A commit at boundary `b` that changes the settings or routes of a channel under relief ends the relief (R107): the
unit that serves the channel at that boundary keeps it, and the other one becomes the spare. -/
def Hw.reliefCommit (h old : Hw) (b : Nat) : Hw :=
  h.each h.field.relief (fun h q =>
    match q.2 with
    | some r =>
      let touched := decide (h.reg (FE_CFG r.ch) ≠ old.reg (FE_CFG r.ch)) || decide (h.reg (HRN_CHIN r.ch) ≠ old.reg (HRN_CHIN r.ch)) ||
        (termsOfClus q.1).any (fun t => decide (h.reg (HRN_TERM t) ≠ old.reg (HRN_TERM t)) &&
          ((h.termChans t).contains r.ch || (old.termChans t).contains r.ch))
      if touched then
        let oldServes := decide (r.phase = .prepared) || (decide (r.phase = .overlap) && decide (b < r.b1 + 500 * nsUnit))
        let keep := if oldServes then r.oldUnit else r.newUnit
        let other := if oldServes then r.newUnit else r.oldUnit
        let h1 := h.when (h.cal.feStep.any (fun x => decide (x.unit = r.oldUnit))) Hw.abandonFeStep
        let h2 := (((h1.setRelief q.1 none).setInputs other none).put (FE_STATUS_CAL r.ch) 0).put (FE_STATUS_UNIT r.ch) keep
        let h3 := ((h2.put (FE_UNIT_ROLE keep) 0).put (FE_UNIT_LOCAL keep) (r.ch % 8)).put (FE_UNIT_PREP keep) 0
        (((h3.when (decide (h3.feRole other ≠ 3)) (fun h => h.put (FE_UNIT_ROLE other) 1)).put (FE_UNIT_LOCAL other) 0).put
          (FE_UNIT_PREP other) 0)
      else h
    | none => h)

/-! ### Which core is taken (R515) -/

def Hw.adcDue (h : Hw) (c : Nat) : Bool := (h.temp c).isSome && h.isDue (h.adcItem c) (h.temp c)

/-- The ADC track's pick: a core handed to it, a due spare, or the due core of the lowest position; and the position
that is relieved. -/
def Hw.adcTrackPick (h : Hw) : Option (Nat × Option Nat) :=
  let handed := (List.range 9).find? (fun c => decide (h.roleOf c = 2) && h.on (ADC_CORE_STAT_FAILED c) && (h.temp c).isSome)
  match handed with
  | some c => some (c, none)
  | none =>
    match (List.range 9).find? (fun c => decide (h.roleOf c = 1) && h.adcDue c) with
    | some c => some (c, none)
    | none =>
      if h.spareCore.isSome ∧ h.adc.relief.isNone then
        ((List.range 8).find? (fun p => decide (h.coreOf p < 9) && h.adcDue (h.coreOf p))).map (fun p => (h.coreOf p, some p))
      else none

def Hw.adcStepStart (h : Hw) (c : Nat) : Hw :=
  match h.adcTrackPick with
  | some (w, p) =>
    if w = c ∧ h.cal.adcStep = none ∧ h.on CAL_CTL_ADC_EN then
      let x : CalStep := { unit := c, inPlace := p.isNone, tStart := (h.temp c).getD 0, retries := 0, again := false,
                           plan := [{ setting := 0, input := 0 }], got := [], first := none }
      let h1 := { h with cal := { h.cal with adcStep := some x } }
      let h2 := (h1.put CAL_STATUS_ADC_BUSY 1).put CAL_STATUS_ADC_CORE c
      match p, h2.spareCore with
      | some p, some n =>
        let r : CoreRelief := { pos := p, oldCore := c, newCore := n, since := if h2.listsWaiting then some h2.ns else none, active := false, ended := false }
        { h2 with adc := { h2.adc with relief := some r } }
      | _, _ => h2.put (ADC_CORE_STAT_ROLE c) 2
    else h
  | none => h

/-! ### Runs of the calibration list (R511-R513) -/

/-- The front-end step waits for a run: its unit is under calibration. -/
def Hw.feWants (h : Hw) : Bool :=
  h.cal.feStep.any (fun x => decide (h.feRole x.unit = 2) &&
    (x.inPlace || (h.relief (clusOfUnit x.unit)).any (fun r => decide (r.phase = .calibrating ∧ r.oldUnit = x.unit))))

def Hw.adcWants (h : Hw) : Bool := h.cal.adcStep.any (fun x => decide (h.roleOf x.unit = 2))

/-- Conversions of the calibration list that have not arrived. -/
def Hw.calInFlight (h : Hw) : Bool :=
  h.adc.flight.any (fun f =>
    match f.what with
    | .cal .. => true
    | _ => false)

/-- The calibration list may start a run. -/
def Hw.calIdle (h : Hw) : Bool :=
  h.coreOn && h.adc.calRun.isNone && !h.cal.runFe && !h.cal.runAdc && !h.calInFlight && h.on SEQ_CAL_RGN_EN

/-- A run starts: every accumulator is cleared; it serves every track that waits for one. -/
def Hw.startCalRun (h : Hw) : Hw :=
  let h1 := h.each (List.range 16) Hw.emptyAcc
  let r : CalRun := { pc := h.get SEQ_CAL_RGN_BASE, stack := [], claims := [], issued := 0, since := 0, ended := false, start := h.time.now }
  { h1 with adc := { h1.adc with calRun := some r },
            cal := { h1.cal with runFe := h.feWants, runAdc := h.adcWants, runSince := h.ns, lastRun := h.ns } }

/-! ### What an accumulator holds -/

def Hw.accCnt (h : Hw) (a : Nat) : Nat := h.get (CAL_ACC_CNT_CNT a)
def Hw.accSum (h : Hw) (a : Nat) : Int := toSigned 48 (h.get (CAL_ACC_SLO_SUM_LO a) + 2 ^ 32 * h.get (CAL_ACC_SHI_SUM_HI a))
def Hw.accSpread (h : Hw) (a : Nat) : Int := toSigned 16 (h.get (CAL_ACC_MM_MAX a)) - toSigned 16 (h.get (CAL_ACC_MM_MIN a))

/-- A mean lies within [lo, hi]. -/
def meanIn (sum : Int) (cnt : Nat) (lo hi : Int) : Bool := decide (lo * cnt ≤ sum ∧ sum ≤ hi * cnt)

/-! ### What is computed (R520-R522) -/

/-- Strobe trim: TRIM + round_half_even((TGT - m) / 0.057344), with m = sum / cnt and TGT in 1/16 code. -/
def strobeTrim (trim : Nat) (tgt sum : Int) (cnt : Nat) : Int :=
  clampInt 0 63 (trim + roundHalfEven ((tgt * cnt - 16 * sum) * 1000000) (917504 * cnt))

/-- Offset trim: OFS - round_half_even(16 m). -/
def offsetTrim (ofs sum : Int) (cnt : Nat) : Int := clampInt (-2047) 2047 (ofs - roundHalfEven (16 * sum) cnt)

/-- Gain trim: GAIN + round_half_even(2^20 (span / (m_pos - m_neg) - 1)). Where the two means are equal the spec states
no result, and `free` stands for it. -/
def gainTrim (gain span sp sn : Int) (cp cn : Nat) (free : Int) : Int :=
  let k := sp * cn - sn * cp
  let n := 1048576 * (span * cp * cn - k)
  let d := if 0 < k then roundHalfEven n k.toNat else if k < 0 then roundHalfEven (-n) (-k).toNat else free
  clampInt (-32767) 32767 (gain + d)

/-- What the runs of one measurement of a front end give: TRIM, then OFS and GAIN of each setting. `sums` pairs each run
with its sum and count. -/
def Hw.feFields (h : Hw) (u : Nat) (runs : List (CalRunKind × Int × Nat)) : List Int :=
  let run (i k : Nat) : Int × Nat := ((runs.find? (fun r => decide (r.1.setting = i ∧ r.1.input = k))).map (fun r => r.2)).getD (0, 1)
  let s := run 0 3
  let trim := strobeTrim (h.get (SMP_SKEW_TRIM u)) (toSigned 32 (h.get CAL_STROBE_TGT_TGT)) s.1 s.2
  trim :: (runs.filter (fun r => decide (r.1.input = 0))).flatMap (fun r =>
    let w := h.feTrim u r.1.setting
    let a := run r.1.setting 0
    let p := run r.1.setting 1
    let n := run r.1.setting 2
    [offsetTrim (toSigned 16 (bits w 15 0)) a.1 a.2,
     gainTrim (toSigned 16 (bits w 31 16)) 43008 p.1 n.1 p.2 n.2 (toSigned 16 (Config.freeWord h.draws).toNat)])

/-- What a run of the ADC track gives: OFS, GAIN and the 16 thresholds. -/
def Hw.adcFields (h : Hw) (c : Nat) : List Int :=
  let w := h.reg (CAL_ADC_OG c)
  [offsetTrim (toSigned 16 (bits w 15 0)) (h.accSum 1) (h.accCnt 1),
   gainTrim (toSigned 16 (bits w 31 16)) 57344 (h.accSum 2) (h.accSum 3) (h.accCnt 2) (h.accCnt 3)
     (toSigned 16 (Config.freeWord h.draws).toNat)] ++
  (List.range 16).map (fun i => clampInt (-31) 31 (Config.adcThreshold c i h.draws))

/-- Every field of two computations agrees within the limit (R517). -/
def agree (a b : List Int) (taps : Nat) : Bool := (a.zip b).all (fun p => decide ((p.1 - p.2).natAbs ≤ taps))

/-! ### Preconditions (R518) -/

/-- The precondition of one front-end run, from ACC 0. -/
def Hw.fePre (h : Hw) (k : CalRunKind) : Bool :=
  let cnt := h.accCnt 0
  let sum := h.accSum 0
  let spread : Int := h.get CAL_PRE_SPREAD
  let tgt := toSigned 32 (h.get CAL_STROBE_TGT_TGT)
  decide (cnt ≠ 0) &&
  (match k.input with
    | 0 => decide (h.accSpread 0 ≤ spread)
    | 1 => decide (h.accSpread 0 ≤ spread) && decide (20 * sum ≤ 451584 * cnt ∧ 408576 * cnt ≤ 20 * sum)
    | 2 => decide (h.accSpread 0 ≤ spread) && decide (-(451584 * (cnt : Int)) ≤ 20 * sum ∧ 20 * sum ≤ -(408576 * (cnt : Int)))
    | _ => decide (h.accSpread 0 ≤ spread + 64) && meanIn (16 * sum) cnt (tgt - 8192) (tgt + 8192))

def Hw.adcPre (h : Hw) : Bool :=
  [1, 2, 3, 4].all (fun a => decide (h.accCnt a ≠ 0)) && decide (h.accSpread 1 ≤ (h.get CAL_PRE_SPREAD : Int)) &&
  decide ((h.get CAL_PRE_RAMP_MIN : Int) ≤ h.accSpread 4)

/-! ### How a step ends (R517, R519) -/

/-- A calibration step has completed: forcing ends at the next frame boundary (R164). -/
def Hw.stepDone (h : Hw) : Hw :=
  h.when (h.on ADC_SLACK_FORCING || h.adc.forceNext) (fun h => { h with adc := { h.adc with forceEnd := true } })

/-- A front-end step fails: RESULT 1 precondition, 2 disagreement, 3 timeout. -/
def Hw.feFail (h : Hw) (result : Nat) : Hw :=
  match h.cal.feStep with
  | some x =>
    let i := h.feItem x.unit
    let h1 := h.setFeItem x.unit { i with fails := min 15 (i.fails + 1) }
    ((h1.feStepOver x).noteFail result 0 x.retries x.unit).stepDone
  | none => h

/-- A front-end step passes: the second computation is applied. -/
def Hw.fePass (h : Hw) (x : CalStep) (fields : List Int) : Hw :=
  let u := x.unit
  let settings := (x.plan.filter (fun r => decide (r.input = 0))).map (fun r => r.setting)
  let h1 := h.put (SMP_SKEW_TRIM u) (ofSigned 6 (fields.getD 0 0))
  let h2 := h1.each (settings.zip (List.range settings.length)) (fun h q =>
    h.setFeTrim u q.1 (BitVec.ofNat 32 (2 ^ 16 * ofSigned 16 (fields.getD (2 * q.2 + 2) 0) + ofSigned 16 (fields.getD (2 * q.2 + 1) 0))))
  let h3 := h2.setFeItem u { done := true, tCal := some x.tStart, runAll := x.again, fails := 0 }
  ((h3.feStepOver x).bump CAL_COUNT_PASSED 1).stepDone

/-- The relief or the hand-over that an ADC step ran under ends at the next frame boundary (R165, R167). -/
def Hw.adcStepOver (h : Hw) (x : CalStep) (passed : Bool) : Hw :=
  let h1 := ({ h with cal := { h.cal with adcStep := none, runAdc := false } }).put CAL_STATUS_ADC_BUSY 0
  let h2 := if h1.on (ADC_CORE_STAT_FAILED x.unit) then
      { h1 with adc := { h1.adc with rehabDone := h1.adc.rehabDone ++ [(x.unit, passed)] } }
    else if x.inPlace then h1.put (ADC_CORE_STAT_ROLE x.unit) 1
    else { h1 with adc := { h1.adc with relief := h1.adc.relief.map (fun (r : CoreRelief) => { r with ended := true }) } }
  h2.stepDone

def Hw.adcFail (h : Hw) (result : Nat) : Hw :=
  match h.cal.adcStep with
  | some x => (h.adcStepOver x false).noteFail result 1 x.retries x.unit
  | none => h

def Hw.adcPass (h : Hw) (x : CalStep) (fields : List Int) : Hw :=
  let c := x.unit
  let h1 := h.setReg (CAL_ADC_OG c) (BitVec.ofNat 32 (2 ^ 16 * ofSigned 16 (fields.getD 1 0) + ofSigned 16 (fields.getD 0 0)))
  let h2 := h1.each (List.range 16) (fun h i => h.put (CAL_ADC_THR_THR c i) (ofSigned 6 (fields.getD (i + 2) 0)))
  let h3 := (h2.setAdcItem c { done := true, tCal := some x.tStart, runAll := x.again, fails := 0 }).put
    (CAL_ADC_STAT_T_CAL c) (ofSigned 16 x.tStart)
  (h3.adcStepOver x true).bump CAL_COUNT_PASSED 1

/-- A measurement has given its fields: the first of a pair is kept; the second is compared with it (R517). -/
def Hw.judge (h : Hw) (x : CalStep) (fields : List Int) (info : Nat) (keep : Hw → CalStep → Hw) (pass : Hw → Hw) (fail : Hw → Hw) : Hw :=
  let h := h.draw
  match x.first with
  | none => keep h { x with got := [], first := some fields }
  | some a =>
    if agree a fields (h.get CAL_AGREE_TAPS_TAPS) then pass h
    else if 3 ≤ x.retries then fail (h.raise srcCalDisagree info)
    else keep h { x with got := [], first := none, retries := x.retries + 1 }

/-- The front-end step reads ACC 0 at LEND. -/
def Hw.feLend (h : Hw) : Hw :=
  match h.cal.feStep with
  | some x =>
    match x.plan[x.got.length]? with
    | some k =>
      if h.fePre k then
        let y := { x with got := x.got ++ [(h.accSum 0, h.accCnt 0)] }
        let keep (h : Hw) (z : CalStep) : Hw := { h with cal := { h.cal with feStep := some z } }
        if y.got.length < x.plan.length then keep h y
        else
          let fields := h.feFields x.unit (x.plan.zip y.got)
          h.judge y fields x.unit keep (fun h => h.fePass y fields) (fun h => h.feFail 2)
      else h.feFail 1
    | none => h
  | none => h

/-- The ADC step reads ACC 1-4 at LEND. -/
def Hw.adcLend (h : Hw) : Hw :=
  match h.cal.adcStep with
  | some x =>
    if h.adcPre then
      let fields := h.adcFields x.unit
      h.judge x fields (1024 + x.unit) (fun h z => { h with cal := { h.cal with adcStep := some z } }) (fun h => h.adcPass x fields)
        (fun h => h.adcFail 2)
    else h.adcFail 1
  | none => h

/-- LEND of the calibration list: the run ends and the tracks that it serves read their accumulators (R511). -/
def Hw.calLend (h : Hw) : Hw :=
  let fe := h.cal.runFe
  let adc := h.cal.runAdc
  let h1 := { h with adc := { h.adc with calRun := none, calIssued := h.ns }, cal := { h.cal with runFe := false, runAdc := false } }
  let h2 := h1.when (!fe && !adc && h.cal.feStep.isNone && h.cal.adcStep.isNone) Hw.stepDone
  (h2.when fe Hw.feLend).when adc Hw.adcLend

/-- A run that has not reached LEND in time: its steps fail, and the run is dropped (R525). -/
def Hw.calTimeout (h : Hw) : Hw :=
  if (h.cal.runFe || h.cal.runAdc) && h.due (h.cal.runSince + msNs (h.get CAL_STEP_TO_TO_MS)) then
    let fe := h.cal.runFe
    let adc := h.cal.runAdc
    let h1 := { h with adc := { h.adc with calRun := none }, cal := { h.cal with runFe := false, runAdc := false } }
    (h1.when fe (fun h => h.feFail 3)).when adc (fun h => h.adcFail 3)
  else h

/-! ### RUN_ALL (R510, R526) -/

/-- Every item becomes due; an item whose step is under way stays due after it. -/
def Hw.runAll (h : Hw) : Hw :=
  let mark (x : CalItem) : CalItem := { x with runAll := true }
  let h1 := h.each (List.range nUnit) (fun h u => h.setFeItem u (mark (h.feItem u)))
  let h2 := h1.each (List.range 9) (fun h c => h.setAdcItem c (mark (h.adcItem c)))
  let h3 := h2.each (List.range 8) (fun h i => (h.setSlicerItem i (mark (h.slicerItem i))).setDelayItem i (mark (h.delayItem i)))
  let again := Option.map (fun (x : CalStep) => { x with again := true })
  ({ h3 with cal := { h3.cal with feStep := again h3.cal.feStep, adcStep := again h3.cal.adcStep } }).markSlicers

/-- A write of CAL_CTL: its enables are staged, and RUN_ALL acts. -/
def Hw.calCtlWrite (h : Hw) (v : Word) : Hw := (h.stage CAL_CTL 0x7 v).when (natBit v.toNat 31) Hw.runAll

/-! ### Lane steps (R516, R518, R523, R524) -/

/-- A link item after a step that passed: its start temperature, if one is known. -/
def passedItem (t : Option Int) : CalItem := { done := true, tCal := t, runAll := false, fails := 0 }

/-- The pairs of measurements of a lane step, with retries: `m` reads one measurement, or answers none where its
precondition fails. Answers the applied fields, or the result of the failure, and the retries made. -/
def lanePairs (m : Nat → Option (List Int)) (taps : Nat) : Nat → Nat → (List Int ⊕ Nat) × Nat
  | 0, retries => (.inr 2, retries - 1)
  | fuel + 1, retries =>
    match m (2 * retries), m (2 * retries + 1) with
    | some a, some b => if agree a b taps then (.inl b, retries) else lanePairs m taps fuel (retries + 1)
    | _, _ => (.inr 1, retries)

/-- How a lane step ends. -/
def Hw.laneStep (h : Hw) (kind item : Nat) (r : (List Int ⊕ Nat) × Nat) (apply : Hw → List Int → Hw) : Hw :=
  match r.1 with
  | .inl fields => (apply h fields).bump CAL_COUNT_PASSED 1
  | .inr result =>
    (h.when (decide (result = 2)) (fun h => h.raise srcCalDisagree (1024 * kind + item))).noteFail result kind r.2 item

/-- One measurement of the delay replica: 64 readings of the change of its delay since production, in ps. -/
def delayChange (readings : List Int) (n : Nat) : Option (List Int) :=
  match slice readings (64 * n) 64 with
  | a :: t =>
    let mx := t.foldl max a
    let mn := t.foldl min a
    if t.length = 63 ∧ mx - mn ≤ 4 then some [roundHalfEven (t.foldl (· + ·) a) 64] else none
  | [] => none

/-- A delay step of a lane (R524): TX_PS and RX_PS take their production values plus the change. -/
def Hw.delayStep (h : Hw) (p : Port) (l : Nat) (readings : List Int) : Hw :=
  let n := portNo p
  let i := 4 * n + l
  if h.running && h.on CAL_CTL_LINK_EN && decide (h.get (LNK_STATUS_STATE n) = 4) && h.isDue (h.delayItem i) h.laneTemp then
    let timing := decide (h.clk.timing.mode = .on)
    let m (k : Nat) := if timing then delayChange readings k else none
    h.laneStep 3 i (lanePairs m (h.get CAL_AGREE_TAPS_TAPS) 4 0) (fun h f =>
      let d := f.getD 0 0
      let w := h.prodReg (TIM_DLY n l)
      let at_ (v : Nat) : Nat := (clampInt 0 65535 ((v : Int) + d)).toNat
      ((h.put (TIM_DLY_TX_PS n l) (at_ (bits w 31 16))).put (TIM_DLY_RX_PS n l) (at_ (bits w 15 0))).setDelayItem i
        (passedItem h.laneTemp))
  else h

/-- The widest run of error-free taps around the 64 taps of one UI, as first tap and length; the first of equal ones. -/
def widestZone (ok : List Bool) : Nat × Nat :=
  let run (s : Nat) : Nat := ((List.range 64).takeWhile (fun i => ok.getD ((s + i) % 64) false)).length
  (List.range 64).foldl (fun (b : Nat × Nat) s => if b.2 < run s then (s, run s) else b) (0, 0)

/-- One slicer measurement of 71 numbers: RICH_IDLE blocks received, symbols that matched and symbols in all; whether
each of the 64 phase taps was free of errors; and the measured positions of the levels -3, -1, +1 and +3. Gives phase,
the three thresholds and the four positions. -/
def slicerFields (meas : List Int) (n : Nat) : Option (List Int) :=
  let m := slice meas (71 * n) 71
  let g (i : Nat) : Int := m.getD i 0
  let z := widestZone ((slice m 3 64).map (fun x => decide (x ≠ 0)))
  let mid (a b : Int) : Int := clampInt 0 127 (roundHalfEven (a + b) 2)
  if m.length = 71 ∧ 4096 ≤ g 0 ∧ 99 * g 2 ≤ 100 * g 1 then
    some [(((z.1 + (z.2 - 1) / 2) % 64 : Nat) : Int), mid (g 67) (g 68), mid (g 68) (g 69), mid (g 69) (g 70), g 67, g 68, g 69, g 70]
  else none

/-- The lane may take a slicer step: the port is training, or the lane waits for recalibration with the training pattern
on it. -/
def Hw.mayRecal (h : Hw) (p : Port) (l : Nat) : Bool :=
  let n := portNo p
  let st := h.get (LNK_STATUS_STATE n)
  decide (st = 2) || (decide (st = 4) && h.on (LNK_TRK_RECAL_PEND n l) && h.on CAL_CTL_LINK_EN)

/-- The calibrated values of a lane and the offsets, set from a slicer step (R402, R523). -/
def Hw.applySlicer (h : Hw) (p : Port) (l : Nat) (f : List Int) : Hw :=
  let n := portNo p
  let v (i : Nat) : Nat := (f.getD i 0).toNat
  let h1 := (((h.put (CAL_LINK_PHASE n l) (v 0)).put (CAL_LINK_THR_L n l) (v 1)).put (CAL_LINK_THR_M n l) (v 2)).put (CAL_LINK_THR_U n l) (v 3)
  let h2 := (((h1.put (LNK_TRK_PHASE n l) 0).put (LNK_TRK_THR_L n l) 0).put (LNK_TRK_THR_M n l) 0).put (LNK_TRK_THR_U n l) 0
  let h3 := (h2.put (LNK_TRK_RECAL_PEND n l) 0).put (LNK_STATUS_MY_RECAL n) (natPut (h2.get (LNK_STATUS_MY_RECAL n)) l l 0)
  h3.setLane p l { h3.lane p l with accL := 0, accM := 0, accU := 0, pacc := 0, boundRaised := false, expected := f.drop 4 }

/-- A slicer step of a lane (R523). -/
def Hw.slicerStep (h : Hw) (p : Port) (l : Nat) (meas : List Int) : Hw :=
  let i := 4 * portNo p + l
  if h.mayRecal p l then
    -- the measured level positions are no trims: they do not have to agree
    let taps := h.get CAL_AGREE_TAPS_TAPS
    let m (k : Nat) := (slicerFields meas k).map (fun f => f.take 4)
    let r := lanePairs m taps 4 0
    let whole := ((slicerFields meas (2 * r.2 + 1)).getD [])
    h.laneStep 2 i r (fun h _ => (h.applySlicer p l whole).setSlicerItem i (passedItem h.laneTemp))
  else h

/-! ### The commands -/

def execReliefPrepare (ch : Nat) (s : State) : Out := actOn s (isChan ch) (fun h => h.reliefPrepare ch)

def execReliefSwitchover (k : Nat) (s : State) : Out := actOn s (isClus k) (fun h => h.reliefSwitch k)

def execReliefOldOpen (k : Nat) (s : State) : Out := actOn s (isClus k) (fun h => h.reliefOpen k)

def execReliefFinish (k : Nat) (s : State) : Out := actOn s (isClus k) (fun h => h.reliefFinish k)

def execCalStepStart (t : CalTrack) (s : State) : Out :=
  match t with
  | .frontEnd u => actOn s (isUnit u) (fun h => h.when (h.coreOn && h.running) (fun h => h.feStepStart u))
  | .adc c => actOn s (isCore c) (fun h => h.when (h.coreOn && h.running) (fun h => h.adcStepStart c))

def execCalRunStart (s : State) : Out :=
  actOn s true (fun h => h.when (h.calIdle && (h.feWants || h.adcWants)) Hw.startCalRun)

def execCalStepTimeout (s : State) : Out := actOn s true Hw.calTimeout

def execCalPeriodicRun (s : State) : Out :=
  actOn s true (fun h => h.when (h.calIdle && !(h.feWants || h.adcWants) && h.due (h.cal.lastRun + 100000000)) Hw.startCalRun)

def execCalRunAll (q : Requester) (v : Word) (s : State) : Out := accWrite s q true (fun h => h.calCtlWrite v)

/-- LEND (R230). The calibration list's LEND issues once its conversions have all arrived. -/
def execLend (w : Walk) (u : Word72) (s : State) : Out :=
  actOn s true (fun h =>
    let drained := h.adc.calRun.isSome && h.calClaims.isEmpty && !h.calInFlight
    h.issue w u (fun e => decide (e = .lend) && (decide (w ≠ .cal) || drained))
      (fun h _ =>
        match w with
        | .cal => h.calLend
        | _ => ({ h with adc := { h.adc with run := h.adc.run.map (fun (r : ListRun) => { r with ended := true }) } }).runCheck))

def execDelayStep (p : Port) (l : Nat) (readings : List Int) (s : State) : Out :=
  actOn s (isLane l) (fun h => h.delayStep p l readings)

def execSlicerStep (p : Port) (l : Nat) (meas : List Int) (s : State) : Out :=
  actOn s (isLane l) (fun h => h.slicerStep p l meas)

end Sys2Proof.Machine
end

