-- ==== Sys2Proof/Machine/Burgee.lean ====
section
/-!
DEFINITION. The Burgee trigger units (chapter 09): states, conditions and their histories, decisions, timers, and the
actions of a transition (R284-R297).
-/
namespace Sys2Proof.Machine

/-! ### States (R284, R285) -/

/-- Index of state s of unit n among the state registers (R324). -/
def stateReg (n s : Nat) : Nat := 8 * n + s

def Hw.unitState (h : Hw) (n : Nat) : Nat := h.get (TRG_STAT_STATE n)

/-- Some condition of the state is of a type. -/
def Hw.stateHas (h : Hw) (n s ty : Nat) : Bool :=
  decide (condType (h.reg (condAddr n s 0)) = ty) || decide (condType (h.reg (condAddr n s 1)) = ty)

/-- A unit enters a state: counter and latches clear, and the timer starts. The first CORE cycle after it decides on an ENTRY
condition, and on the unit's own SIGNAL of the transition, before anything else that waits (R288). -/
def Hw.enterState (h : Hw) (n s : Nat) (signal : Bool) : Hw :=
  let u := h.unitSt n
  let cs := (if h.stateHas n s 1 then [TrgCause.entry] else []) ++ (if signal then [TrgCause.unit n] else [])
  let u1 := { u with latchA := none, latchB := none, entered := h.time.now, timeA := false, timeB := false, expired := false,
                     causes := if cs.isEmpty then u.causes else { ns := h.ns, late := false, causes := cs } :: u.causes }
  ((h.setUnit n u1).put (TRG_STAT_STATE n) s).put (TRG_COUNT_COUNT n) 0

/-- A unit enters its start state (R285): it runs again if it had stopped, and its histories are cleared (R290). -/
def Hw.enterStart (h : Hw) (n : Nat) : Hw :=
  let h1 := (h.put (TRG_STAT_STOPPED n) 0).setUnit n { h.unitSt n with hist := [] }
  h1.enterState n (h1.get (TRG_UNIT_START n)) false

/-- The unit decides. -/
def Hw.unitRuns (h : Hw) (n : Nat) : Bool := h.coreOn && h.armed n && !h.on (TRG_STAT_STOPPED n)

/-! ### Conditions (R287-R290) -/

/-- Parameter c (0: LO, 1: HI) of a condition, signed. -/
def Hw.param (h : Hw) (a c : Nat) : Int := toSigned 24 (bits (h.reg (a + 4 + 4 * c)) 31 8)

/-- The test of a sample condition on its history, newest first. -/
def sampleTest (ty dist : Nat) (lo hi : Int) (v : List Int) : Bool :=
  match v with
  | [] => false
  | x :: past =>
    match ty with
    | 2 => decide (lo < x)
    | 3 => decide (x < lo)
    | 4 => decide (lo ≤ x ∧ x ≤ hi)
    | 5 => decide (x < lo ∨ hi < x)
    | 6 => past.head?.any (fun y => decide (lo ≤ x - y))
    | 7 => past.head?.any (fun y => decide (lo ≤ y - x))
    | 8 => (past[dist - 1]?).any (fun y => decide (lo ≤ ((x - y).natAbs : Int)))
    | _ => false

/-- What a cause offers to sample conditions: whether it is raw, its source, its value and VALID. -/
def TrgCause.sample : TrgCause → Option (Bool × Nat × Int × Bool)
  | .word s _ _ w _ _ => some (false, s, toSigned 24 (bits w 31 8), natBit w.toNat 7)
  | .raw ch _ code _ => some (true, ch, code, true)
  | _ => none

/-- Index of the histories of condition c of state s. -/
def histKey (s c : Nat) : Nat := 2 * s + c

def Hw.hist (h : Hw) (n s c : Nat) : CondHist := storeGet (fun _ => hist0) (h.unitSt n).hist (histKey s c)

/-- A sample enters the history of condition c of state s of unit n, if the condition evaluates it (R289, R290). Answers
whether the condition is true in this decision. -/
def Hw.evalSample (h : Hw) (n s c : Nat) (cause : TrgCause) : Hw × Bool :=
  let a := condAddr n s c
  let w := h.reg a
  match cause.sample with
  | some (raw, src, v, valid) =>
    if condTakes w raw src && (valid || (!raw && natBit w.toNat 25)) then
      let old := h.hist n s c
      let vals := (v :: old.vals).take 65
      let met := sampleTest (condType w) (bits w 21 16 + 1) (h.param a 0) (h.param a 1) vals
      let u := h.unitSt n
      let h1 := h.setUnit n { u with hist := storeSet (fun _ => hist0) u.hist (histKey s c) { vals := vals, met := met } }
      (h1, met && (!natBit w.toNat 26 || (!old.vals.isEmpty && !old.met)))
    else (h, false)
  | none => (h, false)

/-- T of a TIME condition (R288): `_HI` gives seconds bits [31:0], and their upper bits are those of the state's entry. -/
def Hw.timeT (h : Hw) (n s c : Nat) : Nat :=
  let a := condAddr n s c
  let e := (h.unitSt n).entered
  timeOf (secOf e / 2 ^ 32 * 2 ^ 32 + (h.reg (a + 8)).toNat) (bits (h.reg (a + 4)) 29 0) 0

/-- TIME condition c of the current state becomes true now, for the first time since the state was entered (R288, R291). -/
def Hw.timeReached (h : Hw) (n c : Nat) : Bool :=
  let s := h.unitState n
  let u := h.unitSt n
  decide (condType (h.reg (condAddr n s c)) = 11) && !(if c = 0 then u.timeA else u.timeB) && h.reached (h.timeT n s c)

/-- A condition that is no sample condition is true for a cause (R288). -/
def Hw.evalOther (h : Hw) (n s c : Nat) (cause : TrgCause) : Bool :=
  let w := h.reg (condAddr n s c)
  match cause with
  | .entry => decide (condType w = 1)
  | .syncIn falling _ => decide (condType w = 9) && (natBit w.toNat 0 == falling)
  | .unit m => decide (condType w = 10 ∧ bits w 3 0 = m)
  | .time => h.timeReached n c
  | .cmd => decide (condType w = 12)
  | .fault i => decide (condType w = 13 ∧ bits w 5 0 = i)
  | _ => false

/-- What a true condition records: CAUSE of R306, the time of R297, and the source with its index and era. -/
def Hw.hitOf (h : Hw) (n s c : Nat) (cause : TrgCause) : CondHit :=
  let plain (code time : Nat) : CondHit := { code := code, time := time, src := 0, index := 0, era := 0 }
  match cause with
  | .word st j pos _ t _ =>
    { code := 0, time := t, src := st, index := j,
      era := (((h.stream st).eraAt pos).map Era.era).getD (h.get (STR_ERA_ERA st)) }
  | .raw ch j _ t => { code := 1, time := t, src := ch, index := j, era := 0 }
  | .syncIn _ t => plain 2 t
  | .time => plain 3 (h.timeT n s c)
  | .cmd => plain 4 h.time.now
  | .fault _ => plain 5 h.time.now
  | .unit _ => plain 6 h.time.now
  | .entry => plain 7 h.time.now

/-- Every condition of every state takes a sample into its history; answers A and B of the current state. -/
def Hw.evalAll (h : Hw) (n : Nat) (cause : TrgCause) : Hw × Bool × Bool :=
  let now := h.unitState n
  let r := (List.range 16).foldl (fun (p : Hw × Bool × Bool) i =>
    let q := p.1.evalSample n (i / 2) (i % 2) cause
    (q.1, p.2.1 || (q.2 && decide (i = histKey now 0)), p.2.2 || (q.2 && decide (i = histKey now 1)))) (h, false, false)
  (r.1, r.2.1 || r.1.evalOther n now 0 cause, r.2.2 || r.1.evalOther n now 1 cause)

/-! ### Actions (R296) -/

/-- The EVENT item of a transition (R445). -/
def triggerItem (n left entered next count : Nat) (tmo : Bool) (x : CondHit) : List Byte :=
  let sample := decide (x.code ≤ 1)
  beBytes 1 1 ++ beBytes 1 n ++
  beBytes 2 (2 ^ 15 * b2n tmo + 2 ^ 12 * left + 2 ^ 11 * b2n (decide (next = 9)) + 2 ^ 8 * entered + 16 * x.code) ++
  beBytes 4 count ++ timeBytesBe x.time ++
  beBytes 2 (if sample then 2 ^ 15 * x.code + x.src else 0) ++ beBytes 2 (if x.code = 0 then x.era else 0) ++ zeros 6 ++
  beBytes 8 (if sample then x.index else 0)

/-- CAPTURE (R298, R300, R301). -/
def Hw.capture (h : Hw) (n left : Nat) (x : CondHit) : Hw :=
  if h.on (TRG_CAP_EN n) then
    let u := h.unitSt n
    let r : CapReq := { hit := x, stateAt := left }
    match u.alloc, u.heldReq with
    | none, _ => h.setUnit n { u with alloc := some r }
    | some _, none => (h.setUnit n { u with heldReq := some r }).put (TRG_STAT_HELD n) 1
    | some _, some _ => h.bump (TRG_MISSED_MISSED n) 1
  else h

/-- MARK: bit 0 of the stored word of the deciding cycle's cause, by a narrow write (R263). -/
def Hw.markWord (h : Hw) (cause : Option TrgCause) : Hw :=
  match cause with
  | some (.word s _ pos _ _ _) =>
    if h.inBuffer s pos then
      let p := h.bufPlace s pos
      h.memWriteHalf p.1 p.2 (h.bufPeek s pos ||| 1) finderMark none
    else h
  | _ => h

/-- SIGNAL: the UNIT conditions that name the unit are true in the next CORE cycle; the unit's own, where it enters a state, in
the first cycle there (`Hw.enterState`). -/
def Hw.signal (h : Hw) (n next : Nat) : Hw :=
  h.each ((List.range 16).filter (fun m => decide (m ≠ n ∨ 8 ≤ next))) (fun h m => h.unitCause m (.unit n))

/-- The actions of a transition in bit order (R296). `cause`: the stream word that the decision is on, if any. -/
def Hw.actions (h : Hw) (n acts left entered next count : Nat) (tmo : Bool) (x : CondHit) (cause : Option TrgCause) : Hw :=
  let h1 := h.when (natBit acts 0) (fun h => h.capture n left x)
  let h2 := h1.when (natBit acts 1) (fun h => h.markWord cause)
  let h3 := h2.when (natBit acts 2) (fun h => h.signal n next)
  let h4 := h3.when (natBit acts 3) (fun h => h.listStart (h.get (TRG_UNIT_ILSEL n)) h.time.now)
  let h5 := h4.when (natBit acts 4) (fun h => h.swapRequest (h.get (TRG_UNIT_SWAP_STREAM n)) (h.get (TRG_UNIT_SWAP_BANK n)))
  h5.when (natBit acts 5) (fun h => h.eventItem (.trigger (triggerItem n left entered next count tmo x)))

/-- A unit stops: it decides nothing, and what waits is dropped with the cycles of the stop (R294). -/
def Hw.stopUnit (h : Hw) (n : Nat) : Hw := (h.put (TRG_STAT_STOPPED n) 1).setUnit n { h.unitSt n with causes := [] }

/-- A transition: its actions, then its NEXT (R294). -/
def Hw.transit (h : Hw) (n acts next count : Nat) (tmo : Bool) (x : CondHit) (cause : Option TrgCause) : Hw :=
  let left := h.unitState n
  let entered := if next < 8 then next else left
  let h1 := h.actions n acts left entered next count tmo x cause
  if next < 8 then h1.enterState n next (natBit acts 2)
  else if next = 8 then h1.put (TRG_COUNT_COUNT n) 0
  else if next = 9 then h1.stopUnit n
  else h1

/-! ### Decisions (R286, R292, R297) -/

/-- The earlier of two hits; A's where they are equal (R297). -/
def earlier (a b : CondHit) : CondHit := if b.time < a.time then b else a

/-- The event of a decision, by the state's combine rule; answers the hit that it reports. -/
def Hw.event (h : Hw) (n : Nat) (a b : Option CondHit) : Hw × Option CondHit :=
  match h.get (TRG_ST_CTL_COMB (stateReg n (h.unitState n))) with
  | 0 => (h, a)
  | 1 =>
    (h, match a, b with
      | some x, some y => some (earlier x y)
      | some x, none => some x
      | none, y => y)
  | 2 =>
    let u := h.unitSt n
    let la := u.latchA.or a
    let lb := u.latchB.or b
    match la, lb with
    | some x, some y => (h.setUnit n { u with latchA := none, latchB := none }, some (earlier x y))
    | _, _ => (h.setUnit n { u with latchA := la, latchB := lb }, none)
  | _ => (h, none)

/-- What a deciding cycle finds: the earliest hit of each condition, and the stream words that made one true. -/
structure Found where
  a : Option CondHit
  b : Option CondHit
  words : List (TrgCause × CondHit)
  deriving DecidableEq, Repr

/-- The earliest of the hits of one condition; the first of equal times. -/
def firstHit (old : Option CondHit) (x : CondHit) : Option CondHit :=
  match old with
  | some y => some (earlier y x)
  | none => some x

def TrgCause.isWord : TrgCause → Bool
  | .word .. => true
  | _ => false

/-- All conditions are evaluated on the causes of one cycle (R286): every one that is true counts once. -/
def Hw.evalCycle (h : Hw) (n : Nat) (cs : List TrgCause) : Hw × Found :=
  let s := h.unitState n
  cs.foldl (fun (p : Hw × Found) c =>
    let r := p.1.evalAll n c
    let x := r.1.hitOf n s 0 c
    let y := r.1.hitOf n s 1 c
    let comb := r.1.get (TRG_ST_CTL_COMB (stateReg n s))
    let hits := (if r.2.1 then [x] else []) ++ (if r.2.2 ∧ comb ≠ 0 then [y] else [])
    (r.1, { a := if r.2.1 then firstHit p.2.a x else p.2.a, b := if r.2.2 then firstHit p.2.b y else p.2.b,
            words := p.2.words ++ (if c.isWord then hits.map (fun z => (c, z)) else []) }))
    (h, { a := none, b := none, words := [] })

/-- The stream word that a MARK action of an event marks: the one of the event's time, else the first that made a condition
true in this cycle (R296). -/
def Found.marked (f : Found) (x : CondHit) : Option TrgCause :=
  ((f.words.find? (fun q => decide (q.2 = x))).or f.words.head?).map (·.1)

/-- The causes of the unit's next deciding cycle: the first that wait, and its TIME conditions that have become true. -/
def Hw.cycleCauses (h : Hw) (n : Nat) : List TrgCause :=
  ((h.unitSt n).causes.head?.map TrgBatch.causes).getD [] ++ (if h.timeReached n 0 || h.timeReached n 1 then [.time] else [])

/-- The conditions of a deciding cycle are evaluated, and its causes are consumed; a TIME condition is true once in a stay. -/
def Hw.takeCycle (h : Hw) (n : Nat) : Hw × Found :=
  let r := (h.setUnit n { h.unitSt n with causes := (h.unitSt n).causes.tail }).evalCycle n (h.cycleCauses n)
  let u := r.1.unitSt n
  (r.1.setUnit n { u with timeA := u.timeA || h.timeReached n 0, timeB := u.timeB || h.timeReached n 1 }, r.2)

/-- The unit decides in one cycle; answers whether it made a hit (R292, R294). -/
def Hw.decideCycle (h : Hw) (n : Nat) : Hw × Bool :=
  let r := h.takeCycle n
  let e := r.1.event n r.2.a r.2.b
  match e.2 with
  | some x =>
    let count := e.1.get (TRG_COUNT_COUNT n) + 1
    let h2 := e.1.put (TRG_COUNT_COUNT n) count
    let ctl := stateReg n (h.unitState n)
    if max 1 (h2.get (TRG_ST_CNT_TARGET ctl)) ≤ count then
      (h2.transit n (h2.get (TRG_ST_CTL_ACT_HIT ctl)) (h2.get (TRG_ST_CTL_NEXT_HIT ctl)) count false x (r.2.marked x), true)
    else (h2, false)
  | none => (e.1, false)

/-- The unit's next decision, if something waits for one. -/
def Hw.triggerDecide (h : Hw) (n : Nat) : Hw :=
  if h.unitRuns n && !(h.cycleCauses n).isEmpty then (h.decideCycle n).1 else h

/-- Causes of earlier AON ticks, which fell in earlier cycles, are decided on, until one makes a hit. -/
def Hw.decideOlder (h : Hw) (n : Nat) : Nat → Hw × Bool
  | 0 => (h, false)
  | k + 1 =>
    match (h.unitSt n).causes with
    | b :: _ =>
      if b.ns + 40 ≤ h.ns then
        let r := h.decideCycle n
        if r.2 then r else r.1.decideOlder n k
      else (h, false)
    | [] => (h, false)

/-- The state's timer in ns; 0: none (R293). -/
def Hw.timerNs (h : Hw) (n : Nat) : Nat :=
  let k := stateReg n (h.unitState n)
  h.get (TRG_ST_TMR_LO_TMR_LO k) + 2 ^ 32 * h.get (TRG_ST_TMR_HI_TMR_HI k)

/-- The timer of the current state expires (R293). -/
def Hw.timerDue (h : Hw) (n : Nat) : Bool :=
  decide (h.timerNs n ≠ 0) && !(h.unitSt n).expired && h.reached ((h.unitSt n).entered + h.timerNs n * nsUnit)

/-- The timer expires (R293, R295): a hit in that cycle wins over the timeout; else the timeout wins over the cycle's events,
which are discarded with the counter. -/
def Hw.triggerTimeout (h : Hw) (n : Nat) : Hw :=
  if h.unitRuns n && h.timerDue n then
    let o := h.decideOlder n (h.unitSt n).causes.length
    if o.2 || !(o.1.unitRuns n && o.1.timerDue n) then o.1
    else
      let h0 := o.1
      let ctl := stateReg n (h0.unitState n)
      let count := h0.get (TRG_COUNT_COUNT n)
      let r := h0.decideCycle n
      if r.2 then r.1.when (decide (h0.get (TRG_ST_CTL_NEXT_HIT ctl) = 8)) (fun h => h.setUnit n { h.unitSt n with expired := true })
      else
        let h1 := (r.1.put (TRG_COUNT_COUNT n) count).setUnit n { r.1.unitSt n with expired := true }
        let x : CondHit := { code := 8, time := h.time.now, src := 0, index := 0, era := 0 }
        h1.transit n (h0.get (TRG_ST_CTL_ACT_TO ctl)) (h0.get (TRG_ST_CTL_NEXT_TO ctl)) count true x none
  else h

/-! ### Commits (R285, R304, R311) -/

/-- A register of a run of `k` words differs. -/
def runDiffers (h old : Hw) (a k : Nat) : Bool := (List.range k).any (fun i => decide (h.reg (a + 4 * i) ≠ old.reg (a + 4 * i)))

/-- A commit's effect on the units, with the new registers in place. -/
def Hw.trgCommit (h old : Hw) : Hw :=
  h.each (List.range 16) (fun h n =>
    let now := h.armed n
    let was := old.armed n
    let h1 :=
      if now then
        if !was || runDiffers h old (TRG_ST_CA (8 * n)) 128 || decide (h.get (TRG_UNIT_START n) ≠ old.get (TRG_UNIT_START n)) then
          h.enterStart n else h
      else h.when was (fun h => h.setUnit n { h.unitSt n with causes := [] })
    -- capture settings: TRG_CAP, LEN, PRE, POOL and SEG
    let h2 := h1.when (runDiffers h old (TRG_CAP n) 5) (fun h => h.cutSegs (fun g => decide (g.unit = n)))
    h2.when (decide (h.reg (TRG_CAP_SEG n) ≠ old.reg (TRG_CAP_SEG n))) (fun h =>
      h.setUnit n { h.unitSt n with next := h.get (TRG_CAP_SEG_SEG_BASE n) }))

/-- A condition word that R311 refuses. -/
def condBad (w : Word) : Bool :=
  let ty := condType w
  decide (13 < ty) || decide (bits w 24 22 ≠ 0) || decide (bits w 15 9 ≠ 0)

/-- SRC out of range for the type, or with a bit that types 9, 10 and 13 do not use. -/
def condSrcBad (w : Word) : Bool :=
  let ty := condType w
  let src := condSrc w
  (decide (2 ≤ ty ∧ ty ≤ 8) && condRaw w && decide (nChan ≤ src)) || (decide (ty = 9) && decide (1 < src)) ||
  (decide (ty = 10) && decide (15 < src)) || (decide (ty = 13) && decide (63 < src))

/-- Tiles of a segment: ceil(streams x LEN / 1,024) (R299). -/
def segTiles (nstr len : Nat) : Nat := (nstr * len + 1023) / 1024

/-- NSLOTS of a unit. -/
def Hw.nslots (h : Hw) (n : Nat) : Nat :=
  h.get (TRG_CAP_POOL_LEN_TILES n) / segTiles (h.get (TRG_CAP_NSTR_M1 n) + 1) (h.get (TRG_CAP_LEN_LEN n))

/-- The total decimation of a stream's chain in the epoch in effect. -/
def Hw.streamD (h : Hw) (s : Nat) : Nat := decim (h.reg (FIL_CHAIN s)) (h.reg (FIL_RESP s)) (h.activeBank s)

/-- Burgee settings that a commit refuses with FAIL_CODE 0x7 (R311); pools are judged with the other allotments. -/
def trgOutOfRange (h : Hw) : Bool :=
  let caps := (List.range 16).filter (fun n => h.on (TRG_CAP_EN n))
  (List.range 16).any (fun n => (List.range 8).any (fun s =>
    let k := stateReg n s
    let conds := [h.reg (condAddr n s 0), h.reg (condAddr n s 1)]
    let ctl := h.reg (TRG_ST_CTL k)
    conds.any condSrcBad || conds.any condBad || decide (h.get (TRG_ST_CTL_COMB k) = 3) ||
      decide (9 < h.get (TRG_ST_CTL_NEXT_HIT k)) || decide (9 < h.get (TRG_ST_CTL_NEXT_TO k)) ||
      decide (64 ≤ h.get (TRG_ST_CTL_ACT_HIT k)) || decide (64 ≤ h.get (TRG_ST_CTL_ACT_TO k)) ||
      decide (bits ctl 29 28 ≠ 0 ∨ bits ctl 19 16 ≠ 0 ∨ bits (h.reg (TRG_ST_TMR_HI k)) 31 16 ≠ 0))) ||
  caps.any (fun n =>
    let len := h.get (TRG_CAP_LEN_LEN n)
    let pre := h.get (TRG_CAP_PRE_PRE n)
    let m := h.get (TRG_CAP_NSTR_M1 n) + 1
    let first := h.get (TRG_CAP_STREAM n)
    let group (s : Nat) : Option Nat := (h.streamChan s).map (fun ch => h.get (SMP_CH_GROUP ch))
    (List.range m).any (fun i =>
      let s := first + i
      decide (nStream ≤ s) || (h.streamChan s).isNone || !h.on (DMA_CFG_EN s) || decide (group s ≠ group first) ||
      decide (h.streamD s ≠ h.streamD first) || decide (h.capacity s < pre + 1024)) ||
    decide (len < 64 ∨ 1048576 < len) || decide (len ≤ pre) || decide (m ≤ h.get (TRG_CAP_MSTR n)) ||
    decide (h.nslots n = 0) || decide (h.get (TRG_CAP_SEG_SEG_LIMIT n) < h.get (TRG_CAP_SEG_SEG_BASE n)) ||
    caps.any (fun k => decide (k ≠ n) && decide (h.get (TRG_CAP_SEG_SEG_BASE n) ≤ h.get (TRG_CAP_SEG_SEG_LIMIT k) ∧
      h.get (TRG_CAP_SEG_SEG_BASE k) ≤ h.get (TRG_CAP_SEG_SEG_LIMIT n))) ||
    (h.on (TRG_CAP_MASK_EN n) && (decide (2048 < len) || decide (8192 < h.get (TRG_MASK_MASK_BASE n) + m * len))))

/-! ### The commands -/

def execTriggerDecide (n : Nat) (s : State) : Out := actOn s (isTrig n) (fun h => h.triggerDecide n)

def execTriggerTimeout (n : Nat) (s : State) : Out := actOn s (isTrig n) (fun h => h.triggerTimeout n)

/-- A write of TRG_RESTART: the named armed units enter their start state (R285, R313). -/
def Hw.trgRestart (h : Hw) (v : Word) : Hw :=
  h.each (List.range 16) (fun h n => h.when (natBit v.toNat n && h.armed n) (fun h => h.enterStart n))

/-- A write of TRG_FIRE: the named units have a command cause (R313). -/
def Hw.trgFire (h : Hw) (v : Word) : Hw :=
  h.each (List.range 16) (fun h n => h.when (natBit v.toNat n) (fun h => h.unitCause n .cmd))

def execTrgRestart (q : Requester) (v : Word) (s : State) : Out := accWrite s q true (fun h => h.trgRestart v)

def execTrgFire (q : Requester) (v : Word) (s : State) : Out := accWrite s q true (fun h => h.trgFire v)

end Sys2Proof.Machine
end

