-- ==== Sys2Proof/Machine/Capture.lean ====
section
/-!
DEFINITION. Segmented capture (chapter 09): allocation, copying, the mask test, the measurements with their exact
rounding, and release (R298-R310).
-/
namespace Sys2Proof.Machine

/-! ### Slots and allocation (R298-R301) -/

/-- Tiles of an entry's slot: the first, and one past the last. -/
def Hw.segSpan (h : Hw) (k : Nat) (x : SegSt) : Nat × Nat :=
  let base := h.segGet k 10 12 0
  (base, base + segTiles x.streams.length x.len)

/-- An unreleased segment holds one of the tiles. -/
def Hw.slotHeld (h : Hw) (a b : Nat) : Bool :=
  h.trg.segs.any (fun q =>
    match q.2 with
    | some x => let t := h.segSpan q.1 x; decide (t.1 < b ∧ a < t.2)
    | none => false)

/-- One capture stream of a segment that opens: the trigger index of its current era, and the indices to hold. Answers
jt beside it. -/
def Hw.openStream (h : Hw) (s pre len t : Nat) : Nat × SegStream :=
  let j0 := match (h.stream s).eras with
    | e :: _ => e.j0
    | [] => 0
  let jt := max j0 (h.indexAt s t)
  let p := min pre (jt - j0)
  (jt, { stream := s, era := h.get (STR_ERA_ERA s), first := jt - p, pre := p, want := p + len - pre, preDone := 0,
         postDone := 0, miss := [] })

/-- A trigger that finds no entry or no slot (R300). -/
def Hw.missTrigger (h : Hw) (n : Nat) (table : Bool) : Hw :=
  let u := h.unitSt n
  let h1 := h.bump (TRG_MISSED_MISSED n) 1
  if table then
    if u.fullT then h1
    else ((h1.setUnit n { u with fullT := true }).put (TRG_STAT_TFULL n) 1).raise srcSegmentTableFull n
  else if u.fullC then h1
  else ((h1.setUnit n { u with fullC := true }).put (TRG_STAT_CFULL n) 1).raise srcCaptureFull n

/-- Write the table entry of a segment that opens (R306). -/
def Hw.writeEntry (h : Hw) (k n tile jt : Nat) (r : CapReq) (x : SegSt) : Hw :=
  let cap := x.cap
  let t := r.hit.time
  let st := x.streams.head?
  let era := (st.map SegStream.era).getD 0
  let words : List Nat := [
    2 ^ 30 + 2 ^ 16 * n + 2 ^ 12 * bits cap 15 12 + bits cap 8 0,
    era, jt % 2 ^ 32, jt / 2 ^ 32,
    secOf t % 2 ^ 32, secOf t / 2 ^ 32 + 2 ^ 16 * (nsOf t % 2 ^ 16), nsOf t / 2 ^ 16 + 2 ^ 16 * (fracOf t % 2 ^ 16),
    fracOf t / 2 ^ 16 + 2 ^ 16 * r.hit.code + 2 ^ 24 * r.stateAt,
    (st.map SegStream.want).getD 0, (st.map SegStream.pre).getD 0, tile + 2 ^ 16 * bits cap 19 16]
  h.each (List.range 32) (fun h i => h.setSegWord k i (BitVec.ofNat 32 (words.getD i 0)))

/-- The next CAPTURE that waits takes the allocator. -/
def Hw.nextCapture (h : Hw) (n : Nat) : Hw :=
  let u := h.unitSt n
  (h.setUnit n { u with alloc := u.heldReq, heldReq := none }).put (TRG_STAT_HELD n) 0

/-- The allocation of a unit's CAPTURE completes (R300, R301). -/
def Hw.allocate (h : Hw) (n : Nat) : Hw :=
  match (h.unitSt n).alloc with
  | some r =>
    let h1 := h.nextCapture n
    let cap := h.reg (TRG_CAP n)
    let base := h.get (TRG_CAP_SEG_SEG_BASE n)
    let limit := h.get (TRG_CAP_SEG_SEG_LIMIT n)
    let k := (h.unitSt n).next
    let len := h.get (TRG_CAP_LEN_LEN n)
    let m := bits cap 15 12 + 1
    let size := segTiles m len
    if natBit cap.toNat 31 = false ∨ h.nslots n = 0 then h1
    else
      let tile := h.get (TRG_CAP_POOL_BASE_TILE n) + size * ((k - base) % h.nslots n)
      if h.segState k ≠ 0 then h1.missTrigger n true
      else if h.slotHeld tile (tile + size) then h1.missTrigger n false
      else
        let os := (List.range m).map (fun i => h.openStream (bits cap 8 0 + i) (h.get (TRG_CAP_PRE_PRE n)) len r.hit.time)
        let x : SegSt := { unit := n, len := len, cap := cap, meas := h.reg (TRG_MEAS n), mask := h.reg (TRG_MASK n),
                           period := h.periodNs (bits cap 8 0), epoch := h.get SYS_EPOCH_EPOCH, streams := os.map (·.2), entrySent := false, rdStream := 0,
                           rdWord := 0 }
        let jt := (os.head?.map (·.1)).getD 0
        let u := h1.unitSt n
        let h2 := h1.setUnit n { u with next := if k = limit then base else k + 1, fullT := false, fullC := false }
        ((h2.setSeg k (some x)).writeEntry k n tile jt r x).put (TRG_STAT_LAST_SEG n) k
  | none => h

/-! ### Copying (R302, R303) -/

/-- Memory word and half of word w of capture stream offset i (R299). -/
def Hw.slotPlace (h : Hw) (k i w len : Nat) : Nat × Bool :=
  let q := i * len + w
  (512 * h.segGet k 10 12 0 + q / 2, decide (q % 2 = 1))

/-- The capture engine copies the next word of capture stream offset i: a post-trigger word that has been written, else
the next pre-trigger word; none before the Burgees have decided on it (R263). A word that is no longer in the buffer leaves a
placeholder and counts as missing. -/
def Hw.copyWord (h : Hw) (k i : Nat) : Hw :=
  match h.seg k with
  | some x =>
    match x.streams[i]? with
    | some y =>
      let st := h.stream y.stream
      let era := st.eras.find? (fun e => decide (e.era = y.era) && !e.gone)
      match era with
      | some e =>
        let written (w : Nat) : Bool := decide (y.first + w < e.nextIndex st.wpos)
        let post := y.pre + y.postDone
        let isPost := decide (post < y.want) && written post
        let w := if isPost then post else y.preDone
        if h.segState k = 1 ∧ (isPost = true ∨ (y.preDone < y.pre ∧ written y.preDone = true)) then
          let pos := e.posOf (y.first + w)
          let y1 := if isPost then { y with postDone := y.postDone + 1 } else { y with preDone := y.preDone + 1 }
          let dst := h.slotPlace k i w x.len
          -- runs of words not captured that are maximal now are reported (R303)
          let save (h : Hw) (z : SegStream) : Hw :=
            let q := h.missDone z z.closedRun
            q.1.setSeg k (some { x with streams := x.streams.set i q.2 })
          if h.undecided y.stream pos then h
          else if h.inBuffer y.stream pos then
            let p := h.bufPlace y.stream pos
            let r := h.consumeHalf p.1 p.2 finderCapture
            save (r.1.memWriteHalf dst.1 dst.2 (flagWord r.2.1 r.2.2) finderCapture none) y1
          else
            let h1 := h.memWriteHalf dst.1 dst.2 (placeholder gapCapture) finderCapture none
            let h2 := (h1.segPut k 11 31 0 (h1.segGet k 11 31 0 + 1)).segPut k 0 28 28 1
            save h2 { y1 with miss := addMiss w y1.miss }
        else h
      | none => h
    | none => h
  | none => h

/-- Every capture stream holds all its words (R304). -/
def SegSt.full (x : SegSt) : Bool := x.streams.all (fun y => decide (y.pre ≤ y.preDone) && decide (y.want ≤ y.pre + y.postDone))

/-! ### The mask test (R307, R308) -/

def Hw.maskPoint (h : Hw) (p : Nat) : Word64 := storeGet (fun _ => 0) h.trg.mask p

/-- A word violates a mask point. -/
def violates (w : Word) (p : Word64) : Bool :=
  let v := toSigned 24 (bits w 31 8)
  natBit w.toNat 7 && !isPlaceholder w &&
  (decide (v < toSigned 24 (natBits p.toNat 31 8)) || decide (toSigned 24 (natBits p.toNat 63 40) < v))

/-- The held words of a capture stream, as the engine reads them. -/
def Hw.segWords (h : Hw) (k i len held : Nat) : Hw × List Word :=
  let r := h.consumeHalves ((List.range held).map (fun w => h.slotPlace k i w len)) finderCapture
  (r.1, r.2.map (fun q => flagWord q.1 q.2))

/-- The mask test of a segment: violations of each stream's words, as stream and word offsets. -/
def Hw.maskTest (h : Hw) (k : Nat) (x : SegSt) (held : Nat) : Hw :=
  let r := (List.range x.streams.length).foldl (fun (p : Hw × List (Nat × Nat)) i =>
    let q := p.1.segWords k i x.len held
    (q.1, p.2 ++ ((q.2.zip (List.range held)).filterMap (fun z =>
      if violates z.1 (q.1.maskPoint (bits x.mask 12 0 + i * x.len + z.2)) then some (i, z.2) else none)))) (h, [])
  let h1 := r.1.segPut k 0 26 26 1
  match r.2 with
  | [] => h1
  | v :: _ =>
    let h2 := ((h1.segPut k 0 27 27 1).segPut k 12 31 0 (2 ^ 28 * v.1 + v.2)).segPut k 13 31 0 r.2.length
    let h3 := (h2.put (TRG_STAT_MASK_HIT x.unit) 1).raise srcTriggerMaskViolation (2 ^ 12 * x.unit + k)
    h3.when (natBit x.cap.toNat 26) (fun h => h.stopUnit x.unit)

/-! ### Measurements (R309, R310) -/

/-- The largest r below 2^k with r^2 <= n. -/
def isqrt : Nat → Nat → Nat → Nat
  | 0, _, r => r
  | k + 1, n, r => isqrt k n (if (r + 2 ^ k) * (r + 2 ^ k) ≤ n then r + 2 ^ k else r)

/-- The square root of a / b rounded half to even. -/
def sqrtHalfEven (a b : Nat) : Nat :=
  let r := isqrt 64 (a / b) 0
  let m := (2 * r + 1) * (2 * r + 1) * b
  if 4 * a < m then r else if m < 4 * a then r + 1 else if r % 2 = 0 then r else r + 1

/-- A rational number, with a denominator above 0. -/
abbrev Rat' := Int × Nat

def ratLe (p q : Rat') : Bool := decide (p.1 * q.2 ≤ q.1 * p.2)
def ratSub (p q : Rat') : Rat' := (p.1 * q.2 - q.1 * p.2, p.2 * q.2)

/-- Position at which the line between valid neighbours a and b, each (x, v), reaches level l / s. Where both lie on the
level the spec states no position, and the free fraction `free` / 2^32 of the way stands for it. -/
def crossAt (l : Int) (s : Nat) (a b : Nat × Int) (free : Nat) : Rat' :=
  let d := (b.2 - a.2) * s
  let n := l - a.2 * s
  if 0 < d then ((a.1 : Int) * d + n * ((b.1 : Int) - a.1), d.toNat)
  else ((a.1 : Int) * 2 ^ 32 + free * ((b.1 : Int) - a.1), 2 ^ 32)

/-- The rising crossings of TH with hysteresis: each between a valid word and the one before it (R309). -/
def risings (th hy : Int) (free : Nat) : Bool → List (Nat × Int) → List Rat'
  | armed, a :: b :: rest =>
    let hit := armed && decide (th ≤ b.2)
    let armed := (armed && !hit) || decide (b.2 ≤ th - hy)
    (if hit then [crossAt th 1 a b free] else []) ++ risings th hy free armed (b :: rest)
  | _, _ => []

/-- The rising crossings of a level l / 10. -/
def crossings10 (l : Int) : List (Nat × Int) → List Rat'
  | a :: b :: rest =>
    (if 10 * a.2 < l ∧ l ≤ 10 * b.2 then [crossAt l 10 a b 0] else []) ++ crossings10 l (b :: rest)
  | _ => []

/-- The measurements of the valid words (offset, value), as words 14 and 16 to 27 of the entry, and the three NO flags. -/
structure Measured where
  words : List Nat
  noPeriod : Bool
  noRise : Bool
  noCrest : Bool
  deriving DecidableEq, Repr

def measure (vs : List (Nat × Int)) (th hy : Int) (period free : Nat) : Measured :=
  match vs with
  | [] => { words := [], noPeriod := true, noRise := true, noCrest := true }
  | first :: _ =>
    let n := vs.length
    let v := vs.map (·.2)
    let mn := v.foldl min first.2
    let mx := v.foldl max first.2
    let sum := v.foldl (· + ·) 0
    let sq := v.foldl (fun a x => a + x.natAbs * x.natAbs) 0
    let pp := (mx - mn).toNat
    let peak := max mx.natAbs mn.natAbs
    let xs := risings th hy free (decide (first.2 ≤ th - hy)) vs
    let many := decide (2 ≤ xs.length)
    let span := ratSub (xs.getLastD (0, 1)) (xs.headD (0, 1))
    let per : Rat' := (span.1, span.2 * (xs.length - 1))
    let l10 := 10 * mn + pp
    let l90 := 10 * mn + 9 * pp
    let t90 := (crossings10 l90 vs).head?
    let t10 := t90.bind (fun t => lastSome (fun u => ratLe u t) (crossings10 l10 vs))
    let rise := match t10, t90 with
      | some a, some b => if pp = 0 then none else some (ratSub b a)
      | _, _ => none
    { words := [
        ofSigned 32 mn, ofSigned 32 mx, pp, ofSigned 32 (roundHalfEven (256 * sum) n), sqrtHalfEven (65536 * sq) n,
        if sq = 0 then 0 else min (2 ^ 32 - 1) (sqrtHalfEven (2 ^ 32 * peak * peak * n) sq),
        sq / 65536 % 2 ^ 32, sq / 65536 / 2 ^ 32, xs.length,
        if many then (roundHalfEven (256 * per.1) per.2).toNat else 0,
        if many && decide (0 < per.1 ∧ 0 < period) then (roundHalfEven (1000000000000 * (per.2 : Int)) (per.1.toNat * period)).toNat else 0,
        match rise with
          | some r => (roundHalfEven (256 * r.1) r.2).toNat
          | none => 0],
      noPeriod := !many, noRise := rise.isNone, noCrest := decide (sq = 0) }

/-- The measurements of a segment. -/
def Hw.measureSeg (h : Hw) (k : Nat) (x : SegSt) (held : Nat) : Hw :=
  let r := h.segWords k (bits x.cap 19 16) x.len held
  let vs := ((List.range held).zip r.2).filterMap (fun q =>
    if natBit q.2.toNat 7 && !isPlaceholder q.2 then some (q.1, toSigned 24 (bits q.2 31 8)) else none)
  let m := measure vs (toSigned 24 (bits x.meas 31 8)) (bits x.mask 31 16) x.period (Config.freeWord r.1.draws).toNat
  let h1 := ((((r.1.draw.segPut k 0 25 25 1).segPut k 0 24 24 (b2n m.noPeriod)).segPut k 0 23 23 (b2n m.noRise)).segPut k 0 22 22
    (b2n m.noCrest)).segPut k 14 31 0 vs.length
  h1.each ((List.range 12).zip m.words) (fun h q => h.setSegWord k (16 + q.1) (BitVec.ofNat 32 q.2))

/-- The engine finishes the oldest closed segment: it reads closed, and waits for its readout or its release (R304,
R305). -/
def Hw.measureDone (h : Hw) (k : Nat) : Hw :=
  match h.trg.closing, h.seg k with
  | j :: rest, some x =>
    if j = k then
      let held := h.segGet k 8 20 0
      let h1 := h.when (natBit x.cap.toNat 25) (fun h => h.maskTest k x held)
      let h2 := h1.when (natBit x.cap.toNat 27) (fun h => h.measureSeg k x held)
      let h3 := h2.setSegState k 3
      { h3 with trg := { h3.trg with closing := rest,
                                     reading := if natBit x.cap.toNat 24 then h3.trg.reading ++ [k] else h3.trg.reading } }
    else h
  | _, _ => h

/-- A release: the entry is free and reads as at reset, and its slot is available (R305). -/
def Hw.releaseSeg (h : Hw) (k : Nat) : Hw :=
  (h.each (List.range 32) (fun h i => h.setSegWord k i 0)).setSeg k none

/-- A write of TRG_SEG_REL. -/
def Hw.segRel (h : Hw) (v : Word) : Hw :=
  let k := bits v 11 0
  match h.seg k with
  | some x => if natBit v.toNat 31 ∧ h.segState k = 3 ∧ natBit x.cap.toNat 24 = false then h.releaseSeg k else h
  | none => h

/-! ### The commands -/

def execSegmentAllocate (n : Nat) (s : State) : Out := actOn s (isTrig n) (fun h => h.when h.coreOn (fun h => h.allocate n))

def execSegmentWordCopy (k i : Nat) (s : State) : Out :=
  actOn s (isSeg k && decide (i < 16)) (fun h => h.when h.coreOn (fun h => h.copyWord k i))

def execSegmentClose (k : Nat) (s : State) : Out :=
  actOn s (isSeg k) (fun h => h.when (h.coreOn && (h.seg k).any SegSt.full) (fun h => h.closeSeg k false))

def execSegmentMeasureDone (k : Nat) (s : State) : Out :=
  actOn s (isSeg k) (fun h => h.when h.coreOn (fun h => h.measureDone k))

def execTrgSegRel (q : Requester) (v : Word) (s : State) : Out := accWrite s q true (fun h => h.segRel v)

end Sys2Proof.Machine
end

