-- ==== Sys2Proof/Machine/CinchCode.lean ====
section
/-!
DEFINITION. The Cinch block as bytes (chapter 11): the predictor and its inverse (R359, R360), the static code with its
decoder (R361 to R363), the encoder's search (R364), a partial job block (R377), and the layout of a block (R357).
-/
namespace Sys2Proof.Machine

/-! ### The predictor (R359, R360) -/

/-- prev1, prev2 and the tag. -/
structure PredSt where
  prev1 : Nat
  prev2 : Nat
  tag : Nat
  deriving DecidableEq, Repr

def pred0 : PredSt := { prev1 := 0, prev2 := 0, tag := 0x80 }

/-- The prediction of the next 24-bit value. -/
def PredSt.next (p : PredSt) (pred : Nat) : Int := if pred = 2 then 2 * (p.prev1 : Int) - p.prev2 else p.prev1

/-- A signed residual or value of 24 bits. -/
def wrap24 (i : Int) : Int := (i + 2 ^ 23) % 2 ^ 24 - 2 ^ 23

/-- A field in groups of 7 bits, low group first; at most `fuel + 1` bytes. -/
def varint : Nat → Nat → List Byte
  | 0, f => [BitVec.ofNat 8 (f % 128)]
  | fuel + 1, f => if f < 128 then [BitVec.ofNat 8 f] else BitVec.ofNat 8 (128 + f % 128) :: varint fuel (f / 128)

/-- The bytes of one word, and the state after it. -/
def PredSt.encode (p : PredSt) (pred : Nat) (w : Word) : List Byte × PredSt :=
  let v := bits w 31 8
  let tag := bits w 7 0
  let r := wrap24 ((v : Int) - p.next pred)
  let zz := if 0 ≤ r then (2 * r).toNat else (-2 * r - 1).toNat
  let t := tag ≠ p.tag
  (varint 3 (2 * zz + b2n t) ++ (if t then [BitVec.ofNat 8 tag] else []), { prev1 := v, prev2 := p.prev1, tag := tag })

/-- The predicted stream of input words. -/
def predictFrom (pred : Nat) : PredSt → List Word → List Byte
  | _, [] => []
  | p, w :: ws => let r := p.encode pred w; r.1 ++ predictFrom pred r.2 ws

/-- The bytes of input words, least significant byte first. -/
def wordBytes (ws : List Word) : List Byte := ws.flatMap (fun w => leBytes 4 w.toNat)

def predictStream (pred : Nat) (ws : List Word) : List Byte :=
  if pred = 0 then wordBytes ws else predictFrom pred pred0 ws

/-- Read a field of groups of 7 bits: the field and the rest; none where a further byte would follow the last allowed. -/
def readVarint : Nat → List Byte → Option (Nat × List Byte)
  | _, [] => none
  | 0, _ => none
  | fuel + 1, b :: rest =>
    if b.toNat < 128 then some (b.toNat, rest)
    else (readVarint fuel rest).map (fun r => (b.toNat % 128 + 128 * r.1, r.2))

/-- The inverse predictor: `n` words, which use every byte. -/
def unpredictFrom (pred : Nat) : Nat → PredSt → List Byte → Option (List Byte)
  | 0, _, l => if l.isEmpty then some [] else none
  | n + 1, p, l =>
    (readVarint 4 l).bind (fun q =>
      let t := q.1 % 2
      let zz := q.1 / 2
      let r : Int := if zz % 2 = 0 then ((zz / 2 : Nat) : Int) else -(((zz + 1) / 2 : Nat) : Int)
      let v := ofSigned 24 (wrap24 (p.next pred + r))
      let tagged : Option (Nat × List Byte) := if t = 0 then some (p.tag, q.2) else q.2.head?.map (fun b => (b.toNat, q.2.tail))
      tagged.bind (fun z =>
        (unpredictFrom pred n { prev1 := v, prev2 := p.prev1, tag := z.1 } z.2).map
          (fun out => leBytes 4 (v * 256 + z.1) ++ out)))

/-- The input bytes that a predicted stream stands for; none: malformed. -/
def unpredict (pred ulen : Nat) (p : List Byte) : Option (List Byte) :=
  if pred = 0 then (if p.length = ulen then some p else none) else unpredictFrom pred (ulen / 4) pred0 p

/-! ### The static code (R361, R362) -/

/-- The bits of bytes in reading order: each byte from bit 0 to bit 7. -/
def codeBits (l : List Byte) : List Bool := l.flatMap (fun b => (List.range 8).map (natBit b.toNat))

/-- A field of n bits, least significant first: its value and the rest. -/
def takeField : Nat → List Bool → Option (Nat × List Bool)
  | 0, l => some (0, l)
  | _ + 1, [] => none
  | n + 1, b :: l => (takeField n l).map (fun r => (b2n b + 2 * r.1, r.2))

/-- A field with a base value. -/
def takeFrom (base n : Nat) (l : List Bool) : Option (Nat × List Bool) := (takeField n l).map (fun r => (base + r.1, r.2))

/-- The length code. -/
def takeLen : List Bool → Option (Nat × List Bool)
  | false :: l => takeFrom 4 2 l
  | true :: false :: l => takeFrom 8 4 l
  | true :: true :: false :: l => takeFrom 24 6 l
  | true :: true :: true :: l => takeFrom 88 8 l
  | _ => none

/-- The distance code; x ≤ 15,295 in the longest. -/
def takeDist : List Bool → Option (Nat × List Bool)
  | false :: l => takeFrom 1 6 l
  | true :: false :: l => takeFrom 65 10 l
  | true :: true :: l => (takeFrom 1089 14 l).bind (fun r => if r.1 ≤ 16384 then some r else none)
  | _ => none

/-- Copy `n` bytes from `d` back, one at a time; the newest byte stands first. -/
def copyBack : Nat → Nat → List Byte → List Byte
  | 0, _, out => out
  | n + 1, d, out => copyBack n d (out.getD (d - 1) 0 :: out)

/-- Decode tokens until `left` bytes have been produced; what is left over must be fewer than 8 bits, all 0. `out` holds
the bytes produced, the newest first, and `made` their number. -/
def detoken : Nat → Nat → Nat → List Byte → List Bool → Option (List Byte)
  | 0, left, _, out, l => if left = 0 ∧ l.length < 8 ∧ l.all (!·) then some out.reverse else none
  | fuel + 1, left, made, out, l =>
    if left = 0 then (if l.length < 8 ∧ l.all (!·) then some out.reverse else none)
    else match l with
      | false :: r => (takeField 4 r).bind (fun q => detoken fuel (left - 1) (made + 1) (BitVec.ofNat 8 q.1 :: out) q.2)
      | true :: false :: r =>
        (takeField 8 r).bind (fun q => detoken fuel (left - 1) (made + 1) (BitVec.ofNat 8 q.1 :: out) q.2)
      | true :: true :: r =>
        (takeLen r).bind (fun n => (takeDist n.2).bind (fun d =>
          if n.1 ≤ left ∧ d.1 ≤ made then detoken fuel (left - n.1) (made + n.1) (copyBack n.1 d.1 out) d.2 else none))
      | _ => none

/-- The predicted stream of `plen` bytes that a payload codes. -/
def decodePayload (plen : Nat) (payload : List Byte) : Option (List Byte) := detoken plen plen 0 [] (codeBits payload)

/-! ### The encoder (R361, R362, R364) -/

/-- A token: a byte, or a copy of bytes some distance back. -/
inductive Token where
  | literal (b : Byte)
  | copy (len dist : Nat)
  deriving DecidableEq, Repr

/-- A field of n bits, least significant first. -/
def fieldBits (n x : Nat) : List Bool := (List.range n).map (natBit x)

def lenBits (n : Nat) : List Bool :=
  if n < 8 then false :: fieldBits 2 (n - 4)
  else if n < 24 then [true, false] ++ fieldBits 4 (n - 8)
  else if n < 88 then [true, true, false] ++ fieldBits 6 (n - 24)
  else [true, true, true] ++ fieldBits 8 (n - 88)

def distBits (d : Nat) : List Bool :=
  if d < 65 then false :: fieldBits 6 (d - 1)
  else if d < 1089 then [true, false] ++ fieldBits 10 (d - 65)
  else [true, true] ++ fieldBits 14 (d - 1089)

/-- The bits of a token; the longer form of a literal only from 0x10 on. -/
def Token.bits : Token → List Bool
  | .literal b => if b.toNat < 16 then false :: fieldBits 4 b.toNat else [true, false] ++ fieldBits 8 b.toNat
  | .copy n d => [true, true] ++ lenBits n ++ distBits d

/-- Bytes that a token stands for. -/
def Token.size : Token → Nat
  | .literal _ => 1
  | .copy n _ => n

/-- Chain depth of a level (R364). -/
def chainDepth (level : Nat) : Nat := [0, 1, 2, 4, 8, 16, 32, 64, 256, 1024].getD level 0

/-- The hash of the four bytes at a position. -/
def hashAt (p : List Byte) (i : Nat) : Nat :=
  Config.cinchHash (p.getD i 0) (p.getD (i + 1) 0) (p.getD (i + 2) 0) (p.getD (i + 3) 0)

/-- Bytes from position `i` on that equal those `d` back, 343 at most. -/
def matchLen (p : List Byte) (i d : Nat) : Nat → Nat
  | 0 => 0
  | fuel + 1 =>
    let k := 343 - (fuel + 1)
    if i + k < p.length ∧ p.getD (i + k) 0 = p.getD (i + k - d) 0 then 1 + matchLen p i d fuel else 0

/-- The match at a position: among the nearest positions of the last 16,384 bytes with the same hash, as many as the chain
depth allows, the longest of at least 4 bytes, and the nearest among equals: length and distance. -/
def findMatch (level : Nat) (p : List Byte) (i : Nat) : Option (Nat × Nat) :=
  if p.length < i + 4 then none
  else
    let near := ((List.range (min i 16384)).map (· + 1)).filter (fun d => decide (hashAt p (i - d) = hashAt p i))
    (near.take (chainDepth level)).foldl (fun best d =>
      let n := matchLen p i d 343
      if n < 4 then best
      else match best with
        | some (m, _) => if m < n then some (n, d) else best
        | none => some (n, d)) none

/-- The token at a position: at levels 5 to 9 a match is deferred by one literal when the next position has a longer one. -/
def tokenAt (level : Nat) (p : List Byte) (i : Nat) : Token :=
  match findMatch level p i with
  | some (n, d) =>
    if 5 ≤ level ∧ (findMatch level p (i + 1)).any (fun q => decide (n < q.1)) then .literal (p.getD i 0) else .copy n d
  | none => .literal (p.getD i 0)

/-- The tokens of a predicted stream from a position on. -/
def tokensFrom (level : Nat) (p : List Byte) : Nat → Nat → List Token
  | 0, _ => []
  | fuel + 1, i =>
    if p.length ≤ i then []
    else
      let t := tokenAt level p i
      t :: tokensFrom level p fuel (i + t.size)

/-- Bits as bytes, each filled from bit 0 on; the rest of the last byte is 0. -/
def packBits : Nat → List Bool → List Byte
  | 0, _ => []
  | _ + 1, [] => []
  | fuel + 1, l => BitVec.ofNat 8 (((l.take 8).zip (List.range 8)).foldl (fun a q => a + b2n q.1 * 2 ^ q.2) 0) :: packBits fuel (l.drop 8)

/-- The payload that codes a predicted stream, of which a part may be coded already (R377). -/
def codedPayload (level : Nat) (saved : Nat × List Bool) (p : List Byte) : List Byte :=
  let l := saved.2 ++ (tokensFrom level p p.length saved.1).flatMap Token.bits
  packBits l.length l

/-! ### The block (R357) -/

/-- What a block's header carries beside its lengths and checks. -/
structure BlockHead where
  kind : Nat
  id : Nat
  sub : Nat
  first : Nat
  last : Bool
  flagged : Bool
  level : Nat
  pred : Nat
  /-- what is coded of it already: predicted bytes, and their bits (R377) -/
  saved : Nat × List Bool
  deriving DecidableEq, Repr

/-- A block's bytes with its padding: TYPE, PLEN and the payload. -/
def blockBytes (b : BlockHead) (type plen : Nat) (input payload : List Byte) : List Byte :=
  let head := leBytes 2 0xC17C ++ [1, BitVec.ofNat 8 (64 * type + 16 * b.pred + b.level)] ++ leBytes 4 input.length ++
    leBytes 4 plen ++ leBytes 4 payload.length ++
    [BitVec.ofNat 8 (64 * b.kind + 32 * b2n b.flagged + 16 * b2n b.last), 0] ++
    leBytes 2 b.id ++ leBytes 2 b.sub ++ zeros 2 ++ leBytes 8 b.first ++ leBytes 4 (crc32c input)
  let body := head ++ payload
  let whole := body ++ leBytes 4 (crc32c body)
  whole ++ zeros ((8 - whole.length % 8) % 8)

/-- How an input is coded at a level: not at all (level 0, or a payload that reaches ULEN, R358), coded, or coded with a
result that the internal decoder does not turn back into the input (R366). -/
inductive Coding where
  | stored
  | coded (plen : Nat) (payload : List Byte)
  | mismatch
  deriving DecidableEq, Repr

/-- The coder's result, which the engine's own decoder has read (R366): unless it has been upset on the way. -/
def codeInput (level pred : Nat) (saved : Nat × List Bool) (ws : List Word) : Coding :=
  let input := wordBytes ws
  let p := predictStream pred ws
  let cand := codedPayload level saved p
  if level = 0 ∨ input.length ≤ cand.length then .stored
  else if Config.cinchUpset level p then .mismatch
  else match (decodePayload p.length cand).bind (unpredict pred input.length) with
    | some out => if crc32c out = crc32c input ∧ out.length = input.length then .coded p.length cand else .mismatch
    | none => .mismatch

/-- The block that the engine writes in the end, and whether the self-check failed on the way. -/
def makeBlock (b : BlockHead) (ws : List Word) : List Byte × Bool :=
  let input := wordBytes ws
  match codeInput b.level b.pred b.saved ws with
  | .coded plen payload => (blockBytes b 1 plen input payload, false)
  | .stored => (blockBytes b 0 0 input input, false)
  | .mismatch => (blockBytes b 0 0 input input, true)

/-- The payload bytes as they come out of the coder before the block is complete (R377). -/
def partPayload (b : BlockHead) (ws : List Word) : List Byte :=
  match codeInput b.level b.pred b.saved ws with
  | .stored => wordBytes ws
  | _ => codedPayload b.level b.saved (predictStream b.pred ws)

/-- The tokens that the coder has made when `room` payload bytes are full, the one that did not fit among them: the bytes of
the predicted stream that they stand for, and their bits. -/
def fillBits (room : Nat) (saved : Nat × List Bool) : List Token → Nat × List Bool
  | [] => saved
  | t :: ts => if 8 * room < saved.2.length then saved else fillBits room (saved.1 + t.size, saved.2 ++ t.bits) ts

/-- Input words that the first `n` bytes of their predicted stream need. -/
def wordsFor (pred : Nat) (ws : List Word) (n : Nat) : Nat :=
  ((List.range (ws.length + 1)).find? (fun k => decide (n ≤ (predictStream pred (ws.take k)).length))).getD ws.length

/-- The state of a block that stops where `room` payload bytes are full (R377): the input words read, and what is coded. The
engine has read the words of the tokens it has made, and no others: DESIGN CHOICE (log 193). -/
def stopState (b : BlockHead) (room : Nat) (ws : List Word) : Nat × Nat × List Bool :=
  match codeInput b.level b.pred b.saved ws with
  | .stored => (if b.level = 0 then min ws.length (room / 4 + 1) else ws.length, 0, [])
  | _ =>
    let p := predictStream b.pred ws
    let r := fillBits room b.saved (tokensFrom b.level p p.length b.saved.1)
    (wordsFor b.pred ws r.1, r)

end Sys2Proof.Machine
end

