-- ==== Sys2Proof/Machine/Cinch.lean ====
section
/-!
DEFINITION. Cinch (chapter 11): the engine's three channels, the history pool and its directory (R368 to R373), segment
readout (R374, R446), jobs (R375 to R378), and what a commit changes (R371).
-/
namespace Sys2Proof.Machine

/-- The most bytes a block takes (R358). -/
abbrev blockMost : Nat := 65576
/-- Bytes of a fragment (R446, R448). -/
abbrev fragBytes : Nat := 4080

/-! ### Bytes in capture memory -/

/-- Write whole 64-bit words at rising word addresses. -/
def Hw.writeBytes (h : Hw) (word : Nat → Nat) (bytes : List Byte) : Hw :=
  h.each (List.range (bytes.length / 8)) (fun h i =>
    h.memWrite (word i) (BitVec.ofNat 64 (leAt bytes (8 * i) 8)) finderConsumer none)

/-- Read `n` bytes (a multiple of 8) as a consumer: the bytes, and whether a word is flagged. -/
def Hw.readBytes (h : Hw) (word : Nat → Nat) (n : Nat) : Hw × List Byte × Bool :=
  let r := h.consumeWords ((List.range (n / 8)).map word) finderConsumer
  (r.1, r.2.flatMap (fun q => leBytes 8 q.1.toNat), r.2.any (fun q => q.2))

/-- Input words read as a consumer; a flagged data word of a predicted block loses VALID (R370). -/
def Hw.takeInput (h : Hw) (place : Nat → Nat × Bool) (pred n : Nat) : Hw × List Word × Bool :=
  let r := h.consumeHalves ((List.range n).map place) finderConsumer
  (r.1, r.2.map (fun q => if pred = 0 then q.1 else flagWord q.1 q.2), r.2.any (fun q => q.2))

/-! ### History (R368 to R373) -/

/-- Memory word of a byte offset in the history pool. -/
def Hw.histWord (h : Hw) (off : Nat) : Nat := 512 * h.get MEM_HIST_POOL_BASE_TILE + off / 8

def Hw.dirEntry (h : Hw) (e : Nat) : Option HistBlk := storeGet (fun _ => none) h.cin.dir e

/-- Replace a directory entry; HIST_ENTRIES follows (R380). -/
def Hw.setDir (h : Hw) (e : Nat) (b : Option HistBlk) : Hw :=
  let h1 := { h with cin := { h.cin with dir := storeSet (fun _ => none) h.cin.dir e b } }
  h1.put CIN_STATUS_HIST_ENTRIES h1.cin.dir.length

/-- A directory entry as 32 bytes (R373). -/
def HistBlk.bytes (b : HistBlk) : List Byte :=
  leBytes 2 (2 ^ 15 + b.stream) ++ leBytes 2 b.era ++ leBytes 2 b.count ++ zeros 2 ++ leBytes 8 b.first ++
  leBytes 4 b.offset ++ leBytes 4 b.size ++ leBytes 4 b.age ++ zeros 4

/-- Where the next history block starts (R372). -/
def Hw.histPlace (h : Hw) : Nat := if h.cin.nextOff + blockMost ≤ h.histPool then h.cin.nextOff else 0

/-- How many history blocks were made after one of a given AGE, which counts modulo 2^32 (R373). -/
def Hw.blocksSince (h : Hw) (age : Nat) : Nat := (h.cin.nextAge + 2 ^ 32 - age) % 2 ^ 32

/-- The oldest block of the directory. -/
def Hw.oldest (h : Hw) : Option (Nat × HistBlk) :=
  h.cin.dir.foldl (fun (r : Option (Nat × HistBlk)) q =>
    match q.2, r with
    | some b, some (_, c) => if h.blocksSince c.age < h.blocksSince b.age then some (q.1, b) else r
    | some b, none => some (q.1, b)
    | none, _ => r) none

/-- Backfill is sending the block of a directory entry. -/
def Hw.sendingEntry (h : Hw) (e : Nat) : Bool := h.str.backfill.any (fun r => r.sending.any (fun x => decide (x.1 = e)))

/-- Discard the oldest blocks until a block may start at `place`; none while backfill still sends one of them (R372). -/
def Hw.makeRoom (place : Nat) : Nat → Hw → Option Hw
  | 0, _ => none
  | fuel + 1, h =>
    let used := h.cin.dir.any (fun q => q.2.any (fun b => decide (b.offset < place + blockMost ∧ place < b.offset + b.size)))
    if used || (h.dirEntry (h.cin.nextAge % 1024)).isSome then
      match h.oldest with
      | some (e, _) => if h.sendingEntry e then none else Hw.makeRoom place fuel (h.setDir e none)
      | none => some h
    else some h

/-- The streams whose history blocks are due, in the order of service (R365). -/
def Hw.histOrder (h : Hw) : List Nat :=
  let noted := h.cin.due.filter (fun s => h.histDue s)
  noted ++ (List.range nStream).filter (fun s => h.histDue s && !noted.contains s)

/-- The history channel has a block that it may start. -/
def Hw.histWaits (h : Hw) : Bool := (Hw.makeRoom h.histPlace 1025 h).isSome && !h.histOrder.isEmpty

/-- The engine takes a block. -/
def Hw.setBlock (h : Hw) (b : CinBlock) : Hw := ({ h with cin := { h.cin with block := some b } }).put CIN_STATUS_CHANNEL b.chan

/-- Start a history block of the stream whose turn it is (R365): its positions are taken (R368), once the Burgees have decided
on them (R263), flagged words as R370 says. -/
def Hw.histStart (h : Hw) (s : Nat) : Hw :=
  if h.cin.block.isSome || decide (h.histOrder.head? ≠ some s) ||
      (h.histNext s).any (fun q => decide (h.takeLimit s (h.stream s).hpos < (h.stream s).hpos + q.2.1)) then h
  else
    let place := h.histPlace
    match Hw.makeRoom place 1025 h, h.histNext s with
    | some h1, some (e, n, last) =>
      let x := h1.stream s
      let pred := h1.get CIN_CTL_HIST_PRED
      let r := h1.takeInput (fun i => h1.bufPlace s (x.hpos + i)) pred n
      let b : CinBlock := {
        chan := 1, id := s, sub := e.era, first := e.indexOf x.hpos, last := last, flagged := r.2.2,
        level := h1.get CIN_CTL_HIST_LEVEL, pred := pred, input := r.2.1, place := place,
        epoch := ((x.mark x.hpos).map WordMark.epoch).getD 0, saved := (0, []) }
      let h2 := r.1.setStream s { r.1.stream s with hpos := x.hpos + n }
      -- a block taken without loss: a later loss raises again (R369)
      let h3 := { h2 with cin := { h2.cin with missRaised := storeSet (fun _ => false) h2.cin.missRaised s false,
                                               due := h2.cin.due.filter (fun y => decide (y ≠ s)) } }
      (h3.noteDue s).setBlock b
    | _, _ => h

/-! ### Segment readout (R374, R446) -/

/-- The head of a SEGMENT frame. -/
def segHead (k part : Nat) (flg lastf : Bool) (sofs block off blen : Nat) : List Byte :=
  beBytes 2 k ++ [BitVec.ofNat 8 part, BitVec.ofNat 8 (2 * b2n flg + b2n lastf)] ++ beBytes 2 sofs ++ beBytes 2 block ++
  beBytes 4 off ++ beBytes 4 blen

/-- The 128 bytes of a segment's entry (R306, R9). -/
def Hw.segEntry (h : Hw) (k : Nat) : List Byte := (List.range 32).flatMap (fun i => leBytes 4 (h.segWord k i).toNat)

def Hw.segFrame (h : Hw) (x : SegSt) (payload : List Byte) (flg : Bool) : Frame :=
  { h.ownFrame 0x13 5 (h.get STR_CTL_DEST) false x.epoch payload with flg := flg }

/-- A segment's readout is over: it is released (R305, R446). -/
def Hw.readoutOver (h : Hw) (k : Nat) : Hw :=
  let h1 := h.releaseSeg k
  { h1 with trg := { h1.trg with reading := h1.trg.reading.filter (fun j => decide (j ≠ k)) } }

/-- A segment waits for the engine: the first of the closed ones, while the staging buffer is free. -/
def Hw.segWaits (h : Hw) : Bool := h.cin.staging.isNone && !h.trg.reading.isEmpty

/-- Words held by each capture stream of a segment. -/
def Hw.segHeld (h : Hw) (k : Nat) : Nat := h.segGet k 8 20 0

/-- The entry frame of a segment goes first; a segment that holds no words ends with it. -/
def Hw.sendEntry (h : Hw) (k : Nat) (x : SegSt) : Hw :=
  let q := h.enqueue (h.segFrame x (segHead k 0 false false 0 0 0 0 ++ h.segEntry k) false)
  if q.2 then
    if q.1.segHeld k = 0 then q.1.readoutOver k else q.1.setSeg k (some { x with entrySent := true })
  else q.1

/-- The engine starts the next readout block of the segment at the head of the readout. -/
def Hw.segStart (h : Hw) (k : Nat) : Hw :=
  if h.cin.block.isSome || h.histWaits || !h.segWaits || decide (h.trg.reading.head? ≠ some k) then h
  else match h.seg k with
    | some x0 =>
      let h1 := if x0.entrySent then h else h.sendEntry k x0
      match h1.seg k with
      | some x =>
        if x.entrySent then
          let held := h1.segHeld k
          let n := min blockWords (held - x.rdWord)
          let pred := h1.get CIN_CTL_SEG_PRED
          let r := h1.takeInput (fun i => h1.slotPlace k x.rdStream (x.rdWord + i) x.len) pred n
          r.1.setBlock {
            chan := 2, id := k, sub := x.rdStream, first := x.rdWord, last := decide (x.rdWord + n = held),
            flagged := r.2.2, level := r.1.get CIN_CTL_SEG_LEVEL, pred := pred, input := r.2.1,
            place := x.rdWord / blockWords, epoch := x.epoch, saved := (0, []) }
        else h1
      | none => h1
    | none => h

/-- The queue has accepted the last fragment of a segment block: the next block, or the release. -/
def Hw.segBlockSent (h : Hw) (o : SegOut) : Hw :=
  let h1 := { h with cin := { h.cin with staging := none } }
  match h1.seg o.seg with
  | some x =>
    if x.rdWord + o.words < h1.segHeld o.seg then h1.setSeg o.seg (some { x with rdWord := x.rdWord + o.words })
    else if x.rdStream + 1 < x.streams.length then
      h1.setSeg o.seg (some { x with rdStream := x.rdStream + 1, rdWord := 0 })
    else h1.readoutOver o.seg
  | none => h1

/-- Fragments pass from the staging buffer to the queue while class 5 has room. -/
def Hw.segPump : Nat → Hw → Hw
  | 0, h => h
  | fuel + 1, h =>
    match h.cin.staging with
    | some o =>
      match h.seg o.seg with
      | some x =>
        if h.room 5 then
          let part := slice o.bytes o.off fragBytes
          let lastf := decide (o.bytes.length ≤ o.off + fragBytes)
          let p := segHead o.seg 1 o.flagged lastf o.sofs o.block o.off o.bytes.length ++ part
          let h1 := (h.enqueue (h.segFrame x p o.flagged)).1
          if lastf then h1.segBlockSent o
          else Hw.segPump fuel { h1 with cin := { h1.cin with staging := some { o with off := o.off + fragBytes } } }
        else h
      | none => { h with cin := { h.cin with staging := none } }
    | none => h

/-! ### Jobs (R375 to R378) -/

/-- The ring's size in bytes, and the memory word of a byte count. -/
def Hw.ring (h : Hw) : Nat := 4096 * h.get MEM_WORK_POOL_LEN_TILES
def Hw.ringWord (h : Hw) (count : Nat) : Nat := 512 * h.get MEM_WORK_POOL_BASE_TILE + count % h.ring / 8
/-- Bytes that the ring holds, and those it has free. -/
def Hw.ringUsed (h : Hw) : Nat := (h.get CIN_OUT_WR_WR + 2 ^ 32 - h.get CIN_OUT_RD_RD) % 2 ^ 32
def Hw.ringFree (h : Hw) : Nat := h.ring - h.ringUsed

def Hw.setJob (h : Hw) (j : Option JobSt) : Hw := { h with cin := { h.cin with job := j } }

/-- The head of a BULK frame (R448). -/
def bulkHead (bseq off blen : Nat) (flg lastf backfill : Bool) : List Byte :=
  beBytes 4 bseq ++ beBytes 4 off ++ beBytes 4 blen ++ [BitVec.ofNat 8 (2 * b2n flg + b2n lastf), BitVec.ofNat 8 (b2n backfill)] ++
  zeros 2

def Hw.bulkFrame (h : Hw) (dest : Option Nat) (epoch : Nat) (flg : Bool) (payload : List Byte) : Frame :=
  { h.ownFrame 0x15 7 (dest.getD (h.get STR_CTL_DEST)) false epoch payload with flg := flg }

/-- The number of the next BULK block (R448). -/
def Hw.nextBseq (h : Hw) : Hw × Nat := ({ h with net := { h.net with bseq := (h.net.bseq + 1) % 2 ^ 32 } }, h.net.bseq)

/-- Fragments of complete job blocks pass to the queue while class 7 has room; OUT_RD follows each block (R376). -/
def Hw.jobPump : Nat → Hw → Hw
  | 0, h => h
  | fuel + 1, h =>
    match h.cin.job with
    | some j =>
      match j.toSend with
      | (size, epoch, flg) :: rest =>
        if h.room 7 then
          let q := if j.off = 0 then h.nextBseq else (h, j.bseq)
          let rd := q.1.get CIN_OUT_RD_RD
          let n := min fragBytes (size - j.off)
          let r := q.1.readBytes (fun i => q.1.ringWord (rd + j.off + 8 * i)) n
          let lastf := decide (size ≤ j.off + fragBytes)
          let p := bulkHead q.2 j.off size flg lastf false ++ r.2.1
          let h1 := (r.1.enqueue (r.1.bulkFrame j.dest epoch (flg || r.2.2) p)).1
          if lastf then
            Hw.jobPump fuel ((h1.put CIN_OUT_RD_RD (rd + size)).setJob
              (some { j with toSend := rest, off := 0, bseq := q.2, freed := j.freed + size }))
          else Hw.jobPump fuel (h1.setJob (some { j with off := j.off + fragBytes, bseq := q.2 }))
        else h
      | [] => h
    | none => h

/-- The engine takes the job's next block where nothing of the other channels waits: words read now, after those that a partial
block which is continued has read before (R365, R375, R377). -/
def Hw.jobTake (h : Hw) : Hw :=
  match h.cin.job with
  | some j =>
    if h.cin.block.isSome || h.histWaits || h.segWaits || decide (h.get CIN_JOB_STAT_STATE ≠ 1) then h
    else
      let n := min blockWords (j.words - j.done)
      let place (i : Nat) : Nat × Bool := ((j.src + j.done + i) / 2, decide ((j.src + j.done + i) % 2 = 1))
      let b : CinBlock := j.partBlock.getD {
        chan := 3, id := h.get CIN_JOB_STAT_JOBNO, sub := 0, first := j.done, last := decide (j.done + n = j.words),
        flagged := false, level := j.level, pred := j.pred, input := [], place := 0, epoch := h.get SYS_EPOCH_EPOCH, saved := (0, []) }
      let k := b.input.length
      let r := h.takeInput (fun i => place (k + i)) j.pred (n - k)
      let h1 := r.1.when r.2.2 (fun h => h.put CIN_JOB_STAT_FLAGGED 1)
      (h1.setJob (some { j with partBlock := none })).setBlock { b with input := b.input ++ r.2.1, flagged := b.flagged || r.2.2 }
  | none => h

/-- A write of GO: the job starts, or is refused (R375). -/
def Hw.jobGo (h : Hw) (dest : Option Nat) : Hw :=
  let src := h.get CIN_JOB_SRC_SRC
  let n := h.get CIN_JOB_LEN_WORDS
  let st := h.get CIN_JOB_STAT_STATE
  if st = 1 ∨ st = 2 ∨ 6291456 < src + n ∨ n = 0 ∨ h.get MEM_WORK_POOL_LEN_TILES < 17 ∨ 9 < h.get CIN_JOB_CTL_LEVEL ∨
      h.get CIN_JOB_CTL_PRED = 3 then h.flag CIN_JOB_STAT_REFUSED
  else
    let h1 := h.put CIN_JOB_STAT_JOBNO (h.get CIN_JOB_STAT_JOBNO + 1)
    let h2 := ((h1.put CIN_JOB_IN_IN 0).put CIN_JOB_OUT_OUT 0).put CIN_OUT_WR_WR 0
    let h3 := (((h2.put CIN_OUT_RD_RD 0).put CIN_JOB_STAT_STATE 1).put CIN_JOB_STAT_MID 0).put CIN_JOB_STAT_FLAGGED 0
    (h3.setJob (some {
      src := src, words := n, level := h.get CIN_JOB_CTL_LEVEL, pred := h.get CIN_JOB_CTL_PRED,
      send := h.on CIN_JOB_CTL_SEND, dest := dest, done := 0, partBlock := none, partSize := 0, toSend := [], off := 0, bseq := 0,
      freed := 0 })).jobTake

/-- A stopped job continues: from the saved state, or from the partial block's first word. One whose next byte still does not
fit stops again at once (R377). -/
def Hw.jobResume (h : Hw) (mode : Bool) : Hw :=
  match h.cin.job with
  | some j =>
    if h.get CIN_JOB_STAT_STATE = 2 then
      let j1 := { j with partBlock := if mode then none else j.partBlock, partSize := if mode then 0 else j.partSize, freed := 0 }
      if h.ringFree ≤ j1.partSize then h.setJob (some j1)
      else (((h.setJob (some j1)).put CIN_JOB_STAT_STATE 1).put CIN_JOB_STAT_MID 0).jobTake
    else h
  | none => h

/-- A running or stopped job ends; complete blocks stay in the ring (R378). -/
def Hw.jobAbort (h : Hw) : Hw :=
  let st := h.get CIN_JOB_STAT_STATE
  if st = 1 ∨ st = 2 then
    let h1 := (h.put CIN_JOB_STAT_STATE 4).put CIN_JOB_STAT_MID 0
    let h2 := h1.setJob (h1.cin.job.map (fun (j : JobSt) => { j with partBlock := none }))
    -- a block of the job in the engine is discarded
    if h2.cin.block.any (fun (b : CinBlock) => decide (b.chan = 3)) then
      ({ h2 with cin := { h2.cin with block := none } }).put CIN_STATUS_CHANNEL 0
    else h2
  else h

/-- A write of CIN_JOB_CTL: the RW fields, then what the written command bits ask (R378: more than one is ABORT). -/
def Hw.jobCtl (h : Hw) (dest : Option Nat) (v : Word) : Hw :=
  let h1 := h.writeRw CIN_JOB_CTL 0x1000013F v
  let n := bits v 31 29
  if n = 0 then h1
  else if n = 4 then h1.jobGo dest
  else if n = 2 then h1.jobResume (h1.on CIN_JOB_CTL_MODE)
  else h1.jobAbort

/-- A write of CIN_OUT_RD (R376). -/
def Hw.outRd (h : Hw) (v : Word) : Hw :=
  if h.cin.job.any (fun j => j.send) then h
  else
    let rd := h.get CIN_OUT_RD_RD
    if (v.toNat + 2 ^ 32 - rd) % 2 ^ 32 ≤ h.ringUsed then h.put CIN_OUT_RD_RD v.toNat else h.flag CIN_JOB_STAT_REFUSED

/-! ### A block is complete (R365, R366) -/

def CinBlock.head (b : CinBlock) : BlockHead :=
  { kind := if b.chan = 3 then 0 else b.chan, id := b.id, sub := b.sub, first := b.first, last := b.last, flagged := b.flagged,
    level := b.level, pred := b.pred, saved := b.saved }

/-- A history block goes into the pool and the directory (R372, R373). -/
def Hw.histDone (h : Hw) (b : CinBlock) (bytes : List Byte) : Hw :=
  let h1 := h.writeBytes (fun i => h.histWord (b.place + 8 * i)) bytes
  let e := h1.cin.nextAge % 1024
  let blk : HistBlk := {
    stream := b.id, era := b.sub, count := b.input.length, first := b.first, offset := b.place,
    size := bytes.length, age := h1.cin.nextAge, epoch := b.epoch, flagged := b.flagged }
  let h2 := h1.setDir e (some blk)
  { h2 with cin := { h2.cin with nextOff := b.place + bytes.length, nextAge := (h2.cin.nextAge + 1) % 2 ^ 32 } }

/-- A segment block passes to the staging buffer, and from there to the queue. -/
def Hw.segDone (h : Hw) (b : CinBlock) (bytes : List Byte) : Hw :=
  let o : SegOut := {
    seg := b.id, sofs := b.sub, block := b.place, bytes := bytes, off := 0, flagged := b.flagged,
    words := b.input.length }
  let h1 := Hw.segPump 32 { h with cin := { h.cin with staging := some o } }
  h1.when h1.cin.staging.isSome (fun h => h.noRoom 5)

/-- A job block is written to the ring, or the job stops where a byte does not fit: what fits of the payload stands in
its place after OUT_WR (R377). -/
def Hw.jobDone (h : Hw) (b : CinBlock) (bytes : List Byte) : Hw :=
  match h.cin.job with
  | some j =>
    let wr := h.get CIN_OUT_WR_WR
    let free := h.ringFree
    if free < bytes.length then
      let p := (partPayload b.head b.input).take (free - 36)
      let z := stopState b.head (free - 36) b.input
      let h1 := h.each (List.range (p.length / 4)) (fun h i =>
        let c := wr + 36 + 4 * i
        h.memWriteHalf (h.ringWord c) (decide (c % 8 = 4)) (BitVec.ofNat 32 (leAt p (4 * i) 4)) finderConsumer none)
      ((h1.put CIN_JOB_STAT_STATE 2).put CIN_JOB_STAT_MID 1).setJob (some { j with
        partBlock := some { b with input := b.input.take z.1, saved := z.2 }, partSize := free, freed := 0 })
    else
      let n := b.input.length
      let h1 := h.writeBytes (fun i => h.ringWord (wr + 8 * i)) bytes
      let h2 := ((h1.put CIN_OUT_WR_WR (wr + bytes.length)).put CIN_JOB_IN_IN (j.done + n)).put CIN_JOB_OUT_OUT
        (h1.get CIN_JOB_OUT_OUT + bytes.length)
      let h3 := h2.setJob (some { j with
        done := j.done + n
        toSend := if j.send then j.toSend ++ [(bytes.length, b.epoch, b.flagged)] else j.toSend })
      let h4 := Hw.jobPump 40 (h3.when b.last (fun h => h.put CIN_JOB_STAT_STATE 3))
      h4.when (h4.cin.job.any (fun j => !j.toSend.isEmpty)) (fun h => h.noRoom 7)
  | none => h

/-- The engine completes its block, and takes the next of a job if nothing else is due. -/
def Hw.blockDone (h : Hw) : Hw :=
  match h.cin.block with
  | some b =>
    let r := makeBlock b.head b.input
    let h1 := ({ h with cin := { h.cin with block := none } }).put CIN_STATUS_CHANNEL 0
    let h2 := h1.when r.2 (fun h => h.cinchError 1 b.chan b.id)
    let h3 := if b.chan = 1 then h2.histDone b r.1 else if b.chan = 2 then h2.segDone b r.1 else h2.jobDone b r.1
    h3.jobTake
  | none => h.jobTake

/-- What Cinch hands to the queue once it has room again. -/
def Hw.cinPump (h : Hw) : Hw := Hw.jobPump 200 (Hw.segPump 32 h)

/-! ### Commits (R371, R378) -/

/-- What a commit changes for Cinch; `old` is the hub before it. -/
def Hw.cinCommit (h old : Hw) : Hw :=
  -- history that ends leaves its untaken positions; history that begins takes what the buffer still holds of the rest
  let h1 := h.each (List.range nStream) (fun h s =>
    let x := h.stream s
    let was := old.on (STR_CFG_HIST s)
    let on := h.on (STR_CFG_HIST s)
    if (was && !on) || (old.on (DMA_CFG_EN s) && !h.on (DMA_CFG_EN s)) then h.setStream s { x with hpos := x.wpos }
    else if on && !was && h.on (DMA_CFG_EN s) then h.setStream s { x with hpos := max (max x.hpos x.floor) (x.wpos - h.capacity s) }
    else h)
  let h2 := h1.when (decide (h1.reg MEM_HIST_POOL ≠ old.reg MEM_HIST_POOL)) (fun h =>
    let hist := h.cin.block.any (fun b => decide (b.chan = 1))
    let h1 : Hw := { h with
      cin := { h.cin with dir := [], nextOff := 0, nextAge := 0, block := if hist then none else h.cin.block }
      str := { h.str with backfill := h.str.backfill.map (fun r => { r with sending := none }) } }
    (h1.put CIN_STATUS_HIST_ENTRIES 0).when hist (fun h => h.put CIN_STATUS_CHANNEL 0))
  let h3 := h2.when (decide (h2.reg MEM_WORK_POOL ≠ old.reg MEM_WORK_POOL)) (fun h =>
    let h1 := h.jobAbort
    h1.setJob (h1.cin.job.map (fun (j : JobSt) => { j with toSend := [], off := 0 })))
  h3.each (List.range nStream) Hw.noteDue

/-- Settings that fail with FAIL_CODE 0x7 (R367, R328). -/
def cinOutOfRange (h : Hw) : Bool :=
  let hp := h.get MEM_HIST_POOL_LEN_TILES
  decide (9 < h.get CIN_CTL_SEG_LEVEL ∨ 9 < h.get CIN_CTL_HIST_LEVEL ∨ h.get CIN_CTL_SEG_PRED = 3 ∨ h.get CIN_CTL_HIST_PRED = 3 ∨
    (0 < hp ∧ hp < 17)) ||
  (decide (hp = 0) && (List.range nStream).any (fun s => h.on (STR_CFG_HIST s)))

/-- Least throughput of a level in bytes per microsecond (R364). -/
def cinRate (level : Nat) : Nat := [12000, 3000, 2400, 1800, 1350, 900, 600, 380, 240, 150].getD level 0

/-- The history load in bytes per microsecond: 4 bytes for each output of a channel stream with HIST = 1, and, where an
auxiliary stream with HIST = 1 exists, 250 for each position in use, any of which may lend it slack (R230, R367). -/
def histLoad (h : Hw) : Rat' :=
  let aux := h.auxStreams.any (fun s => h.on (STR_CFG_HIST s))
  let positions := ((List.range 8).filter (fun p => decide (h.get ⟨ADC_MAP, 4 * p + 3, 4 * p⟩ ≠ 15))).length
  (List.range nStream).foldl (fun (r : Rat') s =>
    let p := h.periodNs s
    if h.on (STR_CFG_HIST s) && decide (0 < p) then (r.1 * p + 4000 * r.2, r.2 * p) else r)
    (if aux then 250 * positions else 0, 1)

/-- FAIL_CODE 0x4 (R367). -/
def historyOver (h : Hw) : Bool :=
  let l := histLoad h
  !ratLe (2 * l.1, l.2) (cinRate (h.get CIN_CTL_HIST_LEVEL), 1)

/-! ### The commands -/

def execHistBlockStart (s : Nat) (st : State) : Out :=
  actOn st (isStream s) (fun h => h.when h.coreOn (fun h => h.histStart s))

def execSegBlockStart (k : Nat) (s : State) : Out := actOn s (isSeg k) (fun h => h.when h.coreOn (fun h => h.segStart k))

def execCinchBlockDone (s : State) : Out := actOn s true (fun h => h.when h.coreOn Hw.blockDone)

/-- Where the answers to a register write go: to the source of its frame, or, from MSPI and JTAG, to STR_CTL.DEST. -/
def answerTo (q : Requester) (src : Nat) : Option Nat :=
  match q with
  | .portA => some (src % 65536)
  | .portB => some (src % 65536)
  | _ => none

/-- A write of CIN_JOB_CTL (R375, R377, R378). -/
def execCinJobGo (q : Requester) (src : Nat) (v : Word) (s : State) : Out :=
  accWrite s q true (fun h => h.jobCtl (answerTo q src) v)

/-- A write of CIN_JOB_CTL without GO. -/
def execCinJobResume (q : Requester) (v : Word) (s : State) : Out :=
  accWrite s q true (fun h => h.when (!natBit v.toNat 31) (fun h => h.jobCtl none v))

/-- A write of CIN_JOB_CTL with ABORT. -/
def execCinJobAbort (q : Requester) (v : Word) (s : State) : Out :=
  accWrite s q true (fun h => h.when (natBit v.toNat 29) (fun h => h.jobCtl none v))

/-- With SEND = 1 a stopped job goes on by itself once egress has freed 4 KiB (R377). -/
def execCinJobAutoResume (s : State) : Out :=
  actOn s true (fun h => h.when (h.coreOn && h.cin.job.any (fun j => j.send && decide (4096 ≤ j.freed))) (fun h => h.jobResume false))

def execCinOutRdWrite (q : Requester) (v : Word) (s : State) : Out := accWrite s q true (fun h => h.outRd v)

end Sys2Proof.Machine
end

