-- ==== Sys2Proof/Machine/Backfill.lean ====
section
/-!
DEFINITION. Backfill (R274 to R276): the queue of requests and their resolution, index by index.
-/
namespace Sys2Proof.Machine

/-- A write of STR_BF_CTL: the four words are one value (R17), and GO = 1 submits the request, unless it asks for no index
(R274, R281). A refused request has no other effect than REFUSED. Answers the status (1: BUSY). -/
def Hw.backfillWrite (h : Hw) (q : Requester) (dest : Option Nat) (v : Word) : Hw × Nat :=
  let w (a : Nat) := h.heldOr q a (h.reg a)
  let lo := w STR_BF_FIRST_LO
  let hi := w STR_BF_FIRST_HI
  let n := w STR_BF_COUNT
  let h1 := (((h.dropHeld q STR_BF_FIRST_LO 4).setReg STR_BF_FIRST_LO lo).setReg STR_BF_FIRST_HI hi).setReg STR_BF_COUNT n
  let h2 := h1.writeRw STR_BF_CTL 0x1FFFFFF v
  if natBit v.toNat 31 ∧ n ≠ 0 then
    if h2.str.backfill.length < 4 then
      let r : BfReq := { stream := bits v 24 16, era := bits v 15 0, first := (word64 lo hi).toNat, count := n.toNat,
                         dest := dest, sending := none, cut := false }
      ({ h2 with str := { h2.str with backfill := h2.str.backfill ++ [r] } }, 0)
    else (h.flag STR_BF_STATUS_REFUSED, 1)
  else (h2, 0)

/-- Replace the request that is being served; one that is answered in full leaves the queue. -/
def Hw.setServed (h : Hw) (r : BfReq) : Hw :=
  { h with str := { h.str with backfill := if r.count = 0 then h.str.backfill.tail else r :: h.str.backfill.tail } }

/-- The request after `n` of its indices have been answered. -/
def BfReq.past (r : BfReq) (n : Nat) : BfReq := { r with first := r.first + n, count := r.count - n }

def Hw.bfDest (h : Hw) (r : BfReq) : Nat := r.dest.getD (h.get STR_CTL_DEST)

/-- Answer `n` indices with a gap record. -/
def Hw.bfGap (h : Hw) (r : BfReq) (reason epoch n : Nat) : Hw :=
  let q := h.enqueue (h.gapFrame (h.bfDest r) epoch (gapBytes r.stream r.era reason r.first n))
  q.1.when q.2 (fun h => h.setServed (r.past n))

/-- The directory entry of a block that holds an index of the era, and the first index above it that some block holds. -/
def Hw.histFind (h : Hw) (s era j : Nat) : Option (Nat × HistBlk) :=
  let hit := h.cin.dir.find? (fun q => q.2.any (fun b =>
    decide (b.stream = s ∧ b.era = era ∧ b.first ≤ j ∧ j < b.first + b.count)))
  hit.bind (fun q => q.2.map (fun b => (q.1, b)))

def Hw.histAbove (h : Hw) (s era j lim : Nat) : Nat :=
  h.cin.dir.foldl (fun m q =>
    match q.2 with
    | some b => if b.stream = s ∧ b.era = era ∧ j < b.first ∧ b.first < m then b.first else m
    | none => m) lim

/-- The first index of an era whose position is still in the buffer; one past `last` where none of the era is any more. -/
def Hw.bufStart (h : Hw) (s : Nat) (e : Era) (last : Nat) : Nat :=
  let x := h.stream s
  if e.gone then last else e.indexOf (max (x.wpos - h.capacity s) (max x.floor e.startPos))

/-- Indices from the request's first on that a history block answers: those that it holds and that are overwritten (R275). -/
def Hw.bfAnswered (h : Hw) (r : BfReq) (b : HistBlk) : Nat :=
  let last := b.first + b.count
  match (h.stream r.stream).eras.find? (fun e => decide (e.era = r.era)) with
  | some e => min r.count (max 1 (min last (h.bufStart r.stream e last) - r.first))
  | none => min r.count (last - r.first)

/-- The next fragment of a history block; after its last, the indices that the block answers are past (R275, R448). -/
def Hw.bfFragment (h : Hw) (r : BfReq) (e : Nat) (b : HistBlk) (off bseq : Nat) : Hw :=
  if h.room 7 then
    let n := min fragBytes (b.size - off)
    let q := h.readBytes (fun i => h.histWord (b.offset + off + 8 * i)) n
    let lastf := decide (b.size ≤ off + fragBytes)
    let p := bulkHead bseq off b.size b.flagged lastf true ++ q.2.1
    let h1 := (q.1.enqueue (q.1.bulkFrame r.dest b.epoch (b.flagged || q.2.2) p)).1
    if lastf then h1.setServed { r.past (h1.bfAnswered r b) with sending := none }
    else h1.setServed { r with sending := some (e, off + fragBytes, bseq) }
  else h.noRoom 7

/-- Serve the next run of the request's indices (R275). -/
def Hw.bfRun (h : Hw) (r : BfReq) : Hw :=
  let s := r.stream
  let x := h.stream s
  let j := r.first
  let now := h.get SYS_EPOCH_EPOCH
  let notHeld (n : Nat) := h.bfGap r gapNotHeld now n
  match (x.eras.take 4).find? (fun e => decide (e.era = r.era)) with
  | none => notHeld r.count
  | some e =>
    let next := e.nextIndex x.wpos
    if j < e.j0 then notHeld (min r.count (e.j0 - j))
    else if next ≤ j then
      if e.endPos.isSome || e.gone then notHeld r.count
      else (h.setServed (r.past r.count)).bump STR_BF_CLIPPED_CLIPPED r.count
    else
      let pos := e.posOf j
      let n := min r.count (next - j)
      if e.gone = false ∧ x.rpos ≤ pos then (h.setServed (r.past n)).bump STR_BF_CLIPPED_CLIPPED n
      else if e.gone = false ∧ h.inBuffer s pos = true then
        let run := h.runLen s pos (min x.rpos (pos + n)) (x.frameMax pos)
        let w := h.bufPeek s pos
        let ep := ((x.mark pos).map WordMark.epoch).getD now
        -- the placeholders are read like any other word (R331, R339)
        if isPlaceholder w then (h.bufRead s pos run).1.bfGap r (bits w 31 8) ep run
        else if h.classFill 2 < 64 then
          let q := h.bufRead s pos run
          let f := q.1.ownFrame 0x10 2 (q.1.bfDest r) false ep (q.1.streamPayload s pos true e q.2.1)
          let z := q.1.enqueue { f with flg := q.2.2 }
          z.1.when z.2 (fun h => h.setServed (r.past run))
        else h
      else match h.histFind s r.era j with
        | some (k, b) =>
          let q := h.nextBseq
          if h.room 7 then q.1.bfFragment r k b 0 q.2 else h.noRoom 7
        | none =>
          -- not held up to the next index that history or the buffer holds
          let start := h.bufStart s e (j + n)
          let lim := min (j + n) (if j < start then start else j + n)
          notHeld (h.histAbove s r.era j lim - j)

/-- Serve the oldest request by one frame, record or clip (R274 to R276). -/
def Hw.serve (h : Hw) : Hw :=
  match h.str.backfill with
  | [] => h
  | r :: _ =>
    if r.count = 0 then h.setServed r
    else if r.cut then h.bfGap r gapNotHeld (h.get SYS_EPOCH_EPOCH) r.count
    else match r.sending with
      | some (e, off, bseq) =>
        match h.dirEntry e with
        | some b => h.bfFragment r e b off bseq
        | none => h.setServed { r with sending := none }
      | none => h.bfRun r

/-- A commit that moves, resizes or disables the buffer cuts the request that is being served (R276). -/
def Hw.backfillCommit (h old : Hw) : Hw :=
  match h.str.backfill with
  | r :: rest =>
    let a := DMA_CFG r.stream
    if old.on (DMA_CFG_EN r.stream) && decide (h.reg a ≠ old.reg a) then
      { h with str := { h.str with backfill := { r with cut := true } :: rest } }
    else h
  | [] => h

/-! ### The commands -/

def execBackfillSubmit (q : Requester) (src : Nat) (v : Word) (s : State) : Out :=
  let r := s.hw.backfillWrite q (answerTo q src) v
  if s.hw.writable q then .next { s with hw := r.1, rdata := [], status := r.2 }
  else .next { s with rdata := [], status := 0 }

def execBackfillServe (s : State) : Out := actOn s true (fun h => h.when h.coreOn Hw.serve)

end Sys2Proof.Machine
end

