-- ==== Sys2Proof/Machine/Lanes.lean ====
section
/-!
DEFINITION. The Halyard ports below the frame (chapter 12): training, lanes and width, equalisation, tracking, sleep and
wake.
-/
namespace Sys2Proof.Machine

def Hw.linkState (h : Hw) (p : Port) : Nat := h.get (LNK_STATUS_STATE (portNo p))
def Hw.up (h : Hw) (p : Port) : Bool := decide (h.linkState p = 4)
def Hw.healthy (h : Hw) (p : Port) : Nat := h.get (LNK_STATUS_HEALTHY (portNo p))
def Hw.active (h : Hw) (p : Port) : Nat := h.get (LNK_STATUS_ACTIVE (portNo p))
def Hw.txAsleep (h : Hw) (p : Port) : Bool := h.on (LNK_STATUS_TX_ASLEEP (portNo p))

/-- The SerDes runs: the OTP read is over and REFCLK has not been lost (R591, R656). -/
def Hw.linkOn (h : Hw) : Bool := h.live && decide (h.boot.phase ≠ .otp) && !h.boot.refclkLost

def Hw.setLinkState (h : Hw) (p : Port) (s : Nat) : Hw :=
  let h1 := h.put (LNK_STATUS_STATE (portNo p)) s
  h1.setPort p { h1.port p with stateSince := h1.ns }

/-! ### Training (R397) -/

def Hw.trainMs (h : Hw) (p : Port) : Nat := msNs (h.get (LNK_TIMING_TRAIN_MS (portNo p)))

/-- DOWN ends after 10 us: MCOUNT counts anew, and the training limit runs. -/
def Hw.downEnd (h : Hw) (p : Port) : Hw :=
  if h.linkState p = 0 ∧ h.due ((h.port p).stateSince + 10000) = true then
    let h1 := h.each [0, 1, 2, 3, 4] (fun h l => h.setLane p l { h.lane p l with mcount := 0, prec := 0, half := none, eq := h.reg (LNK_EQ (portNo p) l) })
    (h1.setPort p { h1.port p with leftDown := h1.ns, slot := 0, slotAt := 100 * h1.ns }).setLinkState p 1
  else h

/-- The clock lane receiver is locked, and has been for `heldNs` ns: CLK_LOCK reads 1, and CLOCK ends once it has held lock
for 100 us (R397, R415). -/
def Hw.clockLocked (h : Hw) (p : Port) (heldNs : Nat) : Hw :=
  let n := portNo p
  if h.linkState p = 1 then
    let h1 := h.when (!h.on (LNK_STATUS_CLK_LOCK n)) (fun h => h.setPort p { h.port p with clkSince := h.ns - heldNs })
    (h1.put (LNK_STATUS_CLK_LOCK n) 1).when
      (decide (100000 ≤ heldNs) || (h.on (LNK_STATUS_CLK_LOCK n) && h.due ((h.port p).clkSince + 100000)))
      (fun h => h.setLinkState p 2)
  else h

/-- The lanes that have achieved all four steps of R397: phase lock, block lock, slicer calibration, deskew. -/
def Hw.lockedLanes (h : Hw) (p : Port) : Nat := [0, 1, 2, 3].foldl (fun m l => m + b2n (decide (4 ≤ (h.lane p l).lockStep)) * 2 ^ l) 0

/-- The lanes' receivers have come as far in LOCK as `steps` says: a lane that has achieved the four steps in turn is healthy.
LOCK ends with all lanes healthy, or after 8 ms with at least one. -/
def Hw.lockDone (h : Hw) (p : Port) (steps : List Nat) : Hw :=
  let n := portNo p
  if h.linkState p = 2 then
    let h1 := h.each [0, 1, 2, 3] (fun h l => h.setLane p l { h.lane p l with lockStep := max (h.lane p l).lockStep (steps.getD l 0) })
    let m := h1.lockedLanes p
    let h2 := (h1.put (LNK_STATUS_HEALTHY n) m).each [0, 1, 2, 3] (fun h l => h.put (LNK_LANE_LOCKED n l) (b2n (natBit m l)))
    h2.when (decide (m = 15 ∨ (m ≠ 0 ∧ h.due ((h.port p).stateSince + 8000000) = true))) (fun h => h.setLinkState p 3)
  else h

/-- WIDTH_DEGRADED is raised as the width of a port in UP falls below 4, but not for a lane that is out for re-equalisation;
its cause stays until the width is 4 again (R400, R406). -/
def Hw.degraded (h : Hw) (p : Port) : Hw :=
  let n := portNo p
  let i := srcPortWidthDegraded n
  let missing := (List.range 4).any (fun l => !natBit (h.active p) l && !(h.lane p l).reEq)
  if h.up p && missing && !h.present i then
    (h.put (LNK_EVT_WIDTH_DEGRADED n) 1).raise i (h.get (LNK_STATUS_WIDTH n))
  else if h.up p && decide (h.active p = 15) then h.causeEnd i
  else h

/-- A lane of a port in UP that is out of HEALTHY counts toward its readmission (R408). -/
def Hw.countReadmit (h : Hw) (p : Port) (l : Nat) : Hw :=
  let n := portNo p
  ((h.put (LNK_LANE_READMIT n l) 1).put (LNK_LANE_GOOD_MS n l) 0).setLane p l { h.lane p l with goodSince := h.ns }

/-! ### What the receivers hear (R387, R390, R394, R395) -/

/-- What a port has received: the hub with its receivers' state, the striped blocks in the order of their numbers, the good
markers, and for each lane the reference levels of its qualified symbols. -/
structure Heard where
  hw : Hw
  striped : List RxBlock
  marks : List Marker
  refs : List (List (Option Int))
  deriving DecidableEq, Repr

/-- One lane of a port listens. A missing or bad AM restarts the count of a lane that is out of HEALTHY (R408). -/
def Heard.lane (p : Port) (lvs : List (List Int)) (a : Heard) (l : Nat) : Heard :=
  let h := a.hw
  let r := (h.lane p l).listen l (h.port p).rxSet (natBit (h.active p) l) (lvs.getD l [])
  let h1 := (h.setLane p l r.1.lane).when (decide (0 < r.1.bad) && h.up p && !natBit (h.healthy p) l) (fun h => h.countReadmit p l)
  { hw := h1, striped := a.striped ++ r.1.striped, marks := a.marks ++ r.1.marks, refs := a.refs ++ [r.2] }

/-- The lanes of a port receive levels, `lvs` for lanes 0 to 3 in turn: all that they have received since the last command
that carried some (log 180). An immediate or wake AM names the lanes on which the partner stripes from then on. -/
def Hw.hear (h : Hw) (p : Port) (lvs : List (List Int)) : Heard :=
  let r := [0, 1, 2, 3].foldl (Heard.lane p lvs) ({ hw := h, striped := [], marks := [], refs := [] } : Heard)
  let set := (r.marks.filter (fun m => decide (m.ctype = ctypeAm ∧ (m.kind = 1 ∨ m.kind = 2)))).getLast?
  { r with
    hw := match set with
      | some m => r.hw.setPort p { r.hw.port p with rxSet := m.active }
      | none => r.hw
    striped := stripeOrder r.striped }

/-- Idle blocks are skipped (R392). -/
def RxBlock.idle (b : RxBlock) : Bool := b.control && decide (beAt b.body 0 1 = ctypeIdle ∨ beAt b.body 0 1 = ctypeRich)

/-- The SOF block with which what was heard ends. -/
def Heard.sof (r : Heard) : Option RxBlock :=
  (r.striped.filter (fun b => !b.idle)).getLast?.filter (fun b => b.control && decide (beAt b.body 0 1 = ctypeSof))

/-- The bytes of the data blocks heard. -/
def Heard.data (r : Heard) : List Byte := (r.striped.filter (fun b => !b.control)).flatMap (fun b => b.body)

/-- A control block that ends the frame in progress was heard: ABORT, or a reserved type (R391, R392). -/
def Heard.aborts (r : Heard) : Bool :=
  r.striped.any (fun b => b.control && !b.idle && !decide (beAt b.body 0 1 = ctypeSof))

/-- The last good marker of a kind heard. -/
def Heard.mark (r : Heard) (ok : Marker → Bool) : Option Marker := (r.marks.filter ok).getLast?

/-- The partner's AMs show WIDTH or UP: immediate AMs with ACTIVE = HEALTHY AND the partner's, and UP; with no lane in
both, DOWN. -/
def Hw.portUp (h0 : Hw) (p : Port) (ph : Nat) : Hw :=
  let n := portNo p
  let h := h0.fillLanes p
  if h.linkState p = 3 then
    let a := h.healthy p &&& (ph % 16)
    if a = 0 then h.portDown p
    else
      let h1 := ((h.put (LNK_STATUS_P_HEALTHY n) ph).put (LNK_STATUS_ACTIVE n) a).put (LNK_STATUS_WIDTH n) (popCount 4 a)
      let x := h1.port p
      let h2 := (h1.setPort p { x with b0 := x.block, told := h1.healthy p, idleSince := h1.ns, crcCount := 0, crcStart := some h1.ns }).setLinkState p 4
      let h3 := (h2.causeEnd (srcPortClockLaneLoss n)).sendMarker p ctypeAm 1
      let h4 := h3.each [0, 1, 2, 3] (fun h l => h.when (!natBit (h.healthy p) l) (fun h => h.countReadmit p l))
      (h4.degraded p).control
  else h

/-- UP is not reached within TRAIN_MS. -/
def Hw.trainFail (h : Hw) (p : Port) : Hw :=
  let n := portNo p
  let s := h.linkState p
  if 1 ≤ s ∧ s ≤ 3 ∧ h.due ((h.port p).leftDown + h.trainMs p) = true then
    ((h.put (LNK_EVT_TRAINING_FAIL n) 1).raise (srcPortTrainingFail n) s).portDown p
  else h

/-- Clock-lane loss (R405). -/
def Hw.clockLoss (h : Hw) (p : Port) : Hw :=
  let n := portNo p
  if h.on (LNK_STATUS_CLK_LOCK n) then
    ((h.put (LNK_EVT_CLOCK_LANE_LOSS n) 1).raise (srcPortClockLaneLoss n) 0).portDown p
  else h

/-- A write of LNKx_CTL: RICH_EVERY at once, MIN_WIDTH staged, RETRAIN to DOWN (R412). -/
def Hw.linkCtl (h : Hw) (p : Port) (v : Word) : Hw :=
  let a := LNK_CTL (portNo p)
  (((h.fillLanes p).writeRw a 0xF0000 v).stage a 0x7 v).when (natBit v.toNat 31) (fun h => h.portDown p)

/-! ### Lanes and width (R404, R406, R408) -/

/-- A lane leaves HEALTHY; the frame being received is discarded (R392). -/
def Hw.loseLane (h : Hw) (p : Port) (l : Nat) : Hw :=
  let n := portNo p
  let h1 := (h.put (LNK_STATUS_HEALTHY n) (natPut (h.healthy p) l l 0)).put (LNK_LANE_LOCKED n l) 0
  (h1.when (natBit (h.active p) l) (fun h => h.dropRx p)).countReadmit p l

/-- A data lane goes down (R404). On a lane that is out already, a bad AM restarts its count (R408). While the partner has the
lanes asleep, loss of signal and markers are not checked, but for the wake AMs, which come within 2 us of the signal's
return, `backNs` ns ago, or the lane goes down (R411). -/
def Hw.laneDown (h : Hw) (p : Port) (l cause backNs : Nat) : Hw :=
  let n := portNo p
  if h.up p = false then h
  else if natBit (h.healthy p) l = false then h.countReadmit p l
  else if h.on (LNK_STATUS_RX_ASLEEP n) = true ∧ (cause % 4 = 0 ∨ (cause % 4 = 2 ∧ backNs < 2000)) then h
  else
    let h1 := ((h.put (LNK_LANE_CAUSE n l) cause).bump (LNK_LANE_DOWN_COUNT n l) 1).put (LNK_EVT_LANE_DOWN n) 1
    (h1.loseLane p l).raise (srcPortLaneDown n) (4 * (cause % 4) + l)

/-- Lanes that are out of the active set for re-equalisation take their new values (R400). -/
def Hw.takeCells (h : Hw) (p : Port) : Hw :=
  h.each ([0, 1, 2, 3].filter (fun l => (h.lane p l).reEq && !natBit (h.active p) l)) (fun h l =>
    h.setLane p l { h.lane p l with eq := h.reg (LNK_EQ (portNo p) l) })

/-- The port restripes over ACTIVE = HEALTHY AND the partner's HEALTHY (R406): a WIDTH block announces HEALTHY, frames in
progress are discarded, and immediate AMs announce ACTIVE and b0; with no lane left the port then goes to DOWN. -/
def Hw.restripe (h : Hw) (p : Port) : Hw :=
  let n := portNo p
  let a := h.healthy p &&& h.get (LNK_STATUS_P_HEALTHY n)
  if h.up p = false then h
  else
    let h1 := h.when (!h.txAsleep p) (fun h => h.sendMarker p ctypeWidth 0)
    let h2 := h1.setPort p { h1.port p with told := h1.healthy p }
    if a = h.active p then h2
    else
      let h3 := ((h2.dropRx p).put (LNK_STATUS_ACTIVE n) a).put (LNK_STATUS_WIDTH n) (popCount 4 a)
      let x := h3.port p
      -- a frame that the port was cutting through is abandoned (R407)
      let h4 := h3.setPort p { x with b0 := x.block, fwd := x.fwd.filter (fun e => !e.started) }
      let h5 := (h4.bump (LNK_WIDTH_CHG_CHANGES n) 1).when (!h4.txAsleep p) (fun h => h.sendMarker p ctypeAm 1)
      let h6 := (h5.takeCells p).degraded p
      if a = 0 then h6.portDown p else h6.control

/-- HEALTHY has changed since it was last announced, or no longer matches ACTIVE. -/
def Hw.widthStale (h : Hw) (p : Port) : Bool :=
  decide ((h.port p).told ≠ h.healthy p ∨ h.active p ≠ h.healthy p &&& h.get (LNK_STATUS_P_HEALTHY (portNo p)))

/-- A WIDTH block or AM with the partner's HEALTHY and RECAL. -/
def Hw.widthBlock (h : Hw) (p : Port) (ph recal : Nat) : Hw :=
  let n := portNo p
  if h.linkState p = 0 then h
  else
    let was := h.get (LNK_STATUS_P_HEALTHY n)
    let h1 := (h.put (LNK_STATUS_P_HEALTHY n) ph).put (LNK_STATUS_P_RECAL n) recal
    h1.when (decide (was ≠ ph % 16)) (fun h => h.restripe p)

/-- 10 ms of good training AMs are complete (R408). -/
def Hw.readmit (h : Hw) (p : Port) (l : Nat) : Hw :=
  let n := portNo p
  if h.up p && !natBit (h.healthy p) l && h.due ((h.lane p l).goodSince + 10000000) then
    let h1 := (h.put (LNK_STATUS_HEALTHY n) (natPut (h.healthy p) l l 1)).put (LNK_LANE_LOCKED n l) 1
    let h2 := (h1.put (LNK_LANE_READMIT n l) 0).put (LNK_LANE_GOOD_MS n l) 10
    h2.setLane p l { h2.lane p l with reEq := false, prevHigh := none }
  else h

/-! ### Equalisation (R398, R400) -/

/-- One field of a cell steps one code toward its target. -/
def stepField (hi lo now goal : Nat) : Nat :=
  let a := natBits now hi lo
  let b := natBits goal hi lo
  natPut now hi lo (if a < b then a + 1 else if b < a then a - 1 else a)

/-- Every field of a cell steps one code (R400). -/
def stepCell (now goal : Nat) : Nat :=
  [(23, 20), (19, 16), (14, 10), (9, 4), (3, 0)].foldl (fun c f => stepField f.1 f.2 c goal) now

/-- The next lane to re-equalise begins to leave the active set (R400); its new values apply once it has left, under R406. A
lane that is out of the active set already takes them at once. -/
def Hw.reEqualise (h : Hw) (p : Port) (l : Nat) : Hw :=
  let n := portNo p
  let changed (k : Nat) : Bool := decide ((h.lane p k).eq ≠ h.reg (LNK_EQ n k))
  if !h.up p || !changed l then h
  else if !natBit (h.active p) l then h.setLane p l { h.lane p l with eq := h.reg (LNK_EQ n l) }
  else if !natBit (h.healthy p) l then h
  else if (List.range 4).any (fun k => (h.lane p k).reEq || (decide (k < l) && changed k)) then h
  else if popCount 4 (natPut (h.active p) l l 0) < h.get (LNK_CTL_MIN_WIDTH n) then h
  else
    let g := h.loseLane p l
    g.setLane p l { g.lane p l with reEq := true }

/-- A changed clock-lane cell steps every 100 us. -/
def Hw.clockStep (h : Hw) (p : Port) : Hw :=
  let x := h.lane p 4
  let goal := h.reg (LNK_EQ (portNo p) 4)
  if h.up p && decide (x.eq ≠ goal) && h.due (x.goodSince + 100000) then
    h.setLane p 4 { x with eq := BitVec.ofNat 32 (stepCell x.eq.toNat goal.toNat), goodSince := h.ns }
  else h

/-! ### Tracking (R401 to R403) -/

/-- The offset field of a threshold (0 lower, 1 middle, 2 upper) or of the phase (3). -/
def trkFld (n l which : Nat) : Fld :=
  match which with
  | 0 => LNK_TRK_THR_L n l
  | 1 => LNK_TRK_THR_M n l
  | 2 => LNK_TRK_THR_U n l
  | _ => LNK_TRK_PHASE n l

/-- An offset has reached the bound (R402). -/
def Hw.atBound (h : Hw) (p : Port) (l : Nat) : Hw :=
  let n := portNo p
  let x := h.lane p l
  let h1 := h.when (!h.on (LNK_TRK_RECAL_PEND n l)) (fun h => h.setLane p l { x with recalSince := h.ns })
  let h2 := (h1.put (LNK_TRK_RECAL_PEND n l) 1).put (LNK_STATUS_MY_RECAL n) (natPut (h1.get (LNK_STATUS_MY_RECAL n)) l l 1)
  if x.boundRaised then h2
  else ((h2.setLane p l { h2.lane p l with boundRaised := true }).put (LNK_EVT_TRACK_BOUND n) 1).raise (srcPortTrackBound n) l

/-- An offset takes a value within its bound. -/
def Hw.setOffset (h : Hw) (p : Port) (l which : Nat) (v : Int) : Hw :=
  let w := clampInt (-8) 8 v
  let h1 := h.put (trkFld (portNo p) l which) (ofSigned 5 w)
  h1.when (decide (w.natAbs = 8)) (fun h => h.atBound p l)

def Hw.offset (h : Hw) (p : Port) (l which : Nat) : Int := toSigned 5 (h.get (trkFld (portNo p) l which))

/-- An accumulator after one more step, and the tap that it gives when it reaches 4,096 either way. -/
def accStep (acc : Int) (up : Bool) : Int × Int :=
  let a := acc + (if up then 1 else -1)
  if a = 4096 then (0, 1) else if a = -4096 then (0, -1) else (a, 0)

/-- One qualified symbol of reference level `level` (R401): the thresholds next to it, then the phase. -/
def Hw.trackOne (h : Hw) (p : Port) (level : Int) (o : TrackObs) : Hw :=
  let x := h.lane p o.lane
  let place := ([-3, -1, 1, 3] : List Int).findIdx? (fun r => decide (r = level))
  match place with
  | some r =>
    if natBit (h.active p) o.lane = false ∨ 4 ≤ o.lane then h
    else
      let above := decide (x.expected.getD r 0 < o.sample)
      let step (k : Nat) (acc : Int) : Int × Int := if r = k ∨ r = k + 1 then accStep acc above else (acc, 0)
      let tl := step 0 x.accL
      let tm := step 1 x.accM
      let tu := step 2 x.accU
      let high := decide (2 ≤ r)
      let tp := if x.prevHigh = some (!high) then accStep x.pacc o.edge else (x.pacc, 0)
      let h1 := h.setLane p o.lane { x with accL := tl.1, accM := tm.1, accU := tu.1, pacc := tp.1, prevHigh := some high }
      [(0, tl.2), (1, tm.2), (2, tu.2), (3, -tp.2)].foldl (fun h (q : Nat × Int) =>
        h.when (decide (q.2 ≠ 0)) (fun h => h.setOffset p o.lane q.1 (h.offset p o.lane q.1 + q.2))) h1
  | none => h

/-- The observations of symbols that were heard; those of qualified symbols update tracking (R401). -/
def Hw.track (h : Hw) (p : Port) (refs : List (List (Option Int))) (obs : List TrackObs) : Hw :=
  h.each obs (fun h o =>
    match (refs.getD o.lane []).getD o.sym none with
    | some r => h.trackOne p r o
    | none => h)

/-- A lane has waited RECAL_MAX_S for its recalibration (R403). -/
def Hw.recalOut (h : Hw) (p : Port) (l : Nat) : Hw :=
  let n := portNo p
  let s := h.get (LNK_RECAL_RECAL_MAX_S n)
  if h.up p && h.on (LNK_TRK_RECAL_PEND n l) && natBit (h.healthy p) l && decide (s ≠ 0) &&
      h.due ((h.lane p l).recalSince + s * 1000000000) then h.loseLane p l
  else h

/-! ### Sleep and wake (R410, R411) -/

/-- Something waits to be sent on the port: a frame of the egress queue, a forwarded frame, or the port's own answer. -/
def Hw.toSend (h : Hw) (p : Port) : Bool :=
  let sent (d : EgDesc) : Bool := match p with
    | .a => d.sentA
    | .b => d.sentB
  h.net.egress.any (fun d => !sent d) || !(h.port p).fwd.isEmpty || !(h.port p).answers.isEmpty

def laneEn (p : Port) : Fld := match p with
  | .a => CLK_SLEEP_CTL_LANE_A_EN
  | .b => CLK_SLEEP_CTL_LANE_B_EN

/-- A SLEEP block goes out on some lanes, which the port then stops driving; the other lanes carry the training pattern. -/
def Hw.sleepLanes (h : Hw) (p : Port) (lanes : List Nat) : Hw :=
  let h1 := (h.fillLanes p).padSlot p
  let h2 := h1.each [0, 1, 2, 3] (fun h l =>
    if lanes.contains l then h.markLane p ctypeSleep 0 l else if natBit (h.port p).nap l then h.trainLane p l else h)
  (h2.nextSlot p).each lanes (fun h l => h.setLane p l { h.lane p l with prec := 0, half := none })

/-- The data lanes go to sleep after IDLE_NS with nothing to send (R410); lanes that the partner wants to recalibrate carry
the training pattern for 400 us more, and then sleep (R403). -/
def Hw.laneSleep (h : Hw) (p : Port) : Hw :=
  let n := portNo p
  let x := h.port p
  let idle := max 100 (h.get (LNK_TIMING_IDLE_NS n))
  let nap := h.get (LNK_STATUS_P_RECAL n)
  if h.up p && h.on (laneEn p) && !h.txAsleep p && !h.toSend p && h.due (x.idleSince + idle) && decide (x.holdAwake ≤ h.ns) then
    let h1 := h.setPort p { x with nap := nap, napSince := h.ns }
    (h1.sleepLanes p ([0, 1, 2, 3].filter (fun l => !natBit nap l))).put (LNK_STATUS_TX_ASLEEP n) 1
  else if h.up p && h.txAsleep p && decide (x.nap ≠ 0) && h.due (x.napSince + 400000) then
    let h1 := h.sleepLanes p (lanesOf x.nap)
    h1.setPort p { h1.port p with nap := 0 }
  else h

/-- RICH_IDLE blocks of a wake on each lane: those that begin from 200 ns on, when the drivers have power, until 780 ns
(R411). -/
abbrev wakeBlocks : Nat := 57

/-- The lanes wake: RICH_IDLE blocks, then wake AMs with the lane set they had (R411). -/
def Hw.wakeLanes (h : Hw) (p : Port) : Hw :=
  if h.up p && h.txAsleep p then
    let h1 := (h.fillLanes p).put (LNK_STATUS_TX_ASLEEP (portNo p)) 0
    let h2 := h1.setPort p { h1.port p with idleSince := h1.ns, nap := 0, slotAt := 100 * h1.ns + 20000 }
    let h3 := h2.each (List.range wakeBlocks) (fun h _ =>
      (h.each [0, 1, 2, 3] (fun h l => h.setLane p l (h.lane p l).sendRich)).nextSlot p)
    h3.sendMarker p ctypeAm 2
  else h

/-- The partner has put lanes to sleep: their receivers start anew at the next signal, and its first 64 symbols are not
qualified (R401, R411). -/
def Hw.lanesAsleep (h : Hw) (p : Port) (r : Heard) : Hw :=
  let ms := r.marks.filter (fun m => decide (m.ctype = ctypeSleep))
  (r.hw.each (ms.map (fun m => m.lane)) (fun h l => h.setLane p l { h.lane p l with rprec := 0, rbits := [], quiet := 64 })).when
    (h.up p && !ms.isEmpty) (fun h => h.put (LNK_STATUS_RX_ASLEEP (portNo p)) 1)

/-! ### Commits -/

/-- Settings of the ports that fail with FAIL_CODE 0x7 (R398, R412, R457). -/
def linkOutOfRange (h : Hw) : Bool :=
  (List.range 2).any (fun n =>
    let w := h.get (LNK_CTL_MIN_WIDTH n)
    decide (w = 0 ∨ 4 < w) ||
    (List.range 5).any (fun l =>
      let pre := h.get (LNK_EQ_TX_PRE n l)
      let post := h.get (LNK_EQ_TX_POST n l)
      decide (63 < pre + h.get (LNK_EQ_TX_MAIN n l) + post ∨ (l = 4 ∧ (pre ≠ 0 ∨ post ≠ 0))))) ||
  (let caps := (List.range 8).map (fun c => h.get (STR_EGQ_CLASS_CAP c))
   decide (512 < caps.foldl (· + ·) 0 ∨ caps.getD 0 0 < 8 ∨ caps.getD 1 0 < 8))

/-- What a commit changes for the ports: a port that is not in UP takes changed cells at once (R400), lanes that may no
longer sleep wake (R410), and a change of PREF or REVERT_EN restarts the hold timer (R474). -/
def Hw.linkCommit (h old : Hw) : Hw :=
  let h1 := h.each [Port.a, Port.b] (fun h p =>
    let cells (h : Hw) : Hw := h.each [0, 1, 2, 3, 4] (fun h l => h.setLane p l { h.lane p l with eq := h.reg (LNK_EQ (portNo p) l) })
    (h.when (!h.up p) cells).when (!h.on (laneEn p)) (fun h => h.wakeLanes p))
  let ctl (h : Hw) : Nat := h.get LNK_PORT_CTL_PREF + 2 * h.get LNK_PORT_CTL_REVERT_EN
  let h2 := h1.when (decide (ctl h1 ≠ ctl old)) (fun h => { h with net := { h.net with holdSince := none } })
  h2.control

/-! ### The commands -/

/-- A command on a port whose SerDes runs. -/
def onPort (s : State) (ok : Bool) (f : Hw → Hw) : Out := actOn s ok (fun h => h.when h.linkOn f)

def execPortDownEnd (p : Port) (s : State) : Out := onPort s true (fun h => h.downEnd p)

def execClockLaneLocked (p : Port) (heldNs : Nat) (s : State) : Out := onPort s true (fun h => h.clockLocked p heldNs)

def execLockDone (p : Port) (steps : List Nat) (s : State) : Out := onPort s true (fun h => h.lockDone p steps)

/-- R397: AMs of the partner show WIDTH or UP. -/
def execPortUp (p : Port) (lvs : List (List Int)) (s : State) : Out :=
  onPort s true (fun h =>
    let r := h.hear p lvs
    match r.mark (fun m => decide (m.ctype = ctypeAm ∧ (m.state = 3 ∨ m.state = 4))) with
    | some m => r.hw.portUp p m.healthy
    | none => r.hw)

def execTrainingFail (p : Port) (s : State) : Out := onPort s true (fun h => h.trainFail p)

def execLaneDown (p : Port) (l cause backNs : Nat) (s : State) : Out := onPort s (isLane l) (fun h => h.laneDown p l cause backNs)

def execClockLaneLoss (p : Port) (s : State) : Out := onPort s true (fun h => h.clockLoss p)

def execLnkRetrain (q : Requester) (p : Port) (v : Word) (s : State) : Out := accWrite s q true (fun h => h.linkCtl p v)

def execWidthChange (p : Port) (s : State) : Out := onPort s true (fun h => h.when (h.widthStale p) (fun h => h.restripe p))

/-- R406: a WIDTH block or an AM. -/
def execWidthBlockReceive (p : Port) (lvs : List (List Int)) (s : State) : Out :=
  onPort s true (fun h =>
    let r := h.hear p lvs
    match r.mark (fun _ => true) with
    | some m => r.hw.widthBlock p m.healthy m.recal
    | none => r.hw)

def execLaneReadmit (p : Port) (l : Nat) (s : State) : Out := onPort s (isLane l) (fun h => h.readmit p l)

/-- R402: the offset is at its bound, up or down. -/
def execTrackBound (p : Port) (l which : Nat) (up : Bool) (s : State) : Out :=
  onPort s (isLane l && decide (which < 4)) (fun h => h.when (h.up p) (fun h => h.setOffset p l which (if up then 8 else -8)))

def execRecalTimeout (p : Port) (l : Nat) (s : State) : Out := onPort s (isLane l) (fun h => h.recalOut p l)

def execLaneReequalise (p : Port) (l : Nat) (s : State) : Out := onPort s (isLane l) (fun h => h.reEqualise p l)

def execClockEqStep (p : Port) (s : State) : Out := onPort s true (fun h => h.clockStep p)

def execLaneSleep (p : Port) (s : State) : Out := onPort s true (fun h => h.laneSleep p)

def execSleepBlockReceive (p : Port) (lvs : List (List Int)) (s : State) : Out :=
  onPort s true (fun h => h.lanesAsleep p (h.hear p lvs))

/-- R411: the lanes wake when anything is to be sent. -/
def execLaneWake (p : Port) (s : State) : Out := onPort s true (fun h => h.when (h.toSend p) (fun h => h.wakeLanes p))

/-- R411: the partner's lanes carry signal again. -/
def execWakeAmReceive (p : Port) (lvs : List (List Int)) (s : State) : Out :=
  onPort s true (fun h =>
    let r := h.hear p lvs
    r.hw.when (r.mark (fun m => decide (m.ctype = ctypeAm ∧ m.kind = 2))).isSome (fun h => h.put (LNK_STATUS_RX_ASLEEP (portNo p)) 0))

/-- R391, R392: ABORT, or a reserved type, ends the frame in progress. -/
def execAbortBlockReceive (p : Port) (lvs : List (List Int)) (s : State) : Out :=
  onPort s true (fun h =>
    let r := h.hear p lvs
    r.hw.when r.aborts (fun h => h.dropRx p))

end Sys2Proof.Machine
end

