-- ==== Sys2Proof/Machine/NetTime.lean ====
section
/-!
DEFINITION. Network time (chapter 15): the timebase at each AON tick, rates, steps and loads, time frames, and the
quality of the time.
-/
namespace Sys2Proof.Machine

/-! ### The timebase (R484-R486, R490) -/

/-- Network time wraps at 2^48 s. -/
def timeWrap : Nat := 2 ^ 48 * 1000000000 * nsUnit

/-- A time moved by a signed amount. -/
def timeAdd (t : Nat) (d : Int) : Nat := (((t : Int) + d) % (timeWrap : Int)).toNat

/-- Show what awaits its tick (R488, R489). -/
def Hw.showTimePend (h : Hw) : Hw :=
  (h.put TIM_STATUS_ADJ_PEND (b2n (h.time.adjPend.isSome || h.time.adjHold.isSome))).put TIM_STATUS_SET_PEND
    (b2n (h.time.setPend.isSome || h.time.setHold.isSome))

/-- Enter LOCKED: TIME_HOLDOVER's cause ends, and the first entry releases sampling (R496, R497, R122). -/
def Hw.enterLocked (h : Hw) : Hw :=
  let h1 := (h.put TIM_STATUS_QUALITY 0).causeEnd srcTimeHoldover
  h1.when (!h1.released) Hw.release

/-- A load applies (R489): the quality falls to FREE from LOCKED and HOLDOVER; the frame schedule goes on from the new
time. -/
def Hw.timeLoad (h : Hw) (t : Nat) : Hw :=
  let s := h.smp
  let s1 := { s with lastBoundary := none }
  let s2 := match s.nextSched with
    | some (_, per, ph) => { s1 with per := per, ph := ph, nextSched := none }
    | none => s1
  let h1 := { h with time := { h.time with now := t }, smp := s2 }
  let h2 := h1.each (List.range 8) (fun h g =>
    match (h.grp g).nextGrid with
    | some (_, g2) => h.setGrp g { h.grp g with grid := g2, nextGrid := none }
    | none => h)
  let h3 := h2.put TIM_STATUS_SET_DONE 1
  if h3.quality ≤ 1 then h3.put TIM_STATUS_QUALITY 2 else h3

/-- A refused step or load (R488, R489). -/
def Hw.stepReject (h : Hw) (info : Nat) : Hw := (h.flag TIM_STATUS_STEP_REJ).raise srcTimeStepReject info

/-- The step in hold would take network time below 0 s at its tick: a load or an earlier step has moved the time since the
step was written (R488). -/
def Hw.stepBelow (h : Hw) : Bool :=
  h.time.setHold.isNone && h.time.adjHold.any (fun a => decide ((h.time.now : Int) + (h.incrNow : Int) + a < 0))

/-- One AON tick: T_(k+1) = T_k + INCR_k + A_k, or the loaded time; then what waits at the crossing is taken into hold
for the next tick. A step that would take the time below 0 s is refused. -/
def Hw.tickTime (h : Hw) : Hw :=
  let x := h.time
  let incr := h.incrNow
  let t := timeAdd x.now ((incr : Int) + (if h.stepBelow then 0 else x.adjHold.getD 0))
  let h1 := { h with time := { x with
    now := t, tick := x.tick + 1, incr := incr, incrHold := x.incrPend, incrPend := none,
    adjHold := x.adjPend, adjPend := none, setHold := x.setPend, setPend := none } }
  let h2 := match x.setHold with
    | some t => (h1.timeLoad t).when x.adjHold.isSome (fun h => h.flag TIM_STATUS_ADJ_REPLACED)
    | none => h1.when h.stepBelow (fun h => h.stepReject 0)
  h2.showTimePend

/-! ### Rate, steps and loads (R487-R489) -/

/-- Limits of TIM_INCR: 39.96 ns and 40.04 ns in units of 2^-32 ns, rounded inwards. -/
def incrMin : Nat := (3996 * nsUnit + 99) / 100
def incrMax : Nat := 4004 * nsUnit / 100

def Hw.incrWrite (h : Hw) (q : Requester) (v : Word) : Hw :=
  let frac := h.heldOr q TIM_INCR_FRAC (h.reg TIM_INCR_FRAC)
  let h1 := h.dropHeld q TIM_INCR_FRAC 2
  let n := bits v 5 0 * nsUnit + frac.toNat
  if incrMin ≤ n ∧ n ≤ incrMax then
    let h2 := (h1.setReg TIM_INCR_FRAC frac).put TIM_INCR_NS_NS (bits v 5 0)
    { h2 with time := { h2.time with incrPend := some n } }
  else h1.flag TIM_STATUS_INCR_REJ

def Hw.adjWrite (h : Hw) (q : Requester) (v : Word) : Hw :=
  let frac := h.heldOr q TIM_ADJ_FRAC (h.reg TIM_ADJ_FRAC)
  let h1 := ((h.dropHeld q TIM_ADJ_FRAC 2).setReg TIM_ADJ_FRAC frac).setReg TIM_ADJ_NS v
  let step := toSigned 32 v.toNat * (nsUnit : Int) + (frac.toNat : Int)
  if h1.get TIM_STEP_LIM_LIM_NS * nsUnit < step.natAbs ∨ (h1.time.now : Int) + step < 0 then h1.stepReject 0
  else
    let h2 := h1.when h1.time.adjPend.isSome (fun h => h.flag TIM_STATUS_ADJ_REPLACED)
    ({ h2 with time := { h2.time with adjPend := some step } }).showTimePend

/-- TIM_SET cannot be written before the first commit (R594). -/
def Hw.setWrite (h : Hw) (q : Requester) (v : Word) : Hw :=
  let w (a : Nat) := h.heldOr q a (h.reg a)
  let frac := w TIM_SET_FRAC
  let ns := w TIM_SET_NS
  let lo := w TIM_SET_SLO
  if h.running then
    let h1 := (((h.dropHeld q TIM_SET_FRAC 4).setReg TIM_SET_FRAC frac).setReg TIM_SET_NS ns).setReg TIM_SET_SLO lo
    if bits ns 29 0 ≤ 999999999 ∧ (h1.quality = 3 ∨ h1.on TIM_CTL_SET_EN) then
      let t := timeOf (lo.toNat + 2 ^ 32 * bits v 15 0) (bits ns 29 0) frac.toNat
      ({ h1 with time := { h1.time with setPend := some t } }).showTimePend
    else h1.stepReject 1
  else h.dropHeld q TIM_SET_FRAC 4

/-! ### Quality (R496-R498) -/

/-- TO_MS in ns; 0 acts as 1 (R503). -/
def Hw.holdoverNs (h : Hw) : Nat := msNs (h.get TIM_HOLDOVER_TO_TO_MS)

/-- A valid time frame restarts the holdover timer and ends HOLDOVER (R496, R498). -/
def Hw.validTime (h : Hw) : Hw :=
  let h1 := { h with time := { h.time with lastValid := some h.ns } }
  if h1.quality = 1 then h1.enterLocked else h1

/-- A write of TIM_CTL: SET_EN and MASTER at once, and LOCK (R496, R504). -/
def Hw.ctlWrite (h : Hw) (v : Word) : Hw :=
  let h1 := h.writeRw TIM_CTL 0x4000FFFF v
  if natBit v.toNat 31 ∧ h1.running then
    let recent := match h1.time.lastValid with
      | some t => decide (h1.ns ≤ t + h1.holdoverNs)
      | none => false
    if h1.on TIM_STATUS_SET_DONE && recent then (if 2 ≤ h1.quality then h1.enterLocked else h1)
    else h1.flag TIM_STATUS_LOCK_REFUSED
  else h1

/-- TO_MS expires (R498). A time frame that has been stamped and waits to be taken wins: the hub stays LOCKED. -/
def Hw.holdover (h : Hw) : Hw :=
  match h.time.lastValid with
  | some t =>
    if h.quality = 0 ∧ h.due (t + h.holdoverNs) ∧ (h.port .a).timeMsgs = [] ∧ (h.port .b).timeMsgs = [] then
      let h1 := { h with time := { h.time with holdoverSince := h.ns } }
      (h1.put TIM_STATUS_QUALITY 1).raise srcTimeHoldover 0
    else h
  | none => h

def Hw.freeOut (h : Hw) : Hw :=
  let s := h.get TIM_FREE_TO_FREE_S
  if h.quality = 1 ∧ s ≠ 0 ∧ h.due (h.time.holdoverSince + s * 1000000000) then h.put TIM_STATUS_QUALITY 2 else h

/-! ### Time frames (R443, R491-R495) -/

/-- Message kind, sequence, correction (2^-32 ns) and origin time of a TIME payload. -/
def timeMsg (f : Frame) : Nat := beAt f.payload 0 1
def timeMsgSeq (f : Frame) : Nat := beAt f.payload 2 2
def timeCorr (f : Frame) : Int := toSigned 64 (beAt f.payload 16 8) * 65536
def timeOrig (f : Frame) : Nat := timeOf (beAt f.payload 24 6) (beAt f.payload 30 4) (beAt f.payload 34 4)

/-- A consumed TIME frame with good HCHK and trailer, accepted by the duplicate window, is a valid time frame (R491). -/
def Hw.timeValid (h : Hw) (f : Frame) : Bool :=
  !f.rsp && decide (f.src = h.get TIM_CTL_MASTER) && decide (timeMsg f = 1 ∨ timeMsg f = 2)

/-- The first waiting time message of a kind, taken out of the port's list. -/
def Hw.takeTime (h : Hw) (p : Port) (msg : Nat) : Hw × Option PortMsg :=
  match (h.port p).timeMsgs.find? (fun m => decide (timeMsg m.frame = msg)) with
  | some m => (h.setPort p { h.port p with timeMsgs := (h.port p).timeMsgs.erase m }, some m)
  | none => (h, none)

/-- DIFF saturates at 2^31 ns either way (R493). -/
def satDiff (d : Int) : Int := clampInt (-(2 ^ 63)) (2 ^ 63 - 1) d

def Hw.sync (h : Hw) (p : Port) : Hw :=
  match h.takeTime p 1 with
  | (h1, some m) =>
    let n := portNo p
    let d := (m.stamp : Int) - ((timeOrig m.frame : Int) + timeCorr m.frame)
    let h2 := h1.put64 (TIM_RX_DIFF_LO_FRAC n) (TIM_RX_DIFF_HI_NS n) (ofSigned 64 (satDiff d))
    let h3 := (h2.put (TIM_RX_INFO_SAT n) (b2n (satDiff d ≠ d))).put (TIM_RX_INFO_MSGSEQ n) (timeMsgSeq m.frame)
    (h3.put (TIM_RX_INFO_COUNT n) (h3.get (TIM_RX_INFO_COUNT n) + 1)).validTime
  | (h1, none) => h1

/-- The PONG payload with ORIG still 0: it is put in when the PONG is sent (R494, R495). -/
def pongPayload (seq stamp : Nat) : List Byte :=
  beBytes 1 3 ++ zeros 1 ++ beBytes 2 seq ++ zeros 12 ++ zeros 8 ++ zeros 14 ++ zeros 2 ++ timeBytesBe stamp ++ zeros 10

def Hw.ping (h : Hw) (p : Port) : Hw :=
  match h.takeTime p 2 with
  | (h1, some m) =>
    let f := h1.ownFrame 0x20 0 m.frame.src true (h1.get SYS_EPOCH_EPOCH)
      (pongPayload (timeMsgSeq m.frame) (timeAdd m.stamp (-(timeCorr m.frame))))
    ((h1.validTime).enqueueOn f true (some p)).1
  | (h1, none) => h1

/-! ### The commands -/

/-- R484: the tick also brings a registered SYNC_IN edge nearer to its effective time (R131). Once REFCLK is lost the
watchdog's ticks run the timers of the fault collector only (R656). -/
def execAonTick (s : State) : Out :=
  actOn s true (fun h =>
    if h.boot.refclkLost then { h with time := { h.time with tick := h.time.tick + 1 } } else h.tickTime.dropIgnored.pinTick.domTick.switchTick)

def execTimIncrWrite (q : Requester) (v : Word) (s : State) : Out := accWrite s q true (fun h => h.incrWrite q v)

def execTimAdjWrite (q : Requester) (v : Word) (s : State) : Out := accWrite s q true (fun h => h.adjWrite q v)

def execTimSetWrite (q : Requester) (v : Word) (s : State) : Out := accWrite s q true (fun h => h.setWrite q v)

/-- The words of TIM_NOW `d` local ns after the tick (R485, R499). -/
def nowWords (h : Hw) (d : Nat) : List Word :=
  let t := h.time.now + d % 40 * h.incrNow / 40
  [BitVec.ofNat 32 (fracOf t), BitVec.ofNat 32 (nsOf t), BitVec.ofNat 32 (secOf t), BitVec.ofNat 32 (secOf t / 2 ^ 32)]

/-- R486: the read latches the time of the access; while a snapshot is held it reads the frozen time (R16). -/
def execTimNowRead (q : Requester) (d : Nat) (s : State) : Out :=
  if s.hw.readable q then
    let ws := match s.frozen with
      | some f => nowWords f 0
      | none => nowWords s.hw d
    .next { s with hw := s.hw.latchWords q TIM_NOW_FRAC (ws.drop 1), rdata := ws.take 1, status := 0 }
  else .next { s with rdata := [0], status := 0 }

def execTimLock (q : Requester) (v : Word) (s : State) : Out := accWrite s q true (fun h => h.ctlWrite v)

def execTimeHoldover (s : State) : Out := actOn s true Hw.holdover

def execFreeTimeout (s : State) : Out := actOn s true Hw.freeOut

def execTimeSync (p : Port) (s : State) : Out := actOn s true (fun h => h.sync p)

def execTimePing (p : Port) (s : State) : Out := actOn s true (fun h => h.ping p)

end Sys2Proof.Machine
end

