-- ==== Sys2Proof/Machine/Nvm.lean ====
section
/-!
DEFINITION. The serial NOR flash behind the loader (R596 to R598), and the entry areas of 16 bytes per entry kept in it:
the recorder's counter area (R574) and the command-counter area (R624).
-/
namespace Sys2Proof.Machine

/-! ### The device -/

/-- Bytes of the accepted NVM (R596, R615); 0 where none was accepted. -/
def Hw.nvmSize (h : Hw) : Nat := if h.on CFG_NVM_SFDP_OK then 2 ^ h.get CFG_NVM_DENSITY_LOG2 else 0

/-- `n` values from key `k` of a map in canonical form whose keys are all `k` or above. -/
def storeRun {α : Type} (d : Nat → α) : Nat → Nat → Store α → List α
  | 0, _, _ => []
  | n + 1, k, m =>
    match m with
    | (j, v) :: t => if j = k then v :: storeRun d n (k + 1) t else d k :: storeRun d n (k + 1) m
    | [] => d k :: storeRun d n (k + 1) []

/-- `n` bytes from byte `a`. -/
def Hw.nvmBytes (h : Hw) (a n : Nat) : List Byte :=
  storeRun (fun _ => nvm0) n a (h.boot.nvm.dropWhile (fun p => decide (p.1 < a)))

def Hw.setNvm (h : Hw) (a : Nat) (l : List Byte) : Hw :=
  { h with boot := { h.boot with nvm := storeSetMany (fun _ => nvm0) h.boot.nvm a l } }

/-- What a failed program or erase leaves in its bytes is free. -/
def Hw.nvmSpoil (h : Hw) (a n : Nat) : Hw :=
  let l := (List.range n).map (fun i => (Config.freeWord (h.draws + i)).setWidth 8)
  { h.setNvm a l with draws := h.draws + n }

/-- Program bytes and read them back (R571, R629); answers whether they read as written. PRESUMED (serial NOR flash):
programming only clears bits. `ok` says whether the device carried the operation out. -/
def Hw.nvmProgram (h : Hw) (a : Nat) (l : List Byte) (ok : Bool) : Hw × Bool :=
  if ok then
    let now := (h.nvmBytes a l.length).zipWith (fun x y => x &&& y) l
    (h.setNvm a now, decide (now = l))
  else (h.nvmSpoil a l.length, false)

/-- Erase the 4 KiB sector that holds an address (R571); answers whether it succeeded. -/
def Hw.nvmErase (h : Hw) (a : Nat) (ok : Bool) : Hw × Bool :=
  let s := a / 4096 * 4096
  if ok then
    ({ h with boot := { h.boot with nvm := h.boot.nvm.filter (fun p => !decide (s ≤ p.1 ∧ p.1 < s + 4096)) } }, true)
  else (h.nvmSpoil s 4096, false)

/-- Erase the sectors of a range. -/
def Hw.nvmEraseRange (h : Hw) (a n : Nat) : Hw :=
  { h with boot := { h.boot with nvm := h.boot.nvm.filter (fun p => !decide (a ≤ p.1 ∧ p.1 < a + n)) } }

/-! ### Entry areas (R574, R624) -/

/-- An entry of 12 bytes and their CRC-32C. -/
def areaEntry (l : List Byte) : List Byte := l ++ leBytes 4 (crc32c l)

/-- An entry whose CRC holds; an erased place, whose CRC does not, holds none. -/
def entryGood (l : List Byte) : Bool := !l.all (fun b => decide (b = nvm0)) && decide (leAt l 12 4 = crc32c (l.take 12))

/-- The valid entries of an area of two sectors, with their places 0 to 511. -/
def Hw.areaEntries (h : Hw) (base : Nat) : List (Nat × List Byte) :=
  ((List.range 512).map (fun i => (i, h.nvmBytes (base + 16 * i) 16))).filter (fun e => entryGood e.2)

/-- The entry with the highest key. -/
def highest (key : List Byte → Nat) (l : List (Nat × List Byte)) : Option (Nat × List Byte) :=
  l.foldl (fun m e =>
    match m with
    | some x => if key x.2 < key e.2 then some e else m
    | none => some e) none

/-- Where the next entry goes: the first erased place after the current one in its sector, or, where that sector is
full, the first place of the other sector, which is erased first. -/
def Hw.areaNext (h : Hw) (base : Nat) (current : Option Nat) : Nat × Bool :=
  let i := current.getD 0
  let sector := i / 256
  let free := (List.range 256).find? (fun k =>
    decide (current.all (fun c => decide (c < 256 * sector + k))) &&
    decide (h.nvmBytes (base + 16 * (256 * sector + k)) 16 = List.replicate 16 nvm0))
  match free with
  | some k => (256 * sector + k, false)
  | none => (256 * (1 - sector), true)

/-- Append an entry and read it back; answers its place and whether it stands. -/
def Hw.areaAppend (h : Hw) (base : Nat) (current : Option Nat) (entry : List Byte) (ok : Bool) : Hw × Nat × Bool :=
  let p := h.areaNext base current
  let a := base + 16 * p.1
  let h1 := h.when p.2 (fun h => (h.nvmErase a true).1)
  let r := h1.nvmProgram a entry ok
  (r.1, p.1, r.2)

end Sys2Proof.Machine
end

