-- ==== Sys2Proof/Machine/RecLog.lean ====
section
/-!
DEFINITION. The recorder's slots, records and ring (R566 to R573), the failures of its own memory (R576 to R579), and
the RECORD frames that carry records (R447, R572).
-/
namespace Sys2Proof.Machine

/-! ### Slots (R566, R569, R578) -/

def Hw.slotBad (h : Hw) (i : Nat) : Bool := natBit (h.get (REC_SLOT_BAD_BAD (i / 32))) (i % 32)
def Hw.recSlot (h : Hw) (i : Nat) : Option RecSlot := storeGet (fun _ => none) h.recd.slots i
def Hw.setSlot (h : Hw) (i : Nat) (x : Option RecSlot) : Hw :=
  { h with recd := { h.recd with slots := storeSet (fun _ => none) h.recd.slots i x } }

/-- An NVM region is configured (R570, R585). -/
def Hw.hasRegion (h : Hw) : Bool := h.on CFG_NVM_SFDP_OK && decide (h.get REC_REGION_SIZE_MIB ≠ 0)

/-- Nothing keeps the slot's record any more. -/
def Hw.slotDone (h : Hw) (x : RecSlot) : Bool :=
  x.whole && (x.flushed || !h.hasRegion) && (x.sent || !h.on REC_CTL_SEND)

/-- Slots whose records are done with are free again. -/
def Hw.freeSlots (h : Hw) : Hw :=
  { h with recd := { h.recd with slots := h.recd.slots.filter (fun p => !p.2.any h.slotDone) } }

/-- The slot that the next record takes: in rotation, past bad ones; once NVM writes have stopped, a record that waits
only for the NVM gives its slot up when the slot is needed (R577). -/
def Hw.claimSlot (h : Hw) : Option Nat :=
  let order := (List.range 256).map (fun i => (h.recd.nextSlot + i) % 256)
  let good := order.filter (fun i => !h.slotBad i)
  match good.find? (fun i => (h.recSlot i).isNone) with
  | some i => some i
  | none =>
    if h.on REC_STATUS_NVM_STOP then
      good.find? (fun i => (h.recSlot i).any (fun x => x.whole && (x.sent || !h.on REC_CTL_SEND)))
    else none

/-- AON receives the trigger at the crossing: it claims a staging buffer and a slot, or takes no record. -/
def Hw.recReceive (h : Hw) : Hw :=
  match h.recd.atCrossing with
  | t :: rest =>
    if (h.xing 0).busy && !(h.xing 0).acted then
      let h1 := ({ h with recd := { h.recd with atCrossing := rest } }).xingActed 0
      match (if h1.recd.staging.length < 16 then h1.claimSlot else none) with
      | some i =>
        let n := h1.get REC_SEQ_NEXT
        let x : RecSlot := { whole := false, seq := n, code := t.code, flushed := false, sent := false, epoch := t.epoch }
        let h2 := (h1.setSlot i (some x)).put REC_SEQ_NEXT (n + 1)
        { h2 with recd := { h2.recd with staging := h2.recd.staging ++ [(t, i)], nextSlot := (i + 1) % 256 } }
      | none => h1.bump REC_STATUS_DROPPED 1
    else h
  | [] => h

/-! ### Records (R567, R568) -/

/-- The 256 bytes of a record. -/
def recordBytes (t : RecTrig) (seq pwrcyc : Nat) (words : List Word) : List Byte :=
  let regs := words.flatMap (fun w => leBytes 4 w.toNat)
  let body := leBytes 2 0x50C7 ++ [BitVec.ofNat 8 (64 * t.tq + 32 * b2n t.woke), BitVec.ofNat 8 t.code] ++ leBytes 4 seq ++
    leBytes 5 t.opsec ++ leBytes 4 pwrcyc ++ timeBytesLe t.time ++ [BitVec.ofNat 8 words.length] ++
    (regs ++ zeros 208).take 208
  body ++ leBytes 4 (crc32c body) ++ zeros 8 ++ leBytes 4 0x7E1DA55A

/-- A reader takes the record as valid (R568). -/
def recordGood (l : List Byte) : Bool :=
  decide (leAt l 252 4 = 0x7E1DA55A) && decide (leAt l 0 2 = 0x50C7) && decide (leAt l 240 4 = crc32c (l.take 240))

def recordSeq (l : List Byte) : Nat := leAt l 4 4

/-- Write a record into a slot's 32 coded words (R569). -/
def Hw.writeSlot (h : Hw) (i : Nat) (l : List Byte) : Hw :=
  let ws := (List.range 32).map (fun k => secEncode (BitVec.ofNat 64 (leAt l (8 * k) 8)))
  { h with recd := { h.recd with ram := storeSetMany (fun _ => 0) h.recd.ram (32 * i) ws } }

/-- The bytes of a slot, corrected; none where a word is uncorrectable. -/
def Hw.readSlot (h : Hw) (i : Nat) : Option (List Byte) :=
  (List.range 32).foldl (fun l k =>
    match l, secCorrect (storeGet (fun _ => 0) h.recd.ram (32 * i + k)) with
    | some l, some c => some (l ++ leBytes 8 (secData c).toNat)
    | _, _ => none) (some [])

/-! ### Failures of the recorder's own memory (R576, R577, R579) -/

/-- A failure's Bunting word. -/
def buntWord (cause loc time : Nat) : Nat :=
  2 ^ 63 + 2 ^ 60 * (cause % 8) + 2 ^ 46 * (loc % 2 ^ 14) + 2 ^ 30 * (secOf time % 2 ^ 16) + nsOf time

/-- Store a failure in the lowest Bunting word that is free; with all in use it is counted. Answers the word stored. -/
def Hw.bunting (h : Hw) (cause loc : Nat) : Hw × Option Nat :=
  let w := buntWord cause loc h.time.now
  match (List.range 8).find? (fun i => !natBit (h.reg (REC_BUNT_HI i)).toNat 31) with
  | some i => ((h.put (REC_BUNT_LO_LO i) w).put (REC_BUNT_HI_HI i) (w / 2 ^ 32), some w)
  | none => (h.bump REC_BUNT_STAT_LOST 1, none)

/-- A failure of storage: its Bunting word, REC_STORE_FAIL, and a record TRIG 0x43 that names the record lost, unless
it is such a record that fails. -/
def Hw.storeFail (h : Hw) (cause loc lost code : Nat) : Hw :=
  let b := h.bunting cause loc
  let h1 := b.1.raise srcRecStoreFail (cause + 8 * loc)
  match b.2 with
  | some w => h1.when (decide (code ≠ 0x43)) (fun h =>
      h.recTriggerAt 0x43 (some [BitVec.ofNat 32 w, BitVec.ofNat 32 (w / 2 ^ 32), BitVec.ofNat 32 lost]))
  | none => h1

/-- An uncorrectable word in a slot: the slot is marked bad and its record is lost. -/
def Hw.slotLost (h : Hw) (i : Nat) (x : RecSlot) : Hw :=
  let h1 := (h.setSlot i none).put ⟨REC_SLOT_BAD (i / 32), i % 32, i % 32⟩ 1
  h1.storeFail 1 i x.seq x.code

/-- A program or erase fails in a sector of the region: the sector is marked bad, and the record goes to the next good
one; with 32 marked, NVM writes stop. -/
def Hw.sectorFail (h : Hw) (cause sector code : Nat) : Hw :=
  let h1 : Hw :=
    if h.recd.badSectors.length < 32 then { h with recd := { h.recd with badSectors := h.recd.badSectors ++ [sector] } }
    else h.put REC_STATUS_NVM_STOP 1
  h1.storeFail cause sector 0xFFFFFFFF code

/-! ### The ring (R570, R571, R573) -/

/-- First byte of the region. -/
def Hw.regionBase (h : Hw) : Nat := 4096 * h.get REC_REGION_BASE_4K
def Hw.regionSize (h : Hw) : Nat := 1048576 * h.get REC_REGION_SIZE_MIB
/-- Pages of the ring, 16 to a sector; its first sector is sector 2 of the region. -/
def Hw.ringPages (h : Hw) : Nat := 16 * (256 * h.get REC_REGION_SIZE_MIB - 2)
def Hw.pageAddr (h : Hw) (p : Nat) : Nat := h.regionBase + 8192 + 256 * p
def pageSector (p : Nat) : Nat := 2 + p / 16

/-- The page that the next record takes: past sectors marked bad; the fuel bounds the sectors. -/
def Hw.goodPage (h : Hw) : Nat → Nat → Option Nat
  | 0, _ => none
  | fuel + 1, p =>
    let p := p % h.ringPages
    if h.recd.badSectors.contains (pageSector p) then Hw.goodPage h fuel (16 * (p / 16 + 1)) else some p

def Hw.pageRecord (h : Hw) (p : Nat) : List Byte := h.nvmBytes (h.pageAddr p) 256

/-! ### RECORD frames (R447, R572) -/

/-- A RECORD frame of records produced under one epoch (R39). -/
def recordFrame (h : Hw) (dest origin epoch : Nat) (rs : List (List Byte)) : Frame :=
  h.ownFrame 0x14 6 dest false epoch (beBytes 2 rs.length ++ [BitVec.ofNat 8 origin] ++ zeros 5 ++ rs.flatMap id)

/-- Slots in the order of their records, the oldest first. -/
def Hw.slotOrder (h : Hw) (p : RecSlot → Bool) : List (Nat × RecSlot) :=
  let next := h.get REC_SEQ_NEXT
  let age (x : RecSlot) : Nat := (next + 2 ^ 32 - x.seq) % 2 ^ 32
  let put (l : List (Nat × RecSlot)) (e : Nat × RecSlot) : List (Nat × RecSlot) :=
    l.takeWhile (fun y => decide (age e.2 ≤ age y.2)) ++ [e] ++ l.dropWhile (fun y => decide (age e.2 ≤ age y.2))
  (h.recd.slots.filterMap (fun q =>
    match q.2 with
    | some x => if p x then some (q.1, x) else none
    | none => none)).foldl put []

/-- The first records of a list that were produced under one epoch, up to 15 (R39, R572). -/
def oneEpoch {α : Type} (epoch : α → Nat) (l : List α) : List α :=
  match l with
  | x :: _ => (l.takeWhile (fun y => decide (epoch y = epoch x))).take 15
  | [] => []

/-- Whole records that have not been sent leave in frames of up to 15 of one epoch while class 6 has room; the fuel bounds
the frames. -/
def Hw.sendRecords : Nat → Hw → Hw
  | 0, h => h
  | fuel + 1, h =>
    let l := oneEpoch (fun e => e.2.epoch) (h.slotOrder (fun x => x.whole && !x.sent))
    if h.on REC_CTL_SEND && h.room 6 && !l.isEmpty then
      match l.find? (fun e => (h.readSlot e.1).isNone) with
      | some e => Hw.sendRecords fuel (h.slotLost e.1 e.2)
      | none =>
        let epoch := (l.head?.map (fun e => e.2.epoch)).getD 0
        let q := h.enqueue (recordFrame h (h.get STR_CTL_DEST) 0 epoch (l.filterMap (fun e => h.readSlot e.1)))
        Hw.sendRecords fuel (q.1.each l (fun h e => h.setSlot e.1 (some { e.2 with sent := true }))).freeSlots
    else h

/-- Valid records of the ring from a SEQ on, the nearest first, with the epoch of each where this power cycle wrote it. -/
def Hw.ringFrom (h : Hw) (seq n : Nat) : List (Option Nat × List Byte) :=
  let dist (e : Option Nat × List Byte) : Nat := (recordSeq e.2 + 2 ^ 32 - seq) % 2 ^ 32
  let put (acc : List (Option Nat × List Byte)) (e : Option Nat × List Byte) : List (Option Nat × List Byte) :=
    acc.takeWhile (fun y => decide (dist y ≤ dist e)) ++ [e] ++ acc.dropWhile (fun y => decide (dist y ≤ dist e))
  let pages := (List.range h.ringPages).map (fun p => (storeGet (fun _ => none) h.recd.pageEpoch (h.pageAddr p), h.pageRecord p))
  ((pages.filter (fun e => recordGood e.2 && decide (dist e < 2 ^ 31))).foldl put []).take n

/-- The first records that one frame carries: they were produced under one epoch. A record of an earlier power cycle, whose
epoch the NVM does not hold, goes alone, and its header's epoch is a free value: DESIGN CHOICE (log 144). -/
def fetchRun (l : List (Option Nat × List Byte)) : List (Option Nat × List Byte) :=
  match l with
  | (some e, _) :: _ => l.takeWhile (fun y => decide (y.1 = some e))
  | x :: _ => [x]
  | [] => []

/-- A fetch goes on while class 6 has room (R572). -/
def Hw.sendFetch : Nat → Hw → Hw
  | 0, h => h
  | fuel + 1, h =>
    match h.recd.fetch with
    | some (seq, left, dest) =>
      if h.room 6 then
        match fetchRun (h.ringFrom seq (min 15 left)) with
        | [] => ({ h with recd := { h.recd with fetch := none } }).put REC_FETCH_CTL_BUSY 0
        | x :: rest =>
          let l := x :: rest
          let h1 := (h.draw.enqueue (recordFrame h dest 1 (x.1.getD (Config.freeWord h.draws).toNat) (l.map (·.2)))).1
          let next := ((l.getLast?.map (fun e => recordSeq e.2)).getD seq + 1) % 2 ^ 32
          Hw.sendFetch fuel { h1 with recd := { h1.recd with fetch := some (next, left - l.length, dest) } }
      else h
    | none => h

/-- What the recorder hands to the queue once it has room. -/
def Hw.recPump (h : Hw) : Hw := Hw.sendFetch 4400 (Hw.sendRecords 300 h)

end Sys2Proof.Machine
end

