-- ==== Sys2Proof/Machine/Frames.lean ====
section
/-!
DEFINITION. Frames that arrive and leave (chapter 13): reception and forwarding (R426 to R434), duplicates (R429), the
choice of the next frame (R430, R431), the egress queue (R449, R450), event frames (R445) and the EVQ (R452).
-/
namespace Sys2Proof.Machine

/-! ### Stamps (R485, R492) -/

/-- Network time of a local instant, in ps after the present AON tick. -/
def Hw.timeAt (h : Hw) (ps : Int) : Nat := timeAdd h.time.now (roundHalfEven (ps * h.incrNow) 40000)

/-- The stamp of a frame received: the capture in 10 ps steps, less the lane's receive delay. -/
def Hw.rxStamp (h : Hw) (p : Port) (lane off : Nat) : Nat :=
  h.timeAt (10 * (off % 4000 : Nat) - (h.get (TIM_DLY_RX_PS (portNo p) lane) : Int))

/-- The stamp of a frame sent: the capture plus the transmit delay of the lane that carries its SOF. -/
def Hw.txStamp (h : Hw) (p : Port) (off : Nat) : Nat :=
  h.timeAt (10 * (off % 4000 : Nat) + (h.get (TIM_DLY_TX_PS (portNo p) (h.nextLane p)) : Int))

/-! ### Duplicates (R429) -/

/-- The map of a source, its bit 0 for the head, after the head rises by `d`. -/
def dupShift (map d : Nat) : Nat := if 4096 ≤ d then 1 else (map * 2 ^ d + 1) % 2 ^ 4096

/-- A frame of the source with this number stands in the duplicate table. -/
def Hw.inDup (h : Hw) (src seq : Nat) : Bool :=
  h.net.dup.any (fun e => decide (e.src = src) && decide ((e.head + 2 ^ 32 - seq) % 2 ^ 32 ≤ 4095) &&
    natBit e.map ((e.head + 2 ^ 32 - seq) % 2 ^ 32))

/-- Check a frame that port p's side consumes against the duplicate table; answers whether it is accepted. Frames of
source 0x0000 are not checked (R428). The most recently accepted source stands first; 64 stand in the table. -/
def Hw.dupAccept (h : Hw) (p : Port) (f : Frame) : Hw × Bool :=
  let n := portNo p
  let rest := h.net.dup.filter (fun e => decide (e.src ≠ f.src))
  let accept (e : DupEntry) : Hw × Bool := ({ h with net := { h.net with dup := (e :: rest).take 64 } }, true)
  let fresh : DupEntry := { src := f.src, head := f.seq, map := 1, warned := false }
  if f.src = 0 then (h, true)
  else
    match h.net.dup.find? (fun e => decide (e.src = f.src)) with
    | none => accept fresh
    | some e =>
      let d := (f.seq + 2 ^ 32 - e.head) % 2 ^ 32
      let b := (e.head + 2 ^ 32 - f.seq) % 2 ^ 32
      if 1 ≤ d ∧ d < 2 ^ 31 then accept { e with head := f.seq, map := dupShift e.map d, warned := false }
      else if b ≤ 4095 then
        if natBit e.map b then (h.bump (LNK_DUP_DUP n) 1, false)
        else accept { e with map := natPut e.map b b 1, warned := false }
      else if f.sr then accept fresh
      else
        let h1 := h.bump (LNK_DUP_OLD n) 1
        if e.warned then (h1, false)
        else
          let dup := h1.net.dup.map (fun x => if x.src = f.src then { x with warned := true } else x)
          (({ h1 with net := { h1.net with dup := dup } }).raise (srcPortDupWindow n) f.src, false)

/-! ### Reception (R426, R427, R434) -/

/-- Count a failure of a header or trailer in the CRC window (R467). -/
def Hw.crcCountUp (h : Hw) (p : Port) : Hw :=
  h.setPort p { h.port p with crcCount := (h.port p).crcCount + 1 }

/-- A frame addressed to the hub (R427). -/
def Hw.mine (h : Hw) (dst : Nat) : Bool := decide (dst = h.get SYS_HUB_ID_ID)

/-- R427: whether the hub consumes a frame, and whether it forwards it. -/
def Hw.frameRoute (h : Hw) (f : Frame) : Bool × Bool :=
  let id := h.get SYS_HUB_ID_ID
  if f.ty = 0x40 then (true, false)
  else if f.src = id ∧ id ≠ 0 then (false, false)
  else if h.mine f.dst then (true, false)
  else if f.dst = 0xFFFF then (true, decide (1 < f.hops))
  else (false, decide (1 < f.hops))

/-- Bytes that a forwarding buffer holds. -/
def fwdFill (l : List FwdEntry) : Nat := (l.map (fun e => e.size)).foldl (· + ·) 0

/-- Waiting frames are discarded until a frame of class `c` and `size` bytes fits, or no frame of lower priority waits
(R432); the fuel bounds the frames. -/
def fwdEvict : Nat → List FwdEntry → Nat → Nat → List FwdEntry
  | 0, l, _, _ => l
  | fuel + 1, l, c, size =>
    if fwdFill l + size ≤ 65536 then l
    else
      let cand := l.filter (fun e => !e.started && decide (c < e.frame.cls))
      let worst := (cand.map (fun e => e.frame.cls)).foldl max 0
      match (l.zipIdx.filter (fun e => !e.1.started && decide (c < e.1.frame.cls ∧ e.1.frame.cls = worst))).getLast? with
      | some (_, i) => fwdEvict fuel (l.eraseIdx i) c size
      | none => l

/-- An arriving frame enters the forwarding buffer of port q, if it finds room. -/
def Hw.fwdEnter (h : Hw) (q : Port) (e : FwdEntry) : Hw × Bool :=
  let y := h.port q
  let l := fwdEvict y.fwd.length y.fwd e.frame.cls e.size
  let fits := decide (fwdFill l + e.size ≤ 65536)
  let h1 := h.setPort q { y with fwd := if fits then l ++ [e] else l }
  (h1.bump (LNK_FWD_DROP_FWD (portNo q)) (y.fwd.length - l.length + (if fits then 0 else 1)), fits)

/-- The types of command frames that the ingress FIFOs hold. -/
def fifoType (ty : Nat) : Bool := [0x01, 0x02, 0x03, 0x30, 0x31].contains ty

/-- A frame of this source and number stands in a FIFO. -/
def sameCmd (f : Frame) (e : CmdEntry) : Bool := decide (e.frame.src = f.src ∧ e.frame.seq = f.seq)

/-- A command frame arrives for the FIFO of port p (R434, R469), and wakes CORE (R28); answers whether it enters, and
whether it is refused. -/
def Hw.fifoEnter (h : Hw) (p : Port) (f : Frame) : Hw × Bool × Bool :=
  let n := portNo p
  let q := otherPort p
  let x := h.port p
  let y := h.port q
  let twin := y.fifo.any (sameCmd f)
  if f.src ≠ 0 ∧ (h.inDup f.src f.seq || x.fifo.any (sameCmd f) || twin) = true then
    let h1 := h.bump (LNK_DUP_DUP n) 1
    let up (e : CmdEntry) : Bool := sameCmd f e && !e.promoted && !e.held
    -- an entry in shadow takes the place of the frame discarded on the active port
    if h1.activePort = n ∧ y.fifo.any up then
      let l := y.fifo.map (fun e => if up e then { e with order := h1.net.orderNext, promoted := true } else e)
      let h2 := (h1.setPort q { y with fifo := l }).bump (LNK_SHADOW_PROMOTED (portNo q)) 1
      ({ h2 with net := { h2.net with orderNext := h2.net.orderNext + 1 } }, false, false)
    else (h1, false, false)
  else if 64 ≤ x.fifo.length then (h.bump (LNK_FIFO_BUSY n) 1, false, true)
  else
    let o := h.net.orderNext
    let e : CmdEntry := { frame := f, hopsArr := f.hops, order := o, trailer := none, trailerNs := 0, promoted := false, held := false }
    let h1 := h.setPort p { x with fifo := x.fifo ++ [e] }
    (({ h1 with net := { h1.net with orderNext := o + 1 } } : Hw).wake .core, true, false)

/-- A header fails its check: the whole frame is discarded (R426). -/
def Hw.badHeader (h : Hw) (p : Port) : Hw := (h.bump (LNK_RX_ERR_HCHK_ERR (portNo p)) 1).crcCountUp p

/-- An SOF block arrives: the header is checked, and the frame is consumed, forwarded or discarded (R426, R427). -/
def Hw.rxHeader (h0 : Hw) (p : Port) (bytes : List Byte) (lane off : Nat) : Hw :=
  let h := h0.dropRx p
  let sof := bytes.take 30
  let len := lenOf sof
  if sof.length < 16 ∨ crc8Bytes (sof.take 15) ≠ beAt sof 15 1 ∨ 4096 < len then h.badHeader p
  else
    let f := frameOf sof ((sof.drop 16).take len)
    let r := h.frameRoute f
    let q := otherPort p
    let stamp := h.rxStamp p lane off
    let e : FwdEntry := { head := sof.take 14, frame := { f with hops := f.hops - 1 }, size := 20 + len, trailer := [],
                          complete := false, started := false, stamp := stamp, sentStamp := 0 }
    -- a frame toward a port that is not in UP is discarded (R465)
    let fw := if r.2 && h.up q then h.fwdEnter q e else (h, false)
    let fi := if r.1 && !f.rsp && fifoType f.ty then fw.1.fifoEnter p f else (fw.1, false, false)
    let rx : RxFrame := { sof := sof, consumed := r.1, forwarded := fw.2, queued := fi.2.1, refused := fi.2.2, stamp := stamp }
    fi.1.setPort p { fi.1.port p with rx := some rx }

/-- An answer that the port itself makes (R434, R441): it is numbered, and leaves on this port only. -/
def Hw.portAnswer (h : Hw) (p : Port) (ty dst : Nat) (payload : List Byte) : Hw :=
  let n := h.number (h.ownFrame ty 1 dst true (h.get SYS_EPOCH_EPOCH) payload)
  n.1.setPort p { n.1.port p with answers := (n.1.port p).answers ++ [n.2] }

/-! ### Sending (R430, R431, R444) -/

/-- CORR of a TIME payload with a residence in 2^-32 ns added (R444). -/
def addCorr (payload : List Byte) (residence : Int) : List Byte :=
  let c := beAt payload 16 8 + ofSigned 64 (roundHalfEven residence 65536)
  payload.take 16 ++ beBytes 8 (c % 2 ^ 64) ++ payload.drop 24

/-- The bytes of a forwarded frame as they leave: only HOPS and HCHK change, and in a TIME frame CORR and the trailer
(R422, R423, R444). -/
def fwdBytes (e : FwdEntry) (sent : Nat) : List Byte :=
  let f := e.frame
  if f.ty = 0x20 ∧ f.payload.length = 64 then
    let pay := addCorr f.payload ((sent : Int) - (e.stamp : Int))
    headWith e.head f.hops ++ pay ++ beBytes 4 (crc32c (e.head ++ pay))
  else headWith e.head f.hops ++ f.payload ++ e.trailer

/-- A port has sent a frame. -/
def Hw.frameSent (h : Hw) (p : Port) (bytes : List Byte) : Hw :=
  h.setPort p { h.port p with lastSent := bytes, idleSince := h.ns }

/-- The forwarded frame whose outbound SOF has left and whose trailer has checked good goes on to its end (R433). -/
def Hw.finishCut (h : Hw) (q : Port) : Hw :=
  match (h.port q).fwd.find? (fun e => e.started && e.complete) with
  | some e =>
    let bytes := fwdBytes e e.sentStamp
    let h1 := h.setPort q { h.port q with fwd := (h.port q).fwd.filter (fun x => !x.started) }
    (h1.sendStriped q ((frameBlocks bytes).drop 1)).frameSent q bytes
  | none => h

/-- Egress descriptors that the port has not sent yet. -/
def unsent (p : Port) (d : EgDesc) : Bool := match p with
  | .a => !d.sentA
  | .b => !d.sentB

/-- The first of the lowest class. -/
def lowestClass {α : Type} (cls : α → Nat) (l : List α) : Option α :=
  match l with
  | [] => none
  | x :: t => some (t.foldl (fun b y => if cls y < cls b then y else b) x)

/-- The conditions of R431 on the frame that is coming in: both ports in UP with their data lanes awake, and equal widths.
A frame whose SOF block already carries trailer bytes is stored (R433). -/
def Hw.cutOk (h : Hw) (p : Port) (e : FwdEntry) : Bool :=
  let q := otherPort p
  h.up p && h.up q && !h.txAsleep p && !h.on (LNK_STATUS_RX_ASLEEP (portNo q)) &&
    decide (h.get (LNK_STATUS_WIDTH 0) = h.get (LNK_STATUS_WIDTH 1)) && decide (34 ≤ e.size)

/-- The frame that the port sends next (R430): the lowest class; at equal class the forwarded frame, then an answer of
the port itself. -/
inductive Pick where
  | fwd (e : FwdEntry)
  | answer (f : Frame)
  | own (d : EgDesc)
  deriving DecidableEq, Repr

def Pick.cls : Pick → Nat
  | .fwd e => e.frame.cls
  | .answer f => f.cls
  | .own d => d.frame.cls

def Hw.pick (h : Hw) (p : Port) : Option Pick :=
  let x := h.port p
  if !h.up p || h.txAsleep p || x.fwd.any (fun e => e.started) then none
  else
    let f := lowestClass (fun (e : FwdEntry) => e.frame.cls) (x.fwd.filter (fun e => e.complete || h.cutOk p e))
    let o := lowestClass (fun (d : EgDesc) => d.frame.cls) (h.net.egress.filter (unsent p))
    lowestClass Pick.cls ((f.map Pick.fwd).toList ++ (x.answers.head?.map Pick.answer).toList ++ (o.map Pick.own).toList)

/-- Send a forwarded frame: stored, whole; cut through, its SOF block now. -/
def Hw.sendFwd (h : Hw) (p : Port) (off : Nat) (e : FwdEntry) : Hw :=
  let sent := h.txStamp p off
  let bytes := fwdBytes e sent
  let x := h.port p
  if e.complete then
    ((h.setPort p { x with fwd := x.fwd.erase e }).sendStriped p (frameBlocks bytes)).frameSent p bytes
  else
    let e1 := { e with started := true, sentStamp := sent }
    let h1 := h.setPort p { x with fwd := x.fwd.map (fun y => if y = e then e1 else y), idleSince := h.ns }
    h1.sendStriped p ((frameBlocks bytes).take 1)

/-- Send an answer of the port itself. -/
def Hw.sendAnswer (h : Hw) (p : Port) (f : Frame) : Hw :=
  let x := h.port p
  ((h.setPort p { x with answers := x.answers.drop 1 }).sendStriped p (frameBlocks f.bytes)).frameSent p f.bytes

/-- What egress does when a descriptor may have left: readouts, gap records and stored records that wait for room go on
(R305, R376, R303, R572). -/
def Hw.pump (h : Hw) : Hw := h.when h.coreOn (fun h => h.cinPump.flushGaps.recPump)

/-- Send an own frame (R450); a PONG gets its ORIG (R495). -/
def Hw.sendOwn (h : Hw) (p : Port) (off : Nat) (d : EgDesc) : Hw :=
  let pay := d.frame.payload
  let f := if d.pong then { d.frame with payload := pay.take 24 ++ timeBytesBe (h.txStamp p off) ++ pay.drop 38 } else d.frame
  let first := match d.firstSent with
    | some t => some t
    | none => some h.ns
  let mark (x : EgDesc) : EgDesc :=
    if x = d then { x with sentA := x.sentA || decide (p = .a), sentB := x.sentB || decide (p = .b), firstSent := first } else x
  let h1 := { h with net := { h.net with egress := h.net.egress.map mark } }
  ((h1.sendStriped p (frameBlocks f.bytes)).frameSent p f.bytes).sweep

/-- The port sends its next frame, if it may. -/
def Hw.sendNext (h0 : Hw) (p : Port) (off : Nat) (ownOnly : Bool) : Hw :=
  let h := h0.fillLanes p
  match h.pick p with
  | some (.fwd e) => if ownOnly then h else h.sendFwd p off e
  | some (.answer f) => if ownOnly then h else h.sendAnswer p f
  | some (.own d) => h.sendOwn p off d
  | none => h

/-- A port that lags LAG_US behind the other drops its copies (R450). -/
def Hw.lagDrop (h : Hw) (p : Port) : Hw :=
  let us := h.get STR_FRM_CTL_LAG_US
  let late (d : EgDesc) : Bool := unsent p d && decide (us ≠ 0) && d.firstSent.any (fun t => h.due (t + 1000 * us))
  let n := (h.net.egress.filter late).length
  let mark (d : EgDesc) : EgDesc := if late d then { d with sentA := d.sentA || decide (p = .a), sentB := d.sentB || decide (p = .b) } else d
  if h.up p then
    (({ h with net := { h.net with egress := h.net.egress.map mark } }).bump (LNK_FWD_DROP_LAG (portNo p)) n).sweep
  else h

/-! ### The trailer (R426) -/

/-- A consumed TIME or LINK_CTL frame reaches the port's own lists after the duplicate window (R429, R441, R491). A
broadcast PING is a valid time frame that draws no PONG. -/
def Hw.portMessage (h : Hw) (p : Port) (f : Frame) (stamp : Nat) : Hw :=
  let a := h.dupAccept p f
  let h1 := a.1
  let x := h1.port p
  if a.2 = false then h1
  else if f.ty = 0x40 then
    h1.when (decide (f.payload.length = 4 ∧ 1 ≤ beAt f.payload 0 1 ∧ beAt f.payload 0 1 ≤ 3)) (fun h => h.setPort p { x with linkMsgs := x.linkMsgs ++ [{ frame := f, stamp := stamp }] })
  else if h1.timeValid f then
    if timeMsg f = 2 ∧ h1.mine f.dst = false then h1.validTime
    else h1.setPort p { x with timeMsgs := x.timeMsgs ++ [{ frame := f, stamp := stamp }] }
  else h1

/-- A whole frame with a good trailer. -/
def Hw.rxGood (h0 : Hw) (p : Port) (r : RxFrame) (f : Frame) (trailer : List Byte) : Hw :=
  let q := otherPort p
  let h := h0.bump (LNK_RX_FRAMES_FRAMES (portNo p)) 1
  let x := h.port p
  -- its FIFO entry is complete
  let t := h.net.trailerNext
  let fin (e : CmdEntry) : CmdEntry :=
    if r.queued ∧ e.trailer = none then { e with frame := f, trailer := some t, trailerNs := h.ns } else e
  let h' := h.setPort p { x with rx := none, fifo := x.fifo.map fin }
  let h1 : Hw := { h' with net := { h'.net with trailerNext := t + 1 } }
  -- its copy on the way out is complete
  let y := h1.port q
  let done (e : FwdEntry) : FwdEntry :=
    if e.complete then e else { e with frame := { e.frame with payload := f.payload }, trailer := trailer, complete := true }
  let h2 := h1.when r.forwarded (fun h => (h.setPort q { y with fwd := y.fwd.map done }).finishCut q)
  if r.refused then
    h2.portAnswer p f.ty f.src ((f.payload ++ zeros 2).take 2 ++ [0x01] ++ zeros 5)
  else if r.consumed && !f.rsp && (decide (f.ty = 0x20) || decide (f.ty = 0x40)) then
    h2.portMessage p f r.stamp
  else h2

/-- The frame in reception ends: its trailer is checked (R423, R426). -/
def Hw.rxTrailer (h : Hw) (p : Port) (bytes : List Byte) : Hw :=
  match (h.port p).rx with
  | some r =>
    let len := lenOf r.sof
    let whole := (r.sof ++ bytes).take (20 + len)
    let body := (whole.drop 16).take len
    let trailer := whole.drop (16 + len)
    if whole.length = 20 + len ∧ beNat trailer = crc32c (whole.take 14 ++ body) then
      h.rxGood p r (frameOf whole body) trailer
    else ((h.bump (LNK_RX_ERR_CRC_ERR (portNo p)) 1).crcCountUp p).dropRx p
  | none => h

/-! ### Event frames (R445, R563) -/

/-- The 40 bytes of an item. -/
def Hw.itemBytes (h : Hw) : EventItem → List Byte
  | .fault i cls raises info t =>
    [0, BitVec.ofNat 8 i, BitVec.ofNat 8 (64 * cls + 32 * b2n (h.present i)), BitVec.ofNat 8 raises] ++ beBytes 4 info ++
      timeBytesBe t ++ zeros 18
  | .trigger b => b

/-- Waiting items go into one EVENT frame, if class 4 takes it; its header carries the epoch of the first (R39). -/
def Hw.buildEvents (h : Hw) : Hw :=
  let items := h.net.events.take 102
  if h.coreOn && !items.isEmpty && h.room 4 then
    let f := h.ownFrame 0x12 4 (h.get STR_CTL_DEST) false ((items.head?.map (·.2)).getD 0) (items.flatMap (fun e => h.itemBytes e.1))
    let q := h.enqueue f
    { q.1 with net := { q.1.net with events := q.1.net.events.drop 102 } }
  else h

/-! ### The firmware event queue (R452, R463) -/

/-- The word of an item. -/
def evqWord (i : EvqItem) : Word := BitVec.ofNat 32 (2 ^ 31 + 2 ^ 29 * (i.cls % 4) + 2 ^ 22 * (i.src % 64) + i.info % 2 ^ 22)

/-- The oldest item of the highest class. -/
def evqFirst (l : List EvqItem) : Option EvqItem := lowestClass (fun (i : EvqItem) => 3 - i.cls) l

/-- A read removes the item it returns. -/
def Hw.evqRead (h : Hw) : Hw × Word :=
  match evqFirst h.net.evq with
  | some i => ({ h with net := { h.net with evq := h.net.evq.erase i } }, evqWord i)
  | none => (h, 0)

/-- What a read finds without removing anything (R16). -/
def Hw.evqPeek (h : Hw) : Word := (evqFirst h.net.evq).elim 0 evqWord

/-! ### The commands -/

/-- R427: what the lanes have received ends with an SOF block; tracking takes the symbols observed (R401). -/
def execFrameHeaderReceive (p : Port) (lvs : List (List Int)) (off : Nat) (obs : List TrackObs) (s : State) : Out :=
  onPort s true (fun h => h.when (h.up p) (fun h =>
    let r := h.hear p lvs
    let g := r.hw.track p r.refs obs
    match r.sof with
    | some b => g.rxHeader p (b.body.drop 2) b.lane off
    | none => g))

/-- R426: what the lanes have received completes the frame's data blocks. -/
def execFrameTrailerCheck (p : Port) (lvs : List (List Int)) (s : State) : Out :=
  onPort s true (fun h => h.when (h.up p) (fun h =>
    let r := h.hear p lvs
    r.hw.rxTrailer p r.data))

/-- R430. -/
def execFrameForward (p : Port) (off : Nat) (s : State) : Out := onPort s true (fun h => (h.sendNext p off false).pump)

/-- R450. -/
def execEgressSend (p : Port) (off : Nat) (s : State) : Out := onPort s true (fun h => (h.sendNext p off true).pump)

/-- R450. -/
def execEgressLagDrop (p : Port) (s : State) : Out := onPort s true (fun h => (h.lagDrop p).pump)

/-- R445. -/
def execEventFrameBuild (s : State) : Out := actOn s true Hw.buildEvents

/-- R452, R16: while a snapshot is held the read returns the frozen item and removes nothing. -/
def execFltEvtQueueRead (q : Requester) (s : State) : Out :=
  if s.hw.readable q then
    match s.frozen with
    | some f => .next { s with rdata := [f.evqPeek], status := 0 }
    | none => .next { s with hw := s.hw.evqRead.1, rdata := [s.hw.evqRead.2], status := 0 }
  else .next { s with rdata := [0], status := 0 }

end Sys2Proof.Machine
end

