-- ==== Sys2Proof/Machine/DualPort.lean ====
section
/-!
DEFINITION. Dual-port operation (chapter 14): giving up and taking back control, shadow entries, CRC windows and forced
selection; and the LINK_CTL messages that a port serves itself (R441).
-/
namespace Sys2Proof.Machine

/-! ### CRC windows (R467) -/

/-- A CRC window of a port in UP ends, and the next begins. -/
def Hw.crcWindow (h : Hw) (p : Port) : Hw :=
  let n := portNo p
  let x := h.port p
  let thr := h.get (LNK_CRC_MON_THR n)
  let i := srcPortCrcRate n
  match x.crcStart with
  | some t =>
    let e := t + msNs (h.get (LNK_CRC_MON_WIN_MS n))
    if h.up p && h.due e then
      let past := decide (thr ≠ 0 ∧ thr < x.crcCount)
      let h1 := h.setPort p { x with crcCount := 0, crcStart := some e, crcRate := past }
      let h2 := if past then (if h1.present i then h1 else h1.raise i (min x.crcCount 0xFFFF)) else h1.causeEnd i
      h2.control
    else h
  | none => h

/-- A write of LNKx_CRC_MON: with THR = 0 the CRC-rate condition is never present, so it ends at once. -/
def Hw.crcMonWrite (h : Hw) (p : Port) (v : Word) : Hw :=
  let n := portNo p
  let h1 := h.writeRw (LNK_CRC_MON n) 0xFFFFFFFF v
  if h1.get (LNK_CRC_MON_THR n) = 0 then
    ((h1.setPort p { h1.port p with crcRate := false }).causeEnd (srcPortCrcRate n)).control
  else h1

/-! ### The active port (R468 to R476) -/

/-- The port that holds control, where one does. -/
def Hw.activeOf (h : Hw) : Option Port :=
  match h.activePort with
  | 0 => some .a
  | 1 => some .b
  | _ => none

def gaveUp (p : Port) : Fld := match p with
  | .a => LNK_PORT_STATUS_A_GAVE_UP
  | .b => LNK_PORT_STATUS_B_GAVE_UP

/-- The active port gives up control (R471). -/
def Hw.giveUp (h : Hw) : Hw :=
  match h.activeOf with
  | some p =>
    let c := h.portCause p
    if c = 0 ∨ h.forcing = some p then h
    else
      let q := otherPort p
      let h1 := (h.put (gaveUp p) 1).raise (srcPortGiveUp (portNo p)) c
      h1.setActive (if h1.portCause q = 0 then portNo q else 2)
  | none => h

/-- A port becomes healthy while no port holds control; the preferred one is first (R472). -/
def Hw.portHealthy (h : Hw) (p : Port) : Hw :=
  if h.activeOf.isNone && decide (h.portCause p = 0) then
    h.setActive (portNo (if h.portCause h.prefPort = 0 then h.prefPort else p))
  else h

/-- The hold time of the preferred port is over (R473): it takes control back from the other port (R475). -/
def Hw.revert (h : Hw) : Hw :=
  match h.net.holdSince with
  | some t =>
    if h.activeOf = some (otherPort h.prefPort) ∧ h.due (t + msNs (h.get LNK_REVERT_HOLD_HOLD_MS)) = true then
      h.setActive (portNo h.prefPort)
    else h
  | none => h

/-- Entries in shadow that were not promoted in time are discarded (R469). -/
def Hw.shadowOut (h : Hw) : Hw :=
  match h.activeOf with
  | some p =>
    let q := otherPort p
    let y := h.port q
    let us := max 1 (h.get LNK_PORT_CTL_SHADOW_US)
    let out (e : CmdEntry) : Bool := e.trailer.isSome && !e.promoted && !e.held && h.due (e.trailerNs + 1000 * us)
    (h.setPort q { y with fifo := y.fifo.filter (fun e => !out e) }).bump (LNK_SHADOW_DROPPED (portNo q)) (y.fifo.filter out).length
  | none => h

/-- FORCE takes a value: the forced port is active at once, if it may be (R476). -/
def Hw.setForcePort (h : Hw) (v : Nat) : Hw := (h.put LNK_PORT_CTL_FORCE v).control

/-- A write that FIELD closes has no effect and raises LCS_VIOLATION with its path (R620). -/
def Hw.closedWrite (h : Hw) (q : Requester) : Hw := h.raise srcLcsViolation (pathOf q)

/-- A write of LNK_PORT_CTL: FORCE outside FIELD, SHADOW_US at once, PREF and REVERT_EN staged (R477, R478). In FIELD a
write that would change FORCE is closed (R620). -/
def Hw.portCtlWrite (h : Hw) (q : Requester) (v : Word) : Hw :=
  let h1 := (h.writeRw LNK_PORT_CTL 0xFFF0 v).stage LNK_PORT_CTL 0x3 v
  let f := bits v 17 16
  if h1.inField then h1.when (decide (f ≠ h1.get LNK_PORT_CTL_FORCE)) (fun h => h.closedWrite q) else h1.setForcePort f

/-! ### LINK_CTL (R441) -/

/-- The next link message of the port, if it has this OP. -/
def Hw.takeLink (h : Hw) (p : Port) (op : Nat) : Hw × Option Frame :=
  match (h.port p).linkMsgs with
  | m :: rest =>
    if beAt m.frame.payload 0 1 = op then (h.setPort p { h.port p with linkMsgs := rest }, some m.frame) else (h, none)
  | [] => (h, none)

/-- WAKE: CORE wakes, and the data lanes are held awake for ARG ms. -/
def Hw.linkWake (h : Hw) (p : Port) : Hw :=
  match h.takeLink p 1 with
  | (h1, some f) =>
    let ms := beAt f.payload 2 2
    let h2 := h1.wakeRequest (5 + portNo p)
    if ms = 0 then h2
    else (h2.setPort p { h2.port p with holdAwake := max (h2.port p).holdAwake (h2.ns + 1000000 * ms) }).wakeLanes p
  | (h1, none) => h1

/-- STATUS: the port answers with its status and the hub ID. -/
def Hw.linkStatus (h : Hw) (p : Port) : Hw :=
  match h.takeLink p 2 with
  | (h1, some f) =>
    h1.portAnswer p 0x40 f.src ([2, 0, 0, 0] ++ beBytes 4 (h1.reg (LNK_STATUS (portNo p))).toNat ++ beBytes 2 (h1.get SYS_HUB_ID_ID) ++ [0, 0])
  | (h1, none) => h1

/-- RETRAIN. -/
def Hw.linkRetrain (h : Hw) (p : Port) : Hw :=
  match h.takeLink p 3 with
  | (h1, some _) => h1.portDown p
  | (h1, none) => h1

/-! ### The commands -/

def execCrcWindowEnd (p : Port) (s : State) : Out := onPort s true (fun h => h.crcWindow p)

def execGiveUp (s : State) : Out := actOn s true Hw.giveUp

def execPortHealthy (p : Port) (s : State) : Out := actOn s true (fun h => h.portHealthy p)

def execRevertHoldExpire (s : State) : Out := actOn s true Hw.revert

def execShadowTimeout (s : State) : Out := actOn s true Hw.shadowOut

def execForceWrite (q : Requester) (v : Word) (s : State) : Out := accWrite s q true (fun h => h.portCtlWrite q v)

def execLinkCtlWake (p : Port) (s : State) : Out := onPort s true (fun h => h.linkWake p)

def execLinkCtlStatus (p : Port) (s : State) : Out := onPort s true (fun h => h.linkStatus p)

def execLinkCtlRetrain (p : Port) (s : State) : Out := onPort s true (fun h => h.linkRetrain p)

end Sys2Proof.Machine
end

