-- ==== Sys2Proof/Machine/Faults.lean ====
section
/-!
DEFINITION. The fault collector's commands (chapter 18): raises, escalation, clearing, parks, SAFE and FAULT_N; and the
supply and reference monitors (R654, R656).
-/
namespace Sys2Proof.Machine

/-! ### Escalation (R555) -/

/-- The reaction that a source's map names; it is ignored for NOTE and ALERT sources (R554). -/
def Hw.reactOf (h : Hw) (i : Nat) : Nat := if 2 ≤ h.get (FLT_MAP_CLASS i) then h.get (FLT_MAP_REACT i) else 0

/-- The reaction timer of a source expires with its status bit set. -/
def Hw.timerExpire (h : Hw) (i : Nat) : Hw :=
  match storeGet (fun _ => none) h.flt.timers i with
  | some t =>
    if h.due t && h.on (statusBit i) then
      let r := h.reactOf i
      let h1 := ((h.setTimer i none).setForce i (some r)).each (h.objects i) (fun h o => h.reactOn i r o)
      h1.raise srcEscalated (64 * r + i)
    else h
  | none => h

/-! ### Clearing (R560, R557) -/

/-- A status bit clears: its timer is cancelled, and a park or stop in force ends at the next frame boundary. -/
def Hw.clearSource (h : Hw) (i : Nat) : Hw :=
  let ending := match h.forceOf i with
    | some r => if r = 1 ∨ r = 2 then [(i, r, h.objects i)] else []
    | none => []
  let h1 := ((((h.put (statusBit i) 0).setTimer i none).setForce i none).setObjects i [])
  { h1 with flt := { h1.flt with ending := h1.flt.ending ++ ending } }

/-- A write of 1 to status bits; a bit whose cause is present stays set. -/
def Hw.statusClear (h : Hw) (hi : Bool) (v : Word) : Hw :=
  let base := if hi then 32 else 0
  h.each (List.range 32) (fun h k =>
    let i := base + k
    if natBit v.toNat k && h.on (statusBit i) && !h.present i then h.clearSource i else h)

/-- A park or stop of a cleared source ends at a frame boundary: front-end windows of its channels, or the restart of its
drivers 0.3 us later (R557, R100). -/
def Hw.parkEnd (h : Hw) (i : Nat) : Hw :=
  match h.boundaryNow with
  | some b =>
    let mine := h.flt.ending.filter (fun e => decide (e.1 = i))
    let h1 := { h with flt := { h.flt with ending := h.flt.ending.filter (fun e => decide (e.1 ≠ i)) } }
    h1.each mine (fun h e =>
      if e.2.1 = 1 then
        h.each (e.2.2.flatMap (fun o => h.objChans i o)) (fun h ch => if h.parked ch then h else h.feWindowAt ch b)
      else
        let ds := (e.2.2.flatMap (fun o => objDrivers i o)).filter (fun d => !h.stopped d)
        (h.each ds Hw.markChange).showFaultOff ds)
  | none => h

/-! ### SAFE (R558, R559) -/

/-- The source of SAFE for a write of ENTER. -/
abbrev safeByWrite : Nat := 0x40

/-- A RESUME: it is refused while the status bit of a source that names SAFE is set, and has no effect outside SAFE. Answers
whether it is accepted. -/
def Hw.resumeSafe (h : Hw) : Hw × Bool :=
  if !h.safe then (h, false)
  else if (List.range 64).any (fun i => h.on (statusBit i) && decide (h.get (FLT_MAP_REACT i) = 4)) then (h.put FLT_SAFE_REFUSED 1, false)
  else ({ h with flt := { h.flt with safeEnding := true } }, true)

/-- A write of FLT_SAFE (R582): REFUSED clears, RESUME outside FIELD (R620), and ENTER, which cancels an end. -/
def Hw.safeWrite (h : Hw) (q : Requester) (v : Word) : Hw :=
  let h1 := h.clearFlag FLT_SAFE_REFUSED v false
  let h2 := h1.when (natBit v.toNat 30) (fun h => if h.inField then h.raise srcLcsViolation (pathOf q) else h.resumeSafe.1)
  h2.when (natBit v.toNat 31) (fun h => h.enterSafe safeByWrite)

/-- SAFE ends at a frame boundary: routes close and drivers start 0.3 us later (R559, R60, R100). -/
def Hw.safeEnd (h : Hw) : Hw :=
  match h.boundaryNow with
  | some b =>
    if h.safe && h.flt.safeEnding then
      let h1 := { h.put FLT_SAFE_ACTIVE 0 with flt := { h.flt with safeEnding := false }, cal := { h.cal with pickHold := true } }
      let h2 := ((h1.moveSwitches b h1.unsettled).each (List.range nDrv) Hw.markChange).showFaultOff (List.range nDrv)
      h2.each (List.range nChan) (fun h ch => if h.parked ch then h else h.feWindowAt ch b)
    else h
  | none => h

/-! ### FAULT_N (R561) -/

/-- The minimum width ends. -/
def Hw.minwEnd (h : Hw) : Hw :=
  match h.flt.faultNUntil with
  | some t => h.when (h.due t) (fun h => { h with flt := { h.flt with faultNUntil := none } })
  | none => h

/-! ### Supplies and the reference (R654, R656) -/

/-- Rails by number: 0 VCORE, 1 VSER, 2 VAON, 3 VANA, 4 VFE, 5 VHVP, 6 VHVN, 7 VEXC; source and INFO. -/
def railSource : Nat → Nat × Nat
  | 0 => (srcPwrCoreUv, 0)
  | 1 => (srcPwrCoreUv, 0)
  | 2 => (srcPwrAonUv, 0)
  | 3 => (srcPwrAnaUv, 0)
  | 4 => (srcPwrAnaUv, 1)
  | 5 => (srcPwrHvFault, 1)
  | 6 => (srcPwrHvFault, 2)
  | _ => (srcPwrHvFault, 4)

/-- A monitor crosses its threshold; its rail has been in range. -/
def Hw.railTrip (h : Hw) (rail : Nat) : Hw :=
  let arm := if h.boot.armed.contains rail then h.boot.armed else h.boot.armed ++ [rail]
  ({ h with boot := { h.boot with armed := arm } }).raise (railSource rail).1 (railSource rail).2

/-- A field-die rail has not entered its range 1 s after t = 0. -/
def Hw.railTimeout (h : Hw) (rail : Nat) : Hw :=
  if h.due 1000000000 && !h.boot.armed.contains rail && h.on SYS_BOOT_WAIT_FIELD then
    h.raise (railSource rail).1 (railSource rail).2
  else h

/-- REFCLK is lost: every fast domain stops, and the timebase holds its value until the next start. -/
def Hw.refclkLoss (h : Hw) : Hw :=
  if h.boot.refclkLost then h
  else
    let h1 := h.raise srcRefclkLoss 0
    let off : DomSt := { mode := .off, again := false, since := h.ns }
    { h1 with
      boot := { h1.boot with refclkLost := true }
      clk := { h1.clk with timing := off, core := off, conv := (List.range 9).foldl (fun m c => storeSet (fun _ => dom0) m c off) [], stitch := off }
      smp := { h1.smp with pinWait := none } }

/-! ### The commands -/

def execFaultRaise (i info : Nat) (s : State) : Out := actOn s (isSource i) (fun h => h.raise i info)

/-- R552: the cause of a level source. -/
def execFaultCauseEnd (i : Nat) (s : State) : Out := actOn s (isSource i) (fun h => h.when (isLevel i) (fun h => h.causeEnd i))

def execReactionTimerExpire (i : Nat) (s : State) : Out := actOn s (isSource i) (fun h => h.timerExpire i)

def execFaultStatusClear (q : Requester) (hi : Bool) (v : Word) (s : State) : Out := accWrite s q true (fun h => h.statusClear hi v)

def execParkEnd (i : Nat) (s : State) : Out := actOn s (isSource i) (fun h => h.parkEnd i)

def execFaultNMinwEnd (s : State) : Out := actOn s true Hw.minwEnd

def execSafeEnter (q : Requester) (v : Word) (s : State) : Out := accWrite s q true (fun h => h.safeWrite q v)

def execSafeResume (q : Requester) (v : Word) (s : State) : Out := accWrite s q true (fun h => h.safeWrite q v)

def execSafeEnd (s : State) : Out := actOn s true Hw.safeEnd

def execSupplyMonitorTrip (rail : Nat) (s : State) : Out := actOn s (decide (rail < 8)) (fun h => h.railTrip rail)

def execFieldRailTimeout (rail : Nat) (s : State) : Out :=
  actOn s (decide (3 ≤ rail ∧ rail < 8)) (fun h => h.railTimeout rail)

def execRefclkLoss (s : State) : Out := actOn s true Hw.refclkLoss

end Sys2Proof.Machine
end

