-- ==== Sys2Proof/Machine/LiveRead.lean ====
section
/-!
DEFINITION. What a register reads as (R12, R13, R16, R17, R643): stored fields with the fields that show something held
elsewhere, what each requester keeps of its own, and the windows.
-/
namespace Sys2Proof.Machine

/-! ### Fields that show something held elsewhere -/

/-- A word of a 64-bit value: its low or high half. -/
def half64 (n : Nat) (hi : Bool) : Nat := if hi then n / 2 ^ 32 % 2 ^ 32 else n % 2 ^ 32

/-- Words 2 to 7 of a DMA descriptor: WPOS, RPOS and SYNC_POS (R169). -/
def Hw.dmaWord (h : Hw) (s i : Nat) : Nat :=
  let x := h.stream s
  let v := match i / 2 with
    | 1 => x.wpos
    | 2 => x.rpos
    | _ => (x.eras.head?.map Era.syncPos).getD 0
  half64 v (decide (i % 2 = 1))

/-- A settle window of the channel is open (R92, R104, R110). -/
def Hw.settling (h : Hw) (ch : Nat) : Bool := h.inFeWindow ch h.time.now || h.inExWindow ch h.time.now

/-- A response that the stream selects for either bank, or the half-band set, is marked bad (R208, R214). -/
def Hw.romBad (h : Hw) (s : Nat) : Bool :=
  h.on FIL_LOAD_HB_BAD || h.respBad (h.get (FIL_RESP_RESP0 s)) || h.respBad (h.get (FIL_RESP_RESP1 s))

/-- At least one data lane of the port is awake (R33): the port has left CLOCK, and its lanes do not sleep both ways. -/
def Hw.lanesAwake (h : Hw) (p : Port) : Bool :=
  decide (2 ≤ h.linkState p) && !(h.txAsleep p && h.on (LNK_STATUS_RX_ASLEEP (portNo p)))

def Hw.domOn (h : Hw) (d : Domain) : Bool := decide ((h.dom d).mode = .on)

/-- A lane's readmission count in ms of good training AMs, while it is counted (R408, R417). -/
def Hw.goodMs (h : Hw) (p : Port) (l : Nat) : Nat :=
  if h.on (LNK_LANE_READMIT (portNo p) l) then min 4095 ((h.ns - (h.lane p l).goodSince) / 1000000) else 0

/-- A tracking offset of the lane stands at its bound (R402, R418). -/
def Hw.atLimit (h : Hw) (p : Port) (l : Nat) : Bool := [0, 1, 2, 3].any (fun w => decide ((h.offset p l w).natAbs = 8))

/-- BOUND and FROZEN: no symbol of the last 1,024 blocks received on the lane was qualified (R418). -/
def Hw.trkLive (h : Hw) (p : Port) (l : Nat) : Nat :=
  2 ^ 23 * b2n (h.atLimit p l) + 2 ^ 22 * b2n (decide (1024 ≤ (h.lane p l).blank))

/-- Bits that a register's derived fields give, and the mask of those fields; (0, 0) where every field is stored. -/
def Hw.derived (h : Hw) (a : Nat) : Nat × Nat :=
  let port := if a / 0x10000 = 12 then Port.a else Port.b
  match a / 0x10000 with
  | 1 =>
    let t := (a - 0x12000) / 4
    if 0x12000 ≤ a ∧ t < nTerm then
      (8 * b2n ((h.termChans t).any h.isOpen) + 4 * b2n (h.isolated t), 0xC)
    else (0, 0)
  | 2 =>
    let m := (a - 0x20800) / 4
    if 0x20800 ≤ a ∧ m < nChan then (8192 * b2n (h.isOpen m) + 4096 * b2n (h.settling m), 0x3000) else (0, 0)
  | 5 =>
    if 0x58000 ≤ a ∧ a < 0x5C000 ∧ 2 ≤ a / 4 % 8 then (h.dmaWord ((a - 0x58000) / 32) (a / 4 % 8), 0xFFFFFFFF) else (0, 0)
  | 6 =>
    let s := (a - 0x62000) / 4
    if 0x62000 ≤ a ∧ s < nStream then (128 * b2n (h.romBad s), 0x80) else (0, 0)
  | 8 =>
    if a = STR_BF_STATUS then
      (65536 * b2n (!h.str.backfill.isEmpty) + 8192 * min 7 h.str.backfill.length, 0x1E000)
    else if a = STR_EGQ_STATUS then
      ((List.range 8).foldl (fun n c => n + b2n (decide (0 < h.classFill c)) * 2 ^ (8 + c)) 0, 0xFF00)
    else if 0x83010 ≤ a ∧ a < 0x83030 then (h.classFill ((a - 0x83010) / 4), 0x3FF)
    else (0, 0)
  | 10 =>
    let t := (a - 0xA2000) / 4
    if 0xA2000 ≤ a ∧ t < 6144 then (allotOf h t, 0x7) else (0, 0)
  | 12 =>
    if a = LNK_FIFO 0 then ((h.port .a).fifo.length, 0x7F)
    else if 0xC0020 ≤ a ∧ a < 0xC0030 then (h.goodMs .a ((a - 0xC0020) / 4), 0xFFF)
    else if 0xC0030 ≤ a ∧ a < 0xC0040 then (h.trkLive .a ((a - 0xC0030) / 4), 3 * 2 ^ 22)
    else if a = LNK_PORT_STATUS then
      (4096 * h.portCause .b + 256 * h.portCause .a + 8 * b2n h.net.holdSince.isSome + 4 * b2n h.forcedPort.isSome, 0x770C)
    else (0, 0)
  | 13 =>
    if a = LNK_FIFO 1 then ((h.port .b).fifo.length, 0x7F)
    else if 0xD0020 ≤ a ∧ a < 0xD0030 then (h.goodMs port ((a - 0xD0020) / 4), 0xFFF)
    else if 0xD0030 ≤ a ∧ a < 0xD0040 then (h.trkLive port ((a - 0xD0030) / 4), 3 * 2 ^ 22)
    else (0, 0)
  | 14 => if a ≤ TIM_NOW_SHI then (((nowWords h 0).getD (a / 4 % 4) 0).toNat, 0xFFFFFFFF) else (0, 0)
  | 15 =>
    -- a sensor whose temperature is not known reads 0 (R509)
    let n := (a - CAL_TEMP 0) / 4
    if CAL_TEMP 0 ≤ a ∧ n < 10 then (if h.tempKnown n then h.get (CAL_TEMP_T n) else 0, 0xFFFF) else (0, 0)
  | 16 =>
    if a = FLT_PIN then (2 ^ 31 * b2n h.faultNLow, 2 ^ 31)
    else if a = FLT_EVT_QUEUE then (h.evqPeek.toNat, 0xFFFFFFFF)
    else if a = FLT_EVQ_STAT then (h.net.evq.length, 0x1FF)
    else (0, 0)
  | 17 =>
    if a = REC_STATUS then
      (512 * h.recd.badSectors.length + (h.recd.slots.filter (fun p => p.2.isSome)).length, 0x7FFF)
    else if a = REC_OPSEC_LO then (half64 h.opsec false, 0xFFFFFFFF)
    else if a = REC_OPSEC_HI then (half64 h.opsec true, 0xFF)
    else if a = REC_BUNT_STAT then
      ((List.range 8).foldl (fun n i => n + b2n (natBit (h.reg (REC_BUNT_HI i)).toNat 31) * 2 ^ i) 0, 0xFF)
    else (0, 0)
  | 20 =>
    if a = CLK_DOMAIN_STATUS then
      (32 * b2n (h.lanesAwake .b) + 16 * b2n (h.lanesAwake .a) + 8 * b2n (h.domOn .stitch) + 4 * b2n ((List.range 9).any (fun c => h.domOn (.conv c))) + 2 +
        b2n (h.domOn .timing), 0x3F)
    else (0, 0)
  | _ => (0, 0)

/-- Bits of a register that a read shows: every field but WO ones (R13). -/
def RegRow.readMask (r : RegRow) : Nat := r.rw ||| r.rws ||| r.w1c ||| r.rc ||| r.ro

/-- The live value of a register that is one for all requesters; 0 where there is none (R12). -/
def Hw.liveReg (h : Hw) (a : Nat) : Word :=
  match regRowAt a with
  | some r =>
    let d := h.derived a
    ((h.reg a &&& ~~~(BitVec.ofNat 32 d.2)) ||| BitVec.ofNat 32 d.1) &&& BitVec.ofNat 32 r.readMask
  | none => 0

/-! ### Registers of each requester (R641) -/

/-- CAL_FE_UNIT of a front end (R532). -/
def Hw.feUnitWord (h : Hw) (u : Nat) : Word :=
  if u < nUnit then
    let x := h.feItem u
    BitVec.ofNat 32 (2 ^ 28 * min 15 x.fails + 2 ^ 27 * b2n (!x.done) + (x.tCal.map (ofSigned 16)).getD 0)
  else 0

/-- The registers that a requester keeps for itself or sees through its own page; `f` is the hub whose RO fields a read
shows. -/
def Hw.ownReg (h f : Hw) (q : Requester) (a : Nat) : Option Word :=
  let u := bits (h.rq q).fePage 8 0
  if a = SEQ_WIN_PAGE then some (h.rq q).seqPage
  else if a = TRG_WIN_PAGE then some (h.rq q).trgPage
  else if a = CAL_FE_PAGE then some (h.rq q).fePage
  else if a = REC_WIN_SLOT then some (h.rq q).recSlot
  else if a = CAL_FE_UNIT then some (f.feUnitWord u)
  else if 0xF0200 ≤ a ∧ a < 0xF0300 ∧ a % 4 = 0 then some (if u < nUnit then f.feTrim u ((a - 0xF0200) / 4) else 0)
  else none

/-! ### Windows (R643) -/

/-- The address lies in the mask window, and the point that it shows a requester (R316). -/
def isMaskWindow (a : Nat) : Bool := decide (0x94000 ≤ a ∧ a < 0x98000 ∧ a % 4 = 0)
def Hw.windowPoint (h : Hw) (q : Requester) (a : Nat) : Nat := 2048 * bits (h.rq q).trgPage 1 0 + (a - 0x94000) / 8
/-- Where a requester's held and latched words of a mask point stand among its others. -/
def pointKey (p : Nat) : Nat := 0x30000000 + 8 * p

/-- A 32-bit word of a byte list, least significant byte first. -/
def wordAt (l : List Byte) (i : Nat) : Word := BitVec.ofNat 32 (leAt l (4 * i) 4)

/-- A word of recorder RAM as stored (R569, R589). -/
def Hw.ramWord (h : Hw) (slot i : Nat) : Word72 := storeGet (fun _ => 0) h.recd.ram (32 * slot + i)

/-- What a window address reads as, for the windows whose words are values of their own; none elsewhere. -/
def Hw.windowWord32 (h : Hw) (q : Requester) (a : Nat) : Option Word :=
  if 0x98000 ≤ a ∧ a < 0xA0000 then
    some (h.segWord (256 * bits (h.rq q).trgPage 11 8 + (a - 0x98000) / 128) (a / 4 % 32))
  else if 0xB8000 ≤ a ∧ a < 0xC0000 then
    some ((h.dirEntry ((a - 0xB8000) / 32)).elim 0 (fun b => wordAt b.bytes (a / 4 % 8)))
  else if 0x110100 ≤ a ∧ a < 0x110200 then
    let w := secData (h.ramWord (bits (h.rq q).recSlot 7 0) ((a - 0x110100) / 8))
    some (if a % 8 = 0 then lo32 w else hi32 w)
  else none

/-! ### A read on the bus -/

/-- A register as a read shows it: while a snapshot is held its RO, RC and W1C fields are the frozen ones (R16, R40). -/
def Hw.shown (h : Hw) (frozen : Option Hw) (a : Nat) : Word :=
  match frozen, regRowAt a with
  | some f, some r =>
    let live := BitVec.ofNat 32 (r.rw ||| r.rws)
    (h.liveReg a &&& live) ||| (f.liveReg a &&& ~~~live)
  | _, _ => h.liveReg a

/-- The word at an address that no latch holds, as a requester sees it, without any effect of the read. -/
def Hw.viewWord (h : Hw) (frozen : Option Hw) (q : Requester) (a : Nat) : Word :=
  match h.windowWord32 q a, h.ownReg (frozen.getD h) q a with
  | some w, _ => w
  | none, some w => w
  | none, none => h.shown frozen a

/-- What a read does to its register: RC fields clear (R13), and the event queue gives up the item it returns (R452). -/
def Hw.readEffect (h : Hw) (a : Nat) : Hw :=
  if a = FLT_EVT_QUEUE then h.evqRead.1
  else match regRowAt a with
    | some r => h.when (decide (r.rc ≠ 0)) (fun h => h.clearOnRead a r.rc)
    | none => h

/-- The half of a word of 64 bits that an address names, with its latch (R17): the low half latches the high one. -/
def Hw.readPair (h : Hw) (q : Requester) (key : Nat) (hi : Bool) (w : Word64) : Hw × Word :=
  if hi then (h, (h.latched q (key + 4)).getD (hi32 w)) else (h.setLatch q (key + 4) (hi32 w), lo32 w)

/-- A read of the register space. A misaligned read, and one that the bus does not serve, reads 0 (R11, R642). -/
def Hw.busRead (h : Hw) (frozen : Option Hw) (q : Requester) (a : Nat) : Hw × Word :=
  if h.readable q = false ∨ a % 4 ≠ 0 then (h, 0)
  else if 0x10000000 ≤ a ∧ a < 0x11800000 then
    let w := windowWord a
    match (if w.2 then h.latched q a else none) with
    | some v => (h, v)
    | none =>
      let r := h.memRead w.1 finderBus
      if w.2 then (r.1, hi32 r.2) else (r.1.setLatch q (a + 4) (hi32 r.2), lo32 r.2)
  else if isTableWindow a then
    let e := h.windowEntry q a
    h.readPair q (entryKey e) (decide (a % 8 = 4)) (entryData h.seq.live e)
  else if isMaskWindow a then
    let p := h.windowPoint q a
    h.readPair q (pointKey p) (decide (a % 8 = 4)) (h.maskPoint p)
  else
    let v := valueOf a
    if a ≠ v.1 then (h, (h.latched q a).getD (h.viewWord frozen q a))
    else
      let w := h.viewWord frozen q a
      let others := ((valueWords v.1 v.2).drop 1).map (h.viewWord frozen q)
      let h1 := h.when (decide (1 < v.2)) (fun h => h.latchWords q v.1 others)
      (h1.when frozen.isNone (fun h => h.readEffect a), w)

end Sys2Proof.Machine
end

