-- ==== Sys2Proof/Machine/Recorder.lean ====
section
/-!
DEFINITION. The event recorder's commands (chapter 18): triggers, assembly, the NVM ring, operating seconds and the
recorder's registers.
-/
namespace Sys2Proof.Machine

/-! ### Assembly (R566) -/

/-- The registers that a record lists, read on the recorder's own path: no snapshot, no RC field cleared. -/
def Hw.listWords (h : Hw) : List Word :=
  (List.range (min 52 (h.get REC_CTL_NREG))).map (fun i => h.liveReg (h.get (REC_LIST_ADDR i)))

/-- CORE assembles the oldest waiting record; it is ready for the NVM (R543) and for the egress queue. -/
def Hw.assemble (h0 : Hw) : Hw :=
  let h := h0.when h0.recd.staging.isEmpty Hw.recReceive
  match h.recd.staging with
  | (t, i) :: rest =>
    match h.recSlot i with
    | some x =>
      let h1 := { h with recd := { h.recd with staging := rest } }
      let l := recordBytes t x.seq (h1.get REC_PWRCYC_COUNT) (t.words.getD h1.listWords)
      let h2 := ((h1.writeSlot i l).setSlot i (some { x with whole := true })).when h1.hasRegion (fun h => h.xingReq 1)
      let h3 := h2.when (h2.on REC_CTL_SEND && decide (h2.get SYS_HUB_ID_ID ≠ 0)) (fun h => h.noRoom 6)
      h3.recPump.freeSlots
    | none => { h with recd := { h.recd with staging := rest } }
  | [] => h

/-! ### The NVM ring (R571, R573, R577) -/

/-- The recorder may write the NVM: a region, the start's counter entry and the scan are there (R573, R575, R605). -/
def Hw.flushReady (h : Hw) : Bool :=
  h.coreOn && h.running && h.hasRegion && h.on REC_STATUS_SCAN_DONE && !h.on REC_STATUS_NVM_STOP && h.recd.opsecInit

/-- The oldest record that the NVM does not hold is written: its slot is read, its sector erased where the page is the
sector's first, and the page programmed. `ok` false: the erase fails, or, where none is due, the program. -/
def Hw.flush (h : Hw) (ok : Bool) : Hw :=
  match (h.slotOrder (fun x => !x.flushed)).head? with
  | some (i, x) =>
    if x.whole then
      match h.readSlot i with
      | none => h.slotLost i x
      | some l =>
        match h.goodPage h.ringPages h.recd.nextPage with
        | none => h
        | some p =>
          let a := h.pageAddr p
          let e := if p % 16 = 0 then h.nvmErase a ok else (h, true)
          let fail (h : Hw) (cause : Nat) : Hw :=
            { h with recd := { h.recd with nextPage := 16 * (p / 16 + 1) % h.ringPages } }.sectorFail cause (pageSector p) x.code
          if e.2 = false then fail e.1 3
          else
            let w := e.1.nvmProgram a l ok
            if w.2 then
              let h0 : Hw := { w.1 with recd := { w.1.recd with pageEpoch := storeSet (fun _ => none) w.1.recd.pageEpoch a (some x.epoch) } }
              let h1 := h0.setSlot i (some { x with flushed := true })
              ({ h1 with recd := { h1.recd with nextPage := (p + 1) % h1.ringPages } }).freeSlots
            else fail w.1 2
    else h
  | none => h

/-- The scan after the first commit: it takes the highest valid SEQ and continues at the page after it. -/
def Hw.scan (h : Hw) : Hw :=
  let key (l : List Byte) : Nat := recordSeq l
  let good (ps : List Nat) : List (Nat × List Byte) := (ps.map (fun p => (p, h.pageRecord p))).filter (fun e => recordGood e.2)
  let firsts := highest key (good ((List.range (h.ringPages / 16)).map (16 * ·)))
  let h1 := h.put REC_STATUS_SCAN_DONE 1
  match (if h.hasRegion then firsts else none) with
  | some f =>
    match highest key (good ((List.range 16).map (fun i => f.1 / 16 * 16 + i))) with
    | some e =>
      let next := (recordSeq e.2 + 1) % 2 ^ 32
      let h2 := { h1 with recd := { h1.recd with nextPage := (e.1 + 1) % h1.ringPages } }
      h2.put REC_SEQ_NEXT (max next (h2.get REC_SEQ_NEXT))
    | none => h1
  | none => h1

/-! ### Operating seconds (R574, R575) -/

def opsecKey (l : List Byte) : Nat := leAt l 5 4 * 2 ^ 40 + leAt l 0 5

def Hw.opsecCurrent (h : Hw) : Option (Nat × List Byte) := highest opsecKey (h.areaEntries h.regionBase)

/-- The loader reads the current entry of the counter area at the start's first commit. -/
def Hw.opsecRead (h : Hw) : Hw :=
  if h.hasRegion then
    match h.opsecCurrent with
    | some e =>
      ({ h with recd := { h.recd with opsecBase := leAt e.2 0 5, opsecSince := h.ns, opsecSaved := leAt e.2 0 5 } }).put
        REC_PWRCYC_COUNT (leAt e.2 5 4 + 1)
    | none => { h with recd := { h.recd with opsecBase := 0, opsecSince := h.ns, opsecSaved := 0 } }
  else { h with recd := { h.recd with opsecInit := true } }

/-- An entry is due: the start's, or 900 s after the last. -/
def Hw.opsecDue (h : Hw) : Bool :=
  h.coreOn && h.running && h.hasRegion && (!h.recd.opsecInit || decide (h.recd.opsecSaved + 900 ≤ h.opsec))

/-- Append an entry; a failure raises NVM_WRITE_FAIL and writes a Bunting word, and counting goes on. -/
def Hw.opsecAppend (h : Hw) (ok : Bool) : Hw :=
  let l := areaEntry (leBytes 5 h.opsec ++ leBytes 4 (h.get REC_PWRCYC_COUNT) ++ zeros 3)
  let r := (h.xingReq 2).areaAppend h.regionBase (h.opsecCurrent.map (·.1)) l ok
  let h1 := { r.1 with recd := { r.1.recd with opsecSaved := h.opsec, opsecInit := true } }
  if r.2.2 then h1
  else
    let sector := r.2.1 / 256
    (h1.raise srcNvmWriteFail ((h.regionBase / 4096 + sector) % 65536)).bunting 4 sector |>.1

/-! ### Registers -/

/-- A write of REC_CTL: TRIGGER acts, the other fields are staged (R585). -/
def Hw.recCtlWrite (h : Hw) (v : Word) : Hw :=
  (h.stage REC_CTL 0x3F0F v).when (natBit v.toNat 31) (fun h => h.recTriggerAt 0x41 none)

/-- A write of REC_FETCH_CTL: COUNT, and GO, which has no effect during a fetch (R572). -/
def Hw.fetchWrite (h : Hw) (dest : Option Nat) (v : Word) : Hw :=
  let h1 := h.writeRw REC_FETCH_CTL 0xFFFF v
  if natBit v.toNat 31 ∧ h1.recd.fetch = none then
    let f := (h1.get REC_FETCH_FIRST_FIRST, max 1 (h1.get REC_FETCH_CTL_COUNT), dest.getD (h1.get STR_CTL_DEST))
    (({ h1 with recd := { h1.recd with fetch := some f } }).put REC_FETCH_CTL_BUSY 1).recPump
  else h1

/-- A write of REC_BUNT_CLR (R576, R587). -/
def Hw.buntClear (h : Hw) (v : Word) : Hw :=
  h.each (List.range 8) (fun h i => h.when (natBit v.toNat i) (fun h => (h.put (REC_BUNT_LO_LO i) 0).put (REC_BUNT_HI_HI i) 0))

/-- A W1C of bad-slot marks: the slots return to rotation (R578). -/
def Hw.slotBadClear (h : Hw) (w : Nat) (v : Word) : Hw := h.clearBits (REC_SLOT_BAD w) 0xFFFFFFFF v

/-! ### The commands -/

def execRecTrigger (q : Requester) (v : Word) (s : State) : Out := accWrite s q true (fun h => h.recCtlWrite v)

def execRecordAssemble (s : State) : Out := actOn s true (fun h => h.when h.coreOn Hw.assemble)

def execRecordFlush (ok : Bool) (s : State) : Out := actOn s true (fun h => h.when h.flushReady (fun h => h.flush ok))

def execRecorderScan (s : State) : Out :=
  actOn s true (fun h => h.when (h.coreOn && h.running && h.recd.opsecInit && !h.on REC_STATUS_SCAN_DONE) Hw.scan)

def execOpsecSave (ok : Bool) (s : State) : Out := actOn s true (fun h => h.when h.opsecDue (fun h => h.opsecAppend ok))

def execRecFetch (q : Requester) (src : Nat) (v : Word) (s : State) : Out :=
  accWrite s q true (fun h => h.fetchWrite (answerTo q src) v)

def execRecBuntClr (q : Requester) (v : Word) (s : State) : Out := accWrite s q true (fun h => h.buntClear v)

def execRecSlotBadClear (q : Requester) (w : Nat) (v : Word) (s : State) : Out :=
  accWrite s q (decide (w < 8)) (fun h => h.slotBadClear w v)

end Sys2Proof.Machine
end

