-- ==== Sys2Proof/Machine/Access.lean ====
section
/-!
DEFINITION. Register accesses of every kind: what a write does at each address (R11-R14, R17, R640-R643), the register
rows of the command table, and MSPI (R594, R606, R659).
-/
namespace Sys2Proof.Machine

/-! ### STATUS of an access (R436) -/

abbrev stOk : Nat := 0
abbrev stBusy : Nat := 1
abbrev stAccess : Nat := 2
abbrev stDenied : Nat := 3
abbrev stMalformed : Nat := 4
abbrev stAuth : Nat := 5
abbrev stReplay : Nat := 6
abbrev stSnapHeld : Nat := 7
abbrev stNoImage : Nat := 8

/-! ### Plain register words -/

/-- W1C bits whose cause is still present (R13, R416): of LNKx_EVT, CLOCK_LANE_LOSS until the port is in UP,
WIDTH_DEGRADED while WIDTH is below 4 and LANE_DOWN while a lane is out of HEALTHY. -/
def Hw.stuck (h : Hw) (a : Nat) : Nat :=
  let evt (p : Port) : Nat :=
    8 * b2n (!h.up p) + 2 * b2n (decide (h.get (LNK_STATUS_WIDTH (portNo p)) ≠ 4)) + b2n (decide (h.healthy p ≠ 15))
  if a = LNK_EVT 0 then evt .a else if a = LNK_EVT 1 then evt .b else 0

/-- A write of a register word without an effect of its own: RW bits at once, RWS bits staged, W1C bits cleared where
their cause is gone; the rest is ignored (R12, R13). -/
def Hw.plainWrite (h : Hw) (a : Nat) (v : Word) : Hw :=
  match regRowAt a with
  | some r =>
    let h1 := h.when (decide (r.rw ≠ 0)) (fun h => h.writeRw a r.rw v)
    let h2 := h1.when (decide (r.rws ≠ 0)) (fun h => h.stage a r.rws v)
    h2.when (decide (r.w1c ≠ 0)) (fun h => h.clearBits a (r.w1c - (r.w1c &&& h.stuck a)) v)
  | none => h

/-- The register holds bits that a write changes. -/
def writableWord (a : Nat) : Bool :=
  match regRowAt a with
  | some r => decide (r.rw ||| r.rws ||| r.wo ≠ 0)
  | none => false

/-- The value staged for a register word, and otherwise the value in effect (R17). -/
def Hw.stagedOr (h : Hw) (a : Nat) : Word := (storeGet (fun _ => none) h.epoch.staging.regs a).getD (h.reg a)

/-- A write of the highest word of a staged value of two words. -/
def Hw.stagedPair (h : Hw) (q : Requester) (a : Nat) (v : Word) : Hw :=
  let lo := h.heldOr q (a - 4) (h.stagedOr (a - 4))
  ((h.dropHeld q (a - 4) 2).plainWrite (a - 4) lo).plainWrite a v

/-- A write of the mask window (R316): one value per point, in effect at once. -/
def Hw.maskWrite (h : Hw) (q : Requester) (a : Nat) (v : Word) : Hw :=
  let p := h.windowPoint q a
  if a % 8 = 0 then h.setHeld q (pointKey p) (some v)
  else
    let lo := h.heldOr q (pointKey p) (lo32 (h.maskPoint p))
    let h1 := h.setHeld q (pointKey p) none
    { h1 with trg := { h1.trg with mask := storeSet (fun _ => 0) h1.trg.mask p (word64 lo v &&& 0xFFFFFF00FFFFFF00) } }

/-- A write of HRN_TSTAT (R69, R72), with the terminal's voltage as its pin was last told; the number of a free choice is
used up, as within 0.5 V of an end of the clear window. -/
def Hw.tstatAny (h : Hw) (t : Nat) (v : Word) : Hw := h.draw.tstatWrite t (h.inWindow t (h.pinAt t)) v

/-- A write of the pages that a requester keeps of its own (R641); none elsewhere. -/
def Hw.pageWrite (h : Hw) (q : Requester) (a : Nat) (v : Word) : Option Hw :=
  let r := h.rq q
  if a = SEQ_WIN_PAGE then some (h.setRq q { r with seqPage := v &&& 1 })
  else if a = TRG_WIN_PAGE then some (h.setRq q { r with trgPage := v &&& 0xF03 })
  else if a = CAL_FE_PAGE then some (h.setRq q { r with fePage := v &&& 0x1FF })
  else if a = REC_WIN_SLOT then some (h.setRq q { r with recSlot := v &&& 0xFF })
  else none

/-- Registers whose write has an effect of its own, by block, with the STATUS of the access; none elsewhere. -/
def Hw.ownWrite (h : Hw) (q : Requester) (src a : Nat) (v : Word) : Option (Hw × Nat) :=
  let ok (x : Hw) : Option (Hw × Nat) := some (x, stOk)
  match a / 0x10000 with
  | 0 =>
    if a = SYS_COMMIT then ok (h.commitGo q src v)
    else if a = SYS_RUN_CTL then ok (h.startFree v)
    else none
  | 1 =>
    let t := (a - 0x12000) / 4
    if 0x12000 ≤ a ∧ t < nTerm then ok (h.tstatAny t v) else none
  | 3 =>
    let d := (a - 0x30600) / 4
    if 0x30600 ≤ a ∧ d < nDrv then ok (h.excStatusWrite d v) else none
  | 4 => if a = SMP_SYNC_T2 then ok (h.syncT2Write q v) else none
  | 5 =>
    if 0x50010 ≤ a ∧ a < 0x50034 then
      ok (h.when (v.toNat.testBit 8) (fun h => h.rehabWrite ((a - 0x50010) / 4)))
    else if a = ADC_HK_CTL then ok (h.hkCtlWrite v)
    else if 0x50100 ≤ a ∧ a < 0x50180 ∧ a % 8 = 0 then ok (h.ilCtlWrite ((a - 0x50100) / 8) v)
    else none
  | 6 => if a = FIL_SWAP then ok (h.filSwap v) else none
  | 7 => if isTableWindow a then some (h.tableWrite q a v) else none
  | 8 => if a = STR_BF_CTL then some (h.backfillWrite q (answerTo q src) v) else none
  | 9 =>
    if isMaskWindow a then ok (h.maskWrite q a v)
    else if a = TRG_RESTART then ok (h.trgRestart v)
    else if a = TRG_FIRE then ok (h.trgFire v)
    else if a = TRG_SEG_REL then ok (h.segRel v)
    else none
  | 10 =>
    let t := (a - 0xA2000) / 4
    if a = MEM_CLR then ok (h.memClear v)
    else if a = MEM_FLIPMASK_HI then ok (h.flipArm q v)
    else if 0xA2000 ≤ a ∧ t < 6144 then ok (h.resealStart t v)
    else none
  | 11 =>
    if a = CIN_JOB_CTL then ok (h.jobCtl (answerTo q src) v)
    else if a = CIN_OUT_RD then ok (h.outRd v)
    else none
  | 12 =>
    if a = LNK_CTL 0 then ok (h.linkCtl .a v)
    else if a = LNK_CRC_MON 0 then ok (h.crcMonWrite .a v)
    else if a = LNK_PORT_CTL then
      some (h.portCtlWrite q v, if h.inField ∧ bits v 17 16 ≠ h.get LNK_PORT_CTL_FORCE then stDenied else stOk)
    else none
  | 13 =>
    if a = LNK_CTL 1 then ok (h.linkCtl .b v)
    else if a = LNK_CRC_MON 1 then ok (h.crcMonWrite .b v)
    else none
  | 14 =>
    if a = TIM_INCR_NS then ok (h.incrWrite q v)
    else if a = TIM_ADJ_NS then ok (h.adjWrite q v)
    else if a = TIM_SET_SHI then ok (h.setWrite q v)
    else if a = TIM_CTL then ok (h.ctlWrite v)
    else none
  | 15 => if a = CAL_CTL then ok (h.calCtlWrite v) else none
  | 16 =>
    if a = FLT_CTL then ok ((h.writeRw FLT_CTL 0xFF v).judgeTemps)
    else if a = FLT_STATUS 0 then ok (h.statusClear false v)
    else if a = FLT_STATUS 1 then ok (h.statusClear true v)
    else if a = FLT_SAFE then some (h.safeWrite q v, if h.inField ∧ natBit v.toNat 30 then stDenied else stOk)
    else none
  | 17 =>
    if a = REC_CTL then ok (h.recCtlWrite v)
    else if a = REC_BUNT_CLR then ok (h.buntClear v)
    else if a = REC_FETCH_CTL then ok (h.fetchWrite (answerTo q src) v)
    else none
  | _ => none

/-- A write at any address but SYS_SNAP, for a requester whose writes have effect (R11-R14, R17). -/
def Hw.busWrite (h : Hw) (q : Requester) (src a : Nat) (v : Word) : Hw × Nat :=
  match h.pageWrite q a v with
  | some h1 => (h1, stOk)
  | none =>
    match h.ownWrite q src a v with
    | some r => r
    | none =>
      if isWindow a then (h.windowWrite q a v, stOk)
      else
        let b := valueOf a
        if b.2 = 1 then (h.plainWrite a v, stOk)
        else if writableWord a = false then (h, stOk)
        else if a ≠ b.1 + 4 * (b.2 - 1) then (h.setHeld q a (some v), stOk)
        else (h.stagedPair q a v, stOk)

/-- A write on the register bus. One of another width or alignment is refused (R11); one that the bus does not serve, or
whose requester's writes have no effect, changes nothing (R594, R606, R642). -/
def State.busWrite (s : State) (q : Requester) (src a : Nat) (v : Word) : State × Nat :=
  if a % 4 ≠ 0 ∨ 2 ^ 32 ≤ a then (s, stAccess)
  else if s.hw.writable q = false then (s, stOk)
  else if a = SYS_SNAP then (s.snapWrite q v, stOk)
  else
    let r := s.hw.busWrite q src a v
    ({ s with hw := r.1 }, r.2)

/-- Words written at rising addresses; stops at the first that cannot complete, and answers its STATUS and the words
completed (R437). -/
def State.writeWords (s : State) (q : Requester) (src a : Nat) : List Word → Nat → State × Nat × Nat
  | [], n => (s, stOk, n)
  | v :: vs, n =>
    let r := s.busWrite q src a v
    if r.2 = stOk then State.writeWords r.1 q src (a + 4) vs (n + 1) else (r.1, r.2, n)

/-- Words read at rising addresses. -/
def Hw.readWords (frozen : Option Hw) (q : Requester) : Nat → Nat → Hw → Hw × List Word
  | 0, _, h => (h, [])
  | n + 1, a, h =>
    let r := h.busRead frozen q a
    let t := Hw.readWords frozen q n (a + 4) r.1
    (t.1, r.2 :: t.2)

/-! ### MSPI (R594, R606, R642, R659) -/

/-- MSPI reads `n` words from `a`. -/
def State.mspiRead (s : State) (a n : Nat) : State :=
  if s.hw.readable .mspi then
    let r := Hw.readWords s.frozen .mspi n (a % 2 ^ 32) s.hw
    { s with hw := r.1, rdata := r.2, status := stOk }
  else { s with rdata := List.replicate n 0, status := stOk }

/-- MSPI writes words from `a`; each that is refused writes nothing, and the others are made. -/
def State.mspiWords (s : State) (a : Nat) : List Word → State
  | [] => s
  | v :: vs => State.mspiWords (s.busWrite .mspi 0 a v).1 ((a + 4) % 2 ^ 32) vs

/-- An MSPI access is performed. -/
def State.mspiDo (s : State) : MspiAccess → State
  | .read a n => s.mspiRead a n
  | .write a ws => { s.mspiWords (a % 2 ^ 32) ws with rdata := [], status := stOk }

/-- An MSPI access: with CORE asleep it wakes CORE, waits for it, and answers no word yet (R28, R541, R659). Before the OTP
read completes no bus serves it, and it waits for nothing (R642). -/
def State.mspiAccess (s : State) (x : MspiAccess) : State :=
  if s.hw.coreOn || !s.hw.readable .mspi then s.mspiDo x
  else
    let h := s.hw.wakeRequest 7
    { s with hw := { h with clk := { h.clk with mspi := h.clk.mspi ++ [x] } }, rdata := [], status := stOk }

/-- CORE runs: the MSPI accesses that waited for it are performed, oldest first. -/
def State.mspiServe (s : State) : State :=
  if s.hw.coreOn then
    s.hw.clk.mspi.foldl State.mspiDo { s with hw := { s.hw with clk := { s.hw.clk with mspi := [] } } }
  else s

/-! ### The commands -/

/-- A domain completes its wake (R25). -/
def execDomainWakeDone (d : Domain) (s : State) : Out :=
  if isDomain d then
    .next (if s.hw.live then ({ s with hw := s.hw.wakeDone d } : State).mspiServe else s)
  else .fault .noSuchObject


/-- One register write (R11-R14, R17). A port's source hub ID does not stand in the row; it is taken as 0. -/
def execRegisterWrite (q : Requester) (nbytes : Nat) (a : Nat) (v : Word) (s : State) : Out :=
  if nbytes = 4 then
    let r := s.busWrite q 0 a v
    .next { r.1 with rdata := [], status := r.2 }
  else .next { s with rdata := [], status := stAccess }

/-- One register read as the row's words describe it. -/
def State.readOne (s : State) (q : Requester) (a : Nat) : State :=
  let r := s.hw.busRead s.frozen q a
  { s with hw := r.1, rdata := [r.2], status := if a % 4 = 0 then stOk else stAccess }

/-- A read of a register with an RC field (R13, R16). -/
def execRcRead (q : Requester) (a : Nat) (s : State) : Out := .next (s.readOne q a)

/-- A read of the lowest word of a value of several words (R17). -/
def execMultiwordLatchRead (q : Requester) (a : Nat) (s : State) : Out := .next (s.readOne q a)

/-- R69: the write finds the voltage `mv` at the pin. -/
def execTstatOvClear (q : Requester) (t : Nat) (mv : Int) (v : Word) (s : State) : Out :=
  accWrite s q (isTerm t) (fun h => (h.setPin t mv).tstatAny t v)

def execReversedClear (q : Requester) (d : Nat) (v : Word) (s : State) : Out :=
  accWrite s q (isDrv d) (fun h => h.excStatusWrite d v)

def execMspiRead (a : Nat) (n : Nat) (s : State) : Out := .next (if s.hw.live then s.mspiAccess (.read a n) else s)

def execMspiWrite (a : Nat) (ws : List Word) (s : State) : Out :=
  .next (if s.hw.live then s.mspiAccess (.write a ws) else s)

end Sys2Proof.Machine
end

