-- ==== Sys2Proof/Machine/BridleCheck.lean ====
section
/-!
DEFINITION. What the commit checks refuse of a Bridle table and its budgets (R155, R156, R175, R232, R233, R251). Each
function takes the candidate: the registers, live copy and sources as they will be after the commit.
-/
namespace Sys2Proof.Machine

/-! ### One entry at a time (R232 reasons 0x1 to 0x4, 0x7 and 0x8) -/

/-- A broken row of R232: its reason and an entry; R251 keeps the lowest. -/
abbrev Breach := Nat × Nat

def Hw.slotsOf (h : Hw) : Nat := h.get SMP_FRAME_PERIOD_PERIOD_NS / 16

def Hw.entryWord (h : Hw) (e : Nat) : Option Entry := readAt h.slotsOf e (entryData h.seq.live e).toNat

/-- The loop bodies of a region: target and LOOP entry. -/
def Hw.bodies (h : Hw) (r : Region) : List (Nat × Nat) :=
  (h.decoded r).filterMap (fun q =>
    match q.2 with
    | .loop _ t => if r.base ≤ t ∧ t ≤ q.1 then some (t, q.1) else none
    | _ => none)

/-- Loops and jumps of a region (R227, reasons 0x3 and 0x4). -/
def Hw.loopBreaches (h : Hw) (r : Region) : List Breach :=
  let bs := h.bodies r
  (h.decoded r).flatMap (fun q =>
    match q.2 with
    | .loop _ t =>
      if r.base ≤ t ∧ t ≤ q.1 then
        -- wholly inside or wholly outside every other body
        let cut := bs.any (fun b => decide (t < b.1 ∧ b.1 ≤ q.1 ∧ q.1 < b.2) || decide (b.1 < t ∧ t ≤ b.2 ∧ b.2 < q.1))
        let depth := (bs.filter (fun b => decide (b.1 ≤ t ∧ q.1 ≤ b.2))).length
        (if cut then [(3, q.1)] else []) ++ (if 4 < depth then [(4, q.1)] else [])
      else [(3, q.1)]
    | .jump t =>
      if r.base ≤ t ∧ t ≤ r.limit then
        let around := bs.filter (fun b => decide (b.1 ≤ q.1 ∧ q.1 ≤ b.2))
        -- it leaves a body, or enters one elsewhere than at its first entry
        let crosses := around.any (fun b => !decide (b.1 ≤ t ∧ t ≤ b.2)) ||
          bs.any (fun b => !decide (b.1 ≤ q.1 ∧ q.1 ≤ b.2) && decide (b.1 < t ∧ t ≤ b.2))
        let back := decide (t < q.1) && (!around.isEmpty || decide (r.walk ≠ .regular))
        if crosses || back then [(3, q.1)] else []
      else [(3, q.1)]
    | _ => [])

/-- Entries that do not decode, or that their region does not allow. -/
def Hw.entryBreaches (h : Hw) (r : Region) : List Breach :=
  r.entries.filterMap (fun e =>
    match h.entryWord e with
    | none => some (1, e)
    | some x => if x.allowed r.walk then none else some (2, e))

/-- Regions that are empty, overlap, or do not hold SEQ_START (reason 0x7). -/
def Hw.regionBreaches (h : Hw) : List Breach :=
  let rs := h.regions
  let empty := rs.any (fun r => decide (r.limit < r.base))
  let overlap := (List.range rs.length).any (fun i => (rs.drop (i + 1)).any (fun b =>
    match rs[i]? with
    | some a => decide (a.base ≤ b.limit ∧ b.base ≤ a.limit)
    | none => false))
  let start := h.on SEQ_CTL_RUN && !inRegion (h.reg SEQ_REG_RGN) (h.get SEQ_START_ENTRY)
  if empty || overlap || start then [(7, 0)] else []

/-- A mirror of more than 512 entries (reason 0x8): the first one too many. -/
def Hw.mirrorBreaches (h : Hw) : List Breach :=
  match (h.mirrorOf.drop 512) with
  | q :: _ => [(8, q.1)]
  | [] => []

/-! ### The walk through one super-frame (reasons 0x5, 0x6 and 0x9) -/

/-- One frame of the walk: the entries issued, each with its cycle and number, and where it ended; `bad` is the entry
at which the walk cannot go on. -/
structure FrameWalk where
  issued : List (Nat × Nat × Entry)
  place : Place
  bad : Option Nat
  deriving DecidableEq, Repr

/-- The walk of a frame from a place, at cycle `cyc`; `seen`: SEQ_START has issued with an empty stack, or q is not 0
(R226). `last` is the entry issued before. -/
def frameWalk (h : Hw) (rgn : Word) (start : Nat) : Nat → Bool → Nat → Nat → Place → List (Nat × Nat × Entry) → FrameWalk
  | 0, _, _, _, p, l => { issued := l, place := p, bad := some p.1 }
  | fuel + 1, seen, last, cyc, p, l =>
    if inRegion rgn p.1 = false then { issued := l, place := p, bad := some last }
    else match h.entryWord p.1 with
      | none => { issued := l, place := p, bad := some p.1 }
      | some e =>
        let seen := seen || (decide (p.1 = start) && p.2.isEmpty)
        let free := match e with
          | .loop .. => true
          | .jump .. => true
          | .nop => true
          | _ => false
        if e.allowed .regular = false ∨ (seen = false ∧ free = false) then { issued := l, place := p, bad := some p.1 }
        else match e.after p with
          | none => { issued := l, place := p, bad := some p.1 }
          | some next =>
            let l := l ++ [(cyc, p.1, e)]
            match e with
            | .fend => { issued := l, place := next, bad := none }
            | .wait t => frameWalk h rgn start fuel seen p.1 (max (cyc + 1) t) next l
            | _ => frameWalk h rgn start fuel seen p.1 (cyc + 1) next l

/-- The walk of the frames from position `q` on, until one cannot go on. -/
def superWalk (h : Hw) (rgn : Word) (start : Nat) : Nat → Nat → Place → List FrameWalk
  | 0, _, _ => []
  | n + 1, q, p =>
    let w := frameWalk h rgn start walkFuel (decide (q ≠ 0)) p.1 0 p []
    w :: (if w.bad.isSome then [] else superWalk h rgn start n (q + 1) w.place)

/-- The walk returns to SEQ_START with an empty stack before it issues anything that R226 does not allow there. -/
def returns (h : Hw) (rgn : Word) (start : Nat) : Nat → Place → Option Nat
  | 0, p => some p.1
  | fuel + 1, p =>
    if p.1 = start ∧ p.2 = [] then none
    else if inRegion rgn p.1 then
      match h.entryWord p.1 with
      | some e =>
        let go := match e with
          | .loop .. => true
          | .jump .. => true
          | .nop => true
          | _ => false
        match e.after p with
        | some next => if go then returns h rgn start fuel next else some p.1
        | none => some p.1
      | none => some p.1
    else some (p.1 - 1)

def Hw.superFrames (h : Hw) : Nat := h.get SEQ_SF_LEN_LEN_M1 + 1

/-- The frames of the candidate's super-frame, the first one as it follows the last: from where the walk returns. -/
def Hw.walked (h : Hw) : List FrameWalk :=
  superWalk h (h.reg SEQ_REG_RGN) (h.get SEQ_START_ENTRY) h.superFrames 0 (h.get SEQ_START_ENTRY, [])

def Hw.armedGroups (h : Hw) : List Nat := (List.range 8).filter (fun g => h.on (SMP_GRP_DLY_ARM g))

/-- N is no multiple of M_g of some armed group (reason 0x5). -/
def Hw.raggedBreaches (h : Hw) : List Breach :=
  if h.armedGroups.any (fun g => decide (h.superFrames % (h.get (SMP_GRP_CTL_MULT_M1 g) + 1) ≠ 0)) then [(5, 0)] else []

/-- The walk does not return to SEQ_START after N FENDs (reason 0x5). -/
def Hw.walkBreaches (h : Hw) (ws : List FrameWalk) : List Breach :=
  (match ws.findSome? (fun w => w.bad) with
    | some e => [(5, e)]
    | none =>
      match ws.getLast? with
      | some w => ((returns h (h.reg SEQ_REG_RGN) (h.get SEQ_START_ENTRY) walkFuel w.place).map (fun e => (5, e))).toList
      | none => [])

/-- The regular conversions of a frame: entry, position, slot and channel. -/
def FrameWalk.convs (w : FrameWalk) : List (Nat × Nat × Nat × Nat) :=
  w.issued.flatMap (fun q =>
    match q.2.2 with
    | .conv pos slot n ch stride => (List.range n).map (fun i => (q.2.1, pos, slot + i, ch + i * stride))
    | _ => [])

/-- The pairs of a frame's FEEDs: cycle, entry, LAG, channel and stream. -/
def FrameWalk.feeds (w : FrameWalk) : List (Nat × Nat × Nat × Nat × Nat) :=
  w.issued.flatMap (fun q =>
    match q.2.2 with
    | .feed lag ch s n => (List.range n).map (fun i => (q.1, q.2.1, lag, ch + i, s + i))
    | _ => [])

/-- The times of a frame (reason 0x6): CONV after cycle 240, FEND past the frame, WAIT out of the frame, and a FEED of a
sample that is not in the store yet (R228). `ws` holds every frame. -/
def Hw.timeBreaches (h : Hw) (ws : List FrameWalk) : List Breach :=
  let per := h.get SMP_FRAME_PERIOD_PERIOD_NS
  let cs := ws.map FrameWalk.convs
  let n := ws.length
  (ws.zip (List.range n)).flatMap (fun w =>
    (w.1.issued.filterMap (fun q =>
      match q.2.2 with
      | .conv .. => if 240 < q.1 then some (6, q.2.1) else none
      | .fend => if per < q.1 + 1 then some (6, q.2.1) else none
      | .wait t => if per ≤ t then some (6, q.2.1) else none
      | _ => none)) ++
    (w.1.feeds.filterMap (fun f =>
      let from_ := cs.getD ((w.2 + 4 * n - f.2.2.1) % n) []
      if from_.any (fun c => decide (c.2.2.2 = f.2.2.2.1 ∧ f.1 + f.2.2.1 * per < 16 * (c.2.2.1 + 1) + 240)) then
        some (6, f.2.1) else none)))

/-- Streams and their sources (reason 0x9). -/
def Hw.streamBreaches (h : Hw) (ws : List FrameWalk) : List Breach :=
  let aux := h.auxStreams
  let feeds := ws.flatMap FrameWalk.feeds
  ws.flatMap (fun w =>
    let fs := w.feeds
    let wr := w.issued.flatMap (fun q =>
      match q.2.2 with
      | .write s n => (List.range n).map (fun i => (q.1, q.2.1, s + i))
      | _ => [])
    (fs.filterMap (fun f =>
      let s := f.2.2.2.2
      let two := feeds.any (fun g => decide (g.2.2.2.2 = s ∧ g.2.2.2.1 ≠ f.2.2.2.1))
      let unwritten := !wr.any (fun x => decide (x.2.2 = s ∧ f.1 < x.1))
      if two || unwritten || aux.contains s then some (9, f.2.1) else none)) ++
    (wr.filterMap (fun x =>
      let unfed := !fs.any (fun f => decide (f.2.2.2.2 = x.2.2 ∧ f.1 < x.1))
      if unfed || aux.contains x.2.2 then some (9, x.2.1) else none)))

/-! ### List runs (reason 0xA) -/

/-- A run of a list region: the number of its conversions, or the entry at which it breaks reason 0xA. -/
def listRun (h : Hw) (r : Region) : Nat → Nat → Place → Nat → Nat × Option Nat
  | 0, last, _, n => (n, some last)
  | fuel + 1, last, p, n =>
    if decide (r.base ≤ p.1 ∧ p.1 ≤ r.limit) = false then (n, some last)
    else match h.entryWord p.1 with
      | none => (n, some p.1)
      | some e =>
        let n := n + (match e with
          | .auxc .. => 1
          | .cconv _ _ _ k _ => k
          | _ => 0)
        if e = .lend then (n, none)
        else if 65536 < n then (n, some p.1)
        else match e.after p with
          | some next => listRun h r fuel p.1 next n
          | none => (n, some p.1)

def Hw.listRunOf (h : Hw) (r : Region) : Nat × Option Nat := listRun h r walkFuel r.base (r.base, []) 0

/-! ### The table's verdict (R232, R251) -/

/-- Every broken row. The rows that walk the table are judged only where no lower row is broken. -/
def Hw.tableBreaches (h : Hw) : List Breach :=
  let rs := h.regions
  let first := rs.flatMap (fun r => h.entryBreaches r ++ h.loopBreaches r)
  if first ≠ [] then first
  else
    let lists := (rs.filter (fun r => decide (r.walk ≠ .regular))).filterMap (fun r => ((h.listRunOf r).2.map (fun e => (0xA, e))))
    let start := inRegion (h.reg SEQ_REG_RGN) (h.get SEQ_START_ENTRY)
    let ws := if h.on SEQ_CTL_RUN && start then h.walked else []
    (if h.on SEQ_CTL_RUN then h.raggedBreaches else []) ++
    (if h.on SEQ_CTL_RUN && start then h.walkBreaches ws ++ h.timeBreaches ws ++ h.streamBreaches ws else []) ++
      h.regionBreaches ++ h.mirrorBreaches ++ lists

/-- The lowest reason broken, and the lowest entry that breaks it. -/
def lowest (l : List Breach) : Option Breach :=
  l.foldl (fun m q =>
    match m with
    | some b => if q.1 < b.1 ∨ (q.1 = b.1 ∧ q.2 < b.2) then some q else m
    | none => some q) none

/-- SEQ_CHECK records the refused table. -/
def Hw.noteTable (h : Hw) (b : Breach) : Hw :=
  ((h.put SEQ_CHECK_VALID 1).put SEQ_CHECK_REASON b.1).put SEQ_CHECK_ENTRY b.2

/-! ### Budgets (R155, R156) -/

/-- The converter budget of one frame at position q (R155). -/
def Hw.frameBudget (h : Hw) (q : Nat) (w : FrameWalk) : Bool :=
  let cs := w.convs
  let per := h.get SMP_FRAME_PERIOD_PERIOD_NS
  let places := cs.map (fun c => (c.2.1, c.2.2.1))
  decide (places.Nodup) &&
  (List.range 8).all (fun p => decide ((cs.filter (fun c => decide (c.2.1 = p))).length ≤ h.slotsOf)) &&
  h.armedGroups.all (fun g =>
    let m := h.get (SMP_GRP_CTL_MULT_M1 g) + 1
    let off := h.get (SMP_GRP_DLY_D_NS g) * nsUnit + h.get (SMP_GRP_FRAC_FRAC g)
    let hold := decide (q % m = h.get (SMP_GRP_CTL_FOFS g))
    (h.members g).all (fun ch =>
      match cs.filter (fun c => decide (c.2.2.2 = ch)) with
      | [] => !hold
      | [c] => hold && decide (off + 16 * nsUnit ≤ 16 * (c.2.2.1 + 1) * nsUnit ∧
          16 * (c.2.2.1 + 1) * nsUnit < off + m * per * nsUnit)
      | _ => false))

/-- Slack slots from a run's first claim to the deadline, when the run starts at the boundary of frame `q` (R156, R230):
those of frame `q + i` whose end lies within `limit` ns of that boundary. -/
def slackWithin (slots per limit q : Nat) (used : List (List Nat)) : Nat :=
  (List.range (limit / per + 1)).foldl (fun a i =>
    let u := used.getD ((q + i) % used.length) []
    let lo := if i = 0 then 4 else 0
    let hi := min slots ((limit - i * per) / 16)
    if hi ≤ lo then a
    else a + 8 * (hi - lo) - (u.filter (fun k => decide (lo ≤ k ∧ k < hi))).length) 0

/-- The slots of a frame that hold regular entries. -/
def FrameWalk.used (w : FrameWalk) : List Nat := w.convs.map (fun c => c.2.2.1)

/-- Every list with a deadline meets it from every boundary. -/
def Hw.deadlinesMet (h : Hw) (ws : List FrameWalk) : Bool :=
  let per := h.get SMP_FRAME_PERIOD_PERIOD_NS
  let used := if ws = [] then [[]] else ws.map FrameWalk.used
  (h.regions.filter (fun r => decide (r.walk = .list))).all (fun r =>
    let us := h.get (ADC_IL_CTL_DEADLINE_US r.list)
    let n := (h.listRunOf r).1
    decide (us = 0) || decide (n = 0) ||
    (List.range used.length).all (fun q => decide (n ≤ slackWithin h.slotsOf per (1000 * us) q used)))

/-- Every position has a slack slot in every frame. -/
def Hw.slackEverywhere (h : Hw) (ws : List FrameWalk) : Bool :=
  ws.all (fun w => (List.range 8).all (fun p => decide ((w.convs.filter (fun c => decide (c.2.1 = p))).length < h.slotsOf)))

/-- The frames whose budgets are judged: those of a table that breaks nothing. -/
def Hw.budgetFrames (h : Hw) : List FrameWalk := if h.on SEQ_CTL_RUN then h.walked else []

/-- FAIL_CODE 0x1 (R155, R233). -/
def converterOver (h : Hw) : Bool :=
  if h.on SEQ_CTL_RUN then
    let ws := h.budgetFrames
    !((ws.zip (List.range ws.length)).all (fun w => h.frameBudget w.2 w.1))
  else !h.armedGroups.isEmpty

/-- FAIL_CODE 0x2 (R156). -/
def slackOver (h : Hw) : Bool :=
  let ws := h.budgetFrames
  !(h.slackEverywhere ws && h.deadlinesMet ws)

/-! ### Buffers and pools (R175, R311, R328) -/

/-- The streams that a WRITE entry names. -/
def Hw.namedByWrite (h : Hw) : List Nat :=
  (h.regions.filter (fun r => decide (r.walk = .regular))).flatMap (fun r =>
    (h.decoded r).flatMap (fun q =>
      match q.2 with
      | .write s n => (List.range n).map (s + ·)
      | _ => []))

/-- The streams that a WRITE entry or an AUXC entry with SEND = 1 names. -/
def Hw.writtenStreams (h : Hw) : List Nat := h.auxStreams ++ h.namedByWrite

/-- The enabled allotments, as first tile and the tile after the last: buffers, segment pools, the history pool and the
work pool (R327). -/
def Hw.allotments (h : Hw) : List (Nat × Nat) :=
  let span (w : Word) := (bits w 12 0, bits w 12 0 + bits w 25 13)
  ((List.range nStream).filter (fun s => h.on (DMA_CFG_EN s))).map (fun s => span (h.reg (DMA_CFG s))) ++
  ((List.range 16).filter (fun n => h.on (TRG_CAP_EN n))).map (fun n => span (h.reg (TRG_CAP_POOL n))) ++
  ([h.reg MEM_HIST_POOL, h.reg MEM_WORK_POOL].map span).filter (fun t => decide (t.1 < t.2))

/-- No two ranges of a list meet. -/
def apart : List (Nat × Nat) → Bool
  | [] => true
  | a :: l => l.all (fun b => decide (a.2 ≤ b.1 ∨ b.2 ≤ a.1)) && apart l

/-- Buffer and pool settings that a commit refuses with FAIL_CODE 0x7. -/
def allotOutOfRange (h : Hw) : Bool :=
  h.writtenStreams.any (fun s => !h.on (DMA_CFG_EN s)) ||
  (List.range nStream).any (fun s => h.on (DMA_CFG_EN s) && (decide (h.get (DMA_WM_WM s) = 0) || decide (h.get (DMA_CFG_LEN_TILES s) = 0))) ||
  h.allotments.any (fun t => decide (6144 < t.2)) || !apart (h.allotments.filter (fun t => decide (t.1 < t.2)))

/-! ### The MAC budget (R207) -/

/-- A fraction a/b added to p. -/
def fracAdd (p : Nat × Nat) (a b : Nat) : Nat × Nat :=
  let n := p.1 * b + a * p.2
  let d := p.2 * b
  let g := Nat.gcd n d
  (n / g, d / g)

/-- The S3 load in MMAC/s, as a fraction (R207): the streams that a WRITE entry names. -/
def s3Load (h : Hw) : Nat × Nat :=
  let named := h.namedByWrite
  ((List.range nStream).filter (fun s => named.contains s)).foldl (fun p s =>
    let r := h.reg (FIL_RESP s)
    let one := (respL (respOf r 0) + 1) / 2
    let two := (respL (respOf r 1) + 1) / 2
    let macs := if natBit r.toNat 31 then one + two else if h.activeBank s = 0 then one else two
    let per := h.periodNs s
    if 0 < per then fracAdd p (macs * 1000) per else p) (0, 1)

/-- The load exceeds 48 GMAC/s. -/
def filterOverload (h : Hw) : Bool := decide (48000 * (s3Load h).2 < (s3Load h).1)

/-- FIL_LOAD of the epoch in effect (R207, R212). -/
def Hw.showLoad (h : Hw) : Hw :=
  let l := s3Load h
  h.put FIL_LOAD_S3_MMACS ((l.1 + l.2 - 1) / l.2)

end Sys2Proof.Machine
end

