-- ==== Sys2Proof/Machine/Aes.lean ====
section
/-!
DEFINITION. AES-256 (FIPS 197), its CMAC (NIST SP 800-38B) and the unwrapping of AES Key Wrap (NIST SP 800-38F), which
R439, R599 and R629 name. The spec gives them by name only; their text is taken from those standards (PRESUMED).
-/
namespace Sys2Proof.Machine

/-! ### The cipher -/

/-- The S-box, 32 entries to a row, entry 0 of a row in its lowest byte. -/
def sboxRows : List Nat := [
  0xc072a49cafa2d4adf04759fa7dc982ca76abd7fe2b670130c56f6bf27b777c63,
  0x75b227ebe28012079a059618c323c7041531d871f1e5a534ccf73f362693fdb7,
  0xcf584c4a39becb6a5bb1fc20ed00d153842fe329b3d63b52a05a6e1b1a2c8309,
  0xd2f3ff1021dab6bcf5389d928f40a351a89f3c507f02f94585334d43fbaaefd0,
  0xdb0b5ede14b8ee4688902a22dc4f816073195d643d7ea7c41744975fec130ccd,
  0x08ae7a65eaf4566ca94ed58d6d37c8e779e4959162acd3c25c2406490a3a32e0,
  0x9e1dc186b95735610ef6034866b53e708a8bbd4b1f74dde8c6b4a61c2e2578ba,
  0x16bb54b00f2d99416842e6bf0d89a18cdf2855cee9871e9b948ed9691198f8e1]

/-- The inverse S-box, in the same form. -/
def invSboxRows : List Nat := [
  0xcbe9dec444438e3487ff2f9b8239e37cfbd7f3819ea340bf38a53630d56a0952,
  0x25d18b6d49a25b76b224d92866a12e084ec3fa420b954cee3d23c2a632947b54,
  0x849d8da75746155edab9edfd5048706c92b6655dcc5ca4d41698688664f6f872,
  0x6b8a130103bdafc1020f3fca8f1e2cd00645b3b80558e4f70ad3bc8c00abd890,
  0x6edf751ce837f9e28535ade72274ac9673e6b4f0cecff297eadc674f4111913a,
  0xf45acd78fec0db9a2079d2c64b3e56fc1bbe18aa0e62b76f89c5291d711af147,
  0xef9cc9939f7ae52d0d4ab519a97f51605fec8027591012b131c7078833a8dd1f,
  0x7d0c2155631469e126d677ba7e042b17619953833cbbebc8b0f52aae4d3be0a0]

def boxAt (rows : List Nat) (x : Nat) : Nat := natBits (rows.getD (x / 32) 0) (8 * (x % 32) + 7) (8 * (x % 32))

/-- Multiplication by x in the field of AES. -/
def xtime (b : Nat) : Nat := if b < 128 then 2 * b else (2 * b - 256) ^^^ 0x1B

def xorBytes (a b : List Nat) : List Nat := a.zipWith (· ^^^ ·) b

/-- MixColumns of one column: each byte takes 2, 3, 1 and 1 times the bytes from its own place on. -/
def mixColumn : List Nat → List Nat
  | [a, b, c, d] =>
    let t := a ^^^ b ^^^ c ^^^ d
    [a ^^^ t ^^^ xtime (a ^^^ b), b ^^^ t ^^^ xtime (b ^^^ c), c ^^^ t ^^^ xtime (c ^^^ d), d ^^^ t ^^^ xtime (d ^^^ a)]
  | l => l

/-- Its inverse (coefficients 14, 11, 13 and 9): 4 times the bytes two places apart are added first. -/
def unmixColumn : List Nat → List Nat
  | [a, b, c, d] =>
    let u := xtime (xtime (a ^^^ c))
    let v := xtime (xtime (b ^^^ d))
    mixColumn [a ^^^ u, b ^^^ v, c ^^^ u, d ^^^ v]
  | l => l

def eachColumn (f : List Nat → List Nat) (s : List Nat) : List Nat := (List.range 4).flatMap (fun c => f (slice s (4 * c) 4))

/-- Row r of the state moves left by r places; `back` moves it right. -/
def shiftRows (back : Bool) (s : List Nat) : List Nat :=
  (List.range 16).map (fun i => s.getD (4 * ((i / 4 + (if back then 4 - i % 4 else i % 4)) % 4) + i % 4) 0)

/-- Key schedule: the words after the ones given, newest first; `n` words are still to come and `i` is the next one. -/
def keyWords : Nat → Nat → Nat → List (List Nat) → List (List Nat)
  | 0, _, _, ws => ws
  | n + 1, i, rcon, ws =>
    let t := ws.getD 0 []
    let sub := fun (l : List Nat) => l.map (boxAt sboxRows)
    let g := if i % 8 = 0 then xorBytes (sub (t.drop 1 ++ t.take 1)) [rcon, 0, 0, 0]
             else if i % 8 = 4 then sub t else t
    keyWords n (i + 1) (if i % 8 = 0 then xtime rcon else rcon) (xorBytes (ws.getD 7 []) g :: ws)

/-- The fifteen round keys of a key of 32 bytes. -/
def roundKeys (key : List Nat) : List (List Nat) :=
  let ws := (keyWords 52 8 1 ((List.range 8).map (fun i => slice key (4 * i) 4)).reverse).reverse
  (List.range 15).map (fun r => (slice ws (4 * r) 4).flatten)

/-- Middle rounds of the cipher. -/
def encRounds : List (List Nat) → List Nat → List Nat
  | [], s => s
  | [k], s => xorBytes (shiftRows false (s.map (boxAt sboxRows))) k
  | k :: ks, s => encRounds ks (xorBytes (eachColumn mixColumn (shiftRows false (s.map (boxAt sboxRows)))) k)

/-- AES-256 of a block of 16 bytes. -/
def aesEnc (key block : List Nat) : List Nat :=
  match roundKeys key with
  | k :: ks => encRounds ks (xorBytes block k)
  | [] => block

/-- Middle rounds of the inverse cipher; the keys come last first. -/
def decRounds : List (List Nat) → List Nat → List Nat
  | [], s => s
  | [k], s => xorBytes ((shiftRows true s).map (boxAt invSboxRows)) k
  | k :: ks, s => decRounds ks (eachColumn unmixColumn (xorBytes ((shiftRows true s).map (boxAt invSboxRows)) k))

/-- The inverse cipher. -/
def aesDec (key block : List Nat) : List Nat :=
  match (roundKeys key).reverse with
  | k :: ks => decRounds ks (xorBytes block k)
  | [] => block

/-! ### CMAC and Key Wrap -/

/-- The bytes of a 256-bit key, first byte first. -/
def keyBytes (k : Nat) : List Nat := (List.range 32).map (fun i => natBits k (255 - 8 * i) (248 - 8 * i))

/-- Doubling of a block, for the two subkeys of CMAC. -/
def dbl (b : Nat) : Nat := (2 * b) % 2 ^ 128 ^^^ (if natBit b 127 then 0x87 else 0)

def blockNat (l : List Nat) : Nat := l.foldl (fun a b => 256 * a + b) 0
def natBlock (n : Nat) : List Nat := (List.range 16).map (fun i => natBits n (127 - 8 * i) (120 - 8 * i))

/-- Chaining over the whole blocks of a message; `n` bounds their number. -/
def cmacFrom (key : List Nat) (k1 k2 : Nat) : Nat → List Nat → List Nat → List Nat
  | 0, c, _ => c
  | n + 1, c, m =>
    if m.length ≤ 16 then
      let last := if m.length = 16 then xorBytes m (natBlock k1)
        else xorBytes (m ++ 0x80 :: List.replicate (15 - m.length) 0) (natBlock k2)
      aesEnc key (xorBytes c last)
    else cmacFrom key k1 k2 n (aesEnc key (xorBytes c (m.take 16))) (m.drop 16)

/-- The untruncated CMAC of a message under a 256-bit key. -/
def cmac (k : Nat) (msg : List Byte) : List Byte :=
  let key := keyBytes k
  let k1 := dbl (blockNat (aesEnc key (List.replicate 16 0)))
  let m := msg.map BitVec.toNat
  (cmacFrom key k1 (dbl k1) (m.length / 16 + 1) (List.replicate 16 0) m).map (BitVec.ofNat 8 ·)

/-- One step of the unwrapping of four blocks of 8 bytes: step `t` from 24 down to 1. -/
def unwrapSteps (key : List Nat) : Nat → List Nat → List (List Nat) → List Nat × List (List Nat)
  | 0, a, r => (a, r)
  | t + 1, a, r =>
    let i := t % 4
    let b := aesDec key (xorBytes a (List.replicate 7 0 ++ [t + 1]) ++ r.getD i [])
    unwrapSteps key t (b.take 8) (r.set i (b.drop 8))

/-- A wrapped key of 40 bytes, unwrapped; none where the integrity check fails. -/
def unwrapKey (k : Nat) (wrapped : List Byte) : Option Nat :=
  let c := wrapped.map BitVec.toNat
  let r := unwrapSteps (keyBytes k) 24 (c.take 8) ((List.range 4).map (fun i => slice c (8 + 8 * i) 8))
  if r.1 = List.replicate 8 0xA6 then some (blockNat r.2.flatten) else none

end Sys2Proof.Machine
end

