-- ==== Sys2Proof/Machine/Image.lean ====
section
/-!
DEFINITION. The Poloc image (R599 to R607): the judging of the two slots' headers, the checks of one image, and its
application to the staging set.
-/
namespace Sys2Proof.Machine

/-! ### Keys (R621, R622) -/

/-- The slot in effect: the lowest one written and not revoked. -/
def keySlot (l : List KeySlot) : Option Nat :=
  (List.range 4).find? (fun i => (l.getD i keySlot0).written && !(l.getD i keySlot0).revoked)

/-- The key in effect; in BLANK a missing one acts as the zero key, else every check fails. -/
def Hw.keyOf (h : Hw) (l : List KeySlot) : Option Nat :=
  match keySlot l with
  | some i => some (l.getD i keySlot0).key
  | none => if h.get LCS_STATE_STATE = 0 then some 0 else none

def flagBits (f : KeySlot → Bool) (l : List KeySlot) : Nat :=
  (List.range 4).foldl (fun a i => a + b2n (f (l.getD i keySlot0)) * 2 ^ i) 0

/-- LCS_KEYS shows the slots (R635). -/
def Hw.showKeys (h : Hw) : Hw :=
  let c := h.lcs.cmdKeys
  let i := h.lcs.imgKeys
  let h1 := (((h.put LCS_KEYS_CMD_WRITTEN (flagBits KeySlot.written c)).put LCS_KEYS_CMD_REVOKED (flagBits KeySlot.revoked c)).put
    LCS_KEYS_IMG_WRITTEN (flagBits KeySlot.written i)).put LCS_KEYS_IMG_REVOKED (flagBits KeySlot.revoked i)
  (((h1.put LCS_KEYS_CMD_SLOT ((keySlot c).getD 0)).put LCS_KEYS_IMG_SLOT ((keySlot i).getD 0)).put
    LCS_KEYS_CMD_NONE (b2n (keySlot c).isNone)).put LCS_KEYS_IMG_NONE (b2n (keySlot i).isNone)

/-! ### Headers (R598, R599, R602) -/

abbrev slotBytes : Nat := 0x800000

def Hw.imageBytes (h : Hw) (slot o n : Nat) : List Byte := h.nvmBytes (slotBytes * slot + o) n

/-- What is wrong with a header: 0xB the slot is empty, 2 a bad header; none: it is good. -/
def headerFail (b : List Byte) : Option Nat :=
  let n := leAt b 6 2
  let len := leAt b 8 4
  if leAt b 0 4 = 0xFFFFFFFF then some 0xB
  else if leAt b 0 4 = 0x0C1A9E47 ∧ leAt b 4 2 = 1 ∧ 1 ≤ n ∧ n ≤ 32 ∧ len % 16 = 0 ∧ 128 ≤ len ∧ len ≤ 8388608 ∧
      crc32c (b.take 60) = leAt b 60 4 then none
  else some 2

/-- Judge the header of a slot. -/
def Hw.judgeSlot (h : Hw) (slot : Nat) : Hw :=
  let b := h.imageBytes slot 0 64
  match headerFail b with
  | some c => h.put (CFG_IMG_FAIL slot) c
  | none => (h.put (CFG_IMG_TAGGED slot) (leAt b 16 1 % 2)).put (CFG_IMG_VER_LO slot) (leAt b 12 2)

/-- The slots with good headers, in the order of trial: the higher version first, slot A first at equal ones (R603). -/
def Hw.slotOrderOf (h : Hw) : List Nat :=
  let ver (s : Nat) : Nat := leAt (h.imageBytes s 0 64) 12 4
  let good (s : Nat) : Bool := (headerFail (h.imageBytes s 0 64)).isNone
  ((if ver 0 < ver 1 then [1, 0] else [0, 1]) : List Nat).filter good

/-- The loader judges both headers (R602). -/
def Hw.judgeHeaders (h : Hw) : Hw :=
  if h.boot.phase = .headers then
    let h1 := (h.judgeSlot 0).judgeSlot 1
    { h1 with boot := { h1.boot with phase := .load h1.slotOrderOf } }
  else h

/-! ### The directory, the tiles and the tag (R599, R603 step 1) -/

/-- A directory entry: section ID, first byte, length and first byte of the tile CRC table. -/
structure Sect where
  id : Nat
  ofs : Nat
  len : Nat
  crcOfs : Nat
  deriving DecidableEq, Repr

def Sect.tiles (x : Sect) : Nat := (x.len + 4095) / 4096

def sectOf (b : List Byte) : Sect := { id := leAt b 0 2, ofs := leAt b 4 4, len := leAt b 8 4, crcOfs := leAt b 12 4 }

/-- An entry that breaks R599 by itself: an ID of no section, another SVER, a reserved byte set, a misaligned or
overlong section, or one past `lim`. -/
def sectBad (b : List Byte) (lim : Nat) : Bool :=
  let x := sectOf b
  decide (x.id = 0 ∨ 12 < x.id ∨ leAt b 2 1 ≠ 1 ∨ leAt b 3 1 ≠ 0 ∨ x.ofs % 16 ≠ 0 ∨ x.crcOfs % 4 ≠ 0 ∨ x.len = 0 ∨
    4194304 < x.len ∨ lim < x.ofs + x.len ∨ lim < x.crcOfs + 4 * x.tiles)

/-- Two byte ranges, as first byte and length, meet. -/
def meets (a b : Nat × Nat) : Bool := decide (a.1 < b.1 + b.2 ∧ b.1 < a.1 + a.2)

/-- Some pair of ranges of the list meets. -/
def anyMeet : List (Nat × Nat) → Bool
  | [] => false
  | a :: l => l.any (meets a) || anyMeet l

/-- The bytes of section `x`. -/
def Hw.sectBytes (h : Hw) (slot : Nat) (x : Sect) : List Byte := h.imageBytes slot x.ofs x.len

/-- A tile of the section differs from its CRC. -/
def Hw.tilesBad (h : Hw) (slot : Nat) (x : Sect) : Bool :=
  let b := h.sectBytes slot x
  (List.range x.tiles).any (fun i => decide (crc32c (slice b (4096 * i) 4096) ≠ leAt (h.imageBytes slot (x.crcOfs + 4 * i) 4) 0 4))

/-- The sections of a slot's image, or the FAIL and SECT of a bad directory. -/
def Hw.directory (h : Hw) (slot : Nat) : List Sect ⊕ (Nat × Nat) :=
  let b := h.imageBytes slot 0 64
  let n := leAt b 6 2
  let lim := leAt b 8 4 - 16 * (leAt b 16 1 % 2)
  let d := h.imageBytes slot 64 (16 * n)
  let es := (List.range n).map (fun i => slice d (16 * i) 16)
  let xs := es.map sectOf
  if crc32c d ≠ leAt b 20 4 ∨ lim < 64 + 16 * n then .inr (3, 0)
  else
    match (List.range n).find? (fun i => sectBad (es.getD i []) lim || (xs.take i).any (fun y => decide (y.id = (sectOf (es.getD i [])).id))) with
    | some i => .inr (3, (sectOf (es.getD i [])).id)
    | none =>
      if anyMeet ((0, 64 + 16 * n) :: xs.flatMap (fun x => [(x.ofs, x.len), (x.crcOfs, 4 * x.tiles)])) then .inr (3, 0)
      else .inl xs

/-- The image's tag matches under K_IMG (R599). -/
def Hw.tagOk (h : Hw) (slot : Nat) : Bool :=
  let len := leAt (h.imageBytes slot 0 64) 8 4
  match h.keyOf h.lcs.imgKeys with
  | some k => decide (cmac k (h.imageBytes slot 0 (len - 16)) = h.imageBytes slot (len - 16) 16)
  | none => false

/-! ### The capability summary (R601, R608) -/

/-- Walk the capability list from word `i`: the version of an ID, if the list holds it. -/
def capVersion (id : Nat) : Nat → Nat → Option Nat
  | 0, _ => none
  | n + 1, i =>
    let w := capList.getD i 0
    if natBits w 7 0 = id then some (natBits w 11 8)
    else if natBits w 31 16 = 0 then none
    else capVersion id n (natBits w 31 16 / 4)

/-- What is wrong with the summary: 7 its form, 6 it does not fit the hub. -/
def Hw.capFail (h : Hw) (b : List Byte) : Option Nat :=
  let n := leAt b 3 1
  if b.length ≠ 8 + 2 * n ∨ 16 < n ∨ leAt b 4 4 ≠ 0 then some 7
  else if leAt b 0 2 = h.get SYS_ID_PART ∧ leAt b 2 1 ≤ h.get SYS_ID_STEP ∧
      (List.range n).all (fun i =>
        (capVersion (leAt b (8 + 2 * i) 1) 18 0).any (fun v => decide (leAt b (9 + 2 * i) 1 ≤ v))) then none
  else some 6

/-! ### Sections (R600, R603 step 3) -/

/-- The runs of a section, as addresses and words in order; none where their form is broken. -/
def runsOf : Nat → List Byte → Option (List (Nat × Word))
  | 0, b => if b.isEmpty then some [] else none
  | n + 1, b =>
    if b.isEmpty then some []
    else
      let a := leAt b 0 4
      let c := leAt b 4 4
      let rest := b.drop 8
      if b.length < 8 ∨ c = 0 ∨ 16384 < c ∨ rest.length < 4 * c then none
      else (runsOf n (rest.drop (4 * c))).map (fun l => ((List.range c).map (fun i => (a + 4 * i, wordAt rest i))) ++ l)

/-- The address lies in the ranges of a section. -/
def inSection (id a : Nat) : Bool :=
  let blk := a / 0x10000
  match id with
  | 2 => decide (blk = 1)
  | 3 => decide (blk = 2 ∨ blk = 3 ∨ blk = 15)
  | 4 => decide (blk = 4 ∨ blk = 20)
  | 5 => decide ((0x70000 ≤ a ∧ a < 0x78000) ∨ (0x50000 ≤ a ∧ a < 0x58000))
  | 6 => decide (blk = 6)
  | 7 => decide (blk = 9)
  | 8 => decide (blk = 8 ∨ blk = 10 ∨ blk = 11 ∨ (0x58000 ≤ a ∧ a < 0x5C000 ∧ a % 32 < 8))
  | 10 => decide (blk = 16)
  | 11 => decide (blk = 17 ∨ blk = 18)
  | 12 => decide (blk = 12 ∨ blk = 13 ∨ blk = 14)
  | _ => false

/-- A word that an image may write: a register with RW or RWS fields, every other bit 0, or a mask point. -/
def imageWordOk (id a : Nat) (v : Word) : Bool :=
  inSection id a &&
  (isMaskWindow a ||
    (match regRowAt a with
      | some r => decide (r.rw ||| r.rws ≠ 0) && decide (v &&& ~~~(BitVec.ofNat 32 (r.rw ||| r.rws)) = 0)
      | none => false))

/-- The loader writes one word; it keeps the registers whose RW fields it wrote. -/
def Hw.loaderWrite (h : Hw) (a : Nat) (v : Word) : Hw :=
  let h1 := (h.busWrite .loader 0 a v).1
  let rw := (regRowAt a).any (fun r => decide (r.rw ≠ 0))
  if rw ∧ h1.boot.rwWritten.contains a = false then { h1 with boot := { h1.boot with rwWritten := h1.boot.rwWritten ++ [a] } }
  else h1

/-- Write words in order; false at the first that an image may not write. -/
def Hw.loaderWords (id : Nat) : List (Nat × Word) → Hw → Hw × Bool
  | [], h => (h, true)
  | (a, v) :: l, h => if imageWordOk id a v then Hw.loaderWords id l (h.loaderWrite a v) else (h, false)

/-- Apply the runs of a section; answers the FAIL, 0 for none. -/
def Hw.applyRuns (h : Hw) (id : Nat) (b : List Byte) : Hw × Nat :=
  match runsOf (b.length / 12 + 1) b with
  | some l =>
    let r := Hw.loaderWords id l h
    (r.1, if r.2 then 0 else 7)
  | none => (h, 7)

/-- A cell of the equalisation table that R398 refuses; `l` is its lane. -/
def cellBad (c l : Nat) : Bool :=
  decide (natBits c 31 24 ≠ 0 ∨ natBits c 15 15 ≠ 0 ∨ 63 < natBits c 3 0 + natBits c 9 4 + natBits c 14 10 ∨
    (l = 4 ∧ (natBits c 3 0 ≠ 0 ∨ natBits c 14 10 ≠ 0)))

/-- The equalisation table: every cell is judged, and the row of the board's position is staged (R399). -/
def Hw.applyCells (h : Hw) (b : List Byte) : Hw × Nat :=
  if b.length ≠ 2560 then (h, 7)
  else if (List.range 640).any (fun i => cellBad (leAt b (4 * i) 4) (i % 5)) then (h, 0xA)
  else
    let row := h.get SYS_BOOT_POS
    (h.each [0, 1] (fun h p => h.each [0, 1, 2, 3, 4] (fun h l => h.loaderWrite (LNK_EQ p l) (wordAt b ((2 * row + p) * 5 + l)))), 0)

/-- The Bridle table: every entry is staged. -/
def Hw.applyTable (h : Hw) (b : List Byte) : Hw :=
  let st := h.epoch.staging
  let t := (List.range 8192).foldl (fun (t : Store (Option Word64)) e =>
    storeSet (fun _ => none) t e (some (word64 (wordAt b (2 * e)) (wordAt b (2 * e + 1))))) st.table
  { h with epoch := { h.epoch with staging := { st with table := t } } }

/-- The hub ID that the network identity gives (R607). -/
def Hw.identity (h : Hw) (b : List Byte) : Nat :=
  if leAt b 2 1 = 1 then natPut (leAt b 0 2) 5 0 (h.get SYS_BOOT_POS) else leAt b 0 2

/-- Parse and apply one section; answers the FAIL, 0 for none. -/
def Hw.applySection (h : Hw) (id : Nat) (b : List Byte) : Hw × Nat :=
  match id with
  | 1 => (h, 0)
  | 5 => if b.length < 65536 then (h, 7) else (h.applyTable b).applyRuns 5 (b.drop 65536)
  | 9 => h.applyCells b
  | 12 =>
    if b.length < 8 ∨ 1 < leAt b 2 1 ∨ leAt b 3 5 ≠ 0 then (h, 7)
    else
      let i := h.identity b
      if i = 0 ∨ 0xFFEF < i then (h, 9)
      else ({ h with boot := { h.boot with hubId := i } } : Hw).applyRuns 12 (b.drop 8)
  | _ => h.applyRuns id b

/-- A recorder region that the checks refuse (R570, R598, R624, R668): past the NVM's size, over an image slot or into
the command-counter area. -/
def regionBad (h : Hw) (w : Word) : Bool :=
  let size := bits w 22 16
  let base := 4096 * bits w 15 0
  decide (size ≠ 0) && decide (64 < size ∨ base < 2 * slotBytes ∨ h.nvmSize < base + 1048576 * size + 8192)

/-- Apply the sections in directory order; answers FAIL and SECT of the first that is refused. -/
def Hw.applySections (slot : Nat) : List Sect → Hw → Hw × Option (Nat × Nat)
  | [], h => if regionBad h (h.stagedOr REC_REGION) then (h, some (0xA, 0x0B)) else (h, none)
  | x :: xs, h =>
    let r := h.applySection x.id (h.sectBytes slot x)
    if r.2 = 0 then Hw.applySections slot xs r.1 else (r.1, some (r.2, x.id))

/-! ### Loading one slot (R603) -/

/-- The slot has failed: its FAIL and SECT show, the whole staging set is discarded, RW fields that the image wrote and
mask points return to their reset values, and the other slot is next. -/
def Hw.imageFail (h : Hw) (slot code sect : Nat) (rest : List Nat) : Hw :=
  let h1 := (h.put (CFG_IMG_FAIL slot) code).put (CFG_IMG_SECT slot) sect
  let h2 := h1.each h1.boot.rwWritten (fun h a => (h.busWrite .loader 0 a (h.prodReg a)).1)
  let h3 : Hw := { h2 with
    epoch := { h2.epoch with staging := { regs := [], table := [] }, sealedSet := none }
    trg := { h2.trg with mask := [] }
    boot := { h2.boot with hubId := 0, rwWritten := [], phase := .load rest } }
  (h3.setRq .loader req0).put SYS_COMMIT_STATUS_PENDING 0

/-- The image has been applied to the staging set: the loader waits for the references, or writes GO at once. -/
def Hw.imageReady (h : Hw) (slot : Nat) (rest : List Nat) : Hw :=
  if h.on SYS_BOOT_WAIT_FIELD then { h with boot := { h.boot with phase := .waitField slot rest } }
  else ({ h with boot := { h.boot with phase := .committing slot rest } } : Hw).seal 0 0

/-- Steps 1 to 3 of R603 on a slot: answers FAIL and SECT of the first check that fails. -/
def Hw.verifyImage (h : Hw) (slot : Nat) : Hw × Option (Nat × Nat) :=
  match h.directory slot with
  | .inr f => (h, some f)
  | .inl xs =>
    match xs.find? (h.tilesBad slot) with
    | some x => (h, some (4, x.id))
    | none =>
      let ok := h.on (CFG_IMG_TAGGED slot) && h.tagOk slot
      let h1 := h.put (CFG_IMG_TAG_OK slot) (b2n ok)
      if h1.inField ∧ ok = false then (h1, some (5, 0))
      else
        match xs.find? (fun x => decide (x.id = 1)) with
        | none => (h1, some (7, 1))
        | some c =>
          match h1.capFail (h1.sectBytes slot c) with
          | some f => (h1, some (f, 1))
          | none =>
            if xs.any (fun x => decide (x.id = 12)) then Hw.applySections slot xs h1 else (h1, some (7, 12))

/-- The loader reads, verifies and applies the next slot's image. -/
def Hw.loadImage (h : Hw) : Hw :=
  match h.boot.phase with
  | .load (slot :: rest) =>
    let r := (h.put (CFG_IMG_TRIED slot) 1).verifyImage slot
    match r.2 with
    | some f => r.1.imageFail slot f.1 f.2 rest
    | none => r.1.imageReady slot rest
  | _ => h

/-- The field-die references are ready (R603): an image that waits for them is committed. -/
def Hw.referencesReady (h : Hw) : Hw :=
  let h1 := h.put SYS_BOOT_WAIT_FIELD 0
  match h1.boot.phase with
  | .waitField slot rest => ({ h1 with boot := { h1.boot with phase := .committing slot rest } } : Hw).seal 0 0
  | _ => h1

/-! ### The commands -/

def execImageHeaderJudge (s : State) : Out := actOn s true Hw.judgeHeaders

def execImageLoad (s : State) : Out := actOn s true Hw.loadImage

/-- R603: the references of the field die, once its rails are in range. -/
def execFieldReferencesReady (s : State) : Out :=
  actOn s true (fun h => h.when (h.on SYS_BOOT_WAIT_FIELD && decide (h.boot.phase ≠ .otp)) Hw.referencesReady)

end Sys2Proof.Machine
end

