-- ==== Sys2Proof/Machine/Commits.lean ====
section
/-!
DEFINITION. Commits and frame boundaries (R35 to R40, R118): the candidate configuration of a sealed set, the checks it
passes or fails, its application, and what every frame boundary does.
-/
namespace Sys2Proof.Machine

/-! ### The candidate -/

/-- The hub with a set's staged fields and table entries in place of those in effect. -/
def Hw.withSet (h : Hw) (x : StageSet) : Hw :=
  let h1 := x.regs.foldl (fun (h : Hw) p =>
    match p.2, regRowAt p.1 with
    | some v, some r => h.writeRw p.1 r.rws v
    | _, _ => h) h
  let h2 : Hw := { h1 with seq := { h1.seq with live := mergeTable h1.seq.live x.table } }
  { h2 with str := { h2.str with sources := h2.feedSources } }

/-! ### The checks (R36, R45, R668) -/

/-- An address that REC_LIST may not name (R590): misaligned, in the capture memory window, or in a record, segment, mask
or table window. -/
def listAddrBad (a : Nat) : Bool :=
  decide (a % 4 ≠ 0 ∨ (0x10000000 ≤ a ∧ a < 0x11800000) ∨ (0x110100 ≤ a ∧ a < 0x110200) ∨ (0x98000 ≤ a ∧ a < 0xA0000) ∨
    (0x94000 ≤ a ∧ a < 0x98000) ∨ (0x78000 ≤ a ∧ a < 0x80000))

/-- Calibration, recorder and fault-map fields out of range (R529, R585, R590, R570, R554). -/
def serviceOutOfRange (h : Hw) : Bool :=
  let delta := h.get CAL_TEMP_DELTA_DELTA
  decide (delta < 4 ∨ 128 < delta ∨ 52 < h.get REC_CTL_NREG) ||
  (List.range 52).any (fun i => listAddrBad (h.get (REC_LIST_ADDR i))) || regionBad h (h.reg REC_REGION) ||
  (List.range 64).any (fun i =>
    let r := h.get (FLT_MAP_REACT i)
    decide (5 ≤ r) || (decide (r = 3) && !([14, 16, 30, 34, 42] : List Nat).contains i) ||
    decide (10000000 < h.get (FLT_MAP_TMR_US i)) || (decide (62 ≤ i) && decide (2 ≤ h.get (FLT_MAP_CLASS i))))

/-- Ranges that a register's own table states, whatever the unit's enable (R668): offsets of groups, buffers and captures. -/
def tableRanges (h : Hw) : Bool :=
  (List.range 8).any (fun g => decide (h.get (SMP_GRP_CTL_MULT_M1 g) + 1 ≤ h.get (SMP_GRP_CTL_FOFS g))) ||
  (List.range nStream).any (fun s => decide (6143 < h.get (DMA_CFG_BASE_TILE s) ∨ 6144 < h.get (DMA_CFG_LEN_TILES s))) ||
  (List.range 16).any (fun n =>
    let len := h.get (TRG_CAP_LEN_LEN n)
    decide (len < 64 ∨ 1048576 < len ∨ len ≤ h.get (TRG_CAP_PRE_PRE n)))

/-- FAIL_CODE 0x7. -/
def outOfRange (h : Hw) : Bool :=
  tableRanges h || routesOutOfRange h || driversOutOfRange h || samplingOutOfRange h || filterOutOfRange h || trgOutOfRange h ||
  linkOutOfRange h || cinOutOfRange h || allotOutOfRange h || serviceOutOfRange h || !h.tableBreaches.isEmpty

/-- FAIL_CODE of a candidate, 0 where it passes: ranges first, then the checks in the order of R36. -/
def failCode (h : Hw) : Nat :=
  if outOfRange h then 7
  else if converterOver h then 1
  else if slackOver h then 2
  else if filterOverload h then 3
  else if historyOver h then 4
  else if excitationOver h then 8
  else if h.get SEQ_TABLE_CRC_CRC ≠ tableCrc h.seq.live then 5
  else if !(conflicts h).isEmpty then 6
  else 0

/-- A failed set's values return to the head of the staging set; values staged since the seal override them (R37). -/
def returned (sealed_ staging : StageSet) : StageSet :=
  { regs := staging.regs.foldl (fun m p => storeSet (fun _ => none) m p.1 p.2) sealed_.regs
    table := staging.table.foldl (fun m p => storeSet (fun _ => none) m p.1 p.2) sealed_.table }

/-- What is recorded of a refused candidate: the table's breach (R251) or the route conflict (R63, R64). A set in conflict
that fails an earlier check records no conflict and raises no HARNESS_CONFLICT: DESIGN CHOICE (log 28), since R63 ties both to
FAIL_CODE 0x6 and R37 records the first failing check only. -/
def Hw.noteRefusal (h cand : Hw) (code : Nat) : Hw :=
  let h1 := match lowest cand.tableBreaches with
    | some b => h.when (decide (code = 7)) (fun h => h.noteTable b)
    | none => h
  match conflicts cand with
  | c :: _ => h1.when (decide (code = 6)) (fun h => h.noteConflict c)
  | [] => h1

/-- The sealed set fails (R37). The loader's set is discarded with its image (R603). -/
def Hw.commitFails (h cand : Hw) (x : Sealed) (code : Nat) : Hw :=
  let h1 : Hw := { h with epoch := { h.epoch with staging := returned x.set h.epoch.staging, sealedSet := none } }
  let h2 := (((h1.put SYS_COMMIT_STATUS_PENDING 0).put SYS_COMMIT_STATUS_FAILED 1).put SYS_COMMIT_STATUS_FAIL_CODE code)
  let h3 := (h2.raise srcEpochCommitFail code).noteRefusal cand code
  match h3.boot.phase with
  | .committing slot rest => h3.imageFail slot 8 0 rest
  | _ => h3

/-- Validation of the sealed set ends: the filter stores that it selects are verified, of which `bad` read wrong twice
(R208); then it passes, and the idle buffer of the field die's mirror holds the new skeleton (R235), or it fails. -/
def Hw.commitValidated (h : Hw) (bad : List Nat) : Hw :=
  match h.epoch.sealedSet with
  | some x =>
    if x.validated then h
    else
      let h := h.romVerify (newStores h (h.withSet x.set)) bad
      let cand := h.withSet x.set
      let code := if selectsBad h cand then 7 else failCode cand
      if code = 0 then
        let h1 : Hw := { h with
          epoch := { h.epoch with sealedSet := some { x with validated := true, seen := h.smp.lastBoundary } }
          seq := { h.seq with mirrorNext := cand.mirrorOf } }
        -- the Bridle loads the mirror over Stitch (R21)
        h1.wake .stitch
      else h.commitFails cand x code
  | none => h

/-! ### Application (R36, R39, R46, R605) -/

/-- When the validated set applies: at a frame boundary after its validation, or at once while the Bridle is stopped. The
Bridle is stopped while RUN is 0 in effect; a walk that an illegal step has stopped, or that waits for a locate, still waits
for the boundary: DESIGN CHOICE (log 189), since R36 does not say which stop it means. -/
def Hw.applyAt (h : Hw) (x : Sealed) : Option Nat :=
  if x.validated = false then none
  else if h.boundaryNow.isSome ∧ h.boundaryNow ≠ x.seen then h.boundaryNow
  else if h.seq.running then none else some h.time.now

/-- A route has changed: the terminal's probe is abandoned and its interval starts again (R76). -/
def Hw.routeChanged (h : Hw) (t : Nat) : Hw :=
  let h1 := h.dropProbe t
  { h1 with field := { h1.field with visited := storeSet (fun _ => 0) h1.field.visited t h1.ns } }

/-- A channel whose input paths or settings change starts a settle window (R61, R86, R92). -/
def Hw.chanChanged (h old : Hw) (m : Nat) : Bool :=
  decide (bits (h.reg (FE_CFG m)) 8 0 ≠ bits (old.reg (FE_CFG m)) 8 0) ||
  decide (h.inputPath m 0 ≠ old.inputPath m 0) || decide (h.inputPath m 1 ≠ old.inputPath m 1)

/-- The field die follows a commit: settle windows, switches (R60), and drivers, which wait for 0.3 us after the boundary
(R100). Where the Bridle is stopped and the commit applies between boundaries, switches and drivers wait for the next one
(R36, R60, R100). -/
def Hw.fieldCommit (h old : Hw) (b : Nat) : Hw :=
  let atBoundary := decide (h.boundaryNow = some b)
  let h1 := h.each ((List.range nTerm).filter (fun t => decide (h.reg (HRN_TERM t) ≠ old.reg (HRN_TERM t)))) Hw.routeChanged
  let h2 := h1.each ((List.range nChan).filter (fun m => h.chanChanged old m)) (fun h m => h.feWindowAt m b)
  let h3 := if atBoundary then h2.moveSwitches b h2.unsettled
    else { h2 with field := { h2.field with toMove := h2.unsettled } }
  h3.each ((List.range nDrv).filter h3.driverStale) (if atBoundary then Hw.markChange else Hw.wantChange)

/-- The boundary at which a changed program begins (R130, R236). -/
def Hw.programStart (h old : Hw) (b : Nat) : Nat :=
  let moved := decide (h.reg SMP_FRAME_PERIOD ≠ old.reg SMP_FRAME_PERIOD) || decide (h.reg SMP_FRAME_PHASE ≠ old.reg SMP_FRAME_PHASE)
  match h.smp.nextSched, moved with
  | some (f, _, _), true => f
  | _, _ =>
    if h.boundaryNow = some b then b
    else h.boundaryFrom (match h.smp.lastBoundary with
      | some l => max (l + 1) h.time.now
      | none => h.time.now)

/-- STR_CFG.AUX shows the auxiliary streams of the table in effect (R278). -/
def Hw.showAux (h : Hw) : Hw :=
  let aux := h.auxStreams
  h.each (List.range nStream) (fun h s => h.put (STR_CFG_AUX s) (b2n (aux.contains s)))

/-- The loader's first commit (R605 to R607): mode, slot, hub ID and the routes; the counter area is read, and a failed
slot is reported. -/
def Hw.firstCommit (h : Hw) (slot : Nat) : Hw :=
  let h1 := (((h.put SYS_BOOT_MODE 1).put SYS_BOOT_IMAGE slot).put SYS_HUB_ID_ID h.boot.hubId).put (CFG_IMG_LOADED slot) 1
  let h2 := ({ h1 with boot := { h1.boot with phase := .running, rwWritten := [] } } : Hw).opsecRead
  let failed (i : Nat) : Bool := decide (h2.get (CFG_IMG_FAIL i) ≠ 0 ∧ h2.get (CFG_IMG_FAIL i) ≠ 0xB)
  if failed 0 then h2.raise srcImageFallback 0 else if failed 1 then h2.raise srcImageFallback 1 else h2

/-- Another recorder region takes over: its ring starts at its first page, with no sector marked bad. -/
def Hw.regionCommit (h old : Hw) : Hw :=
  if h.reg REC_REGION ≠ old.reg REC_REGION then { h with recd := { h.recd with nextPage := 0, badSectors := [] } } else h

/-- A restart that falls due as a commit applies follows at the next frame boundary (R632). -/
def Hw.deferRestart (h : Hw) (b : Nat) : Hw :=
  match h.boot.restartAt with
  | some t =>
    if h.due t then
      let n := h.boundaryAfter b
      { h with boot := { h.boot with restartAt := some (h.ns + 40 * ((n - h.time.now) / h.incrNow)) } }
    else h
  | none => h

/-- The set applies at network time `b`: every staged field of every block at once. -/
def Hw.commitApply (h : Hw) (x : Sealed) (b : Nat) : Hw :=
  let h1 : Hw := { h.withSet x.set with epoch := { h.epoch with sealedSet := none } }
  let h2 := (((h1.put SYS_EPOCH_EPOCH (h.get SYS_EPOCH_EPOCH + 1)).put SYS_COMMIT_SRC_PATH x.path).put
    SYS_COMMIT_SRC_SRC_ID x.srcId).put SYS_COMMIT_STATUS_PENDING 0
  let flipped := x.set.table.map (·.1)
  let h3 := match h.boot.phase with
    | .committing slot _ => h2.firstCommit slot
    | _ => h2
  let h4 := h3.smpCommit h b
  let h5 := h4.seqCommit h flipped (h4.programStart h b)
  let h6 := h5.adcCommit h (fun lo hi => flipped.any (fun e => decide (lo ≤ e ∧ e ≤ hi)))
  let h7 := h6.each (touchedStreams h6 h) (fun k s => k.streamCommit h b s)
  let h8 := ((((h7.trgCommit h).reliefCommit h b).cinCommit h).backfillCommit h).linkCommit h
  let h9 := ((((h8.fieldCommit h b).regionCommit h).showAux).showLoad).deferRestart b
  -- LINK_EN or DELTA may have changed: due slicers ask for the training pattern (R516)
  (h9.when (h9.on REC_CTL_COMMIT_REC) (fun h => h.recTriggerAt 0x40 none)).markSlicers

/-- A snapshot that is due at the boundary holds the old epoch (R40); then the set applies. -/
def State.commitApply (s : State) : State :=
  match s.hw.epoch.sealedSet with
  | some x =>
    match s.hw.applyAt x with
    | some b =>
      let s1 := s.snapTake
      { s1 with hw := s1.hw.commitApply x b }
    | none => s
  | none => s

/-! ### Frame boundaries (R118) -/

/-- A snapshot that is due at a frame boundary at which a validated set applies is taken before the boundary's other effects:
it holds the end of the old epoch's last frame (R40). -/
def State.boundarySnap (s : State) : State :=
  if s.hw.coreOn && s.hw.nextBoundary.isSome && s.hw.epoch.sealedSet.any (fun x => x.validated) then s.snapTake else s

/-- A frame boundary: the schedule, the current and total measurements of the drivers, the Bridle and the cores. -/
def Hw.frameBoundary (h : Hw) (totalMa : Nat) (imeas : List Nat) : Hw :=
  match h.nextBoundary with
  | some b =>
    let h1 := (((h.smpBoundary b).takeMoves b).takeChanges).measureTotal totalMa
    let h2 := h1.each ((List.range nDrv).zip imeas) (fun h p => h.put (EXC_STATUS_IMEAS p.1) (min p.2 65535))
    let h3 := (h2.seqBoundary b).adcBoundary b
    { h3 with cal := { h3.cal with pickHold := false } }
  | none => h

/-! ### The commands -/

def execCommitValidated (bad : List Nat) (s : State) : Out := actOn s true (fun h => h.when h.coreOn (fun h => h.commitValidated bad))

def execCommitApply (s : State) : Out := .next (if s.hw.live && s.hw.coreOn then s.commitApply else s)

def execFrameBoundary (totalMa : Nat) (imeas : List Nat) (s : State) : Out :=
  .next (if s.hw.live then
    let s1 := s.boundarySnap
    { s1 with hw := s1.hw.frameBoundary totalMa imeas }
  else s)

end Sys2Proof.Machine
end

