-- ==== Sys2Proof/Machine/Crossings.lean ====
section
/-!
DEFINITION. The request crossings and queues between clock domains (chapter 17), the sideband of the field die (R23),
and the sleep controller (R26, R27).
-/
namespace Sys2Proof.Machine

/-! ### Request crossings (R541 to R543) -/

/-- The sender may see ACK: the crossing is busy and its action has been accepted. The action of HK_START and of the wake
crossings is one that the model follows; the other crossings' actions are accepted at once. -/
def Hw.ackSeen (h : Hw) (x : Nat) : Bool :=
  let c := h.xing x
  c.busy && (match x with
    | 3 => c.acted || h.adc.hkDue.isEmpty
    | 5 => c.acted
    | 6 => c.acted
    | 7 => c.acted
    | _ => true)

/-- A request of a kind that has no content of its own. -/
def Hw.request (h : Hw) (x : Nat) : Hw := if 5 ≤ x then h.wakeRequest x else h.xingReq x

/-- ACK: a recorder trigger has claimed its slot by then; the next counted request goes out, and a running CORE acts on a
wake at once. -/
def Hw.ack (h : Hw) (x : Nat) : Hw :=
  let h1 := (h.when (decide (x = 0)) Hw.recReceive).xingAck x
  h1.when (decide (5 ≤ x) && (h1.xing x).busy && h1.coreOn) (fun h => h.xingActed x)

/-! ### Queues (R546 to R548) -/

/-- The action on the other side when one side of a queue is reset. Queues: 0 Stitch receive, 1 and 2 ingress FIFO of
port A and B, 3 and 4 forwarding buffer from A to B and from B to A, 5 and 6 stamp queue of port A and B, 7 MSPI, 8 the
event counters of the sideband; side 0 is the write side. A side that is reset only with the die itself answers none. -/
def Hw.resync (h : Hw) (qu side : Nat) : Option Hw :=
  let frame (p : Port) : Hw := h.dropRx p
  let cut (q : Port) : Hw :=
    let y := h.port q
    let started := y.fwd.any (fun e => e.started)
    (h.setPort q { y with fwd := y.fwd.filter (fun e => !e.started) }).when started (fun h => h.sendStriped q [Sys2Proof.Machine.abortBlock])
  let unstamped (p : Port) : Hw :=
    let x := h.port p
    h.setPort p { x with rx := x.rx.map (fun r => if beAt r.sof 0 1 = 0x20 then { r with consumed := false } else r) }
  match qu, side with
  | 0, 0 => some { h with adc := { h.adc with frameLost := true } }
  | 1, 0 => some (frame .a)
  | 2, 0 => some (frame .b)
  | 3, 0 => some (frame .a)
  | 4, 0 => some (frame .b)
  | 3, 1 => some (cut .b)
  | 4, 1 => some (cut .a)
  | 5, 0 => some (unstamped .a)
  | 6, 0 => some (unstamped .b)
  | 7, 0 => some { h with clk := { h.clk with mspi := [] } }
  | 8, 0 => some { h with clk := { h.clk with sideband := [] } }
  | _, _ => none

/-! ### The sideband (R23, R539, R540) -/

/-- A sideband source repeats its 4-bit count; new events wake CORE, which acts on their fault (R28). -/
def Hw.sideband (h : Hw) (src cnt : Nat) : Hw :=
  let last := storeGet (fun _ => 0) h.clk.sideband src
  let h1 := { h with clk := { h.clk with sideband := storeSet (fun _ => 0) h.clk.sideband src (cnt % 16) } }
  h1.when (decide ((cnt % 16 + 16 - last) % 16 ≠ 0)) (fun h => h.wake .core)

/-! ### The sleep controller (R26, R27) -/

/-- The next strobe instant of a group that is armed, once sampling has been released. -/
def Hw.nextStrobe (h : Hw) (g : Nat) : Option Nat :=
  let x := h.grp g
  if h.released && x.armed then
    some (match x.placed with
      | some p => p.instant
      | none => x.atOrAfter (max x.floor h.time.now))
  else none

/-- The next timer expiry of a unit. -/
def Hw.nextTimer (h : Hw) (n : Nat) : Option Nat :=
  let u := h.unitSt n
  if h.armed n && !h.on (TRG_STAT_STOPPED n) && !u.expired && decide (h.timerNs n ≠ 0) then some (u.entered + h.timerNs n * nsUnit)
  else none

/-- A local time in ns, as network time at the rate of the present tick. -/
def Hw.localTime (h : Hw) (ns : Nat) : Nat := h.time.now + (ns - h.ns) * nsUnit

/-- The next scheduled open-wire probe (R75): the visit of the probed terminal that comes first. -/
def Hw.nextProbe (h : Hw) : Option Nat :=
  if h.on HRN_PROBE_CTL_EN && h.running then
    let due (t : Nat) := storeGet (fun _ => 0) h.field.visited t + msNs (h.get HRN_PROBE_CTL_INTERVAL_MS)
    ((((List.range nTerm).filter (fun t => h.on (HRN_TERM_PROBE t))).map due).min?).map h.localTime
  else none

/-- The next calibration step (R509 to R516): at once where a step is in progress or an item's step may start, and
otherwise the next run of the calibration list. -/
def Hw.nextCal (h : Hw) : Option Nat :=
  if h.on SEQ_CAL_RGN_EN && h.running then
    if h.cal.feStep.isSome || h.cal.adcStep.isSome || (h.on CAL_CTL_FE_EN && h.feTrackPick.isSome && !h.safe) ||
      (h.on CAL_CTL_ADC_EN && h.adcTrackPick.isSome) then some h.time.now
    else some (h.localTime (h.cal.lastRun + 100000000))
  else none

/-- The next recorder flush (R571): at once where the NVM lacks a record. -/
def Hw.nextFlush (h : Hw) : Option Nat :=
  if h.hasRegion && h.running && !h.on REC_STATUS_NVM_STOP && h.recd.slots.any (fun p => p.2.any (fun x => !x.flushed)) then
    some h.time.now
  else none

/-- The next persistence of the operating seconds (R574). -/
def Hw.nextOpsec (h : Hw) : Option Nat :=
  if h.hasRegion && h.running then
    some (h.localTime (h.recd.opsecSince + (h.recd.opsecSaved + 900 - h.recd.opsecBase) * 1000000000))
  else none

/-- When an entry of the wake list comes due. -/
def Hw.nextEntryAt (h : Hw) : WakeEntry → Option Nat
  | .strobe g => h.nextStrobe g
  | .burgee n => h.nextTimer n
  | .probe => h.nextProbe
  | .calibration => h.nextCal
  | .recFlush => h.nextFlush
  | .opsec => h.nextOpsec

/-- An entry needs a domain: a strobe, a probe at a strobe and the conversions of a calibration step need all of them, the
others only CORE (R25, R26). -/
def needsDomain : WakeEntry → Domain → Bool
  | .strobe _, _ => true
  | .probe, _ => true
  | .calibration, _ => true
  | _, .core => true
  | _, _ => false

/-- Wake latency in ns (R25). -/
def wakeLatency : Domain → Nat
  | .timing => 1600
  | .core => 1200
  | .conv _ => 400
  | .stitch => 300

/-- How long before an entry a domain that it needs starts: 2.0 us for TIMING and CORE, 0.4 us for CONV and STITCH before a
strobe, and the domain's wake latency before another entry. CONV is divided from TIMING, and follows it (R25, R26). -/
def wakeLead : WakeEntry → Domain → Nat
  | .strobe _, .timing => 2000
  | .strobe _, .core => 2000
  | .strobe _, _ => 400
  | _, d => wakeLatency d

/-- An entry of the wake list comes due, and the domains that it needs start in time. -/
def Hw.wakeStart (h : Hw) (e : WakeEntry) : Hw :=
  match h.nextEntryAt e with
  | some t =>
    h.each ([Domain.timing, .core, .stitch] ++ h.servingCores.map .conv) (fun h d =>
      h.when (needsDomain e d && h.reached (t - wakeLead e d * nsUnit)) (fun h => h.wake d))
  | none => h

/-- Conversions are due. -/
def Hw.convPending (h : Hw) : Bool :=
  h.adc.jobs.any (fun j => !j.done) || h.adc.run.any (fun r => !r.claims.isEmpty) || !h.calClaims.isEmpty

/-- An open-wire probe is under way. -/
def Hw.probing (h : Hw) : Bool := h.field.probe.any (fun p => p.2.any (fun x => decide (x.phase ≠ .due)))

/-- Work for CORE is pending. -/
def Hw.corePending (h : Hw) : Bool :=
  h.convPending || h.probing || !h.clk.mspi.isEmpty || !h.adc.flight.isEmpty || h.adc.run.isSome || h.adc.calRun.isSome ||
  (h.seq.running && !h.seq.frameDone) || h.str.chains.any (fun c => !c.2.ready.isEmpty) || !h.str.backfill.isEmpty ||
  h.trg.units.any (fun u => !u.2.causes.isEmpty || u.2.alloc.isSome) || !h.trg.closing.isEmpty || !h.trg.reading.isEmpty ||
  !h.trg.gaps.isEmpty || h.mem.clr.isSome || h.cin.block.isSome || h.cin.staging.isSome || !h.net.events.isEmpty ||
  !h.net.egress.isEmpty || h.net.portA.fifo.any (fun e => e.trailer.isSome) || h.net.portB.fifo.any (fun e => e.trailer.isSome) ||
  h.epoch.sealedSet.isSome || h.epoch.snapReq.isSome || !h.recd.atCrossing.isEmpty ||
  (List.range 8).any (fun x => (h.xing x).busy) || decide (h.boot.phase ≠ .running ∧ h.boot.phase ≠ .repeater)

def Hw.pendingWork (h : Hw) (d : Domain) : Bool :=
  match d with
  | .conv c => h.convDueOn c || h.probing
  -- converter output, or Stitch control: a sealed set's mirror (R21, R235)
  | .stitch => h.convPending || !h.adc.flight.isEmpty || h.epoch.sealedSet.isSome
  | .timing => (List.range 9).any (fun c => decide ((h.dom (.conv c)).mode ≠ .off)) || h.convPending || h.probing || (List.range 8).any (fun g => (h.grp g).placed.isSome)
  | .core => h.corePending

def sleepEn : Domain → Fld
  | .timing => CLK_SLEEP_CTL_TIMING_EN
  | .core => CLK_SLEEP_CTL_CORE_EN
  | .conv _ => CLK_SLEEP_CTL_CONV_EN
  | .stitch => CLK_SLEEP_CTL_STITCH_EN

/-- The wake list (R26). -/
def wakeEntries : List WakeEntry :=
  (List.range 8).map .strobe ++ (List.range 16).map .burgee ++ [.probe, .calibration, .recFlush, .opsec]

/-- The entries of the wake list that need a domain lie more than its latency and MIN_US ahead. -/
def Hw.farAhead (h : Hw) (d : Domain) : Bool :=
  let edge := h.time.now + (wakeLatency d + 1000 * max 2 (h.get CLK_SLEEP_MIN_MIN_US)) * nsUnit
  wakeEntries.all (fun e => !needsDomain e d || (h.nextEntryAt e).all (fun t => decide (edge < t)))

/-- A domain begins to enter sleep (R27). -/
def Hw.sleep (h : Hw) (d : Domain) : Hw :=
  let x := h.dom d
  if x.mode = .on ∧ h.on (sleepEn d) = true ∧ h.pendingWork d = false ∧ h.farAhead d = true then
    h.setDom d { mode := .entering, again := false, since := h.ns }
  else h

/-! ### The commands -/

def isXing (x : Nat) : Bool := decide (x < 8)

def execXingRequest (x : Nat) (s : State) : Out := actOn s (isXing x) (fun h => h.request x)

def execXingAck (x : Nat) (s : State) : Out := actOn s (isXing x) (fun h => h.when (h.ackSeen x) (fun h => h.ack x))

def execQueueResync (qu side : Nat) (s : State) : Out :=
  actOn s (decide (qu < 9 ∧ side < 2)) (fun h =>
    match h.resync qu side with
    | some h1 => h1.bump CLK_RESYNC_RESYNCS 1
    | none => h)

def execSidebandEvent (src cnt : Nat) (s : State) : Out := actOn s true (fun h => h.sideband src cnt)

def execDomainWakeStart (e : WakeEntry) (s : State) : Out :=
  actOn s (match e with
    | .strobe g => isGroup g
    | .burgee n => isTrig n
    | _ => true) (fun h => h.wakeStart e)

def execDomainSleep (d : Domain) (s : State) : Out := actOn s (isDomain d) (fun h => h.sleep d)

end Sys2Proof.Machine
end

