-- ==== Sys2Proof/Machine/Startup.lean ====
section
/-!
DEFINITION. Starts (R591 to R593, R631, R654), the OTP read (R618, R619, R642), the loader's SFDP read with the command
counter (R596, R625), and repeater mode (R606).
-/
namespace Sys2Proof.Machine

/-! ### Starts (R591) -/

/-- RST_SRC of a start. -/
abbrev startPowerOn : Nat := 0
abbrev startResetN : Nat := 1
abbrev startCommand : Nat := 2

/-- The registers that survive every start except power-on: Bunting with its LOST count, and bad-slot marks. -/
def survivingRegs : List Nat := REC_BUNT_STAT :: (List.range 8).flatMap (fun i => [REC_SLOT_BAD i, REC_BUNT_LO i, REC_BUNT_HI i])

/-- The recorder after a start that keeps recorder RAM: whole records stay in their slots. -/
def keptRecorder (r : RecSt) : RecSt := { rec0 with ram := r.ram, pageEpoch := r.pageEpoch, slots := r.slots.filter (fun p => p.2.any RecSlot.whole) }

/-- Every block of both dies in reset, with FAULT_N low until AON reset ends (R561, R649); the NVM stays, and with `keep`
what survives a start does. -/
def Hw.allReset (h : Hw) (keep : Bool) (phase : Phase) : Hw :=
  let h1 : Hw := { hw0 with
    boot := { boot0 with nvm := h.boot.nvm, phase := phase }
    flt := { flt0 with faultNBoot := true }
    recd := if keep then keptRecorder h.recd else rec0
    draws := h.draws }
  if keep then h1.each survivingRegs (fun k a => k.setReg a (h.reg a)) else h1

/-- A start begins: AON reset. -/
def Hw.startAs (h : Hw) (src : Nat) : Hw := (h.allReset (decide (src ≠ startPowerOn)) .aonReset).put SYS_BOOT_RST_SRC src

/-- A start of the machine; a snapshot held is lost, and the last access's answer with it. -/
def State.startAs (s : State) (src : Nat) : State :=
  { s with hw := s.hw.startAs src, frozen := none, rdata := [], status := 0 }

/-- VAON falls below 0.65 V: everything is lost but what NVM and OTP hold (R654). -/
def State.powerLoss (s : State) : State :=
  { s with hw := s.hw.allReset false .off, frozen := none, rdata := [], status := 0 }

/-- RESET_N has been low for a time: from 1 us it begins a start, below 200 ns it is ignored, and between the two the
spec leaves open which (R667). During AON reset it makes no start of its own. -/
def State.resetPulse (s : State) (ns : Nat) : State :=
  if ns < 200 ∨ s.hw.live = false then s
  else if 1000 ≤ ns then s.startAs startResetN
  else
    let t : State := { s with hw := s.hw.draw }
    if Config.freeBool s.hw.draws then t.startAs startResetN else t

/-- AON reset ends: t = 0. POS is sampled and the OTP read begins (R591, R592). -/
def Hw.resetEnd (h : Hw) (pos : Nat) : Hw :=
  if h.boot.phase = .aonReset then
    ({ h with boot := { h.boot with phase := .otp }, flt := { h.flt with faultNBoot := false } } : Hw).put SYS_BOOT_POS pos
  else h

/-! ### OTP (R618, R619, R621, R642) -/

/-- A state bit by the majority of its three copies. -/
def stateBit (copies : List Nat) (i : Nat) : Bool := decide (2 ≤ (copies.filter (fun c => natBit c i)).length)

/-- The life-cycle state that OTP holds: the highest whose bit reads 1, BLANK where none does. -/
def otpState (copies : List Nat) : Nat := (List.range 4).foldl (fun s i => if stateBit copies i then i + 1 else s) 0

/-- Life-cycle states. -/
abbrev lcsBlank : Nat := 0
abbrev lcsDevelop : Nat := 1
abbrev lcsField : Nat := 2
abbrev lcsReturn : Nat := 3
abbrev lcsScrap : Nat := 4

/-- The state in effect, and the debug paths that it opens. -/
def Hw.takeState (h : Hw) (st : Nat) : Hw :=
  ((h.put LCS_STATE_STATE st).put LCS_STATE_DBG_BSCAN (b2n (decide (st ≠ lcsField)))).put LCS_STATE_DBG_REG
    (b2n (decide (st ≠ lcsField ∧ st ≠ lcsScrap)))

/-- The OTP read is complete: state, keys, trims, delays and the safe row are loaded; CORE, TIMING and the SerDes start,
the ports begin in DOWN, and the filter stores are verified, of which `bad` read wrong twice (R208). -/
def Hw.otpDone (h : Hw) (otp : LcsSt) (bad : List Nat) : Hw :=
  if h.boot.phase = .otp && !h.boot.refclkLost then
    let h1 := ({ h with lcs := otp } : Hw).each otp.otpRegs (fun k p => k.setReg p.1 p.2)
    let h2 := (h1.takeState (otpState h1.lcs.copies)).showKeys
    let h3 : Hw := { h2 with boot := { h2.boot with phase := .sfdp } }
    let h4 := h3.each [Domain.timing, .core] (fun k d => k.setDom d { mode := .on, again := false, since := k.ns })
    (h4.each [Port.a, .b] (fun k p => k.setPort p { k.port p with stateSince := k.ns })).romVerify romStores bad
  else h

/-! ### SFDP and the command counter (R596, R615, R624, R625) -/

/-- The loader accepts the device. -/
def sfdpAccepted (p : SfdpParams) : Bool :=
  p.ok && decide (25 ≤ p.densityLog2 ∧ p.densityLog2 ≤ 28 ∧ p.erase4k ≠ 0)

/-- First byte of the command-counter area: the last 8 KiB of the NVM. -/
def Hw.ctrBase (h : Hw) : Nat := h.nvmSize - 8192

/-- GEN of an entry. -/
def ctrGen (l : List Byte) : Nat := leAt l 8 4

/-- The current entry and its place. -/
def Hw.ctrCurrent (h : Hw) : Option (Nat × List Byte) := highest ctrGen (h.areaEntries h.ctrBase)

/-- LCS_CTR at a start: the current entry's COUNTER, or the floor. -/
def Hw.readCounter (h : Hw) : Hw :=
  match (if h.on CFG_NVM_SFDP_OK then h.ctrCurrent else none) with
  | some e => (h.put64 LCS_CTR_LO_CTR_LO LCS_CTR_HI_CTR_HI (leAt e.2 0 8)).put LCS_STATUS_CTR_VALID 1
  | none =>
    let floor := if h.get LCS_STATE_STATE = lcsBlank then 0 else 2 ^ 63 - 1
    (h.put64 LCS_CTR_LO_CTR_LO LCS_CTR_HI_CTR_HI floor).put LCS_STATUS_FLOOR 1

/-- CFG_NVM shows an accepted device. -/
def Hw.showNvm (h : Hw) (p : SfdpParams) : Hw :=
  (((((h.put CFG_NVM_SFDP_OK 1).put CFG_NVM_ADDR4 (b2n p.addr4)).put CFG_NVM_MAX_WIDTH (min 2 p.maxWidth)).put
    CFG_NVM_DENSITY_LOG2 p.densityLog2).put CFG_NVM_PAGE_LOG2 p.pageLog2).put CFG_NVM_ERASE4K p.erase4k

/-- The loader reads SFDP: with a device it reads the command counter and goes on to the headers, except in SCRAP, where
no image is read; without one both slots fail with 0x1. -/
def Hw.sfdpRead (h : Hw) (p : SfdpParams) : Hw :=
  if h.boot.phase = .sfdp then
    let next (h : Hw) (x : Phase) : Hw := { h with boot := { h.boot with phase := x } }
    if sfdpAccepted p then
      let h1 := (h.showNvm p).readCounter
      next h1 (if h1.get LCS_STATE_STATE = lcsScrap then .load [] else .headers)
    else next ((h.readCounter.put (CFG_IMG_FAIL 0) 1).put (CFG_IMG_FAIL 1) 1) (.load [])
  else h

/-! ### Repeater mode (R606) -/

/-- Neither slot has loaded. -/
def Hw.repeater (h : Hw) : Hw :=
  if h.boot.phase = .load [] then
    let h1 := (({ h with boot := { h.boot with phase := .repeater } } : Hw).put SYS_BOOT_MODE 2).put SYS_BOOT_IMAGE 3
    let failed (i : Nat) : Bool := decide (h1.get (CFG_IMG_FAIL i) ≠ 0 ∧ h1.get (CFG_IMG_FAIL i) ≠ 0xB)
    h1.when (failed 0 || failed 1) (fun h => h.raise srcImageFallback 2)
  else h

/-! ### Ordered restarts and erasures (R631) -/

/-- The restart that a critical command ordered has fallen due. -/
def Hw.restartDue (h : Hw) : Bool := h.boot.restartAt.any h.due

/-- First byte and length of what an erasure takes of the recorder region: all of it, or its ring sectors. -/
def Hw.regionRange (h : Hw) (whole : Bool) : Nat × Nat :=
  if h.hasRegion then
    if whole then (h.regionBase, h.regionSize) else (h.regionBase + 8192, h.regionSize - 8192)
  else (0, 0)

/-- Recorder RAM is cleared: every slot is free. -/
def Hw.clearRecorder (h : Hw) : Hw := { h with recd := { h.recd with ram := [], slots := [] } }

/-- What ZEROIZE and FACTORY_RESET erase: both image slots, the recorder region, recorder RAM, Bunting and bad-slot
marks. -/
def Hw.eraseAll (h : Hw) (whole : Bool) : Hw :=
  let r := h.regionRange whole
  let h1 := ((h.nvmEraseRange 0 (2 * slotBytes)).nvmEraseRange r.1 r.2).clearRecorder
  let h2 := h1.each (List.range 8) (fun h i => (h.put (REC_BUNT_LO_LO i) 0).put (REC_BUNT_HI_HI i) 0)
  h2.each (List.range 8) (fun h i => h.put (REC_SLOT_BAD_BAD i) 0)

/-- The erasure under way completes, and the hub restarts. -/
def State.erased (s : State) : State :=
  match s.hw.boot.erasure with
  | some whole => ({ s with hw := s.hw.eraseAll whole } : State).startAs startCommand
  | none => s

/-! ### The commands -/

def execPowerOn (s : State) : Out := .next (s.startAs startPowerOn)

def execResetN (lowNs : Nat) (s : State) : Out := .next (s.resetPulse lowNs)

def execAonResetBegin (s : State) : Out := .next s.powerLoss

def execAonResetEnd (pos : Nat) (s : State) : Out := act s (fun h => h.resetEnd pos)

def execOtpReadDone (bad : List Nat) (s : State) : Out := act s (fun h => h.otpDone s.otp bad)

def execLoaderSfdp (params : SfdpParams) (s : State) : Out := actOn s true (fun h => h.sfdpRead params)

def execRepeaterMode (s : State) : Out := actOn s true Hw.repeater

def execCommandRestart (s : State) : Out := .next (if s.hw.live && s.hw.restartDue then s.startAs startCommand else s)

def execErasureComplete (s : State) : Out := .next (if s.hw.live then s.erased else s)

end Sys2Proof.Machine
end

