-- ==== Sys2Proof/Machine/Transactions.lean ====
section
/-!
DEFINITION. Commands taken from the ingress FIFOs (R434, R435, R468 to R470) and the register transactions REG_READ,
REG_WRITE, SNAP_READ and CAP_DISC (R437, R438, R440).
-/
namespace Sys2Proof.Machine

/-! ### Taking a command -/

/-- The entry that comes first by a key. -/
def firstBy (key : CmdEntry → Nat) (l : List (Port × CmdEntry)) : Option (Port × CmdEntry) :=
  l.foldl (fun m e =>
    match m with
    | some x => if key e.2 < key x.2 then some e else m
    | none => some e) none

/-- The entry that the hub takes next: entries held at a change of ACTIVE, in the order of their trailers; then, on
EITHER, the complete entry whose trailer came first, and on one port the first of its arrival order, once it is
complete. -/
def Hw.nextCommand (h : Hw) : Option (Port × CmdEntry) :=
  let l := h.net.portA.fifo.map (fun e => (Port.a, e)) ++ h.net.portB.fifo.map (fun e => (Port.b, e))
  let trailer (e : CmdEntry) : Nat := e.trailer.getD 0
  match firstBy trailer (l.filter (fun e => e.2.held && e.2.trailer.isSome)) with
  | some e => some e
  | none =>
    if h.activePort = 2 then firstBy trailer (l.filter (fun e => e.2.trailer.isSome))
    else
      let mine := l.filter (fun e => decide (portNo e.1 = h.activePort) || e.2.promoted)
      (firstBy CmdEntry.order mine).filter (fun e => e.2.trailer.isSome)

/-- The entry leaves its FIFO. -/
def Hw.removeCommand (h : Hw) (p : Port) (e : CmdEntry) : Hw :=
  h.setPort p { h.port p with fifo := (h.port p).fifo.filter (fun x => decide (x.order ≠ e.order)) }

/-- Take the next command if it is of the kind that `is` names and class 1 has room for its answer; a duplicate is
discarded without being performed (R429). -/
def State.takeCommand (s : State) (is : Frame → Bool) (f : State → Port → CmdEntry → State) : State :=
  if (s.hw.live && s.hw.coreOn && s.hw.classRoom 1) = false then s
  else
    match s.hw.nextCommand with
    | some (p, e) =>
      if is e.frame then
        let a := (s.hw.removeCommand p e).dupAccept p e.frame
        if a.2 then f { s with hw := a.1 } p e else { s with hw := a.1 }
      else s
    | none => s

/-! ### Answers (R428, R435) -/

/-- The response to a command: TYPE with RSP, class 1, to its source; from a hub without an ID only on the arrival port. -/
def Hw.respond (h : Hw) (p : Port) (e : CmdEntry) (payload : List Byte) : Hw :=
  let f := h.ownFrame e.frame.ty 1 e.frame.src true (h.get SYS_EPOCH_EPOCH) payload
  (h.enqueueOn f false (if f.src = 0 then some p else none)).1

def State.respond (s : State) (p : Port) (e : CmdEntry) (payload : List Byte) : State := { s with hw := s.hw.respond p e payload }

/-- The STATUS with which a command is turned away before the first commit and in repeater mode (R435); `served` holds of
the two kinds that are always answered. -/
def Hw.turnAway (h : Hw) (served auth : Bool) : Option Nat :=
  if h.running || served then none
  else if h.get SYS_BOOT_MODE = 2 then (if auth then none else some stNoImage)
  else some stBusy

/-- A status byte. -/
def byte (n : Nat) : Byte := BitVec.ofNat 8 n

/-- A payload of at least `n` bytes. -/
def padded (l : List Byte) (n : Nat) : List Byte := l ++ zeros (n - l.length)

/-! ### REG_READ and REG_WRITE (R437) -/

/-- The head of a response, with STATUS and the words completed. -/
def regHead (req : List Byte) (st n : Nat) : List Byte :=
  let r := padded req 12
  r.take 2 ++ [byte st, 0] ++ beBytes 2 n ++ [0, 0] ++ slice r 8 4

def regCount (r : List Byte) : Nat := beAt r 4 2
def regAddr (r : List Byte) : Nat := beAt r 8 4

/-- STATUS of a request's form: 0 well formed; `words` is what follows the head. -/
def regForm (r : List Byte) (write : Bool) : Nat :=
  let n := regCount r
  if r.length < 12 ∨ n = 0 ∨ 1021 < n ∨ beAt r 2 2 ≠ 0 ∨ beAt r 6 2 ≠ 0 ∨ r.length ≠ 12 + (if write then 4 * n else 0) then
    stMalformed
  else if regAddr r % 4 ≠ 0 ∨ 2 ^ 32 < regAddr r + 4 * n then stAccess
  else stOk

/-- Every word of a REG_READ lies in the SYS block. -/
def lowRead (r : List Byte) : Bool := decide (12 ≤ r.length ∧ regAddr r + 4 * max 1 (regCount r) ≤ 0x10000)

def State.regRead (s : State) (p : Port) (e : CmdEntry) : State :=
  let r := e.frame.payload
  match s.hw.turnAway (lowRead r) false with
  | some st => s.respond p e (regHead r st 0)
  | none =>
    let st := regForm r false
    if st ≠ stOk then s.respond p e (regHead r st 0)
    else
      let n := regCount r
      let w := Hw.readWords s.frozen (reqOfPort p) n (regAddr r) s.hw
      ({ s with hw := w.1, rdata := w.2, status := stOk } : State).respond p e
        (regHead r stOk n ++ w.2.flatMap (fun x => beBytes 4 x.toNat))

def State.regWrite (s : State) (p : Port) (e : CmdEntry) : State :=
  let r := e.frame.payload
  match s.hw.turnAway false false with
  | some st => s.respond p e (regHead r st 0)
  | none =>
    let st := regForm r true
    if st ≠ stOk then s.respond p e (regHead r st 0)
    else
      let ws := (List.range (regCount r)).map (fun i => BitVec.ofNat 32 (beAt r (12 + 4 * i) 4))
      let w := s.writeWords (reqOfPort p) e.frame.src (regAddr r) ws 0
      ({ w.1 with rdata := [], status := w.2.1 } : State).respond p e (regHead r w.2.1 w.2.2)

/-! ### SNAP_READ (R438) -/

/-- The ranges of a request, as addresses and counts. -/
def snapRanges (r : List Byte) : List (Nat × Nat) :=
  (List.range (beAt r 3 1)).map (fun i => (beAt r (8 + 8 * i) 4, beAt r (12 + 8 * i) 2))

def snapForm (r : List Byte) : Nat :=
  let n := beAt r 3 1
  let l := snapRanges r
  if r.length < 8 ∨ n = 0 ∨ 16 < n ∨ r.length ≠ 8 + 8 * n ∨ beAt r 2 1 ≠ 0 ∨ beAt r 4 4 ≠ 0 ∨
      l.any (fun q => decide (2047 < q.2)) ∨ (List.range n).any (fun i => decide (beAt r (14 + 8 * i) 2 ≠ 0)) ∨
      1022 - 2 * n < (l.map (·.2)).foldl (· + ·) 0 then stMalformed
  else if l.any (fun q => decide (q.1 % 4 ≠ 0 ∨ 2 ^ 32 < q.1 + 4 * q.2)) then stAccess
  else stOk

/-- The head and the descriptors of a response. -/
def snapHead (req : List Byte) (st epoch : Nat) : List Byte :=
  let r := padded req 8
  r.take 2 ++ [byte st] ++ slice r 3 1 ++ beBytes 4 epoch ++ r.drop 8

/-- Read ranges one after another. -/
def Hw.readRanges (frozen : Option Hw) (q : Requester) : List (Nat × Nat) → Hw → Hw × List Word
  | [], h => (h, [])
  | (a, n) :: l, h =>
    let r := Hw.readWords frozen q n a h
    let t := Hw.readRanges frozen q l r.1
    (t.1, r.2 ++ t.2)

/-- Answer from the snapshot that the port holds. -/
def State.snapAnswer (s : State) (p : Port) (e : CmdEntry) : State :=
  let r := e.frame.payload
  let w := Hw.readRanges s.frozen (reqOfPort p) (snapRanges r) s.hw
  let ep := (s.frozen.getD s.hw).get SYS_EPOCH_EPOCH
  ({ s with hw := w.1, rdata := w.2, status := stOk } : State).respond p e
    (snapHead r stOk ep ++ w.2.flatMap (fun x => beBytes 4 x.toNat))

/-- What a SNAP_READ at the front of the FIFOs does: it is answered at once where it is turned away, malformed, refused or
the port holds the snapshot; else the hub takes a snapshot for the port, and the command stays where it is until that
has been taken. -/
def State.snapRead (s : State) : State :=
  let is (f : Frame) : Bool := decide (f.ty = 0x03)
  match s.hw.nextCommand with
  | some (p, e) =>
    let q := reqOfPort p
    let r := e.frame.payload
    let quick := (s.hw.turnAway false false).isSome || decide (snapForm r ≠ stOk) || s.hw.snapTaken q
    let early (s : State) (p : Port) (e : CmdEntry) : State :=
      match s.hw.turnAway false false with
      | some st => s.respond p e (snapHead r st 0)
      | none => s.respond p e (snapHead r (if snapForm r ≠ stOk then snapForm r else stSnapHeld) 0)
    let answer (s : State) : State :=
      s.takeCommand is (fun s p e =>
        let t := s.snapAnswer p e
        if s.hw.epoch.snapAuto then t.snapRelease else t)
    if is e.frame = false then s
    else if quick then s.takeCommand is early
    else if s.hw.snapOwned q then answer s
    else if s.hw.live && s.hw.coreOn then
      -- the hub asks for a snapshot of its own for the port, if none is asked for, and takes it if it is due
      let s1 : State := if s.hw.epoch.snapReq.isSome then s
        else
          let h := s.hw.snapAsk q
          { s with hw := { h with epoch := { h.epoch with snapAuto := true } } }
      let s2 := s1.snapTake
      if s2.hw.snapOwned q then answer s2 else s2
    else s
  | none => s

/-! ### CAP_DISC (R440) -/

def State.capDisc (s : State) (p : Port) (e : CmdEntry) : State :=
  let r := padded e.frame.payload 8
  let start := beAt r 4 4
  let head (st : Nat) : List Byte := r.take 2 ++ [byte st, byte (portNo p)] ++ slice r 4 4
  if e.frame.payload.length ≠ 8 ∨ beAt r 2 2 ≠ 0 then s.respond p e (head stMalformed)
  else
    let n := min 1019 (18 - start)
    let more := decide (1019 < 18 - start)
    let words := (s.hw.liveReg SYS_ID) :: (s.frozen.getD s.hw).liveReg SYS_EPOCH ::
      (List.range n).map (fun i => s.hw.liveReg (0x100 + 4 * (start + i)))
    s.respond p e (head stOk ++ [byte e.hopsArr, byte (128 * b2n more)] ++ beBytes 2 n ++ words.flatMap (fun x => beBytes 4 x.toNat))

/-! ### The commands -/

def execRegRead (s : State) : Out := .next (s.takeCommand (fun f => decide (f.ty = 0x01)) State.regRead)

def execRegWrite (s : State) : Out := .next (s.takeCommand (fun f => decide (f.ty = 0x02)) State.regWrite)

def execSnapRead (s : State) : Out := .next s.snapRead

def execCapDisc (s : State) : Out := .next (s.takeCommand (fun f => decide (f.ty = 0x31)) State.capDisc)

end Sys2Proof.Machine
end

