-- ==== Sys2Proof/Machine/Lifecycle.lean ====
section
/-!
DEFINITION. Critical commands (chapter 20): the checks of an AUTH_CMD, its signed answer, and what each of the nine
commands does.
-/
namespace Sys2Proof.Machine

/-! ### The frame (R439) -/

def authCmd (r : List Byte) : Nat := beAt r 3 1
def authArgs (r : List Byte) : List Byte := slice r 16 (beAt r 4 2)
def authCounter (r : List Byte) : Nat := beAt r 8 8

/-- The tag of a payload without its tag, under a key: over SRC and DST as sent, and the payload; 16 zero bytes where
there is no key (R622). -/
def authTag (key : Option Nat) (src dst : Nat) (body : List Byte) : List Byte :=
  match key with
  | some k => cmac k (beBytes 2 src ++ beBytes 2 dst ++ body)
  | none => zeros 16

/-- The command's tag matches. -/
def authOk (key : Option Nat) (f : Frame) : Bool :=
  let n := 16 + beAt f.payload 4 2
  key.isSome && decide (authTag key f.src f.dst (f.payload.take n) = slice f.payload n 16)

/-- The signed answer. -/
def State.authAnswer (s : State) (key : Option Nat) (p : Port) (e : CmdEntry) (status : Nat) (args : List Byte) : State :=
  let r := padded e.frame.payload 16
  let body := r.take 2 ++ [byte status] ++ slice r 3 1 ++ beBytes 2 args.length ++ [0, 0] ++ slice r 8 8 ++ args
  s.respond p e (body ++ authTag key (s.hw.get SYS_HUB_ID_ID) e.frame.src body)

/-! ### Form (R626 step 1, R629) -/

abbrev cmdLifecycle : Nat := 1
abbrev cmdKeyRotate : Nat := 2
abbrev cmdImageWrite : Nat := 3
abbrev cmdRecorderErase : Nat := 4
abbrev cmdForcePort : Nat := 5
abbrev cmdResume : Nat := 6
abbrev cmdZeroize : Nat := 7
abbrev cmdDebugUnlock : Nat := 8
abbrev cmdFactoryReset : Nat := 9

/-- The arguments have the length and the values that the command allows. -/
def argsOk (cmd : Nat) (a : List Byte) : Bool :=
  let n := a.length
  match cmd with
  | 1 => decide (n = 8 ∧ beAt a 0 1 ≤ 4 ∧ beAt a 1 7 = 0)
  | 2 => decide (n = 48 ∧ beAt a 0 1 ≤ 1 ∧ beAt a 1 7 = 0)
  | 3 =>
    let ofs := beAt a 4 4
    decide (8 ≤ n ∧ beAt a 0 1 ≤ 1 ∧ beAt a 2 2 = 0) &&
      (match beAt a 1 1 with
        | 0 => decide (n = 8 ∧ ofs < slotBytes)
        | 1 => decide (12 ≤ n ∧ n ≤ 4064 ∧ ofs % 4 = 0 ∧ ofs + (n - 8) ≤ slotBytes)
        | 2 => decide (n = 8)
        | _ => false)
  | 5 => decide (n = 4 ∧ beAt a 0 1 ≤ 2 ∧ beAt a 1 3 = 0)
  | 8 => decide (n = 4 ∧ beAt a 0 1 ≤ 3 ∧ beAt a 1 3 = 0)
  | 4 => decide (n = 0)
  | 6 => decide (n = 0)
  | 7 => decide (n = 0)
  | 9 => decide (n = 0)
  | _ => false

/-- Step 1. -/
def authForm (r : List Byte) : Bool :=
  decide (r.length = 32 + beAt r 4 2 ∧ beAt r 2 1 = 0 ∧ beAt r 6 2 = 0) && argsOk (authCmd r) (authArgs r)

/-! ### The counter entry (R624, R626 step 4, R627) -/

/-- Append the new counter and read it back; without an accepted NVM it fails. -/
def Hw.takeCounter (h : Hw) (counter : Nat) (ok : Bool) : Hw × Bool :=
  if h.on CFG_NVM_SFDP_OK then
    let c := h.ctrCurrent
    let gen := (c.map (fun e => ctrGen e.2)).getD 0 + 1
    let r := h.areaAppend h.ctrBase (c.map (·.1)) (areaEntry (leBytes 8 counter ++ leBytes 4 gen)) ok
    if r.2.2 then (r.1.put64 LCS_CTR_LO_CTR_LO LCS_CTR_HI_CTR_HI counter, true)
    else (r.1.raise srcNvmWriteFail ((h.ctrBase / 4096 + r.2.1 / 256) % 65536), false)
  else (h, false)

/-! ### OTP operations -/

/-- What an OTP operation leaves: the array, and the free values that it has drawn. A failed operation programs each of
its bits or not, freely; no operation clears a bit. -/
structure OtpDone where
  otp : LcsSt
  draws : Nat

/-- Every slot of both keys is revoked. -/
def LcsSt.revokeAll (o : LcsSt) (ok : Bool) (d : Nat) : OtpDone :=
  let f (n : Nat) (l : List KeySlot) : List KeySlot :=
    (List.range 4).map (fun i =>
      let k := l.getD i keySlot0
      { k with revoked := k.revoked || ok || Config.freeBool (d + n + i) })
  { otp := { o with cmdKeys := f 0 o.cmdKeys, imgKeys := f 4 o.imgKeys }, draws := if ok then d else d + 8 }

/-- Set bit `i` of a number. -/
def setBit (n i : Nat) : Nat := if natBit n i then n else n + 2 ^ i

/-- Program the three copies of a state bit (R618, R630). -/
def LcsSt.programState (o : LcsSt) (i : Nat) (ok : Bool) (d : Nat) : OtpDone :=
  let c (k : Nat) : Nat :=
    let x := o.copies.getD k 0
    if ok || Config.freeBool (d + k) then setBit x i else x
  { otp := { o with copies := [c 0, c 1, c 2] }, draws := if ok then d else d + 3 }

/-- The slots of a key: 0 K_CMD, 1 K_IMG. -/
def LcsSt.slots (o : LcsSt) (which : Nat) : List KeySlot := if which = 0 then o.cmdKeys else o.imgKeys

def LcsSt.withSlots (o : LcsSt) (which : Nat) (l : List KeySlot) : LcsSt :=
  if which = 0 then { o with cmdKeys := l } else { o with imgKeys := l }

/-- Program unwritten slot `i` of a key, and then revoke the slot that was in effect (R623). -/
def LcsSt.programKey (o : LcsSt) (which i key : Nat) (ok : Bool) (d : Nat) : OtpDone :=
  let l := o.slots which
  let old := l.getD i keySlot0
  if ok then
    let l1 := l.set i { old with key := key, written := true }
    let l2 := match keySlot l with
      | some j => l1.set j { l1.getD j keySlot0 with revoked := true }
      | none => l1
    { otp := o.withSlots which l2, draws := d }
  else
    let free := (List.range 8).foldl (fun n j => n * 2 ^ 32 + (Config.freeWord (d + j)).toNat) 0
    { otp := o.withSlots which (l.set i { old with key := free, written := Config.freeBool (d + 8) }), draws := d + 9 }

/-- The hub goes by what an OTP operation has left. -/
def Hw.reread (h : Hw) (x : OtpDone) : Hw := ({ h with lcs := x.otp, draws := x.draws } : Hw).showKeys

/-! ### What the commands do (R629) -/

/-- What a performed command leaves: the hub, the OTP array, RESULT, the result field, and whether a restart was
ordered. -/
structure Performed where
  hw : Hw
  otp : LcsSt
  result : Nat
  field : List Byte
  restart : Bool

abbrev resultDone : Nat := 0
abbrev resultRefused : Nat := 1
abbrev resultFailed : Nat := 2

/-- The transitions that LIFECYCLE allows (R630). -/
def mayTransit (from_ dest : Nat) : Bool :=
  match from_ with
  | 0 => decide (dest = lcsDevelop ∨ dest = lcsScrap)
  | 1 => decide (dest = lcsField ∨ dest = lcsScrap)
  | 2 => decide (dest = lcsReturn ∨ dest = lcsScrap)
  | 3 => decide (dest = lcsScrap)
  | _ => false

/-- LIFECYCLE: the target's state bit is programmed; entry into SCRAP revokes every key. -/
def Hw.lifecycleTo (h : Hw) (o : LcsSt) (a : List Byte) (ok : Bool) : Performed :=
  let dest := beAt a 0 1
  let field (o : LcsSt) : List Byte := [byte (otpState o.copies), 0, 0, 0]
  if h.get LCS_STATE_STATE = lcsBlank ∧ dest = lcsDevelop ∧ ((keySlot o.cmdKeys).isNone || (keySlot o.imgKeys).isNone) = true then
    { hw := h, otp := o, result := resultRefused, field := field o, restart := false }
  else
    let x := o.programState (dest - 1) ok h.draws
    if ok then
      let y := if dest = lcsScrap then x.otp.revokeAll true x.draws else x
      { hw := h.reread y, otp := y.otp, result := resultDone, field := field y.otp, restart := true }
    else { hw := h.reread x, otp := x.otp, result := resultFailed, field := field x.otp, restart := false }

/-- KEY_ROTATE (R623): refused where no slot is unwritten or the wrapped key fails its integrity check. -/
def Hw.rotateKey (h : Hw) (o : LcsSt) (a : List Byte) (ok : Bool) : Performed :=
  let which := beAt a 0 1
  let field (o : LcsSt) : List Byte := [byte which, byte ((keySlot (o.slots which)).getD 0), 0, 0]
  match (List.range 4).find? (fun i => !((o.slots which).getD i keySlot0).written), (h.keyOf o.cmdKeys).bind (fun k => unwrapKey k (slice a 8 40)) with
  | some i, some k =>
    let x := o.programKey which i k ok h.draws
    { hw := h.reread x, otp := x.otp, result := if ok then resultDone else resultFailed, field := field x.otp, restart := false }
  | _, _ => { hw := h, otp := o, result := resultRefused, field := field o, restart := false }

/-- IMAGE_WRITE: erase a sector, program, or restart. -/
def Hw.writeImage (h : Hw) (o : LcsSt) (a : List Byte) (ok : Bool) : Performed :=
  let at_ := slotBytes * beAt a 0 1 + beAt a 4 4
  let data := a.drop 8
  let end_ (r : Hw × Bool) (n : Nat) : Performed :=
    if r.2 then { hw := r.1, otp := o, result := resultDone, field := beBytes 4 n, restart := false }
    else
      { hw := r.1.raise srcNvmWriteFail (at_ / 4096 % 65536), otp := o, result := resultFailed, field := beBytes 4 0,
        restart := false }
  match beAt a 1 1 with
  | 0 => end_ (h.nvmErase at_ ok) 4096
  | 1 => end_ (h.nvmProgram at_ data ok) data.length
  | _ => { hw := h, otp := o, result := resultDone, field := beBytes 4 0, restart := true }

/-- RECORDER_ERASE: the ring sectors are erased and every slot is free. -/
def Hw.eraseRecords (h : Hw) (o : LcsSt) (ok : Bool) : Performed :=
  let r := h.regionRange false
  if ok || decide (r.2 = 0) then
    { hw := ({ h with recd := { h.recd with slots := [] } } : Hw).nvmEraseRange r.1 r.2, otp := o, result := resultDone,
      field := zeros 4, restart := false }
  else
    { hw := (h.nvmErase r.1 false).1.raise srcNvmWriteFail (r.1 / 4096 % 65536), otp := o, result := resultFailed,
      field := zeros 4, restart := false }

/-- FORCE_PORT (R476, R477). -/
def Hw.forceTo (h : Hw) (o : LcsSt) (a : List Byte) : Performed :=
  { hw := h.setForcePort (beAt a 0 1), otp := o, result := resultDone, field := zeros 4, restart := false }

/-- RESUME: refused where R559 refuses. -/
def Hw.authResume (h : Hw) (o : LcsSt) : Performed :=
  let r := h.resumeSafe
  { hw := r.1, otp := o, result := if h.safe && !r.2 then resultRefused else resultDone, field := zeros 4, restart := false }

/-- The erasure of ZEROIZE and FACTORY_RESET starts. -/
def Hw.startErasure (h : Hw) (o : LcsSt) (whole : Bool) : Performed :=
  { hw := { h with boot := { h.boot with erasure := some whole } }, otp := o, result := resultDone, field := zeros 4,
    restart := false }

/-- ZEROIZE: every key slot is revoked, and the erasure starts. -/
def Hw.zeroizeNow (h : Hw) (o : LcsSt) (ok : Bool) : Performed :=
  let x := o.revokeAll ok h.draws
  if ok then (h.reread x).startErasure x.otp true
  else { hw := h.reread x, otp := x.otp, result := resultFailed, field := zeros 4, restart := false }

/-- FACTORY_RESET: the erasure starts; where its first sector fails to erase, nothing more is done. -/
def Hw.factoryNow (h : Hw) (o : LcsSt) (ok : Bool) : Performed :=
  if ok then h.startErasure o false
  else
    { hw := (h.nvmErase 0 false).1.raise srcNvmWriteFail 0, otp := o, result := resultFailed, field := zeros 4, restart := false }

/-- DEBUG_UNLOCK opens the named paths. -/
def Hw.unlockPaths (h : Hw) (o : LcsSt) (a : List Byte) : Performed :=
  let n := beAt a 0 1
  let h1 := (h.when (natBit n 0) (fun h => h.put LCS_STATE_DBG_BSCAN 1)).when (natBit n 1) (fun h => h.put LCS_STATE_DBG_REG 1)
  { hw := h1, otp := o, result := resultDone, field := [byte (h1.get LCS_STATE_DBG_BSCAN + 2 * h1.get LCS_STATE_DBG_REG), 0, 0, 0],
    restart := false }

/-- The state allows the command (R619, R629, R630). -/
def Hw.allows (h : Hw) (cmd : Nat) (a : List Byte) : Bool :=
  let st := h.get LCS_STATE_STATE
  decide (st ≠ lcsScrap) && (decide (cmd ≠ cmdZeroize) || decide (st ≠ lcsBlank)) &&
    (decide (cmd ≠ cmdLifecycle) || mayTransit st (beAt a 0 1))

/-- The command's effect. -/
def Hw.perform (h : Hw) (o : LcsSt) (cmd : Nat) (a : List Byte) (ok : Bool) : Performed :=
  match cmd with
  | 1 => h.lifecycleTo o a ok
  | 2 => h.rotateKey o a ok
  | 3 => h.writeImage o a ok
  | 4 => h.eraseRecords o ok
  | 5 => h.forceTo o a
  | 6 => h.authResume o
  | 7 => h.zeroizeNow o ok
  | 8 => h.unlockPaths o a
  | _ => h.factoryNow o ok

/-! ### The checks in order (R626, R633) -/

/-- LCS_LAST_CMD keeps the command and its STATUS. -/
def Hw.lastCmd (h : Hw) (p : Port) (e : CmdEntry) (status : Nat) : Hw :=
  (((h.put LCS_LAST_CMD_PATH (pathOf (reqOfPort p))).put LCS_LAST_CMD_CMD (authCmd e.frame.payload)).put
    LCS_LAST_CMD_STATUS status).put LCS_LAST_CMD_SRC_ID e.frame.src

/-- A critical command is answered without being performed. -/
def State.authTurned (s : State) (h : Hw) (key : Option Nat) (p : Port) (e : CmdEntry) (status : Nat) : State :=
  ({ s with hw := h.lastCmd p e status } : State).authAnswer key p e status []

/-- A denied command raises LCS_VIOLATION with its path (R620). -/
def Hw.denied (h : Hw) (p : Port) : Hw := h.closedWrite (reqOfPort p)

/-- Perform the command and answer it; a restart falls due 1 ms after the answer is accepted (R631). -/
def State.authPerform (s : State) (h : Hw) (key : Option Nat) (p : Port) (e : CmdEntry) (ok : Bool) : State :=
  let r := e.frame.payload
  let d := h.perform s.otp (authCmd r) (authArgs r) ok
  let h1 := (d.hw.lastCmd p e stOk).when (d.hw.on REC_CTL_AUTH_REC) (fun h => h.recTriggerAt 0x42 none)
  let t := ({ s with hw := h1, otp := d.otp } : State).authAnswer key p e stOk ([byte d.result, 0, 0, 0] ++ d.field)
  if d.restart then { t with hw := { t.hw with boot := { t.hw.boot with restartAt := some (t.hw.ns + 1000000) } } } else t

/-- One AUTH_CMD that the hub has taken. -/
def State.authRun (ctrOk opOk : Bool) (s : State) (p : Port) (e : CmdEntry) : State :=
  let h := s.hw
  let r := e.frame.payload
  let key := h.keyOf h.lcs.cmdKeys
  match h.turnAway false true with
  | some st => s.authAnswer key p e st []
  | none =>
    if authForm r = false then s.authAnswer key p e stMalformed []
    else if h.get LCS_STATE_STATE = lcsScrap then s.authTurned (h.denied p) key p e stDenied
    else if authOk key e.frame = false then
      s.authTurned ((h.bump LCS_STATUS_AUTH_FAILS 1).raise srcAuthFail (authCmd r)) key p e stAuth
    else if authCounter r ≤ h.get64 LCS_CTR_LO_CTR_LO LCS_CTR_HI_CTR_HI then
      s.authTurned ((h.bump LCS_STATUS_REPLAYS 1).raise srcCounterReplay (authCmd r)) key p e stReplay
    else
      let c := h.takeCounter (authCounter r) ctrOk
      if c.2 = false then s.authTurned c.1 key p e stBusy
      else if c.1.allows (authCmd r) (authArgs r) then s.authPerform c.1 key p e opOk
      else s.authTurned (c.1.denied p) key p e stDenied

/-- The next command in the FIFOs, if it is an AUTH_CMD with this CMD, or with none of the nine; while an erasure is under
way the hub performs no other (R631). -/
def State.critical (s : State) (cmd : Nat) (ctrOk opOk : Bool) : State :=
  if s.hw.boot.erasure.isSome then s
  else
    s.takeCommand (fun f => decide (f.ty = 0x30) &&
      decide (authCmd f.payload = cmd ∨ authCmd f.payload = 0 ∨ 9 < authCmd f.payload)) (State.authRun ctrOk opOk)

/-! ### The commands -/

def execLifecycle (ctrOk : Bool) (opOk : Bool) (s : State) : Out := .next (s.critical cmdLifecycle ctrOk opOk)

def execKeyRotate (ctrOk : Bool) (opOk : Bool) (s : State) : Out := .next (s.critical cmdKeyRotate ctrOk opOk)

def execImageWrite (ctrOk : Bool) (opOk : Bool) (s : State) : Out := .next (s.critical cmdImageWrite ctrOk opOk)

def execRecorderErase (ctrOk : Bool) (opOk : Bool) (s : State) : Out := .next (s.critical cmdRecorderErase ctrOk opOk)

def execForcePort (ctrOk : Bool) (opOk : Bool) (s : State) : Out := .next (s.critical cmdForcePort ctrOk opOk)

def execResume (ctrOk : Bool) (opOk : Bool) (s : State) : Out := .next (s.critical cmdResume ctrOk opOk)

def execZeroize (ctrOk : Bool) (opOk : Bool) (s : State) : Out := .next (s.critical cmdZeroize ctrOk opOk)

def execDebugUnlock (ctrOk : Bool) (opOk : Bool) (s : State) : Out := .next (s.critical cmdDebugUnlock ctrOk opOk)

def execFactoryReset (ctrOk : Bool) (opOk : Bool) (s : State) : Out := .next (s.critical cmdFactoryReset ctrOk opOk)

end Sys2Proof.Machine
end

