-- ==== Sys2Proof/Machine/Dispatch.lean ====
section
/-!
DEFINITION. The meaning of each command, one arm per constructor.
-/
namespace Sys2Proof.Machine
open Sys2Proof

/-- The effect of a command on everything but the queue. -/
def exec (i : Instr) (s : State) : Host.Outcome State Fault Refusal :=
  match i with
  | .registerWrite q nbytes a v => Sys2Proof.Machine.execRegisterWrite q nbytes a v s
  | .rcRead q a => Sys2Proof.Machine.execRcRead q a s
  | .multiwordLatchRead q a => Sys2Proof.Machine.execMultiwordLatchRead q a s
  | .frameBoundary totalMa imeas => Sys2Proof.Machine.execFrameBoundary totalMa imeas s
  | .aonTick => Sys2Proof.Machine.execAonTick s
  | .commitGo q src v => Sys2Proof.Machine.execCommitGo q src v s
  | .commitValidated bad => Sys2Proof.Machine.execCommitValidated bad s
  | .commitApply => Sys2Proof.Machine.execCommitApply s
  | .snapReq q => Sys2Proof.Machine.execSnapReq q s
  | .snapTake => Sys2Proof.Machine.execSnapTake s
  | .snapRel q => Sys2Proof.Machine.execSnapRel q s
  | .snapTimeout => Sys2Proof.Machine.execSnapTimeout s
  | .stitchWordReceive ty err => Sys2Proof.Machine.execStitchWordReceive ty err s
  | .sidebandEvent src cnt => Sys2Proof.Machine.execSidebandEvent src cnt s
  | .domainWakeStart entry => Sys2Proof.Machine.execDomainWakeStart entry s
  | .coreWakeDemand dem => Sys2Proof.Machine.execCoreWakeDemand dem s
  | .domainWakeDone dom => Sys2Proof.Machine.execDomainWakeDone dom s
  | .domainSleep dom => Sys2Proof.Machine.execDomainSleep dom s
  | .ovTrip t neg mv => Sys2Proof.Machine.execOvTrip t neg mv s
  | .switchCurrentLimit t neg => Sys2Proof.Machine.execSwitchCurrentLimit t neg s
  | .ovClear t neg mv => Sys2Proof.Machine.execOvClear t neg mv s
  | .routeReclose t => Sys2Proof.Machine.execRouteReclose t s
  | .tstatOvClear q t mv v => Sys2Proof.Machine.execTstatOvClear q t mv v s
  | .openComparatorTrip ch => Sys2Proof.Machine.execOpenComparatorTrip ch s
  | .openComparatorClear ch => Sys2Proof.Machine.execOpenComparatorClear ch s
  | .openStateEnd ch => Sys2Proof.Machine.execOpenStateEnd ch s
  | .probeInterval t => Sys2Proof.Machine.execProbeInterval t s
  | .probePulseStart t => Sys2Proof.Machine.execProbePulseStart t s
  | .probePulseEnd t riseUv => Sys2Proof.Machine.execProbePulseEnd t riseUv s
  | .probeRecoveryEnd t => Sys2Proof.Machine.execProbeRecoveryEnd t s
  | .saturationTrip ch => Sys2Proof.Machine.execSaturationTrip ch s
  | .saturationClear ch => Sys2Proof.Machine.execSaturationClear ch s
  | .driverChange d => Sys2Proof.Machine.execDriverChange d s
  | .driverLimitEnter d => Sys2Proof.Machine.execDriverLimitEnter d s
  | .driverLimitLeave d => Sys2Proof.Machine.execDriverLimitLeave d s
  | .excOvercurrent d => Sys2Proof.Machine.execExcOvercurrent d s
  | .vexcTotalOvercurrent ma => Sys2Proof.Machine.execVexcTotalOvercurrent ma s
  | .excReversed d => Sys2Proof.Machine.execExcReversed d s
  | .reversedClear q d v => Sys2Proof.Machine.execReversedClear q d v s
  | .compliance d => Sys2Proof.Machine.execCompliance d s
  | .chopStart d => Sys2Proof.Machine.execChopStart d s
  | .chopEdge d => Sys2Proof.Machine.execChopEdge d s
  | .reliefPrepare ch => Sys2Proof.Machine.execReliefPrepare ch s
  | .reliefSwitchover k => Sys2Proof.Machine.execReliefSwitchover k s
  | .reliefOldOpen k => Sys2Proof.Machine.execReliefOldOpen k s
  | .reliefFinish k => Sys2Proof.Machine.execReliefFinish k s
  | .strobePlace g => Sys2Proof.Machine.execStrobePlace g s
  | .groupStrobe g => Sys2Proof.Machine.execGroupStrobe g s
  | .syncReset g => Sys2Proof.Machine.execSyncReset g s
  | .syncInEdge rising => Sys2Proof.Machine.execSyncInEdge rising s
  | .syncScheduleArm q v => Sys2Proof.Machine.execSyncScheduleArm q v s
  | .syncScheduleCancel q v => Sys2Proof.Machine.execSyncScheduleCancel q v s
  | .syncScheduleEval => Sys2Proof.Machine.execSyncScheduleEval s
  | .syncOutPulseEnd => Sys2Proof.Machine.execSyncOutPulseEnd s
  | .slotSample pos slot code ovr resid => Sys2Proof.Machine.execSlotSample pos slot code ovr resid s
  | .hkTimerExpire => Sys2Proof.Machine.execHkTimerExpire s
  | .hkCtlWrite q v => Sys2Proof.Machine.execHkCtlWrite q v s
  | .ilStart q l v => Sys2Proof.Machine.execIlStart q l v s
  | .ilRunStart => Sys2Proof.Machine.execIlRunStart s
  | .ilDeadline l => Sys2Proof.Machine.execIlDeadline l s
  | .calStarved => Sys2Proof.Machine.execCalStarved s
  | .coreRelief pos => Sys2Proof.Machine.execCoreRelief pos s
  | .adcCoreFail c clk => Sys2Proof.Machine.execAdcCoreFail c clk s
  | .adcCoreRehab q c => Sys2Proof.Machine.execAdcCoreRehab q c s
  | .filSwap q v bad => Sys2Proof.Machine.execFilSwap q v bad s
  | .romBackgroundCheck bad1 bad2 => Sys2Proof.Machine.execRomBackgroundCheck bad1 bad2 s
  | .nop w u => Sys2Proof.Machine.execNop w u s
  | .conv u => Sys2Proof.Machine.execConv u s
  | .auxc u => Sys2Proof.Machine.execAuxc u s
  | .feed u => Sys2Proof.Machine.execFeed u s
  | .write u => Sys2Proof.Machine.execWrite u s
  | .wait u => Sys2Proof.Machine.execWait u s
  | .waitEnd => Sys2Proof.Machine.execWaitEnd s
  | .fend u => Sys2Proof.Machine.execFend u s
  | .loop w u => Sys2Proof.Machine.execLoop w u s
  | .jump w u => Sys2Proof.Machine.execJump w u s
  | .lend w u => Sys2Proof.Machine.execLend w u s
  | .cconv u => Sys2Proof.Machine.execCconv u s
  | .locateComplete => Sys2Proof.Machine.execLocateComplete s
  | .seqTableWrite q a v => Sys2Proof.Machine.execSeqTableWrite q a v s
  | .seqScrubRead u => Sys2Proof.Machine.execSeqScrubRead u s
  | .streamFrameBuild x => Sys2Proof.Machine.execStreamFrameBuild x s
  | .gapRecordBuild x => Sys2Proof.Machine.execGapRecordBuild x s
  | .eraEndRecord x => Sys2Proof.Machine.execEraEndRecord x s
  | .stoppedRecord x => Sys2Proof.Machine.execStoppedRecord x s
  | .backfillSubmit q src v => Sys2Proof.Machine.execBackfillSubmit q src v s
  | .backfillServe => Sys2Proof.Machine.execBackfillServe s
  | .triggerDecide n => Sys2Proof.Machine.execTriggerDecide n s
  | .triggerTimeout n => Sys2Proof.Machine.execTriggerTimeout n s
  | .trgRestart q v => Sys2Proof.Machine.execTrgRestart q v s
  | .trgFire q v => Sys2Proof.Machine.execTrgFire q v s
  | .segmentAllocate n => Sys2Proof.Machine.execSegmentAllocate n s
  | .segmentWordCopy k j => Sys2Proof.Machine.execSegmentWordCopy k j s
  | .segmentClose k => Sys2Proof.Machine.execSegmentClose k s
  | .segmentMeasureDone k => Sys2Proof.Machine.execSegmentMeasureDone k s
  | .trgSegRel q v => Sys2Proof.Machine.execTrgSegRel q v s
  | .memWindowWrite q a v => Sys2Proof.Machine.execMemWindowWrite q a v s
  | .memClr q v => Sys2Proof.Machine.execMemClr q v s
  | .memClrDone => Sys2Proof.Machine.execMemClrDone s
  | .tileVerify t u => Sys2Proof.Machine.execTileVerify t u s
  | .tileReseal q t v => Sys2Proof.Machine.execTileReseal q t v s
  | .tileResealDone t => Sys2Proof.Machine.execTileResealDone t s
  | .memScrubRead u vflip => Sys2Proof.Machine.execMemScrubRead u vflip s
  | .flipmaskArm q v => Sys2Proof.Machine.execFlipmaskArm q v s
  | .histBlockStart x => Sys2Proof.Machine.execHistBlockStart x s
  | .segBlockStart k => Sys2Proof.Machine.execSegBlockStart k s
  | .cinchBlockDone => Sys2Proof.Machine.execCinchBlockDone s
  | .cinJobGo q src v => Sys2Proof.Machine.execCinJobGo q src v s
  | .cinJobResume q v => Sys2Proof.Machine.execCinJobResume q v s
  | .cinJobAbort q v => Sys2Proof.Machine.execCinJobAbort q v s
  | .cinJobAutoResume => Sys2Proof.Machine.execCinJobAutoResume s
  | .cinOutRdWrite q v => Sys2Proof.Machine.execCinOutRdWrite q v s
  | .portDownEnd p => Sys2Proof.Machine.execPortDownEnd p s
  | .clockLaneLocked p heldNs => Sys2Proof.Machine.execClockLaneLocked p heldNs s
  | .lockDone p steps => Sys2Proof.Machine.execLockDone p steps s
  | .portUp p lvs => Sys2Proof.Machine.execPortUp p lvs s
  | .trainingFail p => Sys2Proof.Machine.execTrainingFail p s
  | .laneDown p l cause backNs => Sys2Proof.Machine.execLaneDown p l cause backNs s
  | .clockLaneLoss p => Sys2Proof.Machine.execClockLaneLoss p s
  | .lnkRetrain q p v => Sys2Proof.Machine.execLnkRetrain q p v s
  | .widthChange p => Sys2Proof.Machine.execWidthChange p s
  | .widthBlockReceive p lvs => Sys2Proof.Machine.execWidthBlockReceive p lvs s
  | .laneReadmit p l => Sys2Proof.Machine.execLaneReadmit p l s
  | .trackBound p l which up => Sys2Proof.Machine.execTrackBound p l which up s
  | .recalTimeout p l => Sys2Proof.Machine.execRecalTimeout p l s
  | .laneReequalise p l => Sys2Proof.Machine.execLaneReequalise p l s
  | .clockEqStep p => Sys2Proof.Machine.execClockEqStep p s
  | .laneSleep p => Sys2Proof.Machine.execLaneSleep p s
  | .sleepBlockReceive p lvs => Sys2Proof.Machine.execSleepBlockReceive p lvs s
  | .laneWake p => Sys2Proof.Machine.execLaneWake p s
  | .abortBlockReceive p lvs => Sys2Proof.Machine.execAbortBlockReceive p lvs s
  | .frameHeaderReceive p lvs off obs => Sys2Proof.Machine.execFrameHeaderReceive p lvs off obs s
  | .frameTrailerCheck p lvs => Sys2Proof.Machine.execFrameTrailerCheck p lvs s
  | .frameForward p off => Sys2Proof.Machine.execFrameForward p off s
  | .egressSend p off => Sys2Proof.Machine.execEgressSend p off s
  | .egressLagDrop p => Sys2Proof.Machine.execEgressLagDrop p s
  | .eventFrameBuild => Sys2Proof.Machine.execEventFrameBuild s
  | .regRead => Sys2Proof.Machine.execRegRead s
  | .regWrite => Sys2Proof.Machine.execRegWrite s
  | .snapRead => Sys2Proof.Machine.execSnapRead s
  | .capDisc => Sys2Proof.Machine.execCapDisc s
  | .linkCtlWake p => Sys2Proof.Machine.execLinkCtlWake p s
  | .linkCtlStatus p => Sys2Proof.Machine.execLinkCtlStatus p s
  | .linkCtlRetrain p => Sys2Proof.Machine.execLinkCtlRetrain p s
  | .timeSync p => Sys2Proof.Machine.execTimeSync p s
  | .timePing p => Sys2Proof.Machine.execTimePing p s
  | .fltEvtQueueRead q => Sys2Proof.Machine.execFltEvtQueueRead q s
  | .crcWindowEnd p => Sys2Proof.Machine.execCrcWindowEnd p s
  | .giveUp => Sys2Proof.Machine.execGiveUp s
  | .portHealthy p => Sys2Proof.Machine.execPortHealthy p s
  | .revertHoldExpire => Sys2Proof.Machine.execRevertHoldExpire s
  | .shadowTimeout => Sys2Proof.Machine.execShadowTimeout s
  | .forceWrite q v => Sys2Proof.Machine.execForceWrite q v s
  | .timIncrWrite q v => Sys2Proof.Machine.execTimIncrWrite q v s
  | .timAdjWrite q v => Sys2Proof.Machine.execTimAdjWrite q v s
  | .timSetWrite q v => Sys2Proof.Machine.execTimSetWrite q v s
  | .timNowRead q d => Sys2Proof.Machine.execTimNowRead q d s
  | .timLock q v => Sys2Proof.Machine.execTimLock q v s
  | .timeHoldover => Sys2Proof.Machine.execTimeHoldover s
  | .freeTimeout => Sys2Proof.Machine.execFreeTimeout s
  | .calStepStart track => Sys2Proof.Machine.execCalStepStart track s
  | .calRunStart => Sys2Proof.Machine.execCalRunStart s
  | .calStepTimeout => Sys2Proof.Machine.execCalStepTimeout s
  | .calPeriodicRun => Sys2Proof.Machine.execCalPeriodicRun s
  | .calRunAll q v => Sys2Proof.Machine.execCalRunAll q v s
  | .delayStep p l readings => Sys2Proof.Machine.execDelayStep p l readings s
  | .slicerStep p l meas => Sys2Proof.Machine.execSlicerStep p l meas s
  | .xingAck x => Sys2Proof.Machine.execXingAck x s
  | .xingRequest x => Sys2Proof.Machine.execXingRequest x s
  | .queueResync qu side => Sys2Proof.Machine.execQueueResync qu side s
  | .faultRaise j info => Sys2Proof.Machine.execFaultRaise j info s
  | .faultCauseEnd j => Sys2Proof.Machine.execFaultCauseEnd j s
  | .reactionTimerExpire j => Sys2Proof.Machine.execReactionTimerExpire j s
  | .faultStatusClear q hi v => Sys2Proof.Machine.execFaultStatusClear q hi v s
  | .parkEnd j => Sys2Proof.Machine.execParkEnd j s
  | .faultNMinwEnd => Sys2Proof.Machine.execFaultNMinwEnd s
  | .safeEnter q v => Sys2Proof.Machine.execSafeEnter q v s
  | .safeResume q v => Sys2Proof.Machine.execSafeResume q v s
  | .safeEnd => Sys2Proof.Machine.execSafeEnd s
  | .recTrigger q v => Sys2Proof.Machine.execRecTrigger q v s
  | .recordAssemble => Sys2Proof.Machine.execRecordAssemble s
  | .recordFlush ok => Sys2Proof.Machine.execRecordFlush ok s
  | .recorderScan => Sys2Proof.Machine.execRecorderScan s
  | .opsecSave ok => Sys2Proof.Machine.execOpsecSave ok s
  | .recFetch q src v => Sys2Proof.Machine.execRecFetch q src v s
  | .recBuntClr q v => Sys2Proof.Machine.execRecBuntClr q v s
  | .recSlotBadClear q w v => Sys2Proof.Machine.execRecSlotBadClear q w v s
  | .powerOn => Sys2Proof.Machine.execPowerOn s
  | .resetN lowNs => Sys2Proof.Machine.execResetN lowNs s
  | .aonResetEnd pos => Sys2Proof.Machine.execAonResetEnd pos s
  | .otpReadDone bad => Sys2Proof.Machine.execOtpReadDone bad s
  | .loaderSfdp params => Sys2Proof.Machine.execLoaderSfdp params s
  | .imageHeaderJudge => Sys2Proof.Machine.execImageHeaderJudge s
  | .imageLoad => Sys2Proof.Machine.execImageLoad s
  | .fieldReferencesReady => Sys2Proof.Machine.execFieldReferencesReady s
  | .repeaterMode => Sys2Proof.Machine.execRepeaterMode s
  | .startFree q v => Sys2Proof.Machine.execStartFree q v s
  | .supplyMonitorTrip rail => Sys2Proof.Machine.execSupplyMonitorTrip rail s
  | .fieldRailTimeout rail => Sys2Proof.Machine.execFieldRailTimeout rail s
  | .refclkLoss => Sys2Proof.Machine.execRefclkLoss s
  | .mspiRead a n => Sys2Proof.Machine.execMspiRead a n s
  | .mspiWrite a ws => Sys2Proof.Machine.execMspiWrite a ws s
  | .lifecycle ctrOk opOk => Sys2Proof.Machine.execLifecycle ctrOk opOk s
  | .keyRotate ctrOk opOk => Sys2Proof.Machine.execKeyRotate ctrOk opOk s
  | .imageWrite ctrOk opOk => Sys2Proof.Machine.execImageWrite ctrOk opOk s
  | .recorderErase ctrOk opOk => Sys2Proof.Machine.execRecorderErase ctrOk opOk s
  | .forcePort ctrOk opOk => Sys2Proof.Machine.execForcePort ctrOk opOk s
  | .resume ctrOk opOk => Sys2Proof.Machine.execResume ctrOk opOk s
  | .zeroize ctrOk opOk => Sys2Proof.Machine.execZeroize ctrOk opOk s
  | .debugUnlock ctrOk opOk => Sys2Proof.Machine.execDebugUnlock ctrOk opOk s
  | .factoryReset ctrOk opOk => Sys2Proof.Machine.execFactoryReset ctrOk opOk s
  | .commandRestart => Sys2Proof.Machine.execCommandRestart s
  | .aonResetBegin => Sys2Proof.Machine.execAonResetBegin s
  | .wakeAmReceive p lvs => Sys2Proof.Machine.execWakeAmReceive p lvs s
  | .complianceClear d => Sys2Proof.Machine.execComplianceClear d s
  | .erasureComplete => Sys2Proof.Machine.execErasureComplete s

end Sys2Proof.Machine
end

