-- ==== Sys2Proof/WellFormed.lean ====
section
/-!
DEFINITION. The commands that name objects the hub has: terminals, channels, front-end units, clusters, drivers,
streams, groups and the rest carry the numbers that R5 and the tables of the registers give them, and the two windows
their addresses. Every other command stops with a fault of its own name (`Fault.noSuchObject`).
-/
namespace Sys2Proof

/-- A calibration step is for one of the 360 front-end units or the 9 ADC cores (R5, R150). -/
def trackWf : CalTrack → Bool
  | .frontEnd u => decide (u < 360)
  | .adc c => decide (c < 9)

/-- The wake list has an entry for each of the 8 groups and the 16 trigger units (R26). -/
def entryWf : WakeEntry → Bool
  | .strobe g => decide (g < 8)
  | .burgee n => decide (n < 16)
  | .probe => true
  | .calibration => true
  | .recFlush => true
  | .opsec => true

def domainWf : Domain → Bool
  | .conv c => decide (c < 9)
  | _ => true

/-- The command names only objects that exist (R5). -/
def Instr.wf : Instr → Bool
  | .registerWrite _ _ _ _ => true
  | .rcRead _ _ => true
  | .multiwordLatchRead _ _ => true
  | .frameBoundary _ _ => true
  | .aonTick => true
  | .commitGo _ _ _ => true
  | .commitValidated bad => bad.all (fun i => decide (i ≤ 64))
  | .commitApply => true
  | .snapReq _ => true
  | .snapTake => true
  | .snapRel _ => true
  | .snapTimeout => true
  | .stitchWordReceive _ _ => true
  | .sidebandEvent _ _ => true
  | .domainWakeStart entry => entryWf entry
  | .coreWakeDemand _ => true
  | .domainWakeDone d => domainWf d
  | .domainSleep d => domainWf d
  | .ovTrip t _ _ => decide (t < 640)
  | .switchCurrentLimit t _ => decide (t < 640)
  | .ovClear t _ _ => decide (t < 640)
  | .routeReclose t => decide (t < 640)
  | .tstatOvClear _ t _ _ => decide (t < 640)
  | .openComparatorTrip ch => decide (ch < 320)
  | .openComparatorClear ch => decide (ch < 320)
  | .openStateEnd ch => decide (ch < 320)
  | .probeInterval t => decide (t < 640)
  | .probePulseStart t => decide (t < 640)
  | .probePulseEnd t _ => decide (t < 640)
  | .probeRecoveryEnd t => decide (t < 640)
  | .saturationTrip ch => decide (ch < 320)
  | .saturationClear ch => decide (ch < 320)
  | .driverChange d => decide (d < 80)
  | .driverLimitEnter d => decide (d < 80)
  | .driverLimitLeave d => decide (d < 80)
  | .excOvercurrent d => decide (d < 80)
  | .vexcTotalOvercurrent _ => true
  | .excReversed d => decide (d < 80)
  | .reversedClear _ d _ => decide (d < 80)
  | .compliance d => decide (d < 80)
  | .chopStart d => decide (d < 80)
  | .chopEdge d => decide (d < 80)
  | .reliefPrepare ch => decide (ch < 320)
  | .reliefSwitchover k => decide (k < 40)
  | .reliefOldOpen k => decide (k < 40)
  | .reliefFinish k => decide (k < 40)
  | .strobePlace g => decide (g < 8)
  | .groupStrobe g => decide (g < 8)
  | .syncReset g => decide (g < 8)
  | .syncInEdge _ => true
  | .syncScheduleArm _ _ => true
  | .syncScheduleCancel _ _ => true
  | .syncScheduleEval => true
  | .syncOutPulseEnd => true
  | .slotSample pos _ _ _ _ => decide (pos < 17)
  | .hkTimerExpire => true
  | .hkCtlWrite _ _ => true
  | .ilStart _ l _ => decide (l < 16)
  | .ilRunStart => true
  | .ilDeadline l => decide (l < 16)
  | .calStarved => true
  | .coreRelief pos => decide (pos < 8)
  | .adcCoreFail c _ => decide (c < 9)
  | .adcCoreRehab _ c => decide (c < 9)
  | .filSwap _ _ _ => true
  | .romBackgroundCheck _ _ => true
  | .nop _ _ => true
  | .conv _ => true
  | .auxc _ => true
  | .feed _ => true
  | .write _ => true
  | .wait _ => true
  | .waitEnd => true
  | .fend _ => true
  | .loop _ _ => true
  | .jump _ _ => true
  | .lend _ _ => true
  | .cconv _ => true
  | .locateComplete => true
  | .seqTableWrite _ a _ => decide (0x78000 ≤ a ∧ a < 0x80000 ∧ a % 4 = 0)
  | .seqScrubRead _ => true
  | .streamFrameBuild s => decide (s < 512)
  | .gapRecordBuild s => decide (s < 512)
  | .eraEndRecord s => decide (s < 512)
  | .stoppedRecord s => decide (s < 512)
  | .backfillSubmit _ _ _ => true
  | .backfillServe => true
  | .triggerDecide n => decide (n < 16)
  | .triggerTimeout n => decide (n < 16)
  | .trgRestart _ _ => true
  | .trgFire _ _ => true
  | .segmentAllocate n => decide (n < 16)
  | .segmentWordCopy k i => decide (k < 4096 ∧ i < 16)
  | .segmentClose k => decide (k < 4096)
  | .segmentMeasureDone k => decide (k < 4096)
  | .trgSegRel _ _ => true
  | .memWindowWrite _ a _ => decide (0x10000000 ≤ a ∧ a < 0x11800000 ∧ a % 4 = 0)
  | .memClr _ _ => true
  | .memClrDone => true
  | .tileVerify t _ => decide (t < 6144)
  | .tileReseal _ t _ => decide (t < 6144)
  | .tileResealDone t => decide (t < 6144)
  | .memScrubRead _ _ => true
  | .flipmaskArm _ _ => true
  | .histBlockStart s => decide (s < 512)
  | .segBlockStart k => decide (k < 4096)
  | .cinchBlockDone => true
  | .cinJobGo _ _ _ => true
  | .cinJobResume _ _ => true
  | .cinJobAbort _ _ => true
  | .cinJobAutoResume => true
  | .cinOutRdWrite _ _ => true
  | .portDownEnd _ => true
  | .clockLaneLocked _ _ => true
  | .lockDone _ steps => steps.all (fun k => decide (k ≤ 4))
  | .portUp _ _ => true
  | .trainingFail _ => true
  | .laneDown _ l _ _ => decide (l < 4)
  | .clockLaneLoss _ => true
  | .lnkRetrain _ _ _ => true
  | .widthChange _ => true
  | .widthBlockReceive _ _ => true
  | .laneReadmit _ l => decide (l < 4)
  | .trackBound _ l which _ => decide (l < 4 ∧ which < 4)
  | .recalTimeout _ l => decide (l < 4)
  | .laneReequalise _ l => decide (l < 4)
  | .clockEqStep _ => true
  | .laneSleep _ => true
  | .sleepBlockReceive _ _ => true
  | .laneWake _ => true
  | .abortBlockReceive _ _ => true
  | .frameHeaderReceive _ _ _ _ => true
  | .frameTrailerCheck _ _ => true
  | .frameForward _ _ => true
  | .egressSend _ _ => true
  | .egressLagDrop _ => true
  | .eventFrameBuild => true
  | .regRead => true
  | .regWrite => true
  | .snapRead => true
  | .capDisc => true
  | .linkCtlWake _ => true
  | .linkCtlStatus _ => true
  | .linkCtlRetrain _ => true
  | .timeSync _ => true
  | .timePing _ => true
  | .fltEvtQueueRead _ => true
  | .crcWindowEnd _ => true
  | .giveUp => true
  | .portHealthy _ => true
  | .revertHoldExpire => true
  | .shadowTimeout => true
  | .forceWrite _ _ => true
  | .timIncrWrite _ _ => true
  | .timAdjWrite _ _ => true
  | .timSetWrite _ _ => true
  | .timNowRead _ _ => true
  | .timLock _ _ => true
  | .timeHoldover => true
  | .freeTimeout => true
  | .calStepStart track => trackWf track
  | .calRunStart => true
  | .calStepTimeout => true
  | .calPeriodicRun => true
  | .calRunAll _ _ => true
  | .delayStep _ l _ => decide (l < 4)
  | .slicerStep _ l _ => decide (l < 4)
  | .xingAck x => decide (x < 8)
  | .xingRequest x => decide (x < 8)
  | .queueResync qu side => decide (qu < 9 ∧ side < 2)
  | .faultRaise i _ => decide (i < 64)
  | .faultCauseEnd i => decide (i < 64)
  | .reactionTimerExpire i => decide (i < 64)
  | .faultStatusClear _ _ _ => true
  | .parkEnd i => decide (i < 64)
  | .faultNMinwEnd => true
  | .safeEnter _ _ => true
  | .safeResume _ _ => true
  | .safeEnd => true
  | .recTrigger _ _ => true
  | .recordAssemble => true
  | .recordFlush _ => true
  | .recorderScan => true
  | .opsecSave _ => true
  | .recFetch _ _ _ => true
  | .recBuntClr _ _ => true
  | .recSlotBadClear _ w _ => decide (w < 8)
  | .powerOn => true
  | .resetN _ => true
  | .aonResetEnd _ => true
  | .otpReadDone bad => bad.all (fun i => decide (i ≤ 64))
  | .loaderSfdp _ => true
  | .imageHeaderJudge => true
  | .imageLoad => true
  | .fieldReferencesReady => true
  | .repeaterMode => true
  | .startFree _ _ => true
  | .supplyMonitorTrip rail => decide (rail < 8)
  | .fieldRailTimeout rail => decide (3 ≤ rail ∧ rail < 8)
  | .refclkLoss => true
  | .mspiRead _ _ => true
  | .mspiWrite _ _ => true
  | .lifecycle _ _ => true
  | .keyRotate _ _ => true
  | .imageWrite _ _ => true
  | .recorderErase _ _ => true
  | .forcePort _ _ => true
  | .resume _ _ => true
  | .zeroize _ _ => true
  | .debugUnlock _ _ => true
  | .factoryReset _ _ => true
  | .commandRestart => true
  | .aonResetBegin => true
  | .wakeAmReceive _ _ => true
  | .complianceClear d => decide (d < 80)
  | .erasureComplete => true

end Sys2Proof
end

