-- ==== Sys2Proof/Safety.lean ====
section
/-!
DEFINITION. What a safe run keeps: the shape of the OTP array and the order in which programming can move it, and which commands may touch what no reset brings back.
-/

namespace Sys2Proof

/-- The nine critical commands of chapter 20, which alone program OTP. -/
def Instr.isCritical : Instr → Bool
  | .lifecycle _ _ => true
  | .keyRotate _ _ => true
  | .zeroize _ _ => true
  | .imageWrite _ _ => true
  | .recorderErase _ _ => true
  | .forcePort _ _ => true
  | .resume _ _ => true
  | .debugUnlock _ _ => true
  | .factoryReset _ _ => true
  | _ => false

/-- The commands that may change the copy a held snapshot froze: the snapshot's own, the register writes that reach
SYS_SNAP, the wake that lets waiting MSPI writes through, the commit and the frame boundary, which take a due snapshot
first, and the starts. -/
def Instr.touchesSnapshot : Instr → Bool
  | .snapTake => true
  | .snapRel _ => true
  | .snapTimeout => true
  | .snapRead => true
  | .frameBoundary _ _ => true
  | .domainWakeDone _ => true
  | .commitApply => true
  | .registerWrite _ _ _ _ => true
  | .regWrite => true
  | .mspiWrite _ _ => true
  | .powerOn => true
  | .resetN _ => true
  | .aonResetBegin => true
  | .commandRestart => true
  | .erasureComplete => true
  | _ => false

/-- The commands that begin a start or end AON reset, and so act on a hub that is in reset. -/
def Instr.isStart : Instr → Bool
  | .powerOn => true
  | .resetN _ => true
  | .aonResetBegin => true
  | .aonResetEnd _ => true
  | .otpReadDone _ => true
  | _ => false

/-- Rows of the harness and the excitation (chapters 02 and 03). -/
def Instr.isFieldRow : Instr → Bool
  | .ovTrip _ _ _ => true
  | .switchCurrentLimit _ _ => true
  | .ovClear _ _ _ => true
  | .routeReclose _ => true
  | .openComparatorTrip _ => true
  | .openComparatorClear _ => true
  | .openStateEnd _ => true
  | .saturationTrip _ => true
  | .saturationClear _ => true
  | .probeInterval _ => true
  | .probePulseStart _ => true
  | .probePulseEnd _ _ => true
  | .probeRecoveryEnd _ => true
  | .driverLimitEnter _ => true
  | .driverLimitLeave _ => true
  | .excOvercurrent _ => true
  | .vexcTotalOvercurrent _ => true
  | .excReversed _ => true
  | .reversedClear _ _ _ => true
  | .compliance _ => true
  | .complianceClear _ => true
  | .driverChange _ => true
  | .chopStart _ => true
  | .chopEdge _ => true
  | _ => false

/-- Rows of the ports below the frame and of control (chapters 12 and 14). -/
def Instr.isLinkRow : Instr → Bool
  | .portDownEnd _ => true
  | .clockLaneLocked _ _ => true
  | .lockDone _ _ => true
  | .portUp _ _ => true
  | .trainingFail _ => true
  | .laneDown _ _ _ _ => true
  | .clockLaneLoss _ => true
  | .widthChange _ => true
  | .widthBlockReceive _ _ => true
  | .laneReadmit _ _ => true
  | .trackBound _ _ _ _ => true
  | .recalTimeout _ _ => true
  | .laneReequalise _ _ => true
  | .clockEqStep _ => true
  | .laneSleep _ => true
  | .sleepBlockReceive _ _ => true
  | .laneWake _ => true
  | .wakeAmReceive _ _ => true
  | .abortBlockReceive _ _ => true
  | .crcWindowEnd _ => true
  | .giveUp => true
  | .portHealthy _ => true
  | .revertHoldExpire => true
  | .shadowTimeout => true
  | _ => false

/-- Rows of the fault collector (chapter 18). -/
def Instr.isFaultRow : Instr → Bool
  | .faultRaise _ _ => true
  | .faultCauseEnd _ => true
  | .reactionTimerExpire _ => true
  | .faultStatusClear _ _ _ => true
  | .parkEnd _ => true
  | .faultNMinwEnd => true
  | .safeEnter _ _ => true
  | .safeResume _ _ => true
  | .safeEnd => true
  | .supplyMonitorTrip _ => true
  | .fieldRailTimeout _ => true
  | .refclkLoss => true
  | _ => false

/-- Rows of the event recorder (chapter 18). -/
def Instr.isRecorderRow : Instr → Bool
  | .recTrigger _ _ => true
  | .recordAssemble => true
  | .recordFlush _ => true
  | .recorderScan => true
  | .opsecSave _ => true
  | .recFetch _ _ _ => true
  | .recBuntClr _ _ => true
  | .recSlotBadClear _ _ _ => true
  | _ => false

end Sys2Proof

namespace Sys2Proof.Machine

/-- Every bit of `a` stands in `b`. -/
def bitsWithin (a b : Nat) : Prop := ∀ i, natBit a i = true → natBit b i = true

/-- What programming may do to a key slot: a written slot keeps its key and stays written, a revoked one stays revoked
(R621, R623). -/
def KeySlot.within (a b : KeySlot) : Prop :=
  (a.written = true → b.written = true ∧ b.key = a.key) ∧ (a.revoked = true → b.revoked = true)

/-- What programming may do to the array: no state bit and no mark goes back, and production values stay
(R618, R621, R630). -/
def LcsSt.within (a b : LcsSt) : Prop :=
  (∀ k, k < 3 → bitsWithin (a.copies.getD k 0) (b.copies.getD k 0)) ∧
  (∀ i, i < 4 → KeySlot.within (a.cmdKeys.getD i keySlot0) (b.cmdKeys.getD i keySlot0)) ∧
  (∀ i, i < 4 → KeySlot.within (a.imgKeys.getD i keySlot0) (b.imgKeys.getD i keySlot0)) ∧
  b.otpRegs = a.otpRegs ∧ b.otpTrims = a.otpTrims

/-- The array has three copies of the state bits, of four bits each, and four slots for either key (R618, R621). -/
def LcsSt.shaped (o : LcsSt) : Bool :=
  decide (o.copies.length = 3 ∧ o.cmdKeys.length = 4 ∧ o.imgKeys.length = 4) && o.copies.all (fun c => decide (c < 16))

/-- What every step keeps: the OTP array has its shape. -/
def State.Inv (s : State) : Prop := s.otp.shaped = true

/-- A walk that has an entry to issue reads entry `e` there, may issue it, and goes on at `next` (R223 to R227). -/
def Hw.issuesAs (h : Hw) (w : Walk) (u : Word72) (e : Entry) (next : Place) : Bool :=
  h.live && h.walkReady w && decide (h.nextEntry w u = .entry e) && !h.breachStart w e &&
    decide (e.after (h.placeOf w) = some next)

/-- A critical command stands next in the FIFOs that passes every check: its form, the state, its tag, its counter, the
counter entry, and what the state allows (R626). -/
def State.authReady (s : State) (p : Port) (e : CmdEntry) (cmd : Nat) : Bool :=
  let r := e.frame.payload
  let d := (s.hw.removeCommand p e).dupAccept p e.frame
  let c := d.1.takeCounter (authCounter r) true
  s.hw.live && s.hw.coreOn && s.hw.classRoom 1 && decide (s.hw.nextCommand = some (p, e)) && decide (e.frame.ty = 0x30) &&
    decide (authCmd r = cmd) && d.2 && s.hw.boot.erasure.isNone && s.hw.running && authForm r &&
    decide (s.hw.get LCS_STATE_STATE ≠ lcsScrap) && authOk (d.1.keyOf d.1.lcs.cmdKeys) e.frame &&
    decide (s.hw.get64 LCS_CTR_LO_CTR_LO LCS_CTR_HI_CTR_HI < authCounter r) && c.2 && c.1.allows cmd (authArgs r)

/-- A LIFECYCLE command stands next in the FIFOs that is well formed, outside SCRAP: what is left to check is its tag and
its counter (R626 steps 1 and 2). -/
def State.authTurns (s : State) (p : Port) (e : CmdEntry) : Bool :=
  let d := (s.hw.removeCommand p e).dupAccept p e.frame
  s.hw.live && s.hw.coreOn && s.hw.classRoom 1 && decide (s.hw.nextCommand = some (p, e)) && decide (e.frame.ty = 0x30) &&
    decide (authCmd e.frame.payload = cmdLifecycle) && d.2 && s.hw.boot.erasure.isNone && s.hw.running &&
    authForm e.frame.payload && decide (s.hw.get LCS_STATE_STATE ≠ lcsScrap)

/-- The command answers a next state, and that state has the property. -/
def Completes (c : Instr) (s : State) (p : State → Prop) : Prop := ∃ x, exec c s = .next x ∧ p x

end Sys2Proof.Machine
end

