-- ==== Sys2Proof/Certificates/Slice0/Obligations.lean ====
section
/-!
DEFINITION. The statements for the provers.
-/
open Sys2Proof Sys2Proof.Machine

/-- On a live hub an overvoltage trip of a detector not yet tripped, by a voltage that may trip it, and a current limit of
a closed bias or return switch, isolates the terminal, opens its switches, sets the trip bit and TERM_OVERVOLT. A
detector that clears after the recovery time, by a voltage that may lie in the clear window, loses its bit, and with
AUTO = 1 and the other detector clear the isolated terminal waits for its reclose; with AUTO = 0 the waiting terminals
stay as they were. At an acting boundary a terminal that waits is no longer isolated, waits no more, and has the
switches of its route. Firmware clears the OV bits that it writes with 1 inside the clear window, and neither outside
it; with both clear under AUTO = 0 an isolated terminal waits for its reclose. -/
def Obligations.TerminalProtection : Prop :=
  (∀ (s : State) (t : Nat) (neg : Bool) (mv : Int), s.hw.live = true → t < 640 →
    natBit (s.hw.ovState t) (b2n neg) = false → s.hw.mayTrip t neg mv = true →
    Completes (.ovTrip t neg mv) s (fun x => x.hw.isolated t = true ∧ x.hw.closedAt t = 0 ∧
    x.hw.on (ovBit t neg) = true ∧ x.hw.on (statusBit srcTermOvervolt) = true)) ∧
  (∀ (s : State) (t : Nat) (neg : Bool), s.hw.live = true → t < 640 → natBit (s.hw.ovState t) (b2n neg) = false →
    (bits (s.hw.closedAt t) 11 10 = 1 ∨ bits (s.hw.closedAt t) 7 5 = 7) →
    Completes (.switchCurrentLimit t neg) s (fun x => x.hw.isolated t = true ∧ x.hw.closedAt t = 0 ∧
    x.hw.on (ovBit t neg) = true ∧ x.hw.on (statusBit srcTermOvervolt) = true)) ∧
  (∀ (s : State) (t : Nat) (neg : Bool) (mv : Int), s.hw.live = true → t < 640 →
    natBit (s.hw.ovState t) (b2n neg) = true → s.hw.mayClear t mv = true →
    s.hw.due (storeGet (fun _ => 0) s.hw.field.ovAt t + msNs (s.hw.get HRN_OV_CTL_RECOVER_MS)) = true →
    Completes (.ovClear t neg mv) s (fun x => x.hw.ovState t = natPut (s.hw.ovState t) (b2n neg) (b2n neg) 0 ∧
    (s.hw.on HRN_OV_CTL_AUTO = false → x.hw.field.reclose = s.hw.field.reclose) ∧ (s.hw.on HRN_OV_CTL_AUTO = true →
    natPut (s.hw.ovState t) (b2n neg) (b2n neg) 0 = 4 → x.hw.field.reclose.contains t = true))) ∧
  (∀ (s : State) (t b : Nat), s.hw.live = true → t < 640 → s.hw.boundaryNow = some b →
    s.hw.field.reclose.contains t = true → Completes (.routeReclose t) s (fun x => x.hw.isolated t = false ∧
    x.hw.field.reclose.contains t = false ∧ x.hw.closedAt t = x.hw.route t)) ∧
  (∀ (s : State) (q : Requester) (t : Nat) (mv : Int) (v : Word) (neg : Bool), s.hw.writable q = true → t < 640 →
    s.hw.surelyClear t mv = true → natBit v.toNat (ovBit t neg).lo = true →
    Completes (.tstatOvClear q t mv v) s (fun x => x.hw.on (ovBit t neg) = false)) ∧
  (∀ (s : State) (q : Requester) (t : Nat) (mv : Int) (v : Word), s.hw.writable q = true → t < 640 →
    s.hw.mayClear t mv = false →
    Completes (.tstatOvClear q t mv v) s (fun x => x.hw.on (HRN_TSTAT_OV_POS t) = s.hw.on (HRN_TSTAT_OV_POS t) ∧
    x.hw.on (HRN_TSTAT_OV_NEG t) = s.hw.on (HRN_TSTAT_OV_NEG t) ∧ x.hw.field = (s.hw.setPin t mv).field)) ∧
  (∀ (s : State) (q : Requester) (t : Nat) (mv : Int) (v : Word), s.hw.writable q = true → t < 640 →
    s.hw.surelyClear t mv = true → s.hw.on HRN_OV_CTL_AUTO = false → s.hw.isolated t = true →
    (natBit v.toNat (HRN_TSTAT_OV_POS t).lo = true ∨ s.hw.on (HRN_TSTAT_OV_POS t) = false) →
    (natBit v.toNat (HRN_TSTAT_OV_NEG t).lo = true ∨ s.hw.on (HRN_TSTAT_OV_NEG t) = false) →
    Completes (.tstatOvClear q t mv v) s (fun x => x.hw.field.reclose.contains t = true ∧ x.hw.ovState t = 4))

/-- A working comparator that trips on a channel with no isolated terminal and not in the open-wire state puts the channel
into that state and raises TERM_OPEN, and under isolation only the comparator changes. A tripped comparator clears,
which changes neither that state nor a register. At an acting boundary an unprobed channel leaves the state whose
reasons have all been clear for the recovery time: the comparator with no terminal isolated, and COMPLIANCE of each
linked driver. A saturation trip of an enabled front end sets SAT, and in charge mode with AUTO_RST = 1 starts a
settle window; a clear removes SAT; neither changes anything else. A visit of a terminal that is not isolated, due on
a cluster that probes nothing, waits for its strobe and changes no register; 100 ns after the strobe that it follows
its pulse starts, whose network time is that instant; 20 us later a rise above the threshold sets PROBE_OPEN and puts
the terminal's channels into the open-wire state, a rise below 5 mV sets SHORT_GND, and another rise records a pass
with the time of the pulse and leaves HRN_TSTAT; after RECOVER the cluster probes nothing. -/
def Obligations.OpenAndSaturation : Prop :=
  (∀ (s : State) (ch : Nat), s.hw.live = true → ch < 320 → s.hw.hasCmp ch = true → s.hw.cmpTripped ch = false →
    s.hw.chanIsolated ch = false → s.hw.isOpen ch = false →
    Completes (.openComparatorTrip ch) s (fun x => x.hw.isOpen ch = true ∧ x.hw.cmpTripped ch = true ∧
    x.hw.on (statusBit srcTermOpen) = true)) ∧
  (∀ (s : State) (ch : Nat), s.hw.live = true → ch < 320 → s.hw.hasCmp ch = true → s.hw.cmpTripped ch = false →
    s.hw.chanIsolated ch = true →
    Completes (.openComparatorTrip ch) s (fun x => x = { s with hw := s.hw.setCmp ch true })) ∧
  (∀ (s : State) (ch : Nat), s.hw.live = true → ch < 320 → s.hw.cmpTripped ch = true →
    Completes (.openComparatorClear ch) s (fun x => x.hw.cmpTripped ch = false ∧ x.hw.openBits ch = s.hw.openBits ch ∧
    x.hw.regs = s.hw.regs)) ∧
  (∀ (s : State) (ch b : Nat), s.hw.live = true → ch < 320 → s.hw.boundaryNow = some b → s.hw.isOpen ch = true →
    s.hw.probed ch = false → (s.hw.openBits ch % 2 = 1 → s.hw.chanIsolated ch = false ∧ s.hw.cmpTripped ch = false ∧
    s.hw.due (storeGet (fun _ => 0) s.hw.field.cmpClear ch + s.hw.recoverNs) = true) → (s.hw.openBits ch / 2 % 2 = 1 →
    (List.range 2).all (fun i => !s.hw.xlinks (2 * clusOfChan ch + i) ch || (!s.hw.on (EXC_STATUS_COMPLIANCE (2 * clusOfChan ch + i)) && s.hw.due ((s.hw.drv (2 * clusOfChan ch + i)).compClear + s.hw.recoverNs))) = true) →
    Completes (.openStateEnd ch) s (fun x => x.hw.isOpen ch = false)) ∧
  (∀ (s : State) (ch : Nat), s.hw.live = true → ch < 320 → s.hw.on (FE_CFG_EN ch) = true →
    s.hw.on (FE_STATUS_SAT ch) = false →
    Completes (.saturationTrip ch) s (fun x => x = { s with hw := if s.hw.get (FE_CFG_MODE ch) = 2 ∧ s.hw.on (FE_CFG_AUTO_RST ch) = true then (s.hw.put (FE_STATUS_SAT ch) 1).feWindow ch s.hw.time.now else s.hw.put (FE_STATUS_SAT ch) 1 })) ∧
  (∀ (s : State) (ch : Nat), s.hw.live = true → ch < 320 →
    Completes (.saturationClear ch) s (fun x => x = { s with hw := s.hw.put (FE_STATUS_SAT ch) 0 })) ∧
  (∀ (s : State) (t : Nat), s.hw.live = true → t < 640 → s.hw.on HRN_PROBE_CTL_EN = true →
    s.hw.on (HRN_TERM_PROBE t) = true → s.hw.running = true →
    s.hw.due (storeGet (fun _ => 0) s.hw.field.visited t + msNs (s.hw.get HRN_PROBE_CTL_INTERVAL_MS)) = true →
    s.hw.isolated t = false → s.hw.probe (clusOfTerm t) = none →
    Completes (.probeInterval t) s (fun x => x.hw.probe (clusOfTerm t) = some { term := t, phase := .due, since := s.hw.ns, net := 0, edge := false, strobed := none } ∧
    x.hw.regs = s.hw.regs)) ∧
  (∀ (s : State) (t i : Nat) (p : ProbeSt), s.hw.live = true → t < 640 → s.hw.probe (clusOfTerm t) = some p →
    p.term = t → p.phase = .due → p.strobed = some i → s.hw.time.now ≤ i + 100 * nsUnit →
    s.hw.reached (i + 100 * nsUnit) = true →
    Completes (.probePulseStart t) s (fun x => x = { s with hw := s.hw.setProbe (clusOfTerm t) (some { p with phase := .pulse, since := s.hw.ns, net := i + 100 * nsUnit }) })) ∧
  (∀ (s : State) (t : Nat) (p : ProbeSt) (rise : Int), s.hw.live = true → t < 640 →
    s.hw.probe (clusOfTerm t) = some p → p.term = t → p.phase = .pulse → s.hw.due (p.since + 20000) = true →
    openThrUv (s.hw.get HRN_PROBE_CTL_OPEN_THR) < rise →
    Completes (.probePulseEnd t rise) s (fun x => x.hw.on (HRN_TSTAT_PROBE_OPEN t) = true ∧
    (s.hw.termChans t).all (fun ch => x.hw.isOpen ch) = true ∧
    x.hw.probe (clusOfTerm t) = some { p with phase := .recover, since := s.hw.ns })) ∧
  (∀ (s : State) (t : Nat) (p : ProbeSt) (rise : Int), s.hw.live = true → t < 640 →
    s.hw.probe (clusOfTerm t) = some p → p.term = t → p.phase = .pulse → s.hw.due (p.since + 20000) = true →
    rise ≤ openThrUv (s.hw.get HRN_PROBE_CTL_OPEN_THR) → rise < 5000 →
    Completes (.probePulseEnd t rise) s (fun x => x.hw.on (HRN_TSTAT_SHORT_GND t) = true ∧
    x.hw.probe (clusOfTerm t) = some { p with phase := .recover, since := s.hw.ns })) ∧
  (∀ (s : State) (t : Nat) (p : ProbeSt) (rise : Int), s.hw.live = true → t < 640 →
    s.hw.probe (clusOfTerm t) = some p → p.term = t → p.phase = .pulse → s.hw.due (p.since + 20000) = true →
    rise ≤ openThrUv (s.hw.get HRN_PROBE_CTL_OPEN_THR) → 5000 ≤ rise →
    Completes (.probePulseEnd t rise) s (fun x => (x.hw.lastPass t).map ProbePass.time = some p.net ∧
    x.hw.reg (HRN_TSTAT t) = s.hw.reg (HRN_TSTAT t))) ∧
  (∀ (s : State) (t : Nat) (p : ProbeSt), s.hw.live = true → t < 640 → s.hw.probe (clusOfTerm t) = some p →
    p.term = t → p.phase = .recover → s.hw.due (p.since + 10000 * s.hw.get HRN_PROBE_CTL_RECOVER) = true →
    Completes (.probeRecoveryEnd t) s (fun x => x = { s with hw := s.hw.setProbe (clusOfTerm t) none }))

/-- A voltage driver that is driven, or holds 0 V until its chop start or after a reversal, enters its limit, which LIMIT
shows, and its output stays as it is; as it leaves it LIMIT reads 0; held in it for 10 us it sets OVERCURRENT and
raises EXC_OVERCURRENT with its number; the total held above 2.0 A for 10 us raises EXC_OVERCURRENT with 0x7F.
Reversed leads on a driven driver that senses them take its output to zero, hold it, set REVERSED and raise
EXC_REVERSED; firmware clears REVERSED, which ends the hold and asks for a change at the next boundary; compliance of
a current or IEPE driver that is driven or waits for its chop start sets COMPLIANCE and puts its linked channels into
the open-wire state; its end clears COMPLIANCE and notes the time. -/
def Obligations.DriverLimits : Prop :=
  (∀ (s : State) (d : Nat), s.hw.live = true → d < 80 → ((s.hw.drv d).on = true ∨ (s.hw.drv d).chopWait = true ∨
    (s.hw.drv d).revHold = true) → ((s.hw.drv d).mode = 1 ∨ (s.hw.drv d).mode = 4) →
    s.hw.on (EXC_STATUS_LIMIT d) = false →
    Completes (.driverLimitEnter d) s (fun x => x.hw.on (EXC_STATUS_LIMIT d) = true ∧
    (x.hw.drv d).limitSince = s.hw.ns ∧ (x.hw.drv d).on = (s.hw.drv d).on)) ∧
  (∀ (s : State) (d : Nat), s.hw.live = true → d < 80 →
    Completes (.driverLimitLeave d) s (fun x => x.hw.on (EXC_STATUS_LIMIT d) = false ∧
    (x.hw.drv d).on = (s.hw.drv d).on)) ∧
  (∀ (s : State) (d : Nat), s.hw.live = true → d < 80 → s.hw.on (EXC_STATUS_LIMIT d) = true →
    s.hw.due ((s.hw.drv d).limitSince + 10000) = true → (s.hw.drv d).limitRaised = false →
    Completes (.excOvercurrent d) s (fun x => x.hw.on (EXC_STATUS_OVERCURRENT d) = true ∧
    x.hw.on (statusBit srcExcOvercurrent) = true ∧ x.hw.get (FLT_INFO_INFO srcExcOvercurrent) = d)) ∧
  (∀ (s : State) (since ma : Nat), s.hw.live = true → 2000 < ma → s.hw.field.totalOver = some since →
    s.hw.due (since + 10000) = true → s.hw.field.totalRaised = false →
    Completes (.vexcTotalOvercurrent ma) s (fun x => x.hw.on (statusBit srcExcOvercurrent) = true ∧
    x.hw.get (FLT_INFO_INFO srcExcOvercurrent) = 0x7F)) ∧
  (∀ (s : State) (d : Nat), s.hw.live = true → d < 80 → (s.hw.drv d).on = true → (((s.hw.drv d).mode = 1 ∨
    (s.hw.drv d).mode = 4) ∧ natBit (s.hw.drv d).cfg.toNat 3 = true ∨ (s.hw.drv d).mode = 3) →
    Completes (.excReversed d) s (fun x => (x.hw.drv d).on = false ∧ (x.hw.drv d).revHold = true ∧
    x.hw.on (EXC_STATUS_REVERSED d) = true ∧ x.hw.on (statusBit srcExcReversed) = true)) ∧
  (∀ (s : State) (q : Requester) (d : Nat) (v : Word), s.hw.writable q = true → d < 80 → natBit v.toNat 18 = true →
    s.hw.on (EXC_STATUS_REVERSED d) = true →
    Completes (.reversedClear q d v) s (fun x => x.hw.on (EXC_STATUS_REVERSED d) = false ∧
    (x.hw.drv d).revHold = false ∧ (x.hw.drv d).wants = true)) ∧
  (∀ (s : State) (d : Nat), s.hw.live = true → d < 80 → ((s.hw.drv d).on = true ∨ (s.hw.drv d).chopWait = true) →
    ((s.hw.drv d).mode = 2 ∨ (s.hw.drv d).mode = 3 ∨ (s.hw.drv d).mode = 5) →
    s.hw.on (EXC_STATUS_COMPLIANCE d) = false →
    Completes (.compliance d) s (fun x => x.hw.on (EXC_STATUS_COMPLIANCE d) = true ∧
    (s.hw.linked d).all (fun ch => x.hw.isOpen ch) = true)) ∧
  (∀ (s : State) (d : Nat), s.hw.live = true → d < 80 → s.hw.on (EXC_STATUS_COMPLIANCE d) = true →
    Completes (.complianceClear d) s (fun x => x.hw.on (EXC_STATUS_COMPLIANCE d) = false ∧
    (x.hw.drv d).compClear = s.hw.ns))

/-- At the instant 0.3 us after a boundary a driver with a change follows its registers: with MODE not 0, nothing holding
it and the hub running it is driven, or, where it newly is a chopped one, waits for its chop start, and else it is
off; a chopped driver that waits starts positive in a frame that is a multiple of 2 x HALF; and the polarity of a
driven chopped driver becomes that of its frame count, its output staying on. -/
def Obligations.DriverInstants : Prop :=
  (∀ (s : State) (d i : Nat), s.hw.live = true → d < 80 → s.hw.driverInstant = some i → (s.hw.drv d).change = true →
    Completes (.driverChange d) s (fun x => (x.hw.drv d).cfg = s.hw.reg (EXC_CFG d) ∧
    (x.hw.drv d).set = s.hw.reg (EXC_SET d) ∧ (x.hw.drv d).chop = s.hw.reg (EXC_CHOP d) ∧
    (x.hw.drv d).change = false ∧
    (x.hw.drv d).chopWait = (decide (4 ≤ s.hw.get (EXC_CFG_MODE d)) && !s.hw.faultOff d && s.hw.running && !((s.hw.drv d).on && decide (4 ≤ (s.hw.drv d).mode))) ∧
    (x.hw.drv d).on = (decide (s.hw.get (EXC_CFG_MODE d) ≠ 0) && !s.hw.faultOff d && s.hw.running && !(x.hw.drv d).chopWait))) ∧
  (∀ (s : State) (d i : Nat), s.hw.live = true → d < 80 → s.hw.driverInstant = some i →
    (s.hw.drv d).chopWait = true → s.hw.chopCount (s.hw.drv d).group % (2 * (s.hw.drv d).half) = 0 →
    Completes (.chopStart d) s (fun x => (x.hw.drv d).on = true ∧ (x.hw.drv d).chopWait = false ∧
    x.hw.get (EXC_STATUS_POL d) = 0)) ∧
  (∀ (s : State) (d i : Nat), s.hw.live = true → d < 80 → s.hw.driverInstant = some i → (s.hw.drv d).on = true →
    4 ≤ (s.hw.drv d).mode →
    Completes (.chopEdge d) s (fun x => x.hw.get (EXC_STATUS_POL d) = s.hw.chopCount (s.hw.drv d).group / (s.hw.drv d).half % 2 ∧
    (x.hw.drv d).on = true))

/-- At B0, a boundary at which the substitution may act on a channel that is not barred, the spare is prepared with the
channel; at the first boundary far enough after it has role 0, the relieved unit role 2, and the channel is served by
it with CAL = 1; 1.1 us later the relieved unit's input switches are open, the other's closed where the channel is
enabled and the routes are in force, and the relief calibrates; when that has ended the relief ends at a boundary and
CAL returns to 0. -/
def Obligations.FrontEndRelief : Prop :=
  (∀ (s : State) (ch b n : Nat), s.hw.live = true → ch < 320 → n < 360 → s.hw.boundaryNow = some b →
    s.hw.spareUnit (clusOfChan ch) = some n → s.hw.reliefChan = some ch → s.hw.relief (clusOfChan ch) = none →
    s.hw.barred ch = false → (s.hw.cal.feSince = none ∨ s.hw.listsWaiting = false ∨
    s.hw.on ADC_SLACK_FORCING = true) →
    Completes (.reliefPrepare ch) s (fun x => x.hw.relief (clusOfChan ch) = some { ch := ch, oldUnit := s.hw.unitOfChan ch, newUnit := n, b0 := b, b1 := 0, phase := .prepared } ∧
    x.hw.on (FE_UNIT_PREP n) = true)) ∧
  (∀ (s : State) (k b : Nat) (r : Relief), s.hw.live = true → k < 40 → s.hw.relief k = some r →
    s.hw.boundaryNow = some b → r.phase = .prepared → r.b0 + max (s.hw.settleNs r.ch) 20000 * nsUnit ≤ b →
    r.ch < 320 → r.oldUnit < 360 → r.newUnit < 360 → r.oldUnit ≠ r.newUnit →
    Completes (.reliefSwitchover k) s (fun x => x.hw.relief k = some { r with phase := .overlap, b1 := b } ∧
    x.hw.get (FE_UNIT_ROLE r.newUnit) = 0 ∧ x.hw.get (FE_UNIT_ROLE r.oldUnit) = 2 ∧ x.hw.unitOfChan r.ch = r.newUnit ∧
    x.hw.on (FE_STATUS_CAL r.ch) = true)) ∧
  (∀ (s : State) (k : Nat) (r : Relief), s.hw.live = true → k < 40 → s.hw.relief k = some r → r.phase = .overlap →
    s.hw.reached (r.b1 + 1100 * nsUnit) = true →
    Completes (.reliefOldOpen k) s (fun x => x = { s with hw := ((s.hw.setRelief k (some { r with phase := .calibrating })).setInputs r.newUnit (if s.hw.inputsOn r.ch then some r.ch else none)).setInputs r.oldUnit none })) ∧
  (∀ (s : State) (k b : Nat) (r : Relief), s.hw.live = true → k < 40 → s.hw.relief k = some r →
    s.hw.boundaryNow = some b → r.phase = .ended → Completes (.reliefFinish k) s (fun x => x.hw.relief k = none ∧
    x.hw.on (FE_STATUS_CAL r.ch) = false))

/-- At each AON tick of a live hub with REFCLK, where no load waits at it and no step in hold would take it below 0 s,
network time becomes T_k plus the increment in effect plus any step, modulo 2^48 s; a waiting load sets it; without
REFCLK only local time goes on. -/
def Obligations.AonTickAdvances : Prop :=
  (∀ (s : State), s.hw.live = true → s.hw.boot.refclkLost = false → s.hw.time.setHold = none →
    0 ≤ (s.hw.time.now : Int) + ((s.hw.time.incrHold.getD s.hw.time.incr : Int) + s.hw.time.adjHold.getD 0) →
    Completes (.aonTick) s (fun x => x.hw.time.now = timeAdd s.hw.time.now ((s.hw.time.incrHold.getD s.hw.time.incr : Int) + s.hw.time.adjHold.getD 0) ∧
    x.hw.time.tick = s.hw.time.tick + 1 ∧ x.hw.time.incr = s.hw.time.incrHold.getD s.hw.time.incr ∧
    x.hw.time.adjHold = s.hw.time.adjPend ∧ x.hw.time.incrHold = s.hw.time.incrPend)) ∧
  (∀ (s : State) (t : Nat), s.hw.live = true → s.hw.boot.refclkLost = false → s.hw.time.setHold = some t →
    Completes (.aonTick) s (fun x => x.hw.time.now = t ∧ x.hw.time.tick = s.hw.time.tick + 1 ∧
    x.hw.on TIM_STATUS_SET_DONE = true)) ∧
  (∀ (s : State), s.hw.live = true → s.hw.boot.refclkLost = true →
    Completes (.aonTick) s (fun x => x = { s with hw := { s.hw with time := { s.hw.time with tick := s.hw.time.tick + 1 } } }))

/-- When network time reaches a boundary that has not acted, it becomes the last boundary, EXC_TOTAL shows the measured
total (saturated), the hold of the calibration pick ends, and network time does not move, whatever currents the
drivers measure. -/
def Obligations.FrameBoundaryActs : Prop :=
  ∀ (s : State) (b ma : Nat) (im : List Nat), s.hw.live = true → s.hw.nextBoundary = some b →
    Completes (.frameBoundary ma im) s (fun x => x.hw.smp.lastBoundary = some b ∧
    x.hw.get EXC_TOTAL_TOTAL = min ma 65535 ∧ x.hw.cal.pickHold = false ∧ x.hw.time = s.hw.time)

/-- A rate within 39.96 ns to 40.04 ns waits for its tick and another sets INCR_REJ and leaves the rate; a step within
LIM_NS that keeps time at 0 s or above waits and another raises TIME_STEP_REJECT and leaves the waiting step; a step
in hold that would take the time below 0 s at its tick is refused there in the same way (the model's reading, log
200); a load waits where QUALITY is UNSET or SET_EN is set, with nanoseconds in range, and is refused otherwise. A
read of TIM_NOW_FRAC with no snapshot held answers the fraction at the access and latches the rest, and with one held
the fraction frozen; LOCK enters LOCKED from FREE or UNSET after a load and a recent time frame, which releases
sampling, and leaves the quality and is refused without a load or a recent frame; the holdover timer, with no time
frame waiting to be taken (the model's reading, log 201), enters HOLDOVER and raises TIME_HOLDOVER; FREE_S seconds of
HOLDOVER enter FREE. -/
def Obligations.TimeWrites : Prop :=
  (∀ (s : State) (q : Requester) (v : Word), s.hw.writable q = true →
    incrMin ≤ bits v 5 0 * nsUnit + (s.hw.heldOr q TIM_INCR_FRAC (s.hw.reg TIM_INCR_FRAC)).toNat →
    bits v 5 0 * nsUnit + (s.hw.heldOr q TIM_INCR_FRAC (s.hw.reg TIM_INCR_FRAC)).toNat ≤ incrMax →
    Completes (.timIncrWrite q v) s (fun x => x.hw.time = { s.hw.time with incrPend := some (bits v 5 0 * nsUnit + (s.hw.heldOr q TIM_INCR_FRAC (s.hw.reg TIM_INCR_FRAC)).toNat) } ∧
    x.hw.on TIM_STATUS_INCR_REJ = s.hw.on TIM_STATUS_INCR_REJ)) ∧
  (∀ (s : State) (q : Requester) (v : Word), s.hw.writable q = true →
    (bits v 5 0 * nsUnit + (s.hw.heldOr q TIM_INCR_FRAC (s.hw.reg TIM_INCR_FRAC)).toNat < incrMin ∨
    incrMax < bits v 5 0 * nsUnit + (s.hw.heldOr q TIM_INCR_FRAC (s.hw.reg TIM_INCR_FRAC)).toNat) →
    Completes (.timIncrWrite q v) s (fun x => x.hw.time = s.hw.time ∧ x.hw.on TIM_STATUS_INCR_REJ = true ∧
    x.hw.reg TIM_INCR_NS = s.hw.reg TIM_INCR_NS)) ∧
  (∀ (s : State) (q : Requester) (v : Word), s.hw.writable q = true →
    (toSigned 32 v.toNat * (nsUnit : Int) + ((s.hw.heldOr q TIM_ADJ_FRAC (s.hw.reg TIM_ADJ_FRAC)).toNat : Int)).natAbs ≤ s.hw.get TIM_STEP_LIM_LIM_NS * nsUnit →
    0 ≤ (s.hw.time.now : Int) + (toSigned 32 v.toNat * (nsUnit : Int) + ((s.hw.heldOr q TIM_ADJ_FRAC (s.hw.reg TIM_ADJ_FRAC)).toNat : Int)) →
    Completes (.timAdjWrite q v) s (fun x => x.hw.time = { s.hw.time with adjPend := some (toSigned 32 v.toNat * (nsUnit : Int) + ((s.hw.heldOr q TIM_ADJ_FRAC (s.hw.reg TIM_ADJ_FRAC)).toNat : Int)) } ∧
    x.hw.on TIM_STATUS_ADJ_PEND = true)) ∧
  (∀ (s : State) (q : Requester) (v : Word), s.hw.writable q = true →
    (s.hw.get TIM_STEP_LIM_LIM_NS * nsUnit < (toSigned 32 v.toNat * (nsUnit : Int) + ((s.hw.heldOr q TIM_ADJ_FRAC (s.hw.reg TIM_ADJ_FRAC)).toNat : Int)).natAbs ∨
    (s.hw.time.now : Int) + (toSigned 32 v.toNat * (nsUnit : Int) + ((s.hw.heldOr q TIM_ADJ_FRAC (s.hw.reg TIM_ADJ_FRAC)).toNat : Int)) < 0) →
    Completes (.timAdjWrite q v) s (fun x => x.hw.time = s.hw.time ∧ x.hw.on TIM_STATUS_STEP_REJ = true ∧
    x.hw.on (statusBit srcTimeStepReject) = true)) ∧
  (∀ (s : State) (d : Int), s.hw.live = true → s.hw.boot.refclkLost = false → s.hw.time.setHold = none →
    s.hw.time.adjHold = some d → (s.hw.time.now : Int) + (s.hw.time.incrHold.getD s.hw.time.incr : Int) + d < 0 →
    Completes (.aonTick) s (fun x => x.hw.time.now = timeAdd s.hw.time.now (s.hw.time.incrHold.getD s.hw.time.incr : Int) ∧
    x.hw.time.adjHold = s.hw.time.adjPend ∧ x.hw.on TIM_STATUS_STEP_REJ = true ∧
    x.hw.on (statusBit srcTimeStepReject) = true)) ∧
  (∀ (s : State) (q : Requester) (v : Word), s.hw.writable q = true → s.hw.running = true →
    bits (s.hw.heldOr q TIM_SET_NS (s.hw.reg TIM_SET_NS)) 29 0 ≤ 999999999 → (s.hw.quality = 3 ∨
    s.hw.on TIM_CTL_SET_EN = true) →
    Completes (.timSetWrite q v) s (fun x => x.hw.time = { s.hw.time with setPend := some (timeOf ((s.hw.heldOr q TIM_SET_SLO (s.hw.reg TIM_SET_SLO)).toNat + 2 ^ 32 * bits v 15 0) (bits (s.hw.heldOr q TIM_SET_NS (s.hw.reg TIM_SET_NS)) 29 0) (s.hw.heldOr q TIM_SET_FRAC (s.hw.reg TIM_SET_FRAC)).toNat) } ∧
    x.hw.on TIM_STATUS_SET_PEND = true)) ∧
  (∀ (s : State) (q : Requester) (v : Word), s.hw.writable q = true → s.hw.running = true →
    (999999999 < bits (s.hw.heldOr q TIM_SET_NS (s.hw.reg TIM_SET_NS)) 29 0 ∨ s.hw.quality ≠ 3 ∧
    s.hw.on TIM_CTL_SET_EN = false) → Completes (.timSetWrite q v) s (fun x => x.hw.time = s.hw.time ∧
    x.hw.on TIM_STATUS_STEP_REJ = true ∧ x.hw.on (statusBit srcTimeStepReject) = true)) ∧
  (∀ (s : State) (q : Requester) (d : Nat) (f : Hw), s.hw.readable q = true → s.frozen = some f →
    Completes (.timNowRead q d) s (fun x => x.rdata = [BitVec.ofNat 32 (fracOf f.time.now)] ∧ x.hw.regs = s.hw.regs)) ∧
  (∀ (s : State) (q : Requester) (d : Nat), s.hw.readable q = true → s.frozen = none →
    Completes (.timNowRead q d) s (fun x => x.rdata = [BitVec.ofNat 32 (fracOf (s.hw.time.now + d % 40 * s.hw.incrNow / 40))] ∧
    x.hw.latched q TIM_NOW_NS = some (BitVec.ofNat 32 (nsOf (s.hw.time.now + d % 40 * s.hw.incrNow / 40))) ∧
    x.hw.latched q TIM_NOW_SLO = some (BitVec.ofNat 32 (secOf (s.hw.time.now + d % 40 * s.hw.incrNow / 40))) ∧
    x.hw.latched q TIM_NOW_SHI = some (BitVec.ofNat 32 (secOf (s.hw.time.now + d % 40 * s.hw.incrNow / 40) / 2 ^ 32)) ∧
    x.hw.regs = s.hw.regs)) ∧
  (∀ (s : State) (q : Requester) (v : Word) (t : Nat), s.hw.writable q = true → s.hw.running = true →
    natBit v.toNat 31 = true → s.hw.on TIM_STATUS_SET_DONE = true → s.hw.time.lastValid = some t →
    s.hw.ns ≤ t + s.hw.holdoverNs → 2 ≤ s.hw.quality → Completes (.timLock q v) s (fun x => x.hw.quality = 0 ∧
    x.hw.released = true)) ∧
  (∀ (s : State) (q : Requester) (v : Word), s.hw.writable q = true → s.hw.running = true →
    natBit v.toNat 31 = true → (s.hw.on TIM_STATUS_SET_DONE = false ∨
    s.hw.time.lastValid.all (fun t => decide (t + s.hw.holdoverNs < s.hw.ns)) = true) →
    Completes (.timLock q v) s (fun x => x.hw.quality = s.hw.quality ∧ x.hw.on TIM_STATUS_LOCK_REFUSED = true)) ∧
  (∀ (s : State) (t : Nat), s.hw.live = true → s.hw.time.lastValid = some t → s.hw.quality = 0 →
    s.hw.due (t + s.hw.holdoverNs) = true → (s.hw.port .a).timeMsgs = [] → (s.hw.port .b).timeMsgs = [] →
    Completes (.timeHoldover) s (fun x => x.hw.quality = 1 ∧ x.hw.on (statusBit srcTimeHoldover) = true ∧
    x.hw.time = { s.hw.time with holdoverSince := s.hw.ns })) ∧
  (∀ (s : State), s.hw.live = true → s.hw.quality = 1 → s.hw.get TIM_FREE_TO_FREE_S ≠ 0 →
    s.hw.due (s.hw.time.holdoverSince + s.hw.get TIM_FREE_TO_FREE_S * 1000000000) = true →
    Completes (.freeTimeout) s (fun x => x = { s with hw := s.hw.put TIM_STATUS_QUALITY 2 }))

/-- The first waiting SYNC of a port is counted for it with its sequence number and the difference of its stamp and its
corrected origin, saturated, which SAT shows; for the first waiting PING, of a hub with an ID and with room in class
0, a PONG to its sender is queued that only its port sends; both restart the holdover timer. -/
def Obligations.TimeFrames : Prop :=
  (∀ (s : State) (p : Port) (m : PortMsg), s.hw.live = true →
    ((s.hw.port p).timeMsgs.find? (fun y => decide (timeMsg y.frame = 1))) = some m →
    Completes (.timeSync p) s (fun x => x.hw.get (TIM_RX_INFO_MSGSEQ (portNo p)) = timeMsgSeq m.frame % 2 ^ 16 ∧
    x.hw.get (TIM_RX_INFO_COUNT (portNo p)) = (s.hw.get (TIM_RX_INFO_COUNT (portNo p)) + 1) % 2 ^ 8 ∧
    x.hw.time.lastValid = some s.hw.ns ∧
    x.hw.get64 (TIM_RX_DIFF_LO_FRAC (portNo p)) (TIM_RX_DIFF_HI_NS (portNo p)) = ofSigned 64 (satDiff ((m.stamp : Int) - ((timeOrig m.frame : Int) + timeCorr m.frame))) ∧
    x.hw.on (TIM_RX_INFO_SAT (portNo p)) = decide (satDiff ((m.stamp : Int) - ((timeOrig m.frame : Int) + timeCorr m.frame)) ≠ (m.stamp : Int) - ((timeOrig m.frame : Int) + timeCorr m.frame)))) ∧
  (∀ (s : State) (p : Port) (m : PortMsg), s.hw.live = true →
    ((s.hw.port p).timeMsgs.find? (fun y => decide (timeMsg y.frame = 2))) = some m → s.hw.classRoom 0 = true →
    s.hw.get SYS_HUB_ID_ID ≠ 0 → Completes (.timePing p) s (fun x => x.hw.time.lastValid = some s.hw.ns ∧
    x.hw.net.egress.length = s.hw.net.egress.length + 1 ∧ x.hw.net.egress.getLast?.map (fun d => (d.pong, d.frame.dst,
    d.sentA, d.sentB)) = some (true, m.frame.src, decide (p = .b), decide (p = .a))))

/-- No AON tick, rate change, step or load moves or drops a placed strobe of any group. -/
def Obligations.PlacedStrobesStay : Prop :=
  ∀ (s t : State) (c : Instr) (g : Nat),
    (c = .aonTick ∨ (∃ q v, c = .timIncrWrite q v) ∨ (∃ q v, c = .timAdjWrite q v) ∨ (∃ q v, c = .timSetWrite q v)) →
    exec c s = .next t → (t.hw.grp g).placed = (s.hw.grp g).placed

/-- An armed group with nothing placed that skips no instant, whose next instant lies 80 ns ahead within one tick, gets
the coarse and fine delay of that instant, and no register changes; a group that strobes at an instant has every
track-and-hold of its channels hold that instant and its raw index, and nothing placed; at its reset instant that
instant becomes its origin, what it skipped is forgotten and a reset crosses to CORE; the oldest SYNC_OUT pulse, when
it is over, ends. A selected SYNC_IN edge registers where none is pending and merges otherwise; ARM = 1 arms the
request of the written words at the present tick; ARM = 0 leaves none pending; at a later tick a late request sets
LATE and raises SYNC_LATE, and is dropped with LATE_ACT = 0, and one whose boundary is not reached waits for it. -/
def Obligations.Strobes : Prop :=
  (∀ (s : State) (g : Nat), s.hw.live = true → g < 8 → s.hw.released = true → (s.hw.grp g).armed = true →
    (s.hw.grp g).placed = none → ((s.hw.grp g).soon = false ∨
    (s.hw.grp g).resetAt ≠ some ((s.hw.grp g).atOrAfter (s.hw.grp g).floor) ∧
    (s.hw.grp g).origin ≠ some ((s.hw.grp g).atOrAfter (s.hw.grp g).floor)) →
    (s.hw.grp g).countIn (s.hw.grp g).floor (s.hw.time.now + 80 * nsUnit) = 0 →
    ((s.hw.grp g).atOrAfter (max (s.hw.grp g).floor (s.hw.time.now + 80 * nsUnit))) < s.hw.time.now + 80 * nsUnit + s.hw.incrNow →
    Completes (.strobePlace g) s (fun x => (x.hw.grp g).placed = some { instant := ((s.hw.grp g).atOrAfter (max (s.hw.grp g).floor (s.hw.time.now + 80 * nsUnit))), tick := s.hw.ns, coarse := (coarseFine ((s.hw.grp g).atOrAfter (max (s.hw.grp g).floor (s.hw.time.now + 80 * nsUnit))) s.hw.time.now s.hw.incrNow).1, fine := (coarseFine ((s.hw.grp g).atOrAfter (max (s.hw.grp g).floor (s.hw.time.now + 80 * nsUnit))) s.hw.time.now s.hw.incrNow).2 } ∧
    x.hw.regs = s.hw.regs)) ∧
  (∀ (s : State) (g i raw origin : Nat), s.hw.live = true → g < 8 → s.hw.strobeInstant g = some i →
    ((s.hw.settleFor g i).grp g).indexOf i = some (raw, origin) →
    Completes (.groupStrobe g) s (fun x => (x.hw.grp g).last = some i ∧ (x.hw.grp g).placed = none ∧
    (s.hw.members g).all (fun ch => (storeGet (fun _ => none) x.hw.smp.held ch).any (fun y => decide (y.ch = ch ∧
    y.instant = i ∧ y.raw = raw))) = true)) ∧
  (∀ (s : State) (g i : Nat), s.hw.live = true → g < 8 → s.hw.resetNow g = some i →
    Completes (.syncReset g) s (fun x => (x.hw.grp g).origin = some i ∧ (x.hw.grp g).skips = [] ∧
    (x.hw.xing 4).busy = true)) ∧
  (∀ (s : State) (e : Nat × Nat) (rest : List (Nat × Nat)), s.hw.live = true → s.hw.smp.syncOut = e :: rest →
    s.hw.reached e.2 = true →
    Completes (.syncOutPulseEnd) s (fun x => x = { s with hw := { s.hw with smp := { s.hw.smp with syncOut := rest } } })) ∧
  (∀ (s : State) (rising : Bool), s.hw.live = true → s.hw.on SMP_SYNC_CTL_IN_EN = true →
    s.hw.on SMP_SYNC_CTL_IN_EDGE = !rising → s.hw.syncPending 1 = false →
    Completes (.syncInEdge rising) s (fun x => x.hw.smp.pinWait = some 2 ∧ x.hw.smp.reqs = s.hw.smp.reqs)) ∧
  (∀ (s : State) (rising : Bool), s.hw.live = true → s.hw.on SMP_SYNC_CTL_IN_EN = true →
    s.hw.on SMP_SYNC_CTL_IN_EDGE = !rising → s.hw.syncPending 1 = true →
    Completes (.syncInEdge rising) s (fun x => x.hw.on SMP_SYNC_STATUS_IN_MERGED = true ∧ x.hw.smp = s.hw.smp)) ∧
  (∀ (s : State) (q : Requester) (v : Word), s.hw.writable q = true → natBit v.toNat 31 = true →
    Completes (.syncScheduleArm q v) s (fun x => x.hw.smp.armReq = some ((timeOf ((s.hw.heldOr q SMP_SYNC_T1 (s.hw.reg SMP_SYNC_T1)).toNat + 2 ^ 32 * bits v 15 0) (bits (s.hw.heldOr q SMP_SYNC_T0 (s.hw.reg SMP_SYNC_T0)) 29 0) 0),
    bits v 23 16, s.hw.time.tick) ∧ x.hw.on SMP_SYNC_STATUS_SCHED_PEND = true)) ∧
  (∀ (s : State) (q : Requester) (v : Word), s.hw.writable q = true → natBit v.toNat 31 = false →
    Completes (.syncScheduleCancel q v) s (fun x => x.hw.smp.armReq = none ∧ x.hw.syncPending 2 = false ∧
    x.hw.on SMP_SYNC_STATUS_SCHED_PEND = false)) ∧
  (∀ (s : State) (t mask tick : Nat), s.hw.live = true → s.hw.smp.armReq = some (t, mask, tick) →
    tick < s.hw.time.tick → s.hw.boundaryFrom t ≤ s.hw.time.now →
    Completes (.syncScheduleEval) s (fun x => x.hw.smp.armReq = none ∧ (s.hw.on SMP_SYNC_CTL_LATE_ACT = false →
    x.hw.smp.reqs = s.hw.smp.reqs) ∧ x.hw.on SMP_SYNC_STATUS_LATE = true ∧ x.hw.on (statusBit srcSyncLate) = true)) ∧
  (∀ (s : State) (t mask tick : Nat), s.hw.live = true → s.hw.smp.armReq = some (t, mask, tick) →
    tick < s.hw.time.tick → s.hw.reached (s.hw.boundaryFrom t) = false → mask ≠ 0 →
    Completes (.syncScheduleEval) s (fun x => x.hw.smp.armReq = none ∧
    x.hw.smp.reqs.any (fun r => decide (r.time = t ∧ r.mask = mask ∧ r.src = 4)) = true))

/-- For any increment the coarse nanoseconds and fine taps of 1/800 ns name the instant to half a tap. -/
def Obligations.StrobePlacement : Prop :=
  ∀ (i t incr : Nat), 0 < incr → t ≤ i →
    (((coarseFine i t incr).1 * 800 + (coarseFine i t incr).2 : Nat) : Int) * incr * 2 ≤ ((i - t) * 40 * 800 * 2 + incr : Nat) ∧
    (((i - t) * 40 * 800 * 2 : Nat) : Int) ≤ ((((coarseFine i t incr).1 * 800 + (coarseFine i t incr).2) * 2 + 1) * incr : Nat) ∧
    (coarseFine i t incr).2 ≤ 800

/-- With REFCLK and the OTP read done: an entry of the wake list that comes due starts each stopped domain that it needs,
CORE among them, and changes no register; an unscheduled demand wakes a stopped CORE; a new count of the sideband is
kept and wakes it. A waking domain, CONV only while TIMING runs, runs when its wake is done; an idle, enabled domain
with nothing near goes to sleep. A request on an idle crossing makes it busy, on a busy one it is counted, and at 255
it is discarded and its overrun bit set; ACK sends the next counted request or leaves the crossing idle; a queue whose
write side is reset, or whose read side is for one of the two forwarding buffers, is counted in CLK_RESYNC; another
read side answers nothing. -/
def Obligations.ClockDomains : Prop :=
  (∀ (s : State) (e : WakeEntry) (d : Domain) (t : Nat), s.hw.live = true → (Instr.domainWakeStart e).wf = true →
    ([Domain.timing, .core, .stitch] ++ s.hw.servingCores.map Domain.conv).contains d = true →
    (s.hw.dom d).mode = .off → s.hw.boot.refclkLost = false ∧ s.hw.boot.phase ≠ .otp → needsDomain e d = true →
    s.hw.nextEntryAt e = some t → s.hw.reached (t - wakeLead e d * nsUnit) = true →
    Completes (.domainWakeStart e) s (fun x => (x.hw.dom d).mode = .waking ∧ x.hw.regs = s.hw.regs)) ∧
  (∀ (s : State) (dem : Demand), s.hw.live = true → s.hw.clk.core.mode = .off → s.hw.boot.refclkLost = false ∧
    s.hw.boot.phase ≠ .otp → Completes (.coreWakeDemand dem) s (fun x => x.hw.clk.core.mode = .waking)) ∧
  (∀ (s : State) (src cnt : Nat), s.hw.live = true → s.hw.clk.core.mode = .off → s.hw.boot.refclkLost = false ∧
    s.hw.boot.phase ≠ .otp → storeGet (fun _ => 0) s.hw.clk.sideband src < 16 → cnt < 16 →
    cnt ≠ storeGet (fun _ => 0) s.hw.clk.sideband src →
    Completes (.sidebandEvent src cnt) s (fun x => x.hw.clk.core.mode = .waking ∧
    storeGet (fun _ => 0) x.hw.clk.sideband src = cnt)) ∧
  (∀ (s : State) (d : Domain), s.hw.live = true → isDomain d = true → (s.hw.dom d).mode = .waking → (∀ c,
    d = .conv c → s.hw.clk.timing.mode = .on) → Completes (.domainWakeDone d) s (fun x => (x.hw.dom d).mode = .on)) ∧
  (∀ (s : State) (d : Domain), s.hw.live = true → isDomain d = true → (s.hw.dom d).mode = .on →
    s.hw.on (sleepEn d) = true → s.hw.pendingWork d = false → s.hw.farAhead d = true →
    Completes (.domainSleep d) s (fun x => x = { s with hw := s.hw.setDom d { mode := .entering, again := false, since := s.hw.ns } })) ∧
  (∀ (s : State) (k : Nat), s.hw.live = true → k < 8 → (s.hw.xing k).busy = false →
    Completes (.xingRequest k) s (fun x => (x.hw.xing k).busy = true ∧ (x.hw.xing k).pending = (s.hw.xing k).pending ∧
    x.hw.regs = s.hw.regs)) ∧
  (∀ (s : State) (k : Nat), s.hw.live = true → k < 8 → (s.hw.xing k).busy = true → (s.hw.xing k).pending < 255 →
    Completes (.xingRequest k) s (fun x => (x.hw.xing k).busy = true ∧
    (x.hw.xing k).pending = (s.hw.xing k).pending + 1 ∧ x.hw.regs = s.hw.regs)) ∧
  (∀ (s : State) (k : Nat), s.hw.live = true → k < 8 → (s.hw.xing k).busy = true → (s.hw.xing k).pending = 255 →
    Completes (.xingRequest k) s (fun x => (x.hw.xing k).busy = true ∧ (x.hw.xing k).pending = 255 ∧
    x.hw.on (xingOvr k) = true)) ∧
  (∀ (s : State) (k : Nat), s.hw.live = true → k < 8 → s.hw.ackSeen k = true → 0 < (s.hw.xing k).pending →
    Completes (.xingAck k) s (fun x => (x.hw.xing k).busy = true ∧ (x.hw.xing k).pending = (s.hw.xing k).pending - 1)) ∧
  (∀ (s : State) (k : Nat), s.hw.live = true → k < 8 → s.hw.ackSeen k = true → (s.hw.xing k).pending = 0 →
    Completes (.xingAck k) s (fun x => x.hw.xing k = crossing0)) ∧
  (∀ (s : State) (qu : Nat), s.hw.live = true → qu < 9 →
    Completes (.queueResync qu 0) s (fun x => x.hw.get CLK_RESYNC_RESYNCS = satAdd 32 (s.hw.get CLK_RESYNC_RESYNCS) 1)) ∧
  (∀ (s : State) (qu : Nat), s.hw.live = true → (qu = 3 ∨ qu = 4) →
    Completes (.queueResync qu 1) s (fun x => x.hw.get CLK_RESYNC_RESYNCS = satAdd 32 (s.hw.get CLK_RESYNC_RESYNCS) 1)) ∧
  (∀ (s : State) (qu : Nat), s.hw.live = true → qu < 9 → qu ≠ 3 → qu ≠ 4 →
    Completes (.queueResync qu 1) s (fun x => x = s))

/-- A slot of a served position or core ends once its time is reached, after every earlier one. A regular conversion is
done and its code flies with its channel; position slack goes to the running injected list, or to the calibration list
where the slot is forced or no injected claim may take it; a hold of a strobe run waits for a ramp cycle that has
given none (cycles counted from the start point of the run, the model's choice, log 202); a core under calibration
takes its own claims; a slot that no conversion claims passes. A sample word that arrives as sent takes the codes that
have left their cores, at most three of one frame, and its last regular code stands in the raw-sample store; with a
wrong CRC its samples are lost and STITCH_CRC is raised. A status or idle word that arrives as sent changes nothing;
one with a wrong CRC is counted and raises STITCH_CRC. At a frame boundary a relief that need not wait, or for which
no injected list waits, gives its position to the spare core and calibration the old one; a core past its residue
limit, or whose clock is lost while a conversion is due, is marked failed with role 3 and raises ADC_CORE_FAIL;
firmware hands a failed core to calibration. -/
def Obligations.SlotAndStitch : Prop :=
  (∀ (s : State) (pos slot b : Nat) (code : BitVec 16) (ovr : Bool) (resid : Nat) (j : SlotJob), s.hw.live = true →
    s.hw.convOn (pos) = true → s.hw.smp.lastBoundary = some b → slot < s.hw.slots → s.hw.slotAt (pos) ≤ slot →
    s.hw.reached (b + 16 * (slot + 1) * nsUnit) = true → pos < 8 → s.hw.dueBefore b pos slot = false →
    s.hw.adc.jobs.find? (fun y => decide (y.pos = pos ∧ y.slot = slot)) = some j →
    Completes (.slotSample pos slot code ovr resid) s (fun x => x.hw.slotAt pos = slot + 1 ∧
    x.hw.adc.flight.length = s.hw.adc.flight.length + 1 ∧ x.hw.adc.flight.getLast?.map (fun f => (f.what, f.code,
    f.ovr, f.instant)) = some (ConvFor.regular j.ch, code, ovr, b + 16 * (slot + 1) * nsUnit) ∧
    x.hw.adc.jobs.all (fun y => y.done || decide (y.pos ≠ pos ∨ y.slot ≠ slot)) = true)) ∧
  (∀ (s : State) (pos slot b : Nat) (code : BitVec 16) (ovr : Bool) (resid : Nat) (r : ListRun) (k : ConvFor) (rest : List ConvFor),
    s.hw.live = true → s.hw.convOn (pos) = true → s.hw.smp.lastBoundary = some b → slot < s.hw.slots →
    s.hw.slotAt (pos) ≤ slot → s.hw.reached (b + 16 * (slot + 1) * nsUnit) = true → pos < 8 →
    s.hw.dueBefore b pos slot = false → s.hw.adc.jobs.find? (fun y => decide (y.pos = pos ∧ y.slot = slot)) = none →
    s.hw.coreOf pos ≠ 15 → s.hw.adc.run = some r → r.claims = k :: rest → mayClaim b slot r.start = true →
    (s.hw.forcedSlot pos slot = false ∨ s.hw.calNext b slot 15 = none) →
    Completes (.slotSample pos slot code ovr resid) s (fun x => x.hw.slotAt pos = slot + 1 ∧
    x.hw.adc.flight.getLast?.map (fun f => (f.what, f.code, f.ovr, f.instant)) = some (k, code, ovr,
    b + 16 * (slot + 1) * nsUnit) ∧ (rest ≠ [] ∨ r.ended = false → x.hw.adc.run = some { r with claims := rest }))) ∧
  (∀ (s : State) (pos slot b : Nat) (code : BitVec 16) (ovr : Bool) (resid : Nat) (r : CalRun) (k : CalClaim),
    s.hw.live = true → s.hw.convOn (pos) = true → s.hw.smp.lastBoundary = some b → slot < s.hw.slots →
    s.hw.slotAt (pos) ≤ slot → s.hw.reached (b + 16 * (slot + 1) * nsUnit) = true → pos < 8 →
    s.hw.dueBefore b pos slot = false → s.hw.adc.jobs.find? (fun y => decide (y.pos = pos ∧ y.slot = slot)) = none →
    s.hw.coreOf pos ≠ 15 → s.hw.adc.calRun = some r → s.hw.calNext b slot 15 = some k →
    mayClaim b slot r.start = true → (s.hw.forcedSlot pos slot = true ∨ s.hw.adc.run = none) →
    Completes (.slotSample pos slot code ovr resid) s (fun x => x.hw.slotAt pos = slot + 1 ∧
    x.hw.adc.flight.getLast?.map (fun f => (f.what, f.code, f.ovr, f.instant)) = some (ConvFor.cal k.aux k.src k.acc,
    code, ovr, b + 16 * (slot + 1) * nsUnit))) ∧
  (∀ (s : State) (c slot b : Nat) (code : BitVec 16) (ovr : Bool) (resid : Nat) (k : CalClaim), s.hw.live = true →
    s.hw.convOn (8 + c) = true → s.hw.smp.lastBoundary = some b → slot < s.hw.slots → s.hw.slotAt (8 + c) ≤ slot →
    s.hw.reached (b + 16 * (slot + 1) * nsUnit) = true → c < 9 → s.hw.roleOf c = 2 → s.hw.adc.calRun.isSome = true →
    s.hw.calNext b slot c = some k →
    Completes (.slotSample (8 + c) slot code ovr resid) s (fun x => x.hw.slotAt (8 + c) = slot + 1 ∧
    x.hw.adc.flight.getLast?.map (fun f => (f.what, f.code, f.ovr, f.instant)) = some (ConvFor.cal k.aux k.src k.acc,
    code, ovr, b + 16 * (slot + 1) * nsUnit))) ∧
  (∀ (s : State) (pos slot b : Nat) (code : BitVec 16) (ovr : Bool) (resid : Nat), s.hw.live = true →
    s.hw.convOn (pos) = true → s.hw.smp.lastBoundary = some b → slot < s.hw.slots → s.hw.slotAt (pos) ≤ slot →
    s.hw.reached (b + 16 * (slot + 1) * nsUnit) = true → pos < 8 → s.hw.dueBefore b pos slot = false →
    s.hw.adc.jobs.find? (fun y => decide (y.pos = pos ∧ y.slot = slot)) = none → s.hw.coreOf pos ≠ 15 →
    s.hw.adc.run = none → s.hw.calNext b slot 15 = none →
    Completes (.slotSample pos slot code ovr resid) s (fun x => x = { s with hw := s.hw.setSlotAt pos (slot + 1) })) ∧
  (∀ (s : State) (f : Flight), s.hw.live = true → s.hw.coreOn = true → s.hw.clk.stitch.mode = .on →
    s.hw.adc.flight.head? = some f → s.hw.reached (f.instant + 192 * nsUnit) = true → (f.frame ≠ s.hw.adc.wordFrame ∨
    s.hw.adc.frameLost = false ∧ s.hw.adc.sendSeq % 64 = (s.hw.adc.wantSeq + s.hw.adc.lostRun) % 64) →
    Completes (.stitchWordReceive .sample 0) s (fun x => x.hw.adc.flight = s.hw.adc.flight.drop ((s.hw.adc.flight.takeWhile (fun y => decide (y.frame = f.frame) && s.hw.reached (y.instant + 192 * nsUnit))).take 3).length ∧
    x.hw.adc.lostRun = 0 ∧ x.hw.adc.wordFrame = f.frame)) ∧
  (∀ (s : State) (f g : Flight) (ch : Nat) (y : Hold), s.hw.live = true → s.hw.coreOn = true →
    s.hw.clk.stitch.mode = .on → s.hw.adc.flight.head? = some f → s.hw.reached (f.instant + 192 * nsUnit) = true →
    (f.frame ≠ s.hw.adc.wordFrame ∨ s.hw.adc.frameLost = false ∧
    s.hw.adc.sendSeq % 64 = (s.hw.adc.wantSeq + s.hw.adc.lostRun) % 64) →
    ((s.hw.adc.flight.takeWhile (fun y => decide (y.frame = f.frame) && s.hw.reached (y.instant + 192 * nsUnit))).take 3).getLast? = some g →
    g.what = .regular ch → g.hold = some y →
    Completes (.stitchWordReceive .sample 0) s (fun x => (x.hw.rawCell ch g.frame).map (fun c => (c.frame, c.lost,
    c.code, c.ovr, c.flag, c.hold)) = some (g.frame, false, g.code, g.ovr, g.flag, y))) ∧
  (∀ (s : State) (f g : Flight) (ch : Nat) (y : Hold) (err : Word72), s.hw.live = true → s.hw.coreOn = true →
    s.hw.clk.stitch.mode = .on → s.hw.adc.flight.head? = some f → s.hw.reached (f.instant + 192 * nsUnit) = true →
    err.toNat % 2 ^ 64 = 0 → err ≠ 0 →
    ((s.hw.adc.flight.takeWhile (fun y => decide (y.frame = f.frame) && s.hw.reached (y.instant + 192 * nsUnit))).take 3).getLast? = some g →
    g.what = .regular ch → g.hold = some y →
    Completes (.stitchWordReceive .sample err) s (fun x => x.hw.adc.flight = s.hw.adc.flight.drop ((s.hw.adc.flight.takeWhile (fun y => decide (y.frame = f.frame) && s.hw.reached (y.instant + 192 * nsUnit))).take 3).length ∧
    (x.hw.rawCell ch g.frame).map (fun c => (c.frame, c.lost)) = some (g.frame, true) ∧
    x.hw.on (statusBit srcStitchCrc) = true)) ∧
  (∀ (s : State) (k : StitchKind), s.hw.live = true → s.hw.coreOn = true → s.hw.clk.stitch.mode = .on → k ≠ .sample →
    Completes (.stitchWordReceive k 0) s (fun x => x = s)) ∧
  (∀ (s : State) (k : StitchKind) (err : Word72), s.hw.live = true → s.hw.coreOn = true →
    s.hw.clk.stitch.mode = .on → k ≠ .sample → err.toNat % 2 ^ 64 = 0 → err ≠ 0 →
    Completes (.stitchWordReceive k err) s (fun x => x.hw.adc.lostWords = min 65535 (s.hw.adc.lostWords + 1) ∧
    x.hw.on (statusBit srcStitchCrc) = true ∧ x.hw.adc.flight = s.hw.adc.flight)) ∧
  (∀ (s : State) (pos b n : Nat) (r : CoreRelief), s.hw.live = true → pos < 8 → s.hw.adc.relief = some r →
    s.hw.boundaryNow = some b → r.pos = pos → r.active = false → (r.since = none ∨ s.hw.listsWaiting = false ∨
    s.hw.on ADC_SLACK_FORCING = true) →
    n = (if s.hw.roleOf r.newCore = 1 then r.newCore else s.hw.spareCore.getD 15) → n < 9 → r.oldCore < 9 →
    s.hw.coreOf pos = r.oldCore → Completes (.coreRelief pos) s (fun x => x.hw.coreOf pos = n ∧
    x.hw.roleOf r.oldCore = 2 ∧ (n ≠ r.oldCore → x.hw.roleOf n = 0) ∧
    x.hw.adc.relief = some { r with newCore := n, active := true })) ∧
  (∀ (s : State) (c : Nat) (clk : Bool), s.hw.live = true → c < 9 → s.hw.coreFails c clk = true →
    Completes (.adcCoreFail c clk) s (fun x => x.hw.on (ADC_CORE_STAT_FAILED c) = true ∧ x.hw.roleOf c = 3 ∧
    x.hw.on (statusBit srcAdcCoreFail) = true ∧ x.hw.adc.badCores.contains c = true)) ∧
  (∀ (s : State) (q : Requester) (c : Nat), s.hw.writable q = true → c < 9 →
    s.hw.on (ADC_CORE_STAT_FAILED c) = true → s.hw.adc.rehab.contains c = false → s.hw.roleOf c = 3 →
    Completes (.adcCoreRehab q c) s (fun x => x.hw.adc.rehab = s.hw.adc.rehab ++ [c] ∧ x.hw.regs = s.hw.regs))

/-- Writing ADC_HK_CTL restarts its timer or stops it; its expiry makes the list due at the next boundary; START of an
idle list makes it pending, of another one sets AGAIN, and then counts merges; with none running the lowest pending
enabled list starts; a deadline that passes sets LATE and raises INJ_DEFERRED; starvation of the calibration list, or
of a substitution that waits, forces a slot from the next boundary and raises CAL_STARVED. -/
def Obligations.InjectedLists : Prop :=
  (∀ (s : State) (q : Requester) (v : Word), s.hw.writable q = true →
    Completes (.hkCtlWrite q v) s (fun x => x.hw.adc.hkExpiry = (if bits v 15 0 = 0 then none else some (s.hw.ns + 1000000 * bits v 15 0)) ∧
    x.hw.get ADC_HK_CTL_LIST = bits v 19 16)) ∧
  (∀ (s : State) (t : Nat), s.hw.live = true → s.hw.adc.hkExpiry = some t → s.hw.due t = true →
    Completes (.hkTimerExpire) s (fun x => x.hw.adc.hkDue = s.hw.adc.hkDue ++ [s.hw.get ADC_HK_CTL_LIST] ∧
    x.hw.adc.hkExpiry = (if s.hw.get ADC_HK_CTL_INTERVAL_MS = 0 then none else some (t + 1000000 * s.hw.get ADC_HK_CTL_INTERVAL_MS)) ∧
    (x.hw.xing 3).busy = true)) ∧
  (∀ (s : State) (q : Requester) (l : Nat) (v : Word), s.hw.writable q = true → l < 16 → natBit v.toNat 31 = true →
    s.hw.ilState l = 0 → Completes (.ilStart q l v) s (fun x => x.hw.ilState l = 1 ∧ storeGet (fun _ => (0,
    0)) x.hw.adc.ilAt l = (s.hw.ns, s.hw.time.now))) ∧
  (∀ (s : State) (q : Requester) (l : Nat) (v : Word), s.hw.writable q = true → l < 16 → natBit v.toNat 31 = true →
    s.hw.ilState l ≠ 0 → s.hw.on (ADC_IL_STAT_AGAIN l) = false →
    Completes (.ilStart q l v) s (fun x => x.hw.on (ADC_IL_STAT_AGAIN l) = true ∧ x.hw.ilState l = s.hw.ilState l)) ∧
  (∀ (s : State) (q : Requester) (l : Nat) (v : Word), s.hw.writable q = true → l < 16 → natBit v.toNat 31 = true →
    s.hw.ilState l ≠ 0 → s.hw.on (ADC_IL_STAT_AGAIN l) = true →
    Completes (.ilStart q l v) s (fun x => x.hw.get (ADC_IL_STAT_MERGED l) = satAdd ((ADC_IL_STAT_MERGED l).hi + 1 - (ADC_IL_STAT_MERGED l).lo) (s.hw.get (ADC_IL_STAT_MERGED l)) 1)) ∧
  (∀ (s : State) (l : Nat), s.hw.live = true → s.hw.coreOn = true → s.hw.adc.run = none →
    (List.range 16).find? (fun k => decide (s.hw.ilState k = 1) && s.hw.on (SEQ_IL_RGN_EN k)) = some l →
    Completes (.ilRunStart) s (fun x => x.hw.ilState l = 2 ∧ x.hw.adc.run.map (fun r => (r.list, r.pc, r.claims,
    r.ended)) = some (l, s.hw.get (SEQ_IL_RGN_BASE l), [], false))) ∧
  (∀ (s : State) (l : Nat), s.hw.live = true → l < 16 → s.hw.get (ADC_IL_CTL_DEADLINE_US l) ≠ 0 →
    s.hw.ilState l ≠ 0 → s.hw.due ((storeGet (fun _ => (0,
    0)) s.hw.adc.ilAt l).1 + 1000 * s.hw.get (ADC_IL_CTL_DEADLINE_US l)) = true →
    storeGet (fun _ => false) s.hw.adc.ilLate l = false →
    Completes (.ilDeadline l) s (fun x => x.hw.on (ADC_IL_STAT_LATE l) = true ∧
    x.hw.on (statusBit srcInjDeferred) = true)) ∧
  (∀ (s : State), s.hw.live = true → s.hw.coreOn = true → s.hw.adc.forceNext = false →
    s.hw.on ADC_SLACK_FORCING = false → s.hw.due (s.hw.adc.calIssued + msNs (s.hw.get CAL_STARVE_TO_TO_MS)) = true →
    Completes (.calStarved) s (fun x => x.hw.adc.forceNext = true ∧ x.hw.on (statusBit srcCalStarved) = true)) ∧
  (∀ (s : State) (t : Nat), s.hw.live = true → s.hw.coreOn = true → s.hw.adc.forceNext = false →
    s.hw.on ADC_SLACK_FORCING = false → (s.hw.cal.feSince = some t ∨
    s.hw.adc.relief.any (fun r => !r.active && decide (r.since = some t)) = true) →
    s.hw.due (t + msNs (s.hw.get CAL_STARVE_TO_TO_MS)) = true →
    Completes (.calStarved) s (fun x => x.hw.adc.forceNext = true ∧ x.hw.on (statusBit srcCalStarved) = true))

/-- An entry that the regular walk may issue moves the walk to the next entry, except where a LOOP or JUMP says otherwise.
CONV, which the field die reads in its mirror, adds its conversions; FEED offers every stored raw sample that it
names, and with a LAG that reaches before the first frame leaves the streams; WRITE empties what the chains of its
streams have completed; WAIT holds the walk until its cycle, or not where that is past; when that cycle comes the walk
goes on; FEND ends the frame. In every walk: NOP moves it to the next entry, and JUMP to its target, with the loop
stack, the streams, the codes in flight and time as they were; LOOP whose entry is not on top of the stack pushes
itself and goes back to its target, or goes on where N is 1; with passes left it counts down and goes back; with none
left it pops and goes on; a fifth nested loop is an illegal step, which stops the regular walk and ends the run of a
list. -/
def Obligations.RegularWalk : Prop :=
  (∀ (s : State) (u : Word72) (pos slot n ch stride : Nat),
    s.hw.issuesAs .regular u (.conv pos slot n ch stride) (s.hw.seq.pc + 1, s.hw.seq.stack) = true →
    s.hw.mirrored .regular s.hw.seq.pc = some (.conv pos slot n ch stride) →
    Completes (.conv u) s (fun x => x.hw.placeOf .regular = (s.hw.seq.pc + 1, s.hw.seq.stack) ∧
    x.hw.adc.jobs = s.hw.adc.jobs ++ (List.range n).map (fun i => { pos := pos, slot := slot + i, ch := ch + i * stride, done := false }))) ∧
  (∀ (s : State) (u : Word72) (lag ch st n : Nat), s.hw.issuesAs .regular u (.feed lag ch st n) (s.hw.seq.pc + 1,
    s.hw.seq.stack) = true → lag ≤ s.hw.seq.frame →
    Completes (.feed u) s (fun x => x.hw.placeOf .regular = (s.hw.seq.pc + 1, s.hw.seq.stack) ∧
    (List.range n).all (fun i => (s.hw.rawCell (ch + i) (s.hw.seq.frame - lag)).all (fun c => c.lost || decide (c.frame ≠ s.hw.seq.frame - lag) || decide (x.hw.rawCell (ch + i) (s.hw.seq.frame - lag) = some { c with offered := true }))) = true)) ∧
  (∀ (s : State) (u : Word72) (lag ch st n : Nat), s.hw.issuesAs .regular u (.feed lag ch st n) (s.hw.seq.pc + 1,
    s.hw.seq.stack) = true → s.hw.seq.frame < lag →
    Completes (.feed u) s (fun x => x.hw.placeOf .regular = (s.hw.seq.pc + 1, s.hw.seq.stack) ∧ x.hw.str = s.hw.str)) ∧
  (∀ (s : State) (u : Word72) (st n i : Nat), s.hw.issuesAs .regular u (.write st n) (s.hw.seq.pc + 1,
    s.hw.seq.stack) = true → i < n → Completes (.write u) s (fun x => x.hw.placeOf .regular = (s.hw.seq.pc + 1,
    s.hw.seq.stack) ∧ (x.hw.chain (st + i)).ready = [])) ∧
  (∀ (s : State) (u : Word72) (t b : Nat), s.hw.issuesAs .regular u (.wait t) (s.hw.seq.pc + 1,
    s.hw.seq.stack) = true → s.hw.smp.lastBoundary = some b → s.hw.time.now < b + t * nsUnit →
    Completes (.wait u) s (fun x => x.hw.placeOf .regular = (s.hw.seq.pc + 1, s.hw.seq.stack) ∧
    x.hw.seq.holdUntil = some (b + t * nsUnit))) ∧
  (∀ (s : State) (u : Word72) (t b : Nat), s.hw.issuesAs .regular u (.wait t) (s.hw.seq.pc + 1,
    s.hw.seq.stack) = true → s.hw.smp.lastBoundary = some b → b + t * nsUnit ≤ s.hw.time.now →
    Completes (.wait u) s (fun x => x.hw.placeOf .regular = (s.hw.seq.pc + 1, s.hw.seq.stack) ∧
    x.hw.seq.holdUntil = none)) ∧
  (∀ (s : State) (t : Nat), s.hw.live = true → s.hw.coreOn = true → s.hw.seq.holdUntil = some t →
    s.hw.reached t = true →
    Completes (.waitEnd) s (fun x => x = { s with hw := { s.hw with seq := { s.hw.seq with holdUntil := none } } })) ∧
  (∀ (s : State) (u : Word72), s.hw.issuesAs .regular u (.fend) (s.hw.seq.pc + 1, s.hw.seq.stack) = true →
    Completes (.fend u) s (fun x => x.hw.placeOf .regular = (s.hw.seq.pc + 1, s.hw.seq.stack) ∧
    x.hw.seq.frameDone = true)) ∧
  (∀ (s : State) (w : Walk) (u : Word72), s.hw.issuesAs w u (.nop) ((s.hw.placeOf w).1 + 1,
    (s.hw.placeOf w).2) = true → Completes (.nop w u) s (fun x => x.hw.placeOf w = ((s.hw.placeOf w).1 + 1,
    (s.hw.placeOf w).2) ∧ x.hw.str = s.hw.str ∧ x.hw.adc.flight = s.hw.adc.flight ∧ x.hw.time = s.hw.time)) ∧
  (∀ (s : State) (w : Walk) (u : Word72) (t : Nat), s.hw.issuesAs w u (.jump t) (t, (s.hw.placeOf w).2) = true →
    Completes (.jump w u) s (fun x => x.hw.placeOf w = (t, (s.hw.placeOf w).2) ∧ x.hw.str = s.hw.str ∧
    x.hw.adc.flight = s.hw.adc.flight ∧ x.hw.time = s.hw.time)) ∧
  (∀ (s : State) (w : Walk) (u : Word72) (n t : Nat), 1 < n → (s.hw.placeOf w).2.length < 4 →
    (s.hw.placeOf w).2.head?.any (fun y => decide (y.1 = (s.hw.placeOf w).1)) = false →
    s.hw.issuesAs w u (.loop n t) (t, ((s.hw.placeOf w).1, n - 2) :: (s.hw.placeOf w).2) = true →
    Completes (.loop w u) s (fun x => x.hw.placeOf w = (t, ((s.hw.placeOf w).1, n - 2) :: (s.hw.placeOf w).2))) ∧
  (∀ (s : State) (w : Walk) (u : Word72) (t : Nat),
    (s.hw.placeOf w).2.head?.any (fun y => decide (y.1 = (s.hw.placeOf w).1)) = false →
    s.hw.issuesAs w u (.loop 1 t) ((s.hw.placeOf w).1 + 1, (s.hw.placeOf w).2) = true →
    Completes (.loop w u) s (fun x => x.hw.placeOf w = ((s.hw.placeOf w).1 + 1, (s.hw.placeOf w).2))) ∧
  (∀ (s : State) (w : Walk) (u : Word72) (n t k : Nat) (st : List (Nat × Nat)),
    (s.hw.placeOf w).2 = ((s.hw.placeOf w).1, k + 1) :: st → s.hw.issuesAs w u (.loop n t) (t, ((s.hw.placeOf w).1,
    k) :: st) = true → Completes (.loop w u) s (fun x => x.hw.placeOf w = (t, ((s.hw.placeOf w).1, k) :: st))) ∧
  (∀ (s : State) (w : Walk) (u : Word72) (n t : Nat) (st : List (Nat × Nat)),
    (s.hw.placeOf w).2 = ((s.hw.placeOf w).1, 0) :: st → s.hw.issuesAs w u (.loop n t) ((s.hw.placeOf w).1 + 1,
    st) = true → Completes (.loop w u) s (fun x => x.hw.placeOf w = ((s.hw.placeOf w).1 + 1, st))) ∧
  (∀ (s : State) (w : Walk) (u : Word72) (n t : Nat), s.hw.live = true → s.hw.walkReady w = true →
    s.hw.nextEntry w u = .entry (.loop n t) → (s.hw.placeOf w).2.length = 4 → 1 < n →
    (s.hw.placeOf w).2.head?.any (fun y => decide (y.1 = (s.hw.placeOf w).1)) = false →
    Completes (.loop w u) s (fun x => x.hw.on SEQ_STATUS_ILLEGAL = true ∧
    x.hw.on (statusBit srcSeqIllegalStep) = true ∧ (w = .regular → x.hw.seq.stopped = true) ∧ (w = .list →
    x.hw.adc.run.all (fun r => r.ended) = true) ∧ (w = .cal → x.hw.adc.calRun.all (fun r => r.ended) = true)))

/-- AUXC and CCONV, which the field die reads in its mirror, claim their conversions after the claims that are left; at
each entry of the calibration list its time is kept; LEND of an injected list with no claims left leaves the list
idle, or pending once more after AGAIN, and with claims left lets the run go on to serve them; LEND of the calibration
list, once its claims are served and arrived, ends a run that serves no track. -/
def Obligations.ListEntries : Prop :=
  (∀ (s : State) (u : Word72) (src : Nat) (stream : Option Nat),
    s.hw.issuesAs .list u (.auxc src stream) ((s.hw.placeOf .list).1 + 1, (s.hw.placeOf .list).2) = true →
    s.hw.mirrored .list (s.hw.placeOf .list).1 = some (.auxc src stream) →
    Completes (.auxc u) s (fun x => x.hw.placeOf .list = ((s.hw.placeOf .list).1 + 1, (s.hw.placeOf .list).2) ∧
    x.hw.adc.run.map ListRun.claims = s.hw.adc.run.map (fun r => r.claims ++ [ConvFor.aux r.list src stream]))) ∧
  (∀ (s : State) (u : Word72) (aux : Bool) (src core n acc : Nat),
    s.hw.issuesAs .cal u (.cconv aux src core n acc) ((s.hw.placeOf .cal).1 + 1, (s.hw.placeOf .cal).2) = true →
    s.hw.mirrored .cal (s.hw.placeOf .cal).1 = some (.cconv aux src core n acc) →
    Completes (.cconv u) s (fun x => x.hw.placeOf .cal = ((s.hw.placeOf .cal).1 + 1, (s.hw.placeOf .cal).2) ∧
    x.hw.adc.calIssued = s.hw.ns ∧
    x.hw.adc.calRun.map CalRun.claims = s.hw.adc.calRun.map (fun r => s.hw.calClaims ++ (List.range n).map (fun i => { aux := aux, src := src, acc := acc, core := core, entry := r.issued, first := decide (i = 0) })))) ∧
  (∀ (s : State) (u : Word72) (r : ListRun), s.hw.issuesAs .list u .lend ((s.hw.placeOf .list).1 + 1,
    (s.hw.placeOf .list).2) = true → s.hw.mirrored .list (s.hw.placeOf .list).1 = some .lend → s.hw.adc.run = some r →
    r.claims = [] → s.hw.on (ADC_IL_STAT_AGAIN r.list) = false → r.list < 16 →
    Completes (.lend .list u) s (fun x => x.hw.adc.run = none ∧ x.hw.ilState r.list = 0)) ∧
  (∀ (s : State) (u : Word72) (r : ListRun), s.hw.issuesAs .list u .lend ((s.hw.placeOf .list).1 + 1,
    (s.hw.placeOf .list).2) = true → s.hw.mirrored .list (s.hw.placeOf .list).1 = some .lend → s.hw.adc.run = some r →
    r.claims = [] → s.hw.on (ADC_IL_STAT_AGAIN r.list) = true → r.list < 16 →
    Completes (.lend .list u) s (fun x => x.hw.adc.run = none ∧ x.hw.ilState r.list = 1 ∧
    x.hw.on (ADC_IL_STAT_AGAIN r.list) = false)) ∧
  (∀ (s : State) (u : Word72) (r : ListRun), s.hw.issuesAs .list u .lend ((s.hw.placeOf .list).1 + 1,
    (s.hw.placeOf .list).2) = true → s.hw.mirrored .list (s.hw.placeOf .list).1 = some .lend → s.hw.adc.run = some r →
    r.claims ≠ [] →
    Completes (.lend .list u) s (fun x => x.hw.adc.run = some { r with pc := r.pc + 1, ended := true })) ∧
  (∀ (s : State) (u : Word72), s.hw.issuesAs .cal u .lend ((s.hw.placeOf .cal).1 + 1, (s.hw.placeOf .cal).2) = true →
    s.hw.calClaims = [] → s.hw.calInFlight = false → s.hw.cal.runFe = false → s.hw.cal.runAdc = false →
    Completes (.lend .cal u) s (fun x => x.hw.adc.calRun = none ∧ x.hw.adc.calIssued = s.hw.ns))

/-- A completed locate of a stopped walk gives it its place for the next boundary; the first word of a window entry is
held, and the second stages the entry, unless the entry is sealed, which is refused as busy; the background check
reads the next entry, corrects and counts a single-bit error, leaves a good entry, and raises SEQ_TABLE_CHECKSUM for
an uncorrectable one. -/
def Obligations.TableCare : Prop :=
  (∀ (s : State) (b : Nat) (p : Place), s.hw.live = true → s.hw.seq.running = true → s.hw.seq.stopped = true →
    s.hw.on SEQ_STATUS_LOCATING = true → s.hw.seq.located = none → s.hw.smp.lastBoundary = some b →
    s.hw.locate s.hw.smp.per (s.hw.framePos s.hw.smp.per s.hw.smp.ph (s.hw.boundaryAfter b)) = some p →
    Completes (.locateComplete) s (fun x => x.hw.seq.located = some p ∧ x.hw.on SEQ_STATUS_LOCATING = false ∧
    x.hw.seq.live = s.hw.seq.live)) ∧
  (∀ (s : State) (q : Requester) (a : Nat) (v : Word), s.hw.writable q = true → isTableWindow a = true → a % 8 = 0 →
    Completes (.seqTableWrite q a v) s (fun x => x.status = 0 ∧
    x.hw = s.hw.setHeld q (entryKey (s.hw.windowEntry q a)) (some v))) ∧
  (∀ (s : State) (q : Requester) (a : Nat) (v : Word), s.hw.writable q = true → isTableWindow a = true → a % 8 = 4 →
    s.hw.sealedEntry (s.hw.windowEntry q a) = false → Completes (.seqTableWrite q a v) s (fun x => x.status = 0 ∧
    x.hw.stagedEntry (s.hw.windowEntry q a) = some (word64 (s.hw.heldOr q (entryKey (s.hw.windowEntry q a)) (lo32 ((s.hw.stagedEntry (s.hw.windowEntry q a)).getD (entryData s.hw.seq.live (s.hw.windowEntry q a))))) v) ∧
    x.hw.seq = s.hw.seq)) ∧
  (∀ (s : State) (q : Requester) (a : Nat) (v : Word), s.hw.writable q = true → isTableWindow a = true → a % 8 = 4 →
    s.hw.sealedEntry (s.hw.windowEntry q a) = true → Completes (.seqTableWrite q a v) s (fun x => x.status = 1 ∧
    x.hw.on SEQ_STATUS_WR_REFUSED = true ∧ x.hw.epoch = s.hw.epoch)) ∧
  (∀ (s : State) (u : Word72) (k : Word72), s.hw.live = true → s.hw.coreOn = true → s.hw.on SEQ_CTL_SCRUB_EN = true →
    s.hw.seq.scrubPos < 8191 → secCorrect (codedAt s.hw.seq.live s.hw.seq.scrubPos ^^^ u) = some k →
    k ≠ codedAt s.hw.seq.live s.hw.seq.scrubPos ^^^ u →
    Completes (.seqScrubRead u) s (fun x => x.hw.seq.scrubPos = s.hw.seq.scrubPos + 1 ∧
    codedAt x.hw.seq.live s.hw.seq.scrubPos = k ∧
    x.hw.get SEQ_SCRUB_CE_COUNT = satAdd ((SEQ_SCRUB_CE_COUNT).hi + 1 - (SEQ_SCRUB_CE_COUNT).lo) (s.hw.get SEQ_SCRUB_CE_COUNT) 1)) ∧
  (∀ (s : State) (u : Word72), s.hw.live = true → s.hw.coreOn = true → s.hw.on SEQ_CTL_SCRUB_EN = true →
    s.hw.seq.scrubPos < 8191 →
    secCorrect (codedAt s.hw.seq.live s.hw.seq.scrubPos ^^^ u) = some (codedAt s.hw.seq.live s.hw.seq.scrubPos ^^^ u) →
    Completes (.seqScrubRead u) s (fun x => x.hw.seq.scrubPos = s.hw.seq.scrubPos + 1 ∧
    codedAt x.hw.seq.live s.hw.seq.scrubPos = codedAt s.hw.seq.live s.hw.seq.scrubPos ^^^ u ∧ x.hw.regs = s.hw.regs)) ∧
  (∀ (s : State) (u : Word72), s.hw.live = true → s.hw.coreOn = true → s.hw.on SEQ_CTL_SCRUB_EN = true →
    s.hw.seq.scrubPos < 8191 → secCorrect (codedAt s.hw.seq.live s.hw.seq.scrubPos ^^^ u) = none →
    Completes (.seqScrubRead u) s (fun x => x.hw.seq.scrubPos = s.hw.seq.scrubPos + 1 ∧
    x.hw.on SEQ_STATUS_CHKSUM = true ∧ x.hw.on (statusBit srcSeqTableChecksum) = true))

/-- A swap request of an enabled stream to a good bank starts its fade, where none runs and the bank is not the active
one, and is queued in place of an older one where a fade runs; a request is ignored where swaps are not enabled, the
response is marked bad, or no fade runs and the bank is active; a response that reads wrong twice as a request selects
it is marked, raises FILTER_ROM_CHECK, and the request is ignored. The background check goes to the next store; two
mismatches mark a response, or the half-band set, and raise FILTER_ROM_CHECK; otherwise no register changes. -/
def Obligations.FilterSwaps : Prop :=
  (∀ (s : State) (q : Requester) (v : Word), s.hw.writable q = true → natBit v.toNat 31 = true →
    s.hw.on (FIL_RESP_SWAP_EN (bits v 8 0)) = true → s.hw.on (FIL_STATUS_FADING (bits v 8 0)) = false →
    s.hw.respBad (respOf (s.hw.reg (FIL_RESP (bits v 8 0))) (bits v 16 16)) = false →
    (bits v 16 16) ≠ s.hw.activeBank (bits v 8 0) →
    Completes (.filSwap q v false) s (fun x => (x.hw.chain (bits v 8 0)).fade = some ((bits v 16 16), 0) ∧
    x.hw.on (FIL_STATUS_FADING (bits v 8 0)) = true)) ∧
  (∀ (s : State) (q : Requester) (v : Word), s.hw.writable q = true → natBit v.toNat 31 = true →
    s.hw.on (FIL_RESP_SWAP_EN (bits v 8 0)) = true → s.hw.on (FIL_STATUS_FADING (bits v 8 0)) = true →
    s.hw.respBad (respOf (s.hw.reg (FIL_RESP (bits v 8 0))) (bits v 16 16)) = false →
    Completes (.filSwap q v false) s (fun x => x.hw.on (FIL_STATUS_QUEUED (bits v 8 0)) = true ∧
    x.hw.get (FIL_STATUS_Q_BANK (bits v 8 0)) = (bits v 16 16) ∧ (s.hw.on (FIL_STATUS_QUEUED (bits v 8 0)) = true →
    x.hw.on (FIL_STATUS_REPLACED (bits v 8 0)) = true) ∧ x.hw.str = s.hw.str)) ∧
  (∀ (s : State) (q : Requester) (v : Word), s.hw.writable q = true → natBit v.toNat 31 = true →
    (s.hw.on (FIL_RESP_SWAP_EN (bits v 8 0)) = false ∨
    s.hw.respBad (respOf (s.hw.reg (FIL_RESP (bits v 8 0))) (bits v 16 16)) = true ∨
    s.hw.on (FIL_STATUS_FADING (bits v 8 0)) = false ∧ (bits v 16 16) = s.hw.activeBank (bits v 8 0)) →
    Completes (.filSwap q v false) s (fun x => x.hw.on (FIL_STATUS_IGNORED (bits v 8 0)) = true ∧ x.hw.str = s.hw.str)) ∧
  (∀ (s : State) (q : Requester) (v : Word), s.hw.writable q = true → natBit v.toNat 31 = true →
    s.hw.on (FIL_RESP_SWAP_EN (bits v 8 0)) = true →
    Completes (.filSwap q v true) s (fun x => x.hw.respBad (respOf (s.hw.reg (FIL_RESP (bits v 8 0))) (bits v 16 16)) = true ∧
    x.hw.on (FIL_STATUS_IGNORED (bits v 8 0)) = true ∧ x.hw.on (statusBit srcFilterRomCheck) = true)) ∧
  (∀ (s : State), s.hw.live = true → s.hw.coreOn = true → s.hw.due s.hw.str.romDue = true → s.hw.str.romNext < 64 →
    Completes (.romBackgroundCheck true true) s (fun x => x.hw.respBad s.hw.str.romNext = true ∧
    x.hw.str.romNext = s.hw.str.romNext + 1 ∧ x.hw.on (statusBit srcFilterRomCheck) = true)) ∧
  (∀ (s : State), s.hw.live = true → s.hw.coreOn = true → s.hw.due s.hw.str.romDue = true → s.hw.str.romNext = 64 →
    Completes (.romBackgroundCheck true true) s (fun x => x.hw.on FIL_LOAD_HB_BAD = true ∧ x.hw.str.romNext = 0 ∧
    x.hw.on (statusBit srcFilterRomCheck) = true)) ∧
  (∀ (s : State) (b1 b2 : Bool), s.hw.live = true → s.hw.coreOn = true → s.hw.due s.hw.str.romDue = true →
    (b1 && b2) = false → Completes (.romBackgroundCheck b1 b2) s (fun x => x.hw.regs = s.hw.regs ∧
    x.hw.str.romNext = (s.hw.str.romNext + 1) % 65 ∧ x.hw.str.romDue = s.hw.ns + 1000000))

/-- Where class 2 has room, a trigger is due or the run at RPOS ends at another era or epoch, one stream frame with the
words read from RPOS leaves for the stream, and RPOS passes them; the first pending loss run that nothing stands
before becomes a gap record of class 3; a run of placeholders at RPOS that has ended, or is due, becomes one; an
ERA_END or STOPPED record that waits first, whose positions have gone and are reported and with no output of its era
on the way, is queued. GO for a COUNT above 0 queues a request where fewer than four wait, and is refused as busy
otherwise with no other effect than REFUSED; one for COUNT 0 is ignored. The oldest request is served: one for an era
that is not kept is answered by one NOT_HELD record and leaves the queue; indices that the live path still owes are
counted in CLIPPED; delivered words that the buffer holds leave in one stream frame. -/
def Obligations.LivePath : Prop :=
  (∀ (s : State) (k n : Nat) (e : Era) (r : Hw × List Word × Bool), s.hw.live = true → s.hw.coreOn = true → k < 512 →
    (s.hw.stream k).eraAt (s.hw.stream k).rpos = some e →
    (s.hw.stream k).rpos < s.hw.takeLimit k (s.hw.stream k).rpos →
    isPlaceholder (s.hw.bufPeek k (s.hw.stream k).rpos) = false → (s.hw.stream k).leftOver = false →
    n = s.hw.runLen k (s.hw.stream k).rpos (s.hw.takeLimit k (s.hw.stream k).rpos) ((s.hw.stream k).frameMax (s.hw.stream k).rpos) →
    (s.hw.frameDue k = true ∨ s.hw.runTurns k n = true) → r = s.hw.bufRead k (s.hw.stream k).rpos n →
    s.hw.room 2 = true →
    Completes (.streamFrameBuild k) s (fun x => x.hw.net.egress.length = s.hw.net.egress.length + 1 ∧
    x.hw.net.egress.getLast?.map (fun d => (d.frame.ty, d.frame.cls, d.frame.dst, d.frame.flg,
    d.frame.payload)) = some (0x10, 2, s.hw.get STR_CTL_DEST, r.2.2,
    r.1.streamPayload k (s.hw.stream k).rpos false e r.2.1) ∧ (x.hw.stream k).rpos = (s.hw.stream k).rpos + n ∧
    (x.hw.stream k).wpos = (s.hw.stream k).wpos)) ∧
  (∀ (s : State) (k : Nat) (l : LossRun) (rest : List LossRun), s.hw.live = true → s.hw.coreOn = true → k < 512 →
    s.hw.trg.gaps = [] → (s.hw.stream k).losses.filter (fun y => (s.hw.stream k).lossFree y) = l :: rest →
    s.hw.room 3 = true →
    Completes (.gapRecordBuild k) s (fun x => x.hw.net.egress.length = s.hw.net.egress.length + 1 ∧
    x.hw.net.egress.getLast?.map (fun d => (d.frame.ty, d.frame.cls, d.frame.epoch, d.frame.payload)) = some (0x11, 3,
    l.epoch % 65536, gapBytes k l.era l.reason l.first l.count) ∧
    (x.hw.stream k).losses = (s.hw.stream k).losses.erase l)) ∧
  (∀ (s : State) (k n : Nat) (e : Era), s.hw.live = true → s.hw.coreOn = true → k < 512 → s.hw.trg.gaps = [] →
    (s.hw.stream k).losses.filter (fun y => (s.hw.stream k).lossFree y) = [] →
    (s.hw.stream k).eraAt (s.hw.stream k).rpos = some e → (s.hw.stream k).rpos < (s.hw.stream k).wpos →
    isPlaceholder (s.hw.bufPeek k (s.hw.stream k).rpos) = true → (s.hw.stream k).leftOver = false →
    n = s.hw.runLen k (s.hw.stream k).rpos (s.hw.stream k).wpos ((s.hw.stream k).wpos - (s.hw.stream k).rpos) →
    (s.hw.runEnded k n = true ∨ s.hw.frameDue k = true) → s.hw.room 3 = true →
    Completes (.gapRecordBuild k) s (fun x => x.hw.net.egress.length = s.hw.net.egress.length + 1 ∧
    x.hw.net.egress.getLast?.map (fun d => (d.frame.ty, d.frame.cls, d.frame.payload)) = some (0x11, 3,
    gapBytes k e.era (bits (s.hw.bufPeek k (s.hw.stream k).rpos) 31 8) (e.indexOf (s.hw.stream k).rpos) n) ∧
    (x.hw.stream k).rpos = (s.hw.stream k).rpos + n)) ∧
  (∀ (s : State) (k : Nat) (r : EndRecord) (rest : List EndRecord), s.hw.live = true → s.hw.coreOn = true → k < 512 →
    (s.hw.stream k).ends = r :: rest → r.reason = gapEraEnd → (r.left = true ∨ r.after ≤ (s.hw.stream k).rpos) →
    (s.hw.stream k).losses.all (fun l => decide (l.era ≠ r.era)) = true →
    (s.hw.chain k).ready.all (fun y => decide (y.era ≠ r.era)) = true →
    (s.hw.stream k).lone.all (fun y => decide (y.1.era ≠ r.era)) = true → s.hw.room 3 = true →
    Completes (.eraEndRecord k) s (fun x => x.hw.net.egress.length = s.hw.net.egress.length + 1 ∧
    x.hw.net.egress.getLast?.map (fun d => (d.frame.ty, d.frame.cls, d.frame.payload)) = some (0x11, 3,
    gapBytes k r.era gapEraEnd r.first 0) ∧ (x.hw.stream k).ends = rest)) ∧
  (∀ (s : State) (k : Nat) (r : EndRecord) (rest : List EndRecord), s.hw.live = true → s.hw.coreOn = true → k < 512 →
    (s.hw.stream k).ends = r :: rest → r.reason = gapStopped → (r.left = true ∨ r.after ≤ (s.hw.stream k).rpos) →
    (s.hw.stream k).losses.all (fun l => decide (l.era ≠ r.era)) = true →
    (s.hw.chain k).ready.all (fun y => decide (y.era ≠ r.era)) = true →
    (s.hw.stream k).lone.all (fun y => decide (y.1.era ≠ r.era)) = true → s.hw.room 3 = true →
    Completes (.stoppedRecord k) s (fun x => x.hw.net.egress.length = s.hw.net.egress.length + 1 ∧
    x.hw.net.egress.getLast?.map (fun d => (d.frame.ty, d.frame.cls, d.frame.payload)) = some (0x11, 3,
    gapBytes k r.era gapStopped r.first 0) ∧ (x.hw.stream k).ends = rest)) ∧
  (∀ (s : State) (q : Requester) (src : Nat) (v : Word), s.hw.writable q = true → natBit v.toNat 31 = true →
    (s.hw.heldOr q STR_BF_COUNT (s.hw.reg STR_BF_COUNT)) ≠ 0 → s.hw.str.backfill.length < 4 →
    Completes (.backfillSubmit q src v) s (fun x => x.status = 0 ∧
    x.hw.str.backfill.length = s.hw.str.backfill.length + 1 ∧ x.hw.str.backfill.getLast?.map (fun r => (r.stream,
    r.era, r.first, r.count)) = some (bits v 24 16, bits v 15 0,
    (word64 (s.hw.heldOr q STR_BF_FIRST_LO (s.hw.reg STR_BF_FIRST_LO)) (s.hw.heldOr q STR_BF_FIRST_HI (s.hw.reg STR_BF_FIRST_HI))).toNat,
    (s.hw.heldOr q STR_BF_COUNT (s.hw.reg STR_BF_COUNT)).toNat))) ∧
  (∀ (s : State) (q : Requester) (src : Nat) (v : Word), s.hw.writable q = true → natBit v.toNat 31 = true →
    (s.hw.heldOr q STR_BF_COUNT (s.hw.reg STR_BF_COUNT)) ≠ 0 → 4 ≤ s.hw.str.backfill.length →
    Completes (.backfillSubmit q src v) s (fun x => x.status = 1 ∧ x.hw = s.hw.flag STR_BF_STATUS_REFUSED)) ∧
  (∀ (s : State) (q : Requester) (src : Nat) (v : Word), s.hw.writable q = true →
    (s.hw.heldOr q STR_BF_COUNT (s.hw.reg STR_BF_COUNT)) = 0 →
    Completes (.backfillSubmit q src v) s (fun x => x.status = 0 ∧ x.hw.str = s.hw.str)) ∧
  (∀ (s : State) (r : BfReq) (rest : List BfReq), s.hw.live = true → s.hw.coreOn = true →
    s.hw.str.backfill = r :: rest → r.count ≠ 0 → r.cut = false → r.sending = none →
    ((s.hw.stream r.stream).eras.take 4).find? (fun e => decide (e.era = r.era)) = none → s.hw.room 3 = true →
    Completes (.backfillServe) s (fun x => x.hw.str.backfill = rest ∧
    x.hw.net.egress.length = s.hw.net.egress.length + 1 ∧ x.hw.net.egress.getLast?.map (fun d => (d.frame.cls,
    d.frame.dst, d.frame.payload)) = some (3, s.hw.bfDest r, gapBytes r.stream r.era gapNotHeld r.first r.count))) ∧
  (∀ (s : State) (r : BfReq) (rest : List BfReq) (e : Era) (n : Nat), s.hw.live = true → s.hw.coreOn = true →
    s.hw.str.backfill = r :: rest → r.count ≠ 0 → r.cut = false → r.sending = none →
    ((s.hw.stream r.stream).eras.take 4).find? (fun y => decide (y.era = r.era)) = some e → e.gone = false →
    e.j0 ≤ r.first → r.first < e.nextIndex (s.hw.stream r.stream).wpos →
    (s.hw.stream r.stream).rpos ≤ e.posOf r.first →
    n = min r.count (e.nextIndex (s.hw.stream r.stream).wpos - r.first) →
    Completes (.backfillServe) s (fun x => x.hw.str.backfill = (if r.count - n = 0 then rest else r.past n :: rest) ∧
    x.hw.get STR_BF_CLIPPED_CLIPPED = satAdd 32 (s.hw.get STR_BF_CLIPPED_CLIPPED) n ∧
    x.hw.net.egress = s.hw.net.egress)) ∧
  (∀ (s : State) (r : BfReq) (rest : List BfReq) (e : Era) (n m : Nat), s.hw.live = true → s.hw.coreOn = true →
    s.hw.str.backfill = r :: rest → r.count ≠ 0 → r.cut = false → r.sending = none →
    ((s.hw.stream r.stream).eras.take 4).find? (fun y => decide (y.era = r.era)) = some e → e.gone = false →
    e.j0 ≤ r.first → r.first < e.nextIndex (s.hw.stream r.stream).wpos →
    e.posOf r.first < (s.hw.stream r.stream).rpos → s.hw.inBuffer r.stream (e.posOf r.first) = true →
    n = min r.count (e.nextIndex (s.hw.stream r.stream).wpos - r.first) →
    isPlaceholder (s.hw.bufPeek r.stream (e.posOf r.first)) = false →
    m = s.hw.runLen r.stream (e.posOf r.first) (min (s.hw.stream r.stream).rpos (e.posOf r.first + n)) ((s.hw.stream r.stream).frameMax (e.posOf r.first)) →
    s.hw.classFill 2 < 64 → s.hw.room 2 = true →
    Completes (.backfillServe) s (fun x => x.hw.str.backfill = (if r.count - m = 0 then rest else r.past m :: rest) ∧
    x.hw.net.egress.length = s.hw.net.egress.length + 1 ∧ x.hw.net.egress.getLast?.map (fun d => (d.frame.ty,
    d.frame.cls, d.frame.dst)) = some (0x10, 2, s.hw.bfDest r)))

/-- A running unit takes the causes of its next deciding cycle. With no condition true it stays as it is; in a state with
COMB 0, condition A true counts one event, which below the target only counts; at the target the unit goes to
NEXT_HIT, or stops, whatever its actions. Its timer that is over, with no cause waiting, takes it to NEXT_TO, or stops
it. TRG_RESTART enters the start states of the armed units that it names; TRG_FIRE gives a running unit that it names
a command cause and changes no register. -/
def Obligations.BurgeeUnits : Prop :=
  (∀ (s : State) (n : Nat), s.hw.live = true → n < 16 → s.hw.unitRuns n = true →
    (s.hw.cycleCauses n).isEmpty = false → (s.hw.takeCycle n).2.a = none → (s.hw.takeCycle n).2.b = none →
    ((s.hw.unitSt n).latchA = none ∨ (s.hw.unitSt n).latchB = none) →
    Completes (.triggerDecide n) s (fun x => x.hw.unitState n = s.hw.unitState n ∧
    x.hw.get (TRG_COUNT_COUNT n) = s.hw.get (TRG_COUNT_COUNT n) ∧
    (x.hw.unitSt n).causes = (s.hw.unitSt n).causes.tail)) ∧
  (∀ (s : State) (n : Nat), s.hw.live = true → n < 16 → s.hw.unitRuns n = true →
    (s.hw.cycleCauses n).isEmpty = false → s.hw.get (TRG_ST_CTL_COMB (stateReg n (s.hw.unitState n))) = 0 →
    (s.hw.takeCycle n).2.a.isSome = true →
    s.hw.get (TRG_COUNT_COUNT n) + 1 < max 1 (s.hw.get (TRG_ST_CNT_TARGET (stateReg n (s.hw.unitState n)))) →
    Completes (.triggerDecide n) s (fun x => x.hw.unitState n = s.hw.unitState n ∧
    x.hw.get (TRG_COUNT_COUNT n) = s.hw.get (TRG_COUNT_COUNT n) + 1)) ∧
  (∀ (s : State) (n : Nat), s.hw.live = true → n < 16 → s.hw.unitRuns n = true →
    (s.hw.cycleCauses n).isEmpty = false → s.hw.get (TRG_ST_CTL_COMB (stateReg n (s.hw.unitState n))) = 0 →
    (s.hw.takeCycle n).2.a.isSome = true →
    max 1 (s.hw.get (TRG_ST_CNT_TARGET (stateReg n (s.hw.unitState n)))) ≤ s.hw.get (TRG_COUNT_COUNT n) + 1 →
    s.hw.get (TRG_COUNT_COUNT n) + 1 < 2 ^ 32 → s.hw.get (TRG_ST_CTL_NEXT_HIT (stateReg n (s.hw.unitState n))) < 8 →
    Completes (.triggerDecide n) s (fun x => x.hw.unitState n = s.hw.get (TRG_ST_CTL_NEXT_HIT (stateReg n (s.hw.unitState n))) ∧
    x.hw.get (TRG_COUNT_COUNT n) = 0 ∧ (x.hw.unitSt n).entered = s.hw.time.now)) ∧
  (∀ (s : State) (n : Nat), s.hw.live = true → n < 16 → s.hw.unitRuns n = true →
    (s.hw.cycleCauses n).isEmpty = false → s.hw.get (TRG_ST_CTL_COMB (stateReg n (s.hw.unitState n))) = 0 →
    (s.hw.takeCycle n).2.a.isSome = true →
    max 1 (s.hw.get (TRG_ST_CNT_TARGET (stateReg n (s.hw.unitState n)))) ≤ s.hw.get (TRG_COUNT_COUNT n) + 1 →
    s.hw.get (TRG_COUNT_COUNT n) + 1 < 2 ^ 32 → s.hw.get (TRG_ST_CTL_NEXT_HIT (stateReg n (s.hw.unitState n))) = 9 →
    Completes (.triggerDecide n) s (fun x => x.hw.on (TRG_STAT_STOPPED n) = true ∧ (x.hw.unitSt n).causes = [])) ∧
  (∀ (s : State) (n : Nat), s.hw.live = true → n < 16 → s.hw.unitRuns n = true → s.hw.timerDue n = true →
    (s.hw.unitSt n).causes = [] → s.hw.timeReached n 0 = false → s.hw.timeReached n 1 = false →
    ((s.hw.unitSt n).latchA = none ∨ (s.hw.unitSt n).latchB = none) →
    s.hw.get (TRG_ST_CTL_NEXT_TO (stateReg n (s.hw.unitState n))) < 8 →
    Completes (.triggerTimeout n) s (fun x => x.hw.unitState n = s.hw.get (TRG_ST_CTL_NEXT_TO (stateReg n (s.hw.unitState n))) ∧
    (x.hw.unitSt n).entered = s.hw.time.now ∧ x.hw.get (TRG_COUNT_COUNT n) = 0)) ∧
  (∀ (s : State) (n : Nat), s.hw.live = true → n < 16 → s.hw.unitRuns n = true → s.hw.timerDue n = true →
    (s.hw.unitSt n).causes = [] → s.hw.timeReached n 0 = false → s.hw.timeReached n 1 = false →
    ((s.hw.unitSt n).latchA = none ∨ (s.hw.unitSt n).latchB = none) →
    s.hw.get (TRG_ST_CTL_NEXT_TO (stateReg n (s.hw.unitState n))) = 9 →
    Completes (.triggerTimeout n) s (fun x => x.hw.on (TRG_STAT_STOPPED n) = true ∧ (x.hw.unitSt n).causes = [])) ∧
  (∀ (s : State) (q : Requester) (v : Word) (n : Nat), s.hw.writable q = true → n < 16 → natBit v.toNat n = true →
    s.hw.armed n = true → Completes (.trgRestart q v) s (fun x => x.hw.unitState n = s.hw.get (TRG_UNIT_START n) ∧
    x.hw.on (TRG_STAT_STOPPED n) = false ∧ (x.hw.unitSt n).entered = s.hw.time.now)) ∧
  (∀ (s : State) (q : Requester) (v : Word) (n : Nat), s.hw.writable q = true → n < 16 → natBit v.toNat n = true →
    s.hw.armed n = true → s.hw.on (TRG_STAT_STOPPED n) = false →
    Completes (.trgFire q v) s (fun x => (x.hw.unitSt n).causes = (if s.hw.coreOn then queueBatch { ns := s.hw.ns, late := false, causes := [.cmd] } (s.hw.unitSt n).causes else holdBatch { ns := s.hw.ns, late := false, causes := [.cmd] } (s.hw.unitSt n).causes) ∧
    x.hw.regs = s.hw.regs))

/-- A CAPTURE of an enabled unit takes its next entry where that is free and no segment holds its slot, and counts as
missed where the entry is not free; the next word of a filling segment is copied, and one that has left the buffer
counts as missing; a filling segment that holds all its words waits for the engine; when the engine has done with it,
it reads closed and waits for its readout where that is automatic; firmware releases a closed segment that is not, and
no other. -/
def Obligations.CaptureSegments : Prop :=
  (∀ (s : State) (n t : Nat) (r : CapReq), s.hw.live = true → s.hw.coreOn = true → n < 16 →
    (s.hw.unitSt n).alloc = some r → s.hw.on (TRG_CAP_EN n) = true → s.hw.nslots n ≠ 0 → (s.hw.unitSt n).next < 4096 →
    s.hw.segState (s.hw.unitSt n).next = 0 →
    t = (s.hw.get (TRG_CAP_POOL_BASE_TILE n) + segTiles (s.hw.get (TRG_CAP_NSTR_M1 n) + 1) (s.hw.get (TRG_CAP_LEN_LEN n)) * (((s.hw.unitSt n).next - s.hw.get (TRG_CAP_SEG_SEG_BASE n)) % s.hw.nslots n)) →
    s.hw.slotHeld t (t + segTiles (s.hw.get (TRG_CAP_NSTR_M1 n) + 1) (s.hw.get (TRG_CAP_LEN_LEN n))) = false →
    Completes (.segmentAllocate n) s (fun x => x.hw.segState (s.hw.unitSt n).next = 1 ∧
    (x.hw.seg (s.hw.unitSt n).next).map SegSt.unit = some n ∧ x.hw.get (TRG_STAT_LAST_SEG n) = (s.hw.unitSt n).next ∧
    (x.hw.unitSt n).alloc = (s.hw.unitSt n).heldReq)) ∧
  (∀ (s : State) (n : Nat) (r : CapReq), s.hw.live = true → s.hw.coreOn = true → n < 16 →
    (s.hw.unitSt n).alloc = some r → s.hw.on (TRG_CAP_EN n) = true → s.hw.nslots n ≠ 0 → (s.hw.unitSt n).next < 4096 →
    s.hw.segState (s.hw.unitSt n).next ≠ 0 →
    Completes (.segmentAllocate n) s (fun x => x.hw.get (TRG_MISSED_MISSED n) = satAdd 32 (s.hw.get (TRG_MISSED_MISSED n)) 1 ∧
    x.hw.on (TRG_STAT_TFULL n) = true ∧ (x.hw.unitSt n).alloc = (s.hw.unitSt n).heldReq ∧
    x.hw.trg.segs = s.hw.trg.segs)) ∧
  (∀ (s : State) (k i : Nat) (y : SegSt) (z : SegStream) (e : Era), s.hw.live = true → s.hw.coreOn = true →
    k < 4096 → i < 16 → s.hw.seg k = some y → y.streams[i]? = some z → s.hw.segState k = 1 →
    (s.hw.stream z.stream).eras.find? (fun w => decide (w.era = z.era) && !w.gone) = some e →
    z.pre + z.postDone < z.want → z.first + (z.pre + z.postDone) < e.nextIndex (s.hw.stream z.stream).wpos →
    s.hw.undecided z.stream (e.posOf (z.first + (z.pre + z.postDone))) = false →
    s.hw.inBuffer z.stream (e.posOf (z.first + (z.pre + z.postDone))) = true →
    Completes (.segmentWordCopy k i) s (fun x => ((x.hw.seg k).bind (fun w => w.streams[i]?)).map SegStream.postDone = some (z.postDone + 1) ∧
    x.hw.segGet k 11 31 0 = s.hw.segGet k 11 31 0)) ∧
  (∀ (s : State) (k i : Nat) (y : SegSt) (z : SegStream) (e : Era), s.hw.live = true → s.hw.coreOn = true →
    k < 4096 → i < 16 → s.hw.seg k = some y → y.streams[i]? = some z → s.hw.segState k = 1 →
    (s.hw.stream z.stream).eras.find? (fun w => decide (w.era = z.era) && !w.gone) = some e →
    z.pre + z.postDone < z.want → z.first + (z.pre + z.postDone) < e.nextIndex (s.hw.stream z.stream).wpos →
    s.hw.undecided z.stream (e.posOf (z.first + (z.pre + z.postDone))) = false →
    s.hw.inBuffer z.stream (e.posOf (z.first + (z.pre + z.postDone))) = false →
    Completes (.segmentWordCopy k i) s (fun x => ((x.hw.seg k).bind (fun w => w.streams[i]?)).map SegStream.postDone = some (z.postDone + 1) ∧
    x.hw.segGet k 0 28 28 = 1 ∧ x.hw.segGet k 11 31 0 = (s.hw.segGet k 11 31 0 + 1) % 2 ^ 32)) ∧
  (∀ (s : State) (k : Nat) (y : SegSt), s.hw.live = true → s.hw.coreOn = true → k < 4096 → s.hw.seg k = some y →
    y.full = true → s.hw.segState k = 1 → Completes (.segmentClose k) s (fun x => x.hw.segState k = 2 ∧
    x.hw.trg.closing = s.hw.trg.closing ++ [k])) ∧
  (∀ (s : State) (k : Nat) (y : SegSt) (rest : List Nat), s.hw.live = true → s.hw.coreOn = true → k < 4096 →
    s.hw.seg k = some y → s.hw.trg.closing = k :: rest →
    Completes (.segmentMeasureDone k) s (fun x => x.hw.segState k = 3 ∧ x.hw.trg.closing = rest ∧
    x.hw.trg.reading = (if natBit y.cap.toNat 24 then s.hw.trg.reading ++ [k] else s.hw.trg.reading))) ∧
  (∀ (s : State) (q : Requester) (v : Word) (y : SegSt), s.hw.writable q = true → natBit v.toNat 31 = true →
    s.hw.seg (bits v 11 0) = some y → s.hw.segState (bits v 11 0) = 3 → natBit y.cap.toNat 24 = false →
    Completes (.trgSegRel q v) s (fun x => x.hw.seg (bits v 11 0) = none ∧ x.hw.segState (bits v 11 0) = 0)) ∧
  (∀ (s : State) (q : Requester) (v : Word) (y : SegSt), s.hw.writable q = true → s.hw.seg (bits v 11 0) = some y →
    (s.hw.segState (bits v 11 0) ≠ 3 ∨ natBit y.cap.toNat 24 = true) →
    Completes (.trgSegRel q v) s (fun x => x.hw = s.hw))

/-- The low word of a window pair is held; the high one writes the word with its held low half, or with the low half that
stands, and sets its valid copies; where the flip mask applies, the stored code word differs by it, and the mask
clears itself. A clear of free tiles begins and is refused while one runs or where a tile is allotted; its end clears
the valid bits of its tiles and of no others. The scrub corrects the word that it visits and goes on, after the last
word from word 0. MEM_FLIPMASK_HI arms the flip mask for its requester. An unverified tile is read: where every word
and the checksum entry are good or corrected and the checksum matches, VERIFIED is set; where it does not match, the
tile is retired and TILE_CHECKSUM raised; with an uncorrectable word VERIFIED stays clear. Writing 1 to RETIRED starts
a reseal of the tile; one that meets no uncorrectable word clears the retirement and sets VERIFIED, and one that does
leaves the tile retired. -/
def Obligations.CaptureMemory : Prop :=
  (∀ (s : State) (q : Requester) (a : Nat) (v : Word), s.hw.writable q = true → isWindow a = true → a % 8 = 0 →
    Completes (.memWindowWrite q a v) s (fun x => x.hw = s.hw.setHeld q a (some v))) ∧
  (∀ (s : State) (q : Requester) (a : Nat) (v lo : Word), s.hw.writable q = true → isWindow a = true → a % 8 = 4 →
    lo = (s.hw.heldAt q (a - 4)).getD (lo32 (s.hw.memPeek (windowWord a).1)) → s.hw.on MEM_FLIPMASK_HI_ARMED = false →
    Completes (.memWindowWrite q a v) s (fun x => secData (x.hw.memStored (windowWord a).1) = word64 lo v ∧
    x.hw.validCopies (windowWord a).1 = 7 ∧ x.hw.heldAt q (a - 4) = none ∧ x.hw.seq = s.hw.seq ∧ x.hw.str = s.hw.str)) ∧
  (∀ (s : State) (q : Requester) (a : Nat) (v lo : Word), s.hw.writable q = true → isWindow a = true → a % 8 = 4 →
    s.hw.heldAt q (a - 4) = some lo → s.hw.on MEM_FLIPMASK_HI_ARMED = true → (s.hw.on MEM_FLIPMASK_HI_SCOPE = true ∨
    s.hw.mem.flipBy = some q) →
    Completes (.memWindowWrite q a v) s (fun x => x.hw.memStored (windowWord a).1 = secEncode (word64 lo v) ^^^ s.hw.flipMask ∧
    x.hw.validCopies (windowWord a).1 = s.hw.flipValid ∧ x.hw.on MEM_FLIPMASK_HI_ARMED = false)) ∧
  (∀ (s : State) (q : Requester) (v : Word), s.hw.writable q = true → natBit v.toNat 31 = true →
    s.hw.mem.clr = none →
    (List.range (bits v 25 13 + 1)).all (fun i => decide (allotOf s.hw (bits v 12 0 + i) = 0)) = true →
    Completes (.memClr q v) s (fun x => x.hw.mem.clr = some (bits v 12 0, bits v 25 13 + 1) ∧
    x.hw.on MEM_CTL_CLR_BUSY = true ∧ x.hw.mem.words = s.hw.mem.words ∧ x.hw.mem.valid = s.hw.mem.valid)) ∧
  (∀ (s : State) (q : Requester) (v : Word), s.hw.writable q = true → natBit v.toNat 31 = true →
    (s.hw.mem.clr.isSome = true ∨
    (List.range (bits v 25 13 + 1)).all (fun i => decide (allotOf s.hw (bits v 12 0 + i) = 0)) = false) →
    Completes (.memClr q v) s (fun x => x.hw.mem = s.hw.mem ∧ x.hw.on MEM_CTL_CLR_REFUSED = true)) ∧
  (∀ (s : State) (t n a : Nat), s.hw.live = true → s.hw.mem.clr = some (t, n) → t * 512 ≤ a → a < (t + n) * 512 →
    Completes (.memClrDone) s (fun x => x.hw.validCopies a = 0 ∧ x.hw.mem.clr = none ∧
    x.hw.on MEM_CTL_CLR_BUSY = false)) ∧
  (∀ (s : State) (t n a : Nat), s.hw.live = true → s.hw.mem.clr = some (t, n) → (a < t * 512 ∨ (t + n) * 512 ≤ a) →
    Completes (.memClrDone) s (fun x => x.hw.validCopies a = s.hw.validCopies a ∧ x.hw.memStored a = s.hw.memStored a)) ∧
  (∀ (s : State) (u d : Word72) (vf : Nat), s.hw.live = true → s.hw.coreOn = true → s.hw.on MEM_CTL_SCRUB_EN = true →
    (s.hw.get MEM_SCRUB_POS_POS) + 1 < memWordCount →
    majority3 (s.hw.validCopies (s.hw.get MEM_SCRUB_POS_POS) ^^^ (vf % 8)) = true →
    secCorrect (s.hw.memStored (s.hw.get MEM_SCRUB_POS_POS) ^^^ u) = some d →
    Completes (.memScrubRead u vf) s (fun x => x.hw.get MEM_SCRUB_POS_POS = (s.hw.get MEM_SCRUB_POS_POS) + 1 ∧
    x.hw.memStored (s.hw.get MEM_SCRUB_POS_POS) = d ∧ x.hw.validCopies (s.hw.get MEM_SCRUB_POS_POS) = 7)) ∧
  (∀ (s : State) (u : Word72) (vf : Nat), s.hw.live = true → s.hw.coreOn = true → s.hw.on MEM_CTL_SCRUB_EN = true →
    (s.hw.get MEM_SCRUB_POS_POS) + 1 = memWordCount →
    Completes (.memScrubRead u vf) s (fun x => x.hw.get MEM_SCRUB_POS_POS = 0 ∧
    x.hw.get MEM_SCRUB_PASSES = (s.hw.get MEM_SCRUB_PASSES + 1) % 2 ^ 16)) ∧
  (∀ (s : State) (q : Requester) (v : Word), s.hw.writable q = true →
    Completes (.flipmaskArm q v) s (fun x => x.hw.on MEM_FLIPMASK_HI_ARMED = true ∧ x.hw.mem.flipBy = some q ∧
    x.hw.reg MEM_FLIPMASK_LO = s.hw.heldOr q MEM_FLIPMASK_LO (s.hw.reg MEM_FLIPMASK_LO) ∧
    x.hw.mem.words = s.hw.mem.words)) ∧
  (∀ (s : State) (t : Nat) (u : Word72), s.hw.live = true → t < 6144 → s.hw.on (MEM_TILE_STAT_VERIFIED t) = false →
    ((s.hw.setEntryUpset t (s.hw.entryUpset t ^^^ u)).passRead t).2.2 = false →
    (((s.hw.setEntryUpset t (s.hw.entryUpset t ^^^ u)).passRead t).1.checkEntry t).entryUpset t = 0 →
    crc32c ((s.hw.setEntryUpset t (s.hw.entryUpset t ^^^ u)).passRead t).2.1 = (((s.hw.setEntryUpset t (s.hw.entryUpset t ^^^ u)).passRead t).1.checkEntry t).get (MEM_TILE_CRC_CRC t) →
    Completes (.tileVerify t u) s (fun x => x.hw.on (MEM_TILE_STAT_VERIFIED t) = true)) ∧
  (∀ (s : State) (t : Nat) (u : Word72), s.hw.live = true → t < 6144 → s.hw.on (MEM_TILE_STAT_VERIFIED t) = false →
    ((s.hw.setEntryUpset t (s.hw.entryUpset t ^^^ u)).passRead t).2.2 = false →
    (((s.hw.setEntryUpset t (s.hw.entryUpset t ^^^ u)).passRead t).1.checkEntry t).entryUpset t = 0 →
    crc32c ((s.hw.setEntryUpset t (s.hw.entryUpset t ^^^ u)).passRead t).2.1 ≠ (((s.hw.setEntryUpset t (s.hw.entryUpset t ^^^ u)).passRead t).1.checkEntry t).get (MEM_TILE_CRC_CRC t) →
    Completes (.tileVerify t u) s (fun x => x.hw.retired t = true ∧ x.hw.on (statusBit srcTileChecksum) = true ∧
    x.hw.on (MEM_TILE_STAT_VERIFIED t) = false)) ∧
  (∀ (s : State) (t : Nat) (u : Word72), s.hw.live = true → t < 6144 → s.hw.on (MEM_TILE_STAT_VERIFIED t) = false →
    ((s.hw.setEntryUpset t (s.hw.entryUpset t ^^^ u)).passRead t).2.2 = true →
    Completes (.tileVerify t u) s (fun x => x.hw.on (MEM_TILE_STAT_VERIFIED t) = false ∧ x.hw.retired t = true)) ∧
  (∀ (s : State) (q : Requester) (t : Nat) (v : Word), s.hw.writable q = true → t < 6144 → natBit v.toNat 7 = true →
    Completes (.tileReseal q t v) s (fun x => x = { s with hw := s.hw.put (MEM_TILE_STAT_RESEALING t) 1, rdata := [], status := 0 })) ∧
  (∀ (s : State) (t : Nat), s.hw.live = true → t < 6144 → s.hw.on (MEM_TILE_STAT_RESEALING t) = true →
    ((s.hw.put (MEM_TILE_STAT_RESEALING t) 0).passRead t).2.2 = false →
    Completes (.tileResealDone t) s (fun x => x.hw.retired t = false ∧ x.hw.on (MEM_TILE_STAT_VERIFIED t) = true ∧
    x.hw.on (MEM_TILE_STAT_RESEALING t) = false)) ∧
  (∀ (s : State) (t : Nat), s.hw.live = true → t < 6144 → s.hw.on (MEM_TILE_STAT_RESEALING t) = true →
    ((s.hw.put (MEM_TILE_STAT_RESEALING t) 0).passRead t).2.2 = true →
    Completes (.tileResealDone t) s (fun x => x.hw.retired t = true ∧ x.hw.on (MEM_TILE_STAT_RESEALING t) = false))

/-- A write of another width or alignment is refused with STATUS ACCESS and changes nothing. Of a register without an
effect of its own: RW bits take the written bits at once and the others keep theirs; RWS bits are staged and the
register keeps its value; W1C bits clear where 1 is written; no other register, memory word or held value changes. -/
def Obligations.RegisterWrites : Prop :=
  (∀ (s : State) (q : Requester) (n a : Nat) (v : Word), (n ≠ 4 ∨ a % 4 ≠ 0) →
    Completes (.registerWrite q n a v) s (fun x => x = { s with rdata := [], status := 2 })) ∧
  (∀ (s : State) (q : Requester) (a b : Nat) (v : Word) (r : RegRow), s.hw.writable q = true → a % 4 = 0 →
    a < 2 ^ 32 → a ≠ SYS_SNAP → s.hw.pageWrite q a v = none → s.hw.ownWrite q 0 a v = none → isWindow a = false →
    valueOf a = (a, 1) → regRowAt a = some r → r.rws = 0 → r.w1c = 0 →
    Completes (.registerWrite q 4 a v) s (fun x => x.hw.reg a = (s.hw.reg a &&& ~~~(BitVec.ofNat 32 r.rw)) ||| (v &&& BitVec.ofNat 32 r.rw) ∧
    (b ≠ a → x.hw.reg b = s.hw.reg b) ∧
    x = { s with hw := { s.hw with regs := x.hw.regs }, rdata := [], status := 0 })) ∧
  (∀ (s : State) (q : Requester) (a b : Nat) (v : Word) (r : RegRow), s.hw.writable q = true → a % 4 = 0 →
    a < 2 ^ 32 → a ≠ SYS_SNAP → s.hw.pageWrite q a v = none → s.hw.ownWrite q 0 a v = none → isWindow a = false →
    valueOf a = (a, 1) → regRowAt a = some r → r.rw = 0 → r.w1c = 0 → r.rws ≠ 0 →
    Completes (.registerWrite q 4 a v) s (fun x => x.hw.regs = s.hw.regs ∧
    x.hw.stagedOr a = v &&& BitVec.ofNat 32 r.rws ∧ (b ≠ a → x.hw.stagedOr b = s.hw.stagedOr b) ∧
    x = { s with hw := { s.hw with epoch := { s.hw.epoch with staging := x.hw.epoch.staging } }, rdata := [], status := 0 })) ∧
  (∀ (s : State) (q : Requester) (a b : Nat) (v : Word) (r : RegRow), s.hw.writable q = true → a % 4 = 0 →
    a < 2 ^ 32 → a ≠ SYS_SNAP → s.hw.pageWrite q a v = none → s.hw.ownWrite q 0 a v = none → isWindow a = false →
    valueOf a = (a, 1) → regRowAt a = some r → r.rw = 0 → r.rws = 0 → s.hw.stuck a = 0 →
    Completes (.registerWrite q 4 a v) s (fun x => x.hw.reg a = s.hw.reg a &&& ~~~(v &&& BitVec.ofNat 32 r.w1c) ∧
    (b ≠ a → x.hw.reg b = s.hw.reg b) ∧
    x = { s with hw := { s.hw with regs := x.hw.regs }, rdata := [], status := 0 })) ∧
  (∀ (s : State) (q : Requester) (a : Nat) (v : Word), s.hw.writable q = false → a % 4 = 0 →
    Completes (.registerWrite q 4 a v) s (fun x => x = { s with rdata := [], status := 0 }))

/-- A read of a register of one word answers the word and leaves the hub as it was, but that its RC bits clear; a read of
the lowest word of a value latches the others as they stand at that read; before the OTP read has ended every word
reads 0. MSPI reads and writes words in the same way while CORE runs; with CORE asleep the access asks for CORE and
waits. -/
def Obligations.RegisterReads : Prop :=
  (∀ (s : State) (q : Requester) (a b : Nat) (r : RegRow), s.hw.readable q = true → s.frozen = none → a % 4 = 0 →
    a < 0x10000000 → isTableWindow a = false → isMaskWindow a = false → a ≠ FLT_EVT_QUEUE → valueOf a = (a, 1) →
    regRowAt a = some r → Completes (.rcRead q a) s (fun x => x.rdata = [s.hw.viewWord none q a] ∧
    x.hw.reg a = s.hw.reg a &&& ~~~(BitVec.ofNat 32 r.rc) ∧ (b ≠ a → x.hw.reg b = s.hw.reg b) ∧
    x = { s with hw := { s.hw with regs := x.hw.regs }, rdata := x.rdata, status := 0 })) ∧
  (∀ (s : State) (q : Requester) (a : Nat) (r : RegRow), s.hw.readable q = true → s.frozen = none → a % 4 = 0 →
    a < 0x10000000 → isTableWindow a = false → isMaskWindow a = false → valueOf a = (a, 2) → regRowAt a = some r →
    r.rc = 0 → Completes (.multiwordLatchRead q a) s (fun x => x.rdata = [s.hw.viewWord none q a] ∧
    x.hw.latched q (a + 4) = some (s.hw.viewWord none q (a + 4)) ∧ x.hw.regs = s.hw.regs ∧
    x.hw = { s.hw with reqs := x.hw.reqs })) ∧
  (∀ (s : State) (a n : Nat), s.hw.live = true → s.hw.coreOn = true → s.hw.readable .mspi = false →
    Completes (.mspiRead a n) s (fun x => x = { s with rdata := List.replicate n 0, status := 0 })) ∧
  (∀ (s : State) (a : Nat) (r : RegRow), s.hw.live = true → s.hw.coreOn = true → s.hw.readable .mspi = true →
    s.frozen = none → a % 4 = 0 → a < 0x10000000 → isTableWindow a = false → isMaskWindow a = false → valueOf a = (a,
    1) → regRowAt a = some r → r.rc = 0 → a ≠ FLT_EVT_QUEUE →
    Completes (.mspiRead a 1) s (fun x => x = { s with rdata := [s.hw.viewWord none .mspi a], status := 0 })) ∧
  (∀ (s : State) (a n : Nat), s.hw.live = true → s.hw.coreOn = false →
    Completes (.mspiRead a n) s (fun x => x.rdata = [] ∧ x.hw.clk.mspi = s.hw.clk.mspi ++ [.read a n] ∧
    (x.hw.xing 7).busy = true ∧ x.hw.reqs = s.hw.reqs)) ∧
  (∀ (s : State) (a : Nat) (l : List Word), s.hw.live = true → s.hw.coreOn = false →
    Completes (.mspiWrite a l) s (fun x => x.rdata = [] ∧ x.hw.clk.mspi = s.hw.clk.mspi ++ [.write a l] ∧
    (x.hw.xing 7).busy = true ∧ x.hw.reqs = s.hw.reqs)) ∧
  (∀ (s : State) (a : Nat) (v : Word) (r : RegRow), s.hw.live = true → s.hw.coreOn = true →
    s.hw.writable .mspi = true → a % 4 = 0 → a < 2 ^ 32 → a ≠ SYS_SNAP → s.hw.pageWrite .mspi a v = none →
    s.hw.ownWrite .mspi 0 a v = none → isWindow a = false → valueOf a = (a, 1) → regRowAt a = some r → r.rws = 0 →
    r.w1c = 0 →
    Completes (.mspiWrite a [v]) s (fun x => x.hw.reg a = (s.hw.reg a &&& ~~~(BitVec.ofNat 32 r.rw)) ||| (v &&& BitVec.ofNat 32 r.rw) ∧
    x = { s with hw := { s.hw with regs := x.hw.regs }, rdata := [], status := 0 })) ∧
  (∀ (s : State) (a : Nat) (l : List Word), s.hw.live = true → s.hw.coreOn = true → s.hw.writable .mspi = false →
    Completes (.mspiWrite a l) s (fun x => x = { s with rdata := [], status := 0 }))

/-- GO seals the staging set for its requester and starts an empty one, and is refused while a set is sealed. A sealed set
that selects no bad response and breaks no check is validated and waits; another leaves nothing sealed, returns its
values to staging and records its FAIL_CODE. A validated set applies at a frame boundary after its validation, or with
the Bridle stopped: the epoch advances, its requester is recorded, and the staging set stays as it stood; with no
relief of a front end and no injected list under way, on a hub that runs, the terminals and front ends then read their
staged settings; until then the set waits. START_FREE releases sampling with QUALITY FREE. -/
def Obligations.Commits : Prop :=
  (∀ (s : State) (q : Requester) (src : Nat) (v : Word), s.hw.writable q = true → q ≠ .loader →
    v.toNat.testBit 0 = true → s.hw.epoch.sealedSet = none →
    Completes (.commitGo q src v) s (fun x => x.hw.epoch.sealedSet = some { set := s.hw.epoch.staging, path := pathOf q, srcId := sourceId q src, validated := false, seen := none } ∧
    x.hw.epoch.staging = { regs := [], table := [] } ∧ x.hw.on SYS_COMMIT_STATUS_PENDING = true)) ∧
  (∀ (s : State) (q : Requester) (src : Nat) (v : Word), s.hw.writable q = true → q ≠ .loader →
    v.toNat.testBit 0 = true → s.hw.epoch.sealedSet.isSome = true →
    Completes (.commitGo q src v) s (fun x => x.hw.epoch = s.hw.epoch ∧ x.hw.on SYS_COMMIT_STATUS_REFUSED = true)) ∧
  (∀ (s : State) (y : Sealed) (bad : List Nat) (h c : Hw), s.hw.live = true → s.hw.coreOn = true →
    s.hw.epoch.sealedSet = some y → y.validated = false →
    h = s.hw.romVerify (newStores s.hw (s.hw.withSet y.set)) bad → c = h.withSet y.set → selectsBad h c = false →
    failCode c = 0 →
    Completes (.commitValidated bad) s (fun x => x.hw.epoch.sealedSet = some { y with validated := true, seen := h.smp.lastBoundary } ∧
    x.hw.regs = h.regs ∧ x.hw.epoch.staging = s.hw.epoch.staging ∧ x.hw.seq.mirrorNext = c.mirrorOf)) ∧
  (∀ (s : State) (y : Sealed) (bad : List Nat) (h c : Hw) (k : Nat), s.hw.live = true → s.hw.coreOn = true →
    s.hw.epoch.sealedSet = some y → y.validated = false →
    h = s.hw.romVerify (newStores s.hw (s.hw.withSet y.set)) bad → c = h.withSet y.set →
    k = (if selectsBad h c then 7 else failCode c) → k ≠ 0 → s.hw.boot.phase = .running →
    Completes (.commitValidated bad) s (fun x => x.hw.epoch.sealedSet = none ∧
    x.hw.epoch.staging = returned y.set s.hw.epoch.staging ∧ x.hw.get SYS_COMMIT_STATUS_FAIL_CODE = k ∧
    x.hw.on SYS_COMMIT_STATUS_FAILED = true ∧ x.hw.get SYS_EPOCH_EPOCH = s.hw.get SYS_EPOCH_EPOCH)) ∧
  (∀ (s : State) (y : Sealed), s.hw.live = true → s.hw.coreOn = true → s.hw.epoch.sealedSet = some y →
    y.validated = true → s.hw.epoch.snapReq = none → (s.hw.boundaryNow.isSome = true ∧ s.hw.boundaryNow ≠ y.seen ∨
    s.hw.seq.running = false) → Completes (.commitApply) s (fun x => x.hw.epoch.sealedSet = none ∧
    x.hw.epoch.staging = s.hw.epoch.staging ∧ x.hw.get SYS_EPOCH_EPOCH = (s.hw.get SYS_EPOCH_EPOCH + 1) % 2 ^ 32 ∧
    x.hw.get SYS_COMMIT_SRC_PATH = y.path % 2 ^ 2 ∧ x.hw.get SYS_COMMIT_SRC_SRC_ID = y.srcId % 2 ^ 16 ∧
    x.hw.on SYS_COMMIT_STATUS_PENDING = false)) ∧
  (∀ (s : State) (y : Sealed) (t m : Nat), s.hw.live = true → s.hw.coreOn = true → s.hw.epoch.sealedSet = some y →
    y.validated = true → s.hw.epoch.snapReq = none → s.hw.boot.phase = .running → s.hw.field.relief = [] →
    s.hw.adc.run = none → t < 640 → m < 360 → (s.hw.boundaryNow.isSome = true ∧ s.hw.boundaryNow ≠ y.seen ∨
    s.hw.seq.running = false) →
    Completes (.commitApply) s (fun x => x.hw.reg (HRN_TERM t) = (s.hw.withSet y.set).reg (HRN_TERM t) ∧
    x.hw.reg (FE_CFG m) = (s.hw.withSet y.set).reg (FE_CFG m))) ∧
  (∀ (s : State) (y : Sealed), s.hw.live = true → s.hw.coreOn = true → s.hw.epoch.sealedSet = some y →
    (y.validated = false ∨ s.hw.seq.running = true ∧ (s.hw.boundaryNow = none ∨ s.hw.boundaryNow = y.seen)) →
    Completes (.commitApply) s (fun x => x = s)) ∧
  (∀ (s : State) (q : Requester) (v : Word), s.hw.writable q = true → v.toNat.testBit 0 = true →
    s.hw.running = true → s.hw.quality = 3 → Completes (.startFree q v) s (fun x => x.hw.quality = 2 ∧
    x.hw.on SYS_BOOT_FREE_START = true ∧ x.hw.released = true))

/-- REQ asks for the snapshot where nobody holds or awaits it and is refused while another path does; at the boundary it
is taken and the whole register file freezes; only its owner releases it; the hold ends by itself after SYS_SNAP_TO. -/
def Obligations.Snapshots : Prop :=
  (∀ (s : State) (q : Requester), s.hw.writable q = true → q ≠ .loader → s.hw.on SYS_SNAP_HELD = false →
    s.hw.epoch.snapReq = none → Completes (.snapReq q) s (fun x => x.hw.epoch.snapReq = some q ∧
    x.hw.regs = s.hw.regs ∧ x.frozen = s.frozen)) ∧
  (∀ (s : State) (q : Requester), s.hw.writable q = true → q ≠ .loader → s.hw.on SYS_SNAP_HELD = true →
    s.hw.get SYS_SNAP_OWNER ≠ pathOf q → Completes (.snapReq q) s (fun x => x.hw.epoch = s.hw.epoch ∧
    x.hw.on SYS_SNAP_REFUSED = true ∧ x.frozen = s.frozen)) ∧
  (∀ (s : State) (q : Requester), s.hw.live = true → s.hw.coreOn = true → s.hw.epoch.snapReq = some q →
    s.hw.snapDue = true → Completes (.snapTake) s (fun x => x.hw.on SYS_SNAP_HELD = true ∧
    x.hw.get SYS_SNAP_OWNER = pathOf q ∧ x.frozen = some x.hw ∧ x.hw.epoch.snapReq = none)) ∧
  (∀ (s : State) (q : Requester), s.hw.writable q = true → s.hw.snapOwned q = true →
    Completes (.snapRel q) s (fun x => x.frozen = none ∧ x.hw.on SYS_SNAP_HELD = false)) ∧
  (∀ (s : State) (q : Requester), s.hw.writable q = true → s.hw.snapOwned q = false →
    Completes (.snapRel q) s (fun x => x = { s with rdata := [], status := 0 })) ∧
  (∀ (s : State), s.hw.live = true → s.hw.on SYS_SNAP_HELD = true →
    s.hw.due (s.hw.epoch.snapSince + msNs (s.hw.get SYS_SNAP_TO_TIMEOUT_MS)) = true →
    Completes (.snapTimeout) s (fun x => x.frozen = none ∧ x.hw.on SYS_SNAP_HELD = false))

/-- The next command of the FIFOs leaves its FIFO and, not being a duplicate, is answered by one frame of its type in
class 1 with RSP to its source. REG_READ: the words read; a malformed one: its STATUS and no words. REG_WRITE: its
words are written in order and the answer names the words completed; before the first commit it is BUSY, in repeater
mode NO_IMAGE; a duplicate has no answer. SNAP_READ: the words of the snapshot that its port holds; SNAP_HELD where
another path holds it; where nobody does and the Bridle runs, the hub asks for one and the command waits. CAP_DISC:
the capability words from START on; a malformed one: MALFORMED. LINK_CTL: WAKE asks for CORE and holds the lanes
awake, STATUS answers on its port, RETRAIN takes the port to DOWN. -/
def Obligations.Transactions : Prop :=
  (∀ (s : State) (p : Port) (e : CmdEntry), s.hw.live = true → s.hw.coreOn = true → s.hw.classRoom 1 = true →
    s.hw.nextCommand = some (p, e) → e.frame.ty = 0x01 → ((s.hw.removeCommand p e).dupAccept p e.frame).2 = true →
    s.hw.running = true → regForm e.frame.payload false = 0 →
    Completes (.regRead) s (fun x => x.hw.net.egress.getLast?.map (fun d => (d.frame.ty, d.frame.cls, d.frame.rsp,
    d.frame.dst, d.frame.payload)) = some (e.frame.ty, 1, true, e.frame.src,
    regHead e.frame.payload 0 (regCount e.frame.payload) ++ ((Hw.readWords s.frozen (reqOfPort p) (regCount e.frame.payload) (regAddr e.frame.payload) ((s.hw.removeCommand p e).dupAccept p e.frame).1).2).flatMap (fun w => beBytes 4 w.toNat)) ∧
    x.rdata = (Hw.readWords s.frozen (reqOfPort p) (regCount e.frame.payload) (regAddr e.frame.payload) ((s.hw.removeCommand p e).dupAccept p e.frame).1).2 ∧
    x.status = 0 ∧ (x.hw.port p).fifo = (s.hw.port p).fifo.filter (fun y => decide (y.order ≠ e.order)))) ∧
  (∀ (s : State) (p : Port) (e : CmdEntry), s.hw.live = true → s.hw.coreOn = true → s.hw.classRoom 1 = true →
    s.hw.nextCommand = some (p, e) → e.frame.ty = 0x01 → ((s.hw.removeCommand p e).dupAccept p e.frame).2 = true →
    s.hw.running = true → regForm e.frame.payload false ≠ 0 →
    Completes (.regRead) s (fun x => x.hw.net.egress.getLast?.map (fun d => (d.frame.ty, d.frame.cls, d.frame.rsp,
    d.frame.dst, d.frame.payload)) = some (e.frame.ty, 1, true, e.frame.src,
    regHead e.frame.payload (regForm e.frame.payload false) 0) ∧
    (x.hw.port p).fifo = (s.hw.port p).fifo.filter (fun y => decide (y.order ≠ e.order)))) ∧
  (∀ (s : State) (p : Port) (e : CmdEntry) (w : State × Nat × Nat), s.hw.live = true → s.hw.coreOn = true →
    s.hw.classRoom 1 = true → s.hw.nextCommand = some (p, e) → e.frame.ty = 0x02 →
    ((s.hw.removeCommand p e).dupAccept p e.frame).2 = true → s.hw.running = true → regForm e.frame.payload true = 0 →
    w = ({ s with hw := ((s.hw.removeCommand p e).dupAccept p e.frame).1 } : State).writeWords (reqOfPort p) e.frame.src (regAddr e.frame.payload) ((List.range (regCount e.frame.payload)).map (fun i => BitVec.ofNat 32 (beAt e.frame.payload (12 + 4 * i) 4))) 0 →
    Completes (.regWrite) s (fun x => x.hw.net.egress.getLast?.map (fun d => (d.frame.ty, d.frame.cls, d.frame.rsp,
    d.frame.dst, d.frame.payload)) = some (e.frame.ty, 1, true, e.frame.src, regHead e.frame.payload w.2.1 w.2.2) ∧
    x.status = w.2.1 ∧ x.hw = w.1.hw.respond p e (regHead e.frame.payload w.2.1 w.2.2) ∧ x.frozen = w.1.frozen)) ∧
  (∀ (s : State) (p : Port) (e : CmdEntry), s.hw.live = true → s.hw.coreOn = true → s.hw.classRoom 1 = true →
    s.hw.nextCommand = some (p, e) → e.frame.ty = 0x02 → ((s.hw.removeCommand p e).dupAccept p e.frame).2 = true →
    s.hw.running = true → regForm e.frame.payload true ≠ 0 →
    Completes (.regWrite) s (fun x => x.hw.net.egress.getLast?.map (fun d => (d.frame.ty, d.frame.cls, d.frame.rsp,
    d.frame.dst, d.frame.payload)) = some (e.frame.ty, 1, true, e.frame.src,
    regHead e.frame.payload (regForm e.frame.payload true) 0) ∧
    (x.hw.port p).fifo = (s.hw.port p).fifo.filter (fun y => decide (y.order ≠ e.order)))) ∧
  (∀ (s : State) (p : Port) (e : CmdEntry), s.hw.live = true → s.hw.coreOn = true → s.hw.classRoom 1 = true →
    s.hw.nextCommand = some (p, e) → e.frame.ty = 0x02 → ((s.hw.removeCommand p e).dupAccept p e.frame).2 = true →
    s.hw.running = false → s.hw.get SYS_BOOT_MODE ≠ 2 →
    Completes (.regWrite) s (fun x => x.hw.net.egress.getLast?.map (fun d => (d.frame.ty, d.frame.cls, d.frame.rsp,
    d.frame.dst, d.frame.payload)) = some (e.frame.ty, 1, true, e.frame.src, regHead e.frame.payload 1 0) ∧
    (x.hw.port p).fifo = (s.hw.port p).fifo.filter (fun y => decide (y.order ≠ e.order)))) ∧
  (∀ (s : State) (p : Port) (e : CmdEntry), s.hw.live = true → s.hw.coreOn = true → s.hw.classRoom 1 = true →
    s.hw.nextCommand = some (p, e) → e.frame.ty = 0x02 → ((s.hw.removeCommand p e).dupAccept p e.frame).2 = true →
    s.hw.running = false → s.hw.get SYS_BOOT_MODE = 2 →
    Completes (.regWrite) s (fun x => x.hw.net.egress.getLast?.map (fun d => (d.frame.ty, d.frame.cls, d.frame.rsp,
    d.frame.dst, d.frame.payload)) = some (e.frame.ty, 1, true, e.frame.src, regHead e.frame.payload 8 0) ∧
    (x.hw.port p).fifo = (s.hw.port p).fifo.filter (fun y => decide (y.order ≠ e.order)))) ∧
  (∀ (s : State) (p : Port) (e : CmdEntry), s.hw.live = true → s.hw.coreOn = true → s.hw.classRoom 1 = true →
    s.hw.nextCommand = some (p, e) → e.frame.ty = 0x02 → ((s.hw.removeCommand p e).dupAccept p e.frame).2 = false →
    Completes (.regWrite) s (fun x => x = { s with hw := ((s.hw.removeCommand p e).dupAccept p e.frame).1 } ∧
    x.hw.net.egress = s.hw.net.egress ∧
    (x.hw.port p).fifo = (s.hw.port p).fifo.filter (fun y => decide (y.order ≠ e.order)))) ∧
  (∀ (s : State) (p : Port) (e : CmdEntry), s.hw.live = true → s.hw.coreOn = true → s.hw.classRoom 1 = true →
    s.hw.nextCommand = some (p, e) → e.frame.ty = 0x03 → ((s.hw.removeCommand p e).dupAccept p e.frame).2 = true →
    s.hw.running = true → snapForm e.frame.payload = 0 → s.hw.snapTaken (reqOfPort p) = false →
    s.hw.snapOwned (reqOfPort p) = true →
    Completes (.snapRead) s (fun x => x.hw.net.egress.getLast?.map (fun d => (d.frame.ty, d.frame.cls, d.frame.rsp,
    d.frame.dst, d.frame.payload)) = some (e.frame.ty, 1, true, e.frame.src,
    snapHead e.frame.payload 0 ((s.frozen.getD ((s.hw.removeCommand p e).dupAccept p e.frame).1).get SYS_EPOCH_EPOCH) ++ ((Hw.readRanges s.frozen (reqOfPort p) (snapRanges e.frame.payload) ((s.hw.removeCommand p e).dupAccept p e.frame).1).2).flatMap (fun w => beBytes 4 w.toNat)) ∧
    (s.hw.epoch.snapAuto = false → x.frozen = s.frozen) ∧ (s.hw.epoch.snapAuto = true → x.frozen = none) ∧
    (x.hw.port p).fifo = (s.hw.port p).fifo.filter (fun y => decide (y.order ≠ e.order)))) ∧
  (∀ (s : State) (p : Port) (e : CmdEntry), s.hw.live = true → s.hw.coreOn = true → s.hw.classRoom 1 = true →
    s.hw.nextCommand = some (p, e) → e.frame.ty = 0x03 → ((s.hw.removeCommand p e).dupAccept p e.frame).2 = true →
    s.hw.running = true → snapForm e.frame.payload = 0 → s.hw.snapTaken (reqOfPort p) = true →
    Completes (.snapRead) s (fun x => x.hw.net.egress.getLast?.map (fun d => (d.frame.ty, d.frame.cls, d.frame.rsp,
    d.frame.dst, d.frame.payload)) = some (e.frame.ty, 1, true, e.frame.src, snapHead e.frame.payload 7 0) ∧
    x.frozen = s.frozen ∧ (x.hw.port p).fifo = (s.hw.port p).fifo.filter (fun y => decide (y.order ≠ e.order)))) ∧
  (∀ (s : State) (p : Port) (e : CmdEntry), s.hw.live = true → s.hw.coreOn = true → s.hw.classRoom 1 = true →
    s.hw.nextCommand = some (p, e) → e.frame.ty = 0x03 → s.hw.running = true → snapForm e.frame.payload = 0 →
    s.hw.snapTaken (reqOfPort p) = false → s.hw.on SYS_SNAP_HELD = false → s.hw.epoch.snapReq = none →
    s.hw.seq.running = true → s.hw.nextBoundary = none →
    Completes (.snapRead) s (fun x => x.hw.epoch.snapReq = some (reqOfPort p) ∧ x.hw.epoch.snapAuto = true ∧
    x.hw.net = s.hw.net ∧ x.hw.regs = s.hw.regs)) ∧
  (∀ (s : State) (p : Port) (e : CmdEntry), s.hw.live = true → s.hw.coreOn = true → s.hw.classRoom 1 = true →
    s.hw.nextCommand = some (p, e) → e.frame.ty = 0x31 → ((s.hw.removeCommand p e).dupAccept p e.frame).2 = true →
    e.frame.payload.length = 8 → beAt e.frame.payload 2 2 = 0 →
    Completes (.capDisc) s (fun x => x.hw.net.egress.getLast?.map (fun d => (d.frame.ty, d.frame.cls, d.frame.rsp,
    d.frame.dst, d.frame.payload)) = some (e.frame.ty, 1, true, e.frame.src, e.frame.payload.take 2 ++ [0,
    byte (portNo p)] ++ slice e.frame.payload 4 4 ++ [byte e.hopsArr,
    0] ++ beBytes 2 (18 - beAt e.frame.payload 4 4) ++ (((s.hw.removeCommand p e).dupAccept p e.frame).1.liveReg SYS_ID :: (s.frozen.getD ((s.hw.removeCommand p e).dupAccept p e.frame).1).liveReg SYS_EPOCH :: (List.range (18 - beAt e.frame.payload 4 4)).map (fun i => ((s.hw.removeCommand p e).dupAccept p e.frame).1.liveReg (0x100 + 4 * (beAt e.frame.payload 4 4 + i)))).flatMap (fun w => beBytes 4 w.toNat)) ∧
    (x.hw.port p).fifo = (s.hw.port p).fifo.filter (fun y => decide (y.order ≠ e.order)))) ∧
  (∀ (s : State) (p : Port) (e : CmdEntry), s.hw.live = true → s.hw.coreOn = true → s.hw.classRoom 1 = true →
    s.hw.nextCommand = some (p, e) → e.frame.ty = 0x31 → ((s.hw.removeCommand p e).dupAccept p e.frame).2 = true →
    (e.frame.payload.length ≠ 8 ∨ beAt (padded e.frame.payload 8) 2 2 ≠ 0) →
    Completes (.capDisc) s (fun x => x.hw.net.egress.getLast?.map (fun d => (d.frame.ty, d.frame.cls, d.frame.rsp,
    d.frame.dst, d.frame.payload)) = some (e.frame.ty, 1, true, e.frame.src, (padded e.frame.payload 8).take 2 ++ [4,
    byte (portNo p)] ++ slice (padded e.frame.payload 8) 4 4) ∧
    (x.hw.port p).fifo = (s.hw.port p).fifo.filter (fun y => decide (y.order ≠ e.order)))) ∧
  (∀ (s : State) (p : Port) (m : PortMsg) (rest : List PortMsg), s.hw.live = true → s.hw.linkOn = true →
    (s.hw.port p).linkMsgs = m :: rest → beAt m.frame.payload 0 1 = 1 →
    Completes (.linkCtlWake p) s (fun x => (x.hw.port p).linkMsgs = rest ∧ (s.hw.coreOn = false →
    (x.hw.xing (5 + portNo p)).busy = true) ∧ (s.hw.clk.core.mode = .off → x.hw.clk.core.mode = .waking) ∧
    x.hw.ns + 1000000 * beAt m.frame.payload 2 2 ≤ max (x.hw.port p).holdAwake x.hw.ns)) ∧
  (∀ (s : State) (p : Port) (m : PortMsg) (rest : List PortMsg), s.hw.live = true → s.hw.linkOn = true →
    (s.hw.port p).linkMsgs = m :: rest → beAt m.frame.payload 0 1 = 2 →
    Completes (.linkCtlStatus p) s (fun x => (x.hw.port p).linkMsgs = rest ∧
    (x.hw.port p).answers.length = (s.hw.port p).answers.length + 1 ∧
    (x.hw.port p).answers.getLast?.map (fun f => (f.ty, f.cls, f.rsp, f.dst)) = some (0x40, 1, true, m.frame.src) ∧
    (x.hw.port p).answers.getLast?.map (fun f => f.payload) = some ([2, 0, 0,
    0] ++ beBytes 4 (s.hw.reg (LNK_STATUS (portNo p))).toNat ++ beBytes 2 (s.hw.get SYS_HUB_ID_ID) ++ [0, 0]))) ∧
  (∀ (s : State) (p : Port) (m : PortMsg) (rest : List PortMsg), s.hw.live = true → s.hw.linkOn = true →
    (s.hw.port p).linkMsgs = m :: rest → beAt m.frame.payload 0 1 = 3 →
    Completes (.linkCtlRetrain p) s (fun x => (x.hw.port p).linkMsgs = rest ∧ x.hw.linkState p = 0))

/-- On a live hub whose CORE runs, the free engine takes the next history block of the stream whose turn it is, where the
pool has room and every word of it has been decided: channel 1, with its stream, era, first index, LAST and count, and
HPOS passes it. With no history block waiting and the staging buffer free, the next block of the segment at the head
of the readout starts in channel 2 with at most 16,384 of the words that its stream still has; the segment's entry
frame, not sent yet, goes first. A complete history block stands in the directory under its age, with its place and
size, and the next block starts after it; with no job running the engine is then free. A complete segment block waits
in the staging buffer where class 5 has no room; one of a single fragment passes to the queue. -/
def Obligations.CinchBlocks : Prop :=
  (∀ (s : State) (k n : Nat) (e : Era) (l : Bool) (h1 : Hw), s.hw.live = true → s.hw.coreOn = true →
    s.hw.cin.block = none → s.hw.histOrder.head? = some k → Hw.makeRoom s.hw.histPlace 1025 s.hw = some h1 →
    s.hw.histNext k = some (e, n, l) → (s.hw.stream k).hpos + n ≤ s.hw.takeLimit k (s.hw.stream k).hpos →
    Completes (.histBlockStart k) s (fun x => x.hw.cin.block.map (fun b => (b.chan, b.id, b.sub, b.first,
    b.last)) = some (1, k, e.era, e.indexOf (s.hw.stream k).hpos, l) ∧ x.hw.cin.block.map (fun b => (b.input.length,
    b.place)) = some (n, s.hw.histPlace) ∧ (x.hw.stream k).hpos = (s.hw.stream k).hpos + n)) ∧
  (∀ (s : State) (k : Nat) (y : SegSt) (rest : List Nat), s.hw.live = true → s.hw.coreOn = true → k < 4096 →
    s.hw.cin.block = none → s.hw.histWaits = false → s.hw.cin.staging = none → s.hw.trg.reading = k :: rest →
    s.hw.seg k = some y → y.entrySent = true →
    Completes (.segBlockStart k) s (fun x => x.hw.cin.block.map (fun b => (b.chan, b.id, b.sub, b.first,
    b.last)) = some (2, k, y.rdStream, y.rdWord,
    decide (y.rdWord + min 16384 (s.hw.segHeld k - y.rdWord) = s.hw.segHeld k)) ∧
    x.hw.cin.block.map (fun b => b.input.length) = some (min 16384 (s.hw.segHeld k - y.rdWord)))) ∧
  (∀ (s : State) (k : Nat) (y : SegSt) (rest : List Nat), s.hw.live = true → s.hw.coreOn = true → k < 4096 →
    s.hw.cin.block = none → s.hw.histWaits = false → s.hw.cin.staging = none → s.hw.trg.reading = k :: rest →
    s.hw.seg k = some y → y.entrySent = false → s.hw.room 5 = true → s.hw.segHeld k ≠ 0 →
    Completes (.segBlockStart k) s (fun x => x.hw.cin.block.map (fun b => (b.chan, b.id, b.sub, b.first,
    b.last)) = some (2, k, y.rdStream, y.rdWord,
    decide (y.rdWord + min 16384 (s.hw.segHeld k - y.rdWord) = s.hw.segHeld k)) ∧
    x.hw.cin.block.map (fun b => b.input.length) = some (min 16384 (s.hw.segHeld k - y.rdWord)) ∧
    x.hw.net.egress.length = s.hw.net.egress.length + 1 ∧ x.hw.net.egress.getLast?.map (fun d => (d.frame.ty,
    d.frame.cls, d.frame.payload)) = some (0x13, 5, segHead k 0 false false 0 0 0 0 ++ s.hw.segEntry k))) ∧
  (∀ (s : State) (b : CinBlock), s.hw.live = true → s.hw.coreOn = true → s.hw.cin.block = some b → b.chan = 1 →
    Completes (.cinchBlockDone) s (fun x => (s.hw.get CIN_JOB_STAT_STATE ≠ 1 → x.hw.cin.block = none) ∧
    x.hw.cin.nextAge = (s.hw.cin.nextAge + 1) % 2 ^ 32 ∧
    x.hw.cin.nextOff = b.place + (makeBlock b.head b.input).1.length ∧
    (x.hw.dirEntry (s.hw.cin.nextAge % 1024)).map (fun w => (w.stream, w.era, w.first, w.count)) = some (b.id, b.sub,
    b.first, b.input.length) ∧ (x.hw.dirEntry (s.hw.cin.nextAge % 1024)).map (fun w => (w.offset, w.size,
    w.age)) = some (b.place, (makeBlock b.head b.input).1.length, s.hw.cin.nextAge))) ∧
  (∀ (s : State) (b : CinBlock) (y : SegSt), s.hw.live = true → s.hw.coreOn = true → s.hw.cin.block = some b →
    b.chan = 2 → s.hw.seg b.id = some y → s.hw.room 5 = false →
    Completes (.cinchBlockDone) s (fun x => x.hw.cin.staging.map (fun w => (w.seg, w.sofs, w.block, w.off,
    w.words)) = some (b.id, b.sub, b.place, 0, b.input.length) ∧
    x.hw.cin.staging.map (fun w => w.bytes) = some (makeBlock b.head b.input).1 ∧ x.hw.net.egress = s.hw.net.egress)) ∧
  (∀ (s : State) (b : CinBlock) (y : SegSt), s.hw.live = true → s.hw.coreOn = true → s.hw.cin.block = some b →
    b.chan = 2 → s.hw.seg b.id = some y → s.hw.room 5 = true → (makeBlock b.head b.input).1.length ≤ fragBytes →
    y.rdWord + b.input.length < s.hw.segHeld b.id → Completes (.cinchBlockDone) s (fun x => x.hw.cin.staging = none ∧
    (x.hw.seg b.id).map (fun z => (z.rdStream, z.rdWord)) = some (y.rdStream, y.rdWord + b.input.length) ∧
    x.hw.net.egress.length = s.hw.net.egress.length + 1 ∧ x.hw.net.egress.getLast?.map (fun d => (d.frame.ty,
    d.frame.cls, d.frame.payload)) = some (0x13, 5,
    segHead b.id 1 b.flagged true b.sub b.place 0 (makeBlock b.head b.input).1.length ++ (makeBlock b.head b.input).1)))

/-- GO alone starts a job at 0 under the next number with its range and settings, and is refused, with the engine and the
state as they were, while one runs or stops or where its range or settings do not fit. ABORT ends a running or stopped
job, discards its partial block and a block of it in the engine, and leaves the ring; of another job it leaves the
engine as it was. RESUME, and with SEND by itself once 4 KiB have been freed, continues a stopped job for whose next
byte there is room, and leaves another stopped. CIN_OUT_RD takes a value within what has been written, refuses
another, and ignores writes with SEND. A block that does not fit stops the job with the block partly held; one that
fits counts in OUT_WR, IN and OUT, and the last ends the job. -/
def Obligations.CinchJobs : Prop :=
  (∀ (s : State) (q : Requester) (src : Nat) (v : Word), s.hw.writable q = true → bits v 31 29 = 4 →
    s.hw.get CIN_JOB_STAT_STATE ≠ 1 → s.hw.get CIN_JOB_STAT_STATE ≠ 2 →
    s.hw.get CIN_JOB_SRC_SRC + s.hw.get CIN_JOB_LEN_WORDS ≤ 6291456 → s.hw.get CIN_JOB_LEN_WORDS ≠ 0 →
    17 ≤ s.hw.get MEM_WORK_POOL_LEN_TILES → (s.hw.writeRw CIN_JOB_CTL 0x1000013F v).get CIN_JOB_CTL_LEVEL ≤ 9 →
    (s.hw.writeRw CIN_JOB_CTL 0x1000013F v).get CIN_JOB_CTL_PRED ≠ 3 →
    Completes (.cinJobGo q src v) s (fun x => x.hw.get CIN_JOB_STAT_STATE = 1 ∧
    x.hw.get CIN_JOB_STAT_JOBNO = (s.hw.get CIN_JOB_STAT_JOBNO + 1) % 65536 ∧ x.hw.get CIN_JOB_IN_IN = 0 ∧
    x.hw.get CIN_JOB_OUT_OUT = 0 ∧ x.hw.get CIN_OUT_WR_WR = 0 ∧ x.hw.get CIN_OUT_RD_RD = 0 ∧
    x.hw.cin.job.map (fun j => (j.src, j.words, j.dest)) = some (s.hw.get CIN_JOB_SRC_SRC, s.hw.get CIN_JOB_LEN_WORDS,
    answerTo q src) ∧ x.hw.cin.job.map (fun j => (j.level, j.pred,
    j.send)) = some ((s.hw.writeRw CIN_JOB_CTL 0x1000013F v).get CIN_JOB_CTL_LEVEL,
    (s.hw.writeRw CIN_JOB_CTL 0x1000013F v).get CIN_JOB_CTL_PRED,
    (s.hw.writeRw CIN_JOB_CTL 0x1000013F v).on CIN_JOB_CTL_SEND))) ∧
  (∀ (s : State) (q : Requester) (src : Nat) (v : Word), s.hw.writable q = true → bits v 31 29 = 4 →
    (s.hw.get CIN_JOB_STAT_STATE = 1 ∨ s.hw.get CIN_JOB_STAT_STATE = 2 ∨
    6291456 < s.hw.get CIN_JOB_SRC_SRC + s.hw.get CIN_JOB_LEN_WORDS ∨ s.hw.get CIN_JOB_LEN_WORDS = 0 ∨
    s.hw.get MEM_WORK_POOL_LEN_TILES < 17 ∨ 9 < (s.hw.writeRw CIN_JOB_CTL 0x1000013F v).get CIN_JOB_CTL_LEVEL ∨
    (s.hw.writeRw CIN_JOB_CTL 0x1000013F v).get CIN_JOB_CTL_PRED = 3) →
    Completes (.cinJobGo q src v) s (fun x => x.hw.on CIN_JOB_STAT_REFUSED = true ∧ x.hw.cin = s.hw.cin ∧
    x.hw.get CIN_JOB_STAT_STATE = s.hw.get CIN_JOB_STAT_STATE)) ∧
  (∀ (s : State) (q : Requester) (v : Word), s.hw.writable q = true → natBit v.toNat 29 = true →
    (s.hw.get CIN_JOB_STAT_STATE = 1 ∨ s.hw.get CIN_JOB_STAT_STATE = 2) →
    Completes (.cinJobAbort q v) s (fun x => x.hw.get CIN_JOB_STAT_STATE = 4 ∧ x.hw.on CIN_JOB_STAT_MID = false ∧
    x.hw.get CIN_OUT_WR_WR = s.hw.get CIN_OUT_WR_WR ∧ x.hw.get CIN_OUT_RD_RD = s.hw.get CIN_OUT_RD_RD ∧
    x.hw.cin.job.any (fun j => j.partBlock.isSome) = false ∧
    x.hw.cin.block = s.hw.cin.block.filter (fun b => decide (b.chan ≠ 3)))) ∧
  (∀ (s : State) (q : Requester) (v : Word), s.hw.writable q = true → natBit v.toNat 29 = true →
    s.hw.get CIN_JOB_STAT_STATE ≠ 1 → s.hw.get CIN_JOB_STAT_STATE ≠ 2 →
    Completes (.cinJobAbort q v) s (fun x => x.hw.cin = s.hw.cin ∧
    x.hw.get CIN_JOB_STAT_STATE = s.hw.get CIN_JOB_STAT_STATE)) ∧
  (∀ (s : State) (q : Requester) (v : Word) (j : JobSt), s.hw.writable q = true → bits v 31 29 = 2 →
    s.hw.get CIN_JOB_STAT_STATE = 2 → s.hw.cin.job = some j →
    (if natBit v.toNat 28 = true then 0 else j.partSize) < s.hw.ringFree →
    Completes (.cinJobResume q v) s (fun x => x.hw.get CIN_JOB_STAT_STATE = 1 ∧ x.hw.on CIN_JOB_STAT_MID = false)) ∧
  (∀ (s : State) (q : Requester) (v : Word) (j : JobSt), s.hw.writable q = true → bits v 31 29 = 2 →
    s.hw.get CIN_JOB_STAT_STATE = 2 → s.hw.cin.job = some j →
    s.hw.ringFree ≤ (if natBit v.toNat 28 = true then 0 else j.partSize) →
    Completes (.cinJobResume q v) s (fun x => x.hw.get CIN_JOB_STAT_STATE = 2 ∧
    x.hw.on CIN_JOB_STAT_MID = s.hw.on CIN_JOB_STAT_MID ∧ x.hw.cin.block = s.hw.cin.block)) ∧
  (∀ (s : State) (j : JobSt), s.hw.live = true → s.hw.coreOn = true → s.hw.cin.job = some j → j.send = true →
    4096 ≤ j.freed → s.hw.get CIN_JOB_STAT_STATE = 2 → j.partSize < s.hw.ringFree →
    Completes (.cinJobAutoResume) s (fun x => x.hw.get CIN_JOB_STAT_STATE = 1 ∧ x.hw.on CIN_JOB_STAT_MID = false)) ∧
  (∀ (s : State) (j : JobSt), s.hw.live = true → s.hw.coreOn = true → s.hw.cin.job = some j → j.send = true →
    4096 ≤ j.freed → s.hw.get CIN_JOB_STAT_STATE = 2 → s.hw.ringFree ≤ j.partSize →
    Completes (.cinJobAutoResume) s (fun x => x.hw.get CIN_JOB_STAT_STATE = 2 ∧ x.hw.regs = s.hw.regs ∧
    x.hw.cin.block = s.hw.cin.block)) ∧
  (∀ (s : State) (q : Requester) (v : Word), s.hw.writable q = true → s.hw.cin.job.any (fun j => j.send) = false →
    (v.toNat + 2 ^ 32 - s.hw.get CIN_OUT_RD_RD) % 2 ^ 32 ≤ s.hw.ringUsed →
    Completes (.cinOutRdWrite q v) s (fun x => x.hw.get CIN_OUT_RD_RD = v.toNat ∧
    x.hw.get CIN_OUT_WR_WR = s.hw.get CIN_OUT_WR_WR ∧ x.hw.cin = s.hw.cin)) ∧
  (∀ (s : State) (q : Requester) (v : Word), s.hw.writable q = true → s.hw.cin.job.any (fun j => j.send) = false →
    s.hw.ringUsed < (v.toNat + 2 ^ 32 - s.hw.get CIN_OUT_RD_RD) % 2 ^ 32 →
    Completes (.cinOutRdWrite q v) s (fun x => x.hw.get CIN_OUT_RD_RD = s.hw.get CIN_OUT_RD_RD ∧
    x.hw.on CIN_JOB_STAT_REFUSED = true)) ∧
  (∀ (s : State) (q : Requester) (v : Word), s.hw.writable q = true → s.hw.cin.job.any (fun j => j.send) = true →
    Completes (.cinOutRdWrite q v) s (fun x => x = { s with rdata := [], status := 0 })) ∧
  (∀ (s : State) (b : CinBlock) (j : JobSt), s.hw.live = true → s.hw.coreOn = true → s.hw.cin.block = some b →
    b.chan = 3 → s.hw.cin.job = some j → s.hw.ringFree < (makeBlock b.head b.input).1.length →
    Completes (.cinchBlockDone) s (fun x => x.hw.cin.block = none ∧ x.hw.get CIN_JOB_STAT_STATE = 2 ∧
    x.hw.on CIN_JOB_STAT_MID = true ∧ x.hw.get CIN_OUT_WR_WR = s.hw.get CIN_OUT_WR_WR ∧
    x.hw.get CIN_JOB_IN_IN = s.hw.get CIN_JOB_IN_IN ∧ x.hw.get CIN_JOB_OUT_OUT = s.hw.get CIN_JOB_OUT_OUT ∧
    x.hw.cin.job.map (fun w => w.partSize) = some s.hw.ringFree ∧
    x.hw.cin.job.map (fun w => w.partBlock) = some (some { b with input := b.input.take (stopState b.head (s.hw.ringFree - 36) b.input).1, saved := (stopState b.head (s.hw.ringFree - 36) b.input).2 }))) ∧
  (∀ (s : State) (b : CinBlock) (j : JobSt), s.hw.live = true → s.hw.coreOn = true → s.hw.cin.block = some b →
    b.chan = 3 → s.hw.cin.job = some j → (makeBlock b.head b.input).1.length ≤ s.hw.ringFree →
    Completes (.cinchBlockDone) s (fun x => x.hw.get CIN_OUT_WR_WR = (s.hw.get CIN_OUT_WR_WR + (makeBlock b.head b.input).1.length) % 2 ^ 32 ∧
    x.hw.get CIN_JOB_IN_IN = (j.done + b.input.length) % 2 ^ 32 ∧
    x.hw.get CIN_JOB_OUT_OUT = (s.hw.get CIN_JOB_OUT_OUT + (makeBlock b.head b.input).1.length) % 2 ^ 32 ∧
    x.hw.get CIN_JOB_STAT_STATE = (if b.last = true then 3 else s.hw.get CIN_JOB_STAT_STATE)))

/-- On a live hub whose SerDes runs, DOWN ends after 10 us and no sooner; in CLOCK a locked clock lane shows CLK_LOCK, and
100 us of held lock end CLOCK; in LOCK the lanes that have taken the four steps are healthy, and LOCK ends when all
are, or after 8 ms with at least one; in WIDTH the partner's AMs with STATE 3 or 4 bring the port UP on the lanes
healthy on both sides, and to DOWN where there is none; a port in CLOCK, LOCK or WIDTH TRAIN_MS after it left DOWN
reports and returns to DOWN; so does one whose locked clock lane is lost; RETRAIN goes to DOWN, and a write of
LNKx_CTL puts RICH_EVERY and stages MIN_WIDTH. -/
def Obligations.PortTraining : Prop :=
  (∀ (s : State) (p : Port), s.hw.live = true → s.hw.linkOn = true → s.hw.linkState p = 0 →
    s.hw.due ((s.hw.port p).stateSince + 10000) = true → Completes (.portDownEnd p) s (fun x => x.hw.linkState p = 1 ∧
    (x.hw.port p).leftDown = s.hw.ns)) ∧
  (∀ (s : State) (p : Port), s.hw.live = true → s.hw.linkOn = true → s.hw.linkState p = 0 →
    s.hw.due ((s.hw.port p).stateSince + 10000) = false → Completes (.portDownEnd p) s (fun x => x = s)) ∧
  (∀ (s : State) (p : Port) (held : Nat), s.hw.live = true → s.hw.linkOn = true → s.hw.linkState p = 1 →
    (100000 ≤ held ∨ s.hw.on (LNK_STATUS_CLK_LOCK (portNo p)) = true ∧
    s.hw.due ((s.hw.port p).clkSince + 100000) = true) →
    Completes (.clockLaneLocked p held) s (fun x => x.hw.linkState p = 2 ∧
    x.hw.on (LNK_STATUS_CLK_LOCK (portNo p)) = true)) ∧
  (∀ (s : State) (p : Port) (held : Nat), s.hw.live = true → s.hw.linkOn = true → s.hw.linkState p = 1 →
    held < 100000 → s.hw.on (LNK_STATUS_CLK_LOCK (portNo p)) = false →
    Completes (.clockLaneLocked p held) s (fun x => x.hw.linkState p = 1 ∧
    x.hw.on (LNK_STATUS_CLK_LOCK (portNo p)) = true ∧ (x.hw.port p).clkSince = s.hw.ns - held)) ∧
  (∀ (s : State) (p : Port) (steps : List Nat) (m : Nat), s.hw.live = true → s.hw.linkOn = true →
    s.hw.linkState p = 2 → m = ([0, 1, 2,
    3] : List Nat).foldl (fun a l => a + b2n (decide (4 ≤ max (s.hw.lane p l).lockStep (steps.getD l 0))) * 2 ^ l) 0 →
    (m = 15 ∨ (m ≠ 0 ∧ s.hw.due ((s.hw.port p).stateSince + 8000000) = true)) →
    Completes (.lockDone p steps) s (fun x => x.hw.linkState p = 3 ∧ x.hw.healthy p = m)) ∧
  (∀ (s : State) (p : Port) (steps : List Nat) (m : Nat), s.hw.live = true → s.hw.linkOn = true →
    s.hw.linkState p = 2 → m = ([0, 1, 2,
    3] : List Nat).foldl (fun a l => a + b2n (decide (4 ≤ max (s.hw.lane p l).lockStep (steps.getD l 0))) * 2 ^ l) 0 →
    m ≠ 15 → (m = 0 ∨ s.hw.due ((s.hw.port p).stateSince + 8000000) = false) →
    Completes (.lockDone p steps) s (fun x => x.hw.linkState p = 2 ∧ x.hw.healthy p = m)) ∧
  (∀ (s : State) (p : Port) (lvs : List (List Int)) (m : Marker), s.hw.live = true → s.hw.linkOn = true →
    s.hw.linkState p = 3 → (s.hw.hear p lvs).mark (fun m => decide (m.ctype = ctypeAm ∧ (m.state = 3 ∨
    m.state = 4))) = some m → s.hw.healthy p &&& m.healthy ≠ 0 →
    Completes (.portUp p lvs) s (fun x => x.hw.linkState p = 4 ∧ x.hw.active p = s.hw.healthy p &&& m.healthy ∧
    x.hw.get (LNK_STATUS_WIDTH (portNo p)) = popCount 4 (s.hw.healthy p &&& m.healthy) ∧
    x.hw.get (LNK_STATUS_P_HEALTHY (portNo p)) = m.healthy)) ∧
  (∀ (s : State) (p : Port) (lvs : List (List Int)) (m : Marker), s.hw.live = true → s.hw.linkOn = true →
    s.hw.linkState p = 3 → (s.hw.hear p lvs).mark (fun m => decide (m.ctype = ctypeAm ∧ (m.state = 3 ∨
    m.state = 4))) = some m → s.hw.healthy p &&& m.healthy = 0 →
    Completes (.portUp p lvs) s (fun x => x.hw.linkState p = 0 ∧ x.hw.active p = 0)) ∧
  (∀ (s : State) (p : Port), s.hw.live = true → s.hw.linkOn = true → 1 ≤ s.hw.linkState p → s.hw.linkState p ≤ 3 →
    s.hw.due ((s.hw.port p).leftDown + s.hw.trainMs p) = true →
    Completes (.trainingFail p) s (fun x => x.hw.linkState p = 0 ∧ x.hw.on (LNK_EVT_TRAINING_FAIL (portNo p)) = true ∧
    x.hw.on (statusBit (srcPortTrainingFail (portNo p))) = true)) ∧
  (∀ (s : State) (p : Port), s.hw.live = true → s.hw.linkOn = true →
    s.hw.on (LNK_STATUS_CLK_LOCK (portNo p)) = true → Completes (.clockLaneLoss p) s (fun x => x.hw.linkState p = 0 ∧
    x.hw.on (LNK_EVT_CLOCK_LANE_LOSS (portNo p)) = true ∧
    x.hw.on (statusBit (srcPortClockLaneLoss (portNo p))) = true)) ∧
  (∀ (s : State) (q : Requester) (p : Port) (v : Word), s.hw.writable q = true → natBit v.toNat 31 = true →
    Completes (.lnkRetrain q p v) s (fun x => x.hw.linkState p = 0 ∧ x.hw.stagedOr (LNK_CTL (portNo p)) = v &&& 7 ∧
    x.hw.get (LNK_CTL_RICH_EVERY (portNo p)) = bits v 19 16)) ∧
  (∀ (s : State) (q : Requester) (p : Port) (v : Word), s.hw.writable q = true → natBit v.toNat 31 = false →
    Completes (.lnkRetrain q p v) s (fun x => x.hw.linkState p = s.hw.linkState p ∧
    x.hw.stagedOr (LNK_CTL (portNo p)) = v &&& 7 ∧ x.hw.get (LNK_CTL_RICH_EVERY (portNo p)) = bits v 19 16))

/-- A healthy lane of a port in UP that fails leaves HEALTHY, counts from then toward its return, and reports its cause,
unless the partner has the lanes asleep and the cause is loss of signal, or a marker less than 2 us after the signal
came back; one that is out already counts anew. The port restripes over the lanes healthy on both sides, with ACTIVE
and WIDTH following, and goes to DOWN where none is left. A WIDTH block or AM with another HEALTHY does the same, and
each sets P_HEALTHY and P_RECAL. A lane out of HEALTHY with 10 ms of good AMs is healthy again. A healthy lane whose
recalibration has waited RECAL_MAX_S goes out without a lane-down. -/
def Obligations.LanesAndWidth : Prop :=
  (∀ (s : State) (p : Port) (l c back : Nat), s.hw.live = true → s.hw.linkOn = true → s.hw.up p = true → l < 4 →
    natBit (s.hw.healthy p) l = true → (s.hw.on (LNK_STATUS_RX_ASLEEP (portNo p)) = false ∨ c % 4 ≠ 0 ∧ (c % 4 ≠ 2 ∨
    2000 ≤ back)) → Completes (.laneDown p l c back) s (fun x => natBit (x.hw.healthy p) l = false ∧
    x.hw.on (LNK_EVT_LANE_DOWN (portNo p)) = true ∧ x.hw.on (statusBit (srcPortLaneDown (portNo p))) = true ∧
    x.hw.get (LNK_LANE_CAUSE (portNo p) l) = c % 4 ∧ (x.hw.lane p l).goodSince = s.hw.ns)) ∧
  (∀ (s : State) (p : Port) (l c back : Nat), s.hw.live = true → s.hw.linkOn = true → s.hw.up p = true → l < 4 →
    natBit (s.hw.healthy p) l = true → s.hw.on (LNK_STATUS_RX_ASLEEP (portNo p)) = true → (c % 4 = 0 ∨ c % 4 = 2 ∧
    back < 2000) → Completes (.laneDown p l c back) s (fun x => x = s)) ∧
  (∀ (s : State) (p : Port) (l c back : Nat), s.hw.live = true → s.hw.linkOn = true → s.hw.up p = true → l < 4 →
    natBit (s.hw.healthy p) l = false → Completes (.laneDown p l c back) s (fun x => x.hw.healthy p = s.hw.healthy p ∧
    x.hw.get (LNK_LANE_GOOD_MS (portNo p) l) = 0 ∧ (x.hw.lane p l).goodSince = s.hw.ns)) ∧
  (∀ (s : State) (p : Port), s.hw.live = true → s.hw.linkOn = true → s.hw.up p = true →
    s.hw.healthy p &&& s.hw.get (LNK_STATUS_P_HEALTHY (portNo p)) ≠ 0 →
    s.hw.active p ≠ s.hw.healthy p &&& s.hw.get (LNK_STATUS_P_HEALTHY (portNo p)) →
    Completes (.widthChange p) s (fun x => x.hw.active p = s.hw.healthy p &&& s.hw.get (LNK_STATUS_P_HEALTHY (portNo p)) ∧
    x.hw.get (LNK_STATUS_WIDTH (portNo p)) = popCount 4 (s.hw.healthy p &&& s.hw.get (LNK_STATUS_P_HEALTHY (portNo p))) ∧
    x.hw.up p = true ∧ (x.hw.port p).told = s.hw.healthy p)) ∧
  (∀ (s : State) (p : Port), s.hw.live = true → s.hw.linkOn = true → s.hw.up p = true →
    s.hw.healthy p &&& s.hw.get (LNK_STATUS_P_HEALTHY (portNo p)) = 0 → s.hw.active p ≠ 0 →
    Completes (.widthChange p) s (fun x => x.hw.linkState p = 0 ∧ x.hw.active p = 0)) ∧
  (∀ (s : State) (p : Port) (lvs : List (List Int)) (m : Marker), s.hw.live = true → s.hw.linkOn = true →
    s.hw.up p = true → (s.hw.hear p lvs).mark (fun _ => true) = some m →
    m.healthy ≠ s.hw.get (LNK_STATUS_P_HEALTHY (portNo p)) → s.hw.healthy p &&& m.healthy ≠ 0 →
    Completes (.widthBlockReceive p lvs) s (fun x => x.hw.active p = s.hw.healthy p &&& m.healthy ∧
    x.hw.get (LNK_STATUS_P_HEALTHY (portNo p)) = m.healthy ∧ x.hw.get (LNK_STATUS_P_RECAL (portNo p)) = m.recal ∧
    x.hw.up p = true)) ∧
  (∀ (s : State) (p : Port) (lvs : List (List Int)) (m : Marker), s.hw.live = true → s.hw.linkOn = true →
    s.hw.up p = true → (s.hw.hear p lvs).mark (fun _ => true) = some m →
    m.healthy = s.hw.get (LNK_STATUS_P_HEALTHY (portNo p)) →
    Completes (.widthBlockReceive p lvs) s (fun x => x.hw.active p = s.hw.active p ∧ x.hw.healthy p = s.hw.healthy p ∧
    x.hw.get (LNK_STATUS_P_HEALTHY (portNo p)) = m.healthy ∧ x.hw.get (LNK_STATUS_P_RECAL (portNo p)) = m.recal ∧
    x.hw.up p = true)) ∧
  (∀ (s : State) (p : Port) (l : Nat), s.hw.live = true → s.hw.linkOn = true → s.hw.up p = true → l < 4 →
    natBit (s.hw.healthy p) l = false → s.hw.due ((s.hw.lane p l).goodSince + 10000000) = true →
    Completes (.laneReadmit p l) s (fun x => natBit (x.hw.healthy p) l = true ∧
    x.hw.on (LNK_LANE_LOCKED (portNo p) l) = true ∧ (x.hw.lane p l).reEq = false ∧ x.hw.active p = s.hw.active p)) ∧
  (∀ (s : State) (p : Port) (l : Nat), s.hw.live = true → s.hw.linkOn = true → s.hw.up p = true → l < 4 →
    s.hw.on (LNK_TRK_RECAL_PEND (portNo p) l) = true → natBit (s.hw.healthy p) l = true →
    s.hw.get (LNK_RECAL_RECAL_MAX_S (portNo p)) ≠ 0 →
    s.hw.due ((s.hw.lane p l).recalSince + s.hw.get (LNK_RECAL_RECAL_MAX_S (portNo p)) * 1000000000) = true →
    Completes (.recalTimeout p l) s (fun x => natBit (x.hw.healthy p) l = false ∧
    x.hw.on (LNK_EVT_LANE_DOWN (portNo p)) = s.hw.on (LNK_EVT_LANE_DOWN (portNo p))))

/-- On a port in UP an offset that reaches its bound stands at plus or minus 8 with RECAL_PEND. A lane whose cell has
changed leaves HEALTHY, with its cell as it was, where no lane is out for that, no lower lane has changed and
MIN_WIDTH allows it; out of ACTIVE it takes the new cell. The clock cell steps every 100 us toward its target. With
LANE_x_EN and nothing to send for IDLE_NS the lanes go to sleep, those that the partner recalibrates 400 us later;
something to send wakes them. SLEEP blocks set RX_ASLEEP, and their lanes qualify no symbol of the next 64; a wake AM
clears it. An ABORT or reserved block discards the frame in reception. -/
def Obligations.LaneTuning : Prop :=
  (∀ (s : State) (p : Port) (l w : Nat) (up : Bool), s.hw.live = true → s.hw.linkOn = true → s.hw.up p = true →
    l < 4 → w < 4 → Completes (.trackBound p l w up) s (fun x => x.hw.offset p l w = (if up then 8 else -8) ∧
    x.hw.on (LNK_TRK_RECAL_PEND (portNo p) l) = true ∧ x.hw.linkState p = 4)) ∧
  (∀ (s : State) (p : Port) (l : Nat), s.hw.live = true → s.hw.linkOn = true → s.hw.up p = true → l < 4 →
    (s.hw.lane p l).eq ≠ s.hw.reg (LNK_EQ (portNo p) l) → natBit (s.hw.active p) l = true →
    natBit (s.hw.healthy p) l = true →
    (List.range 4).all (fun k => !(s.hw.lane p k).reEq && !(decide (k < l) && decide ((s.hw.lane p k).eq ≠ s.hw.reg (LNK_EQ (portNo p) k)))) = true →
    s.hw.get (LNK_CTL_MIN_WIDTH (portNo p)) ≤ popCount 4 (natPut (s.hw.active p) l l 0) →
    Completes (.laneReequalise p l) s (fun x => (x.hw.lane p l).eq = (s.hw.lane p l).eq ∧
    (x.hw.lane p l).reEq = true ∧ natBit (x.hw.healthy p) l = false ∧ x.hw.active p = s.hw.active p)) ∧
  (∀ (s : State) (p : Port) (l : Nat), s.hw.live = true → s.hw.linkOn = true → s.hw.up p = true → l < 4 →
    (s.hw.lane p l).eq ≠ s.hw.reg (LNK_EQ (portNo p) l) → natBit (s.hw.active p) l = false →
    Completes (.laneReequalise p l) s (fun x => (x.hw.lane p l).eq = s.hw.reg (LNK_EQ (portNo p) l) ∧
    x.hw.regs = s.hw.regs)) ∧
  (∀ (s : State) (p : Port), s.hw.live = true → s.hw.linkOn = true → s.hw.up p = true →
    (s.hw.lane p 4).eq ≠ s.hw.reg (LNK_EQ (portNo p) 4) → s.hw.due ((s.hw.lane p 4).goodSince + 100000) = true →
    Completes (.clockEqStep p) s (fun x => (x.hw.lane p 4).eq = BitVec.ofNat 32 (stepCell (s.hw.lane p 4).eq.toNat (s.hw.reg (LNK_EQ (portNo p) 4)).toNat) ∧
    x.hw.regs = s.hw.regs)) ∧
  (∀ (s : State) (p : Port), s.hw.live = true → s.hw.linkOn = true → s.hw.up p = true → s.hw.on (laneEn p) = true →
    s.hw.txAsleep p = false → s.hw.toSend p = false →
    s.hw.due ((s.hw.port p).idleSince + max 100 (s.hw.get (LNK_TIMING_IDLE_NS (portNo p)))) = true →
    (s.hw.port p).holdAwake ≤ s.hw.ns → Completes (.laneSleep p) s (fun x => x.hw.txAsleep p = true ∧
    x.hw.up p = true ∧ (x.hw.port p).nap = s.hw.get (LNK_STATUS_P_RECAL (portNo p)))) ∧
  (∀ (s : State) (p : Port), s.hw.live = true → s.hw.linkOn = true → s.hw.up p = true → s.hw.txAsleep p = true →
    (s.hw.port p).nap ≠ 0 → s.hw.due ((s.hw.port p).napSince + 400000) = true →
    Completes (.laneSleep p) s (fun x => x.hw.txAsleep p = true ∧ x.hw.up p = true ∧ (x.hw.port p).nap = 0)) ∧
  (∀ (s : State) (p : Port) (lvs : List (List Int)), s.hw.live = true → s.hw.linkOn = true → s.hw.up p = true →
    (s.hw.hear p lvs).marks.any (fun m => decide (m.ctype = ctypeSleep)) = true →
    Completes (.sleepBlockReceive p lvs) s (fun x => x.hw.on (LNK_STATUS_RX_ASLEEP (portNo p)) = true ∧
    (s.hw.hear p lvs).marks.all (fun m => decide (m.ctype = ctypeSleep → (x.hw.lane p m.lane).quiet = 64 ∧
    (x.hw.lane p m.lane).rprec = 0)) = true)) ∧
  (∀ (s : State) (p : Port), s.hw.live = true → s.hw.linkOn = true → s.hw.up p = true → s.hw.txAsleep p = true →
    s.hw.toSend p = true → Completes (.laneWake p) s (fun x => x.hw.txAsleep p = false ∧
    (x.hw.port p).idleSince = s.hw.ns ∧ (x.hw.port p).nap = 0)) ∧
  (∀ (s : State) (p : Port) (lvs : List (List Int)), s.hw.live = true → s.hw.linkOn = true →
    ((s.hw.hear p lvs).mark (fun m => decide (m.ctype = ctypeAm ∧ m.kind = 2))).isSome = true →
    Completes (.wakeAmReceive p lvs) s (fun x => x.hw.on (LNK_STATUS_RX_ASLEEP (portNo p)) = false ∧
    x = { s with hw := (s.hw.hear p lvs).hw.put (LNK_STATUS_RX_ASLEEP (portNo p)) 0 })) ∧
  (∀ (s : State) (p : Port) (lvs : List (List Int)), s.hw.live = true → s.hw.linkOn = true →
    (s.hw.hear p lvs).aborts = true → Completes (.abortBlockReceive p lvs) s (fun x => (x.hw.port p).rx = none)) ∧
  (∀ (s : State) (p : Port) (lvs : List (List Int)), s.hw.live = true → s.hw.linkOn = true →
    (s.hw.hear p lvs).aborts = false →
    Completes (.abortBlockReceive p lvs) s (fun x => (x.hw.port p).rx = (s.hw.port p).rx))

/-- On a port in UP of a live hub whose SerDes runs: a header that fails its check, or names more than 4,096 bytes,
discards the frame and counts in HCHK_ERR. A command frame for the hub that is no copy of another enters the port's
FIFO, incomplete, and where 64 stand there already counts in FIFO_BUSY and is refused. A trailer that fails counts in
CRC_ERR and takes the frame and its incomplete entry away; one that holds counts the frame and completes its entry. -/
def Obligations.FrameReception : Prop :=
  (∀ (s : State) (p : Port) (lvs : List (List Int)) (off : Nat) (obs : List TrackObs) (b : RxBlock) (sf : List Byte),
    s.hw.live = true → s.hw.linkOn = true → s.hw.up p = true → (s.hw.hear p lvs).sof = some b →
    sf = (b.body.drop 2).take 30 → (sf.length < 16 ∨ crc8Bytes (sf.take 15) ≠ beAt sf 15 1 ∨ 4096 < lenOf sf) →
    Completes (.frameHeaderReceive p lvs off obs) s (fun x => (x.hw.port p).rx = none ∧
    x.hw.get (LNK_RX_ERR_HCHK_ERR (portNo p)) = satAdd 16 (s.hw.get (LNK_RX_ERR_HCHK_ERR (portNo p))) 1 ∧
    x.hw.get (LNK_RX_FRAMES_FRAMES (portNo p)) = s.hw.get (LNK_RX_FRAMES_FRAMES (portNo p)))) ∧
  (∀ (s : State) (p : Port) (lvs : List (List Int)) (off : Nat) (obs : List TrackObs) (b : RxBlock) (sf : List Byte),
    s.hw.live = true → s.hw.linkOn = true → s.hw.up p = true → (s.hw.hear p lvs).sof = some b →
    sf = (b.body.drop 2).take 30 → 16 ≤ sf.length → crc8Bytes (sf.take 15) = beAt sf 15 1 → lenOf sf ≤ 4096 →
    s.hw.frameRoute (frameOf sf ((sf.drop 16).take (lenOf sf))) = (true, false) →
    (frameOf sf ((sf.drop 16).take (lenOf sf))).rsp = false →
    fifoType (frameOf sf ((sf.drop 16).take (lenOf sf))).ty = true →
    s.hw.inDup (frameOf sf ((sf.drop 16).take (lenOf sf))).src (frameOf sf ((sf.drop 16).take (lenOf sf))).seq = false →
    (s.hw.net.portA.fifo ++ s.hw.net.portB.fifo).any (sameCmd (frameOf sf ((sf.drop 16).take (lenOf sf)))) = false →
    (s.hw.port p).fifo.length < 64 →
    Completes (.frameHeaderReceive p lvs off obs) s (fun x => (x.hw.port p).fifo.getLast?.map (fun e => (e.frame,
    e.trailer, e.promoted)) = some ((frameOf sf ((sf.drop 16).take (lenOf sf))), none, false) ∧
    (x.hw.port p).rx.map (fun r => (r.consumed, r.forwarded, r.queued)) = some (true, false, true))) ∧
  (∀ (s : State) (p : Port) (lvs : List (List Int)) (off : Nat) (obs : List TrackObs) (b : RxBlock) (sf : List Byte),
    s.hw.live = true → s.hw.linkOn = true → s.hw.up p = true → (s.hw.hear p lvs).sof = some b →
    sf = (b.body.drop 2).take 30 → 16 ≤ sf.length → crc8Bytes (sf.take 15) = beAt sf 15 1 → lenOf sf ≤ 4096 →
    s.hw.frameRoute (frameOf sf ((sf.drop 16).take (lenOf sf))) = (true, false) →
    (frameOf sf ((sf.drop 16).take (lenOf sf))).rsp = false →
    fifoType (frameOf sf ((sf.drop 16).take (lenOf sf))).ty = true →
    s.hw.inDup (frameOf sf ((sf.drop 16).take (lenOf sf))).src (frameOf sf ((sf.drop 16).take (lenOf sf))).seq = false →
    (s.hw.net.portA.fifo ++ s.hw.net.portB.fifo).any (sameCmd (frameOf sf ((sf.drop 16).take (lenOf sf)))) = false →
    (s.hw.port p).rx = none → 64 ≤ (s.hw.port p).fifo.length →
    Completes (.frameHeaderReceive p lvs off obs) s (fun x => (x.hw.port p).fifo = (s.hw.port p).fifo ∧
    x.hw.get (LNK_FIFO_BUSY (portNo p)) = satAdd 16 (s.hw.get (LNK_FIFO_BUSY (portNo p))) 1 ∧
    (x.hw.port p).rx.map (fun r => (r.queued, r.refused)) = some (false, true))) ∧
  (∀ (s : State) (p : Port) (lvs : List (List Int)) (r : RxFrame), s.hw.live = true → s.hw.linkOn = true →
    s.hw.up p = true → (s.hw.port p).rx = some r →
    ¬ (((r.sof ++ (s.hw.hear p lvs).data).take (20 + lenOf r.sof)).length = 20 + lenOf r.sof ∧
    beNat (((r.sof ++ (s.hw.hear p lvs).data).take (20 + lenOf r.sof)).drop (16 + lenOf r.sof)) = crc32c (((r.sof ++ (s.hw.hear p lvs).data).take (20 + lenOf r.sof)).take 14 ++ (((r.sof ++ (s.hw.hear p lvs).data).take (20 + lenOf r.sof)).drop 16).take (lenOf r.sof))) →
    Completes (.frameTrailerCheck p lvs) s (fun x => (x.hw.port p).rx = none ∧
    x.hw.get (LNK_RX_ERR_CRC_ERR (portNo p)) = satAdd 16 (s.hw.get (LNK_RX_ERR_CRC_ERR (portNo p))) 1 ∧
    (x.hw.port p).fifo = (s.hw.port p).fifo.filter (fun e => e.trailer.isSome) ∧
    x.hw.get (LNK_RX_FRAMES_FRAMES (portNo p)) = s.hw.get (LNK_RX_FRAMES_FRAMES (portNo p)))) ∧
  (∀ (s : State) (p : Port) (lvs : List (List Int)) (r : RxFrame), s.hw.live = true → s.hw.linkOn = true →
    s.hw.up p = true → (s.hw.port p).rx = some r →
    ((r.sof ++ (s.hw.hear p lvs).data).take (20 + lenOf r.sof)).length = 20 + lenOf r.sof ∧
    beNat (((r.sof ++ (s.hw.hear p lvs).data).take (20 + lenOf r.sof)).drop (16 + lenOf r.sof)) = crc32c (((r.sof ++ (s.hw.hear p lvs).data).take (20 + lenOf r.sof)).take 14 ++ (((r.sof ++ (s.hw.hear p lvs).data).take (20 + lenOf r.sof)).drop 16).take (lenOf r.sof)) →
    Completes (.frameTrailerCheck p lvs) s (fun x => (x.hw.port p).rx = none ∧
    x.hw.get (LNK_RX_FRAMES_FRAMES (portNo p)) = satAdd 32 (s.hw.get (LNK_RX_FRAMES_FRAMES (portNo p))) 1 ∧
    (x.hw.port p).fifo.length = (s.hw.port p).fifo.length ∧ (r.queued = true →
    (x.hw.port p).fifo.all (fun e => e.trailer.isSome) = true) ∧ (r.queued = false →
    (x.hw.port p).fifo = (s.hw.port p).fifo)))

/-- Of the frames that a port may send, the one that its rule picks leaves. A stored frame that is forwarded leaves with
its payload, its trailer and its new hop count, or as a time frame with its residence added, and leaves the buffer;
one that is still coming in starts with its stamp; an answer of the port and a frame of the hub leave whole, a PONG
with its sending time. With LAG_US set, the copies that lag behind it are counted. Waiting event items leave in one
EVENT frame of class 4 under the epoch of the first. A read of the event queue takes the oldest item of the highest
class, answers 0 where there is none, and takes none while a snapshot is held. -/
def Obligations.FrameSending : Prop :=
  (∀ (s : State) (p : Port) (off : Nat) (e : FwdEntry), s.hw.live = true → s.hw.linkOn = true →
    s.hw.pick p = some (.fwd e) → e.complete = true →
    Completes (.frameForward p off) s (fun x => (x.hw.port p).fwd = (s.hw.port p).fwd.erase e ∧
    (x.hw.port p).lastSent = fwdBytes e ((s.hw.fillLanes p).txStamp p off))) ∧
  (∀ (s : State) (p : Port) (off : Nat) (e : FwdEntry), s.hw.live = true → s.hw.linkOn = true →
    s.hw.pick p = some (.fwd e) → e.complete = false →
    Completes (.frameForward p off) s (fun x => (x.hw.port p).fwd = (s.hw.port p).fwd.map (fun y => if y = e then { e with started := true, sentStamp := ((s.hw.fillLanes p).txStamp p off) } else y) ∧
    (x.hw.port p).lastSent = (s.hw.port p).lastSent)) ∧
  (∀ (s : State) (p : Port) (off : Nat) (f : Frame), s.hw.live = true → s.hw.linkOn = true →
    s.hw.pick p = some (.answer f) →
    Completes (.frameForward p off) s (fun x => (x.hw.port p).answers = (s.hw.port p).answers.drop 1 ∧
    (x.hw.port p).lastSent = f.bytes)) ∧
  (∀ (s : State) (p : Port) (off : Nat) (d : EgDesc), s.hw.live = true → s.hw.linkOn = true →
    s.hw.pick p = some (.own d) → d.pong = false →
    Completes (.egressSend p off) s (fun x => (x.hw.port p).lastSent = d.frame.bytes ∧
    (x.hw.port p).idleSince = s.hw.ns ∧ (x.hw.port p).fwd = (s.hw.port p).fwd)) ∧
  (∀ (s : State) (p : Port) (off : Nat) (d : EgDesc), s.hw.live = true → s.hw.linkOn = true →
    s.hw.pick p = some (.own d) → d.pong = true →
    Completes (.egressSend p off) s (fun x => (x.hw.port p).lastSent = ({ d.frame with payload := d.frame.payload.take 24 ++ timeBytesBe ((s.hw.fillLanes p).txStamp p off) ++ d.frame.payload.drop 38 } : Frame).bytes ∧
    (x.hw.port p).idleSince = s.hw.ns ∧ (x.hw.port p).fwd = (s.hw.port p).fwd)) ∧
  (∀ (s : State) (p : Port), s.hw.live = true → s.hw.linkOn = true → s.hw.up p = true →
    s.hw.get STR_FRM_CTL_LAG_US ≠ 0 →
    Completes (.egressLagDrop p) s (fun x => x.hw.get (LNK_FWD_DROP_LAG (portNo p)) = satAdd 16 (s.hw.get (LNK_FWD_DROP_LAG (portNo p))) (s.hw.net.egress.filter (fun d => unsent p d && d.firstSent.any (fun t => s.hw.due (t + 1000 * s.hw.get STR_FRM_CTL_LAG_US)))).length)) ∧
  (∀ (s : State) (i : EventItem × Nat) (rest : List (EventItem × Nat)), s.hw.live = true → s.hw.coreOn = true →
    s.hw.net.events = i :: rest → s.hw.room 4 = true →
    Completes (.eventFrameBuild) s (fun x => x.hw.net.egress.length = s.hw.net.egress.length + 1 ∧
    x.hw.net.egress.getLast?.map (fun d => (d.frame.ty, d.frame.cls, d.frame.epoch, d.frame.payload)) = some (0x12, 4,
    i.2 % 65536, ((i :: rest).take 102).flatMap (fun e => s.hw.itemBytes e.1)) ∧
    x.hw.net.events = (i :: rest).drop 102)) ∧
  (∀ (s : State) (q : Requester) (i : EvqItem), s.hw.readable q = true → s.frozen = none →
    evqFirst s.hw.net.evq = some i → Completes (.fltEvtQueueRead q) s (fun x => x.rdata = [evqWord i] ∧
    x.hw.net.evq = s.hw.net.evq.erase i ∧ x.hw.regs = s.hw.regs)) ∧
  (∀ (s : State) (q : Requester), s.hw.readable q = true → s.frozen = none → s.hw.net.evq = [] →
    Completes (.fltEvtQueueRead q) s (fun x => x = { s with rdata := [0], status := 0 })) ∧
  (∀ (s : State) (q : Requester) (f : Hw), s.hw.readable q = true → s.frozen = some f →
    Completes (.fltEvtQueueRead q) s (fun x => x = { s with rdata := [f.evqPeek], status := 0 }))

/-- A CRC window of a port in UP ends with its count judged against THR and starts the next at zero. The active port, with
a cause and not forced, gives up control: to the other port where that is healthy, to EITHER where it is not; without
a cause, or forced, it keeps it. While no port holds control, one that is healthy takes it, the preferred one first;
otherwise nothing changes. The preferred port takes it back after the hold. Shadow entries that waited SHADOW_US go
and are counted. FORCE is written outside FIELD, and a forced port in UP is active; in FIELD a write that would change
it leaves it and reports, and one that would not is none. -/
def Obligations.DualPortControl : Prop :=
  (∀ (s : State) (p : Port) (t : Nat), s.hw.live = true → s.hw.linkOn = true → s.hw.up p = true →
    (s.hw.port p).crcStart = some t → s.hw.due (t + msNs (s.hw.get (LNK_CRC_MON_WIN_MS (portNo p)))) = true →
    (s.hw.get (LNK_CRC_MON_THR (portNo p)) = 0 ∨ (s.hw.port p).crcCount ≤ s.hw.get (LNK_CRC_MON_THR (portNo p))) →
    Completes (.crcWindowEnd p) s (fun x => (x.hw.port p).crcCount = 0 ∧
    (x.hw.port p).crcStart = some (t + msNs (s.hw.get (LNK_CRC_MON_WIN_MS (portNo p)))) ∧
    (x.hw.port p).crcRate = false ∧ x.hw.present (srcPortCrcRate (portNo p)) = false)) ∧
  (∀ (s : State) (p : Port) (t : Nat), s.hw.live = true → s.hw.linkOn = true → s.hw.up p = true →
    (s.hw.port p).crcStart = some t → s.hw.due (t + msNs (s.hw.get (LNK_CRC_MON_WIN_MS (portNo p)))) = true →
    s.hw.get (LNK_CRC_MON_THR (portNo p)) ≠ 0 → s.hw.get (LNK_CRC_MON_THR (portNo p)) < (s.hw.port p).crcCount →
    Completes (.crcWindowEnd p) s (fun x => (x.hw.port p).crcCount = 0 ∧ (x.hw.port p).crcRate = true ∧
    x.hw.present (srcPortCrcRate (portNo p)) = true ∧ (s.hw.present (srcPortCrcRate (portNo p)) = false →
    x.hw.on (statusBit (srcPortCrcRate (portNo p))) = true))) ∧
  (∀ (s : State) (p : Port), s.hw.live = true → s.hw.activeOf = some p → s.hw.portCause p ≠ 0 →
    s.hw.forcing ≠ some p → Completes (.giveUp) s (fun x => x.hw.on (gaveUp p) = true ∧
    x.hw.activePort = (if s.hw.portCause (otherPort p) = 0 then portNo (otherPort p) else 2) ∧
    x.hw.on (statusBit (srcPortGiveUp (portNo p))) = true)) ∧
  (∀ (s : State) (p : Port), s.hw.live = true → s.hw.activeOf = some p → (s.hw.portCause p = 0 ∨
    s.hw.forcing = some p) → Completes (.giveUp) s (fun x => x = s)) ∧
  (∀ (s : State) (p : Port), s.hw.live = true → s.hw.activeOf = none → s.hw.portCause p = 0 →
    Completes (.portHealthy p) s (fun x => x.hw.activePort = portNo (if s.hw.portCause s.hw.prefPort = 0 then s.hw.prefPort else p))) ∧
  (∀ (s : State) (p : Port), s.hw.live = true → (s.hw.activeOf.isSome = true ∨ s.hw.portCause p ≠ 0) →
    Completes (.portHealthy p) s (fun x => x = s)) ∧
  (∀ (s : State) (t : Nat), s.hw.live = true → s.hw.net.holdSince = some t →
    s.hw.activeOf = some (otherPort s.hw.prefPort) → s.hw.due (t + msNs (s.hw.get LNK_REVERT_HOLD_HOLD_MS)) = true →
    Completes (.revertHoldExpire) s (fun x => x.hw.activePort = portNo s.hw.prefPort ∧
    x.hw.get LNK_SWITCH_COUNT_SWITCHES = satAdd 32 (s.hw.get LNK_SWITCH_COUNT_SWITCHES) 1)) ∧
  (∀ (s : State) (p : Port), s.hw.live = true → s.hw.activeOf = some (otherPort p) →
    Completes (.shadowTimeout) s (fun x => (x.hw.port p).fifo = (s.hw.port p).fifo.filter (fun e => !(fun (e : CmdEntry) => e.trailer.isSome && !e.promoted && !e.held && s.hw.due (e.trailerNs + 1000 * max 1 (s.hw.get LNK_PORT_CTL_SHADOW_US))) e) ∧
    (x.hw.port (otherPort p)).fifo = (s.hw.port (otherPort p)).fifo ∧
    x.hw.get (LNK_SHADOW_DROPPED (portNo p)) = satAdd 16 (s.hw.get (LNK_SHADOW_DROPPED (portNo p))) ((s.hw.port p).fifo.filter (fun (e : CmdEntry) => e.trailer.isSome && !e.promoted && !e.held && s.hw.due (e.trailerNs + 1000 * max 1 (s.hw.get LNK_PORT_CTL_SHADOW_US)))).length)) ∧
  (∀ (s : State) (q : Requester) (v : Word), s.hw.writable q = true → s.hw.inField = false →
    Completes (.forceWrite q v) s (fun x => x.hw.get LNK_PORT_CTL_FORCE = bits v 17 16 ∧
    x.hw.get LNK_PORT_CTL_SHADOW_US = bits v 15 4 ∧ x.hw.stagedOr LNK_PORT_CTL = v &&& 3)) ∧
  (∀ (s : State) (q : Requester) (v : Word) (p : Port), s.hw.writable q = true → s.hw.inField = false →
    bits v 17 16 = portNo p + 1 → s.hw.portCause p ≠ 1 → s.hw.portCause p ≠ 2 →
    Completes (.forceWrite q v) s (fun x => x.hw.activePort = portNo p)) ∧
  (∀ (s : State) (q : Requester) (v : Word), s.hw.writable q = true → s.hw.inField = true →
    bits v 17 16 ≠ s.hw.get LNK_PORT_CTL_FORCE →
    Completes (.forceWrite q v) s (fun x => x.hw.get LNK_PORT_CTL_FORCE = s.hw.get LNK_PORT_CTL_FORCE ∧
    x.hw.on (statusBit srcLcsViolation) = true)) ∧
  (∀ (s : State) (q : Requester) (v : Word), s.hw.writable q = true → s.hw.inField = true →
    bits v 17 16 = s.hw.get LNK_PORT_CTL_FORCE →
    Completes (.forceWrite q v) s (fun x => x.hw.get LNK_PORT_CTL_FORCE = s.hw.get LNK_PORT_CTL_FORCE ∧
    x.hw.get LNK_PORT_CTL_SHADOW_US = bits v 15 4 ∧ x.hw.flt = s.hw.flt))

/-- In a running hub with CORE awake and the track enabled, a step starts on the item that its track picks, which is under
calibration at once where it is calibrated in place. The idle calibration list runs, every accumulator cleared, for
the tracks that wait, and without one 100 ms after its last run. A run that has not reached its end in TO_MS is
dropped and the steps that it serves end. RUN_ALL marks every item for a step and the enables are staged. A delay or
slicer step whose first two measurements agree applies the second; one whose first fails its precondition is recorded
so and changes no delay. -/
def Obligations.Calibration : Prop :=
  (∀ (s : State) (u : Nat) (ch : Option Nat), s.hw.live = true → s.hw.coreOn = true → s.hw.running = true → u < 360 →
    s.hw.feTrackPick = some (u, ch) → s.hw.cal.feStep = none → s.hw.on CAL_CTL_FE_EN = true → s.hw.safe = false →
    s.hw.cal.pickHold = false →
    Completes (.calStepStart (.frontEnd u)) s (fun x => x.hw.cal.feStep.map (fun y => (y.unit, y.inPlace,
    y.retries)) = some (u, ch.isNone, 0) ∧ x.hw.on CAL_STATUS_FE_BUSY = true ∧
    x.hw.feRole u = (if ch = none then 2 else s.hw.feRole u))) ∧
  (∀ (s : State) (c : Nat) (p : Option Nat), s.hw.live = true → s.hw.coreOn = true → s.hw.running = true → c < 9 →
    s.hw.adcTrackPick = some (c, p) → s.hw.cal.adcStep = none → s.hw.on CAL_CTL_ADC_EN = true →
    Completes (.calStepStart (.adc c)) s (fun x => x.hw.cal.adcStep.map (fun y => (y.unit, y.inPlace,
    y.retries)) = some (c, p.isNone, 0) ∧ x.hw.on CAL_STATUS_ADC_BUSY = true ∧ (p = none → x.hw.roleOf c = 2))) ∧
  (∀ (s : State) (a : Nat), s.hw.live = true → s.hw.calIdle = true → a < 16 →
    (s.hw.feWants || s.hw.adcWants) = true → Completes (.calRunStart) s (fun x => x.hw.adc.calRun.map (fun r => (r.pc,
    r.start)) = some (s.hw.get SEQ_CAL_RGN_BASE, s.hw.time.now) ∧ x.hw.cal.runFe = s.hw.feWants ∧
    x.hw.cal.runAdc = s.hw.adcWants ∧ x.hw.accCnt a = 0)) ∧
  (∀ (s : State), s.hw.live = true → s.hw.calIdle = true → (s.hw.feWants || s.hw.adcWants) = false →
    s.hw.due (s.hw.cal.lastRun + 100000000) = true →
    Completes (.calPeriodicRun) s (fun x => x.hw.adc.calRun.map (fun r => (r.pc,
    r.start)) = some (s.hw.get SEQ_CAL_RGN_BASE, s.hw.time.now) ∧ x.hw.cal.lastRun = s.hw.ns)) ∧
  (∀ (s : State), s.hw.live = true → (s.hw.cal.runFe || s.hw.cal.runAdc) = true →
    s.hw.due (s.hw.cal.runSince + msNs (s.hw.get CAL_STEP_TO_TO_MS)) = true →
    Completes (.calStepTimeout) s (fun x => x.hw.adc.calRun = none ∧ x.hw.cal.runFe = false ∧
    x.hw.cal.runAdc = false ∧ (s.hw.cal.runAdc = true → x.hw.cal.adcStep = none) ∧ (s.hw.cal.runFe = true →
    x.hw.cal.feStep = none))) ∧
  (∀ (s : State) (q : Requester) (v : Word) (u : Nat), s.hw.writable q = true → natBit v.toNat 31 = true → u < 360 →
    Completes (.calRunAll q v) s (fun x => (x.hw.feItem u).runAll = true ∧ (x.hw.adcItem (u % 9)).runAll = true ∧
    (x.hw.delayItem (u % 8)).runAll = true ∧ (x.hw.slicerItem (u % 8)).runAll = true ∧
    x.hw.stagedOr CAL_CTL = v &&& 7)) ∧
  (∀ (s : State) (p : Port) (l : Nat) (m : List Int) (d : Int) (a : List Int), s.hw.live = true → l < 4 →
    s.hw.running = true → s.hw.on CAL_CTL_LINK_EN = true → s.hw.up p = true →
    s.hw.isDue (s.hw.delayItem (4 * portNo p + l)) s.hw.laneTemp = true → s.hw.clk.timing.mode = .on →
    delayChange m 0 = some a → delayChange m 1 = some [d] → agree a [d] (s.hw.get CAL_AGREE_TAPS_TAPS) = true →
    Completes (.delayStep p l m) s (fun x => x.hw.get (TIM_DLY_TX_PS (portNo p) l) = (clampInt 0 65535 ((bits (s.hw.prodReg (TIM_DLY (portNo p) l)) 31 16 : Int) + d)).toNat ∧
    x.hw.get (TIM_DLY_RX_PS (portNo p) l) = (clampInt 0 65535 ((bits (s.hw.prodReg (TIM_DLY (portNo p) l)) 15 0 : Int) + d)).toNat ∧
    (x.hw.delayItem (4 * portNo p + l)).done = true)) ∧
  (∀ (s : State) (p : Port) (l : Nat) (m : List Int), s.hw.live = true → l < 4 → s.hw.running = true →
    s.hw.on CAL_CTL_LINK_EN = true → s.hw.up p = true →
    s.hw.isDue (s.hw.delayItem (4 * portNo p + l)) s.hw.laneTemp = true → (s.hw.clk.timing.mode ≠ .on ∨
    delayChange m 0 = none) → Completes (.delayStep p l m) s (fun x => x.hw.get CAL_LAST_RESULT = 1 ∧
    x.hw.get CAL_LAST_KIND = 3 ∧ x.hw.get CAL_LAST_ITEM = 4 * portNo p + l ∧
    x.hw.get (TIM_DLY_TX_PS (portNo p) l) = s.hw.get (TIM_DLY_TX_PS (portNo p) l) ∧
    x.hw.get (TIM_DLY_RX_PS (portNo p) l) = s.hw.get (TIM_DLY_RX_PS (portNo p) l))) ∧
  (∀ (s : State) (p : Port) (l : Nat) (m : List Int) (a b : List Int), s.hw.live = true → l < 4 →
    s.hw.mayRecal p l = true → slicerFields m 0 = some a → slicerFields m 1 = some b →
    agree (a.take 4) (b.take 4) (s.hw.get CAL_AGREE_TAPS_TAPS) = true →
    Completes (.slicerStep p l m) s (fun x => x.hw.get (CAL_LINK_PHASE (portNo p) l) = (b.getD 0 0).toNat % 64 ∧
    x.hw.get (CAL_LINK_THR_L (portNo p) l) = (b.getD 1 0).toNat % 128 ∧
    x.hw.get (CAL_LINK_THR_M (portNo p) l) = (b.getD 2 0).toNat % 128 ∧
    x.hw.get (CAL_LINK_THR_U (portNo p) l) = (b.getD 3 0).toNat % 128 ∧
    x.hw.on (LNK_TRK_RECAL_PEND (portNo p) l) = false ∧ x.hw.offset p l 3 = 0))

/-- On a live hub a raise sets the source's status bit and the cause of a level source; of any source but EVQ_OVERRUN,
ESCALATION_TIMER and ESCALATED it puts INFO and adds 1 to RAISES. With EVT = 1 an event item with its class, count,
INFO and time is queued next, with EVQ = 1 and room an item of the EVQ. A reaction timer that expires with the status
bit set brings the reaction of the source into force and raises ESCALATED. The end of a cause leaves the status bit.
The monitors raise the source of their rail; a field rail that has come in range, or 1 s that has not passed, raises
nothing. Loss of the reference stops every fast domain, once. -/
def Obligations.FaultRaises : Prop :=
  (∀ (s : State) (i info : Nat), s.hw.live = true → i < 64 →
    Completes (.faultRaise i info) s (fun x => x.hw.on (statusBit i) = true ∧ (isLevel i = true →
    x.hw.present i = true))) ∧
  (∀ (s : State) (i info : Nat), s.hw.live = true → i < 62 → i ≠ 29 →
    Completes (.faultRaise i info) s (fun x => x.hw.get (FLT_INFO_INFO i) = info % 2 ^ 22 ∧
    x.hw.get (FLT_INFO_RAISES i) = satAdd 8 (s.hw.get (FLT_INFO_RAISES i)) 1)) ∧
  (∀ (s : State) (i info : Nat), s.hw.live = true → i < 64 → s.hw.on (FLT_MAP_EVT i) = true →
    Completes (.faultRaise i info) s (fun x => x.hw.net.events[s.hw.net.events.length]? = some (.fault i (s.hw.get (FLT_MAP_CLASS i)) (satAdd 8 (s.hw.get (FLT_INFO_RAISES i)) 1) (info % 2 ^ 22) s.hw.time.now,
    s.hw.get SYS_EPOCH_EPOCH))) ∧
  (∀ (s : State) (i info : Nat), s.hw.live = true → i < 64 → s.hw.on (FLT_MAP_EVQ i) = true →
    s.hw.net.evq.length < 256 →
    Completes (.faultRaise i info) s (fun x => x.hw.net.evq[s.hw.net.evq.length]? = some { cls := s.hw.get (FLT_MAP_CLASS i), src := i, info := info % 2 ^ 22 })) ∧
  (∀ (s : State) (i : Nat), s.hw.live = true → i < 64 → isLevel i = true →
    Completes (.faultCauseEnd i) s (fun x => x.hw.present i = false ∧ x.hw.on (statusBit i) = s.hw.on (statusBit i))) ∧
  (∀ (s : State) (i t : Nat), s.hw.live = true → i < 64 → storeGet (fun _ => none) s.hw.flt.timers i = some t →
    s.hw.due t = true → s.hw.on (statusBit i) = true →
    Completes (.reactionTimerExpire i) s (fun x => x.hw.forceOf i = some (s.hw.reactOf i) ∧
    storeGet (fun _ => none) x.hw.flt.timers i = none ∧ x.hw.on (statusBit srcEscalated) = true)) ∧
  (∀ (s : State) (r : Nat), s.hw.live = true → r < 8 →
    Completes (.supplyMonitorTrip r) s (fun x => x.hw.on (statusBit (railSource r).1) = true ∧
    x.hw.boot.armed.contains r = true)) ∧
  (∀ (s : State) (r : Nat), s.hw.live = true → 3 ≤ r → r < 8 → s.hw.due 1000000000 = true →
    s.hw.boot.armed.contains r = false → s.hw.on SYS_BOOT_WAIT_FIELD = true →
    Completes (.fieldRailTimeout r) s (fun x => x.hw.on (statusBit (railSource r).1) = true)) ∧
  (∀ (s : State) (r : Nat), s.hw.live = true → 3 ≤ r → r < 8 → (s.hw.due 1000000000 = false ∨
    s.hw.boot.armed.contains r = true) → Completes (.fieldRailTimeout r) s (fun x => x = s)) ∧
  (∀ (s : State) (c : Nat), s.hw.live = true → s.hw.boot.refclkLost = false → c < 9 →
    Completes (.refclkLoss) s (fun x => x.hw.boot.refclkLost = true ∧ x.hw.coreOn = false ∧
    x.hw.clk.timing.mode = .off ∧ x.hw.clk.stitch.mode = .off ∧ (x.hw.dom (.conv c)).mode = .off ∧
    x.hw.on (statusBit srcRefclkLoss) = true)) ∧
  (∀ (s : State), s.hw.live = true → s.hw.boot.refclkLost = true → Completes (.refclkLoss) s (fun x => x = s))

/-- A status bit written with 1 clears with its timer and reaction where its cause is gone; one not written, or with its
cause present, stays. At an acting boundary a park that ends leaves nothing to end. ENTER opens every switch and SAFE
is in force, from the write unless SAFE already stood without an end to come; it cancels an end. RESUME outside FIELD
is refused while a set source names SAFE, otherwise begins the end, and without SAFE does nothing; in FIELD it
reports. An acting boundary completes the end, and without one SAFE stays. The minimum width of FAULT_N ends. -/
def Obligations.FaultClearing : Prop :=
  (∀ (s : State) (q : Requester) (hi : Bool) (v : Word) (k : Nat), s.hw.writable q = true → k < 32 →
    natBit v.toNat k = true → s.hw.on (statusBit ((if hi then 32 else 0) + k)) = true →
    s.hw.present ((if hi then 32 else 0) + k) = false →
    Completes (.faultStatusClear q hi v) s (fun x => x.hw.on (statusBit ((if hi then 32 else 0) + k)) = false ∧
    x.hw.forceOf ((if hi then 32 else 0) + k) = none ∧
    storeGet (fun _ => none) x.hw.flt.timers ((if hi then 32 else 0) + k) = none)) ∧
  (∀ (s : State) (q : Requester) (hi : Bool) (v : Word) (k : Nat), s.hw.writable q = true → k < 32 →
    (natBit v.toNat k = false ∨ s.hw.present ((if hi then 32 else 0) + k) = true) →
    Completes (.faultStatusClear q hi v) s (fun x => x.hw.on (statusBit ((if hi then 32 else 0) + k)) = s.hw.on (statusBit ((if hi then 32 else 0) + k)))) ∧
  (∀ (s : State) (i b : Nat), s.hw.live = true → i < 64 → s.hw.boundaryNow = some b →
    Completes (.parkEnd i) s (fun x => x.hw.flt.ending = s.hw.flt.ending.filter (fun e => decide (e.1 ≠ i)))) ∧
  (∀ (s : State) (q : Requester) (v : Word), s.hw.writable q = true → natBit v.toNat 31 = true →
    natBit v.toNat 30 = false → Completes (.safeEnter q v) s (fun x => x.hw.safe = true ∧
    x.hw.get FLT_SAFE_SOURCE = (if s.hw.safe = true ∧
    s.hw.flt.safeEnding = false then s.hw.get FLT_SAFE_SOURCE else 0x40) ∧ x.hw.field.closed = [] ∧
    x.hw.field.closedIn = [] ∧ x.hw.field.inputs = [] ∧ x.hw.flt.safeEnding = false)) ∧
  (∀ (s : State) (q : Requester) (v : Word), s.hw.writable q = true → natBit v.toNat 31 = false →
    natBit v.toNat 30 = true → s.hw.inField = false → s.hw.safe = true →
    (List.range 64).any (fun i => s.hw.on (statusBit i) && decide (s.hw.get (FLT_MAP_REACT i) = 4)) = false →
    Completes (.safeResume q v) s (fun x => x.hw.flt.safeEnding = true ∧ x.hw.safe = true)) ∧
  (∀ (s : State) (q : Requester) (v : Word), s.hw.writable q = true → natBit v.toNat 31 = false →
    natBit v.toNat 30 = true → s.hw.inField = false → s.hw.safe = true →
    (List.range 64).any (fun i => s.hw.on (statusBit i) && decide (s.hw.get (FLT_MAP_REACT i) = 4)) = true →
    Completes (.safeResume q v) s (fun x => x.hw.flt.safeEnding = s.hw.flt.safeEnding ∧
    x.hw.on FLT_SAFE_REFUSED = true ∧ x.hw.safe = true)) ∧
  (∀ (s : State) (q : Requester) (v : Word), s.hw.writable q = true → natBit v.toNat 31 = false →
    natBit v.toNat 30 = true → s.hw.inField = false → s.hw.safe = false →
    Completes (.safeResume q v) s (fun x => x.hw.flt = s.hw.flt ∧ x.hw.safe = false)) ∧
  (∀ (s : State) (q : Requester) (v : Word), s.hw.writable q = true → natBit v.toNat 31 = false →
    natBit v.toNat 30 = true → s.hw.inField = true →
    Completes (.safeResume q v) s (fun x => x.hw.on (statusBit srcLcsViolation) = true ∧ (s.hw.safe = true →
    x.hw.safe = true))) ∧
  (∀ (s : State) (b : Nat), s.hw.live = true → s.hw.boundaryNow = some b → s.hw.safe = true →
    s.hw.flt.safeEnding = true → Completes (.safeEnd) s (fun x => x.hw.safe = false ∧ x.hw.flt.safeEnding = false ∧
    x.hw.cal.pickHold = true)) ∧
  (∀ (s : State), s.hw.live = true → (s.hw.boundaryNow = none ∨ s.hw.safe = false ∨ s.hw.flt.safeEnding = false) →
    Completes (.safeEnd) s (fun x => x = s)) ∧
  (∀ (s : State) (t : Nat), s.hw.live = true → s.hw.flt.faultNUntil = some t → s.hw.due t = true →
    Completes (.faultNMinwEnd) s (fun x => x.hw.flt.faultNUntil = none ∧
    x.hw.faultNLow = (s.hw.flt.faultNBoot || s.hw.hardStatus)))

/-- A TRIGGER write sends a trigger to AON where recording is enabled and its crossing takes it, and otherwise changes no
record; it stages the other fields. The record at the head of the staging buffers is assembled into its slot and asks
for its flush. A flush that succeeds stands in the ring and goes on at the next page; one that fails marks its sector,
while fewer than 32 are marked, and reports. The scan marks itself done and never lowers the number to come. Operating
seconds are saved when due. A fetch runs, or ends where nothing is left to send; a write without GO, and GO during a
fetch, change no record. Bunting words and bad-slot marks clear by write and only where written. -/
def Obligations.Recorder : Prop :=
  (∀ (s : State) (q : Requester) (v : Word), s.hw.writable q = true → natBit v.toNat 31 = true →
    s.hw.on REC_CTL_EN = true → s.hw.xingTakes 0 = true →
    Completes (.recTrigger q v) s (fun x => x.hw.recd.atCrossing.length = s.hw.recd.atCrossing.length + 1 ∧
    x.hw.recd.atCrossing.getLast?.map (fun t => (t.code, t.time, t.words, t.epoch)) = some (0x41, s.hw.time.now, none,
    s.hw.get SYS_EPOCH_EPOCH) ∧ (x.hw.xing 0).busy = true ∧ x.hw.stagedOr REC_CTL = v &&& 0x3F0F)) ∧
  (∀ (s : State) (q : Requester) (v : Word), s.hw.writable q = true → (natBit v.toNat 31 = false ∨
    s.hw.on REC_CTL_EN = false ∨ s.hw.xingTakes 0 = false) →
    Completes (.recTrigger q v) s (fun x => x.hw.recd = s.hw.recd ∧ x.hw.stagedOr REC_CTL = v &&& 0x3F0F)) ∧
  (∀ (s : State) (t : RecTrig) (i : Nat) (y : RecSlot) (rest : List (RecTrig × Nat)), s.hw.live = true →
    s.hw.coreOn = true → s.hw.recd.staging = (t, i) :: rest → s.hw.recSlot i = some y → y.flushed = false →
    s.hw.hasRegion = true → s.hw.on REC_CTL_SEND = false →
    Completes (.recordAssemble) s (fun x => x.hw.recd.staging = rest ∧
    x.hw.recSlot i = some { y with whole := true } ∧ (x.hw.xing 1).busy = true ∧
    x.hw.readSlot i = some (recordBytes t y.seq (s.hw.get REC_PWRCYC_COUNT) (t.words.getD ({ s.hw with recd := { s.hw.recd with staging := rest } } : Hw).listWords)))) ∧
  (∀ (s : State) (i p : Nat) (y : RecSlot) (l : List Byte), s.hw.live = true → s.hw.flushReady = true →
    (s.hw.slotOrder (fun w => !w.flushed)).head? = some (i, y) → y.whole = true → s.hw.readSlot i = some l →
    s.hw.goodPage s.hw.ringPages s.hw.recd.nextPage = some p → l.length = 256 → (p % 16 = 0 ∨
    s.hw.nvmBytes (s.hw.pageAddr p) 256 = List.replicate 256 nvm0) →
    Completes (.recordFlush true) s (fun x => x.hw.recd.nextPage = (p + 1) % s.hw.ringPages ∧
    (x.hw.recSlot i).all RecSlot.flushed = true ∧ x.hw.nvmBytes (s.hw.pageAddr p) 256 = l)) ∧
  (∀ (s : State) (i p : Nat) (y : RecSlot) (l : List Byte), s.hw.live = true → s.hw.flushReady = true →
    (s.hw.slotOrder (fun w => !w.flushed)).head? = some (i, y) → y.whole = true → s.hw.readSlot i = some l →
    s.hw.goodPage s.hw.ringPages s.hw.recd.nextPage = some p → s.hw.recd.badSectors.length < 32 →
    Completes (.recordFlush false) s (fun x => x.hw.recd.badSectors = s.hw.recd.badSectors ++ [pageSector p] ∧
    x.hw.recd.nextPage = 16 * (p / 16 + 1) % s.hw.ringPages ∧ x.hw.on (statusBit srcRecStoreFail) = true ∧
    (x.hw.recSlot i) = some y)) ∧
  (∀ (s : State), s.hw.live = true → s.hw.coreOn = true → s.hw.running = true → s.hw.recd.opsecInit = true →
    s.hw.on REC_STATUS_SCAN_DONE = false → Completes (.recorderScan) s (fun x => x.hw.on REC_STATUS_SCAN_DONE = true ∧
    s.hw.get REC_SEQ_NEXT ≤ x.hw.get REC_SEQ_NEXT)) ∧
  (∀ (s : State) (ok : Bool), s.hw.live = true → s.hw.opsecDue = true →
    Completes (.opsecSave ok) s (fun x => x.hw.recd.opsecInit = true ∧ x.hw.recd.opsecSaved = s.hw.opsec ∧
    (ok = false → x.hw.on (statusBit srcNvmWriteFail) = true))) ∧
  (∀ (s : State) (q : Requester) (src : Nat) (v : Word), s.hw.writable q = true → natBit v.toNat 31 = true →
    s.hw.recd.fetch = none → s.hw.room 6 = false →
    Completes (.recFetch q src v) s (fun x => x.hw.recd.fetch = some (s.hw.get REC_FETCH_FIRST_FIRST,
    max 1 (bits v 15 0), ((answerTo q src).getD (s.hw.get STR_CTL_DEST))) ∧ x.hw.on REC_FETCH_CTL_BUSY = true)) ∧
  (∀ (s : State) (q : Requester) (src : Nat) (v : Word), s.hw.writable q = true → natBit v.toNat 31 = true →
    s.hw.recd.fetch = none → s.hw.room 6 = true → s.hw.on REC_CTL_SEND = false →
    s.hw.ringFrom (s.hw.get REC_FETCH_FIRST_FIRST) (min 15 (max 1 (bits v 15 0))) = [] →
    Completes (.recFetch q src v) s (fun x => x.hw.recd.fetch = none ∧ x.hw.on REC_FETCH_CTL_BUSY = false)) ∧
  (∀ (s : State) (q : Requester) (src : Nat) (v : Word), s.hw.writable q = true → (natBit v.toNat 31 = false ∨
    s.hw.recd.fetch.isSome = true) → Completes (.recFetch q src v) s (fun x => x.hw.recd = s.hw.recd ∧
    x.hw.get REC_FETCH_CTL_COUNT = bits v 15 0)) ∧
  (∀ (s : State) (q : Requester) (v : Word) (i : Nat), s.hw.writable q = true → i < 8 → natBit v.toNat i = true →
    Completes (.recBuntClr q v) s (fun x => x.hw.reg (REC_BUNT_HI i) = 0 ∧ x.hw.reg (REC_BUNT_LO i) = 0)) ∧
  (∀ (s : State) (q : Requester) (v : Word) (i : Nat), s.hw.writable q = true → i < 8 → natBit v.toNat i = false →
    Completes (.recBuntClr q v) s (fun x => x.hw.reg (REC_BUNT_HI i) = s.hw.reg (REC_BUNT_HI i) ∧
    x.hw.reg (REC_BUNT_LO i) = s.hw.reg (REC_BUNT_LO i))) ∧
  (∀ (s : State) (q : Requester) (w : Nat) (v : Word), s.hw.writable q = true → w < 8 →
    Completes (.recSlotBadClear q w v) s (fun x => x.hw.reg (REC_SLOT_BAD w) = s.hw.reg (REC_SLOT_BAD w) &&& ~~~v ∧
    x.hw.recd = s.hw.recd))

/-- Power-on begins AON reset with RST_SRC 0 and keeps NVM and OTP, and of the recorder nothing. On a live hub a RESET_N
pulse of 1 us or more begins AON reset with RST_SRC 1 and keeps NVM, OTP, recorder RAM, the slots of whole records,
the Bunting words and the bad-slot marks; one below 200 ns changes nothing. The fall of VAON switches the hub off and
keeps NVM and OTP. The end of AON reset samples POS and begins the OTP read. The OTP read gives the life-cycle state
by majority with the debug paths it opens, starts CORE and goes on to the SFDP read; without the reference it does
nothing. A restart that is due begins AON reset with RST_SRC 2, and so does the end of an erasure, after which
recorder RAM is clear and both image slots read erased; a restart that is not due changes nothing. -/
def Obligations.Starts : Prop :=
  (∀ (s : State), Completes (.powerOn) s (fun x => x.hw.boot.phase = .aonReset ∧ x.hw.get SYS_BOOT_RST_SRC = 0 ∧
    x.frozen = none ∧ x.otp = s.otp ∧ x.hw.boot.nvm = s.hw.boot.nvm ∧ x.hw.recd = rec0 ∧ x.pending = s.pending)) ∧
  (∀ (s : State) (n i : Nat), s.hw.live = true → 1000 ≤ n → i < 8 →
    Completes (.resetN n) s (fun x => x.hw.boot.phase = .aonReset ∧ x.hw.get SYS_BOOT_RST_SRC = 1 ∧ x.otp = s.otp ∧
    x.hw.boot.nvm = s.hw.boot.nvm ∧ x.hw.recd.ram = s.hw.recd.ram ∧
    x.hw.recd.slots = s.hw.recd.slots.filter (fun w => w.2.any RecSlot.whole) ∧
    x.hw.reg (REC_BUNT_LO i) = s.hw.reg (REC_BUNT_LO i) ∧ x.hw.reg (REC_BUNT_HI i) = s.hw.reg (REC_BUNT_HI i) ∧
    x.hw.reg (REC_SLOT_BAD i) = s.hw.reg (REC_SLOT_BAD i))) ∧
  (∀ (s : State) (n : Nat), n < 200 → Completes (.resetN n) s (fun x => x = s)) ∧
  (∀ (s : State), Completes (.aonResetBegin) s (fun x => x.hw.boot.phase = .off ∧ x.hw.live = false ∧ x.otp = s.otp ∧
    x.hw.boot.nvm = s.hw.boot.nvm ∧ x.frozen = none)) ∧
  (∀ (s : State) (pos : Nat), s.hw.boot.phase = .aonReset →
    Completes (.aonResetEnd pos) s (fun x => x.hw.boot.phase = .otp ∧ x.hw.get SYS_BOOT_POS = pos % 64 ∧
    x.hw.live = true ∧ x.hw.flt.faultNBoot = false)) ∧
  (∀ (s : State) (bad : List Nat), s.hw.boot.phase = .otp → s.hw.boot.refclkLost = false →
    Completes (.otpReadDone bad) s (fun x => x.hw.boot.phase = .sfdp ∧
    x.hw.get LCS_STATE_STATE = otpState s.otp.copies ∧
    x.hw.get LCS_STATE_DBG_BSCAN = b2n (decide (otpState s.otp.copies ≠ 2)) ∧
    x.hw.get LCS_STATE_DBG_REG = b2n (decide (otpState s.otp.copies ≠ 2 ∧ otpState s.otp.copies ≠ 4)) ∧
    x.hw.coreOn = true ∧ x.hw.lcs = s.otp ∧ x.otp = s.otp)) ∧
  (∀ (s : State) (bad : List Nat), s.hw.boot.phase = .otp → s.hw.boot.refclkLost = true →
    Completes (.otpReadDone bad) s (fun x => x = s)) ∧
  (∀ (s : State), s.hw.live = true → s.hw.restartDue = true →
    Completes (.commandRestart) s (fun x => x.hw.boot.phase = .aonReset ∧ x.hw.get SYS_BOOT_RST_SRC = 2 ∧
    x.otp = s.otp ∧ x.hw.boot.nvm = s.hw.boot.nvm)) ∧
  (∀ (s : State), s.hw.restartDue = false → Completes (.commandRestart) s (fun x => x = s)) ∧
  (∀ (s : State) (w : Bool) (a : Nat), s.hw.live = true → s.hw.boot.erasure = some w → a < 16777216 →
    Completes (.erasureComplete) s (fun x => x.hw.boot.phase = .aonReset ∧ x.hw.get SYS_BOOT_RST_SRC = 2 ∧
    x.otp = s.otp ∧ x.hw.recd.ram = [] ∧ x.hw.recd.slots = [] ∧ storeGet (fun _ => nvm0) x.hw.boot.nvm a = nvm0))

/-- An accepted device shows in CFG_NVM, and the loader goes on to the headers, but in SCRAP to no image; without one both
slots fail with 0x1, no image is left, and LCS_CTR takes its floor: 0 in BLANK, else 2^63 - 1. A bad header shows its
code in FAIL, and the slots with good headers stand in the order of their versions. The loader marks the slot it
tries. A slot that fails a check shows its FAIL and SECT, the staging set and the mask points are discarded, and the
next slot is tried; one that passes every check waits for the field-die references where WAIT_FIELD is 1, and is
sealed for its commit where it is 0. The references clear WAIT_FIELD, and the image that waits is sealed. With no slot
left the hub enters repeater mode, and where a slot failed with a code other than 0xB, IMAGE_FALLBACK is raised with
INFO 2. -/
def Obligations.Loader : Prop :=
  (∀ (s : State) (p : SfdpParams), s.hw.live = true → s.hw.boot.phase = .sfdp → sfdpAccepted p = true →
    Completes (.loaderSfdp p) s (fun x => x.hw.boot.phase = (if s.hw.get LCS_STATE_STATE = 4 then .load [] else .headers) ∧
    x.hw.on CFG_NVM_SFDP_OK = true ∧ x.hw.on CFG_NVM_ADDR4 = p.addr4 ∧ x.hw.get CFG_NVM_MAX_WIDTH = min 2 p.maxWidth ∧
    x.hw.get CFG_NVM_DENSITY_LOG2 = p.densityLog2 ∧ x.hw.get CFG_NVM_PAGE_LOG2 = p.pageLog2 % 256 ∧
    x.hw.get CFG_NVM_ERASE4K = p.erase4k % 256)) ∧
  (∀ (s : State) (p : SfdpParams), s.hw.live = true → s.hw.boot.phase = .sfdp → sfdpAccepted p = false →
    s.hw.on CFG_NVM_SFDP_OK = false → Completes (.loaderSfdp p) s (fun x => x.hw.boot.phase = .load [] ∧
    x.hw.get (CFG_IMG_FAIL 0) = 1 ∧ x.hw.get (CFG_IMG_FAIL 1) = 1 ∧ x.hw.on LCS_STATUS_FLOOR = true ∧
    x.hw.get64 LCS_CTR_LO_CTR_LO LCS_CTR_HI_CTR_HI = (if s.hw.get LCS_STATE_STATE = 0 then 0 else 2 ^ 63 - 1))) ∧
  (∀ (s : State) (k : Nat), s.hw.live = true → s.hw.boot.phase = .headers → k < 2 →
    Completes (.imageHeaderJudge) s (fun x => x.hw.boot.phase = .load s.hw.slotOrderOf ∧
    x.hw.get (CFG_IMG_FAIL k) = (headerFail (s.hw.imageBytes k 0 64)).getD (s.hw.get (CFG_IMG_FAIL k)))) ∧
  (∀ (s : State) (k c d : Nat) (rest : List Nat), s.hw.live = true → s.hw.boot.phase = .load (k :: rest) → k < 2 →
    ((s.hw.put (CFG_IMG_TRIED k) 1).verifyImage k).2 = some (c, d) →
    Completes (.imageLoad) s (fun x => x.hw.boot.phase = .load rest ∧ x.hw.get (CFG_IMG_FAIL k) = c % 16 ∧
    x.hw.get (CFG_IMG_SECT k) = d % 256 ∧ x.hw.epoch.staging = { regs := [], table := [] } ∧
    x.hw.epoch.sealedSet = none ∧ x.hw.trg.mask = [])) ∧
  (∀ (s : State) (k : Nat) (rest : List Nat), s.hw.live = true → s.hw.boot.phase = .load (k :: rest) → k < 2 →
    ((s.hw.put (CFG_IMG_TRIED k) 1).verifyImage k).2 = none →
    ((s.hw.put (CFG_IMG_TRIED k) 1).verifyImage k).1.on SYS_BOOT_WAIT_FIELD = true →
    Completes (.imageLoad) s (fun x => x.hw.boot.phase = .waitField k rest ∧
    x.hw.epoch = ((s.hw.put (CFG_IMG_TRIED k) 1).verifyImage k).1.epoch ∧
    x.hw.on (CFG_IMG_TRIED k) = ((s.hw.put (CFG_IMG_TRIED k) 1).verifyImage k).1.on (CFG_IMG_TRIED k))) ∧
  (∀ (s : State) (k : Nat) (rest : List Nat), s.hw.live = true → s.hw.boot.phase = .load (k :: rest) → k < 2 →
    ((s.hw.put (CFG_IMG_TRIED k) 1).verifyImage k).2 = none →
    ((s.hw.put (CFG_IMG_TRIED k) 1).verifyImage k).1.on SYS_BOOT_WAIT_FIELD = false →
    Completes (.imageLoad) s (fun x => x.hw.boot.phase = .committing k rest ∧
    x.hw.epoch.sealedSet.map Sealed.set = some ((s.hw.put (CFG_IMG_TRIED k) 1).verifyImage k).1.epoch.staging ∧
    x.hw.on SYS_COMMIT_STATUS_PENDING = true)) ∧
  (∀ (s : State), s.hw.live = true → s.hw.boot.phase = .load [] →
    Completes (.repeaterMode) s (fun x => x.hw.boot.phase = .repeater ∧ x.hw.get SYS_BOOT_MODE = 2 ∧
    x.hw.get SYS_BOOT_IMAGE = 3)) ∧
  (∀ (s : State) (k : Nat), s.hw.live = true → s.hw.boot.phase = .load [] → k < 2 → s.hw.get (CFG_IMG_FAIL k) ≠ 0 →
    s.hw.get (CFG_IMG_FAIL k) ≠ 0xB →
    Completes (.repeaterMode) s (fun x => x.hw.on (statusBit srcImageFallback) = true ∧
    x.hw.get (FLT_INFO_INFO srcImageFallback) = 2)) ∧
  (∀ (s : State), s.hw.boot.phase ≠ .load [] → Completes (.repeaterMode) s (fun x => x = s)) ∧
  (∀ (s : State) (k : Nat) (rest : List Nat), s.hw.live = true → s.hw.boot.phase = .waitField k rest →
    s.hw.on SYS_BOOT_WAIT_FIELD = true →
    Completes (.fieldReferencesReady) s (fun x => x.hw.boot.phase = .committing k rest ∧
    x.hw.on SYS_BOOT_WAIT_FIELD = false ∧ x.hw.epoch.sealedSet.map Sealed.set = some s.hw.epoch.staging ∧
    x.hw.on SYS_COMMIT_STATUS_PENDING = true))

/-- A well-formed critical command with a good tag, a new counter and a counter entry that stands moves the counter to its
own and, where the state allows it, takes its effect. LIFECYCLE programs the bit of the target state and orders a
restart 1 ms later, and entry into SCRAP revokes every key slot; BLANK to DEVELOP without a slot of each key in effect
programs nothing. KEY_ROTATE programs the first unwritten slot with the unwrapped key and revokes the slot that was in
effect; with no unwritten slot, or a wrapped key that fails its check, it programs nothing. IMAGE_WRITE erases the
sector that it names (OP 0), programs its DATA (OP 1) or orders a restart 1 ms later (OP 2). RECORDER_ERASE erases the
ring and frees the slots. FORCE_PORT sets FORCE. RESUME begins the end of SAFE, and is refused while a set source
names SAFE. ZEROIZE revokes every key slot and starts its erasure, FACTORY_RESET its own and keeps OTP. DEBUG_UNLOCK
opens the paths that it names. Only LIFECYCLE, KEY_ROTATE and ZEROIZE change OTP. -/
def Obligations.CriticalCommands : Prop :=
  (∀ (s : State) (p : Port) (e : CmdEntry), s.authReady p e 1 = true → (s.hw.get LCS_STATE_STATE ≠ 0 ∨
    (beAt (authArgs e.frame.payload) 0 1) ≠ 1 ∨
    ((keySlot s.otp.cmdKeys).isNone || (keySlot s.otp.imgKeys).isNone) = false) →
    Completes (.lifecycle true true) s (fun x => stateBit x.otp.copies ((beAt (authArgs e.frame.payload) 0 1) - 1) = true ∧
    ((beAt (authArgs e.frame.payload) 0 1) = 4 → x.otp.cmdKeys.all KeySlot.revoked = true ∧
    x.otp.imgKeys.all KeySlot.revoked = true) ∧ x.hw.boot.restartAt = some (s.hw.ns + 1000000) ∧
    x.hw.get64 LCS_CTR_LO_CTR_LO LCS_CTR_HI_CTR_HI = authCounter e.frame.payload)) ∧
  (∀ (s : State) (p : Port) (e : CmdEntry), s.authReady p e 1 = true → s.hw.get LCS_STATE_STATE = 0 →
    (beAt (authArgs e.frame.payload) 0 1) = 1 →
    ((keySlot s.otp.cmdKeys).isNone || (keySlot s.otp.imgKeys).isNone) = true →
    Completes (.lifecycle true true) s (fun x => x.otp = s.otp ∧ x.hw.boot.restartAt = s.hw.boot.restartAt ∧
    x.hw.get64 LCS_CTR_LO_CTR_LO LCS_CTR_HI_CTR_HI = authCounter e.frame.payload)) ∧
  (∀ (s : State) (p : Port) (e : CmdEntry) (i k : Nat), s.authReady p e 2 = true → s.otp.shaped = true → i < 4 →
    (List.range 4).find? (fun y => !((s.otp.slots (beAt (authArgs e.frame.payload) 0 1)).getD y keySlot0).written) = some i →
    ((((s.hw.removeCommand p e).dupAccept p e.frame).1.takeCounter (authCounter e.frame.payload) true).1.keyOf (((s.hw.removeCommand p e).dupAccept p e.frame).1.takeCounter (authCounter e.frame.payload) true).1.lcs.cmdKeys).bind (fun w => unwrapKey w (slice (authArgs e.frame.payload) 8 40)) = some k →
    Completes (.keyRotate true true) s (fun x => ((x.otp.slots (beAt (authArgs e.frame.payload) 0 1)).getD i keySlot0).key = k ∧
    ((x.otp.slots (beAt (authArgs e.frame.payload) 0 1)).getD i keySlot0).written = true ∧
    x.otp.copies = s.otp.copies ∧ x.hw.boot.restartAt = s.hw.boot.restartAt ∧
    x.hw.get64 LCS_CTR_LO_CTR_LO LCS_CTR_HI_CTR_HI = authCounter e.frame.payload)) ∧
  (∀ (s : State) (p : Port) (e : CmdEntry) (i j k : Nat), s.authReady p e 2 = true → s.otp.shaped = true →
    (List.range 4).find? (fun y => !((s.otp.slots (beAt (authArgs e.frame.payload) 0 1)).getD y keySlot0).written) = some i →
    ((((s.hw.removeCommand p e).dupAccept p e.frame).1.takeCounter (authCounter e.frame.payload) true).1.keyOf (((s.hw.removeCommand p e).dupAccept p e.frame).1.takeCounter (authCounter e.frame.payload) true).1.lcs.cmdKeys).bind (fun w => unwrapKey w (slice (authArgs e.frame.payload) 8 40)) = some k →
    keySlot (s.otp.slots (beAt (authArgs e.frame.payload) 0 1)) = some j →
    Completes (.keyRotate true true) s (fun x => ((x.otp.slots (beAt (authArgs e.frame.payload) 0 1)).getD j keySlot0).revoked = true ∧
    ((x.otp.slots (beAt (authArgs e.frame.payload) 0 1)).getD j keySlot0).key = ((s.otp.slots (beAt (authArgs e.frame.payload) 0 1)).getD j keySlot0).key)) ∧
  (∀ (s : State) (p : Port) (e : CmdEntry), s.authReady p e 2 = true →
    ((List.range 4).find? (fun y => !((s.otp.slots (beAt (authArgs e.frame.payload) 0 1)).getD y keySlot0).written) = none ∨
    ((((s.hw.removeCommand p e).dupAccept p e.frame).1.takeCounter (authCounter e.frame.payload) true).1.keyOf (((s.hw.removeCommand p e).dupAccept p e.frame).1.takeCounter (authCounter e.frame.payload) true).1.lcs.cmdKeys).bind (fun w => unwrapKey w (slice (authArgs e.frame.payload) 8 40)) = none) →
    Completes (.keyRotate true true) s (fun x => x.otp = s.otp ∧
    x.hw.get64 LCS_CTR_LO_CTR_LO LCS_CTR_HI_CTR_HI = authCounter e.frame.payload)) ∧
  (∀ (s : State) (p : Port) (e : CmdEntry), s.authReady p e 3 = true → beAt (authArgs e.frame.payload) 1 1 = 0 →
    Completes (.imageWrite true true) s (fun x => x.hw.nvmBytes ((8388608 * beAt (authArgs e.frame.payload) 0 1 + beAt (authArgs e.frame.payload) 4 4) / 4096 * 4096) 4096 = List.replicate 4096 nvm0 ∧
    x.otp = s.otp ∧ x.hw.boot.restartAt = s.hw.boot.restartAt ∧
    x.hw.get64 LCS_CTR_LO_CTR_LO LCS_CTR_HI_CTR_HI = authCounter e.frame.payload)) ∧
  (∀ (s : State) (p : Port) (e : CmdEntry), s.authReady p e 3 = true → beAt (authArgs e.frame.payload) 1 1 = 1 →
    Completes (.imageWrite true true) s (fun x => x.hw.boot.nvm = ((((s.hw.removeCommand p e).dupAccept p e.frame).1.takeCounter (authCounter e.frame.payload) true).1.nvmProgram (8388608 * beAt (authArgs e.frame.payload) 0 1 + beAt (authArgs e.frame.payload) 4 4) ((authArgs e.frame.payload).drop 8) true).1.boot.nvm ∧
    x.otp = s.otp ∧ x.hw.boot.restartAt = s.hw.boot.restartAt ∧
    x.hw.get64 LCS_CTR_LO_CTR_LO LCS_CTR_HI_CTR_HI = authCounter e.frame.payload)) ∧
  (∀ (s : State) (p : Port) (e : CmdEntry), s.authReady p e 3 = true → beAt (authArgs e.frame.payload) 1 1 = 2 →
    Completes (.imageWrite true true) s (fun x => x.otp = s.otp ∧ x.hw.boot.restartAt = some (s.hw.ns + 1000000) ∧
    x.hw.get64 LCS_CTR_LO_CTR_LO LCS_CTR_HI_CTR_HI = authCounter e.frame.payload)) ∧
  (∀ (s : State) (p : Port) (e : CmdEntry) (a : Nat), s.authReady p e 4 = true → s.hw.hasRegion = true →
    s.hw.regionBase + 8192 ≤ a → a < s.hw.regionBase + s.hw.regionSize →
    Completes (.recorderErase true true) s (fun x => x.hw.recd.slots = [] ∧
    storeGet (fun _ => nvm0) x.hw.boot.nvm a = nvm0 ∧ x.otp = s.otp ∧
    x.hw.get64 LCS_CTR_LO_CTR_LO LCS_CTR_HI_CTR_HI = authCounter e.frame.payload)) ∧
  (∀ (s : State) (p : Port) (e : CmdEntry), s.authReady p e 4 = true → s.hw.hasRegion = false →
    Completes (.recorderErase true true) s (fun x => x.hw.recd.slots = [] ∧ x.otp = s.otp ∧
    x.hw.get64 LCS_CTR_LO_CTR_LO LCS_CTR_HI_CTR_HI = authCounter e.frame.payload)) ∧
  (∀ (s : State) (p : Port) (e : CmdEntry), s.authReady p e 5 = true →
    Completes (.forcePort true true) s (fun x => x.hw.get LNK_PORT_CTL_FORCE = (beAt (authArgs e.frame.payload) 0 1) ∧
    x.otp = s.otp ∧ x.hw.get64 LCS_CTR_LO_CTR_LO LCS_CTR_HI_CTR_HI = authCounter e.frame.payload)) ∧
  (∀ (s : State) (p : Port) (e : CmdEntry), s.authReady p e 6 = true → s.hw.safe = true →
    (List.range 64).any (fun i => s.hw.on (statusBit i) && decide (s.hw.get (FLT_MAP_REACT i) = 4)) = false →
    Completes (.resume true true) s (fun x => x.hw.flt.safeEnding = true ∧ x.hw.safe = true ∧ x.otp = s.otp ∧
    x.hw.get64 LCS_CTR_LO_CTR_LO LCS_CTR_HI_CTR_HI = authCounter e.frame.payload)) ∧
  (∀ (s : State) (p : Port) (e : CmdEntry), s.authReady p e 6 = true → s.hw.safe = true →
    (List.range 64).any (fun i => s.hw.on (statusBit i) && decide (s.hw.get (FLT_MAP_REACT i) = 4)) = true →
    Completes (.resume true true) s (fun x => x.hw.on FLT_SAFE_REFUSED = true ∧
    x.hw.flt.safeEnding = s.hw.flt.safeEnding ∧ x.hw.safe = true ∧ x.otp = s.otp ∧
    x.hw.get64 LCS_CTR_LO_CTR_LO LCS_CTR_HI_CTR_HI = authCounter e.frame.payload)) ∧
  (∀ (s : State) (p : Port) (e : CmdEntry), s.authReady p e 7 = true →
    Completes (.zeroize true true) s (fun x => x.otp.cmdKeys.all KeySlot.revoked = true ∧
    x.otp.imgKeys.all KeySlot.revoked = true ∧ x.otp.copies = s.otp.copies ∧ x.hw.boot.erasure = some true ∧
    x.hw.get64 LCS_CTR_LO_CTR_LO LCS_CTR_HI_CTR_HI = authCounter e.frame.payload)) ∧
  (∀ (s : State) (p : Port) (e : CmdEntry), s.authReady p e 8 = true →
    Completes (.debugUnlock true true) s (fun x => x.hw.on LCS_STATE_DBG_BSCAN = (s.hw.on LCS_STATE_DBG_BSCAN || natBit (beAt (authArgs e.frame.payload) 0 1) 0) ∧
    x.hw.on LCS_STATE_DBG_REG = (s.hw.on LCS_STATE_DBG_REG || natBit (beAt (authArgs e.frame.payload) 0 1) 1) ∧
    x.otp = s.otp ∧ x.hw.get64 LCS_CTR_LO_CTR_LO LCS_CTR_HI_CTR_HI = authCounter e.frame.payload)) ∧
  (∀ (s : State) (p : Port) (e : CmdEntry), s.authReady p e 9 = true →
    Completes (.factoryReset true true) s (fun x => x.hw.boot.erasure = some false ∧ x.otp = s.otp ∧
    x.hw.get64 LCS_CTR_LO_CTR_LO LCS_CTR_HI_CTR_HI = authCounter e.frame.payload))

/-- A row of the harness or the excitation that answers a next state leaves network time, the Bridle, the streams, capture
memory, the commit state, the start, the keys, OTP, the held snapshot and the queue as they were. -/
def Obligations.FramesOfTheFieldRows : Prop :=
  ∀ (c : Instr) (s x : State), c.isFieldRow = true → exec c s = .next x →
    x.hw.time = s.hw.time ∧ x.hw.seq = s.hw.seq ∧ x.hw.str = s.hw.str ∧ x.hw.mem = s.hw.mem ∧ x.hw.epoch = s.hw.epoch ∧
    x.hw.boot = s.hw.boot ∧ x.hw.lcs = s.hw.lcs ∧ x.otp = s.otp ∧ x.frozen = s.frozen ∧ x.pending = s.pending

/-- A row of the ports below the frame, or of the control between them, that answers a next state leaves network time,
sampling, the Bridle, the streams, capture memory, the commit state, the start, the keys, OTP, the held snapshot and
the queue as they were. -/
def Obligations.FramesOfTheLinkRows : Prop :=
  ∀ (c : Instr) (s x : State), c.isLinkRow = true → exec c s = .next x →
    x.hw.time = s.hw.time ∧ x.hw.smp = s.hw.smp ∧ x.hw.seq = s.hw.seq ∧ x.hw.str = s.hw.str ∧ x.hw.mem = s.hw.mem ∧
    x.hw.epoch = s.hw.epoch ∧ x.hw.boot = s.hw.boot ∧ x.hw.lcs = s.hw.lcs ∧ x.otp = s.otp ∧ x.frozen = s.frozen ∧
    x.pending = s.pending

/-- A row of the fault collector that answers a next state leaves network time, the Bridle, the streams, capture memory,
the commit state, the NVM, the keys, OTP, the held snapshot and the queue as they were. -/
def Obligations.FramesOfTheFaultRows : Prop :=
  ∀ (c : Instr) (s x : State), c.isFaultRow = true → exec c s = .next x →
    x.hw.time = s.hw.time ∧ x.hw.seq = s.hw.seq ∧ x.hw.str = s.hw.str ∧ x.hw.mem = s.hw.mem ∧ x.hw.epoch = s.hw.epoch ∧
    x.hw.boot.nvm = s.hw.boot.nvm ∧ x.hw.lcs = s.hw.lcs ∧ x.otp = s.otp ∧ x.frozen = s.frozen ∧ x.pending = s.pending

/-- A row of the event recorder that answers a next state leaves network time, sampling, the Bridle, the streams, capture
memory, the keys, OTP, the held snapshot and the queue as they were. -/
def Obligations.FramesOfTheRecorderRows : Prop :=
  ∀ (c : Instr) (s x : State), c.isRecorderRow = true → exec c s = .next x →
    x.hw.time = s.hw.time ∧ x.hw.smp = s.hw.smp ∧ x.hw.seq = s.hw.seq ∧ x.hw.str = s.hw.str ∧ x.hw.mem = s.hw.mem ∧
    x.hw.lcs = s.hw.lcs ∧ x.otp = s.otp ∧ x.frozen = s.frozen ∧ x.pending = s.pending

/-- A step of a state with a command at the front of its queue is that command on the state with the rest of the queue; on
an empty queue the block idles (a choice of the model, log entry 2). -/
def Obligations.StepRunsTheFrontCommand : Prop :=
  ∀ (c : Instr) (s : State) (rest : List Instr),
    step { s with pending := c :: rest } = exec c { s with pending := rest } ∧
    step { s with pending := [] } = .next { s with pending := [] }

/-- Whatever command runs, the queue after it is the queue before it, and a step that answers a next state has taken at
most the front of the queue. -/
def Obligations.CommandsNeverTouchTheQueue : Prop :=
  (∀ (c : Instr) (s x : State), exec c s = .next x → x.pending = s.pending) ∧
  (∀ s x : State, step s = .next x → x.pending = s.pending.tail)

/-- Every well-formed command answers a next state in every state, and every ill-formed one the fault that names no such
object (a choice of the model, log entry 3); no command is refused. -/
def Obligations.FaultsExactlyOnIllFormedCommands : Prop :=
  ∀ (c : Instr) (s : State),
    (c.wf = true → ∃ x, exec c s = .next x) ∧ (c.wf = false → exec c s = .fault .noSuchObject)

/-- While the hub is off or AON reset has not ended, no command but a start and its successors changes the hub, OTP or the
snapshot. -/
def Obligations.ResetHoldsTheHub : Prop :=
  ∀ (c : Instr) (s x : State), s.hw.live = false → c.isStart = false → exec c s = .next x →
    x.hw = s.hw ∧ x.otp = s.otp ∧ x.frozen = s.frozen

/-- Of a state whose OTP array has its shape, a step that answers a next state clears no state bit, changes no written
key, lifts no revocation and keeps production values and shape. -/
def Obligations.OtpNeverGoesBack : Prop :=
  ∀ s x : State, s.otp.shaped = true → step s = .next x → s.otp.within x.otp ∧ x.otp.shaped = true

/-- Of a state whose OTP array has its shape, the state read by majority after any step is the same or a later one of
BLANK, DEVELOP, FIELD, RETURN and SCRAP. -/
def Obligations.LifeCycleNeverGoesBack : Prop :=
  ∀ s x : State, s.otp.shaped = true → step s = .next x → otpState s.otp.copies ≤ otpState x.otp.copies

/-- A command that is not one of the nine critical ones leaves OTP as it is, a start and a reset among them. -/
def Obligations.OnlyCriticalCommandsProgramOtp : Prop :=
  ∀ (c : Instr) (s x : State), c.isCritical = false → exec c s = .next x → x.otp = s.otp

/-- The state at reset meets the invariant of OtpNeverGoesBack; nothing waits, nothing is held frozen, memory and NVM list
nothing, the registers hold their reset values, and the epoch is 0. -/
def Obligations.ResetMeetsTheInvariant : Prop :=
  State.reset.Inv ∧ State.reset.pending = [] ∧ State.reset.frozen = none ∧ State.reset.hw.mem.words = [] ∧
    State.reset.hw.boot.nvm = [] ∧ State.reset.hw.get SYS_EPOCH_EPOCH = 0 ∧
    (∀ a, State.reset.hw.regs = [] → State.reset.hw.reg a = regReset a)

/-- A command that is no request, release, time-out or reading of the snapshot, no register write that reaches it, no
commit and no start leaves the frozen copy as it is. -/
def Obligations.SnapshotHolds : Prop :=
  ∀ (c : Instr) (s x : State), c.touchesSnapshot = false → exec c s = .next x → x.frozen = s.frozen

/-- Two hubs that differ only in their OTP copies and key slots (the production trims being equal) answer the same words
to an MSPI read below the capture memory window, and stay equal but for those. -/
def Obligations.ReadsDoNotShowKeys : Prop :=
  ∀ (s : State) (l : LcsSt) (o : LcsSt) (a n : Nat), s.frozen = none → l.otpTrims = s.hw.lcs.otpTrims → a + 4 * n ≤ 0x10000000 →
    ∃ x y, exec (.mspiRead a n) s = .next x ∧
      exec (.mspiRead a n) { s with hw := { s.hw with lcs := l }, otp := o } = .next y ∧ y.rdata = x.rdata ∧ y.status = x.status ∧
      y = { x with hw := { x.hw with lcs := l }, otp := o }

/-- Where a validated set applies, SYS_EPOCH goes up by one modulo 2^32, nothing stays sealed, PENDING clears and
SYS_COMMIT_SRC keeps the path and source of the requester. -/
def Obligations.CommitRaisesTheEpoch : Prop :=
  ∀ (s : State) (y : Sealed) (b : Nat), s.hw.live = true → s.hw.coreOn = true → s.hw.epoch.sealedSet = some y →
    s.hw.applyAt y = some b →
    Completes .commitApply s (fun x =>
      x.hw.get SYS_EPOCH_EPOCH = (s.hw.get SYS_EPOCH_EPOCH + 1) % 2 ^ 32 ∧ x.hw.epoch.sealedSet = none ∧
      x.hw.on SYS_COMMIT_STATUS_PENDING = false ∧ x.hw.get SYS_COMMIT_SRC_PATH = y.path % 4 ∧
      x.hw.get SYS_COMMIT_SRC_SRC_ID = y.srcId % 65536)

/-- From a state whose last STATUS is at most 8, every command that answers a next state leaves a STATUS of at most 8. -/
def Obligations.StatusIsAlwaysNamed : Prop :=
  ∀ (c : Instr) (s x : State), s.status ≤ 8 → exec c s = .next x → x.status ≤ 8

/-- Of a well-formed critical command outside SCRAP, a bad tag counts in AUTH_FAILS and an old counter in REPLAYS, each
raises its source, and neither programs OTP nor moves the command counter. -/
def Obligations.TurnedAwayCriticalCommands : Prop :=
  ∀ (s : State) (p : Port) (e : CmdEntry), s.authTurns p e = true →
    (authOk (s.hw.keyOf s.hw.lcs.cmdKeys) e.frame = false →
      Completes (.lifecycle true true) s (fun x => x.otp = s.otp ∧ x.hw.on (statusBit srcAuthFail) = true ∧
        x.hw.get LCS_STATUS_AUTH_FAILS = satAdd 8 (s.hw.get LCS_STATUS_AUTH_FAILS) 1 ∧
        x.hw.get64 LCS_CTR_LO_CTR_LO LCS_CTR_HI_CTR_HI = s.hw.get64 LCS_CTR_LO_CTR_LO LCS_CTR_HI_CTR_HI)) ∧
    (authOk (s.hw.keyOf s.hw.lcs.cmdKeys) e.frame = true →
      authCounter e.frame.payload ≤ s.hw.get64 LCS_CTR_LO_CTR_LO LCS_CTR_HI_CTR_HI →
      Completes (.lifecycle true true) s (fun x => x.otp = s.otp ∧ x.hw.on (statusBit srcCounterReplay) = true ∧
        x.hw.get LCS_STATUS_REPLAYS = satAdd 8 (s.hw.get LCS_STATUS_REPLAYS) 1 ∧
        x.hw.get64 LCS_CTR_LO_CTR_LO LCS_CTR_HI_CTR_HI = s.hw.get64 LCS_CTR_LO_CTR_LO LCS_CTR_HI_CTR_HI))
end

