-- ==== Sys2Proof/Laws/Raise.lean ====
section
/-!
SUPPORT. What a raise may change: the ten groups of the state that no raise and no reaction touches.
-/
namespace Sys2Proof.Machine

/-- The groups that no raise touches. -/
structure Still where
  reqs : Store ReqSt
  epoch : EpochSt
  time : TimeSt
  smp : SmpSt
  seq : SeqSt
  str : StrSt
  mem : MemSt
  boot : BootSt
  lcs : LcsSt
  draws : Nat

def Hw.still (h : Hw) : Still :=
  ⟨h.reqs, h.epoch, h.time, h.smp, h.seq, h.str, h.mem, h.boot, h.lcs, h.draws⟩

/-! ### Combinators -/

theorem each_keeps {α β : Type} (q : Hw → β) (f : Hw → α → Hw) (hf : ∀ h x, q (f h x) = q h) (l : List α) :
    ∀ h : Hw, q (h.each l f) = q h := by
  induction l with
  | nil => intro h; rfl
  | cons x t ih => intro h; exact (ih (f h x)).trans (hf h x)

@[simp] theorem still_each {α : Type} (h : Hw) (l : List α) (f : Hw → α → Hw) (hf : ∀ h x, (f h x).still = h.still) :
    (h.each l f).still = h.still := each_keeps Hw.still f hf l h

theorem when_keeps {β : Type} (q : Hw → β) (f : Hw → Hw) (c : Bool) (h : Hw) (hf : q (f h) = q h) :
    q (h.when c f) = q h := by
  cases c
  · rfl
  · exact hf

@[simp] theorem still_when (h : Hw) (c : Bool) (f : Hw → Hw) (hf : (f h).still = h.still) : (h.when c f).still = h.still :=
  when_keeps Hw.still f c h hf

/-! ### Updates -/

@[simp] theorem still_setReg (h : Hw) (a : Nat) (w : Word) : (h.setReg a w).still = h.still := (rfl)
@[simp] theorem still_put (h : Hw) (f : Fld) (v : Nat) : (h.put f v).still = h.still := (rfl)
@[simp] theorem still_bump (h : Hw) (f : Fld) (n : Nat) : (h.bump f n).still = h.still := (rfl)
@[simp] theorem still_setXing (h : Hw) (x : Nat) (c : Crossing) : (h.setXing x c).still = h.still := (rfl)
@[simp] theorem still_setPort (h : Hw) (p : Port) (x : PortSt) : (h.setPort p x).still = h.still := by cases p <;> rfl
@[simp] theorem still_setLane (h : Hw) (p : Port) (l : Nat) (x : Lane) : (h.setLane p l x).still = h.still :=
  still_setPort _ _ _
@[simp] theorem still_setUnit (h : Hw) (n : Nat) (u : UnitSt) : (h.setUnit n u).still = h.still := (rfl)
@[simp] theorem still_setDrv (h : Hw) (d : Nat) (x : DriverSt) : (h.setDrv d x).still = h.still := (rfl)
@[simp] theorem still_setRelief (h : Hw) (k : Nat) (r : Option Relief) : (h.setRelief k r).still = h.still := (rfl)
@[simp] theorem still_setObjects (h : Hw) (i : Nat) (l : List Nat) : (h.setObjects i l).still = h.still := (rfl)
@[simp] theorem still_setForce (h : Hw) (i : Nat) (r : Option Nat) : (h.setForce i r).still = h.still := (rfl)
@[simp] theorem still_setTimer (h : Hw) (i : Nat) (t : Option Nat) : (h.setTimer i t).still = h.still := (rfl)
@[simp] theorem still_pullFaultN (h : Hw) : h.pullFaultN.still = h.still := (rfl)
@[simp] theorem still_eventItem (h : Hw) (e : EventItem) : (h.eventItem e).still = h.still := (rfl)
@[simp] theorem still_exWindow (h : Hw) (d x ch : Nat) : (h.exWindow d x ch).still = h.still := (rfl)
@[simp] theorem still_sweep (h : Hw) : h.sweep.still = h.still := (rfl)
@[simp] theorem still_noteFail (h : Hw) (a b c d : Nat) : (h.noteFail a b c d).still = h.still := by
  simp [Hw.noteFail]
@[simp] theorem still_causeEnd (h : Hw) (i : Nat) : (h.causeEnd i).still = h.still := (rfl)

/-! ### Operations -/

@[simp] theorem still_xingReq (h : Hw) (x : Nat) : (h.xingReq x).still = h.still := by
  unfold Hw.xingReq; dsimp only; split
  · simp
  · split <;> simp

@[simp] theorem still_setDom (h : Hw) (d : Domain) (x : DomSt) : (h.setDom d x).still = h.still := by cases d <;> rfl

@[simp] theorem still_wake (h : Hw) (d : Domain) : (h.wake d).still = h.still := by
  unfold Hw.wake; dsimp only
  repeat' split
  all_goals simp

@[simp] theorem still_recTriggerAt (h : Hw) (c : Nat) (ws : Option (List Word)) : (h.recTriggerAt c ws).still = h.still := by
  unfold Hw.recTriggerAt; split
  · dsimp only
    refine (when_keeps Hw.still _ _ _ ?_).trans (still_xingReq h 0)
    exact still_wake _ _
  · rfl

@[simp] theorem still_unitCauses (h : Hw) (n : Nat) (late : Bool) (cs : List TrgCause) :
    (h.unitCauses n late cs).still = h.still := by
  unfold Hw.unitCauses; split <;> simp

@[simp] theorem still_unitCause (h : Hw) (n : Nat) (c : TrgCause) : (h.unitCause n c).still = h.still :=
  still_unitCauses h n false [c]

@[simp] theorem still_unitsCause (h : Hw) (c : TrgCause) : (h.unitsCause c).still = h.still := by
  unfold Hw.unitsCause; simp

@[simp] theorem still_evqWrite (h : Hw) (c i x : Nat) : (h.evqWrite c i x).1.still = h.still := by
  unfold Hw.evqWrite; split
  · simp [Hw.still]
  · simp

@[simp] theorem still_exWindows (h : Hw) (d x : Nat) : (h.exWindows d x).still = h.still := by
  unfold Hw.exWindows; simp

@[simp] theorem still_setPol (h : Hw) (d v : Nat) : (h.setPol d v).still = h.still := by
  unfold Hw.setPol; simp

@[simp] theorem still_zeroDriver (h : Hw) (d : Nat) : (h.zeroDriver d).still = h.still := by
  unfold Hw.zeroDriver; simp

@[simp] theorem still_showFaultOff (h : Hw) (ds : List Nat) : (h.showFaultOff ds).still = h.still := by
  unfold Hw.showFaultOff; simp

@[simp] theorem still_stopDrivers (h : Hw) (ds : List Nat) : (h.stopDrivers ds).still = h.still := by
  unfold Hw.stopDrivers; simp

@[simp] theorem still_holdCheck (h : Hw) : h.holdCheck.still = h.still := by
  unfold Hw.holdCheck; simp [Hw.still]

@[simp] theorem still_setActive (h : Hw) (a : Nat) : (h.setActive a).still = h.still := by
  unfold Hw.setActive; split <;> simp

@[simp] theorem still_control (h : Hw) : h.control.still = h.still := by
  unfold Hw.control; split <;> simp

@[simp] theorem still_nextSlot (h : Hw) (p : Port) : (h.nextSlot p).still = h.still := still_setPort _ _ _

@[simp] theorem still_markLane (h : Hw) (p : Port) (ctype kind l : Nat) : (h.markLane p ctype kind l).still = h.still :=
  still_setLane _ _ _ _

@[simp] theorem still_trainLane (h : Hw) (p : Port) (l : Nat) : (h.trainLane p l).still = h.still := by
  unfold Hw.trainLane; split <;> simp

@[simp] theorem still_openSlot (h : Hw) (p : Port) : (h.openSlot p).still = h.still := by
  unfold Hw.openSlot; simp

@[simp] theorem still_sendBlock (h : Hw) (p : Port) (b : Bool × List Byte) : (h.sendBlock p b).still = h.still := by
  unfold Hw.sendBlock; simp

@[simp] theorem still_sendIdle (h : Hw) (p : Port) : (h.sendIdle p).still = h.still := by
  unfold Hw.sendIdle; simp

@[simp] theorem still_padSlot (h : Hw) (p : Port) : (h.padSlot p).still = h.still := by
  unfold Hw.padSlot; simp

@[simp] theorem still_fillSlot (h : Hw) (p : Port) : (h.fillSlot p).still = h.still := by
  unfold Hw.fillSlot; dsimp only; split <;> simp

/-- Making up the lanes of a port touches none of these groups. -/
@[simp] theorem still_fillLanes (h : Hw) (p : Port) : (h.fillLanes p).still = h.still := by
  unfold Hw.fillLanes; dsimp only
  repeat' split
  all_goals simp

@[simp] theorem still_sendStriped (h : Hw) (p : Port) (bs : List (Bool × List Byte)) : (h.sendStriped p bs).still = h.still := by
  unfold Hw.sendStriped; simp

@[simp] theorem still_dropRx (h : Hw) (p : Port) : (h.dropRx p).still = h.still := by
  unfold Hw.dropRx; split <;> simp

@[simp] theorem still_portDown (h : Hw) (p : Port) : (h.portDown p).still = h.still := by
  unfold Hw.portDown; simp

@[simp] theorem still_cal (h : Hw) (x : CalSt) : ({ h with cal := x } : Hw).still = h.still := by simp [Hw.still]
@[simp] theorem still_adc (h : Hw) (x : AdcSt) : ({ h with adc := x } : Hw).still = h.still := by simp [Hw.still]
@[simp] theorem still_cin (h : Hw) (x : CinSt) : ({ h with cin := x } : Hw).still = h.still := by simp [Hw.still]
@[simp] theorem still_flt_field (h : Hw) (x : FltSt) (y : FieldSt) : ({ h with flt := x, field := y } : Hw).still = h.still := by
  simp [Hw.still]

@[simp] theorem still_feStepOver (h : Hw) (x : CalStep) : (h.feStepOver x).still = h.still := by
  unfold Hw.feStepOver; dsimp only
  repeat' split
  all_goals simp

@[simp] theorem still_abandonFeStep (h : Hw) : h.abandonFeStep.still = h.still := by
  unfold Hw.abandonFeStep; split <;> simp

@[simp] theorem still_enterSafe (h : Hw) (i : Nat) : (h.enterSafe i).still = h.still := by
  unfold Hw.enterSafe; dsimp only
  split <;> simp

@[simp] theorem still_resetBlock (h : Hw) (i x : Nat) : (h.resetBlock i x).still = h.still := by
  unfold Hw.resetBlock; dsimp only
  repeat' split
  all_goals simp

@[simp] theorem still_reactOn (h : Hw) (i r x : Nat) : (h.reactOn i r x).still = h.still := by
  unfold Hw.reactOn; split <;> simp

@[simp] theorem still_reactAll (h : Hw) (i : Nat) : (h.reactAll i).still = h.still := by
  unfold Hw.reactAll; simp

theorem still_raiseN (fuel : Nat) : ∀ (h : Hw) (i info : Nat), (raiseN fuel h i info).still = h.still := by
  induction fuel with
  | zero => intro h i info; rfl
  | succ n ih =>
    intro h i info
    unfold raiseN
    dsimp only
    repeat' split
    all_goals simp [ih]

/-- A raise leaves the requesters' latches, the epoch, the time, the schedule, the table, the streams, capture memory,
the start-up, what was read from OTP and the free values as they are. -/
@[simp] theorem still_raise (h : Hw) (i info : Nat) : (h.raise i info).still = h.still := still_raiseN 4 h i info

@[simp] theorem Hw.raise_reqs (h : Hw) (i info : Nat) : (h.raise i info).reqs = h.reqs := congrArg Still.reqs (still_raise h i info)
@[simp] theorem Hw.raise_epoch (h : Hw) (i info : Nat) : (h.raise i info).epoch = h.epoch := congrArg Still.epoch (still_raise h i info)
@[simp] theorem Hw.raise_time (h : Hw) (i info : Nat) : (h.raise i info).time = h.time := congrArg Still.time (still_raise h i info)
@[simp] theorem Hw.raise_smp (h : Hw) (i info : Nat) : (h.raise i info).smp = h.smp := congrArg Still.smp (still_raise h i info)
@[simp] theorem Hw.raise_seq (h : Hw) (i info : Nat) : (h.raise i info).seq = h.seq := congrArg Still.seq (still_raise h i info)
@[simp] theorem Hw.raise_str (h : Hw) (i info : Nat) : (h.raise i info).str = h.str := congrArg Still.str (still_raise h i info)
@[simp] theorem Hw.raise_mem (h : Hw) (i info : Nat) : (h.raise i info).mem = h.mem := congrArg Still.mem (still_raise h i info)
@[simp] theorem Hw.raise_boot (h : Hw) (i info : Nat) : (h.raise i info).boot = h.boot := congrArg Still.boot (still_raise h i info)
@[simp] theorem Hw.raise_lcs (h : Hw) (i info : Nat) : (h.raise i info).lcs = h.lcs := congrArg Still.lcs (still_raise h i info)
@[simp] theorem Hw.raise_draws (h : Hw) (i info : Nat) : (h.raise i info).draws = h.draws := congrArg Still.draws (still_raise h i info)

end Sys2Proof.Machine
end

