-- ==== Sys2Proof/Laws/State.lean ====
section
/-!
SUPPORT. One lemma per group of the state and per update: an update changes its own group and no other. All hold by
unfolding, so that later proofs never unfold a record update.
-/
namespace Sys2Proof.Machine

/-! ### `Hw.setReg` -/

@[simp] theorem Hw.setReg_clk (h : Hw) (a : Nat) (w : Word) : (h.setReg a w).clk = h.clk := (rfl)
@[simp] theorem Hw.setReg_reqs (h : Hw) (a : Nat) (w : Word) : (h.setReg a w).reqs = h.reqs := (rfl)
@[simp] theorem Hw.setReg_epoch (h : Hw) (a : Nat) (w : Word) : (h.setReg a w).epoch = h.epoch := (rfl)
@[simp] theorem Hw.setReg_time (h : Hw) (a : Nat) (w : Word) : (h.setReg a w).time = h.time := (rfl)
@[simp] theorem Hw.setReg_net (h : Hw) (a : Nat) (w : Word) : (h.setReg a w).net = h.net := (rfl)
@[simp] theorem Hw.setReg_flt (h : Hw) (a : Nat) (w : Word) : (h.setReg a w).flt = h.flt := (rfl)
@[simp] theorem Hw.setReg_recd (h : Hw) (a : Nat) (w : Word) : (h.setReg a w).recd = h.recd := (rfl)
@[simp] theorem Hw.setReg_field (h : Hw) (a : Nat) (w : Word) : (h.setReg a w).field = h.field := (rfl)
@[simp] theorem Hw.setReg_smp (h : Hw) (a : Nat) (w : Word) : (h.setReg a w).smp = h.smp := (rfl)
@[simp] theorem Hw.setReg_adc (h : Hw) (a : Nat) (w : Word) : (h.setReg a w).adc = h.adc := (rfl)
@[simp] theorem Hw.setReg_seq (h : Hw) (a : Nat) (w : Word) : (h.setReg a w).seq = h.seq := (rfl)
@[simp] theorem Hw.setReg_str (h : Hw) (a : Nat) (w : Word) : (h.setReg a w).str = h.str := (rfl)
@[simp] theorem Hw.setReg_trg (h : Hw) (a : Nat) (w : Word) : (h.setReg a w).trg = h.trg := (rfl)
@[simp] theorem Hw.setReg_mem (h : Hw) (a : Nat) (w : Word) : (h.setReg a w).mem = h.mem := (rfl)
@[simp] theorem Hw.setReg_cin (h : Hw) (a : Nat) (w : Word) : (h.setReg a w).cin = h.cin := (rfl)
@[simp] theorem Hw.setReg_cal (h : Hw) (a : Nat) (w : Word) : (h.setReg a w).cal = h.cal := (rfl)
@[simp] theorem Hw.setReg_boot (h : Hw) (a : Nat) (w : Word) : (h.setReg a w).boot = h.boot := (rfl)
@[simp] theorem Hw.setReg_lcs (h : Hw) (a : Nat) (w : Word) : (h.setReg a w).lcs = h.lcs := (rfl)
@[simp] theorem Hw.setReg_draws (h : Hw) (a : Nat) (w : Word) : (h.setReg a w).draws = h.draws := (rfl)

/-! ### `Hw.put` -/

@[simp] theorem Hw.put_clk (h : Hw) (f : Fld) (v : Nat) : (h.put f v).clk = h.clk := (rfl)
@[simp] theorem Hw.put_reqs (h : Hw) (f : Fld) (v : Nat) : (h.put f v).reqs = h.reqs := (rfl)
@[simp] theorem Hw.put_epoch (h : Hw) (f : Fld) (v : Nat) : (h.put f v).epoch = h.epoch := (rfl)
@[simp] theorem Hw.put_time (h : Hw) (f : Fld) (v : Nat) : (h.put f v).time = h.time := (rfl)
@[simp] theorem Hw.put_net (h : Hw) (f : Fld) (v : Nat) : (h.put f v).net = h.net := (rfl)
@[simp] theorem Hw.put_flt (h : Hw) (f : Fld) (v : Nat) : (h.put f v).flt = h.flt := (rfl)
@[simp] theorem Hw.put_recd (h : Hw) (f : Fld) (v : Nat) : (h.put f v).recd = h.recd := (rfl)
@[simp] theorem Hw.put_field (h : Hw) (f : Fld) (v : Nat) : (h.put f v).field = h.field := (rfl)
@[simp] theorem Hw.put_smp (h : Hw) (f : Fld) (v : Nat) : (h.put f v).smp = h.smp := (rfl)
@[simp] theorem Hw.put_adc (h : Hw) (f : Fld) (v : Nat) : (h.put f v).adc = h.adc := (rfl)
@[simp] theorem Hw.put_seq (h : Hw) (f : Fld) (v : Nat) : (h.put f v).seq = h.seq := (rfl)
@[simp] theorem Hw.put_str (h : Hw) (f : Fld) (v : Nat) : (h.put f v).str = h.str := (rfl)
@[simp] theorem Hw.put_trg (h : Hw) (f : Fld) (v : Nat) : (h.put f v).trg = h.trg := (rfl)
@[simp] theorem Hw.put_mem (h : Hw) (f : Fld) (v : Nat) : (h.put f v).mem = h.mem := (rfl)
@[simp] theorem Hw.put_cin (h : Hw) (f : Fld) (v : Nat) : (h.put f v).cin = h.cin := (rfl)
@[simp] theorem Hw.put_cal (h : Hw) (f : Fld) (v : Nat) : (h.put f v).cal = h.cal := (rfl)
@[simp] theorem Hw.put_boot (h : Hw) (f : Fld) (v : Nat) : (h.put f v).boot = h.boot := (rfl)
@[simp] theorem Hw.put_lcs (h : Hw) (f : Fld) (v : Nat) : (h.put f v).lcs = h.lcs := (rfl)
@[simp] theorem Hw.put_draws (h : Hw) (f : Fld) (v : Nat) : (h.put f v).draws = h.draws := (rfl)

/-! ### `Hw.bump` -/

@[simp] theorem Hw.bump_clk (h : Hw) (f : Fld) (n : Nat) : (h.bump f n).clk = h.clk := (rfl)
@[simp] theorem Hw.bump_reqs (h : Hw) (f : Fld) (n : Nat) : (h.bump f n).reqs = h.reqs := (rfl)
@[simp] theorem Hw.bump_epoch (h : Hw) (f : Fld) (n : Nat) : (h.bump f n).epoch = h.epoch := (rfl)
@[simp] theorem Hw.bump_time (h : Hw) (f : Fld) (n : Nat) : (h.bump f n).time = h.time := (rfl)
@[simp] theorem Hw.bump_net (h : Hw) (f : Fld) (n : Nat) : (h.bump f n).net = h.net := (rfl)
@[simp] theorem Hw.bump_flt (h : Hw) (f : Fld) (n : Nat) : (h.bump f n).flt = h.flt := (rfl)
@[simp] theorem Hw.bump_recd (h : Hw) (f : Fld) (n : Nat) : (h.bump f n).recd = h.recd := (rfl)
@[simp] theorem Hw.bump_field (h : Hw) (f : Fld) (n : Nat) : (h.bump f n).field = h.field := (rfl)
@[simp] theorem Hw.bump_smp (h : Hw) (f : Fld) (n : Nat) : (h.bump f n).smp = h.smp := (rfl)
@[simp] theorem Hw.bump_adc (h : Hw) (f : Fld) (n : Nat) : (h.bump f n).adc = h.adc := (rfl)
@[simp] theorem Hw.bump_seq (h : Hw) (f : Fld) (n : Nat) : (h.bump f n).seq = h.seq := (rfl)
@[simp] theorem Hw.bump_str (h : Hw) (f : Fld) (n : Nat) : (h.bump f n).str = h.str := (rfl)
@[simp] theorem Hw.bump_trg (h : Hw) (f : Fld) (n : Nat) : (h.bump f n).trg = h.trg := (rfl)
@[simp] theorem Hw.bump_mem (h : Hw) (f : Fld) (n : Nat) : (h.bump f n).mem = h.mem := (rfl)
@[simp] theorem Hw.bump_cin (h : Hw) (f : Fld) (n : Nat) : (h.bump f n).cin = h.cin := (rfl)
@[simp] theorem Hw.bump_cal (h : Hw) (f : Fld) (n : Nat) : (h.bump f n).cal = h.cal := (rfl)
@[simp] theorem Hw.bump_boot (h : Hw) (f : Fld) (n : Nat) : (h.bump f n).boot = h.boot := (rfl)
@[simp] theorem Hw.bump_lcs (h : Hw) (f : Fld) (n : Nat) : (h.bump f n).lcs = h.lcs := (rfl)
@[simp] theorem Hw.bump_draws (h : Hw) (f : Fld) (n : Nat) : (h.bump f n).draws = h.draws := (rfl)

/-! ### `Hw.put64` -/

@[simp] theorem Hw.put64_clk (h : Hw) (lo hi : Fld) (v : Nat) : (h.put64 lo hi v).clk = h.clk := (rfl)
@[simp] theorem Hw.put64_reqs (h : Hw) (lo hi : Fld) (v : Nat) : (h.put64 lo hi v).reqs = h.reqs := (rfl)
@[simp] theorem Hw.put64_epoch (h : Hw) (lo hi : Fld) (v : Nat) : (h.put64 lo hi v).epoch = h.epoch := (rfl)
@[simp] theorem Hw.put64_time (h : Hw) (lo hi : Fld) (v : Nat) : (h.put64 lo hi v).time = h.time := (rfl)
@[simp] theorem Hw.put64_net (h : Hw) (lo hi : Fld) (v : Nat) : (h.put64 lo hi v).net = h.net := (rfl)
@[simp] theorem Hw.put64_flt (h : Hw) (lo hi : Fld) (v : Nat) : (h.put64 lo hi v).flt = h.flt := (rfl)
@[simp] theorem Hw.put64_recd (h : Hw) (lo hi : Fld) (v : Nat) : (h.put64 lo hi v).recd = h.recd := (rfl)
@[simp] theorem Hw.put64_field (h : Hw) (lo hi : Fld) (v : Nat) : (h.put64 lo hi v).field = h.field := (rfl)
@[simp] theorem Hw.put64_smp (h : Hw) (lo hi : Fld) (v : Nat) : (h.put64 lo hi v).smp = h.smp := (rfl)
@[simp] theorem Hw.put64_adc (h : Hw) (lo hi : Fld) (v : Nat) : (h.put64 lo hi v).adc = h.adc := (rfl)
@[simp] theorem Hw.put64_seq (h : Hw) (lo hi : Fld) (v : Nat) : (h.put64 lo hi v).seq = h.seq := (rfl)
@[simp] theorem Hw.put64_str (h : Hw) (lo hi : Fld) (v : Nat) : (h.put64 lo hi v).str = h.str := (rfl)
@[simp] theorem Hw.put64_trg (h : Hw) (lo hi : Fld) (v : Nat) : (h.put64 lo hi v).trg = h.trg := (rfl)
@[simp] theorem Hw.put64_mem (h : Hw) (lo hi : Fld) (v : Nat) : (h.put64 lo hi v).mem = h.mem := (rfl)
@[simp] theorem Hw.put64_cin (h : Hw) (lo hi : Fld) (v : Nat) : (h.put64 lo hi v).cin = h.cin := (rfl)
@[simp] theorem Hw.put64_cal (h : Hw) (lo hi : Fld) (v : Nat) : (h.put64 lo hi v).cal = h.cal := (rfl)
@[simp] theorem Hw.put64_boot (h : Hw) (lo hi : Fld) (v : Nat) : (h.put64 lo hi v).boot = h.boot := (rfl)
@[simp] theorem Hw.put64_lcs (h : Hw) (lo hi : Fld) (v : Nat) : (h.put64 lo hi v).lcs = h.lcs := (rfl)
@[simp] theorem Hw.put64_draws (h : Hw) (lo hi : Fld) (v : Nat) : (h.put64 lo hi v).draws = h.draws := (rfl)

/-! ### `Hw.writeRw` -/

@[simp] theorem Hw.writeRw_clk (h : Hw) (a m : Nat) (v : Word) : (h.writeRw a m v).clk = h.clk := (rfl)
@[simp] theorem Hw.writeRw_reqs (h : Hw) (a m : Nat) (v : Word) : (h.writeRw a m v).reqs = h.reqs := (rfl)
@[simp] theorem Hw.writeRw_epoch (h : Hw) (a m : Nat) (v : Word) : (h.writeRw a m v).epoch = h.epoch := (rfl)
@[simp] theorem Hw.writeRw_time (h : Hw) (a m : Nat) (v : Word) : (h.writeRw a m v).time = h.time := (rfl)
@[simp] theorem Hw.writeRw_net (h : Hw) (a m : Nat) (v : Word) : (h.writeRw a m v).net = h.net := (rfl)
@[simp] theorem Hw.writeRw_flt (h : Hw) (a m : Nat) (v : Word) : (h.writeRw a m v).flt = h.flt := (rfl)
@[simp] theorem Hw.writeRw_recd (h : Hw) (a m : Nat) (v : Word) : (h.writeRw a m v).recd = h.recd := (rfl)
@[simp] theorem Hw.writeRw_field (h : Hw) (a m : Nat) (v : Word) : (h.writeRw a m v).field = h.field := (rfl)
@[simp] theorem Hw.writeRw_smp (h : Hw) (a m : Nat) (v : Word) : (h.writeRw a m v).smp = h.smp := (rfl)
@[simp] theorem Hw.writeRw_adc (h : Hw) (a m : Nat) (v : Word) : (h.writeRw a m v).adc = h.adc := (rfl)
@[simp] theorem Hw.writeRw_seq (h : Hw) (a m : Nat) (v : Word) : (h.writeRw a m v).seq = h.seq := (rfl)
@[simp] theorem Hw.writeRw_str (h : Hw) (a m : Nat) (v : Word) : (h.writeRw a m v).str = h.str := (rfl)
@[simp] theorem Hw.writeRw_trg (h : Hw) (a m : Nat) (v : Word) : (h.writeRw a m v).trg = h.trg := (rfl)
@[simp] theorem Hw.writeRw_mem (h : Hw) (a m : Nat) (v : Word) : (h.writeRw a m v).mem = h.mem := (rfl)
@[simp] theorem Hw.writeRw_cin (h : Hw) (a m : Nat) (v : Word) : (h.writeRw a m v).cin = h.cin := (rfl)
@[simp] theorem Hw.writeRw_cal (h : Hw) (a m : Nat) (v : Word) : (h.writeRw a m v).cal = h.cal := (rfl)
@[simp] theorem Hw.writeRw_boot (h : Hw) (a m : Nat) (v : Word) : (h.writeRw a m v).boot = h.boot := (rfl)
@[simp] theorem Hw.writeRw_lcs (h : Hw) (a m : Nat) (v : Word) : (h.writeRw a m v).lcs = h.lcs := (rfl)
@[simp] theorem Hw.writeRw_draws (h : Hw) (a m : Nat) (v : Word) : (h.writeRw a m v).draws = h.draws := (rfl)

/-! ### `Hw.clearBits` -/

@[simp] theorem Hw.clearBits_clk (h : Hw) (a m : Nat) (v : Word) : (h.clearBits a m v).clk = h.clk := (rfl)
@[simp] theorem Hw.clearBits_reqs (h : Hw) (a m : Nat) (v : Word) : (h.clearBits a m v).reqs = h.reqs := (rfl)
@[simp] theorem Hw.clearBits_epoch (h : Hw) (a m : Nat) (v : Word) : (h.clearBits a m v).epoch = h.epoch := (rfl)
@[simp] theorem Hw.clearBits_time (h : Hw) (a m : Nat) (v : Word) : (h.clearBits a m v).time = h.time := (rfl)
@[simp] theorem Hw.clearBits_net (h : Hw) (a m : Nat) (v : Word) : (h.clearBits a m v).net = h.net := (rfl)
@[simp] theorem Hw.clearBits_flt (h : Hw) (a m : Nat) (v : Word) : (h.clearBits a m v).flt = h.flt := (rfl)
@[simp] theorem Hw.clearBits_recd (h : Hw) (a m : Nat) (v : Word) : (h.clearBits a m v).recd = h.recd := (rfl)
@[simp] theorem Hw.clearBits_field (h : Hw) (a m : Nat) (v : Word) : (h.clearBits a m v).field = h.field := (rfl)
@[simp] theorem Hw.clearBits_smp (h : Hw) (a m : Nat) (v : Word) : (h.clearBits a m v).smp = h.smp := (rfl)
@[simp] theorem Hw.clearBits_adc (h : Hw) (a m : Nat) (v : Word) : (h.clearBits a m v).adc = h.adc := (rfl)
@[simp] theorem Hw.clearBits_seq (h : Hw) (a m : Nat) (v : Word) : (h.clearBits a m v).seq = h.seq := (rfl)
@[simp] theorem Hw.clearBits_str (h : Hw) (a m : Nat) (v : Word) : (h.clearBits a m v).str = h.str := (rfl)
@[simp] theorem Hw.clearBits_trg (h : Hw) (a m : Nat) (v : Word) : (h.clearBits a m v).trg = h.trg := (rfl)
@[simp] theorem Hw.clearBits_mem (h : Hw) (a m : Nat) (v : Word) : (h.clearBits a m v).mem = h.mem := (rfl)
@[simp] theorem Hw.clearBits_cin (h : Hw) (a m : Nat) (v : Word) : (h.clearBits a m v).cin = h.cin := (rfl)
@[simp] theorem Hw.clearBits_cal (h : Hw) (a m : Nat) (v : Word) : (h.clearBits a m v).cal = h.cal := (rfl)
@[simp] theorem Hw.clearBits_boot (h : Hw) (a m : Nat) (v : Word) : (h.clearBits a m v).boot = h.boot := (rfl)
@[simp] theorem Hw.clearBits_lcs (h : Hw) (a m : Nat) (v : Word) : (h.clearBits a m v).lcs = h.lcs := (rfl)
@[simp] theorem Hw.clearBits_draws (h : Hw) (a m : Nat) (v : Word) : (h.clearBits a m v).draws = h.draws := (rfl)

/-! ### `Hw.clearOnRead` -/

@[simp] theorem Hw.clearOnRead_clk (h : Hw) (a rc : Nat) : (h.clearOnRead a rc).clk = h.clk := (rfl)
@[simp] theorem Hw.clearOnRead_reqs (h : Hw) (a rc : Nat) : (h.clearOnRead a rc).reqs = h.reqs := (rfl)
@[simp] theorem Hw.clearOnRead_epoch (h : Hw) (a rc : Nat) : (h.clearOnRead a rc).epoch = h.epoch := (rfl)
@[simp] theorem Hw.clearOnRead_time (h : Hw) (a rc : Nat) : (h.clearOnRead a rc).time = h.time := (rfl)
@[simp] theorem Hw.clearOnRead_net (h : Hw) (a rc : Nat) : (h.clearOnRead a rc).net = h.net := (rfl)
@[simp] theorem Hw.clearOnRead_flt (h : Hw) (a rc : Nat) : (h.clearOnRead a rc).flt = h.flt := (rfl)
@[simp] theorem Hw.clearOnRead_recd (h : Hw) (a rc : Nat) : (h.clearOnRead a rc).recd = h.recd := (rfl)
@[simp] theorem Hw.clearOnRead_field (h : Hw) (a rc : Nat) : (h.clearOnRead a rc).field = h.field := (rfl)
@[simp] theorem Hw.clearOnRead_smp (h : Hw) (a rc : Nat) : (h.clearOnRead a rc).smp = h.smp := (rfl)
@[simp] theorem Hw.clearOnRead_adc (h : Hw) (a rc : Nat) : (h.clearOnRead a rc).adc = h.adc := (rfl)
@[simp] theorem Hw.clearOnRead_seq (h : Hw) (a rc : Nat) : (h.clearOnRead a rc).seq = h.seq := (rfl)
@[simp] theorem Hw.clearOnRead_str (h : Hw) (a rc : Nat) : (h.clearOnRead a rc).str = h.str := (rfl)
@[simp] theorem Hw.clearOnRead_trg (h : Hw) (a rc : Nat) : (h.clearOnRead a rc).trg = h.trg := (rfl)
@[simp] theorem Hw.clearOnRead_mem (h : Hw) (a rc : Nat) : (h.clearOnRead a rc).mem = h.mem := (rfl)
@[simp] theorem Hw.clearOnRead_cin (h : Hw) (a rc : Nat) : (h.clearOnRead a rc).cin = h.cin := (rfl)
@[simp] theorem Hw.clearOnRead_cal (h : Hw) (a rc : Nat) : (h.clearOnRead a rc).cal = h.cal := (rfl)
@[simp] theorem Hw.clearOnRead_boot (h : Hw) (a rc : Nat) : (h.clearOnRead a rc).boot = h.boot := (rfl)
@[simp] theorem Hw.clearOnRead_lcs (h : Hw) (a rc : Nat) : (h.clearOnRead a rc).lcs = h.lcs := (rfl)
@[simp] theorem Hw.clearOnRead_draws (h : Hw) (a rc : Nat) : (h.clearOnRead a rc).draws = h.draws := (rfl)

/-! ### `Hw.flag` -/

@[simp] theorem Hw.flag_clk (h : Hw) (f : Fld) : (h.flag f).clk = h.clk := (rfl)
@[simp] theorem Hw.flag_reqs (h : Hw) (f : Fld) : (h.flag f).reqs = h.reqs := (rfl)
@[simp] theorem Hw.flag_epoch (h : Hw) (f : Fld) : (h.flag f).epoch = h.epoch := (rfl)
@[simp] theorem Hw.flag_time (h : Hw) (f : Fld) : (h.flag f).time = h.time := (rfl)
@[simp] theorem Hw.flag_net (h : Hw) (f : Fld) : (h.flag f).net = h.net := (rfl)
@[simp] theorem Hw.flag_flt (h : Hw) (f : Fld) : (h.flag f).flt = h.flt := (rfl)
@[simp] theorem Hw.flag_recd (h : Hw) (f : Fld) : (h.flag f).recd = h.recd := (rfl)
@[simp] theorem Hw.flag_field (h : Hw) (f : Fld) : (h.flag f).field = h.field := (rfl)
@[simp] theorem Hw.flag_smp (h : Hw) (f : Fld) : (h.flag f).smp = h.smp := (rfl)
@[simp] theorem Hw.flag_adc (h : Hw) (f : Fld) : (h.flag f).adc = h.adc := (rfl)
@[simp] theorem Hw.flag_seq (h : Hw) (f : Fld) : (h.flag f).seq = h.seq := (rfl)
@[simp] theorem Hw.flag_str (h : Hw) (f : Fld) : (h.flag f).str = h.str := (rfl)
@[simp] theorem Hw.flag_trg (h : Hw) (f : Fld) : (h.flag f).trg = h.trg := (rfl)
@[simp] theorem Hw.flag_mem (h : Hw) (f : Fld) : (h.flag f).mem = h.mem := (rfl)
@[simp] theorem Hw.flag_cin (h : Hw) (f : Fld) : (h.flag f).cin = h.cin := (rfl)
@[simp] theorem Hw.flag_cal (h : Hw) (f : Fld) : (h.flag f).cal = h.cal := (rfl)
@[simp] theorem Hw.flag_boot (h : Hw) (f : Fld) : (h.flag f).boot = h.boot := (rfl)
@[simp] theorem Hw.flag_lcs (h : Hw) (f : Fld) : (h.flag f).lcs = h.lcs := (rfl)
@[simp] theorem Hw.flag_draws (h : Hw) (f : Fld) : (h.flag f).draws = h.draws := (rfl)

/-! ### `Hw.putBit` -/

@[simp] theorem Hw.putBit_clk (h : Hw) (a i : Nat) (b : Bool) : (h.putBit a i b).clk = h.clk := (rfl)
@[simp] theorem Hw.putBit_reqs (h : Hw) (a i : Nat) (b : Bool) : (h.putBit a i b).reqs = h.reqs := (rfl)
@[simp] theorem Hw.putBit_epoch (h : Hw) (a i : Nat) (b : Bool) : (h.putBit a i b).epoch = h.epoch := (rfl)
@[simp] theorem Hw.putBit_time (h : Hw) (a i : Nat) (b : Bool) : (h.putBit a i b).time = h.time := (rfl)
@[simp] theorem Hw.putBit_net (h : Hw) (a i : Nat) (b : Bool) : (h.putBit a i b).net = h.net := (rfl)
@[simp] theorem Hw.putBit_flt (h : Hw) (a i : Nat) (b : Bool) : (h.putBit a i b).flt = h.flt := (rfl)
@[simp] theorem Hw.putBit_recd (h : Hw) (a i : Nat) (b : Bool) : (h.putBit a i b).recd = h.recd := (rfl)
@[simp] theorem Hw.putBit_field (h : Hw) (a i : Nat) (b : Bool) : (h.putBit a i b).field = h.field := (rfl)
@[simp] theorem Hw.putBit_smp (h : Hw) (a i : Nat) (b : Bool) : (h.putBit a i b).smp = h.smp := (rfl)
@[simp] theorem Hw.putBit_adc (h : Hw) (a i : Nat) (b : Bool) : (h.putBit a i b).adc = h.adc := (rfl)
@[simp] theorem Hw.putBit_seq (h : Hw) (a i : Nat) (b : Bool) : (h.putBit a i b).seq = h.seq := (rfl)
@[simp] theorem Hw.putBit_str (h : Hw) (a i : Nat) (b : Bool) : (h.putBit a i b).str = h.str := (rfl)
@[simp] theorem Hw.putBit_trg (h : Hw) (a i : Nat) (b : Bool) : (h.putBit a i b).trg = h.trg := (rfl)
@[simp] theorem Hw.putBit_mem (h : Hw) (a i : Nat) (b : Bool) : (h.putBit a i b).mem = h.mem := (rfl)
@[simp] theorem Hw.putBit_cin (h : Hw) (a i : Nat) (b : Bool) : (h.putBit a i b).cin = h.cin := (rfl)
@[simp] theorem Hw.putBit_cal (h : Hw) (a i : Nat) (b : Bool) : (h.putBit a i b).cal = h.cal := (rfl)
@[simp] theorem Hw.putBit_boot (h : Hw) (a i : Nat) (b : Bool) : (h.putBit a i b).boot = h.boot := (rfl)
@[simp] theorem Hw.putBit_lcs (h : Hw) (a i : Nat) (b : Bool) : (h.putBit a i b).lcs = h.lcs := (rfl)
@[simp] theorem Hw.putBit_draws (h : Hw) (a i : Nat) (b : Bool) : (h.putBit a i b).draws = h.draws := (rfl)

/-! ### `Hw.draw` -/

@[simp] theorem Hw.draw_regs (h : Hw) : (h.draw).regs = h.regs := (rfl)
@[simp] theorem Hw.draw_clk (h : Hw) : (h.draw).clk = h.clk := (rfl)
@[simp] theorem Hw.draw_reqs (h : Hw) : (h.draw).reqs = h.reqs := (rfl)
@[simp] theorem Hw.draw_epoch (h : Hw) : (h.draw).epoch = h.epoch := (rfl)
@[simp] theorem Hw.draw_time (h : Hw) : (h.draw).time = h.time := (rfl)
@[simp] theorem Hw.draw_net (h : Hw) : (h.draw).net = h.net := (rfl)
@[simp] theorem Hw.draw_flt (h : Hw) : (h.draw).flt = h.flt := (rfl)
@[simp] theorem Hw.draw_recd (h : Hw) : (h.draw).recd = h.recd := (rfl)
@[simp] theorem Hw.draw_field (h : Hw) : (h.draw).field = h.field := (rfl)
@[simp] theorem Hw.draw_smp (h : Hw) : (h.draw).smp = h.smp := (rfl)
@[simp] theorem Hw.draw_adc (h : Hw) : (h.draw).adc = h.adc := (rfl)
@[simp] theorem Hw.draw_seq (h : Hw) : (h.draw).seq = h.seq := (rfl)
@[simp] theorem Hw.draw_str (h : Hw) : (h.draw).str = h.str := (rfl)
@[simp] theorem Hw.draw_trg (h : Hw) : (h.draw).trg = h.trg := (rfl)
@[simp] theorem Hw.draw_mem (h : Hw) : (h.draw).mem = h.mem := (rfl)
@[simp] theorem Hw.draw_cin (h : Hw) : (h.draw).cin = h.cin := (rfl)
@[simp] theorem Hw.draw_cal (h : Hw) : (h.draw).cal = h.cal := (rfl)
@[simp] theorem Hw.draw_boot (h : Hw) : (h.draw).boot = h.boot := (rfl)
@[simp] theorem Hw.draw_lcs (h : Hw) : (h.draw).lcs = h.lcs := (rfl)

/-! ### `Hw.setRq` -/

@[simp] theorem Hw.setRq_regs (h : Hw) (q : Requester) (r : ReqSt) : (h.setRq q r).regs = h.regs := (rfl)
@[simp] theorem Hw.setRq_clk (h : Hw) (q : Requester) (r : ReqSt) : (h.setRq q r).clk = h.clk := (rfl)
@[simp] theorem Hw.setRq_epoch (h : Hw) (q : Requester) (r : ReqSt) : (h.setRq q r).epoch = h.epoch := (rfl)
@[simp] theorem Hw.setRq_time (h : Hw) (q : Requester) (r : ReqSt) : (h.setRq q r).time = h.time := (rfl)
@[simp] theorem Hw.setRq_net (h : Hw) (q : Requester) (r : ReqSt) : (h.setRq q r).net = h.net := (rfl)
@[simp] theorem Hw.setRq_flt (h : Hw) (q : Requester) (r : ReqSt) : (h.setRq q r).flt = h.flt := (rfl)
@[simp] theorem Hw.setRq_recd (h : Hw) (q : Requester) (r : ReqSt) : (h.setRq q r).recd = h.recd := (rfl)
@[simp] theorem Hw.setRq_field (h : Hw) (q : Requester) (r : ReqSt) : (h.setRq q r).field = h.field := (rfl)
@[simp] theorem Hw.setRq_smp (h : Hw) (q : Requester) (r : ReqSt) : (h.setRq q r).smp = h.smp := (rfl)
@[simp] theorem Hw.setRq_adc (h : Hw) (q : Requester) (r : ReqSt) : (h.setRq q r).adc = h.adc := (rfl)
@[simp] theorem Hw.setRq_seq (h : Hw) (q : Requester) (r : ReqSt) : (h.setRq q r).seq = h.seq := (rfl)
@[simp] theorem Hw.setRq_str (h : Hw) (q : Requester) (r : ReqSt) : (h.setRq q r).str = h.str := (rfl)
@[simp] theorem Hw.setRq_trg (h : Hw) (q : Requester) (r : ReqSt) : (h.setRq q r).trg = h.trg := (rfl)
@[simp] theorem Hw.setRq_mem (h : Hw) (q : Requester) (r : ReqSt) : (h.setRq q r).mem = h.mem := (rfl)
@[simp] theorem Hw.setRq_cin (h : Hw) (q : Requester) (r : ReqSt) : (h.setRq q r).cin = h.cin := (rfl)
@[simp] theorem Hw.setRq_cal (h : Hw) (q : Requester) (r : ReqSt) : (h.setRq q r).cal = h.cal := (rfl)
@[simp] theorem Hw.setRq_boot (h : Hw) (q : Requester) (r : ReqSt) : (h.setRq q r).boot = h.boot := (rfl)
@[simp] theorem Hw.setRq_lcs (h : Hw) (q : Requester) (r : ReqSt) : (h.setRq q r).lcs = h.lcs := (rfl)
@[simp] theorem Hw.setRq_draws (h : Hw) (q : Requester) (r : ReqSt) : (h.setRq q r).draws = h.draws := (rfl)

/-! ### `Hw.setHeld` -/

@[simp] theorem Hw.setHeld_regs (h : Hw) (q : Requester) (a : Nat) (v : Option Word) : (h.setHeld q a v).regs = h.regs := (rfl)
@[simp] theorem Hw.setHeld_clk (h : Hw) (q : Requester) (a : Nat) (v : Option Word) : (h.setHeld q a v).clk = h.clk := (rfl)
@[simp] theorem Hw.setHeld_epoch (h : Hw) (q : Requester) (a : Nat) (v : Option Word) : (h.setHeld q a v).epoch = h.epoch := (rfl)
@[simp] theorem Hw.setHeld_time (h : Hw) (q : Requester) (a : Nat) (v : Option Word) : (h.setHeld q a v).time = h.time := (rfl)
@[simp] theorem Hw.setHeld_net (h : Hw) (q : Requester) (a : Nat) (v : Option Word) : (h.setHeld q a v).net = h.net := (rfl)
@[simp] theorem Hw.setHeld_flt (h : Hw) (q : Requester) (a : Nat) (v : Option Word) : (h.setHeld q a v).flt = h.flt := (rfl)
@[simp] theorem Hw.setHeld_recd (h : Hw) (q : Requester) (a : Nat) (v : Option Word) : (h.setHeld q a v).recd = h.recd := (rfl)
@[simp] theorem Hw.setHeld_field (h : Hw) (q : Requester) (a : Nat) (v : Option Word) : (h.setHeld q a v).field = h.field := (rfl)
@[simp] theorem Hw.setHeld_smp (h : Hw) (q : Requester) (a : Nat) (v : Option Word) : (h.setHeld q a v).smp = h.smp := (rfl)
@[simp] theorem Hw.setHeld_adc (h : Hw) (q : Requester) (a : Nat) (v : Option Word) : (h.setHeld q a v).adc = h.adc := (rfl)
@[simp] theorem Hw.setHeld_seq (h : Hw) (q : Requester) (a : Nat) (v : Option Word) : (h.setHeld q a v).seq = h.seq := (rfl)
@[simp] theorem Hw.setHeld_str (h : Hw) (q : Requester) (a : Nat) (v : Option Word) : (h.setHeld q a v).str = h.str := (rfl)
@[simp] theorem Hw.setHeld_trg (h : Hw) (q : Requester) (a : Nat) (v : Option Word) : (h.setHeld q a v).trg = h.trg := (rfl)
@[simp] theorem Hw.setHeld_mem (h : Hw) (q : Requester) (a : Nat) (v : Option Word) : (h.setHeld q a v).mem = h.mem := (rfl)
@[simp] theorem Hw.setHeld_cin (h : Hw) (q : Requester) (a : Nat) (v : Option Word) : (h.setHeld q a v).cin = h.cin := (rfl)
@[simp] theorem Hw.setHeld_cal (h : Hw) (q : Requester) (a : Nat) (v : Option Word) : (h.setHeld q a v).cal = h.cal := (rfl)
@[simp] theorem Hw.setHeld_boot (h : Hw) (q : Requester) (a : Nat) (v : Option Word) : (h.setHeld q a v).boot = h.boot := (rfl)
@[simp] theorem Hw.setHeld_lcs (h : Hw) (q : Requester) (a : Nat) (v : Option Word) : (h.setHeld q a v).lcs = h.lcs := (rfl)
@[simp] theorem Hw.setHeld_draws (h : Hw) (q : Requester) (a : Nat) (v : Option Word) : (h.setHeld q a v).draws = h.draws := (rfl)

/-! ### `Hw.setLatch` -/

@[simp] theorem Hw.setLatch_regs (h : Hw) (q : Requester) (a : Nat) (v : Word) : (h.setLatch q a v).regs = h.regs := (rfl)
@[simp] theorem Hw.setLatch_clk (h : Hw) (q : Requester) (a : Nat) (v : Word) : (h.setLatch q a v).clk = h.clk := (rfl)
@[simp] theorem Hw.setLatch_epoch (h : Hw) (q : Requester) (a : Nat) (v : Word) : (h.setLatch q a v).epoch = h.epoch := (rfl)
@[simp] theorem Hw.setLatch_time (h : Hw) (q : Requester) (a : Nat) (v : Word) : (h.setLatch q a v).time = h.time := (rfl)
@[simp] theorem Hw.setLatch_net (h : Hw) (q : Requester) (a : Nat) (v : Word) : (h.setLatch q a v).net = h.net := (rfl)
@[simp] theorem Hw.setLatch_flt (h : Hw) (q : Requester) (a : Nat) (v : Word) : (h.setLatch q a v).flt = h.flt := (rfl)
@[simp] theorem Hw.setLatch_recd (h : Hw) (q : Requester) (a : Nat) (v : Word) : (h.setLatch q a v).recd = h.recd := (rfl)
@[simp] theorem Hw.setLatch_field (h : Hw) (q : Requester) (a : Nat) (v : Word) : (h.setLatch q a v).field = h.field := (rfl)
@[simp] theorem Hw.setLatch_smp (h : Hw) (q : Requester) (a : Nat) (v : Word) : (h.setLatch q a v).smp = h.smp := (rfl)
@[simp] theorem Hw.setLatch_adc (h : Hw) (q : Requester) (a : Nat) (v : Word) : (h.setLatch q a v).adc = h.adc := (rfl)
@[simp] theorem Hw.setLatch_seq (h : Hw) (q : Requester) (a : Nat) (v : Word) : (h.setLatch q a v).seq = h.seq := (rfl)
@[simp] theorem Hw.setLatch_str (h : Hw) (q : Requester) (a : Nat) (v : Word) : (h.setLatch q a v).str = h.str := (rfl)
@[simp] theorem Hw.setLatch_trg (h : Hw) (q : Requester) (a : Nat) (v : Word) : (h.setLatch q a v).trg = h.trg := (rfl)
@[simp] theorem Hw.setLatch_mem (h : Hw) (q : Requester) (a : Nat) (v : Word) : (h.setLatch q a v).mem = h.mem := (rfl)
@[simp] theorem Hw.setLatch_cin (h : Hw) (q : Requester) (a : Nat) (v : Word) : (h.setLatch q a v).cin = h.cin := (rfl)
@[simp] theorem Hw.setLatch_cal (h : Hw) (q : Requester) (a : Nat) (v : Word) : (h.setLatch q a v).cal = h.cal := (rfl)
@[simp] theorem Hw.setLatch_boot (h : Hw) (q : Requester) (a : Nat) (v : Word) : (h.setLatch q a v).boot = h.boot := (rfl)
@[simp] theorem Hw.setLatch_lcs (h : Hw) (q : Requester) (a : Nat) (v : Word) : (h.setLatch q a v).lcs = h.lcs := (rfl)
@[simp] theorem Hw.setLatch_draws (h : Hw) (q : Requester) (a : Nat) (v : Word) : (h.setLatch q a v).draws = h.draws := (rfl)

/-! ### `Hw.stage` -/

@[simp] theorem Hw.stage_regs (h : Hw) (a m : Nat) (v : Word) : (h.stage a m v).regs = h.regs := (rfl)
@[simp] theorem Hw.stage_clk (h : Hw) (a m : Nat) (v : Word) : (h.stage a m v).clk = h.clk := (rfl)
@[simp] theorem Hw.stage_reqs (h : Hw) (a m : Nat) (v : Word) : (h.stage a m v).reqs = h.reqs := (rfl)
@[simp] theorem Hw.stage_time (h : Hw) (a m : Nat) (v : Word) : (h.stage a m v).time = h.time := (rfl)
@[simp] theorem Hw.stage_net (h : Hw) (a m : Nat) (v : Word) : (h.stage a m v).net = h.net := (rfl)
@[simp] theorem Hw.stage_flt (h : Hw) (a m : Nat) (v : Word) : (h.stage a m v).flt = h.flt := (rfl)
@[simp] theorem Hw.stage_recd (h : Hw) (a m : Nat) (v : Word) : (h.stage a m v).recd = h.recd := (rfl)
@[simp] theorem Hw.stage_field (h : Hw) (a m : Nat) (v : Word) : (h.stage a m v).field = h.field := (rfl)
@[simp] theorem Hw.stage_smp (h : Hw) (a m : Nat) (v : Word) : (h.stage a m v).smp = h.smp := (rfl)
@[simp] theorem Hw.stage_adc (h : Hw) (a m : Nat) (v : Word) : (h.stage a m v).adc = h.adc := (rfl)
@[simp] theorem Hw.stage_seq (h : Hw) (a m : Nat) (v : Word) : (h.stage a m v).seq = h.seq := (rfl)
@[simp] theorem Hw.stage_str (h : Hw) (a m : Nat) (v : Word) : (h.stage a m v).str = h.str := (rfl)
@[simp] theorem Hw.stage_trg (h : Hw) (a m : Nat) (v : Word) : (h.stage a m v).trg = h.trg := (rfl)
@[simp] theorem Hw.stage_mem (h : Hw) (a m : Nat) (v : Word) : (h.stage a m v).mem = h.mem := (rfl)
@[simp] theorem Hw.stage_cin (h : Hw) (a m : Nat) (v : Word) : (h.stage a m v).cin = h.cin := (rfl)
@[simp] theorem Hw.stage_cal (h : Hw) (a m : Nat) (v : Word) : (h.stage a m v).cal = h.cal := (rfl)
@[simp] theorem Hw.stage_boot (h : Hw) (a m : Nat) (v : Word) : (h.stage a m v).boot = h.boot := (rfl)
@[simp] theorem Hw.stage_lcs (h : Hw) (a m : Nat) (v : Word) : (h.stage a m v).lcs = h.lcs := (rfl)
@[simp] theorem Hw.stage_draws (h : Hw) (a m : Nat) (v : Word) : (h.stage a m v).draws = h.draws := (rfl)

/-! ### `Hw.setXing` -/

@[simp] theorem Hw.setXing_regs (h : Hw) (x : Nat) (c : Crossing) : (h.setXing x c).regs = h.regs := (rfl)
@[simp] theorem Hw.setXing_reqs (h : Hw) (x : Nat) (c : Crossing) : (h.setXing x c).reqs = h.reqs := (rfl)
@[simp] theorem Hw.setXing_epoch (h : Hw) (x : Nat) (c : Crossing) : (h.setXing x c).epoch = h.epoch := (rfl)
@[simp] theorem Hw.setXing_time (h : Hw) (x : Nat) (c : Crossing) : (h.setXing x c).time = h.time := (rfl)
@[simp] theorem Hw.setXing_net (h : Hw) (x : Nat) (c : Crossing) : (h.setXing x c).net = h.net := (rfl)
@[simp] theorem Hw.setXing_flt (h : Hw) (x : Nat) (c : Crossing) : (h.setXing x c).flt = h.flt := (rfl)
@[simp] theorem Hw.setXing_recd (h : Hw) (x : Nat) (c : Crossing) : (h.setXing x c).recd = h.recd := (rfl)
@[simp] theorem Hw.setXing_field (h : Hw) (x : Nat) (c : Crossing) : (h.setXing x c).field = h.field := (rfl)
@[simp] theorem Hw.setXing_smp (h : Hw) (x : Nat) (c : Crossing) : (h.setXing x c).smp = h.smp := (rfl)
@[simp] theorem Hw.setXing_adc (h : Hw) (x : Nat) (c : Crossing) : (h.setXing x c).adc = h.adc := (rfl)
@[simp] theorem Hw.setXing_seq (h : Hw) (x : Nat) (c : Crossing) : (h.setXing x c).seq = h.seq := (rfl)
@[simp] theorem Hw.setXing_str (h : Hw) (x : Nat) (c : Crossing) : (h.setXing x c).str = h.str := (rfl)
@[simp] theorem Hw.setXing_trg (h : Hw) (x : Nat) (c : Crossing) : (h.setXing x c).trg = h.trg := (rfl)
@[simp] theorem Hw.setXing_mem (h : Hw) (x : Nat) (c : Crossing) : (h.setXing x c).mem = h.mem := (rfl)
@[simp] theorem Hw.setXing_cin (h : Hw) (x : Nat) (c : Crossing) : (h.setXing x c).cin = h.cin := (rfl)
@[simp] theorem Hw.setXing_cal (h : Hw) (x : Nat) (c : Crossing) : (h.setXing x c).cal = h.cal := (rfl)
@[simp] theorem Hw.setXing_boot (h : Hw) (x : Nat) (c : Crossing) : (h.setXing x c).boot = h.boot := (rfl)
@[simp] theorem Hw.setXing_lcs (h : Hw) (x : Nat) (c : Crossing) : (h.setXing x c).lcs = h.lcs := (rfl)
@[simp] theorem Hw.setXing_draws (h : Hw) (x : Nat) (c : Crossing) : (h.setXing x c).draws = h.draws := (rfl)

/-! ### `Hw.setOv` -/

@[simp] theorem Hw.setOv_regs (h : Hw) (t v : Nat) : (h.setOv t v).regs = h.regs := (rfl)
@[simp] theorem Hw.setOv_clk (h : Hw) (t v : Nat) : (h.setOv t v).clk = h.clk := (rfl)
@[simp] theorem Hw.setOv_reqs (h : Hw) (t v : Nat) : (h.setOv t v).reqs = h.reqs := (rfl)
@[simp] theorem Hw.setOv_epoch (h : Hw) (t v : Nat) : (h.setOv t v).epoch = h.epoch := (rfl)
@[simp] theorem Hw.setOv_time (h : Hw) (t v : Nat) : (h.setOv t v).time = h.time := (rfl)
@[simp] theorem Hw.setOv_net (h : Hw) (t v : Nat) : (h.setOv t v).net = h.net := (rfl)
@[simp] theorem Hw.setOv_flt (h : Hw) (t v : Nat) : (h.setOv t v).flt = h.flt := (rfl)
@[simp] theorem Hw.setOv_recd (h : Hw) (t v : Nat) : (h.setOv t v).recd = h.recd := (rfl)
@[simp] theorem Hw.setOv_smp (h : Hw) (t v : Nat) : (h.setOv t v).smp = h.smp := (rfl)
@[simp] theorem Hw.setOv_adc (h : Hw) (t v : Nat) : (h.setOv t v).adc = h.adc := (rfl)
@[simp] theorem Hw.setOv_seq (h : Hw) (t v : Nat) : (h.setOv t v).seq = h.seq := (rfl)
@[simp] theorem Hw.setOv_str (h : Hw) (t v : Nat) : (h.setOv t v).str = h.str := (rfl)
@[simp] theorem Hw.setOv_trg (h : Hw) (t v : Nat) : (h.setOv t v).trg = h.trg := (rfl)
@[simp] theorem Hw.setOv_mem (h : Hw) (t v : Nat) : (h.setOv t v).mem = h.mem := (rfl)
@[simp] theorem Hw.setOv_cin (h : Hw) (t v : Nat) : (h.setOv t v).cin = h.cin := (rfl)
@[simp] theorem Hw.setOv_cal (h : Hw) (t v : Nat) : (h.setOv t v).cal = h.cal := (rfl)
@[simp] theorem Hw.setOv_boot (h : Hw) (t v : Nat) : (h.setOv t v).boot = h.boot := (rfl)
@[simp] theorem Hw.setOv_lcs (h : Hw) (t v : Nat) : (h.setOv t v).lcs = h.lcs := (rfl)
@[simp] theorem Hw.setOv_draws (h : Hw) (t v : Nat) : (h.setOv t v).draws = h.draws := (rfl)

/-! ### `Hw.setClosed` -/

@[simp] theorem Hw.setClosed_regs (h : Hw) (t : Nat) (w : Word) : (h.setClosed t w).regs = h.regs := (rfl)
@[simp] theorem Hw.setClosed_clk (h : Hw) (t : Nat) (w : Word) : (h.setClosed t w).clk = h.clk := (rfl)
@[simp] theorem Hw.setClosed_reqs (h : Hw) (t : Nat) (w : Word) : (h.setClosed t w).reqs = h.reqs := (rfl)
@[simp] theorem Hw.setClosed_epoch (h : Hw) (t : Nat) (w : Word) : (h.setClosed t w).epoch = h.epoch := (rfl)
@[simp] theorem Hw.setClosed_time (h : Hw) (t : Nat) (w : Word) : (h.setClosed t w).time = h.time := (rfl)
@[simp] theorem Hw.setClosed_net (h : Hw) (t : Nat) (w : Word) : (h.setClosed t w).net = h.net := (rfl)
@[simp] theorem Hw.setClosed_flt (h : Hw) (t : Nat) (w : Word) : (h.setClosed t w).flt = h.flt := (rfl)
@[simp] theorem Hw.setClosed_recd (h : Hw) (t : Nat) (w : Word) : (h.setClosed t w).recd = h.recd := (rfl)
@[simp] theorem Hw.setClosed_smp (h : Hw) (t : Nat) (w : Word) : (h.setClosed t w).smp = h.smp := (rfl)
@[simp] theorem Hw.setClosed_adc (h : Hw) (t : Nat) (w : Word) : (h.setClosed t w).adc = h.adc := (rfl)
@[simp] theorem Hw.setClosed_seq (h : Hw) (t : Nat) (w : Word) : (h.setClosed t w).seq = h.seq := (rfl)
@[simp] theorem Hw.setClosed_str (h : Hw) (t : Nat) (w : Word) : (h.setClosed t w).str = h.str := (rfl)
@[simp] theorem Hw.setClosed_trg (h : Hw) (t : Nat) (w : Word) : (h.setClosed t w).trg = h.trg := (rfl)
@[simp] theorem Hw.setClosed_mem (h : Hw) (t : Nat) (w : Word) : (h.setClosed t w).mem = h.mem := (rfl)
@[simp] theorem Hw.setClosed_cin (h : Hw) (t : Nat) (w : Word) : (h.setClosed t w).cin = h.cin := (rfl)
@[simp] theorem Hw.setClosed_cal (h : Hw) (t : Nat) (w : Word) : (h.setClosed t w).cal = h.cal := (rfl)
@[simp] theorem Hw.setClosed_boot (h : Hw) (t : Nat) (w : Word) : (h.setClosed t w).boot = h.boot := (rfl)
@[simp] theorem Hw.setClosed_lcs (h : Hw) (t : Nat) (w : Word) : (h.setClosed t w).lcs = h.lcs := (rfl)
@[simp] theorem Hw.setClosed_draws (h : Hw) (t : Nat) (w : Word) : (h.setClosed t w).draws = h.draws := (rfl)

/-! ### `Hw.setClosedIn` -/

@[simp] theorem Hw.setClosedIn_regs (h : Hw) (t : Nat) (w : Word) : (h.setClosedIn t w).regs = h.regs := (rfl)
@[simp] theorem Hw.setClosedIn_clk (h : Hw) (t : Nat) (w : Word) : (h.setClosedIn t w).clk = h.clk := (rfl)
@[simp] theorem Hw.setClosedIn_reqs (h : Hw) (t : Nat) (w : Word) : (h.setClosedIn t w).reqs = h.reqs := (rfl)
@[simp] theorem Hw.setClosedIn_epoch (h : Hw) (t : Nat) (w : Word) : (h.setClosedIn t w).epoch = h.epoch := (rfl)
@[simp] theorem Hw.setClosedIn_time (h : Hw) (t : Nat) (w : Word) : (h.setClosedIn t w).time = h.time := (rfl)
@[simp] theorem Hw.setClosedIn_net (h : Hw) (t : Nat) (w : Word) : (h.setClosedIn t w).net = h.net := (rfl)
@[simp] theorem Hw.setClosedIn_flt (h : Hw) (t : Nat) (w : Word) : (h.setClosedIn t w).flt = h.flt := (rfl)
@[simp] theorem Hw.setClosedIn_recd (h : Hw) (t : Nat) (w : Word) : (h.setClosedIn t w).recd = h.recd := (rfl)
@[simp] theorem Hw.setClosedIn_smp (h : Hw) (t : Nat) (w : Word) : (h.setClosedIn t w).smp = h.smp := (rfl)
@[simp] theorem Hw.setClosedIn_adc (h : Hw) (t : Nat) (w : Word) : (h.setClosedIn t w).adc = h.adc := (rfl)
@[simp] theorem Hw.setClosedIn_seq (h : Hw) (t : Nat) (w : Word) : (h.setClosedIn t w).seq = h.seq := (rfl)
@[simp] theorem Hw.setClosedIn_str (h : Hw) (t : Nat) (w : Word) : (h.setClosedIn t w).str = h.str := (rfl)
@[simp] theorem Hw.setClosedIn_trg (h : Hw) (t : Nat) (w : Word) : (h.setClosedIn t w).trg = h.trg := (rfl)
@[simp] theorem Hw.setClosedIn_mem (h : Hw) (t : Nat) (w : Word) : (h.setClosedIn t w).mem = h.mem := (rfl)
@[simp] theorem Hw.setClosedIn_cin (h : Hw) (t : Nat) (w : Word) : (h.setClosedIn t w).cin = h.cin := (rfl)
@[simp] theorem Hw.setClosedIn_cal (h : Hw) (t : Nat) (w : Word) : (h.setClosedIn t w).cal = h.cal := (rfl)
@[simp] theorem Hw.setClosedIn_boot (h : Hw) (t : Nat) (w : Word) : (h.setClosedIn t w).boot = h.boot := (rfl)
@[simp] theorem Hw.setClosedIn_lcs (h : Hw) (t : Nat) (w : Word) : (h.setClosedIn t w).lcs = h.lcs := (rfl)
@[simp] theorem Hw.setClosedIn_draws (h : Hw) (t : Nat) (w : Word) : (h.setClosedIn t w).draws = h.draws := (rfl)

/-! ### `Hw.setInputs` -/

@[simp] theorem Hw.setInputs_regs (h : Hw) (u : Nat) (ch : Option Nat) : (h.setInputs u ch).regs = h.regs := (rfl)
@[simp] theorem Hw.setInputs_clk (h : Hw) (u : Nat) (ch : Option Nat) : (h.setInputs u ch).clk = h.clk := (rfl)
@[simp] theorem Hw.setInputs_reqs (h : Hw) (u : Nat) (ch : Option Nat) : (h.setInputs u ch).reqs = h.reqs := (rfl)
@[simp] theorem Hw.setInputs_epoch (h : Hw) (u : Nat) (ch : Option Nat) : (h.setInputs u ch).epoch = h.epoch := (rfl)
@[simp] theorem Hw.setInputs_time (h : Hw) (u : Nat) (ch : Option Nat) : (h.setInputs u ch).time = h.time := (rfl)
@[simp] theorem Hw.setInputs_net (h : Hw) (u : Nat) (ch : Option Nat) : (h.setInputs u ch).net = h.net := (rfl)
@[simp] theorem Hw.setInputs_flt (h : Hw) (u : Nat) (ch : Option Nat) : (h.setInputs u ch).flt = h.flt := (rfl)
@[simp] theorem Hw.setInputs_recd (h : Hw) (u : Nat) (ch : Option Nat) : (h.setInputs u ch).recd = h.recd := (rfl)
@[simp] theorem Hw.setInputs_smp (h : Hw) (u : Nat) (ch : Option Nat) : (h.setInputs u ch).smp = h.smp := (rfl)
@[simp] theorem Hw.setInputs_adc (h : Hw) (u : Nat) (ch : Option Nat) : (h.setInputs u ch).adc = h.adc := (rfl)
@[simp] theorem Hw.setInputs_seq (h : Hw) (u : Nat) (ch : Option Nat) : (h.setInputs u ch).seq = h.seq := (rfl)
@[simp] theorem Hw.setInputs_str (h : Hw) (u : Nat) (ch : Option Nat) : (h.setInputs u ch).str = h.str := (rfl)
@[simp] theorem Hw.setInputs_trg (h : Hw) (u : Nat) (ch : Option Nat) : (h.setInputs u ch).trg = h.trg := (rfl)
@[simp] theorem Hw.setInputs_mem (h : Hw) (u : Nat) (ch : Option Nat) : (h.setInputs u ch).mem = h.mem := (rfl)
@[simp] theorem Hw.setInputs_cin (h : Hw) (u : Nat) (ch : Option Nat) : (h.setInputs u ch).cin = h.cin := (rfl)
@[simp] theorem Hw.setInputs_cal (h : Hw) (u : Nat) (ch : Option Nat) : (h.setInputs u ch).cal = h.cal := (rfl)
@[simp] theorem Hw.setInputs_boot (h : Hw) (u : Nat) (ch : Option Nat) : (h.setInputs u ch).boot = h.boot := (rfl)
@[simp] theorem Hw.setInputs_lcs (h : Hw) (u : Nat) (ch : Option Nat) : (h.setInputs u ch).lcs = h.lcs := (rfl)
@[simp] theorem Hw.setInputs_draws (h : Hw) (u : Nat) (ch : Option Nat) : (h.setInputs u ch).draws = h.draws := (rfl)

/-! ### `Hw.setOpenBits` -/

@[simp] theorem Hw.setOpenBits_regs (h : Hw) (ch v : Nat) : (h.setOpenBits ch v).regs = h.regs := (rfl)
@[simp] theorem Hw.setOpenBits_clk (h : Hw) (ch v : Nat) : (h.setOpenBits ch v).clk = h.clk := (rfl)
@[simp] theorem Hw.setOpenBits_reqs (h : Hw) (ch v : Nat) : (h.setOpenBits ch v).reqs = h.reqs := (rfl)
@[simp] theorem Hw.setOpenBits_epoch (h : Hw) (ch v : Nat) : (h.setOpenBits ch v).epoch = h.epoch := (rfl)
@[simp] theorem Hw.setOpenBits_time (h : Hw) (ch v : Nat) : (h.setOpenBits ch v).time = h.time := (rfl)
@[simp] theorem Hw.setOpenBits_net (h : Hw) (ch v : Nat) : (h.setOpenBits ch v).net = h.net := (rfl)
@[simp] theorem Hw.setOpenBits_flt (h : Hw) (ch v : Nat) : (h.setOpenBits ch v).flt = h.flt := (rfl)
@[simp] theorem Hw.setOpenBits_recd (h : Hw) (ch v : Nat) : (h.setOpenBits ch v).recd = h.recd := (rfl)
@[simp] theorem Hw.setOpenBits_smp (h : Hw) (ch v : Nat) : (h.setOpenBits ch v).smp = h.smp := (rfl)
@[simp] theorem Hw.setOpenBits_adc (h : Hw) (ch v : Nat) : (h.setOpenBits ch v).adc = h.adc := (rfl)
@[simp] theorem Hw.setOpenBits_seq (h : Hw) (ch v : Nat) : (h.setOpenBits ch v).seq = h.seq := (rfl)
@[simp] theorem Hw.setOpenBits_str (h : Hw) (ch v : Nat) : (h.setOpenBits ch v).str = h.str := (rfl)
@[simp] theorem Hw.setOpenBits_trg (h : Hw) (ch v : Nat) : (h.setOpenBits ch v).trg = h.trg := (rfl)
@[simp] theorem Hw.setOpenBits_mem (h : Hw) (ch v : Nat) : (h.setOpenBits ch v).mem = h.mem := (rfl)
@[simp] theorem Hw.setOpenBits_cin (h : Hw) (ch v : Nat) : (h.setOpenBits ch v).cin = h.cin := (rfl)
@[simp] theorem Hw.setOpenBits_cal (h : Hw) (ch v : Nat) : (h.setOpenBits ch v).cal = h.cal := (rfl)
@[simp] theorem Hw.setOpenBits_boot (h : Hw) (ch v : Nat) : (h.setOpenBits ch v).boot = h.boot := (rfl)
@[simp] theorem Hw.setOpenBits_lcs (h : Hw) (ch v : Nat) : (h.setOpenBits ch v).lcs = h.lcs := (rfl)
@[simp] theorem Hw.setOpenBits_draws (h : Hw) (ch v : Nat) : (h.setOpenBits ch v).draws = h.draws := (rfl)

/-! ### `Hw.setDrv` -/

@[simp] theorem Hw.setDrv_regs (h : Hw) (d : Nat) (x : DriverSt) : (h.setDrv d x).regs = h.regs := (rfl)
@[simp] theorem Hw.setDrv_clk (h : Hw) (d : Nat) (x : DriverSt) : (h.setDrv d x).clk = h.clk := (rfl)
@[simp] theorem Hw.setDrv_reqs (h : Hw) (d : Nat) (x : DriverSt) : (h.setDrv d x).reqs = h.reqs := (rfl)
@[simp] theorem Hw.setDrv_epoch (h : Hw) (d : Nat) (x : DriverSt) : (h.setDrv d x).epoch = h.epoch := (rfl)
@[simp] theorem Hw.setDrv_time (h : Hw) (d : Nat) (x : DriverSt) : (h.setDrv d x).time = h.time := (rfl)
@[simp] theorem Hw.setDrv_net (h : Hw) (d : Nat) (x : DriverSt) : (h.setDrv d x).net = h.net := (rfl)
@[simp] theorem Hw.setDrv_flt (h : Hw) (d : Nat) (x : DriverSt) : (h.setDrv d x).flt = h.flt := (rfl)
@[simp] theorem Hw.setDrv_recd (h : Hw) (d : Nat) (x : DriverSt) : (h.setDrv d x).recd = h.recd := (rfl)
@[simp] theorem Hw.setDrv_smp (h : Hw) (d : Nat) (x : DriverSt) : (h.setDrv d x).smp = h.smp := (rfl)
@[simp] theorem Hw.setDrv_adc (h : Hw) (d : Nat) (x : DriverSt) : (h.setDrv d x).adc = h.adc := (rfl)
@[simp] theorem Hw.setDrv_seq (h : Hw) (d : Nat) (x : DriverSt) : (h.setDrv d x).seq = h.seq := (rfl)
@[simp] theorem Hw.setDrv_str (h : Hw) (d : Nat) (x : DriverSt) : (h.setDrv d x).str = h.str := (rfl)
@[simp] theorem Hw.setDrv_trg (h : Hw) (d : Nat) (x : DriverSt) : (h.setDrv d x).trg = h.trg := (rfl)
@[simp] theorem Hw.setDrv_mem (h : Hw) (d : Nat) (x : DriverSt) : (h.setDrv d x).mem = h.mem := (rfl)
@[simp] theorem Hw.setDrv_cin (h : Hw) (d : Nat) (x : DriverSt) : (h.setDrv d x).cin = h.cin := (rfl)
@[simp] theorem Hw.setDrv_cal (h : Hw) (d : Nat) (x : DriverSt) : (h.setDrv d x).cal = h.cal := (rfl)
@[simp] theorem Hw.setDrv_boot (h : Hw) (d : Nat) (x : DriverSt) : (h.setDrv d x).boot = h.boot := (rfl)
@[simp] theorem Hw.setDrv_lcs (h : Hw) (d : Nat) (x : DriverSt) : (h.setDrv d x).lcs = h.lcs := (rfl)
@[simp] theorem Hw.setDrv_draws (h : Hw) (d : Nat) (x : DriverSt) : (h.setDrv d x).draws = h.draws := (rfl)

/-! ### `Hw.setRelief` -/

@[simp] theorem Hw.setRelief_regs (h : Hw) (k : Nat) (r : Option Relief) : (h.setRelief k r).regs = h.regs := (rfl)
@[simp] theorem Hw.setRelief_clk (h : Hw) (k : Nat) (r : Option Relief) : (h.setRelief k r).clk = h.clk := (rfl)
@[simp] theorem Hw.setRelief_reqs (h : Hw) (k : Nat) (r : Option Relief) : (h.setRelief k r).reqs = h.reqs := (rfl)
@[simp] theorem Hw.setRelief_epoch (h : Hw) (k : Nat) (r : Option Relief) : (h.setRelief k r).epoch = h.epoch := (rfl)
@[simp] theorem Hw.setRelief_time (h : Hw) (k : Nat) (r : Option Relief) : (h.setRelief k r).time = h.time := (rfl)
@[simp] theorem Hw.setRelief_net (h : Hw) (k : Nat) (r : Option Relief) : (h.setRelief k r).net = h.net := (rfl)
@[simp] theorem Hw.setRelief_flt (h : Hw) (k : Nat) (r : Option Relief) : (h.setRelief k r).flt = h.flt := (rfl)
@[simp] theorem Hw.setRelief_recd (h : Hw) (k : Nat) (r : Option Relief) : (h.setRelief k r).recd = h.recd := (rfl)
@[simp] theorem Hw.setRelief_smp (h : Hw) (k : Nat) (r : Option Relief) : (h.setRelief k r).smp = h.smp := (rfl)
@[simp] theorem Hw.setRelief_adc (h : Hw) (k : Nat) (r : Option Relief) : (h.setRelief k r).adc = h.adc := (rfl)
@[simp] theorem Hw.setRelief_seq (h : Hw) (k : Nat) (r : Option Relief) : (h.setRelief k r).seq = h.seq := (rfl)
@[simp] theorem Hw.setRelief_str (h : Hw) (k : Nat) (r : Option Relief) : (h.setRelief k r).str = h.str := (rfl)
@[simp] theorem Hw.setRelief_trg (h : Hw) (k : Nat) (r : Option Relief) : (h.setRelief k r).trg = h.trg := (rfl)
@[simp] theorem Hw.setRelief_mem (h : Hw) (k : Nat) (r : Option Relief) : (h.setRelief k r).mem = h.mem := (rfl)
@[simp] theorem Hw.setRelief_cin (h : Hw) (k : Nat) (r : Option Relief) : (h.setRelief k r).cin = h.cin := (rfl)
@[simp] theorem Hw.setRelief_cal (h : Hw) (k : Nat) (r : Option Relief) : (h.setRelief k r).cal = h.cal := (rfl)
@[simp] theorem Hw.setRelief_boot (h : Hw) (k : Nat) (r : Option Relief) : (h.setRelief k r).boot = h.boot := (rfl)
@[simp] theorem Hw.setRelief_lcs (h : Hw) (k : Nat) (r : Option Relief) : (h.setRelief k r).lcs = h.lcs := (rfl)
@[simp] theorem Hw.setRelief_draws (h : Hw) (k : Nat) (r : Option Relief) : (h.setRelief k r).draws = h.draws := (rfl)

/-! ### `Hw.feWindow` -/

@[simp] theorem Hw.feWindow_regs (h : Hw) (ch s : Nat) : (h.feWindow ch s).regs = h.regs := (rfl)
@[simp] theorem Hw.feWindow_clk (h : Hw) (ch s : Nat) : (h.feWindow ch s).clk = h.clk := (rfl)
@[simp] theorem Hw.feWindow_reqs (h : Hw) (ch s : Nat) : (h.feWindow ch s).reqs = h.reqs := (rfl)
@[simp] theorem Hw.feWindow_epoch (h : Hw) (ch s : Nat) : (h.feWindow ch s).epoch = h.epoch := (rfl)
@[simp] theorem Hw.feWindow_time (h : Hw) (ch s : Nat) : (h.feWindow ch s).time = h.time := (rfl)
@[simp] theorem Hw.feWindow_net (h : Hw) (ch s : Nat) : (h.feWindow ch s).net = h.net := (rfl)
@[simp] theorem Hw.feWindow_flt (h : Hw) (ch s : Nat) : (h.feWindow ch s).flt = h.flt := (rfl)
@[simp] theorem Hw.feWindow_recd (h : Hw) (ch s : Nat) : (h.feWindow ch s).recd = h.recd := (rfl)
@[simp] theorem Hw.feWindow_smp (h : Hw) (ch s : Nat) : (h.feWindow ch s).smp = h.smp := (rfl)
@[simp] theorem Hw.feWindow_adc (h : Hw) (ch s : Nat) : (h.feWindow ch s).adc = h.adc := (rfl)
@[simp] theorem Hw.feWindow_seq (h : Hw) (ch s : Nat) : (h.feWindow ch s).seq = h.seq := (rfl)
@[simp] theorem Hw.feWindow_str (h : Hw) (ch s : Nat) : (h.feWindow ch s).str = h.str := (rfl)
@[simp] theorem Hw.feWindow_trg (h : Hw) (ch s : Nat) : (h.feWindow ch s).trg = h.trg := (rfl)
@[simp] theorem Hw.feWindow_mem (h : Hw) (ch s : Nat) : (h.feWindow ch s).mem = h.mem := (rfl)
@[simp] theorem Hw.feWindow_cin (h : Hw) (ch s : Nat) : (h.feWindow ch s).cin = h.cin := (rfl)
@[simp] theorem Hw.feWindow_cal (h : Hw) (ch s : Nat) : (h.feWindow ch s).cal = h.cal := (rfl)
@[simp] theorem Hw.feWindow_boot (h : Hw) (ch s : Nat) : (h.feWindow ch s).boot = h.boot := (rfl)
@[simp] theorem Hw.feWindow_lcs (h : Hw) (ch s : Nat) : (h.feWindow ch s).lcs = h.lcs := (rfl)
@[simp] theorem Hw.feWindow_draws (h : Hw) (ch s : Nat) : (h.feWindow ch s).draws = h.draws := (rfl)

/-! ### `Hw.exWindow` -/

@[simp] theorem Hw.exWindow_regs (h : Hw) (d x ch : Nat) : (h.exWindow d x ch).regs = h.regs := (rfl)
@[simp] theorem Hw.exWindow_clk (h : Hw) (d x ch : Nat) : (h.exWindow d x ch).clk = h.clk := (rfl)
@[simp] theorem Hw.exWindow_reqs (h : Hw) (d x ch : Nat) : (h.exWindow d x ch).reqs = h.reqs := (rfl)
@[simp] theorem Hw.exWindow_epoch (h : Hw) (d x ch : Nat) : (h.exWindow d x ch).epoch = h.epoch := (rfl)
@[simp] theorem Hw.exWindow_time (h : Hw) (d x ch : Nat) : (h.exWindow d x ch).time = h.time := (rfl)
@[simp] theorem Hw.exWindow_net (h : Hw) (d x ch : Nat) : (h.exWindow d x ch).net = h.net := (rfl)
@[simp] theorem Hw.exWindow_flt (h : Hw) (d x ch : Nat) : (h.exWindow d x ch).flt = h.flt := (rfl)
@[simp] theorem Hw.exWindow_recd (h : Hw) (d x ch : Nat) : (h.exWindow d x ch).recd = h.recd := (rfl)
@[simp] theorem Hw.exWindow_smp (h : Hw) (d x ch : Nat) : (h.exWindow d x ch).smp = h.smp := (rfl)
@[simp] theorem Hw.exWindow_adc (h : Hw) (d x ch : Nat) : (h.exWindow d x ch).adc = h.adc := (rfl)
@[simp] theorem Hw.exWindow_seq (h : Hw) (d x ch : Nat) : (h.exWindow d x ch).seq = h.seq := (rfl)
@[simp] theorem Hw.exWindow_str (h : Hw) (d x ch : Nat) : (h.exWindow d x ch).str = h.str := (rfl)
@[simp] theorem Hw.exWindow_trg (h : Hw) (d x ch : Nat) : (h.exWindow d x ch).trg = h.trg := (rfl)
@[simp] theorem Hw.exWindow_mem (h : Hw) (d x ch : Nat) : (h.exWindow d x ch).mem = h.mem := (rfl)
@[simp] theorem Hw.exWindow_cin (h : Hw) (d x ch : Nat) : (h.exWindow d x ch).cin = h.cin := (rfl)
@[simp] theorem Hw.exWindow_cal (h : Hw) (d x ch : Nat) : (h.exWindow d x ch).cal = h.cal := (rfl)
@[simp] theorem Hw.exWindow_boot (h : Hw) (d x ch : Nat) : (h.exWindow d x ch).boot = h.boot := (rfl)
@[simp] theorem Hw.exWindow_lcs (h : Hw) (d x ch : Nat) : (h.exWindow d x ch).lcs = h.lcs := (rfl)
@[simp] theorem Hw.exWindow_draws (h : Hw) (d x ch : Nat) : (h.exWindow d x ch).draws = h.draws := (rfl)

/-! ### `Hw.windowsStrobed` -/

@[simp] theorem Hw.windowsStrobed_regs (h : Hw) (ch : Nat) : (h.windowsStrobed ch).regs = h.regs := (rfl)
@[simp] theorem Hw.windowsStrobed_clk (h : Hw) (ch : Nat) : (h.windowsStrobed ch).clk = h.clk := (rfl)
@[simp] theorem Hw.windowsStrobed_reqs (h : Hw) (ch : Nat) : (h.windowsStrobed ch).reqs = h.reqs := (rfl)
@[simp] theorem Hw.windowsStrobed_epoch (h : Hw) (ch : Nat) : (h.windowsStrobed ch).epoch = h.epoch := (rfl)
@[simp] theorem Hw.windowsStrobed_time (h : Hw) (ch : Nat) : (h.windowsStrobed ch).time = h.time := (rfl)
@[simp] theorem Hw.windowsStrobed_net (h : Hw) (ch : Nat) : (h.windowsStrobed ch).net = h.net := (rfl)
@[simp] theorem Hw.windowsStrobed_flt (h : Hw) (ch : Nat) : (h.windowsStrobed ch).flt = h.flt := (rfl)
@[simp] theorem Hw.windowsStrobed_recd (h : Hw) (ch : Nat) : (h.windowsStrobed ch).recd = h.recd := (rfl)
@[simp] theorem Hw.windowsStrobed_smp (h : Hw) (ch : Nat) : (h.windowsStrobed ch).smp = h.smp := (rfl)
@[simp] theorem Hw.windowsStrobed_adc (h : Hw) (ch : Nat) : (h.windowsStrobed ch).adc = h.adc := (rfl)
@[simp] theorem Hw.windowsStrobed_seq (h : Hw) (ch : Nat) : (h.windowsStrobed ch).seq = h.seq := (rfl)
@[simp] theorem Hw.windowsStrobed_str (h : Hw) (ch : Nat) : (h.windowsStrobed ch).str = h.str := (rfl)
@[simp] theorem Hw.windowsStrobed_trg (h : Hw) (ch : Nat) : (h.windowsStrobed ch).trg = h.trg := (rfl)
@[simp] theorem Hw.windowsStrobed_mem (h : Hw) (ch : Nat) : (h.windowsStrobed ch).mem = h.mem := (rfl)
@[simp] theorem Hw.windowsStrobed_cin (h : Hw) (ch : Nat) : (h.windowsStrobed ch).cin = h.cin := (rfl)
@[simp] theorem Hw.windowsStrobed_cal (h : Hw) (ch : Nat) : (h.windowsStrobed ch).cal = h.cal := (rfl)
@[simp] theorem Hw.windowsStrobed_boot (h : Hw) (ch : Nat) : (h.windowsStrobed ch).boot = h.boot := (rfl)
@[simp] theorem Hw.windowsStrobed_lcs (h : Hw) (ch : Nat) : (h.windowsStrobed ch).lcs = h.lcs := (rfl)
@[simp] theorem Hw.windowsStrobed_draws (h : Hw) (ch : Nat) : (h.windowsStrobed ch).draws = h.draws := (rfl)

/-! ### `Hw.setGrp` -/

@[simp] theorem Hw.setGrp_regs (h : Hw) (g : Nat) (x : GroupSt) : (h.setGrp g x).regs = h.regs := (rfl)
@[simp] theorem Hw.setGrp_clk (h : Hw) (g : Nat) (x : GroupSt) : (h.setGrp g x).clk = h.clk := (rfl)
@[simp] theorem Hw.setGrp_reqs (h : Hw) (g : Nat) (x : GroupSt) : (h.setGrp g x).reqs = h.reqs := (rfl)
@[simp] theorem Hw.setGrp_epoch (h : Hw) (g : Nat) (x : GroupSt) : (h.setGrp g x).epoch = h.epoch := (rfl)
@[simp] theorem Hw.setGrp_time (h : Hw) (g : Nat) (x : GroupSt) : (h.setGrp g x).time = h.time := (rfl)
@[simp] theorem Hw.setGrp_net (h : Hw) (g : Nat) (x : GroupSt) : (h.setGrp g x).net = h.net := (rfl)
@[simp] theorem Hw.setGrp_flt (h : Hw) (g : Nat) (x : GroupSt) : (h.setGrp g x).flt = h.flt := (rfl)
@[simp] theorem Hw.setGrp_recd (h : Hw) (g : Nat) (x : GroupSt) : (h.setGrp g x).recd = h.recd := (rfl)
@[simp] theorem Hw.setGrp_field (h : Hw) (g : Nat) (x : GroupSt) : (h.setGrp g x).field = h.field := (rfl)
@[simp] theorem Hw.setGrp_adc (h : Hw) (g : Nat) (x : GroupSt) : (h.setGrp g x).adc = h.adc := (rfl)
@[simp] theorem Hw.setGrp_seq (h : Hw) (g : Nat) (x : GroupSt) : (h.setGrp g x).seq = h.seq := (rfl)
@[simp] theorem Hw.setGrp_str (h : Hw) (g : Nat) (x : GroupSt) : (h.setGrp g x).str = h.str := (rfl)
@[simp] theorem Hw.setGrp_trg (h : Hw) (g : Nat) (x : GroupSt) : (h.setGrp g x).trg = h.trg := (rfl)
@[simp] theorem Hw.setGrp_mem (h : Hw) (g : Nat) (x : GroupSt) : (h.setGrp g x).mem = h.mem := (rfl)
@[simp] theorem Hw.setGrp_cin (h : Hw) (g : Nat) (x : GroupSt) : (h.setGrp g x).cin = h.cin := (rfl)
@[simp] theorem Hw.setGrp_cal (h : Hw) (g : Nat) (x : GroupSt) : (h.setGrp g x).cal = h.cal := (rfl)
@[simp] theorem Hw.setGrp_boot (h : Hw) (g : Nat) (x : GroupSt) : (h.setGrp g x).boot = h.boot := (rfl)
@[simp] theorem Hw.setGrp_lcs (h : Hw) (g : Nat) (x : GroupSt) : (h.setGrp g x).lcs = h.lcs := (rfl)
@[simp] theorem Hw.setGrp_draws (h : Hw) (g : Nat) (x : GroupSt) : (h.setGrp g x).draws = h.draws := (rfl)

/-! ### `Hw.setObjects` -/

@[simp] theorem Hw.setObjects_regs (h : Hw) (i : Nat) (l : List Nat) : (h.setObjects i l).regs = h.regs := (rfl)
@[simp] theorem Hw.setObjects_clk (h : Hw) (i : Nat) (l : List Nat) : (h.setObjects i l).clk = h.clk := (rfl)
@[simp] theorem Hw.setObjects_reqs (h : Hw) (i : Nat) (l : List Nat) : (h.setObjects i l).reqs = h.reqs := (rfl)
@[simp] theorem Hw.setObjects_epoch (h : Hw) (i : Nat) (l : List Nat) : (h.setObjects i l).epoch = h.epoch := (rfl)
@[simp] theorem Hw.setObjects_time (h : Hw) (i : Nat) (l : List Nat) : (h.setObjects i l).time = h.time := (rfl)
@[simp] theorem Hw.setObjects_net (h : Hw) (i : Nat) (l : List Nat) : (h.setObjects i l).net = h.net := (rfl)
@[simp] theorem Hw.setObjects_recd (h : Hw) (i : Nat) (l : List Nat) : (h.setObjects i l).recd = h.recd := (rfl)
@[simp] theorem Hw.setObjects_field (h : Hw) (i : Nat) (l : List Nat) : (h.setObjects i l).field = h.field := (rfl)
@[simp] theorem Hw.setObjects_smp (h : Hw) (i : Nat) (l : List Nat) : (h.setObjects i l).smp = h.smp := (rfl)
@[simp] theorem Hw.setObjects_adc (h : Hw) (i : Nat) (l : List Nat) : (h.setObjects i l).adc = h.adc := (rfl)
@[simp] theorem Hw.setObjects_seq (h : Hw) (i : Nat) (l : List Nat) : (h.setObjects i l).seq = h.seq := (rfl)
@[simp] theorem Hw.setObjects_str (h : Hw) (i : Nat) (l : List Nat) : (h.setObjects i l).str = h.str := (rfl)
@[simp] theorem Hw.setObjects_trg (h : Hw) (i : Nat) (l : List Nat) : (h.setObjects i l).trg = h.trg := (rfl)
@[simp] theorem Hw.setObjects_mem (h : Hw) (i : Nat) (l : List Nat) : (h.setObjects i l).mem = h.mem := (rfl)
@[simp] theorem Hw.setObjects_cin (h : Hw) (i : Nat) (l : List Nat) : (h.setObjects i l).cin = h.cin := (rfl)
@[simp] theorem Hw.setObjects_cal (h : Hw) (i : Nat) (l : List Nat) : (h.setObjects i l).cal = h.cal := (rfl)
@[simp] theorem Hw.setObjects_boot (h : Hw) (i : Nat) (l : List Nat) : (h.setObjects i l).boot = h.boot := (rfl)
@[simp] theorem Hw.setObjects_lcs (h : Hw) (i : Nat) (l : List Nat) : (h.setObjects i l).lcs = h.lcs := (rfl)
@[simp] theorem Hw.setObjects_draws (h : Hw) (i : Nat) (l : List Nat) : (h.setObjects i l).draws = h.draws := (rfl)

/-! ### `Hw.setForce` -/

@[simp] theorem Hw.setForce_regs (h : Hw) (i : Nat) (r : Option Nat) : (h.setForce i r).regs = h.regs := (rfl)
@[simp] theorem Hw.setForce_clk (h : Hw) (i : Nat) (r : Option Nat) : (h.setForce i r).clk = h.clk := (rfl)
@[simp] theorem Hw.setForce_reqs (h : Hw) (i : Nat) (r : Option Nat) : (h.setForce i r).reqs = h.reqs := (rfl)
@[simp] theorem Hw.setForce_epoch (h : Hw) (i : Nat) (r : Option Nat) : (h.setForce i r).epoch = h.epoch := (rfl)
@[simp] theorem Hw.setForce_time (h : Hw) (i : Nat) (r : Option Nat) : (h.setForce i r).time = h.time := (rfl)
@[simp] theorem Hw.setForce_net (h : Hw) (i : Nat) (r : Option Nat) : (h.setForce i r).net = h.net := (rfl)
@[simp] theorem Hw.setForce_recd (h : Hw) (i : Nat) (r : Option Nat) : (h.setForce i r).recd = h.recd := (rfl)
@[simp] theorem Hw.setForce_field (h : Hw) (i : Nat) (r : Option Nat) : (h.setForce i r).field = h.field := (rfl)
@[simp] theorem Hw.setForce_smp (h : Hw) (i : Nat) (r : Option Nat) : (h.setForce i r).smp = h.smp := (rfl)
@[simp] theorem Hw.setForce_adc (h : Hw) (i : Nat) (r : Option Nat) : (h.setForce i r).adc = h.adc := (rfl)
@[simp] theorem Hw.setForce_seq (h : Hw) (i : Nat) (r : Option Nat) : (h.setForce i r).seq = h.seq := (rfl)
@[simp] theorem Hw.setForce_str (h : Hw) (i : Nat) (r : Option Nat) : (h.setForce i r).str = h.str := (rfl)
@[simp] theorem Hw.setForce_trg (h : Hw) (i : Nat) (r : Option Nat) : (h.setForce i r).trg = h.trg := (rfl)
@[simp] theorem Hw.setForce_mem (h : Hw) (i : Nat) (r : Option Nat) : (h.setForce i r).mem = h.mem := (rfl)
@[simp] theorem Hw.setForce_cin (h : Hw) (i : Nat) (r : Option Nat) : (h.setForce i r).cin = h.cin := (rfl)
@[simp] theorem Hw.setForce_cal (h : Hw) (i : Nat) (r : Option Nat) : (h.setForce i r).cal = h.cal := (rfl)
@[simp] theorem Hw.setForce_boot (h : Hw) (i : Nat) (r : Option Nat) : (h.setForce i r).boot = h.boot := (rfl)
@[simp] theorem Hw.setForce_lcs (h : Hw) (i : Nat) (r : Option Nat) : (h.setForce i r).lcs = h.lcs := (rfl)
@[simp] theorem Hw.setForce_draws (h : Hw) (i : Nat) (r : Option Nat) : (h.setForce i r).draws = h.draws := (rfl)

/-! ### `Hw.setTimer` -/

@[simp] theorem Hw.setTimer_regs (h : Hw) (i : Nat) (t : Option Nat) : (h.setTimer i t).regs = h.regs := (rfl)
@[simp] theorem Hw.setTimer_clk (h : Hw) (i : Nat) (t : Option Nat) : (h.setTimer i t).clk = h.clk := (rfl)
@[simp] theorem Hw.setTimer_reqs (h : Hw) (i : Nat) (t : Option Nat) : (h.setTimer i t).reqs = h.reqs := (rfl)
@[simp] theorem Hw.setTimer_epoch (h : Hw) (i : Nat) (t : Option Nat) : (h.setTimer i t).epoch = h.epoch := (rfl)
@[simp] theorem Hw.setTimer_time (h : Hw) (i : Nat) (t : Option Nat) : (h.setTimer i t).time = h.time := (rfl)
@[simp] theorem Hw.setTimer_net (h : Hw) (i : Nat) (t : Option Nat) : (h.setTimer i t).net = h.net := (rfl)
@[simp] theorem Hw.setTimer_recd (h : Hw) (i : Nat) (t : Option Nat) : (h.setTimer i t).recd = h.recd := (rfl)
@[simp] theorem Hw.setTimer_field (h : Hw) (i : Nat) (t : Option Nat) : (h.setTimer i t).field = h.field := (rfl)
@[simp] theorem Hw.setTimer_smp (h : Hw) (i : Nat) (t : Option Nat) : (h.setTimer i t).smp = h.smp := (rfl)
@[simp] theorem Hw.setTimer_adc (h : Hw) (i : Nat) (t : Option Nat) : (h.setTimer i t).adc = h.adc := (rfl)
@[simp] theorem Hw.setTimer_seq (h : Hw) (i : Nat) (t : Option Nat) : (h.setTimer i t).seq = h.seq := (rfl)
@[simp] theorem Hw.setTimer_str (h : Hw) (i : Nat) (t : Option Nat) : (h.setTimer i t).str = h.str := (rfl)
@[simp] theorem Hw.setTimer_trg (h : Hw) (i : Nat) (t : Option Nat) : (h.setTimer i t).trg = h.trg := (rfl)
@[simp] theorem Hw.setTimer_mem (h : Hw) (i : Nat) (t : Option Nat) : (h.setTimer i t).mem = h.mem := (rfl)
@[simp] theorem Hw.setTimer_cin (h : Hw) (i : Nat) (t : Option Nat) : (h.setTimer i t).cin = h.cin := (rfl)
@[simp] theorem Hw.setTimer_cal (h : Hw) (i : Nat) (t : Option Nat) : (h.setTimer i t).cal = h.cal := (rfl)
@[simp] theorem Hw.setTimer_boot (h : Hw) (i : Nat) (t : Option Nat) : (h.setTimer i t).boot = h.boot := (rfl)
@[simp] theorem Hw.setTimer_lcs (h : Hw) (i : Nat) (t : Option Nat) : (h.setTimer i t).lcs = h.lcs := (rfl)
@[simp] theorem Hw.setTimer_draws (h : Hw) (i : Nat) (t : Option Nat) : (h.setTimer i t).draws = h.draws := (rfl)

/-! ### `Hw.setMemStored` -/

@[simp] theorem Hw.setMemStored_regs (h : Hw) (a : Nat) (c : Word72) : (h.setMemStored a c).regs = h.regs := (rfl)
@[simp] theorem Hw.setMemStored_clk (h : Hw) (a : Nat) (c : Word72) : (h.setMemStored a c).clk = h.clk := (rfl)
@[simp] theorem Hw.setMemStored_reqs (h : Hw) (a : Nat) (c : Word72) : (h.setMemStored a c).reqs = h.reqs := (rfl)
@[simp] theorem Hw.setMemStored_epoch (h : Hw) (a : Nat) (c : Word72) : (h.setMemStored a c).epoch = h.epoch := (rfl)
@[simp] theorem Hw.setMemStored_time (h : Hw) (a : Nat) (c : Word72) : (h.setMemStored a c).time = h.time := (rfl)
@[simp] theorem Hw.setMemStored_net (h : Hw) (a : Nat) (c : Word72) : (h.setMemStored a c).net = h.net := (rfl)
@[simp] theorem Hw.setMemStored_flt (h : Hw) (a : Nat) (c : Word72) : (h.setMemStored a c).flt = h.flt := (rfl)
@[simp] theorem Hw.setMemStored_recd (h : Hw) (a : Nat) (c : Word72) : (h.setMemStored a c).recd = h.recd := (rfl)
@[simp] theorem Hw.setMemStored_field (h : Hw) (a : Nat) (c : Word72) : (h.setMemStored a c).field = h.field := (rfl)
@[simp] theorem Hw.setMemStored_smp (h : Hw) (a : Nat) (c : Word72) : (h.setMemStored a c).smp = h.smp := (rfl)
@[simp] theorem Hw.setMemStored_adc (h : Hw) (a : Nat) (c : Word72) : (h.setMemStored a c).adc = h.adc := (rfl)
@[simp] theorem Hw.setMemStored_seq (h : Hw) (a : Nat) (c : Word72) : (h.setMemStored a c).seq = h.seq := (rfl)
@[simp] theorem Hw.setMemStored_str (h : Hw) (a : Nat) (c : Word72) : (h.setMemStored a c).str = h.str := (rfl)
@[simp] theorem Hw.setMemStored_trg (h : Hw) (a : Nat) (c : Word72) : (h.setMemStored a c).trg = h.trg := (rfl)
@[simp] theorem Hw.setMemStored_cin (h : Hw) (a : Nat) (c : Word72) : (h.setMemStored a c).cin = h.cin := (rfl)
@[simp] theorem Hw.setMemStored_cal (h : Hw) (a : Nat) (c : Word72) : (h.setMemStored a c).cal = h.cal := (rfl)
@[simp] theorem Hw.setMemStored_boot (h : Hw) (a : Nat) (c : Word72) : (h.setMemStored a c).boot = h.boot := (rfl)
@[simp] theorem Hw.setMemStored_lcs (h : Hw) (a : Nat) (c : Word72) : (h.setMemStored a c).lcs = h.lcs := (rfl)
@[simp] theorem Hw.setMemStored_draws (h : Hw) (a : Nat) (c : Word72) : (h.setMemStored a c).draws = h.draws := (rfl)

/-! ### `Hw.setValid` -/

@[simp] theorem Hw.setValid_regs (h : Hw) (a v : Nat) : (h.setValid a v).regs = h.regs := (rfl)
@[simp] theorem Hw.setValid_clk (h : Hw) (a v : Nat) : (h.setValid a v).clk = h.clk := (rfl)
@[simp] theorem Hw.setValid_reqs (h : Hw) (a v : Nat) : (h.setValid a v).reqs = h.reqs := (rfl)
@[simp] theorem Hw.setValid_epoch (h : Hw) (a v : Nat) : (h.setValid a v).epoch = h.epoch := (rfl)
@[simp] theorem Hw.setValid_time (h : Hw) (a v : Nat) : (h.setValid a v).time = h.time := (rfl)
@[simp] theorem Hw.setValid_net (h : Hw) (a v : Nat) : (h.setValid a v).net = h.net := (rfl)
@[simp] theorem Hw.setValid_flt (h : Hw) (a v : Nat) : (h.setValid a v).flt = h.flt := (rfl)
@[simp] theorem Hw.setValid_recd (h : Hw) (a v : Nat) : (h.setValid a v).recd = h.recd := (rfl)
@[simp] theorem Hw.setValid_field (h : Hw) (a v : Nat) : (h.setValid a v).field = h.field := (rfl)
@[simp] theorem Hw.setValid_smp (h : Hw) (a v : Nat) : (h.setValid a v).smp = h.smp := (rfl)
@[simp] theorem Hw.setValid_adc (h : Hw) (a v : Nat) : (h.setValid a v).adc = h.adc := (rfl)
@[simp] theorem Hw.setValid_seq (h : Hw) (a v : Nat) : (h.setValid a v).seq = h.seq := (rfl)
@[simp] theorem Hw.setValid_str (h : Hw) (a v : Nat) : (h.setValid a v).str = h.str := (rfl)
@[simp] theorem Hw.setValid_trg (h : Hw) (a v : Nat) : (h.setValid a v).trg = h.trg := (rfl)
@[simp] theorem Hw.setValid_cin (h : Hw) (a v : Nat) : (h.setValid a v).cin = h.cin := (rfl)
@[simp] theorem Hw.setValid_cal (h : Hw) (a v : Nat) : (h.setValid a v).cal = h.cal := (rfl)
@[simp] theorem Hw.setValid_boot (h : Hw) (a v : Nat) : (h.setValid a v).boot = h.boot := (rfl)
@[simp] theorem Hw.setValid_lcs (h : Hw) (a v : Nat) : (h.setValid a v).lcs = h.lcs := (rfl)
@[simp] theorem Hw.setValid_draws (h : Hw) (a v : Nat) : (h.setValid a v).draws = h.draws := (rfl)

/-! ### `Hw.setEntryUpset` -/

@[simp] theorem Hw.setEntryUpset_regs (h : Hw) (t : Nat) (u : Word72) : (h.setEntryUpset t u).regs = h.regs := (rfl)
@[simp] theorem Hw.setEntryUpset_clk (h : Hw) (t : Nat) (u : Word72) : (h.setEntryUpset t u).clk = h.clk := (rfl)
@[simp] theorem Hw.setEntryUpset_reqs (h : Hw) (t : Nat) (u : Word72) : (h.setEntryUpset t u).reqs = h.reqs := (rfl)
@[simp] theorem Hw.setEntryUpset_epoch (h : Hw) (t : Nat) (u : Word72) : (h.setEntryUpset t u).epoch = h.epoch := (rfl)
@[simp] theorem Hw.setEntryUpset_time (h : Hw) (t : Nat) (u : Word72) : (h.setEntryUpset t u).time = h.time := (rfl)
@[simp] theorem Hw.setEntryUpset_net (h : Hw) (t : Nat) (u : Word72) : (h.setEntryUpset t u).net = h.net := (rfl)
@[simp] theorem Hw.setEntryUpset_flt (h : Hw) (t : Nat) (u : Word72) : (h.setEntryUpset t u).flt = h.flt := (rfl)
@[simp] theorem Hw.setEntryUpset_recd (h : Hw) (t : Nat) (u : Word72) : (h.setEntryUpset t u).recd = h.recd := (rfl)
@[simp] theorem Hw.setEntryUpset_field (h : Hw) (t : Nat) (u : Word72) : (h.setEntryUpset t u).field = h.field := (rfl)
@[simp] theorem Hw.setEntryUpset_smp (h : Hw) (t : Nat) (u : Word72) : (h.setEntryUpset t u).smp = h.smp := (rfl)
@[simp] theorem Hw.setEntryUpset_adc (h : Hw) (t : Nat) (u : Word72) : (h.setEntryUpset t u).adc = h.adc := (rfl)
@[simp] theorem Hw.setEntryUpset_seq (h : Hw) (t : Nat) (u : Word72) : (h.setEntryUpset t u).seq = h.seq := (rfl)
@[simp] theorem Hw.setEntryUpset_str (h : Hw) (t : Nat) (u : Word72) : (h.setEntryUpset t u).str = h.str := (rfl)
@[simp] theorem Hw.setEntryUpset_trg (h : Hw) (t : Nat) (u : Word72) : (h.setEntryUpset t u).trg = h.trg := (rfl)
@[simp] theorem Hw.setEntryUpset_cin (h : Hw) (t : Nat) (u : Word72) : (h.setEntryUpset t u).cin = h.cin := (rfl)
@[simp] theorem Hw.setEntryUpset_cal (h : Hw) (t : Nat) (u : Word72) : (h.setEntryUpset t u).cal = h.cal := (rfl)
@[simp] theorem Hw.setEntryUpset_boot (h : Hw) (t : Nat) (u : Word72) : (h.setEntryUpset t u).boot = h.boot := (rfl)
@[simp] theorem Hw.setEntryUpset_lcs (h : Hw) (t : Nat) (u : Word72) : (h.setEntryUpset t u).lcs = h.lcs := (rfl)
@[simp] theorem Hw.setEntryUpset_draws (h : Hw) (t : Nat) (u : Word72) : (h.setEntryUpset t u).draws = h.draws := (rfl)

/-! ### `Hw.setPort` -/

@[simp] theorem Hw.setPort_regs (h : Hw) (p : Port) (x : PortSt) : (h.setPort p x).regs = h.regs := by cases p <;> rfl
@[simp] theorem Hw.setPort_clk (h : Hw) (p : Port) (x : PortSt) : (h.setPort p x).clk = h.clk := by cases p <;> rfl
@[simp] theorem Hw.setPort_reqs (h : Hw) (p : Port) (x : PortSt) : (h.setPort p x).reqs = h.reqs := by cases p <;> rfl
@[simp] theorem Hw.setPort_epoch (h : Hw) (p : Port) (x : PortSt) : (h.setPort p x).epoch = h.epoch := by cases p <;> rfl
@[simp] theorem Hw.setPort_time (h : Hw) (p : Port) (x : PortSt) : (h.setPort p x).time = h.time := by cases p <;> rfl
@[simp] theorem Hw.setPort_flt (h : Hw) (p : Port) (x : PortSt) : (h.setPort p x).flt = h.flt := by cases p <;> rfl
@[simp] theorem Hw.setPort_recd (h : Hw) (p : Port) (x : PortSt) : (h.setPort p x).recd = h.recd := by cases p <;> rfl
@[simp] theorem Hw.setPort_field (h : Hw) (p : Port) (x : PortSt) : (h.setPort p x).field = h.field := by cases p <;> rfl
@[simp] theorem Hw.setPort_smp (h : Hw) (p : Port) (x : PortSt) : (h.setPort p x).smp = h.smp := by cases p <;> rfl
@[simp] theorem Hw.setPort_adc (h : Hw) (p : Port) (x : PortSt) : (h.setPort p x).adc = h.adc := by cases p <;> rfl
@[simp] theorem Hw.setPort_seq (h : Hw) (p : Port) (x : PortSt) : (h.setPort p x).seq = h.seq := by cases p <;> rfl
@[simp] theorem Hw.setPort_str (h : Hw) (p : Port) (x : PortSt) : (h.setPort p x).str = h.str := by cases p <;> rfl
@[simp] theorem Hw.setPort_trg (h : Hw) (p : Port) (x : PortSt) : (h.setPort p x).trg = h.trg := by cases p <;> rfl
@[simp] theorem Hw.setPort_mem (h : Hw) (p : Port) (x : PortSt) : (h.setPort p x).mem = h.mem := by cases p <;> rfl
@[simp] theorem Hw.setPort_cin (h : Hw) (p : Port) (x : PortSt) : (h.setPort p x).cin = h.cin := by cases p <;> rfl
@[simp] theorem Hw.setPort_cal (h : Hw) (p : Port) (x : PortSt) : (h.setPort p x).cal = h.cal := by cases p <;> rfl
@[simp] theorem Hw.setPort_boot (h : Hw) (p : Port) (x : PortSt) : (h.setPort p x).boot = h.boot := by cases p <;> rfl
@[simp] theorem Hw.setPort_lcs (h : Hw) (p : Port) (x : PortSt) : (h.setPort p x).lcs = h.lcs := by cases p <;> rfl
@[simp] theorem Hw.setPort_draws (h : Hw) (p : Port) (x : PortSt) : (h.setPort p x).draws = h.draws := by cases p <;> rfl

/-! ### `Hw.setLane` -/

@[simp] theorem Hw.setLane_regs (h : Hw) (p : Port) (l : Nat) (x : Lane) : (h.setLane p l x).regs = h.regs := by cases p <;> rfl
@[simp] theorem Hw.setLane_clk (h : Hw) (p : Port) (l : Nat) (x : Lane) : (h.setLane p l x).clk = h.clk := by cases p <;> rfl
@[simp] theorem Hw.setLane_reqs (h : Hw) (p : Port) (l : Nat) (x : Lane) : (h.setLane p l x).reqs = h.reqs := by cases p <;> rfl
@[simp] theorem Hw.setLane_epoch (h : Hw) (p : Port) (l : Nat) (x : Lane) : (h.setLane p l x).epoch = h.epoch := by cases p <;> rfl
@[simp] theorem Hw.setLane_time (h : Hw) (p : Port) (l : Nat) (x : Lane) : (h.setLane p l x).time = h.time := by cases p <;> rfl
@[simp] theorem Hw.setLane_flt (h : Hw) (p : Port) (l : Nat) (x : Lane) : (h.setLane p l x).flt = h.flt := by cases p <;> rfl
@[simp] theorem Hw.setLane_recd (h : Hw) (p : Port) (l : Nat) (x : Lane) : (h.setLane p l x).recd = h.recd := by cases p <;> rfl
@[simp] theorem Hw.setLane_field (h : Hw) (p : Port) (l : Nat) (x : Lane) : (h.setLane p l x).field = h.field := by cases p <;> rfl
@[simp] theorem Hw.setLane_smp (h : Hw) (p : Port) (l : Nat) (x : Lane) : (h.setLane p l x).smp = h.smp := by cases p <;> rfl
@[simp] theorem Hw.setLane_adc (h : Hw) (p : Port) (l : Nat) (x : Lane) : (h.setLane p l x).adc = h.adc := by cases p <;> rfl
@[simp] theorem Hw.setLane_seq (h : Hw) (p : Port) (l : Nat) (x : Lane) : (h.setLane p l x).seq = h.seq := by cases p <;> rfl
@[simp] theorem Hw.setLane_str (h : Hw) (p : Port) (l : Nat) (x : Lane) : (h.setLane p l x).str = h.str := by cases p <;> rfl
@[simp] theorem Hw.setLane_trg (h : Hw) (p : Port) (l : Nat) (x : Lane) : (h.setLane p l x).trg = h.trg := by cases p <;> rfl
@[simp] theorem Hw.setLane_mem (h : Hw) (p : Port) (l : Nat) (x : Lane) : (h.setLane p l x).mem = h.mem := by cases p <;> rfl
@[simp] theorem Hw.setLane_cin (h : Hw) (p : Port) (l : Nat) (x : Lane) : (h.setLane p l x).cin = h.cin := by cases p <;> rfl
@[simp] theorem Hw.setLane_cal (h : Hw) (p : Port) (l : Nat) (x : Lane) : (h.setLane p l x).cal = h.cal := by cases p <;> rfl
@[simp] theorem Hw.setLane_boot (h : Hw) (p : Port) (l : Nat) (x : Lane) : (h.setLane p l x).boot = h.boot := by cases p <;> rfl
@[simp] theorem Hw.setLane_lcs (h : Hw) (p : Port) (l : Nat) (x : Lane) : (h.setLane p l x).lcs = h.lcs := by cases p <;> rfl
@[simp] theorem Hw.setLane_draws (h : Hw) (p : Port) (l : Nat) (x : Lane) : (h.setLane p l x).draws = h.draws := by cases p <;> rfl

/-! ### `Hw.setPol` -/

@[simp] theorem Hw.setPol_clk (h : Hw) (d v : Nat) : (h.setPol d v).clk = h.clk := by unfold Hw.setPol Hw.when; split <;> simp only [Hw.setDrv_clk, Hw.put_clk]
@[simp] theorem Hw.setPol_reqs (h : Hw) (d v : Nat) : (h.setPol d v).reqs = h.reqs := by unfold Hw.setPol Hw.when; split <;> simp only [Hw.setDrv_reqs, Hw.put_reqs]
@[simp] theorem Hw.setPol_epoch (h : Hw) (d v : Nat) : (h.setPol d v).epoch = h.epoch := by unfold Hw.setPol Hw.when; split <;> simp only [Hw.setDrv_epoch, Hw.put_epoch]
@[simp] theorem Hw.setPol_time (h : Hw) (d v : Nat) : (h.setPol d v).time = h.time := by unfold Hw.setPol Hw.when; split <;> simp only [Hw.setDrv_time, Hw.put_time]
@[simp] theorem Hw.setPol_net (h : Hw) (d v : Nat) : (h.setPol d v).net = h.net := by unfold Hw.setPol Hw.when; split <;> simp only [Hw.setDrv_net, Hw.put_net]
@[simp] theorem Hw.setPol_flt (h : Hw) (d v : Nat) : (h.setPol d v).flt = h.flt := by unfold Hw.setPol Hw.when; split <;> simp only [Hw.setDrv_flt, Hw.put_flt]
@[simp] theorem Hw.setPol_recd (h : Hw) (d v : Nat) : (h.setPol d v).recd = h.recd := by unfold Hw.setPol Hw.when; split <;> simp only [Hw.setDrv_recd, Hw.put_recd]
@[simp] theorem Hw.setPol_smp (h : Hw) (d v : Nat) : (h.setPol d v).smp = h.smp := by unfold Hw.setPol Hw.when; split <;> simp only [Hw.setDrv_smp, Hw.put_smp]
@[simp] theorem Hw.setPol_adc (h : Hw) (d v : Nat) : (h.setPol d v).adc = h.adc := by unfold Hw.setPol Hw.when; split <;> simp only [Hw.setDrv_adc, Hw.put_adc]
@[simp] theorem Hw.setPol_seq (h : Hw) (d v : Nat) : (h.setPol d v).seq = h.seq := by unfold Hw.setPol Hw.when; split <;> simp only [Hw.setDrv_seq, Hw.put_seq]
@[simp] theorem Hw.setPol_str (h : Hw) (d v : Nat) : (h.setPol d v).str = h.str := by unfold Hw.setPol Hw.when; split <;> simp only [Hw.setDrv_str, Hw.put_str]
@[simp] theorem Hw.setPol_trg (h : Hw) (d v : Nat) : (h.setPol d v).trg = h.trg := by unfold Hw.setPol Hw.when; split <;> simp only [Hw.setDrv_trg, Hw.put_trg]
@[simp] theorem Hw.setPol_mem (h : Hw) (d v : Nat) : (h.setPol d v).mem = h.mem := by unfold Hw.setPol Hw.when; split <;> simp only [Hw.setDrv_mem, Hw.put_mem]
@[simp] theorem Hw.setPol_cin (h : Hw) (d v : Nat) : (h.setPol d v).cin = h.cin := by unfold Hw.setPol Hw.when; split <;> simp only [Hw.setDrv_cin, Hw.put_cin]
@[simp] theorem Hw.setPol_cal (h : Hw) (d v : Nat) : (h.setPol d v).cal = h.cal := by unfold Hw.setPol Hw.when; split <;> simp only [Hw.setDrv_cal, Hw.put_cal]
@[simp] theorem Hw.setPol_boot (h : Hw) (d v : Nat) : (h.setPol d v).boot = h.boot := by unfold Hw.setPol Hw.when; split <;> simp only [Hw.setDrv_boot, Hw.put_boot]
@[simp] theorem Hw.setPol_lcs (h : Hw) (d v : Nat) : (h.setPol d v).lcs = h.lcs := by unfold Hw.setPol Hw.when; split <;> simp only [Hw.setDrv_lcs, Hw.put_lcs]
@[simp] theorem Hw.setPol_draws (h : Hw) (d v : Nat) : (h.setPol d v).draws = h.draws := by unfold Hw.setPol Hw.when; split <;> simp only [Hw.setDrv_draws, Hw.put_draws]

/-! ### `Hw.setDom` -/

@[simp] theorem Hw.setDom_regs (h : Hw) (d : Domain) (x : DomSt) : (h.setDom d x).regs = h.regs := by cases d <;> rfl
@[simp] theorem Hw.setDom_reqs (h : Hw) (d : Domain) (x : DomSt) : (h.setDom d x).reqs = h.reqs := by cases d <;> rfl
@[simp] theorem Hw.setDom_epoch (h : Hw) (d : Domain) (x : DomSt) : (h.setDom d x).epoch = h.epoch := by cases d <;> rfl
@[simp] theorem Hw.setDom_time (h : Hw) (d : Domain) (x : DomSt) : (h.setDom d x).time = h.time := by cases d <;> rfl
@[simp] theorem Hw.setDom_net (h : Hw) (d : Domain) (x : DomSt) : (h.setDom d x).net = h.net := by cases d <;> rfl
@[simp] theorem Hw.setDom_flt (h : Hw) (d : Domain) (x : DomSt) : (h.setDom d x).flt = h.flt := by cases d <;> rfl
@[simp] theorem Hw.setDom_recd (h : Hw) (d : Domain) (x : DomSt) : (h.setDom d x).recd = h.recd := by cases d <;> rfl
@[simp] theorem Hw.setDom_field (h : Hw) (d : Domain) (x : DomSt) : (h.setDom d x).field = h.field := by cases d <;> rfl
@[simp] theorem Hw.setDom_smp (h : Hw) (d : Domain) (x : DomSt) : (h.setDom d x).smp = h.smp := by cases d <;> rfl
@[simp] theorem Hw.setDom_adc (h : Hw) (d : Domain) (x : DomSt) : (h.setDom d x).adc = h.adc := by cases d <;> rfl
@[simp] theorem Hw.setDom_seq (h : Hw) (d : Domain) (x : DomSt) : (h.setDom d x).seq = h.seq := by cases d <;> rfl
@[simp] theorem Hw.setDom_str (h : Hw) (d : Domain) (x : DomSt) : (h.setDom d x).str = h.str := by cases d <;> rfl
@[simp] theorem Hw.setDom_trg (h : Hw) (d : Domain) (x : DomSt) : (h.setDom d x).trg = h.trg := by cases d <;> rfl
@[simp] theorem Hw.setDom_mem (h : Hw) (d : Domain) (x : DomSt) : (h.setDom d x).mem = h.mem := by cases d <;> rfl
@[simp] theorem Hw.setDom_cin (h : Hw) (d : Domain) (x : DomSt) : (h.setDom d x).cin = h.cin := by cases d <;> rfl
@[simp] theorem Hw.setDom_cal (h : Hw) (d : Domain) (x : DomSt) : (h.setDom d x).cal = h.cal := by cases d <;> rfl
@[simp] theorem Hw.setDom_boot (h : Hw) (d : Domain) (x : DomSt) : (h.setDom d x).boot = h.boot := by cases d <;> rfl
@[simp] theorem Hw.setDom_lcs (h : Hw) (d : Domain) (x : DomSt) : (h.setDom d x).lcs = h.lcs := by cases d <;> rfl
@[simp] theorem Hw.setDom_draws (h : Hw) (d : Domain) (x : DomSt) : (h.setDom d x).draws = h.draws := by cases d <;> rfl

end Sys2Proof.Machine
end

