-- ==== Sys2Proof/Laws/Store.lean ====
section
/-!
SUPPORT. The laws of sparse maps: what a write does to a read, and that every operation keeps the canonical form.
-/
namespace Sys2Proof.Machine

variable {α : Type}

/-! ### Reads after writes -/

@[simp] theorem storeGet_nil (d : Nat → α) (k : Nat) : storeGet d [] k = d k := rfl

theorem storeErase_keys (m : Store α) (k : Nat) : ∀ p ∈ storeErase m k, p.1 ≠ k := by
  induction m with
  | nil => intro p hp; cases hp
  | cons e t ih =>
    obtain ⟨j, v⟩ := e
    intro p hp
    by_cases h : j = k
    · simp only [storeErase, h, if_pos] at hp
      exact ih p hp
    · simp only [storeErase, h, if_false, List.mem_cons] at hp
      rcases hp with rfl | hp
      · exact h
      · exact ih p hp

theorem storeGet_erase_same (d : Nat → α) (m : Store α) (k : Nat) : storeGet d (storeErase m k) k = d k := by
  induction m with
  | nil => rfl
  | cons e t ih =>
    obtain ⟨j, v⟩ := e
    by_cases h : j = k <;> simp [storeErase, storeGet, h, ih]

theorem storeGet_erase_other (d : Nat → α) (m : Store α) {k j : Nat} (hj : j ≠ k) :
    storeGet d (storeErase m k) j = storeGet d m j := by
  induction m with
  | nil => rfl
  | cons e t ih =>
    obtain ⟨i, v⟩ := e
    by_cases h : i = k
    · subst h
      simp [storeErase, storeGet, ih, Ne.symm hj]
    · simp only [storeErase, h, if_false, storeGet, ih]

theorem storeGet_ins_same (d : Nat → α) (m : Store α) (k : Nat) (v : α) (hm : ∀ p ∈ m, p.1 ≠ k) :
    storeGet d (storeIns m k v) k = v := by
  induction m with
  | nil => simp [storeIns, storeGet]
  | cons e t ih =>
    obtain ⟨j, w⟩ := e
    have hj : j ≠ k := hm (j, w) (by simp)
    by_cases h : k < j
    · simp [storeIns, storeGet, h]
    · simp only [storeIns, h, if_false, storeGet, hj]
      exact ih (fun p hp => hm p (by simp [hp]))

theorem storeGet_ins_other (d : Nat → α) (m : Store α) {k j : Nat} (v : α) (hj : j ≠ k) :
    storeGet d (storeIns m k v) j = storeGet d m j := by
  induction m with
  | nil => simp [storeIns, storeGet, Ne.symm hj]
  | cons e t ih =>
    obtain ⟨i, w⟩ := e
    by_cases h : k < i
    · simp [storeIns, storeGet, h, Ne.symm hj]
    · simp only [storeIns, h, if_false, storeGet, ih]

/-- A read after a write to the same key gives the value written. -/
@[simp] theorem storeGet_set_same [DecidableEq α] (d : Nat → α) (m : Store α) (k : Nat) (v : α) :
    storeGet d (storeSet d m k v) k = v := by
  unfold storeSet
  split
  · rw [storeGet_erase_same]; exact (‹v = d k›).symm
  · exact storeGet_ins_same d _ k v (storeErase_keys m k)

/-- A write leaves every other key alone. -/
theorem storeGet_set_other [DecidableEq α] (d : Nat → α) (m : Store α) {k j : Nat} (v : α) (hj : j ≠ k) :
    storeGet d (storeSet d m k v) j = storeGet d m j := by
  unfold storeSet
  split
  · exact storeGet_erase_other d m hj
  · rw [storeGet_ins_other d _ v hj, storeGet_erase_other d m hj]

/-- What any key reads as after a write. -/
theorem storeGet_set [DecidableEq α] (d : Nat → α) (m : Store α) (k j : Nat) (v : α) :
    storeGet d (storeSet d m k v) j = if j = k then v else storeGet d m j := by
  by_cases h : j = k
  · subst h; simp
  · simp [storeGet_set_other d m v h, h]

/-! ### The canonical form -/

theorem storeSorted_weaken (m : Store α) {a b : Nat} (h : a ≤ b) (hs : storeSorted (some b) m = true) :
    storeSorted (some a) m = true := by
  cases m with
  | nil => rfl
  | cons e t =>
    obtain ⟨j, v⟩ := e
    simp only [storeSorted, Bool.and_eq_true, decide_eq_true_eq] at hs ⊢
    exact ⟨by omega, hs.2⟩

theorem storeSorted_erase (m : Store α) (k : Nat) : ∀ lo, storeSorted lo m = true → storeSorted lo (storeErase m k) = true := by
  induction m with
  | nil => intro lo _; cases lo <;> rfl
  | cons e t ih =>
    obtain ⟨j, v⟩ := e
    intro lo hs
    by_cases h : j = k
    · simp only [storeErase, h, if_pos]
      cases lo with
      | none =>
        have := ih (some j) (by simpa [storeSorted] using hs)
        cases hE : storeErase t k with
        | nil => rfl
        | cons e' t' => rw [hE] at this; simp only [storeSorted, Bool.and_eq_true] at this ⊢; exact this.2
      | some l =>
        simp only [storeSorted, Bool.and_eq_true, decide_eq_true_eq] at hs
        exact storeSorted_weaken _ (by omega) (ih (some j) hs.2)
    · simp only [storeErase, h, if_false]
      cases lo with
      | none => simp only [storeSorted] at hs ⊢; exact ih _ hs
      | some l =>
        simp only [storeSorted, Bool.and_eq_true, decide_eq_true_eq] at hs ⊢
        exact ⟨hs.1, ih _ hs.2⟩

theorem storeSorted_ins_some (m : Store α) (k : Nat) (v : α) (hm : ∀ p ∈ m, p.1 ≠ k) :
    ∀ lo, lo < k → storeSorted (some lo) m = true → storeSorted (some lo) (storeIns m k v) = true := by
  induction m with
  | nil => intro lo h _; simp [storeIns, storeSorted, h]
  | cons e t ih =>
    obtain ⟨j, w⟩ := e
    intro lo hl hs
    have hj : j ≠ k := hm (j, w) (by simp)
    simp only [storeSorted, Bool.and_eq_true, decide_eq_true_eq] at hs
    by_cases h : k < j
    · simp [storeIns, storeSorted, h, hl, hs.2]
    · simp only [storeIns, h, if_false, storeSorted, Bool.and_eq_true, decide_eq_true_eq]
      exact ⟨hs.1, ih (fun p hp => hm p (by simp [hp])) j (by omega) hs.2⟩

theorem storeSorted_ins (m : Store α) (k : Nat) (v : α) (hm : ∀ p ∈ m, p.1 ≠ k) (hs : storeSorted none m = true) :
    storeSorted none (storeIns m k v) = true := by
  cases m with
  | nil => rfl
  | cons e t =>
    obtain ⟨j, w⟩ := e
    have hj : j ≠ k := hm (j, w) (by simp)
    by_cases h : k < j
    · simp only [storeSorted] at hs
      simp [storeIns, storeSorted, h, hs]
    · simp only [storeIns, h, if_false, storeSorted] at hs ⊢
      exact storeSorted_ins_some t k v (fun p hp => hm p (by simp [hp])) j (by omega) hs

theorem mem_of_mem_erase (m : Store α) (k : Nat) (p : Nat × α) (hp : p ∈ storeErase m k) : p ∈ m := by
  induction m with
  | nil => cases hp
  | cons e t ih =>
    obtain ⟨j, v⟩ := e
    by_cases h : j = k
    · simp only [storeErase, h, if_pos] at hp
      exact List.mem_cons_of_mem _ (ih hp)
    · simp only [storeErase, h, if_false, List.mem_cons] at hp
      rcases hp with rfl | hp
      · simp
      · exact List.mem_cons_of_mem _ (ih hp)

theorem mem_of_mem_ins (m : Store α) (k : Nat) (v : α) (p : Nat × α) (hp : p ∈ storeIns m k v) : p = (k, v) ∨ p ∈ m := by
  induction m with
  | nil => simpa [storeIns] using hp
  | cons e t ih =>
    obtain ⟨j, w⟩ := e
    by_cases h : k < j
    · simpa [storeIns, h] using hp
    · simp only [storeIns, h, if_false, List.mem_cons] at hp
      rcases hp with rfl | hp
      · simp
      · rcases ih hp with rfl | h2
        · simp
        · simp [h2]

/-- The empty map has the canonical form. -/
@[simp] theorem storeWf_nil [DecidableEq α] (d : Nat → α) : storeWf d ([] : Store α) = true := rfl

/-- A write keeps the canonical form. -/
theorem storeWf_set [DecidableEq α] (d : Nat → α) (m : Store α) (k : Nat) (v : α) (h : storeWf d m = true) :
    storeWf d (storeSet d m k v) = true := by
  simp only [storeWf, Bool.and_eq_true, List.all_eq_true, decide_eq_true_eq] at h ⊢
  unfold storeSet
  split
  · exact ⟨storeSorted_erase m k none h.1, fun p hp => h.2 p (mem_of_mem_erase m k p hp)⟩
  · refine ⟨storeSorted_ins _ k v (storeErase_keys m k) (storeSorted_erase m k none h.1), fun p hp => ?_⟩
    rcases mem_of_mem_ins _ k v p hp with rfl | hp
    · assumption
    · exact h.2 p (mem_of_mem_erase m k p hp)

/-- A run of writes keeps the canonical form. -/
theorem storeWf_setMany [DecidableEq α] (d : Nat → α) (l : List α) :
    ∀ (m : Store α) (k : Nat), storeWf d m = true → storeWf d (storeSetMany d m k l) = true := by
  induction l with
  | nil => intro m k h; exact h
  | cons v vs ih => intro m k h; exact ih _ _ (storeWf_set d m k v h)

/-- A run of writes leaves the keys outside it alone. -/
theorem storeGet_setMany_other [DecidableEq α] (d : Nat → α) (l : List α) :
    ∀ (m : Store α) (k j : Nat), j < k ∨ k + l.length ≤ j → storeGet d (storeSetMany d m k l) j = storeGet d m j := by
  induction l with
  | nil => intro m k j _; rfl
  | cons v vs ih =>
    intro m k j h
    simp only [List.length_cons] at h
    rw [storeSetMany, ih _ _ _ (by omega), storeGet_set_other d m v (by omega)]

/-- Below its first key a map reads as unlisted. -/
theorem storeGet_above (d : Nat → α) (m : Store α) {lo j : Nat} (hs : storeSorted (some lo) m = true) (hj : j ≤ lo) :
    storeGet d m j = d j := by
  induction m generalizing lo with
  | nil => rfl
  | cons e t ih =>
    obtain ⟨i, v⟩ := e
    simp only [storeSorted, Bool.and_eq_true, decide_eq_true_eq] at hs
    simp only [storeGet, show i ≠ j by omega, if_false]
    exact ih hs.2 (by omega)

theorem store_ext_sorted (d : Nat → α) (a : Store α) : ∀ (b : Store α),
    storeSorted none a = true → storeSorted none b = true → (∀ p ∈ a, p.2 ≠ d p.1) → (∀ p ∈ b, p.2 ≠ d p.1) →
    (∀ k, storeGet d a k = storeGet d b k) → a = b := by
  have tail : ∀ (j : Nat) (t : Store α), storeSorted (some j) t = true → storeSorted none t = true := by
    intro j t h
    cases t with
    | nil => rfl
    | cons e u => simp only [storeSorted, Bool.and_eq_true] at h ⊢; exact h.2
  induction a with
  | nil =>
    intro b _ _ _ hb h
    cases b with
    | nil => rfl
    | cons e t => exact absurd (by simpa [storeGet] using (h e.1).symm) (hb e (by simp))
  | cons e t ih =>
    obtain ⟨i, v⟩ := e
    intro b ha hb na nb h
    cases b with
    | nil => exact absurd (by simpa [storeGet] using h i) (na (i, v) (by simp))
    | cons f u =>
      obtain ⟨j, w⟩ := f
      have hi := h i
      have hj := h j
      simp only [storeSorted] at ha hb
      have ea : storeGet d ((i, v) :: t) i = v := by simp [storeGet]
      have eb : storeGet d ((j, w) :: u) j = w := by simp [storeGet]
      rcases Nat.lt_trichotomy i j with hlt | heq | hgt
      · have : storeGet d ((j, w) :: u) i = d i := by
          simp only [storeGet, show j ≠ i by omega, if_false]
          exact storeGet_above d u hb (by omega)
        exact absurd (by rw [← ea, hi, this]) (na (i, v) (by simp))
      · subst heq
        rw [ea, eb] at hi
        subst hi
        rw [ih u (tail _ _ ha) (tail _ _ hb) (fun p hp => na p (by simp [hp])) (fun p hp => nb p (by simp [hp])) ?_]
        intro k
        by_cases hk : i = k
        · subst hk
          rw [storeGet_above d t ha (Nat.le_refl _), storeGet_above d u hb (Nat.le_refl _)]
        · simpa [storeGet, hk] using h k
      · have : storeGet d ((i, v) :: t) j = d j := by
          simp only [storeGet, show i ≠ j by omega, if_false]
          exact storeGet_above d t ha (by omega)
        exact absurd (by rw [← eb, ← hj, this]) (nb (j, w) (by simp))

/-- Two maps in canonical form that read the same at every key are equal data. -/
theorem store_ext [DecidableEq α] (d : Nat → α) (a b : Store α) (ha : storeWf d a = true) (hb : storeWf d b = true)
    (h : ∀ k, storeGet d a k = storeGet d b k) : a = b := by
  simp only [storeWf, Bool.and_eq_true, List.all_eq_true, decide_eq_true_eq] at ha hb
  exact store_ext_sorted d a b ha.1 hb.1 ha.2 hb.2 h

end Sys2Proof.Machine
end

