-- ==== Sys2Proof/Laws/Regs.lean ====
section
/-!
SUPPORT. What a register and a field read after a write: the laws of `Hw.setReg`, `Hw.put` and `Hw.get`.
-/
namespace Sys2Proof.Machine

/-! ### Bit fields of numbers -/

theorem natPut_split (n hi lo v : Nat) (h : lo ≤ hi) :
    natPut n hi lo v = (n / 2 ^ (hi + 1) * 2 ^ (hi + 1 - lo) + v % 2 ^ (hi + 1 - lo)) * 2 ^ lo + n % 2 ^ lo := by
  have e : 2 ^ (hi + 1) = 2 ^ (hi + 1 - lo) * 2 ^ lo := by rw [← Nat.pow_add]; congr 1; omega
  simp only [natPut]
  rw [Nat.add_mul, Nat.mul_assoc, ← e]

theorem natPut_div_lo (n hi lo v : Nat) (h : lo ≤ hi) :
    natPut n hi lo v / 2 ^ lo = n / 2 ^ (hi + 1) * 2 ^ (hi + 1 - lo) + v % 2 ^ (hi + 1 - lo) := by
  rw [natPut_split n hi lo v h, Nat.add_comm, Nat.add_mul_div_right _ _ (Nat.two_pow_pos lo),
    Nat.div_eq_of_lt (Nat.mod_lt _ (Nat.two_pow_pos lo)), Nat.zero_add]

theorem natPut_mod_lo (n hi lo v : Nat) (h : lo ≤ hi) : natPut n hi lo v % 2 ^ lo = n % 2 ^ lo := by
  rw [natPut_split n hi lo v h, Nat.add_comm, Nat.add_mul_mod_self_right, Nat.mod_mod]

theorem natPut_div_hi (n hi lo v : Nat) (h : lo ≤ hi) : natPut n hi lo v / 2 ^ (hi + 1) = n / 2 ^ (hi + 1) := by
  have e : 2 ^ (hi + 1) = 2 ^ lo * 2 ^ (hi + 1 - lo) := by rw [← Nat.pow_add]; congr 1; omega
  rw [e, ← Nat.div_div_eq_div_mul, natPut_div_lo n hi lo v h, ← e, Nat.add_comm,
    Nat.add_mul_div_right _ _ (Nat.two_pow_pos _), Nat.div_eq_of_lt (Nat.mod_lt _ (Nat.two_pow_pos _)), Nat.zero_add]

theorem natPut_lt (n hi lo v : Nat) (h : lo ≤ hi) (h31 : hi < 32) (hn : n < 2 ^ 32) : natPut n hi lo v < 2 ^ 32 := by
  have d := natPut_div_hi n hi lo v h
  have p : 2 ^ 32 = 2 ^ (hi + 1) * 2 ^ (31 - hi) := by rw [← Nat.pow_add]; congr 1; omega
  rw [p] at hn ⊢
  have q := Nat.div_lt_of_lt_mul hn
  rw [← d, Nat.div_lt_iff_lt_mul (Nat.two_pow_pos _), Nat.mul_comm] at q
  exact q

theorem natBits_lt (n hi lo : Nat) : natBits n hi lo < 2 ^ (hi + 1 - lo) := Nat.mod_lt _ (Nat.two_pow_pos _)

/-- A field reads what was put into it, cut to its width. -/
theorem natBits_put_same (n hi lo v : Nat) (h : lo ≤ hi) :
    natBits (natPut n hi lo v) hi lo = v % 2 ^ (hi + 1 - lo) := by
  rw [natBits, Nat.shiftRight_eq_div_pow, natPut_div_lo n hi lo v h, Nat.add_comm, Nat.add_mul_mod_self_right, Nat.mod_mod]

/-- Fields above and below the one written keep their values. -/
theorem natBits_put_above (n hi lo v h2 l2 : Nat) (h : lo ≤ hi) (h' : hi < l2) :
    natBits (natPut n hi lo v) h2 l2 = natBits n h2 l2 := by
  have e : 2 ^ l2 = 2 ^ (hi + 1) * 2 ^ (l2 - (hi + 1)) := by rw [← Nat.pow_add]; congr 1; omega
  simp only [natBits, Nat.shiftRight_eq_div_pow]
  rw [e, ← Nat.div_div_eq_div_mul, natPut_div_hi n hi lo v h, Nat.div_div_eq_div_mul]

theorem natBits_mod (n hi lo k : Nat) (h : lo ≤ hi) (hk : hi < k) : natBits (n % 2 ^ k) hi lo = natBits n hi lo := by
  apply Nat.eq_of_testBit_eq
  intro i
  simp only [natBits, Nat.testBit_mod_two_pow, Nat.testBit_shiftRight]
  by_cases hi' : i < hi + 1 - lo
  · simp [hi', show lo + i < k by omega]
  · simp [hi']

theorem natBits_put_below (n hi lo v h2 l2 : Nat) (h : lo ≤ hi) (h2l : l2 ≤ h2) (h' : h2 < lo) :
    natBits (natPut n hi lo v) h2 l2 = natBits n h2 l2 := by
  rw [← natBits_mod _ h2 l2 lo h2l h', natPut_mod_lo n hi lo v h, natBits_mod _ h2 l2 lo h2l h']

/-! ### Registers -/

@[simp] theorem reg_setReg_same (h : Hw) (a : Nat) (w : Word) : (h.setReg a w).reg a = w := by
  simp [Hw.reg, Hw.setReg]

theorem reg_setReg_other (h : Hw) {a b : Nat} (w : Word) (hb : b ≠ a) : (h.setReg a w).reg b = h.reg b := by
  simp [Hw.reg, Hw.setReg, storeGet_set_other _ _ _ hb]

theorem reg_put_other (h : Hw) (f : Fld) (v : Nat) {b : Nat} (hb : b ≠ f.addr) : (h.put f v).reg b = h.reg b :=
  reg_setReg_other h _ hb

theorem get_put_other (h : Hw) (f g : Fld) (v : Nat) (hb : g.addr ≠ f.addr) : (h.put f v).get g = h.get g := by
  simp only [Hw.get, reg_put_other h f v hb]

theorem reg_put_toNat (h : Hw) (f : Fld) (v : Nat) (hf : f.lo ≤ f.hi) (h31 : f.hi < 32) :
    ((h.put f v).reg f.addr).toNat = natPut (h.reg f.addr).toNat f.hi f.lo v := by
  simp only [Hw.put, reg_setReg_same, putBits, BitVec.toNat_ofNat]
  exact Nat.mod_eq_of_lt (natPut_lt _ _ _ _ hf h31 (h.reg f.addr).isLt)

/-- A field reads what was put into it, cut to its width. -/
theorem get_put_same (h : Hw) (f : Fld) (v : Nat) (hf : f.lo ≤ f.hi) (h31 : f.hi < 32) :
    (h.put f v).get f = v % 2 ^ (f.hi + 1 - f.lo) := by
  simp only [Hw.get, bits, reg_put_toNat h f v hf h31, natBits_put_same _ _ _ _ hf]

/-- Another field of the same register keeps its value. -/
theorem get_put_disjoint (h : Hw) (f g : Fld) (v : Nat) (hf : f.lo ≤ f.hi) (h31 : f.hi < 32) (hg : g.lo ≤ g.hi)
    (ha : g.addr = f.addr) (hd : f.hi < g.lo ∨ g.hi < f.lo) : (h.put f v).get g = h.get g := by
  simp only [Hw.get, bits, ha, reg_put_toNat h f v hf h31]
  rcases hd with hd | hd
  · exact natBits_put_above _ _ _ _ _ _ hf hd
  · exact natBits_put_below _ _ _ _ _ _ hf hg hd

/-- A status bit that is set reads 1. -/
theorem on_put_one (h : Hw) (f : Fld) (hf : f.lo ≤ f.hi) (h31 : f.hi < 32) : (h.put f 1).on f = true := by
  have : 1 < 2 ^ (f.hi + 1 - f.lo) := Nat.one_lt_two_pow (by omega)
  simp [Hw.on, get_put_same h f 1 hf h31, Nat.mod_eq_of_lt this]

theorem on_put_zero (h : Hw) (f : Fld) (hf : f.lo ≤ f.hi) (h31 : f.hi < 32) : (h.put f 0).on f = false := by
  simp [Hw.on, get_put_same h f 0 hf h31]

theorem on_put_other (h : Hw) (f g : Fld) (v : Nat) (hb : g.addr ≠ f.addr) : (h.put f v).on g = h.on g := by
  simp only [Hw.on, get_put_other h f g v hb]

end Sys2Proof.Machine
end

