-- ==== Sys2Proof/Laws/Memory.lean ====
section
/-!
SUPPORT. Capture memory: reads after writes, and that every memory operation keeps the canonical form.
-/
namespace Sys2Proof.Machine

/-! ### Reads after writes -/

@[simp] theorem memStored_set_same (h : Hw) (a : Nat) (c : Word72) : (h.setMemStored a c).memStored a = c := by
  simp [Hw.memStored, Hw.setMemStored]

theorem memStored_set_other (h : Hw) {a b : Nat} (c : Word72) (hb : b ≠ a) :
    (h.setMemStored a c).memStored b = h.memStored b := by
  simp [Hw.memStored, Hw.setMemStored, storeGet_set_other _ _ _ hb]

@[simp] theorem validCopies_set_same (h : Hw) (a v : Nat) : (h.setValid a v).validCopies a = v := by
  simp [Hw.validCopies, Hw.setValid]

theorem validCopies_set_other (h : Hw) {a b : Nat} (v : Nat) (hb : b ≠ a) :
    (h.setValid a v).validCopies b = h.validCopies b := by
  simp [Hw.validCopies, Hw.setValid, storeGet_set_other _ _ _ hb]

@[simp] theorem validCopies_setMemStored (h : Hw) (a b : Nat) (c : Word72) :
    (h.setMemStored a c).validCopies b = h.validCopies b := (rfl)

@[simp] theorem memStored_setValid (h : Hw) (a b v : Nat) : (h.setValid a v).memStored b = h.memStored b := (rfl)

@[simp] theorem memStored_put (h : Hw) (f : Fld) (v b : Nat) : (h.put f v).memStored b = h.memStored b := (rfl)

@[simp] theorem validCopies_put (h : Hw) (f : Fld) (v b : Nat) : (h.put f v).validCopies b = h.validCopies b := (rfl)

/-! ### What only changes registers and the fault collector -/

@[simp] theorem Hw.noteMem_mem (h : Hw) (ue : Bool) (s w src : Nat) (v : Bool) : (h.noteMem ue s w src v).mem = h.mem := by
  unfold Hw.noteMem; split <;> simp

@[simp] theorem Hw.memCe_mem (h : Hw) (s w src t : Nat) (v : Bool) : (h.memCe s w src t v).mem = h.mem := by
  unfold Hw.memCe; simp

@[simp] theorem Hw.retire_mem (h : Hw) (t c : Nat) : (h.retire t c).mem = h.mem := by
  unfold Hw.retire; split <;> simp

@[simp] theorem Hw.memUe_mem (h : Hw) (s w src : Nat) : (h.memUe s w src).mem = h.mem := by
  unfold Hw.memUe; simp

/-! ### The canonical form -/

theorem Memory.wf_reset : Memory.wf State.reset.hw.mem = true := by decide

theorem Memory.wf_setMemStored (h : Hw) (a : Nat) (c : Word72) (hw : Memory.wf h.mem = true) :
    Memory.wf (h.setMemStored a c).mem = true := by
  simp only [Memory.wf, Bool.and_eq_true] at hw ⊢
  exact ⟨⟨storeWf_set _ _ _ _ hw.1.1, hw.1.2⟩, hw.2⟩

theorem Memory.wf_setValid (h : Hw) (a v : Nat) (hw : Memory.wf h.mem = true) : Memory.wf (h.setValid a v).mem = true := by
  simp only [Memory.wf, Bool.and_eq_true] at hw ⊢
  exact ⟨⟨hw.1.1, storeWf_set _ _ _ _ hw.1.2⟩, hw.2⟩

theorem Memory.wf_setEntryUpset (h : Hw) (t : Nat) (u : Word72) (hw : Memory.wf h.mem = true) :
    Memory.wf (h.setEntryUpset t u).mem = true := by
  simp only [Memory.wf, Bool.and_eq_true] at hw ⊢
  exact ⟨hw.1, storeWf_set _ _ _ _ hw.2⟩

theorem Memory.wf_putEntry (h : Hw) (t c : Nat) (hw : Memory.wf h.mem = true) : Memory.wf (h.putEntry t c).mem = true := by
  unfold Hw.putEntry; rw [Hw.put_mem]; exact Memory.wf_setEntryUpset _ _ _ hw

/-- What a read of a tile's checksum entry does: nothing, a correction, or an uncorrectable error that leaves memory alone. -/
theorem checkEntry_cases (h : Hw) (t : Nat) :
    h.checkEntry t = h ∨ (∃ s, h.checkEntry t = (h.setEntryUpset t 0).memCe s t finderTable t false) ∨
    (∃ s, h.checkEntry t = (((h.noteMem true s t finderTable false).bump MEM_UE_COUNT_UE 1).raise srcTileChecksum t).retire t 2) := by
  unfold Hw.checkEntry
  by_cases c : h.entryUpset t = 0
  · exact Or.inl (if_pos c)
  · rw [if_neg c]
    cases secCorrect (h.entryCode t) with
    | some d => exact Or.inr (Or.inl ⟨_, rfl⟩)
    | none => exact Or.inr (Or.inr ⟨_, rfl⟩)

theorem Memory.wf_checkEntry (h : Hw) (t : Nat) (hw : Memory.wf h.mem = true) : Memory.wf (h.checkEntry t).mem = true := by
  rcases checkEntry_cases h t with e | ⟨s, e⟩ | ⟨s, e⟩
  · rw [e]; exact hw
  · rw [e, Hw.memCe_mem]; exact Memory.wf_setEntryUpset _ _ _ hw
  · rw [e, Hw.retire_mem, Hw.raise_mem, Hw.bump_mem, Hw.noteMem_mem]; exact hw

theorem checkValid_cases (h : Hw) (a src : Nat) :
    h.checkValid a src = h ∨ ∃ v, h.checkValid a src = (h.setValid a v).memCe 0 a src (tileOf a) true := by
  unfold Hw.checkValid
  by_cases c : h.validCopies a = 0 ∨ h.validCopies a = 7
  · exact Or.inl (if_pos c)
  · exact Or.inr ⟨_, if_neg c⟩

theorem Memory.wf_checkValid (h : Hw) (a src : Nat) (hw : Memory.wf h.mem = true) : Memory.wf (h.checkValid a src).mem = true := by
  rcases checkValid_cases h a src with e | ⟨v, e⟩
  · rw [e]; exact hw
  · rw [e, Hw.memCe_mem]; exact Memory.wf_setValid h a v hw

/-- What a read does to the hub: nothing beyond the repair of its valid bits, a corrected word, or an uncorrectable one. -/
theorem memRead_cases (h : Hw) (a src : Nat) :
    (h.memRead a src).1 = h.checkValid a src ∨
    (∃ d s, (h.memRead a src).1 = ((h.checkValid a src).setMemStored a d).memCe s a src (tileOf a) false) ∨
    (∃ s, (h.memRead a src).1 = (h.checkValid a src).memUe s a src) := by
  unfold Hw.memRead
  generalize h.checkValid a src = g
  by_cases m : majority3 (g.validCopies a) = true
  · rw [if_pos m]
    by_cases z : secSyndrome (g.memStored a) = 0
    · rw [if_pos z]; exact Or.inl (rfl)
    · rw [if_neg z]
      cases secCorrect (g.memStored a) with
      | some d => exact Or.inr (Or.inl ⟨d, _, rfl⟩)
      | none => exact Or.inr (Or.inr ⟨_, rfl⟩)
  · rw [if_neg m]; exact Or.inl (rfl)

/-- A read, which may repair what it finds, keeps the canonical form. -/
theorem Memory.wf_memRead (h : Hw) (a src : Nat) (hw : Memory.wf h.mem = true) : Memory.wf (h.memRead a src).1.mem = true := by
  have hc := Memory.wf_checkValid h a src hw
  rcases memRead_cases h a src with e | ⟨d, s, e⟩ | ⟨s, e⟩
  · rw [e]; exact hc
  · rw [e, Hw.memCe_mem]; exact Memory.wf_setMemStored _ _ _ hc
  · rw [e, Hw.memUe_mem]; exact hc

theorem Memory.wf_flipDone (h : Hw) (hw : Memory.wf h.mem = true) : Memory.wf h.flipDone.mem = true := by
  unfold Hw.flipDone
  simp only [Memory.wf, Bool.and_eq_true, Hw.put_mem] at hw ⊢
  exact hw

theorem Memory.wf_storeCode (h : Hw) (a : Nat) (c : Word72) (win : Option Requester) (hw : Memory.wf h.mem = true) :
    Memory.wf (h.storeCode a c win).mem = true := by
  unfold Hw.storeCode
  split
  · exact Memory.wf_flipDone _ (Memory.wf_setValid _ _ _ (Memory.wf_setMemStored _ _ _ hw))
  · exact Memory.wf_setValid _ _ _ (Memory.wf_setMemStored _ _ _ hw)

/-- A write is what its access meets, a checksum, and the code word stored. -/
theorem memWrite_form (h : Hw) (a : Nat) (w : Word64) (src : Nat) (win : Option Requester) :
    ∃ c, h.memWrite a w src win =
      (((h.meetWrite a src).putEntry (tileOf a) c).put (MEM_TILE_STAT_VERIFIED (tileOf a)) 0).storeCode a (secEncode w) win :=
  ⟨_, rfl⟩

theorem Memory.wf_meetWrite (h : Hw) (a src : Nat) (hw : Memory.wf h.mem = true) : Memory.wf (h.meetWrite a src).mem = true :=
  Memory.wf_checkEntry _ _ (Memory.wf_checkValid _ _ _ hw)

/-- A write keeps the canonical form. -/
theorem Memory.wf_memWrite (h : Hw) (a : Nat) (w : Word64) (src : Nat) (win : Option Requester) (hw : Memory.wf h.mem = true) :
    Memory.wf (h.memWrite a w src win).mem = true := by
  obtain ⟨c, e⟩ := memWrite_form h a w src win
  have hm := Memory.wf_meetWrite h a src hw
  rw [e]
  generalize h.meetWrite a src = g at hm
  refine Memory.wf_storeCode _ _ _ _ ?_
  rw [Hw.put_mem]; exact Memory.wf_putEntry _ _ _ hm

/-- A write that the flip mask does not touch stores the word's code at its address, valid. -/
theorem memStored_storeCode (h : Hw) (a : Nat) (c : Word72) (win : Option Requester) (hf : h.flips win = false) :
    (h.storeCode a c win).memStored a = c ∧ (h.storeCode a c win).validCopies a = 7 := by
  simp [Hw.storeCode, hf]

@[simp] theorem memStored_flipDone (h : Hw) (b : Nat) : h.flipDone.memStored b = h.memStored b := by
  unfold Hw.flipDone Hw.memStored; simp only [Hw.put_mem]

@[simp] theorem validCopies_flipDone (h : Hw) (b : Nat) : h.flipDone.validCopies b = h.validCopies b := by
  unfold Hw.flipDone Hw.validCopies; simp only [Hw.put_mem]

theorem memStored_storeCode_other (h : Hw) {a b : Nat} (c : Word72) (win : Option Requester) (hb : b ≠ a) :
    (h.storeCode a c win).memStored b = h.memStored b := by
  unfold Hw.storeCode; split <;> simp [memStored_set_other _ _ hb]

theorem validCopies_storeCode_other (h : Hw) {a b : Nat} (c : Word72) (win : Option Requester) (hb : b ≠ a) :
    (h.storeCode a c win).validCopies b = h.validCopies b := by
  unfold Hw.storeCode; split <;> simp [validCopies_set_other _ _ hb]

theorem memStored_of_mem {h g : Hw} (e : g.mem = h.mem) (b : Nat) : g.memStored b = h.memStored b := by
  unfold Hw.memStored; rw [e]

theorem validCopies_of_mem {h g : Hw} (e : g.mem = h.mem) (b : Nat) : g.validCopies b = h.validCopies b := by
  unfold Hw.validCopies; rw [e]

@[simp] theorem memStored_setEntryUpset (h : Hw) (t b : Nat) (u : Word72) :
    (h.setEntryUpset t u).memStored b = h.memStored b := (rfl)

@[simp] theorem validCopies_setEntryUpset (h : Hw) (t b : Nat) (u : Word72) :
    (h.setEntryUpset t u).validCopies b = h.validCopies b := (rfl)

@[simp] theorem memStored_putEntry (h : Hw) (t c b : Nat) : (h.putEntry t c).memStored b = h.memStored b := by
  unfold Hw.putEntry; rw [memStored_put, memStored_setEntryUpset]

@[simp] theorem validCopies_putEntry (h : Hw) (t c b : Nat) : (h.putEntry t c).validCopies b = h.validCopies b := by
  unfold Hw.putEntry; rw [validCopies_put, validCopies_setEntryUpset]

@[simp] theorem memStored_checkValid (h : Hw) (a src b : Nat) : (h.checkValid a src).memStored b = h.memStored b := by
  rcases checkValid_cases h a src with e | ⟨v, e⟩
  · rw [e]
  · rw [e, memStored_of_mem (Hw.memCe_mem ..)]; rfl

theorem validCopies_checkValid_other (h : Hw) {a b : Nat} (src : Nat) (hb : b ≠ a) :
    (h.checkValid a src).validCopies b = h.validCopies b := by
  rcases checkValid_cases h a src with e | ⟨v, e⟩
  · rw [e]
  · rw [e, validCopies_of_mem (Hw.memCe_mem ..)]; exact validCopies_set_other h v hb

@[simp] theorem memStored_checkEntry (h : Hw) (t b : Nat) : (h.checkEntry t).memStored b = h.memStored b := by
  rcases checkEntry_cases h t with e | ⟨s, e⟩ | ⟨s, e⟩
  · rw [e]
  · rw [e, memStored_of_mem (Hw.memCe_mem ..)]; rfl
  · rw [e]; exact memStored_of_mem (by rw [Hw.retire_mem, Hw.raise_mem, Hw.bump_mem, Hw.noteMem_mem]) b

@[simp] theorem validCopies_checkEntry (h : Hw) (t b : Nat) : (h.checkEntry t).validCopies b = h.validCopies b := by
  rcases checkEntry_cases h t with e | ⟨s, e⟩ | ⟨s, e⟩
  · rw [e]
  · rw [e, validCopies_of_mem (Hw.memCe_mem ..)]; rfl
  · rw [e]; exact validCopies_of_mem (by rw [Hw.retire_mem, Hw.raise_mem, Hw.bump_mem, Hw.noteMem_mem]) b

/-- A write leaves every other word as it was stored. -/
theorem memStored_memWrite_other (h : Hw) {a b : Nat} (w : Word64) (src : Nat) (win : Option Requester) (hb : b ≠ a) :
    (h.memWrite a w src win).memStored b = h.memStored b := by
  obtain ⟨c, e⟩ := memWrite_form h a w src win
  rw [e]; unfold Hw.meetWrite
  rw [memStored_storeCode_other _ _ _ hb, memStored_put, memStored_putEntry, memStored_checkEntry, memStored_checkValid]

theorem validCopies_memWrite_other (h : Hw) {a b : Nat} (w : Word64) (src : Nat) (win : Option Requester) (hb : b ≠ a) :
    (h.memWrite a w src win).validCopies b = h.validCopies b := by
  obtain ⟨c, e⟩ := memWrite_form h a w src win
  rw [e]; unfold Hw.meetWrite
  rw [validCopies_storeCode_other _ _ _ hb, validCopies_put, validCopies_putEntry, validCopies_checkEntry,
    validCopies_checkValid_other _ _ hb]

theorem Memory.wf_memWriteHalf (h : Hw) (a : Nat) (hi : Bool) (w : Word) (src : Nat) (win : Option Requester)
    (hw : Memory.wf h.mem = true) : Memory.wf (h.memWriteHalf a hi w src win).mem = true := by
  unfold Hw.memWriteHalf
  exact Memory.wf_memWrite _ _ _ _ _ (Memory.wf_memRead h a src hw)

theorem foldl_keeps {α β : Type} (p : β → Prop) (f : β → α → β) (hf : ∀ b x, p b → p (f b x)) (l : List α) :
    ∀ b, p b → p (l.foldl f b) := by
  induction l with
  | nil => intro b hb; exact hb
  | cons x t ih => intro b hb; exact ih _ (hf b x hb)

theorem Memory.wf_passRead (h : Hw) (t : Nat) (hw : Memory.wf h.mem = true) : Memory.wf (h.passRead t).1.mem = true := by
  unfold Hw.passRead
  refine foldl_keeps (fun p : Hw × List Byte × Bool => Memory.wf p.1.mem = true) _ (fun p i hp => ?_) _ _ hw
  have hr := Memory.wf_memRead p.1 (512 * t + i) finderPass hp
  dsimp only
  exact hr

/-- A verification pass keeps the canonical form. -/
theorem Memory.wf_verifyTile (h : Hw) (t : Nat) (hw : Memory.wf h.mem = true) : Memory.wf (h.verifyTile t).mem = true := by
  have hp := Memory.wf_checkEntry _ t (Memory.wf_passRead h t hw)
  unfold Hw.verifyTile; dsimp only
  generalize (h.passRead t).1.checkEntry t = g at hp ⊢
  generalize ((h.passRead t).2.2 || decide (g.entryUpset t ≠ 0)) = b
  cases b with
  | true => rw [if_pos rfl]; exact hp
  | false =>
    rw [if_neg Bool.false_ne_true]
    by_cases c : crc32c (h.passRead t).2.1 = g.get (MEM_TILE_CRC_CRC t)
    · rw [if_pos c, Hw.put_mem]; exact hp
    · rw [if_neg c, Hw.retire_mem, Hw.raise_mem, Hw.noteMem_mem]; exact hp

theorem Memory.wf_useTile (h : Hw) (t : Nat) (hw : Memory.wf h.mem = true) : Memory.wf (h.useTile t).mem = true := by
  unfold Hw.useTile Hw.when; split
  · exact Memory.wf_verifyTile h t hw
  · exact hw

/-- A consumer's read keeps the canonical form. -/
theorem Memory.wf_consume (h : Hw) (a src : Nat) (hw : Memory.wf h.mem = true) : Memory.wf (h.consume a src).1.mem = true := by
  unfold Hw.consume
  exact Memory.wf_memRead _ _ _ (Memory.wf_useTile h _ hw)

/-! ### Reads of what nothing has written -/

theorem memRead_blank (h : Hw) (a src : Nat) (hv : h.validCopies a = 0) : h.memRead a src = (h, 0) := by
  have hc : h.checkValid a src = h := by simp [Hw.checkValid, hv]
  have hm : majority3 0 = false := by decide
  simp [Hw.memRead, hc, hv, hm]

theorem passRead_fold (h : Hw) (t : Nat) (l : List Nat) (hv : ∀ i ∈ l, h.validCopies (512 * t + i) = 0) : ∀ acc : List Byte,
    l.foldl (fun (p : Hw × List Byte × Bool) i =>
      let a := 512 * t + i
      let bad := majority3 (p.1.validCopies a) && (secCorrect (p.1.memStored a)).isNone
      let r := p.1.memRead a finderPass
      (r.1, p.2.1 ++ leBytes 8 r.2.toNat, p.2.2 || bad)) (h, acc, false) =
      (h, acc ++ l.flatMap (fun _ => leBytes 8 0), false) := by
  induction l with
  | nil => intro acc; simp
  | cons i u ih =>
    intro acc
    have h0 := hv i (by simp)
    have hm : majority3 0 = false := by decide
    rw [List.foldl_cons]
    simp only [h0, hm, memRead_blank h _ _ h0, Bool.false_and, Bool.or_false]
    rw [ih (fun j hj => hv j (by simp [hj]))]
    simp

/-- A pass over a tile that nothing has written reads zeros and changes nothing. -/
theorem passRead_blank (h : Hw) (t : Nat) (hv : ∀ i < 512, h.validCopies (512 * t + i) = 0) :
    h.passRead t = (h, (List.range 512).flatMap (fun _ => leBytes 8 0), false) := by
  have hl : ∀ i ∈ List.range 512, h.validCopies (512 * t + i) = 0 := fun i hi => hv i (List.mem_range.mp hi)
  unfold Hw.passRead
  generalize List.range 512 = l at hl ⊢
  rw [passRead_fold h t l hl [], List.nil_append]

/-! ### The checksum's width -/

theorem crc32cStep_lt (k : Nat) : ∀ c, c < 2 ^ 32 → crc32cStep k c < 2 ^ 32 := by
  induction k with
  | zero => intro c h; exact h
  | succ n ih =>
    intro c h
    unfold crc32cStep
    apply ih
    have hd : c / 2 < 2 ^ 32 := by omega
    split
    · exact Nat.xor_lt_two_pow hd (by decide)
    · exact hd

theorem crc32c_lt (l : List Byte) : crc32c l < 2 ^ 32 := by
  unfold crc32c
  refine Nat.xor_lt_two_pow ?_ (by decide)
  exact foldl_keeps (fun c => c < 2 ^ 32) _
    (fun c b hc => crc32cStep_lt 8 _ (Nat.xor_lt_two_pow hc (Nat.lt_trans b.isLt (by decide)))) l _ (by decide)

end Sys2Proof.Machine
end

