-- ==== Sys2Proof/Laws/Ops.lean ====
section
/-!
SUPPORT. What the shared shapes of a meaning answer: everything an operation on the hub, a register write and a command on
a port can do, said once.
-/
namespace Sys2Proof.Machine

/-! ### Operations on an object that exists -/

theorem actOn_absent (s : State) (f : Hw → Hw) : actOn s false f = .fault .noSuchObject := (rfl)

theorem actOn_live (s : State) (f : Hw → Hw) (h : s.hw.live = true) : actOn s true f = .next { s with hw := f s.hw } := by
  simp [actOn, act, h]

theorem actOn_dead (s : State) (f : Hw → Hw) (h : s.hw.live = false) : actOn s true f = .next s := by
  simp [actOn, h]

/-- Everything an operation on an object can answer. -/
theorem actOn_next (s t : State) (b : Bool) (f : Hw → Hw) (h : actOn s b f = .next t) :
    b = true ∧ ((s.hw.live = true ∧ t = { s with hw := f s.hw }) ∨ (s.hw.live = false ∧ t = s)) := by
  cases b
  · rw [actOn_absent] at h; cases h
  · cases l : s.hw.live
    · rw [actOn_dead s f l] at h; cases h; exact ⟨rfl, Or.inr ⟨rfl, rfl⟩⟩
    · rw [actOn_live s f l] at h; cases h; exact ⟨rfl, Or.inl ⟨rfl, rfl⟩⟩

theorem actOn_fault (s : State) (b : Bool) (f : Hw → Hw) (e : Fault) (h : actOn s b f = .fault e) : b = false := by
  cases b
  · rfl
  · cases l : s.hw.live
    · rw [actOn_dead s f l] at h; cases h
    · rw [actOn_live s f l] at h; cases h

theorem actOn_not_refused (s : State) (b : Bool) (f : Hw → Hw) (e : Refusal) : actOn s b f ≠ .refused e := by
  cases b
  · rw [actOn_absent]; simp
  · cases l : s.hw.live
    · rw [actOn_dead s f l]; simp
    · rw [actOn_live s f l]; simp

/-- An operation on an object touches the hub alone. -/
theorem actOn_frame (s t : State) (b : Bool) (f : Hw → Hw) (h : actOn s b f = .next t) :
    t.otp = s.otp ∧ t.frozen = s.frozen ∧ t.rdata = s.rdata ∧ t.status = s.status ∧ t.pending = s.pending := by
  obtain ⟨-, ⟨-, rfl⟩ | ⟨-, rfl⟩⟩ := actOn_next s t b f h <;> exact ⟨rfl, rfl, rfl, rfl, rfl⟩

/-! ### Register writes with a row of their own -/

/-- Everything a register write can answer. -/
theorem accWrite_next (s t : State) (q : Requester) (b : Bool) (f : Hw → Hw) (h : accWrite s q b f = .next t) :
    b = true ∧ t = { s with hw := if s.hw.writable q then f s.hw else s.hw, rdata := [], status := 0 } := by
  cases b
  · simp [accWrite] at h
  · simp only [accWrite, if_true, Host.Outcome.next.injEq] at h; exact ⟨rfl, h.symm⟩

theorem accWrite_open (s : State) (q : Requester) (f : Hw → Hw) (h : s.hw.writable q = true) :
    accWrite s q true f = .next { s with hw := f s.hw, rdata := [], status := 0 } := by
  simp [accWrite, h]

theorem accWrite_closed (s : State) (q : Requester) (f : Hw → Hw) (h : s.hw.writable q = false) :
    accWrite s q true f = .next { s with rdata := [], status := 0 } := by
  simp [accWrite, h]

theorem accWrite_absent (s : State) (q : Requester) (f : Hw → Hw) : accWrite s q false f = .fault .noSuchObject := (rfl)

theorem accWrite_frame (s t : State) (q : Requester) (b : Bool) (f : Hw → Hw) (h : accWrite s q b f = .next t) :
    t.otp = s.otp ∧ t.frozen = s.frozen ∧ t.pending = s.pending := by
  obtain ⟨-, rfl⟩ := accWrite_next s t q b f h; exact ⟨rfl, rfl, rfl⟩

/-! ### Commands on a port -/

/-- Everything a command on a port can answer. -/
theorem onPort_next (s t : State) (b : Bool) (f : Hw → Hw) (h : onPort s b f = .next t) :
    b = true ∧ ((s.hw.live = true ∧ s.hw.linkOn = true ∧ t = { s with hw := f s.hw }) ∨ t = s) := by
  obtain ⟨hb, ⟨hl, rfl⟩ | ⟨-, rfl⟩⟩ := actOn_next _ _ _ _ h
  · refine ⟨hb, ?_⟩
    cases o : s.hw.linkOn
    · exact Or.inr (by simp [Hw.when])
    · exact Or.inl ⟨hl, rfl, by simp [Hw.when]⟩
  · exact ⟨hb, Or.inr rfl⟩

end Sys2Proof.Machine
end

