-- ==== Sys2Proof/Tests/Slice0.lean ====
section
/-!
SUPPORT. The model's own tests: ill-formed commands that the well-formedness check refuses, and for each clause of a
statement a state and operands that meet its premises (wit_) and one step from there (test_).
-/
namespace Sys2Proof.Tests
set_option Elab.async false
open Sys2Proof Sys2Proof.Machine

/-- The command answers a next state that meets a test. -/
def holdsAfter (c : Instr) (s : State) (p : State → Bool) : Bool :=
  match exec c s with
  | .next x => p x
  | _ => false

/-- A hub that runs: its first commit has applied, CORE, TIMING, CONV and Stitch run, and a frame boundary acts. -/
def up : State :=
  let on : DomSt := { mode := .on, again := false, since := 0 }
  let h : Hw := { hw0 with
    boot := { hw0.boot with phase := .running }
    clk := { hw0.clk with core := on, timing := on, conv := (List.range 9).map (fun c => (c, on)), stitch := on }
    smp := { hw0.smp with lastBoundary := some 0 } }
  { State.reset with hw := (h.put SYS_BOOT_MODE 1).put SYS_BOOT_RELEASED 1 }

/-- That hub changed. -/
def with_ (f : Hw → Hw) : State := { up with hw := f up.hw }

/-- Keys in both first slots. -/
def keyed : LcsSt := { State.reset.otp with cmdKeys := [{ key := 0, written := true, revoked := false }, keySlot0, keySlot0, keySlot0]
                                            imgKeys := [{ key := 1, written := true, revoked := false }, keySlot0, keySlot0, keySlot0] }

/-- A critical command from hub 4 to hub 3 with counter 7, and its tag under key 0. -/
def authPay (cmd : Nat) (args tag : List Byte) : List Byte :=
  [9, 9, 0, byte cmd] ++ beBytes 2 args.length ++ [0, 0] ++ beBytes 8 7 ++ args ++ tag

/-- Its entry in a FIFO. -/
def authEntry (cmd : Nat) (args tag : List Byte) : CmdEntry :=
  { frame := { ty := 0x30, cls := 1, rsp := false, sr := false, flg := false, src := 4, dst := 3, seq := 5, epoch := 0, hops := 7,
               payload := authPay cmd args tag },
    hopsArr := 7, order := 1, trailer := some 1, trailerNs := 0, promoted := false, held := false }

/-- A hub in a life-cycle state with that command at the front of port B's FIFO. -/
def authHub (st cmd : Nat) (args tag : List Byte) (f : Hw → Hw) : State :=
  let h := ((up.hw.put LCS_STATE_STATE st).put CFG_NVM_SFDP_OK 1).put CFG_NVM_DENSITY_LOG2 25
  { up with hw := f { h.setPort .b { h.port .b with fifo := [authEntry cmd args tag] } with lcs := keyed }, otp := keyed }

/-- CRC-32C of a tile that nothing has written. -/
@[irreducible] def blankTileCrc : Nat := crc32c ((List.range 512).flatMap (fun _ => leBytes 8 0))
theorem blankTileCrc_eq : blankTileCrc = crc32c ((List.range 512).flatMap (fun _ => leBytes 8 0)) := by unfold blankTileCrc; rfl
theorem blankTileCrc_lt : blankTileCrc < 2 ^ 32 := by rw [blankTileCrc_eq]; exact crc32c_lt _

/-- The last tile unverified, with a checksum. -/
def crcTile (c : Nat) : Hw := (up.hw.put (MEM_TILE_STAT_VERIFIED 6143) 0).put (MEM_TILE_CRC_CRC 6143) c
/-- Its checksum entry read with nothing upset. -/
def sameEntry (h : Hw) : Hw := h.setEntryUpset 6143 (h.entryUpset 6143 ^^^ 0)
theorem crcTile_valid (c i : Nat) : (sameEntry (crcTile c)).validCopies (512 * 6143 + i) = 0 := by
  simp only [sameEntry, crcTile, validCopies_setEntryUpset, validCopies_put]; rfl
theorem crcTile_pass (c : Nat) : (sameEntry (crcTile c)).passRead 6143 =
    (sameEntry (crcTile c), (List.range 512).flatMap (fun _ => leBytes 8 0), false) :=
  passRead_blank _ 6143 (fun i _ => crcTile_valid c i)
theorem crcTile_upset (c : Nat) : (sameEntry (crcTile c)).entryUpset 6143 = 0 := by
  simp only [sameEntry, crcTile, Hw.entryUpset, Hw.setEntryUpset, Hw.put_mem]; rfl
theorem crcTile_check (c : Nat) : (sameEntry (crcTile c)).checkEntry 6143 = sameEntry (crcTile c) := by
  unfold Hw.checkEntry; rw [if_pos (crcTile_upset c)]
theorem crcTile_verified (c : Nat) : (crcTile c).on (MEM_TILE_STAT_VERIFIED 6143) = false := by
  unfold crcTile
  rw [on_put_other _ _ _ _ (by decide)]
  exact on_put_zero _ _ (by decide) (by decide)
theorem crcTile_crc (c : Nat) (hc : c < 2 ^ 32) : (sameEntry (crcTile c)).get (MEM_TILE_CRC_CRC 6143) = c := by
  have e := get_put_same (up.hw.put (MEM_TILE_STAT_VERIFIED 6143) 0) (MEM_TILE_CRC_CRC 6143) c (by decide) (by decide)
  rw [show (MEM_TILE_CRC_CRC 6143).hi + 1 - (MEM_TILE_CRC_CRC 6143).lo = 32 from rfl, Nat.mod_eq_of_lt hc] at e
  exact e
/-- What a pass over that tile finds, in a state that has it. -/
theorem crcTile_facts (s : State) (c : Nat) (hs : s.hw = crcTile c) (hc : c < 2 ^ 32) :
    s.hw.on (MEM_TILE_STAT_VERIFIED 6143) = false ∧
    ((s.hw.setEntryUpset 6143 (s.hw.entryUpset 6143 ^^^ 0)).passRead 6143).2.2 = false ∧
    (((s.hw.setEntryUpset 6143 (s.hw.entryUpset 6143 ^^^ 0)).passRead 6143).1.checkEntry 6143).entryUpset 6143 = 0 ∧
    crc32c ((s.hw.setEntryUpset 6143 (s.hw.entryUpset 6143 ^^^ 0)).passRead 6143).2.1 = blankTileCrc ∧
    (((s.hw.setEntryUpset 6143 (s.hw.entryUpset 6143 ^^^ 0)).passRead 6143).1.checkEntry 6143).get (MEM_TILE_CRC_CRC 6143) = c := by
  rw [hs]
  have e : (crcTile c).setEntryUpset 6143 ((crcTile c).entryUpset 6143 ^^^ 0) = sameEntry (crcTile c) := rfl
  rw [e, crcTile_pass]
  dsimp only
  rw [crcTile_check]
  exact ⟨crcTile_verified c, rfl, crcTile_upset c, blankTileCrc_eq.symm, crcTile_crc c hc⟩

/-- Levels of blocks sent one after the other on a lane that has sent nothing. -/
def blockLevels (bs : List (Bool × List Byte)) : List Int :=
  (bs.foldl (fun (q : Lane × List Int) b => let y := q.1.sendBlock b.1 b.2; (y, q.2 ++ y.sent)) (up.hw.lane .b 0, [])).2
/-- Levels of a marker of a hub on a lane, and of the idle block after it. -/
def markLevels (h : Hw) (p : Port) (ctype kind l : Nat) : List Int := blockLevels [(true, h.markerBody p ctype kind l), (true, zeros 32)]
/-- A hub at a tick, with its lanes filled up to it. -/
def atTick (n : Nat) (h : Hw) : Hw :=
  [Port.a, Port.b].foldl (fun g p => g.setPort p { g.port p with slotAt := 4000 * n }) { h with time := { h.time with tick := n } }

def st_terminalProtection_1a : State := up

theorem wit_terminalProtection_1a : (st_terminalProtection_1a.hw.live = true) ∧ ((639 : Nat) < 640) ∧
    (natBit (st_terminalProtection_1a.hw.ovState (639 : Nat)) (b2n (true : Bool)) = false) ∧
    (st_terminalProtection_1a.hw.mayTrip (639 : Nat) (true : Bool) (-13001 : Int) = true) := by decide +kernel

theorem test_terminalProtection_1a : holdsAfter (.ovTrip (639 : Nat) (true : Bool) (-13001 : Int)) (st_terminalProtection_1a) (fun x => decide (x.hw.isolated (639 : Nat) = true ∧ x.hw.closedAt (639 : Nat) = 0 ∧ x.hw.on (ovBit (639 : Nat) (true : Bool)) = true ∧ x.hw.on (statusBit srcTermOvervolt) = true)) = true := by decide +kernel

def st_terminalProtection_1b : State := up

theorem wit_terminalProtection_1b : (st_terminalProtection_1b.hw.live = true) ∧ ((0 : Nat) < 640) ∧
    (natBit (st_terminalProtection_1b.hw.ovState (0 : Nat)) (b2n (false : Bool)) = false) ∧
    (st_terminalProtection_1b.hw.mayTrip (0 : Nat) (false : Bool) (21001 : Int) = true) := by decide +kernel

theorem test_terminalProtection_1b : holdsAfter (.ovTrip (0 : Nat) (false : Bool) (21001 : Int)) (st_terminalProtection_1b) (fun x => decide (x.hw.isolated (0 : Nat) = true ∧ x.hw.closedAt (0 : Nat) = 0 ∧ x.hw.on (ovBit (0 : Nat) (false : Bool)) = true ∧ x.hw.on (statusBit srcTermOvervolt) = true)) = true := by decide +kernel

def st_terminalProtection_2a : State := with_ (fun h => h.setClosed 5 0x400)

theorem wit_terminalProtection_2a : (st_terminalProtection_2a.hw.live = true) ∧ ((5 : Nat) < 640) ∧
    (natBit (st_terminalProtection_2a.hw.ovState (5 : Nat)) (b2n (false : Bool)) = false) ∧
    ((bits (st_terminalProtection_2a.hw.closedAt (5 : Nat)) 11 10 = 1 ∨
    bits (st_terminalProtection_2a.hw.closedAt (5 : Nat)) 7 5 = 7)) := by decide +kernel

theorem test_terminalProtection_2a : holdsAfter (.switchCurrentLimit (5 : Nat) (false : Bool)) (st_terminalProtection_2a) (fun x => decide (x.hw.isolated (5 : Nat) = true ∧ x.hw.closedAt (5 : Nat) = 0 ∧ x.hw.on (ovBit (5 : Nat) (false : Bool)) = true ∧ x.hw.on (statusBit srcTermOvervolt) = true)) = true := by decide +kernel

def st_terminalProtection_2b : State := with_ (fun h => h.setClosed 0 0xE0)

theorem wit_terminalProtection_2b : (st_terminalProtection_2b.hw.live = true) ∧ ((0 : Nat) < 640) ∧
    (natBit (st_terminalProtection_2b.hw.ovState (0 : Nat)) (b2n (false : Bool)) = false) ∧
    ((bits (st_terminalProtection_2b.hw.closedAt (0 : Nat)) 11 10 = 1 ∨
    bits (st_terminalProtection_2b.hw.closedAt (0 : Nat)) 7 5 = 7)) := by decide +kernel

theorem test_terminalProtection_2b : holdsAfter (.switchCurrentLimit (0 : Nat) (false : Bool)) (st_terminalProtection_2b) (fun x => decide (x.hw.isolated (0 : Nat) = true ∧ x.hw.closedAt (0 : Nat) = 0 ∧ x.hw.on (ovBit (0 : Nat) (false : Bool)) = true ∧ x.hw.on (statusBit srcTermOvervolt) = true)) = true := by decide +kernel

def st_terminalProtection_3 : State := with_ (fun h => { h.setOv 7 5 with time := { h.time with tick := 10 ^ 9 } })

theorem wit_terminalProtection_3 : (st_terminalProtection_3.hw.live = true) ∧ ((7 : Nat) < 640) ∧
    (natBit (st_terminalProtection_3.hw.ovState (7 : Nat)) (b2n (false : Bool)) = true) ∧
    (st_terminalProtection_3.hw.mayClear (7 : Nat) (20000 : Int) = true) ∧
    (st_terminalProtection_3.hw.due (storeGet (fun _ => 0) st_terminalProtection_3.hw.field.ovAt (7 : Nat) + msNs (st_terminalProtection_3.hw.get HRN_OV_CTL_RECOVER_MS)) = true) := by decide +kernel

theorem test_terminalProtection_3 : holdsAfter (.ovClear (7 : Nat) (false : Bool) (20000 : Int)) (st_terminalProtection_3) (fun x => decide (x.hw.ovState (7 : Nat) = natPut (st_terminalProtection_3.hw.ovState (7 : Nat)) (b2n (false : Bool)) (b2n (false : Bool)) 0 ∧ (st_terminalProtection_3.hw.on HRN_OV_CTL_AUTO = false → x.hw.field.reclose = st_terminalProtection_3.hw.field.reclose) ∧ (st_terminalProtection_3.hw.on HRN_OV_CTL_AUTO = true → natPut (st_terminalProtection_3.hw.ovState (7 : Nat)) (b2n (false : Bool)) (b2n (false : Bool)) 0 = 4 → x.hw.field.reclose.contains (7 : Nat) = true))) = true := by decide +kernel

def st_terminalProtection_4 : State := with_ (fun h => { h.setOv 9 4 with field := { (h.setOv 9 4).field with reclose := [9] } })

theorem wit_terminalProtection_4 : (st_terminalProtection_4.hw.live = true) ∧ ((9 : Nat) < 640) ∧
    (st_terminalProtection_4.hw.boundaryNow = some (0 : Nat)) ∧
    (st_terminalProtection_4.hw.field.reclose.contains (9 : Nat) = true) := by decide +kernel

theorem test_terminalProtection_4 : holdsAfter (.routeReclose (9 : Nat)) (st_terminalProtection_4) (fun x => decide (x.hw.isolated (9 : Nat) = false ∧ x.hw.field.reclose.contains (9 : Nat) = false ∧ x.hw.closedAt (9 : Nat) = x.hw.route (9 : Nat))) = true := by decide +kernel

def st_terminalProtection_5a : State := with_ (fun h => h.put (HRN_TSTAT_OV_POS 3) 1)

theorem wit_terminalProtection_5a : (st_terminalProtection_5a.hw.writable (.mspi : Requester) = true) ∧ ((3 : Nat) < 640) ∧
    (st_terminalProtection_5a.hw.surelyClear (3 : Nat) (19500 : Int) = true) ∧
    (natBit (0xFFFFFFFF : Word).toNat (ovBit (3 : Nat) (false : Bool)).lo = true) := by decide +kernel

theorem test_terminalProtection_5a : holdsAfter (.tstatOvClear (.mspi : Requester) (3 : Nat) (19500 : Int) (0xFFFFFFFF : Word)) (st_terminalProtection_5a) (fun x => decide (x.hw.on (ovBit (3 : Nat) (false : Bool)) = false)) = true := by decide +kernel

def st_terminalProtection_5b : State := with_ (fun h => h.put (HRN_TSTAT_OV_NEG 3) 1)

theorem wit_terminalProtection_5b : (st_terminalProtection_5b.hw.writable (.mspi : Requester) = true) ∧ ((3 : Nat) < 640) ∧
    (st_terminalProtection_5b.hw.surelyClear (3 : Nat) (-11500 : Int) = true) ∧
    (natBit (0xFFFFFFFF : Word).toNat (ovBit (3 : Nat) (true : Bool)).lo = true) := by decide +kernel

theorem test_terminalProtection_5b : holdsAfter (.tstatOvClear (.mspi : Requester) (3 : Nat) (-11500 : Int) (0xFFFFFFFF : Word)) (st_terminalProtection_5b) (fun x => decide (x.hw.on (ovBit (3 : Nat) (true : Bool)) = false)) = true := by decide +kernel

def st_terminalProtection_6 : State := with_ (fun h => h.put (HRN_TSTAT_OV_POS 3) 1)

theorem wit_terminalProtection_6 : (st_terminalProtection_6.hw.writable (.portA : Requester) = true) ∧ ((3 : Nat) < 640) ∧
    (st_terminalProtection_6.hw.mayClear (3 : Nat) (20500 : Int) = false) := by decide +kernel

theorem test_terminalProtection_6 : holdsAfter (.tstatOvClear (.portA : Requester) (3 : Nat) (20500 : Int) (0xFFFFFFFF : Word)) (st_terminalProtection_6) (fun x => decide (x.hw.on (HRN_TSTAT_OV_POS (3 : Nat)) = st_terminalProtection_6.hw.on (HRN_TSTAT_OV_POS (3 : Nat)) ∧ x.hw.on (HRN_TSTAT_OV_NEG (3 : Nat)) = st_terminalProtection_6.hw.on (HRN_TSTAT_OV_NEG (3 : Nat)) ∧ x.hw.field = (st_terminalProtection_6.hw.setPin (3 : Nat) (20500 : Int)).field)) = true := by decide +kernel

def st_terminalProtection_7 : State := with_ (fun h => ((h.put (HRN_TSTAT_OV_POS 3) 1).setOv 3 5).put HRN_OV_CTL_AUTO 0)

theorem wit_terminalProtection_7 : (st_terminalProtection_7.hw.writable (.portA : Requester) = true) ∧ ((3 : Nat) < 640) ∧
    (st_terminalProtection_7.hw.surelyClear (3 : Nat) (0 : Int) = true) ∧
    (st_terminalProtection_7.hw.on HRN_OV_CTL_AUTO = false) ∧ (st_terminalProtection_7.hw.isolated (3 : Nat) = true) ∧
    ((natBit (0xFFFFFFFF : Word).toNat (HRN_TSTAT_OV_POS (3 : Nat)).lo = true ∨
    st_terminalProtection_7.hw.on (HRN_TSTAT_OV_POS (3 : Nat)) = false)) ∧
    ((natBit (0xFFFFFFFF : Word).toNat (HRN_TSTAT_OV_NEG (3 : Nat)).lo = true ∨
    st_terminalProtection_7.hw.on (HRN_TSTAT_OV_NEG (3 : Nat)) = false)) := by decide +kernel

theorem test_terminalProtection_7 : holdsAfter (.tstatOvClear (.portA : Requester) (3 : Nat) (0 : Int) (0xFFFFFFFF : Word)) (st_terminalProtection_7) (fun x => decide (x.hw.field.reclose.contains (3 : Nat) = true ∧ x.hw.ovState (3 : Nat) = 4)) = true := by decide +kernel

def st_openAndSaturation_1 : State := with_ (fun h => (h.put (FE_CFG_EN 12) 1).put (FE_CFG_OPEN_K 12) 1)

theorem wit_openAndSaturation_1 : (st_openAndSaturation_1.hw.live = true) ∧ ((12 : Nat) < 320) ∧
    (st_openAndSaturation_1.hw.hasCmp (12 : Nat) = true) ∧ (st_openAndSaturation_1.hw.cmpTripped (12 : Nat) = false) ∧
    (st_openAndSaturation_1.hw.chanIsolated (12 : Nat) = false) ∧
    (st_openAndSaturation_1.hw.isOpen (12 : Nat) = false) := by decide +kernel

theorem test_openAndSaturation_1 : holdsAfter (.openComparatorTrip (12 : Nat)) (st_openAndSaturation_1) (fun x => decide (x.hw.isOpen (12 : Nat) = true ∧ x.hw.cmpTripped (12 : Nat) = true ∧ x.hw.on (statusBit srcTermOpen) = true)) = true := by decide +kernel

def st_openAndSaturation_2 : State := with_ (fun h => (((h.put (FE_CFG_EN 0) 1).put (FE_CFG_OPEN_K 0) 1).put (HRN_TERM_IN_EN 0) 1).setOv 0 5)

theorem wit_openAndSaturation_2 : (st_openAndSaturation_2.hw.live = true) ∧ ((0 : Nat) < 320) ∧
    (st_openAndSaturation_2.hw.hasCmp (0 : Nat) = true) ∧ (st_openAndSaturation_2.hw.cmpTripped (0 : Nat) = false) ∧
    (st_openAndSaturation_2.hw.chanIsolated (0 : Nat) = true) := by decide +kernel

theorem test_openAndSaturation_2 : holdsAfter (.openComparatorTrip (0 : Nat)) (st_openAndSaturation_2) (fun x => decide (x = { st_openAndSaturation_2 with hw := st_openAndSaturation_2.hw.setCmp (0 : Nat) true })) = true := by decide +kernel

def st_openAndSaturation_3 : State := with_ (fun h => h.setCmp 319 true)

theorem wit_openAndSaturation_3 : (st_openAndSaturation_3.hw.live = true) ∧ ((319 : Nat) < 320) ∧
    (st_openAndSaturation_3.hw.cmpTripped (319 : Nat) = true) := by decide +kernel

theorem test_openAndSaturation_3 : holdsAfter (.openComparatorClear (319 : Nat)) (st_openAndSaturation_3) (fun x => decide (x.hw.cmpTripped (319 : Nat) = false ∧ x.hw.openBits (319 : Nat) = st_openAndSaturation_3.hw.openBits (319 : Nat) ∧ x.hw.regs = st_openAndSaturation_3.hw.regs)) = true := by decide +kernel

def st_openAndSaturation_4a : State := with_ (fun h => { h.setOpenBits 4 1 with time := { h.time with tick := 10000000 } })

theorem wit_openAndSaturation_4a : (st_openAndSaturation_4a.hw.live = true) ∧ ((4 : Nat) < 320) ∧
    (st_openAndSaturation_4a.hw.boundaryNow = some (0 : Nat)) ∧ (st_openAndSaturation_4a.hw.isOpen (4 : Nat) = true) ∧
    (st_openAndSaturation_4a.hw.probed (4 : Nat) = false) ∧ ((st_openAndSaturation_4a.hw.openBits (4 : Nat) % 2 = 1 →
    st_openAndSaturation_4a.hw.chanIsolated (4 : Nat) = false ∧
    st_openAndSaturation_4a.hw.cmpTripped (4 : Nat) = false ∧
    st_openAndSaturation_4a.hw.due (storeGet (fun _ => 0) st_openAndSaturation_4a.hw.field.cmpClear (4 : Nat) + st_openAndSaturation_4a.hw.recoverNs) = true)) ∧
    ((st_openAndSaturation_4a.hw.openBits (4 : Nat) / 2 % 2 = 1 →
    (List.range 2).all (fun i => !st_openAndSaturation_4a.hw.xlinks (2 * clusOfChan (4 : Nat) + i) (4 : Nat) || (!st_openAndSaturation_4a.hw.on (EXC_STATUS_COMPLIANCE (2 * clusOfChan (4 : Nat) + i)) && st_openAndSaturation_4a.hw.due ((st_openAndSaturation_4a.hw.drv (2 * clusOfChan (4 : Nat) + i)).compClear + st_openAndSaturation_4a.hw.recoverNs))) = true)) := by decide +kernel

theorem test_openAndSaturation_4a : holdsAfter (.openStateEnd (4 : Nat)) (st_openAndSaturation_4a) (fun x => decide (x.hw.isOpen (4 : Nat) = false)) = true := by decide +kernel

def st_openAndSaturation_4b : State := with_ (fun h => { h.setOpenBits 4 2 with time := { h.time with tick := 10000000 } })

theorem wit_openAndSaturation_4b : (st_openAndSaturation_4b.hw.live = true) ∧ ((4 : Nat) < 320) ∧
    (st_openAndSaturation_4b.hw.boundaryNow = some (0 : Nat)) ∧ (st_openAndSaturation_4b.hw.isOpen (4 : Nat) = true) ∧
    (st_openAndSaturation_4b.hw.probed (4 : Nat) = false) ∧ ((st_openAndSaturation_4b.hw.openBits (4 : Nat) % 2 = 1 →
    st_openAndSaturation_4b.hw.chanIsolated (4 : Nat) = false ∧
    st_openAndSaturation_4b.hw.cmpTripped (4 : Nat) = false ∧
    st_openAndSaturation_4b.hw.due (storeGet (fun _ => 0) st_openAndSaturation_4b.hw.field.cmpClear (4 : Nat) + st_openAndSaturation_4b.hw.recoverNs) = true)) ∧
    ((st_openAndSaturation_4b.hw.openBits (4 : Nat) / 2 % 2 = 1 →
    (List.range 2).all (fun i => !st_openAndSaturation_4b.hw.xlinks (2 * clusOfChan (4 : Nat) + i) (4 : Nat) || (!st_openAndSaturation_4b.hw.on (EXC_STATUS_COMPLIANCE (2 * clusOfChan (4 : Nat) + i)) && st_openAndSaturation_4b.hw.due ((st_openAndSaturation_4b.hw.drv (2 * clusOfChan (4 : Nat) + i)).compClear + st_openAndSaturation_4b.hw.recoverNs))) = true)) := by decide +kernel

theorem test_openAndSaturation_4b : holdsAfter (.openStateEnd (4 : Nat)) (st_openAndSaturation_4b) (fun x => decide (x.hw.isOpen (4 : Nat) = false)) = true := by decide +kernel

def st_openAndSaturation_4c : State := with_ (fun h => { h.setOpenBits 4 3 with time := { h.time with tick := 10000000 } })

theorem wit_openAndSaturation_4c : (st_openAndSaturation_4c.hw.live = true) ∧ ((4 : Nat) < 320) ∧
    (st_openAndSaturation_4c.hw.boundaryNow = some (0 : Nat)) ∧ (st_openAndSaturation_4c.hw.isOpen (4 : Nat) = true) ∧
    (st_openAndSaturation_4c.hw.probed (4 : Nat) = false) ∧ ((st_openAndSaturation_4c.hw.openBits (4 : Nat) % 2 = 1 →
    st_openAndSaturation_4c.hw.chanIsolated (4 : Nat) = false ∧
    st_openAndSaturation_4c.hw.cmpTripped (4 : Nat) = false ∧
    st_openAndSaturation_4c.hw.due (storeGet (fun _ => 0) st_openAndSaturation_4c.hw.field.cmpClear (4 : Nat) + st_openAndSaturation_4c.hw.recoverNs) = true)) ∧
    ((st_openAndSaturation_4c.hw.openBits (4 : Nat) / 2 % 2 = 1 →
    (List.range 2).all (fun i => !st_openAndSaturation_4c.hw.xlinks (2 * clusOfChan (4 : Nat) + i) (4 : Nat) || (!st_openAndSaturation_4c.hw.on (EXC_STATUS_COMPLIANCE (2 * clusOfChan (4 : Nat) + i)) && st_openAndSaturation_4c.hw.due ((st_openAndSaturation_4c.hw.drv (2 * clusOfChan (4 : Nat) + i)).compClear + st_openAndSaturation_4c.hw.recoverNs))) = true)) := by decide +kernel

theorem test_openAndSaturation_4c : holdsAfter (.openStateEnd (4 : Nat)) (st_openAndSaturation_4c) (fun x => decide (x.hw.isOpen (4 : Nat) = false)) = true := by decide +kernel

def st_openAndSaturation_5a : State := with_ (fun h => h.put (FE_CFG_EN 12) 1)

theorem wit_openAndSaturation_5a : (st_openAndSaturation_5a.hw.live = true) ∧ ((12 : Nat) < 320) ∧
    (st_openAndSaturation_5a.hw.on (FE_CFG_EN (12 : Nat)) = true) ∧
    (st_openAndSaturation_5a.hw.on (FE_STATUS_SAT (12 : Nat)) = false) := by decide +kernel

theorem test_openAndSaturation_5a : holdsAfter (.saturationTrip (12 : Nat)) (st_openAndSaturation_5a) (fun x => decide (x = { st_openAndSaturation_5a with hw := if st_openAndSaturation_5a.hw.get (FE_CFG_MODE (12 : Nat)) = 2 ∧ st_openAndSaturation_5a.hw.on (FE_CFG_AUTO_RST (12 : Nat)) = true then (st_openAndSaturation_5a.hw.put (FE_STATUS_SAT (12 : Nat)) 1).feWindow (12 : Nat) st_openAndSaturation_5a.hw.time.now else st_openAndSaturation_5a.hw.put (FE_STATUS_SAT (12 : Nat)) 1 })) = true := by decide +kernel

def st_openAndSaturation_5b : State := with_ (fun h => ((h.put (FE_CFG_EN 12) 1).put (FE_CFG_MODE 12) 2).put (FE_CFG_AUTO_RST 12) 1)

theorem wit_openAndSaturation_5b : (st_openAndSaturation_5b.hw.live = true) ∧ ((12 : Nat) < 320) ∧
    (st_openAndSaturation_5b.hw.on (FE_CFG_EN (12 : Nat)) = true) ∧
    (st_openAndSaturation_5b.hw.on (FE_STATUS_SAT (12 : Nat)) = false) := by decide +kernel

theorem test_openAndSaturation_5b : holdsAfter (.saturationTrip (12 : Nat)) (st_openAndSaturation_5b) (fun x => decide (x = { st_openAndSaturation_5b with hw := if st_openAndSaturation_5b.hw.get (FE_CFG_MODE (12 : Nat)) = 2 ∧ st_openAndSaturation_5b.hw.on (FE_CFG_AUTO_RST (12 : Nat)) = true then (st_openAndSaturation_5b.hw.put (FE_STATUS_SAT (12 : Nat)) 1).feWindow (12 : Nat) st_openAndSaturation_5b.hw.time.now else st_openAndSaturation_5b.hw.put (FE_STATUS_SAT (12 : Nat)) 1 })) = true := by decide +kernel

def st_openAndSaturation_6 : State := with_ (fun h => h.put (FE_STATUS_SAT 12) 1)

theorem wit_openAndSaturation_6 : (st_openAndSaturation_6.hw.live = true) ∧ ((12 : Nat) < 320) := by decide +kernel

theorem test_openAndSaturation_6 : holdsAfter (.saturationClear (12 : Nat)) (st_openAndSaturation_6) (fun x => decide (x = { st_openAndSaturation_6 with hw := st_openAndSaturation_6.hw.put (FE_STATUS_SAT (12 : Nat)) 0 })) = true := by decide +kernel

def st_openAndSaturation_7 : State := with_ (fun h => { (h.put HRN_PROBE_CTL_EN 1).put (HRN_TERM_PROBE 17) 1 with time := { h.time with tick := 10000000000 } })

theorem wit_openAndSaturation_7 : (st_openAndSaturation_7.hw.live = true) ∧ ((17 : Nat) < 640) ∧
    (st_openAndSaturation_7.hw.on HRN_PROBE_CTL_EN = true) ∧
    (st_openAndSaturation_7.hw.on (HRN_TERM_PROBE (17 : Nat)) = true) ∧ (st_openAndSaturation_7.hw.running = true) ∧
    (st_openAndSaturation_7.hw.due (storeGet (fun _ => 0) st_openAndSaturation_7.hw.field.visited (17 : Nat) + msNs (st_openAndSaturation_7.hw.get HRN_PROBE_CTL_INTERVAL_MS)) = true) ∧
    (st_openAndSaturation_7.hw.isolated (17 : Nat) = false) ∧
    (st_openAndSaturation_7.hw.probe (clusOfTerm (17 : Nat)) = none) := by decide +kernel

theorem test_openAndSaturation_7 : holdsAfter (.probeInterval (17 : Nat)) (st_openAndSaturation_7) (fun x => decide (x.hw.probe (clusOfTerm (17 : Nat)) = some { term := (17 : Nat), phase := .due, since := st_openAndSaturation_7.hw.ns, net := 0, edge := false, strobed := none } ∧ x.hw.regs = st_openAndSaturation_7.hw.regs)) = true := by decide +kernel

def st_openAndSaturation_8 : State := with_ (fun h => { h.setProbe 1 (some { term := 17, phase := .due, since := 0, net := 5, edge := false, strobed := some 0 }) with time := { h.time with tick := 10000000, now := 90 * 2 ^ 32 } })

def v_openAndSaturation_8_p : ProbeSt := { term := 17, phase := .due, since := 0, net := 5, edge := false, strobed := some 0 }

theorem wit_openAndSaturation_8 : (st_openAndSaturation_8.hw.live = true) ∧ ((17 : Nat) < 640) ∧
    (st_openAndSaturation_8.hw.probe (clusOfTerm (17 : Nat)) = some v_openAndSaturation_8_p) ∧
    (v_openAndSaturation_8_p.term = (17 : Nat)) ∧ (v_openAndSaturation_8_p.phase = .due) ∧
    (v_openAndSaturation_8_p.strobed = some (0 : Nat)) ∧
    (st_openAndSaturation_8.hw.time.now ≤ (0 : Nat) + 100 * nsUnit) ∧
    (st_openAndSaturation_8.hw.reached ((0 : Nat) + 100 * nsUnit) = true) := by decide +kernel

theorem test_openAndSaturation_8 : holdsAfter (.probePulseStart (17 : Nat)) (st_openAndSaturation_8) (fun x => decide (x = { st_openAndSaturation_8 with hw := st_openAndSaturation_8.hw.setProbe (clusOfTerm (17 : Nat)) (some { v_openAndSaturation_8_p with phase := .pulse, since := st_openAndSaturation_8.hw.ns, net := (0 : Nat) + 100 * nsUnit }) })) = true := by decide +kernel

def st_openAndSaturation_9 : State := with_ (fun h => { h.setProbe 1 (some { term := 17, phase := .pulse, since := 0, net := 5, edge := false, strobed := some 0 }) with time := { h.time with tick := 10000000, now := 90 * 2 ^ 32 } })

def v_openAndSaturation_9_p : ProbeSt := { term := 17, phase := .pulse, since := 0, net := 5, edge := false, strobed := some 0 }

theorem wit_openAndSaturation_9 : (st_openAndSaturation_9.hw.live = true) ∧ ((17 : Nat) < 640) ∧
    (st_openAndSaturation_9.hw.probe (clusOfTerm (17 : Nat)) = some v_openAndSaturation_9_p) ∧
    (v_openAndSaturation_9_p.term = (17 : Nat)) ∧ (v_openAndSaturation_9_p.phase = .pulse) ∧
    (st_openAndSaturation_9.hw.due (v_openAndSaturation_9_p.since + 20000) = true) ∧
    (openThrUv (st_openAndSaturation_9.hw.get HRN_PROBE_CTL_OPEN_THR) < (99000000 : Int)) := by decide +kernel

theorem test_openAndSaturation_9 : holdsAfter (.probePulseEnd (17 : Nat) (99000000 : Int)) (st_openAndSaturation_9) (fun x => decide (x.hw.on (HRN_TSTAT_PROBE_OPEN (17 : Nat)) = true ∧ (st_openAndSaturation_9.hw.termChans (17 : Nat)).all (fun ch => x.hw.isOpen ch) = true ∧ x.hw.probe (clusOfTerm (17 : Nat)) = some { v_openAndSaturation_9_p with phase := .recover, since := st_openAndSaturation_9.hw.ns })) = true := by decide +kernel

def st_openAndSaturation_10 : State := with_ (fun h => { h.setProbe 1 (some { term := 17, phase := .pulse, since := 0, net := 5, edge := false, strobed := some 0 }) with time := { h.time with tick := 10000000, now := 90 * 2 ^ 32 } })

def v_openAndSaturation_10_p : ProbeSt := { term := 17, phase := .pulse, since := 0, net := 5, edge := false, strobed := some 0 }

theorem wit_openAndSaturation_10 : (st_openAndSaturation_10.hw.live = true) ∧ ((17 : Nat) < 640) ∧
    (st_openAndSaturation_10.hw.probe (clusOfTerm (17 : Nat)) = some v_openAndSaturation_10_p) ∧
    (v_openAndSaturation_10_p.term = (17 : Nat)) ∧ (v_openAndSaturation_10_p.phase = .pulse) ∧
    (st_openAndSaturation_10.hw.due (v_openAndSaturation_10_p.since + 20000) = true) ∧
    ((4999 : Int) ≤ openThrUv (st_openAndSaturation_10.hw.get HRN_PROBE_CTL_OPEN_THR)) ∧ ((4999 : Int) < 5000) := by decide +kernel

theorem test_openAndSaturation_10 : holdsAfter (.probePulseEnd (17 : Nat) (4999 : Int)) (st_openAndSaturation_10) (fun x => decide (x.hw.on (HRN_TSTAT_SHORT_GND (17 : Nat)) = true ∧ x.hw.probe (clusOfTerm (17 : Nat)) = some { v_openAndSaturation_10_p with phase := .recover, since := st_openAndSaturation_10.hw.ns })) = true := by decide +kernel

def st_openAndSaturation_11 : State := with_ (fun h => { h.setProbe 1 (some { term := 17, phase := .pulse, since := 0, net := 5, edge := false, strobed := some 0 }) with time := { h.time with tick := 10000000, now := 90 * 2 ^ 32 } })

def v_openAndSaturation_11_p : ProbeSt := { term := 17, phase := .pulse, since := 0, net := 5, edge := false, strobed := some 0 }

theorem wit_openAndSaturation_11 : (st_openAndSaturation_11.hw.live = true) ∧ ((17 : Nat) < 640) ∧
    (st_openAndSaturation_11.hw.probe (clusOfTerm (17 : Nat)) = some v_openAndSaturation_11_p) ∧
    (v_openAndSaturation_11_p.term = (17 : Nat)) ∧ (v_openAndSaturation_11_p.phase = .pulse) ∧
    (st_openAndSaturation_11.hw.due (v_openAndSaturation_11_p.since + 20000) = true) ∧
    ((5000 : Int) ≤ openThrUv (st_openAndSaturation_11.hw.get HRN_PROBE_CTL_OPEN_THR)) ∧ (5000 ≤ (5000 : Int)) := by decide +kernel

theorem test_openAndSaturation_11 : holdsAfter (.probePulseEnd (17 : Nat) (5000 : Int)) (st_openAndSaturation_11) (fun x => decide ((x.hw.lastPass (17 : Nat)).map ProbePass.time = some v_openAndSaturation_11_p.net ∧ x.hw.reg (HRN_TSTAT (17 : Nat)) = st_openAndSaturation_11.hw.reg (HRN_TSTAT (17 : Nat)))) = true := by decide +kernel

def st_openAndSaturation_12 : State := with_ (fun h => { h.setProbe 1 (some { term := 17, phase := .recover, since := 0, net := 5, edge := false, strobed := some 0 }) with time := { h.time with tick := 10000000, now := 90 * 2 ^ 32 } })

def v_openAndSaturation_12_p : ProbeSt := { term := 17, phase := .recover, since := 0, net := 5, edge := false, strobed := some 0 }

theorem wit_openAndSaturation_12 : (st_openAndSaturation_12.hw.live = true) ∧ ((17 : Nat) < 640) ∧
    (st_openAndSaturation_12.hw.probe (clusOfTerm (17 : Nat)) = some v_openAndSaturation_12_p) ∧
    (v_openAndSaturation_12_p.term = (17 : Nat)) ∧ (v_openAndSaturation_12_p.phase = .recover) ∧
    (st_openAndSaturation_12.hw.due (v_openAndSaturation_12_p.since + 10000 * st_openAndSaturation_12.hw.get HRN_PROBE_CTL_RECOVER) = true) := by decide +kernel

theorem test_openAndSaturation_12 : holdsAfter (.probeRecoveryEnd (17 : Nat)) (st_openAndSaturation_12) (fun x => decide (x = { st_openAndSaturation_12 with hw := st_openAndSaturation_12.hw.setProbe (clusOfTerm (17 : Nat)) none })) = true := by decide +kernel

def st_driverLimits_1 : State := with_ (fun h => (h.setDrv 79 { driver0 with on := true, cfg := 1, chopWait := false }))

theorem wit_driverLimits_1 : (st_driverLimits_1.hw.live = true) ∧ ((79 : Nat) < 80) ∧ (((st_driverLimits_1.hw.drv (79 : Nat)).on = true ∨
    (st_driverLimits_1.hw.drv (79 : Nat)).chopWait = true ∨ (st_driverLimits_1.hw.drv (79 : Nat)).revHold = true)) ∧
    (((st_driverLimits_1.hw.drv (79 : Nat)).mode = 1 ∨ (st_driverLimits_1.hw.drv (79 : Nat)).mode = 4)) ∧
    (st_driverLimits_1.hw.on (EXC_STATUS_LIMIT (79 : Nat)) = false) := by decide +kernel

theorem test_driverLimits_1 : holdsAfter (.driverLimitEnter (79 : Nat)) (st_driverLimits_1) (fun x => decide (x.hw.on (EXC_STATUS_LIMIT (79 : Nat)) = true ∧ (x.hw.drv (79 : Nat)).limitSince = st_driverLimits_1.hw.ns ∧ (x.hw.drv (79 : Nat)).on = (st_driverLimits_1.hw.drv (79 : Nat)).on)) = true := by decide +kernel

def st_driverLimits_2 : State := with_ (fun h => (h.setDrv 79 { driver0 with on := true, cfg := 1, chopWait := false }).put (EXC_STATUS_LIMIT 79) 1)

theorem wit_driverLimits_2 : (st_driverLimits_2.hw.live = true) ∧ ((79 : Nat) < 80) := by decide +kernel

theorem test_driverLimits_2 : holdsAfter (.driverLimitLeave (79 : Nat)) (st_driverLimits_2) (fun x => decide (x.hw.on (EXC_STATUS_LIMIT (79 : Nat)) = false ∧ (x.hw.drv (79 : Nat)).on = (st_driverLimits_2.hw.drv (79 : Nat)).on)) = true := by decide +kernel

def st_driverLimits_3 : State := with_ (fun h => { h.put (EXC_STATUS_LIMIT 79) 1 with time := { h.time with tick := 10000000 } })

theorem wit_driverLimits_3 : (st_driverLimits_3.hw.live = true) ∧ ((79 : Nat) < 80) ∧
    (st_driverLimits_3.hw.on (EXC_STATUS_LIMIT (79 : Nat)) = true) ∧
    (st_driverLimits_3.hw.due ((st_driverLimits_3.hw.drv (79 : Nat)).limitSince + 10000) = true) ∧
    ((st_driverLimits_3.hw.drv (79 : Nat)).limitRaised = false) := by decide +kernel

theorem test_driverLimits_3 : holdsAfter (.excOvercurrent (79 : Nat)) (st_driverLimits_3) (fun x => decide (x.hw.on (EXC_STATUS_OVERCURRENT (79 : Nat)) = true ∧ x.hw.on (statusBit srcExcOvercurrent) = true ∧ x.hw.get (FLT_INFO_INFO srcExcOvercurrent) = (79 : Nat))) = true := by decide +kernel

def st_driverLimits_4 : State := with_ (fun h => { h with time := { h.time with tick := 10000000 }, field := { h.field with totalOver := some 3 } })

theorem wit_driverLimits_4 : (st_driverLimits_4.hw.live = true) ∧ (2000 < (2001 : Nat)) ∧
    (st_driverLimits_4.hw.field.totalOver = some (3 : Nat)) ∧ (st_driverLimits_4.hw.due ((3 : Nat) + 10000) = true) ∧
    (st_driverLimits_4.hw.field.totalRaised = false) := by decide +kernel

theorem test_driverLimits_4 : holdsAfter (.vexcTotalOvercurrent (2001 : Nat)) (st_driverLimits_4) (fun x => decide (x.hw.on (statusBit srcExcOvercurrent) = true ∧ x.hw.get (FLT_INFO_INFO srcExcOvercurrent) = 0x7F)) = true := by decide +kernel

def st_driverLimits_5a : State := with_ (fun h => (h.setDrv 79 { driver0 with on := true, cfg := 3, chopWait := false }))

theorem wit_driverLimits_5a : (st_driverLimits_5a.hw.live = true) ∧ ((79 : Nat) < 80) ∧ ((st_driverLimits_5a.hw.drv (79 : Nat)).on = true) ∧
    ((((st_driverLimits_5a.hw.drv (79 : Nat)).mode = 1 ∨ (st_driverLimits_5a.hw.drv (79 : Nat)).mode = 4) ∧
    natBit (st_driverLimits_5a.hw.drv (79 : Nat)).cfg.toNat 3 = true ∨
    (st_driverLimits_5a.hw.drv (79 : Nat)).mode = 3)) := by decide +kernel

theorem test_driverLimits_5a : holdsAfter (.excReversed (79 : Nat)) (st_driverLimits_5a) (fun x => decide ((x.hw.drv (79 : Nat)).on = false ∧ (x.hw.drv (79 : Nat)).revHold = true ∧ x.hw.on (EXC_STATUS_REVERSED (79 : Nat)) = true ∧ x.hw.on (statusBit srcExcReversed) = true)) = true := by decide +kernel

def st_driverLimits_5b : State := with_ (fun h => (h.setDrv 79 { driver0 with on := true, cfg := 9, chopWait := false }))

theorem wit_driverLimits_5b : (st_driverLimits_5b.hw.live = true) ∧ ((79 : Nat) < 80) ∧ ((st_driverLimits_5b.hw.drv (79 : Nat)).on = true) ∧
    ((((st_driverLimits_5b.hw.drv (79 : Nat)).mode = 1 ∨ (st_driverLimits_5b.hw.drv (79 : Nat)).mode = 4) ∧
    natBit (st_driverLimits_5b.hw.drv (79 : Nat)).cfg.toNat 3 = true ∨
    (st_driverLimits_5b.hw.drv (79 : Nat)).mode = 3)) := by decide +kernel

theorem test_driverLimits_5b : holdsAfter (.excReversed (79 : Nat)) (st_driverLimits_5b) (fun x => decide ((x.hw.drv (79 : Nat)).on = false ∧ (x.hw.drv (79 : Nat)).revHold = true ∧ x.hw.on (EXC_STATUS_REVERSED (79 : Nat)) = true ∧ x.hw.on (statusBit srcExcReversed) = true)) = true := by decide +kernel

def st_driverLimits_6 : State := with_ (fun h => h.put (EXC_STATUS_REVERSED 5) 1)

theorem wit_driverLimits_6 : (st_driverLimits_6.hw.writable (.mspi : Requester) = true) ∧ ((5 : Nat) < 80) ∧
    (natBit (0x40000 : Word).toNat 18 = true) ∧ (st_driverLimits_6.hw.on (EXC_STATUS_REVERSED (5 : Nat)) = true) := by decide +kernel

theorem test_driverLimits_6 : holdsAfter (.reversedClear (.mspi : Requester) (5 : Nat) (0x40000 : Word)) (st_driverLimits_6) (fun x => decide (x.hw.on (EXC_STATUS_REVERSED (5 : Nat)) = false ∧ (x.hw.drv (5 : Nat)).revHold = false ∧ (x.hw.drv (5 : Nat)).wants = true)) = true := by decide +kernel

def st_driverLimits_7 : State := with_ (fun h => (h.setDrv 79 { driver0 with on := true, cfg := 2, chopWait := false }).put (FE_CFG_XLINK 319) 3)

theorem wit_driverLimits_7 : (st_driverLimits_7.hw.live = true) ∧ ((79 : Nat) < 80) ∧ (((st_driverLimits_7.hw.drv (79 : Nat)).on = true ∨
    (st_driverLimits_7.hw.drv (79 : Nat)).chopWait = true)) ∧ (((st_driverLimits_7.hw.drv (79 : Nat)).mode = 2 ∨
    (st_driverLimits_7.hw.drv (79 : Nat)).mode = 3 ∨ (st_driverLimits_7.hw.drv (79 : Nat)).mode = 5)) ∧
    (st_driverLimits_7.hw.on (EXC_STATUS_COMPLIANCE (79 : Nat)) = false) := by decide +kernel

theorem test_driverLimits_7 : holdsAfter (.compliance (79 : Nat)) (st_driverLimits_7) (fun x => decide (x.hw.on (EXC_STATUS_COMPLIANCE (79 : Nat)) = true ∧ (st_driverLimits_7.hw.linked (79 : Nat)).all (fun ch => x.hw.isOpen ch) = true)) = true := by decide +kernel

def st_driverLimits_8 : State := with_ (fun h => h.put (EXC_STATUS_COMPLIANCE 5) 1)

theorem wit_driverLimits_8 : (st_driverLimits_8.hw.live = true) ∧ ((5 : Nat) < 80) ∧
    (st_driverLimits_8.hw.on (EXC_STATUS_COMPLIANCE (5 : Nat)) = true) := by decide +kernel

theorem test_driverLimits_8 : holdsAfter (.complianceClear (5 : Nat)) (st_driverLimits_8) (fun x => decide (x.hw.on (EXC_STATUS_COMPLIANCE (5 : Nat)) = false ∧ (x.hw.drv (5 : Nat)).compClear = st_driverLimits_8.hw.ns)) = true := by decide +kernel

def st_driverInstants_1 : State := with_ (fun h => { (h.put (EXC_CFG_MODE 8) 2).setDrv 8 { driver0 with change := true } with smp := { h.smp with lastBoundary := some 0 }, time := { h.time with now := 290 * 2 ^ 32 } })

theorem wit_driverInstants_1 : (st_driverInstants_1.hw.live = true) ∧ ((8 : Nat) < 80) ∧
    (st_driverInstants_1.hw.driverInstant = some (300 * 2 ^ 32 : Nat)) ∧
    ((st_driverInstants_1.hw.drv (8 : Nat)).change = true) := by decide +kernel

theorem test_driverInstants_1 : holdsAfter (.driverChange (8 : Nat)) (st_driverInstants_1) (fun x => decide ((x.hw.drv (8 : Nat)).cfg = st_driverInstants_1.hw.reg (EXC_CFG (8 : Nat)) ∧ (x.hw.drv (8 : Nat)).set = st_driverInstants_1.hw.reg (EXC_SET (8 : Nat)) ∧ (x.hw.drv (8 : Nat)).chop = st_driverInstants_1.hw.reg (EXC_CHOP (8 : Nat)) ∧ (x.hw.drv (8 : Nat)).change = false ∧ (x.hw.drv (8 : Nat)).chopWait = (decide (4 ≤ st_driverInstants_1.hw.get (EXC_CFG_MODE (8 : Nat))) && !st_driverInstants_1.hw.faultOff (8 : Nat) && st_driverInstants_1.hw.running && !((st_driverInstants_1.hw.drv (8 : Nat)).on && decide (4 ≤ (st_driverInstants_1.hw.drv (8 : Nat)).mode))) ∧ (x.hw.drv (8 : Nat)).on = (decide (st_driverInstants_1.hw.get (EXC_CFG_MODE (8 : Nat)) ≠ 0) && !st_driverInstants_1.hw.faultOff (8 : Nat) && st_driverInstants_1.hw.running && !(x.hw.drv (8 : Nat)).chopWait))) = true := by decide +kernel

def st_driverInstants_2 : State := with_ (fun h => { h.setDrv 8 { driver0 with chopWait := true, cfg := 4 } with smp := { h.smp with lastBoundary := some 0 }, time := { h.time with now := 290 * 2 ^ 32 } })

theorem wit_driverInstants_2 : (st_driverInstants_2.hw.live = true) ∧ ((8 : Nat) < 80) ∧
    (st_driverInstants_2.hw.driverInstant = some (300 * 2 ^ 32 : Nat)) ∧
    ((st_driverInstants_2.hw.drv (8 : Nat)).chopWait = true) ∧
    (st_driverInstants_2.hw.chopCount (st_driverInstants_2.hw.drv (8 : Nat)).group % (2 * (st_driverInstants_2.hw.drv (8 : Nat)).half) = 0) := by decide +kernel

theorem test_driverInstants_2 : holdsAfter (.chopStart (8 : Nat)) (st_driverInstants_2) (fun x => decide ((x.hw.drv (8 : Nat)).on = true ∧ (x.hw.drv (8 : Nat)).chopWait = false ∧ x.hw.get (EXC_STATUS_POL (8 : Nat)) = 0)) = true := by decide +kernel

def st_driverInstants_3 : State := with_ (fun h => { (h.setDrv 8 { driver0 with on := true, cfg := 4 }).setGrp 0 { group0 with chopN := 3 } with smp := { h.smp with lastBoundary := some 0 }, time := { h.time with now := 290 * 2 ^ 32 } })

theorem wit_driverInstants_3 : (st_driverInstants_3.hw.live = true) ∧ ((8 : Nat) < 80) ∧
    (st_driverInstants_3.hw.driverInstant = some (300 * 2 ^ 32 : Nat)) ∧
    ((st_driverInstants_3.hw.drv (8 : Nat)).on = true) ∧ (4 ≤ (st_driverInstants_3.hw.drv (8 : Nat)).mode) := by decide +kernel

theorem test_driverInstants_3 : holdsAfter (.chopEdge (8 : Nat)) (st_driverInstants_3) (fun x => decide (x.hw.get (EXC_STATUS_POL (8 : Nat)) = st_driverInstants_3.hw.chopCount (st_driverInstants_3.hw.drv (8 : Nat)).group / (st_driverInstants_3.hw.drv (8 : Nat)).half % 2 ∧ (x.hw.drv (8 : Nat)).on = true)) = true := by decide +kernel

def st_frontEndRelief_1 : State := with_ (fun h => { h with cal := { h.cal with feStep := some { unit := 351, inPlace := false, tStart := 0, retries := 0, again := false, plan := [], got := [], first := none } } })

theorem wit_frontEndRelief_1 : (st_frontEndRelief_1.hw.live = true) ∧ ((312 : Nat) < 320) ∧ ((359 : Nat) < 360) ∧
    (st_frontEndRelief_1.hw.boundaryNow = some (0 : Nat)) ∧
    (st_frontEndRelief_1.hw.spareUnit (clusOfChan (312 : Nat)) = some (359 : Nat)) ∧
    (st_frontEndRelief_1.hw.reliefChan = some (312 : Nat)) ∧
    (st_frontEndRelief_1.hw.relief (clusOfChan (312 : Nat)) = none) ∧
    (st_frontEndRelief_1.hw.barred (312 : Nat) = false) ∧ ((st_frontEndRelief_1.hw.cal.feSince = none ∨
    st_frontEndRelief_1.hw.listsWaiting = false ∨ st_frontEndRelief_1.hw.on ADC_SLACK_FORCING = true)) := by decide +kernel

theorem test_frontEndRelief_1 : holdsAfter (.reliefPrepare (312 : Nat)) (st_frontEndRelief_1) (fun x => decide (x.hw.relief (clusOfChan (312 : Nat)) = some { ch := (312 : Nat), oldUnit := st_frontEndRelief_1.hw.unitOfChan (312 : Nat), newUnit := (359 : Nat), b0 := (0 : Nat), b1 := 0, phase := .prepared } ∧ x.hw.on (FE_UNIT_PREP (359 : Nat)) = true)) = true := by decide +kernel

def st_frontEndRelief_2 : State := with_ (fun h => { h.setRelief 2 (some { ch := 19, oldUnit := 20, newUnit := 26, b0 := 0, b1 := 0, phase := .prepared }) with smp := { h.smp with lastBoundary := some (10 ^ 9 * 2 ^ 32) }, time := { h.time with now := 10 ^ 9 * 2 ^ 32 } })

def v_frontEndRelief_2_r : Relief := { ch := 19, oldUnit := 20, newUnit := 26, b0 := 0, b1 := 0, phase := .prepared }

theorem wit_frontEndRelief_2 : (st_frontEndRelief_2.hw.live = true) ∧ ((2 : Nat) < 40) ∧
    (st_frontEndRelief_2.hw.relief (2 : Nat) = some v_frontEndRelief_2_r) ∧
    (st_frontEndRelief_2.hw.boundaryNow = some (10 ^ 9 * 2 ^ 32 : Nat)) ∧ (v_frontEndRelief_2_r.phase = .prepared) ∧
    (v_frontEndRelief_2_r.b0 + max (st_frontEndRelief_2.hw.settleNs v_frontEndRelief_2_r.ch) 20000 * nsUnit ≤ (10 ^ 9 * 2 ^ 32 : Nat)) ∧
    (v_frontEndRelief_2_r.ch < 320) ∧ (v_frontEndRelief_2_r.oldUnit < 360) ∧ (v_frontEndRelief_2_r.newUnit < 360) ∧
    (v_frontEndRelief_2_r.oldUnit ≠ v_frontEndRelief_2_r.newUnit) := by decide +kernel

theorem test_frontEndRelief_2 : holdsAfter (.reliefSwitchover (2 : Nat)) (st_frontEndRelief_2) (fun x => decide (x.hw.relief (2 : Nat) = some { v_frontEndRelief_2_r with phase := .overlap, b1 := (10 ^ 9 * 2 ^ 32 : Nat) } ∧ x.hw.get (FE_UNIT_ROLE v_frontEndRelief_2_r.newUnit) = 0 ∧ x.hw.get (FE_UNIT_ROLE v_frontEndRelief_2_r.oldUnit) = 2 ∧ x.hw.unitOfChan v_frontEndRelief_2_r.ch = v_frontEndRelief_2_r.newUnit ∧ x.hw.on (FE_STATUS_CAL v_frontEndRelief_2_r.ch) = true)) = true := by decide +kernel

def st_frontEndRelief_3 : State := with_ (fun h => { h.setRelief 2 (some { ch := 19, oldUnit := 20, newUnit := 26, b0 := 0, b1 := 0, phase := .overlap }) with time := { h.time with now := 10 ^ 9 * 2 ^ 32 } })

def v_frontEndRelief_3_r : Relief := { ch := 19, oldUnit := 20, newUnit := 26, b0 := 0, b1 := 0, phase := .overlap }

theorem wit_frontEndRelief_3 : (st_frontEndRelief_3.hw.live = true) ∧ ((2 : Nat) < 40) ∧
    (st_frontEndRelief_3.hw.relief (2 : Nat) = some v_frontEndRelief_3_r) ∧ (v_frontEndRelief_3_r.phase = .overlap) ∧
    (st_frontEndRelief_3.hw.reached (v_frontEndRelief_3_r.b1 + 1100 * nsUnit) = true) := by decide +kernel

theorem test_frontEndRelief_3 : holdsAfter (.reliefOldOpen (2 : Nat)) (st_frontEndRelief_3) (fun x => decide (x = { st_frontEndRelief_3 with hw := ((st_frontEndRelief_3.hw.setRelief (2 : Nat) (some { v_frontEndRelief_3_r with phase := .calibrating })).setInputs v_frontEndRelief_3_r.newUnit (if st_frontEndRelief_3.hw.inputsOn v_frontEndRelief_3_r.ch then some v_frontEndRelief_3_r.ch else none)).setInputs v_frontEndRelief_3_r.oldUnit none })) = true := by decide +kernel

def st_frontEndRelief_4 : State := with_ (fun h => h.setRelief 2 (some { ch := 19, oldUnit := 20, newUnit := 26, b0 := 0, b1 := 0, phase := .ended }))

def v_frontEndRelief_4_r : Relief := { ch := 19, oldUnit := 20, newUnit := 26, b0 := 0, b1 := 0, phase := .ended }

theorem wit_frontEndRelief_4 : (st_frontEndRelief_4.hw.live = true) ∧ ((2 : Nat) < 40) ∧
    (st_frontEndRelief_4.hw.relief (2 : Nat) = some v_frontEndRelief_4_r) ∧
    (st_frontEndRelief_4.hw.boundaryNow = some (0 : Nat)) ∧ (v_frontEndRelief_4_r.phase = .ended) := by decide +kernel

theorem test_frontEndRelief_4 : holdsAfter (.reliefFinish (2 : Nat)) (st_frontEndRelief_4) (fun x => decide (x.hw.relief (2 : Nat) = none ∧ x.hw.on (FE_STATUS_CAL v_frontEndRelief_4_r.ch) = false)) = true := by decide +kernel

def st_aonTickAdvances_1 : State := with_ (fun h => { h with time := { h.time with adjHold := some (-3), incrPend := some 7 } })

theorem wit_aonTickAdvances_1 : (st_aonTickAdvances_1.hw.live = true) ∧ (st_aonTickAdvances_1.hw.boot.refclkLost = false) ∧
    (st_aonTickAdvances_1.hw.time.setHold = none) ∧
    (0 ≤ (st_aonTickAdvances_1.hw.time.now : Int) + ((st_aonTickAdvances_1.hw.time.incrHold.getD st_aonTickAdvances_1.hw.time.incr : Int) + st_aonTickAdvances_1.hw.time.adjHold.getD 0)) := by decide +kernel

theorem test_aonTickAdvances_1 : holdsAfter (.aonTick) (st_aonTickAdvances_1) (fun x => decide (x.hw.time.now = timeAdd st_aonTickAdvances_1.hw.time.now ((st_aonTickAdvances_1.hw.time.incrHold.getD st_aonTickAdvances_1.hw.time.incr : Int) + st_aonTickAdvances_1.hw.time.adjHold.getD 0) ∧ x.hw.time.tick = st_aonTickAdvances_1.hw.time.tick + 1 ∧ x.hw.time.incr = st_aonTickAdvances_1.hw.time.incrHold.getD st_aonTickAdvances_1.hw.time.incr ∧ x.hw.time.adjHold = st_aonTickAdvances_1.hw.time.adjPend ∧ x.hw.time.incrHold = st_aonTickAdvances_1.hw.time.incrPend)) = true := by decide +kernel

def st_aonTickAdvances_2 : State := with_ (fun h => { h with time := { h.time with setHold := some 77 } })

theorem wit_aonTickAdvances_2 : (st_aonTickAdvances_2.hw.live = true) ∧ (st_aonTickAdvances_2.hw.boot.refclkLost = false) ∧
    (st_aonTickAdvances_2.hw.time.setHold = some (77 : Nat)) := by decide +kernel

theorem test_aonTickAdvances_2 : holdsAfter (.aonTick) (st_aonTickAdvances_2) (fun x => decide (x.hw.time.now = (77 : Nat) ∧ x.hw.time.tick = st_aonTickAdvances_2.hw.time.tick + 1 ∧ x.hw.on TIM_STATUS_SET_DONE = true)) = true := by decide +kernel

def st_aonTickAdvances_3 : State := with_ (fun h => { h with boot := { h.boot with refclkLost := true } })

theorem wit_aonTickAdvances_3 : (st_aonTickAdvances_3.hw.live = true) ∧ (st_aonTickAdvances_3.hw.boot.refclkLost = true) := by decide +kernel

theorem test_aonTickAdvances_3 : holdsAfter (.aonTick) (st_aonTickAdvances_3) (fun x => decide (x = { st_aonTickAdvances_3 with hw := { st_aonTickAdvances_3.hw with time := { st_aonTickAdvances_3.hw.time with tick := st_aonTickAdvances_3.hw.time.tick + 1 } } })) = true := by decide +kernel

def st_frameBoundaryActs_1 : State := with_ (fun h => { h with smp := { h.smp with lastBoundary := none } })

theorem wit_frameBoundaryActs_1 : (st_frameBoundaryActs_1.hw.live = true) ∧ (st_frameBoundaryActs_1.hw.nextBoundary = some (0 : Nat)) := by decide +kernel

theorem test_frameBoundaryActs_1 : holdsAfter (.frameBoundary (70000 : Nat) ([3, 70000] : List Nat)) (st_frameBoundaryActs_1) (fun x => decide (x.hw.smp.lastBoundary = some (0 : Nat) ∧ x.hw.get EXC_TOTAL_TOTAL = min (70000 : Nat) 65535 ∧ x.hw.cal.pickHold = false ∧ x.hw.time = st_frameBoundaryActs_1.hw.time)) = true := by decide +kernel

def st_timeWrites_1 : State := with_ (fun h => h.setHeld .mspi TIM_INCR_FRAC (some 5))

theorem wit_timeWrites_1 : (st_timeWrites_1.hw.writable (.mspi : Requester) = true) ∧
    (incrMin ≤ bits (40 : Word) 5 0 * nsUnit + (st_timeWrites_1.hw.heldOr (.mspi : Requester) TIM_INCR_FRAC (st_timeWrites_1.hw.reg TIM_INCR_FRAC)).toNat) ∧
    (bits (40 : Word) 5 0 * nsUnit + (st_timeWrites_1.hw.heldOr (.mspi : Requester) TIM_INCR_FRAC (st_timeWrites_1.hw.reg TIM_INCR_FRAC)).toNat ≤ incrMax) := by decide +kernel

theorem test_timeWrites_1 : holdsAfter (.timIncrWrite (.mspi : Requester) (40 : Word)) (st_timeWrites_1) (fun x => decide (x.hw.time = { st_timeWrites_1.hw.time with incrPend := some (bits (40 : Word) 5 0 * nsUnit + (st_timeWrites_1.hw.heldOr (.mspi : Requester) TIM_INCR_FRAC (st_timeWrites_1.hw.reg TIM_INCR_FRAC)).toNat) } ∧ x.hw.on TIM_STATUS_INCR_REJ = st_timeWrites_1.hw.on TIM_STATUS_INCR_REJ)) = true := by decide +kernel

def st_timeWrites_2 : State := up

theorem wit_timeWrites_2 : (st_timeWrites_2.hw.writable (.portA : Requester) = true) ∧
    ((bits (39 : Word) 5 0 * nsUnit + (st_timeWrites_2.hw.heldOr (.portA : Requester) TIM_INCR_FRAC (st_timeWrites_2.hw.reg TIM_INCR_FRAC)).toNat < incrMin ∨
    incrMax < bits (39 : Word) 5 0 * nsUnit + (st_timeWrites_2.hw.heldOr (.portA : Requester) TIM_INCR_FRAC (st_timeWrites_2.hw.reg TIM_INCR_FRAC)).toNat)) := by decide +kernel

theorem test_timeWrites_2 : holdsAfter (.timIncrWrite (.portA : Requester) (39 : Word)) (st_timeWrites_2) (fun x => decide (x.hw.time = st_timeWrites_2.hw.time ∧ x.hw.on TIM_STATUS_INCR_REJ = true ∧ x.hw.reg TIM_INCR_NS = st_timeWrites_2.hw.reg TIM_INCR_NS)) = true := by decide +kernel

def st_timeWrites_3 : State := up

theorem wit_timeWrites_3 : (st_timeWrites_3.hw.writable (.mspi : Requester) = true) ∧
    ((toSigned 32 (7 : Word).toNat * (nsUnit : Int) + ((st_timeWrites_3.hw.heldOr (.mspi : Requester) TIM_ADJ_FRAC (st_timeWrites_3.hw.reg TIM_ADJ_FRAC)).toNat : Int)).natAbs ≤ st_timeWrites_3.hw.get TIM_STEP_LIM_LIM_NS * nsUnit) ∧
    (0 ≤ (st_timeWrites_3.hw.time.now : Int) + (toSigned 32 (7 : Word).toNat * (nsUnit : Int) + ((st_timeWrites_3.hw.heldOr (.mspi : Requester) TIM_ADJ_FRAC (st_timeWrites_3.hw.reg TIM_ADJ_FRAC)).toNat : Int))) := by decide +kernel

theorem test_timeWrites_3 : holdsAfter (.timAdjWrite (.mspi : Requester) (7 : Word)) (st_timeWrites_3) (fun x => decide (x.hw.time = { st_timeWrites_3.hw.time with adjPend := some (toSigned 32 (7 : Word).toNat * (nsUnit : Int) + ((st_timeWrites_3.hw.heldOr (.mspi : Requester) TIM_ADJ_FRAC (st_timeWrites_3.hw.reg TIM_ADJ_FRAC)).toNat : Int)) } ∧ x.hw.on TIM_STATUS_ADJ_PEND = true)) = true := by decide +kernel

def st_timeWrites_4 : State := up

theorem wit_timeWrites_4 : (st_timeWrites_4.hw.writable (.mspi : Requester) = true) ∧
    ((st_timeWrites_4.hw.get TIM_STEP_LIM_LIM_NS * nsUnit < (toSigned 32 (0xFFFFFFFF : Word).toNat * (nsUnit : Int) + ((st_timeWrites_4.hw.heldOr (.mspi : Requester) TIM_ADJ_FRAC (st_timeWrites_4.hw.reg TIM_ADJ_FRAC)).toNat : Int)).natAbs ∨
    (st_timeWrites_4.hw.time.now : Int) + (toSigned 32 (0xFFFFFFFF : Word).toNat * (nsUnit : Int) + ((st_timeWrites_4.hw.heldOr (.mspi : Requester) TIM_ADJ_FRAC (st_timeWrites_4.hw.reg TIM_ADJ_FRAC)).toNat : Int)) < 0)) := by decide +kernel

theorem test_timeWrites_4 : holdsAfter (.timAdjWrite (.mspi : Requester) (0xFFFFFFFF : Word)) (st_timeWrites_4) (fun x => decide (x.hw.time = st_timeWrites_4.hw.time ∧ x.hw.on TIM_STATUS_STEP_REJ = true ∧ x.hw.on (statusBit srcTimeStepReject) = true)) = true := by decide +kernel

def st_timeWrites_5 : State := with_ (fun h => { h with time := { h.time with adjHold := some (-(2 ^ 80)) } })

theorem wit_timeWrites_5 : (st_timeWrites_5.hw.live = true) ∧ (st_timeWrites_5.hw.boot.refclkLost = false) ∧
    (st_timeWrites_5.hw.time.setHold = none) ∧ (st_timeWrites_5.hw.time.adjHold = some (-(2 ^ 80) : Int)) ∧
    ((st_timeWrites_5.hw.time.now : Int) + (st_timeWrites_5.hw.time.incrHold.getD st_timeWrites_5.hw.time.incr : Int) + (-(2 ^ 80) : Int) < 0) := by decide +kernel

theorem test_timeWrites_5 : holdsAfter (.aonTick) (st_timeWrites_5) (fun x => decide (x.hw.time.now = timeAdd st_timeWrites_5.hw.time.now (st_timeWrites_5.hw.time.incrHold.getD st_timeWrites_5.hw.time.incr : Int) ∧ x.hw.time.adjHold = st_timeWrites_5.hw.time.adjPend ∧ x.hw.on TIM_STATUS_STEP_REJ = true ∧ x.hw.on (statusBit srcTimeStepReject) = true)) = true := by decide +kernel

def st_timeWrites_6 : State := with_ (fun h => h.put TIM_STATUS_QUALITY 3)

theorem wit_timeWrites_6 : (st_timeWrites_6.hw.writable (.mspi : Requester) = true) ∧ (st_timeWrites_6.hw.running = true) ∧
    (bits (st_timeWrites_6.hw.heldOr (.mspi : Requester) TIM_SET_NS (st_timeWrites_6.hw.reg TIM_SET_NS)) 29 0 ≤ 999999999) ∧
    ((st_timeWrites_6.hw.quality = 3 ∨ st_timeWrites_6.hw.on TIM_CTL_SET_EN = true)) := by decide +kernel

theorem test_timeWrites_6 : holdsAfter (.timSetWrite (.mspi : Requester) (1 : Word)) (st_timeWrites_6) (fun x => decide (x.hw.time = { st_timeWrites_6.hw.time with setPend := some (timeOf ((st_timeWrites_6.hw.heldOr (.mspi : Requester) TIM_SET_SLO (st_timeWrites_6.hw.reg TIM_SET_SLO)).toNat + 2 ^ 32 * bits (1 : Word) 15 0) (bits (st_timeWrites_6.hw.heldOr (.mspi : Requester) TIM_SET_NS (st_timeWrites_6.hw.reg TIM_SET_NS)) 29 0) (st_timeWrites_6.hw.heldOr (.mspi : Requester) TIM_SET_FRAC (st_timeWrites_6.hw.reg TIM_SET_FRAC)).toNat) } ∧ x.hw.on TIM_STATUS_SET_PEND = true)) = true := by decide +kernel

def st_timeWrites_7 : State := with_ (fun h => h.put TIM_STATUS_QUALITY 0)

theorem wit_timeWrites_7 : (st_timeWrites_7.hw.writable (.mspi : Requester) = true) ∧ (st_timeWrites_7.hw.running = true) ∧
    ((999999999 < bits (st_timeWrites_7.hw.heldOr (.mspi : Requester) TIM_SET_NS (st_timeWrites_7.hw.reg TIM_SET_NS)) 29 0 ∨
    st_timeWrites_7.hw.quality ≠ 3 ∧ st_timeWrites_7.hw.on TIM_CTL_SET_EN = false)) := by decide +kernel

theorem test_timeWrites_7 : holdsAfter (.timSetWrite (.mspi : Requester) (1 : Word)) (st_timeWrites_7) (fun x => decide (x.hw.time = st_timeWrites_7.hw.time ∧ x.hw.on TIM_STATUS_STEP_REJ = true ∧ x.hw.on (statusBit srcTimeStepReject) = true)) = true := by decide +kernel

def st_timeWrites_8 : State := { up with frozen := some { up.hw with time := { up.hw.time with now := 77 } } }

theorem wit_timeWrites_8 : (st_timeWrites_8.hw.readable (.mspi : Requester) = true) ∧
    (st_timeWrites_8.frozen = some ({ up.hw with time := { up.hw.time with now := 77 } } : Hw)) := by decide +kernel

theorem test_timeWrites_8 : holdsAfter (.timNowRead (.mspi : Requester) (39 : Nat)) (st_timeWrites_8) (fun x => decide (x.rdata = [BitVec.ofNat 32 (fracOf ({ up.hw with time := { up.hw.time with now := 77 } } : Hw).time.now)] ∧ x.hw.regs = st_timeWrites_8.hw.regs)) = true := by decide +kernel

def st_timeWrites_9 : State := with_ (fun h => { h with time := { h.time with now := timeOf 12345678901 99 7 } })

theorem wit_timeWrites_9 : (st_timeWrites_9.hw.readable (.mspi : Requester) = true) ∧ (st_timeWrites_9.frozen = none) := by decide +kernel

theorem test_timeWrites_9 : holdsAfter (.timNowRead (.mspi : Requester) (39 : Nat)) (st_timeWrites_9) (fun x => decide (x.rdata = [BitVec.ofNat 32 (fracOf (st_timeWrites_9.hw.time.now + (39 : Nat) % 40 * st_timeWrites_9.hw.incrNow / 40))] ∧ x.hw.latched (.mspi : Requester) TIM_NOW_NS = some (BitVec.ofNat 32 (nsOf (st_timeWrites_9.hw.time.now + (39 : Nat) % 40 * st_timeWrites_9.hw.incrNow / 40))) ∧ x.hw.latched (.mspi : Requester) TIM_NOW_SLO = some (BitVec.ofNat 32 (secOf (st_timeWrites_9.hw.time.now + (39 : Nat) % 40 * st_timeWrites_9.hw.incrNow / 40))) ∧ x.hw.latched (.mspi : Requester) TIM_NOW_SHI = some (BitVec.ofNat 32 (secOf (st_timeWrites_9.hw.time.now + (39 : Nat) % 40 * st_timeWrites_9.hw.incrNow / 40) / 2 ^ 32)) ∧ x.hw.regs = st_timeWrites_9.hw.regs)) = true := by decide +kernel

def st_timeWrites_10 : State := with_ (fun h => { (h.put TIM_STATUS_SET_DONE 1).put TIM_STATUS_QUALITY 2 with time := { h.time with lastValid := some 0 } })

theorem wit_timeWrites_10 : (st_timeWrites_10.hw.writable (.portB : Requester) = true) ∧ (st_timeWrites_10.hw.running = true) ∧
    (natBit (0x80000000 : Word).toNat 31 = true) ∧ (st_timeWrites_10.hw.on TIM_STATUS_SET_DONE = true) ∧
    (st_timeWrites_10.hw.time.lastValid = some (0 : Nat)) ∧
    (st_timeWrites_10.hw.ns ≤ (0 : Nat) + st_timeWrites_10.hw.holdoverNs) ∧ (2 ≤ st_timeWrites_10.hw.quality) := by decide +kernel

theorem test_timeWrites_10 : holdsAfter (.timLock (.portB : Requester) (0x80000000 : Word)) (st_timeWrites_10) (fun x => decide (x.hw.quality = 0 ∧ x.hw.released = true)) = true := by decide +kernel

def st_timeWrites_11 : State := up

theorem wit_timeWrites_11 : (st_timeWrites_11.hw.writable (.mspi : Requester) = true) ∧ (st_timeWrites_11.hw.running = true) ∧
    (natBit (0x80000000 : Word).toNat 31 = true) ∧ ((st_timeWrites_11.hw.on TIM_STATUS_SET_DONE = false ∨
    st_timeWrites_11.hw.time.lastValid.all (fun t => decide (t + st_timeWrites_11.hw.holdoverNs < st_timeWrites_11.hw.ns)) = true)) := by decide +kernel

theorem test_timeWrites_11 : holdsAfter (.timLock (.mspi : Requester) (0x80000000 : Word)) (st_timeWrites_11) (fun x => decide (x.hw.quality = st_timeWrites_11.hw.quality ∧ x.hw.on TIM_STATUS_LOCK_REFUSED = true)) = true := by decide +kernel

def st_timeWrites_12 : State := with_ (fun h => { h.put TIM_STATUS_QUALITY 0 with time := { h.time with lastValid := some 0, tick := 10 ^ 12 } })

theorem wit_timeWrites_12 : (st_timeWrites_12.hw.live = true) ∧ (st_timeWrites_12.hw.time.lastValid = some (0 : Nat)) ∧
    (st_timeWrites_12.hw.quality = 0) ∧
    (st_timeWrites_12.hw.due ((0 : Nat) + st_timeWrites_12.hw.holdoverNs) = true) ∧
    ((st_timeWrites_12.hw.port .a).timeMsgs = []) ∧ ((st_timeWrites_12.hw.port .b).timeMsgs = []) := by decide +kernel

theorem test_timeWrites_12 : holdsAfter (.timeHoldover) (st_timeWrites_12) (fun x => decide (x.hw.quality = 1 ∧ x.hw.on (statusBit srcTimeHoldover) = true ∧ x.hw.time = { st_timeWrites_12.hw.time with holdoverSince := st_timeWrites_12.hw.ns })) = true := by decide +kernel

def st_timeWrites_13 : State := with_ (fun h => { (h.put TIM_STATUS_QUALITY 1).put TIM_FREE_TO_FREE_S 1 with time := { h.time with tick := 10 ^ 12 } })

theorem wit_timeWrites_13 : (st_timeWrites_13.hw.live = true) ∧ (st_timeWrites_13.hw.quality = 1) ∧
    (st_timeWrites_13.hw.get TIM_FREE_TO_FREE_S ≠ 0) ∧
    (st_timeWrites_13.hw.due (st_timeWrites_13.hw.time.holdoverSince + st_timeWrites_13.hw.get TIM_FREE_TO_FREE_S * 1000000000) = true) := by decide +kernel

theorem test_timeWrites_13 : holdsAfter (.freeTimeout) (st_timeWrites_13) (fun x => decide (x = { st_timeWrites_13 with hw := st_timeWrites_13.hw.put TIM_STATUS_QUALITY 2 })) = true := by decide +kernel

def st_timeFrames_1 : State := with_ (fun h => h.setPort .b { h.net.portB with timeMsgs := [{ frame := { ty := 0x20, cls := 0, rsp := false, sr := false, flg := false, src := 7, dst := 3, seq := 1, epoch := 0, hops := 1, payload := [1, 0, 0, 9] ++ zeros 44 }, stamp := 5 }] })

def v_timeFrames_1_m : PortMsg := { frame := { ty := 0x20, cls := 0, rsp := false, sr := false, flg := false, src := 7, dst := 3, seq := 1, epoch := 0, hops := 1, payload := [1, 0, 0, 9] ++ zeros 44 }, stamp := 5 }

theorem wit_timeFrames_1 : (st_timeFrames_1.hw.live = true) ∧
    (((st_timeFrames_1.hw.port (.b : Port)).timeMsgs.find? (fun y => decide (timeMsg y.frame = 1))) = some v_timeFrames_1_m) := by decide +kernel

theorem test_timeFrames_1 : holdsAfter (.timeSync (.b : Port)) (st_timeFrames_1) (fun x => decide (x.hw.get (TIM_RX_INFO_MSGSEQ (portNo (.b : Port))) = timeMsgSeq v_timeFrames_1_m.frame % 2 ^ 16 ∧ x.hw.get (TIM_RX_INFO_COUNT (portNo (.b : Port))) = (st_timeFrames_1.hw.get (TIM_RX_INFO_COUNT (portNo (.b : Port))) + 1) % 2 ^ 8 ∧ x.hw.time.lastValid = some st_timeFrames_1.hw.ns ∧ x.hw.get64 (TIM_RX_DIFF_LO_FRAC (portNo (.b : Port))) (TIM_RX_DIFF_HI_NS (portNo (.b : Port))) = ofSigned 64 (satDiff ((v_timeFrames_1_m.stamp : Int) - ((timeOrig v_timeFrames_1_m.frame : Int) + timeCorr v_timeFrames_1_m.frame))) ∧ x.hw.on (TIM_RX_INFO_SAT (portNo (.b : Port))) = decide (satDiff ((v_timeFrames_1_m.stamp : Int) - ((timeOrig v_timeFrames_1_m.frame : Int) + timeCorr v_timeFrames_1_m.frame)) ≠ (v_timeFrames_1_m.stamp : Int) - ((timeOrig v_timeFrames_1_m.frame : Int) + timeCorr v_timeFrames_1_m.frame)))) = true := by decide +kernel

def st_timeFrames_2 : State := with_ (fun h => (h.put SYS_HUB_ID_ID 3).setPort .a { h.net.portA with timeMsgs := [{ frame := { ty := 0x20, cls := 0, rsp := false, sr := false, flg := false, src := 7, dst := 3, seq := 1, epoch := 0, hops := 1, payload := [2, 0, 0, 9] ++ zeros 44 }, stamp := 5 }] })

def v_timeFrames_2_m : PortMsg := { frame := { ty := 0x20, cls := 0, rsp := false, sr := false, flg := false, src := 7, dst := 3, seq := 1, epoch := 0, hops := 1, payload := [2, 0, 0, 9] ++ zeros 44 }, stamp := 5 }

theorem wit_timeFrames_2 : (st_timeFrames_2.hw.live = true) ∧
    (((st_timeFrames_2.hw.port (.a : Port)).timeMsgs.find? (fun y => decide (timeMsg y.frame = 2))) = some v_timeFrames_2_m) ∧
    (st_timeFrames_2.hw.classRoom 0 = true) ∧ (st_timeFrames_2.hw.get SYS_HUB_ID_ID ≠ 0) := by decide +kernel

theorem test_timeFrames_2 : holdsAfter (.timePing (.a : Port)) (st_timeFrames_2) (fun x => decide (x.hw.time.lastValid = some st_timeFrames_2.hw.ns ∧ x.hw.net.egress.length = st_timeFrames_2.hw.net.egress.length + 1 ∧ x.hw.net.egress.getLast?.map (fun d => (d.pong, d.frame.dst, d.sentA, d.sentB)) = some (true, v_timeFrames_2_m.frame.src, decide ((.a : Port) = .b), decide ((.a : Port) = .a)))) = true := by decide +kernel

def st_strobes_1 : State := with_ (fun h => { h.setGrp 7 { group0 with armed := true, grid := { m := 1, f := 0, d := 0, frac := 0, per := 1000, ph := 0 }, last := some 5 } with time := { h.time with now := 910 * 2 ^ 32 } })

theorem wit_strobes_1 : (st_strobes_1.hw.live = true) ∧ ((7 : Nat) < 8) ∧ (st_strobes_1.hw.released = true) ∧
    ((st_strobes_1.hw.grp (7 : Nat)).armed = true) ∧ ((st_strobes_1.hw.grp (7 : Nat)).placed = none) ∧
    (((st_strobes_1.hw.grp (7 : Nat)).soon = false ∨
    (st_strobes_1.hw.grp (7 : Nat)).resetAt ≠ some ((st_strobes_1.hw.grp (7 : Nat)).atOrAfter (st_strobes_1.hw.grp (7 : Nat)).floor) ∧
    (st_strobes_1.hw.grp (7 : Nat)).origin ≠ some ((st_strobes_1.hw.grp (7 : Nat)).atOrAfter (st_strobes_1.hw.grp (7 : Nat)).floor))) ∧
    ((st_strobes_1.hw.grp (7 : Nat)).countIn (st_strobes_1.hw.grp (7 : Nat)).floor (st_strobes_1.hw.time.now + 80 * nsUnit) = 0) ∧
    (((st_strobes_1.hw.grp (7 : Nat)).atOrAfter (max (st_strobes_1.hw.grp (7 : Nat)).floor (st_strobes_1.hw.time.now + 80 * nsUnit))) < st_strobes_1.hw.time.now + 80 * nsUnit + st_strobes_1.hw.incrNow) := by decide +kernel

theorem test_strobes_1 : holdsAfter (.strobePlace (7 : Nat)) (st_strobes_1) (fun x => decide ((x.hw.grp (7 : Nat)).placed = some { instant := ((st_strobes_1.hw.grp (7 : Nat)).atOrAfter (max (st_strobes_1.hw.grp (7 : Nat)).floor (st_strobes_1.hw.time.now + 80 * nsUnit))), tick := st_strobes_1.hw.ns, coarse := (coarseFine ((st_strobes_1.hw.grp (7 : Nat)).atOrAfter (max (st_strobes_1.hw.grp (7 : Nat)).floor (st_strobes_1.hw.time.now + 80 * nsUnit))) st_strobes_1.hw.time.now st_strobes_1.hw.incrNow).1, fine := (coarseFine ((st_strobes_1.hw.grp (7 : Nat)).atOrAfter (max (st_strobes_1.hw.grp (7 : Nat)).floor (st_strobes_1.hw.time.now + 80 * nsUnit))) st_strobes_1.hw.time.now st_strobes_1.hw.incrNow).2 } ∧ x.hw.regs = st_strobes_1.hw.regs)) = true := by decide +kernel

def st_strobes_2 : State := with_ (fun h => (((h.put (SMP_CH_EN 5) 1).put (SMP_CH_GROUP 5) 3).put (SMP_CH_EN 319) 1).setGrp 3 { group0 with armed := true, origin := some 0, grid := { m := 1, f := 0, d := 0, frac := 0, per := 1000, ph := 0 }, placed := some { instant := 2000 * 2 ^ 32, tick := 0, coarse := 30, fine := 0 } })

theorem wit_strobes_2 : (st_strobes_2.hw.live = true) ∧ ((3 : Nat) < 8) ∧
    (st_strobes_2.hw.strobeInstant (3 : Nat) = some (2000 * 2 ^ 32 : Nat)) ∧
    (((st_strobes_2.hw.settleFor (3 : Nat) (2000 * 2 ^ 32 : Nat)).grp (3 : Nat)).indexOf (2000 * 2 ^ 32 : Nat) = some ((2 : Nat),
    (0 : Nat))) := by decide +kernel

theorem test_strobes_2 : holdsAfter (.groupStrobe (3 : Nat)) (st_strobes_2) (fun x => decide ((x.hw.grp (3 : Nat)).last = some (2000 * 2 ^ 32 : Nat) ∧ (x.hw.grp (3 : Nat)).placed = none ∧ (st_strobes_2.hw.members (3 : Nat)).all (fun ch => (storeGet (fun _ => none) x.hw.smp.held ch).any (fun y => decide (y.ch = ch ∧ y.instant = (2000 * 2 ^ 32 : Nat) ∧ y.raw = (2 : Nat)))) = true)) = true := by decide +kernel

def st_strobes_3 : State := with_ (fun h => h.setGrp 3 { group0 with armed := true, resetAt := some 0, resetSrc := 1, skips := [(1, 2)] })

theorem wit_strobes_3 : (st_strobes_3.hw.live = true) ∧ ((3 : Nat) < 8) ∧ (st_strobes_3.hw.resetNow (3 : Nat) = some (0 : Nat)) := by decide +kernel

theorem test_strobes_3 : holdsAfter (.syncReset (3 : Nat)) (st_strobes_3) (fun x => decide ((x.hw.grp (3 : Nat)).origin = some (0 : Nat) ∧ (x.hw.grp (3 : Nat)).skips = [] ∧ (x.hw.xing 4).busy = true)) = true := by decide +kernel

def st_strobes_4 : State := with_ (fun h => { h with smp := { h.smp with syncOut := [(3, 9), (10 ^ 12, 10 ^ 13)] } })

theorem wit_strobes_4 : (st_strobes_4.hw.live = true) ∧ (st_strobes_4.hw.smp.syncOut = ((3, 9) : Nat × Nat) :: ([(10 ^ 12,
    10 ^ 13)] : List (Nat × Nat))) ∧ (st_strobes_4.hw.reached ((3, 9) : Nat × Nat).2 = true) := by decide +kernel

theorem test_strobes_4 : holdsAfter (.syncOutPulseEnd) (st_strobes_4) (fun x => decide (x = { st_strobes_4 with hw := { st_strobes_4.hw with smp := { st_strobes_4.hw.smp with syncOut := ([(10 ^ 12, 10 ^ 13)] : List (Nat × Nat)) } } })) = true := by decide +kernel

def st_strobes_5 : State := with_ (fun h => h.put SMP_SYNC_CTL_IN_EN 1)

theorem wit_strobes_5 : (st_strobes_5.hw.live = true) ∧ (st_strobes_5.hw.on SMP_SYNC_CTL_IN_EN = true) ∧
    (st_strobes_5.hw.on SMP_SYNC_CTL_IN_EDGE = !(true : Bool)) ∧ (st_strobes_5.hw.syncPending 1 = false) := by decide +kernel

theorem test_strobes_5 : holdsAfter (.syncInEdge (true : Bool)) (st_strobes_5) (fun x => decide (x.hw.smp.pinWait = some 2 ∧ x.hw.smp.reqs = st_strobes_5.hw.smp.reqs)) = true := by decide +kernel

def st_strobes_6 : State := with_ (fun h => { h.put SMP_SYNC_CTL_IN_EN 1 with smp := { h.smp with pinWait := some 1 } })

theorem wit_strobes_6 : (st_strobes_6.hw.live = true) ∧ (st_strobes_6.hw.on SMP_SYNC_CTL_IN_EN = true) ∧
    (st_strobes_6.hw.on SMP_SYNC_CTL_IN_EDGE = !(true : Bool)) ∧ (st_strobes_6.hw.syncPending 1 = true) := by decide +kernel

theorem test_strobes_6 : holdsAfter (.syncInEdge (true : Bool)) (st_strobes_6) (fun x => decide (x.hw.on SMP_SYNC_STATUS_IN_MERGED = true ∧ x.hw.smp = st_strobes_6.hw.smp)) = true := by decide +kernel

def st_strobes_7 : State := with_ (fun h => h.setHeld .mspi SMP_SYNC_T0 (some 12))

theorem wit_strobes_7 : (st_strobes_7.hw.writable (.mspi : Requester) = true) ∧ (natBit (0x80FF0000 : Word).toNat 31 = true) := by decide +kernel

theorem test_strobes_7 : holdsAfter (.syncScheduleArm (.mspi : Requester) (0x80FF0000 : Word)) (st_strobes_7) (fun x => decide (x.hw.smp.armReq = some ((timeOf ((st_strobes_7.hw.heldOr (.mspi : Requester) SMP_SYNC_T1 (st_strobes_7.hw.reg SMP_SYNC_T1)).toNat + 2 ^ 32 * bits (0x80FF0000 : Word) 15 0) (bits (st_strobes_7.hw.heldOr (.mspi : Requester) SMP_SYNC_T0 (st_strobes_7.hw.reg SMP_SYNC_T0)) 29 0) 0), bits (0x80FF0000 : Word) 23 16, st_strobes_7.hw.time.tick) ∧ x.hw.on SMP_SYNC_STATUS_SCHED_PEND = true)) = true := by decide +kernel

def st_strobes_8 : State := with_ (fun h => { h.setGrp 1 { group0 with resetAt := some 9, resetSrc := 4 } with smp := { (h.setGrp 1 { group0 with resetAt := some 9, resetSrc := 4 }).smp with armReq := some (1, 2, 3) } })

theorem wit_strobes_8 : (st_strobes_8.hw.writable (.mspi : Requester) = true) ∧ (natBit (0 : Word).toNat 31 = false) := by decide +kernel

theorem test_strobes_8 : holdsAfter (.syncScheduleCancel (.mspi : Requester) (0 : Word)) (st_strobes_8) (fun x => decide (x.hw.smp.armReq = none ∧ x.hw.syncPending 2 = false ∧ x.hw.on SMP_SYNC_STATUS_SCHED_PEND = false)) = true := by decide +kernel

def st_strobes_9 : State := with_ (fun h => { h with smp := { h.smp with armReq := some (0, 255, 0) }, time := { h.time with tick := 1 } })

theorem wit_strobes_9 : (st_strobes_9.hw.live = true) ∧ (st_strobes_9.hw.smp.armReq = some ((0 : Nat), (255 : Nat), (0 : Nat))) ∧
    ((0 : Nat) < st_strobes_9.hw.time.tick) ∧ (st_strobes_9.hw.boundaryFrom (0 : Nat) ≤ st_strobes_9.hw.time.now) := by decide +kernel

theorem test_strobes_9 : holdsAfter (.syncScheduleEval) (st_strobes_9) (fun x => decide (x.hw.smp.armReq = none ∧ (st_strobes_9.hw.on SMP_SYNC_CTL_LATE_ACT = false → x.hw.smp.reqs = st_strobes_9.hw.smp.reqs) ∧ x.hw.on SMP_SYNC_STATUS_LATE = true ∧ x.hw.on (statusBit srcSyncLate) = true)) = true := by decide +kernel

def st_strobes_10 : State := with_ (fun h => { h with smp := { h.smp with armReq := some (10 ^ 13, 255, 0) }, time := { h.time with tick := 1 } })

theorem wit_strobes_10 : (st_strobes_10.hw.live = true) ∧ (st_strobes_10.hw.smp.armReq = some ((10 ^ 13 : Nat), (255 : Nat), (0 : Nat))) ∧
    ((0 : Nat) < st_strobes_10.hw.time.tick) ∧
    (st_strobes_10.hw.reached (st_strobes_10.hw.boundaryFrom (10 ^ 13 : Nat)) = false) ∧ ((255 : Nat) ≠ 0) := by decide +kernel

theorem test_strobes_10 : holdsAfter (.syncScheduleEval) (st_strobes_10) (fun x => decide (x.hw.smp.armReq = none ∧ x.hw.smp.reqs.any (fun r => decide (r.time = (10 ^ 13 : Nat) ∧ r.mask = (255 : Nat) ∧ r.src = 4)) = true)) = true := by decide +kernel

def st_clockDomains_1a : State := with_ (fun h => { h.setGrp 7 { group0 with armed := true, grid := { m := 1, f := 0, d := 0, frac := 0, per := 1000, ph := 0 }, last := some 5 } with clk := { h.clk with core := dom0 } })

theorem wit_clockDomains_1a : (st_clockDomains_1a.hw.live = true) ∧ ((Instr.domainWakeStart (.strobe 7 : WakeEntry)).wf = true) ∧
    (([Domain.timing, .core,
    .stitch] ++ st_clockDomains_1a.hw.servingCores.map Domain.conv).contains (.core : Domain) = true) ∧
    ((st_clockDomains_1a.hw.dom (.core : Domain)).mode = .off) ∧ (st_clockDomains_1a.hw.boot.refclkLost = false ∧
    st_clockDomains_1a.hw.boot.phase ≠ .otp) ∧ (needsDomain (.strobe 7 : WakeEntry) (.core : Domain) = true) ∧
    (st_clockDomains_1a.hw.nextEntryAt (.strobe 7 : WakeEntry) = some (1000 * 2 ^ 32 : Nat)) ∧
    (st_clockDomains_1a.hw.reached ((1000 * 2 ^ 32 : Nat) - wakeLead (.strobe 7 : WakeEntry) (.core : Domain) * nsUnit) = true) := by decide +kernel

theorem test_clockDomains_1a : holdsAfter (.domainWakeStart (.strobe 7 : WakeEntry)) (st_clockDomains_1a) (fun x => decide ((x.hw.dom (.core : Domain)).mode = .waking ∧ x.hw.regs = st_clockDomains_1a.hw.regs)) = true := by decide +kernel

def st_clockDomains_1b : State := with_ (fun h => { h.put SEQ_CAL_RGN_EN 1 with clk := { h.clk with conv := [] }, time := { h.time with tick := 2500000 } })

theorem wit_clockDomains_1b : (st_clockDomains_1b.hw.live = true) ∧ ((Instr.domainWakeStart (.calibration : WakeEntry)).wf = true) ∧
    (([Domain.timing, .core,
    .stitch] ++ st_clockDomains_1b.hw.servingCores.map Domain.conv).contains (.conv 7 : Domain) = true) ∧
    ((st_clockDomains_1b.hw.dom (.conv 7 : Domain)).mode = .off) ∧ (st_clockDomains_1b.hw.boot.refclkLost = false ∧
    st_clockDomains_1b.hw.boot.phase ≠ .otp) ∧ (needsDomain (.calibration : WakeEntry) (.conv 7 : Domain) = true) ∧
    (st_clockDomains_1b.hw.nextEntryAt (.calibration : WakeEntry) = some (0 : Nat)) ∧
    (st_clockDomains_1b.hw.reached ((0 : Nat) - wakeLead (.calibration : WakeEntry) (.conv 7 : Domain) * nsUnit) = true) := by decide +kernel

theorem test_clockDomains_1b : holdsAfter (.domainWakeStart (.calibration : WakeEntry)) (st_clockDomains_1b) (fun x => decide ((x.hw.dom (.conv 7 : Domain)).mode = .waking ∧ x.hw.regs = st_clockDomains_1b.hw.regs)) = true := by decide +kernel

def st_clockDomains_2a : State := with_ (fun h => { h with clk := { h.clk with core := dom0 } })

theorem wit_clockDomains_2a : (st_clockDomains_2a.hw.live = true) ∧ (st_clockDomains_2a.hw.clk.core.mode = .off) ∧
    (st_clockDomains_2a.hw.boot.refclkLost = false ∧ st_clockDomains_2a.hw.boot.phase ≠ .otp) := by decide +kernel

theorem test_clockDomains_2a : holdsAfter (.coreWakeDemand (.frame : Demand)) (st_clockDomains_2a) (fun x => decide (x.hw.clk.core.mode = .waking)) = true := by decide +kernel

def st_clockDomains_2b : State := with_ (fun h => { h with clk := { h.clk with core := dom0 } })

theorem wit_clockDomains_2b : (st_clockDomains_2b.hw.live = true) ∧ (st_clockDomains_2b.hw.clk.core.mode = .off) ∧
    (st_clockDomains_2b.hw.boot.refclkLost = false ∧ st_clockDomains_2b.hw.boot.phase ≠ .otp) := by decide +kernel

theorem test_clockDomains_2b : holdsAfter (.coreWakeDemand (.partner .b : Demand)) (st_clockDomains_2b) (fun x => decide (x.hw.clk.core.mode = .waking)) = true := by decide +kernel

def st_clockDomains_3 : State := with_ (fun h => { h with clk := { h.clk with core := dom0 } })

theorem wit_clockDomains_3 : (st_clockDomains_3.hw.live = true) ∧ (st_clockDomains_3.hw.clk.core.mode = .off) ∧
    (st_clockDomains_3.hw.boot.refclkLost = false ∧ st_clockDomains_3.hw.boot.phase ≠ .otp) ∧
    (storeGet (fun _ => 0) st_clockDomains_3.hw.clk.sideband (2 : Nat) < 16) ∧ ((1 : Nat) < 16) ∧
    ((1 : Nat) ≠ storeGet (fun _ => 0) st_clockDomains_3.hw.clk.sideband (2 : Nat)) := by decide +kernel

theorem test_clockDomains_3 : holdsAfter (.sidebandEvent (2 : Nat) (1 : Nat)) (st_clockDomains_3) (fun x => decide (x.hw.clk.core.mode = .waking ∧ storeGet (fun _ => 0) x.hw.clk.sideband (2 : Nat) = (1 : Nat))) = true := by decide +kernel

def st_clockDomains_4a : State := with_ (fun h => h.setDom (.conv 8) { mode := .waking, again := false, since := 0 })

theorem wit_clockDomains_4a : (st_clockDomains_4a.hw.live = true) ∧ (isDomain (.conv 8 : Domain) = true) ∧
    ((st_clockDomains_4a.hw.dom (.conv 8 : Domain)).mode = .waking) ∧ ((∀ c, (.conv 8 : Domain) = .conv c →
    st_clockDomains_4a.hw.clk.timing.mode = .on)) := ⟨by decide +kernel, by decide +kernel, by decide +kernel, fun _ _ => by decide +kernel⟩

theorem test_clockDomains_4a : holdsAfter (.domainWakeDone (.conv 8 : Domain)) (st_clockDomains_4a) (fun x => decide ((x.hw.dom (.conv 8 : Domain)).mode = .on)) = true := by decide +kernel

def st_clockDomains_4b : State := with_ (fun h => h.setDom .core { mode := .waking, again := false, since := 0 })

theorem wit_clockDomains_4b : (st_clockDomains_4b.hw.live = true) ∧ (isDomain (.core : Domain) = true) ∧
    ((st_clockDomains_4b.hw.dom (.core : Domain)).mode = .waking) ∧ ((∀ c, (.core : Domain) = .conv c →
    st_clockDomains_4b.hw.clk.timing.mode = .on)) := ⟨by decide +kernel, by decide +kernel, by decide +kernel, fun _ _ => by decide +kernel⟩

theorem test_clockDomains_4b : holdsAfter (.domainWakeDone (.core : Domain)) (st_clockDomains_4b) (fun x => decide ((x.hw.dom (.core : Domain)).mode = .on)) = true := by decide +kernel

def st_clockDomains_5 : State := with_ (fun h => h.put CLK_SLEEP_CTL_CONV_EN 1)

theorem wit_clockDomains_5 : (st_clockDomains_5.hw.live = true) ∧ (isDomain (.conv 8 : Domain) = true) ∧
    ((st_clockDomains_5.hw.dom (.conv 8 : Domain)).mode = .on) ∧
    (st_clockDomains_5.hw.on (sleepEn (.conv 8 : Domain)) = true) ∧
    (st_clockDomains_5.hw.pendingWork (.conv 8 : Domain) = false) ∧
    (st_clockDomains_5.hw.farAhead (.conv 8 : Domain) = true) := by decide +kernel

theorem test_clockDomains_5 : holdsAfter (.domainSleep (.conv 8 : Domain)) (st_clockDomains_5) (fun x => decide (x = { st_clockDomains_5 with hw := st_clockDomains_5.hw.setDom (.conv 8 : Domain) { mode := .entering, again := false, since := st_clockDomains_5.hw.ns } })) = true := by decide +kernel

def st_clockDomains_6 : State := up

theorem wit_clockDomains_6 : (st_clockDomains_6.hw.live = true) ∧ ((7 : Nat) < 8) ∧ ((st_clockDomains_6.hw.xing (7 : Nat)).busy = false) := by decide +kernel

theorem test_clockDomains_6 : holdsAfter (.xingRequest (7 : Nat)) (st_clockDomains_6) (fun x => decide ((x.hw.xing (7 : Nat)).busy = true ∧ (x.hw.xing (7 : Nat)).pending = (st_clockDomains_6.hw.xing (7 : Nat)).pending ∧ x.hw.regs = st_clockDomains_6.hw.regs)) = true := by decide +kernel

def st_clockDomains_7 : State := with_ (fun h => h.setXing 2 { busy := true, pending := 254, acted := false })

theorem wit_clockDomains_7 : (st_clockDomains_7.hw.live = true) ∧ ((2 : Nat) < 8) ∧ ((st_clockDomains_7.hw.xing (2 : Nat)).busy = true) ∧
    ((st_clockDomains_7.hw.xing (2 : Nat)).pending < 255) := by decide +kernel

theorem test_clockDomains_7 : holdsAfter (.xingRequest (2 : Nat)) (st_clockDomains_7) (fun x => decide ((x.hw.xing (2 : Nat)).busy = true ∧ (x.hw.xing (2 : Nat)).pending = (st_clockDomains_7.hw.xing (2 : Nat)).pending + 1 ∧ x.hw.regs = st_clockDomains_7.hw.regs)) = true := by decide +kernel

def st_clockDomains_8 : State := with_ (fun h => h.setXing 6 { busy := true, pending := 255, acted := false })

theorem wit_clockDomains_8 : (st_clockDomains_8.hw.live = true) ∧ ((6 : Nat) < 8) ∧ ((st_clockDomains_8.hw.xing (6 : Nat)).busy = true) ∧
    ((st_clockDomains_8.hw.xing (6 : Nat)).pending = 255) := by decide +kernel

theorem test_clockDomains_8 : holdsAfter (.xingRequest (6 : Nat)) (st_clockDomains_8) (fun x => decide ((x.hw.xing (6 : Nat)).busy = true ∧ (x.hw.xing (6 : Nat)).pending = 255 ∧ x.hw.on (xingOvr (6 : Nat)) = true)) = true := by decide +kernel

def st_clockDomains_9 : State := with_ (fun h => h.setXing 7 { busy := true, pending := 1, acted := true })

theorem wit_clockDomains_9 : (st_clockDomains_9.hw.live = true) ∧ ((7 : Nat) < 8) ∧ (st_clockDomains_9.hw.ackSeen (7 : Nat) = true) ∧
    (0 < (st_clockDomains_9.hw.xing (7 : Nat)).pending) := by decide +kernel

theorem test_clockDomains_9 : holdsAfter (.xingAck (7 : Nat)) (st_clockDomains_9) (fun x => decide ((x.hw.xing (7 : Nat)).busy = true ∧ (x.hw.xing (7 : Nat)).pending = (st_clockDomains_9.hw.xing (7 : Nat)).pending - 1)) = true := by decide +kernel

def st_clockDomains_10 : State := with_ (fun h => h.setXing 3 { busy := true, pending := 0, acted := true })

theorem wit_clockDomains_10 : (st_clockDomains_10.hw.live = true) ∧ ((3 : Nat) < 8) ∧ (st_clockDomains_10.hw.ackSeen (3 : Nat) = true) ∧
    ((st_clockDomains_10.hw.xing (3 : Nat)).pending = 0) := by decide +kernel

theorem test_clockDomains_10 : holdsAfter (.xingAck (3 : Nat)) (st_clockDomains_10) (fun x => decide (x.hw.xing (3 : Nat) = crossing0)) = true := by decide +kernel

def st_clockDomains_11 : State := up

theorem wit_clockDomains_11 : (st_clockDomains_11.hw.live = true) ∧ ((8 : Nat) < 9) := by decide +kernel

theorem test_clockDomains_11 : holdsAfter (.queueResync (8 : Nat) 0) (st_clockDomains_11) (fun x => decide (x.hw.get CLK_RESYNC_RESYNCS = satAdd 32 (st_clockDomains_11.hw.get CLK_RESYNC_RESYNCS) 1)) = true := by decide +kernel

def st_clockDomains_12 : State := up

theorem wit_clockDomains_12 : (st_clockDomains_12.hw.live = true) ∧ (((4 : Nat) = 3 ∨ (4 : Nat) = 4)) := by decide +kernel

theorem test_clockDomains_12 : holdsAfter (.queueResync (4 : Nat) 1) (st_clockDomains_12) (fun x => decide (x.hw.get CLK_RESYNC_RESYNCS = satAdd 32 (st_clockDomains_12.hw.get CLK_RESYNC_RESYNCS) 1)) = true := by decide +kernel

def st_clockDomains_13 : State := up

theorem wit_clockDomains_13 : (st_clockDomains_13.hw.live = true) ∧ ((0 : Nat) < 9) ∧ ((0 : Nat) ≠ 3) ∧ ((0 : Nat) ≠ 4) := by decide +kernel

theorem test_clockDomains_13 : holdsAfter (.queueResync (0 : Nat) 1) (st_clockDomains_13) (fun x => decide (x = st_clockDomains_13)) = true := by decide +kernel

def st_slotAndStitch_1 : State := with_ (fun h => { h with adc := { h.adc with jobs := [{ pos := 2, slot := 3, ch := 17, done := false }] }, time := { h.time with now := 64 * 2 ^ 32 } })

theorem wit_slotAndStitch_1 : (st_slotAndStitch_1.hw.live = true) ∧ (st_slotAndStitch_1.hw.convOn ((2 : Nat)) = true) ∧
    (st_slotAndStitch_1.hw.smp.lastBoundary = some (0 : Nat)) ∧ ((3 : Nat) < st_slotAndStitch_1.hw.slots) ∧
    (st_slotAndStitch_1.hw.slotAt ((2 : Nat)) ≤ (3 : Nat)) ∧
    (st_slotAndStitch_1.hw.reached ((0 : Nat) + 16 * ((3 : Nat) + 1) * nsUnit) = true) ∧ ((2 : Nat) < 8) ∧
    (st_slotAndStitch_1.hw.dueBefore (0 : Nat) (2 : Nat) (3 : Nat) = false) ∧
    (st_slotAndStitch_1.hw.adc.jobs.find? (fun y => decide (y.pos = (2 : Nat) ∧
    y.slot = (3 : Nat))) = some ({ pos := 2, slot := 3, ch := 17, done := false } : SlotJob)) := by decide +kernel

theorem test_slotAndStitch_1 : holdsAfter (.slotSample (2 : Nat) (3 : Nat) (0x8001 : BitVec 16) (true : Bool) (1 : Nat)) (st_slotAndStitch_1) (fun x => decide (x.hw.slotAt (2 : Nat) = (3 : Nat) + 1 ∧ x.hw.adc.flight.length = st_slotAndStitch_1.hw.adc.flight.length + 1 ∧ x.hw.adc.flight.getLast?.map (fun f => (f.what, f.code, f.ovr, f.instant)) = some (ConvFor.regular ({ pos := 2, slot := 3, ch := 17, done := false } : SlotJob).ch, (0x8001 : BitVec 16), (true : Bool), (0 : Nat) + 16 * ((3 : Nat) + 1) * nsUnit) ∧ x.hw.adc.jobs.all (fun y => y.done || decide (y.pos ≠ (2 : Nat) ∨ y.slot ≠ (3 : Nat))) = true)) = true := by decide +kernel

def st_slotAndStitch_2 : State := with_ (fun h => { h with adc := { h.adc with run := some { list := 2, pc := 0, stack := [], claims := [.aux 2 3 none, .aux 2 4 none], since := 0, ended := false, start := 0 } }, time := { h.time with now := 80 * 2 ^ 32 } })

def v_slotAndStitch_2_r : ListRun := { list := 2, pc := 0, stack := [], claims := [.aux 2 3 none, .aux 2 4 none], since := 0, ended := false, start := 0 }

theorem wit_slotAndStitch_2 : (st_slotAndStitch_2.hw.live = true) ∧ (st_slotAndStitch_2.hw.convOn ((0 : Nat)) = true) ∧
    (st_slotAndStitch_2.hw.smp.lastBoundary = some (0 : Nat)) ∧ ((4 : Nat) < st_slotAndStitch_2.hw.slots) ∧
    (st_slotAndStitch_2.hw.slotAt ((0 : Nat)) ≤ (4 : Nat)) ∧
    (st_slotAndStitch_2.hw.reached ((0 : Nat) + 16 * ((4 : Nat) + 1) * nsUnit) = true) ∧ ((0 : Nat) < 8) ∧
    (st_slotAndStitch_2.hw.dueBefore (0 : Nat) (0 : Nat) (4 : Nat) = false) ∧
    (st_slotAndStitch_2.hw.adc.jobs.find? (fun y => decide (y.pos = (0 : Nat) ∧ y.slot = (4 : Nat))) = none) ∧
    (st_slotAndStitch_2.hw.coreOf (0 : Nat) ≠ 15) ∧ (st_slotAndStitch_2.hw.adc.run = some v_slotAndStitch_2_r) ∧
    (v_slotAndStitch_2_r.claims = (.aux 2 3 none : ConvFor) :: ([.aux 2 4 none] : List ConvFor)) ∧
    (mayClaim (0 : Nat) (4 : Nat) v_slotAndStitch_2_r.start = true) ∧
    ((st_slotAndStitch_2.hw.forcedSlot (0 : Nat) (4 : Nat) = false ∨
    st_slotAndStitch_2.hw.calNext (0 : Nat) (4 : Nat) 15 = none)) := by decide +kernel

theorem test_slotAndStitch_2 : holdsAfter (.slotSample (0 : Nat) (4 : Nat) (0x8001 : BitVec 16) (true : Bool) (0 : Nat)) (st_slotAndStitch_2) (fun x => decide (x.hw.slotAt (0 : Nat) = (4 : Nat) + 1 ∧ x.hw.adc.flight.getLast?.map (fun f => (f.what, f.code, f.ovr, f.instant)) = some ((.aux 2 3 none : ConvFor), (0x8001 : BitVec 16), (true : Bool), (0 : Nat) + 16 * ((4 : Nat) + 1) * nsUnit) ∧ (([.aux 2 4 none] : List ConvFor) ≠ [] ∨ v_slotAndStitch_2_r.ended = false → x.hw.adc.run = some { v_slotAndStitch_2_r with claims := ([.aux 2 4 none] : List ConvFor) }))) = true := by decide +kernel

def st_slotAndStitch_3 : State := with_ (fun h => { h with adc := { h.adc with calRun := some { pc := 0, stack := [], claims := [{ aux := true, src := 3, acc := 5, core := 15, entry := 0, first := true }], issued := 1, since := 0, ended := false, start := 0 } }, time := { h.time with now := 80 * 2 ^ 32 } })

def v_slotAndStitch_3_r : CalRun := { pc := 0, stack := [], claims := [{ aux := true, src := 3, acc := 5, core := 15, entry := 0, first := true }], issued := 1, since := 0, ended := false, start := 0 }

def v_slotAndStitch_3_k : CalClaim := { aux := true, src := 3, acc := 5, core := 15, entry := 0, first := true }

theorem wit_slotAndStitch_3 : (st_slotAndStitch_3.hw.live = true) ∧ (st_slotAndStitch_3.hw.convOn ((0 : Nat)) = true) ∧
    (st_slotAndStitch_3.hw.smp.lastBoundary = some (0 : Nat)) ∧ ((4 : Nat) < st_slotAndStitch_3.hw.slots) ∧
    (st_slotAndStitch_3.hw.slotAt ((0 : Nat)) ≤ (4 : Nat)) ∧
    (st_slotAndStitch_3.hw.reached ((0 : Nat) + 16 * ((4 : Nat) + 1) * nsUnit) = true) ∧ ((0 : Nat) < 8) ∧
    (st_slotAndStitch_3.hw.dueBefore (0 : Nat) (0 : Nat) (4 : Nat) = false) ∧
    (st_slotAndStitch_3.hw.adc.jobs.find? (fun y => decide (y.pos = (0 : Nat) ∧ y.slot = (4 : Nat))) = none) ∧
    (st_slotAndStitch_3.hw.coreOf (0 : Nat) ≠ 15) ∧ (st_slotAndStitch_3.hw.adc.calRun = some v_slotAndStitch_3_r) ∧
    (st_slotAndStitch_3.hw.calNext (0 : Nat) (4 : Nat) 15 = some v_slotAndStitch_3_k) ∧
    (mayClaim (0 : Nat) (4 : Nat) v_slotAndStitch_3_r.start = true) ∧
    ((st_slotAndStitch_3.hw.forcedSlot (0 : Nat) (4 : Nat) = true ∨ st_slotAndStitch_3.hw.adc.run = none)) := by decide +kernel

theorem test_slotAndStitch_3 : holdsAfter (.slotSample (0 : Nat) (4 : Nat) (0x8001 : BitVec 16) (false : Bool) (0 : Nat)) (st_slotAndStitch_3) (fun x => decide (x.hw.slotAt (0 : Nat) = (4 : Nat) + 1 ∧ x.hw.adc.flight.getLast?.map (fun f => (f.what, f.code, f.ovr, f.instant)) = some (ConvFor.cal v_slotAndStitch_3_k.aux v_slotAndStitch_3_k.src v_slotAndStitch_3_k.acc, (0x8001 : BitVec 16), (false : Bool), (0 : Nat) + 16 * ((4 : Nat) + 1) * nsUnit))) = true := by decide +kernel

def st_slotAndStitch_4 : State := with_ (fun h => { h.put (ADC_CORE_STAT_ROLE 8) 2 with adc := { h.adc with calRun := some { pc := 0, stack := [], claims := [{ aux := true, src := 3, acc := 5, core := 8, entry := 0, first := true }], issued := 1, since := 0, ended := false, start := 0 } }, time := { h.time with now := 80 * 2 ^ 32 } })

def v_slotAndStitch_4_k : CalClaim := { aux := true, src := 3, acc := 5, core := 8, entry := 0, first := true }

theorem wit_slotAndStitch_4 : (st_slotAndStitch_4.hw.live = true) ∧ (st_slotAndStitch_4.hw.convOn (8 + (8 : Nat)) = true) ∧
    (st_slotAndStitch_4.hw.smp.lastBoundary = some (0 : Nat)) ∧ ((4 : Nat) < st_slotAndStitch_4.hw.slots) ∧
    (st_slotAndStitch_4.hw.slotAt (8 + (8 : Nat)) ≤ (4 : Nat)) ∧
    (st_slotAndStitch_4.hw.reached ((0 : Nat) + 16 * ((4 : Nat) + 1) * nsUnit) = true) ∧ ((8 : Nat) < 9) ∧
    (st_slotAndStitch_4.hw.roleOf (8 : Nat) = 2) ∧ (st_slotAndStitch_4.hw.adc.calRun.isSome = true) ∧
    (st_slotAndStitch_4.hw.calNext (0 : Nat) (4 : Nat) (8 : Nat) = some v_slotAndStitch_4_k) := by decide +kernel

theorem test_slotAndStitch_4 : holdsAfter (.slotSample (8 + (8 : Nat)) (4 : Nat) (0x8001 : BitVec 16) (false : Bool) (0 : Nat)) (st_slotAndStitch_4) (fun x => decide (x.hw.slotAt (8 + (8 : Nat)) = (4 : Nat) + 1 ∧ x.hw.adc.flight.getLast?.map (fun f => (f.what, f.code, f.ovr, f.instant)) = some (ConvFor.cal v_slotAndStitch_4_k.aux v_slotAndStitch_4_k.src v_slotAndStitch_4_k.acc, (0x8001 : BitVec 16), (false : Bool), (0 : Nat) + 16 * ((4 : Nat) + 1) * nsUnit))) = true := by decide +kernel

def st_slotAndStitch_5a : State := with_ (fun h => { h with time := { h.time with now := 64 * 2 ^ 32 } })

theorem wit_slotAndStitch_5a : (st_slotAndStitch_5a.hw.live = true) ∧ (st_slotAndStitch_5a.hw.convOn ((7 : Nat)) = true) ∧
    (st_slotAndStitch_5a.hw.smp.lastBoundary = some (0 : Nat)) ∧ ((3 : Nat) < st_slotAndStitch_5a.hw.slots) ∧
    (st_slotAndStitch_5a.hw.slotAt ((7 : Nat)) ≤ (3 : Nat)) ∧
    (st_slotAndStitch_5a.hw.reached ((0 : Nat) + 16 * ((3 : Nat) + 1) * nsUnit) = true) ∧ ((7 : Nat) < 8) ∧
    (st_slotAndStitch_5a.hw.dueBefore (0 : Nat) (7 : Nat) (3 : Nat) = false) ∧
    (st_slotAndStitch_5a.hw.adc.jobs.find? (fun y => decide (y.pos = (7 : Nat) ∧ y.slot = (3 : Nat))) = none) ∧
    (st_slotAndStitch_5a.hw.coreOf (7 : Nat) ≠ 15) ∧ (st_slotAndStitch_5a.hw.adc.run = none) ∧
    (st_slotAndStitch_5a.hw.calNext (0 : Nat) (3 : Nat) 15 = none) := by decide +kernel

theorem test_slotAndStitch_5a : holdsAfter (.slotSample (7 : Nat) (3 : Nat) (0x8001 : BitVec 16) (true : Bool) (1 : Nat)) (st_slotAndStitch_5a) (fun x => decide (x = { st_slotAndStitch_5a with hw := st_slotAndStitch_5a.hw.setSlotAt (7 : Nat) ((3 : Nat) + 1) })) = true := by decide +kernel

def st_slotAndStitch_5b : State := with_ (fun h => { h.put (FE_UNIT_ROLE 359) 2 with adc := { h.adc with calRun := some { pc := 0, stack := [], claims := [{ aux := false, src := 359, acc := 0, core := 15, entry := 0, first := false }], issued := 1, since := 0, ended := false, start := 0, cycle := some 0 } }, time := { h.time with now := 160 * 2 ^ 32 }, cal := { h.cal with runFe := true, feStep := some { unit := 359, inPlace := true, tStart := 0, retries := 0, again := false, plan := [{ setting := 0, input := 3 }], got := [], first := none } } })

theorem wit_slotAndStitch_5b : (st_slotAndStitch_5b.hw.live = true) ∧ (st_slotAndStitch_5b.hw.convOn ((0 : Nat)) = true) ∧
    (st_slotAndStitch_5b.hw.smp.lastBoundary = some (0 : Nat)) ∧ ((9 : Nat) < st_slotAndStitch_5b.hw.slots) ∧
    (st_slotAndStitch_5b.hw.slotAt ((0 : Nat)) ≤ (9 : Nat)) ∧
    (st_slotAndStitch_5b.hw.reached ((0 : Nat) + 16 * ((9 : Nat) + 1) * nsUnit) = true) ∧ ((0 : Nat) < 8) ∧
    (st_slotAndStitch_5b.hw.dueBefore (0 : Nat) (0 : Nat) (9 : Nat) = false) ∧
    (st_slotAndStitch_5b.hw.adc.jobs.find? (fun y => decide (y.pos = (0 : Nat) ∧ y.slot = (9 : Nat))) = none) ∧
    (st_slotAndStitch_5b.hw.coreOf (0 : Nat) ≠ 15) ∧ (st_slotAndStitch_5b.hw.adc.run = none) ∧
    (st_slotAndStitch_5b.hw.calNext (0 : Nat) (9 : Nat) 15 = none) := by decide +kernel

theorem test_slotAndStitch_5b : holdsAfter (.slotSample (0 : Nat) (9 : Nat) (0x8001 : BitVec 16) (true : Bool) (1 : Nat)) (st_slotAndStitch_5b) (fun x => decide (x = { st_slotAndStitch_5b with hw := st_slotAndStitch_5b.hw.setSlotAt (0 : Nat) ((9 : Nat) + 1) })) = true := by decide +kernel

def st_slotAndStitch_6 : State := with_ (fun h => { h with adc := { h.adc with flight := [{ frame := 6, instant := 0, tq := 0, what := .aux 2 20 none, code := 7, ovr := false, flag := false, hold := none, bad := false, cal := false }, { frame := 6, instant := 0, tq := 0, what := .regular 17, code := 0xABCD, ovr := true, flag := false, hold := some { ch := 17, group := 0, instant := 9, raw := 4, origin := 1, enabled := true, isOpen := false, sat := false, flag := false, isolated := false, settle := false, exc := false, cal := false, parked := false, polA := false, polB := false, edgesA := 0, edgesB := 0, frame := 6, tq := 0 }, bad := false, cal := false }], wordFrame := 6, sendSeq := 63, wantSeq := 61, lostRun := 2 }, time := { h.time with now := 200 * 2 ^ 32 } })

def v_slotAndStitch_6_f : Flight := { frame := 6, instant := 0, tq := 0, what := .aux 2 20 none, code := 7, ovr := false, flag := false, hold := none, bad := false, cal := false }

theorem wit_slotAndStitch_6 : (st_slotAndStitch_6.hw.live = true) ∧ (st_slotAndStitch_6.hw.coreOn = true) ∧
    (st_slotAndStitch_6.hw.clk.stitch.mode = .on) ∧
    (st_slotAndStitch_6.hw.adc.flight.head? = some v_slotAndStitch_6_f) ∧
    (st_slotAndStitch_6.hw.reached (v_slotAndStitch_6_f.instant + 192 * nsUnit) = true) ∧
    ((v_slotAndStitch_6_f.frame ≠ st_slotAndStitch_6.hw.adc.wordFrame ∨ st_slotAndStitch_6.hw.adc.frameLost = false ∧
    st_slotAndStitch_6.hw.adc.sendSeq % 64 = (st_slotAndStitch_6.hw.adc.wantSeq + st_slotAndStitch_6.hw.adc.lostRun) % 64)) := by decide +kernel

theorem test_slotAndStitch_6 : holdsAfter (.stitchWordReceive .sample 0) (st_slotAndStitch_6) (fun x => decide (x.hw.adc.flight = st_slotAndStitch_6.hw.adc.flight.drop ((st_slotAndStitch_6.hw.adc.flight.takeWhile (fun y => decide (y.frame = v_slotAndStitch_6_f.frame) && st_slotAndStitch_6.hw.reached (y.instant + 192 * nsUnit))).take 3).length ∧ x.hw.adc.lostRun = 0 ∧ x.hw.adc.wordFrame = v_slotAndStitch_6_f.frame)) = true := by decide +kernel

def st_slotAndStitch_7 : State := with_ (fun h => { h with adc := { h.adc with flight := [{ frame := 6, instant := 0, tq := 0, what := .aux 2 20 none, code := 7, ovr := false, flag := false, hold := none, bad := false, cal := false }, { frame := 6, instant := 0, tq := 0, what := .regular 17, code := 0xABCD, ovr := true, flag := false, hold := some { ch := 17, group := 0, instant := 9, raw := 4, origin := 1, enabled := true, isOpen := false, sat := false, flag := false, isolated := false, settle := false, exc := false, cal := false, parked := false, polA := false, polB := false, edgesA := 0, edgesB := 0, frame := 6, tq := 0 }, bad := false, cal := false }], wordFrame := 6, sendSeq := 63, wantSeq := 61, lostRun := 2 }, time := { h.time with now := 200 * 2 ^ 32 } })

def v_slotAndStitch_7_f : Flight := { frame := 6, instant := 0, tq := 0, what := .aux 2 20 none, code := 7, ovr := false, flag := false, hold := none, bad := false, cal := false }

def v_slotAndStitch_7_g : Flight := { frame := 6, instant := 0, tq := 0, what := .regular 17, code := 0xABCD, ovr := true, flag := false, hold := some { ch := 17, group := 0, instant := 9, raw := 4, origin := 1, enabled := true, isOpen := false, sat := false, flag := false, isolated := false, settle := false, exc := false, cal := false, parked := false, polA := false, polB := false, edgesA := 0, edgesB := 0, frame := 6, tq := 0 }, bad := false, cal := false }

def v_slotAndStitch_7_y : Hold := { ch := 17, group := 0, instant := 9, raw := 4, origin := 1, enabled := true, isOpen := false, sat := false, flag := false, isolated := false, settle := false, exc := false, cal := false, parked := false, polA := false, polB := false, edgesA := 0, edgesB := 0, frame := 6, tq := 0 }

theorem wit_slotAndStitch_7 : (st_slotAndStitch_7.hw.live = true) ∧ (st_slotAndStitch_7.hw.coreOn = true) ∧
    (st_slotAndStitch_7.hw.clk.stitch.mode = .on) ∧
    (st_slotAndStitch_7.hw.adc.flight.head? = some v_slotAndStitch_7_f) ∧
    (st_slotAndStitch_7.hw.reached (v_slotAndStitch_7_f.instant + 192 * nsUnit) = true) ∧
    ((v_slotAndStitch_7_f.frame ≠ st_slotAndStitch_7.hw.adc.wordFrame ∨ st_slotAndStitch_7.hw.adc.frameLost = false ∧
    st_slotAndStitch_7.hw.adc.sendSeq % 64 = (st_slotAndStitch_7.hw.adc.wantSeq + st_slotAndStitch_7.hw.adc.lostRun) % 64)) ∧
    (((st_slotAndStitch_7.hw.adc.flight.takeWhile (fun v_slotAndStitch_7_y => decide (v_slotAndStitch_7_y.frame = v_slotAndStitch_7_f.frame) && st_slotAndStitch_7.hw.reached (v_slotAndStitch_7_y.instant + 192 * nsUnit))).take 3).getLast? = some v_slotAndStitch_7_g) ∧
    (v_slotAndStitch_7_g.what = .regular (17 : Nat)) ∧ (v_slotAndStitch_7_g.hold = some v_slotAndStitch_7_y) := by decide +kernel

theorem test_slotAndStitch_7 : holdsAfter (.stitchWordReceive .sample 0) (st_slotAndStitch_7) (fun x => decide ((x.hw.rawCell (17 : Nat) v_slotAndStitch_7_g.frame).map (fun c => (c.frame, c.lost, c.code, c.ovr, c.flag, c.hold)) = some (v_slotAndStitch_7_g.frame, false, v_slotAndStitch_7_g.code, v_slotAndStitch_7_g.ovr, v_slotAndStitch_7_g.flag, v_slotAndStitch_7_y))) = true := by decide +kernel

def st_slotAndStitch_8 : State := with_ (fun h => { h with adc := { h.adc with flight := [{ frame := 6, instant := 0, tq := 0, what := .aux 2 20 none, code := 7, ovr := false, flag := false, hold := none, bad := false, cal := false }, { frame := 6, instant := 0, tq := 0, what := .regular 17, code := 0xABCD, ovr := true, flag := false, hold := some { ch := 17, group := 0, instant := 9, raw := 4, origin := 1, enabled := true, isOpen := false, sat := false, flag := false, isolated := false, settle := false, exc := false, cal := false, parked := false, polA := false, polB := false, edgesA := 0, edgesB := 0, frame := 6, tq := 0 }, bad := false, cal := false }], wordFrame := 6, sendSeq := 63, wantSeq := 61, lostRun := 2 }, time := { h.time with now := 200 * 2 ^ 32 } })

def v_slotAndStitch_8_f : Flight := { frame := 6, instant := 0, tq := 0, what := .aux 2 20 none, code := 7, ovr := false, flag := false, hold := none, bad := false, cal := false }

def v_slotAndStitch_8_g : Flight := { frame := 6, instant := 0, tq := 0, what := .regular 17, code := 0xABCD, ovr := true, flag := false, hold := some { ch := 17, group := 0, instant := 9, raw := 4, origin := 1, enabled := true, isOpen := false, sat := false, flag := false, isolated := false, settle := false, exc := false, cal := false, parked := false, polA := false, polB := false, edgesA := 0, edgesB := 0, frame := 6, tq := 0 }, bad := false, cal := false }

def v_slotAndStitch_8_y : Hold := { ch := 17, group := 0, instant := 9, raw := 4, origin := 1, enabled := true, isOpen := false, sat := false, flag := false, isolated := false, settle := false, exc := false, cal := false, parked := false, polA := false, polB := false, edgesA := 0, edgesB := 0, frame := 6, tq := 0 }

theorem wit_slotAndStitch_8 : (st_slotAndStitch_8.hw.live = true) ∧ (st_slotAndStitch_8.hw.coreOn = true) ∧
    (st_slotAndStitch_8.hw.clk.stitch.mode = .on) ∧
    (st_slotAndStitch_8.hw.adc.flight.head? = some v_slotAndStitch_8_f) ∧
    (st_slotAndStitch_8.hw.reached (v_slotAndStitch_8_f.instant + 192 * nsUnit) = true) ∧
    ((0x10000000000000000 : Word72).toNat % 2 ^ 64 = 0) ∧ ((0x10000000000000000 : Word72) ≠ 0) ∧
    (((st_slotAndStitch_8.hw.adc.flight.takeWhile (fun v_slotAndStitch_8_y => decide (v_slotAndStitch_8_y.frame = v_slotAndStitch_8_f.frame) && st_slotAndStitch_8.hw.reached (v_slotAndStitch_8_y.instant + 192 * nsUnit))).take 3).getLast? = some v_slotAndStitch_8_g) ∧
    (v_slotAndStitch_8_g.what = .regular (17 : Nat)) ∧ (v_slotAndStitch_8_g.hold = some v_slotAndStitch_8_y) := by decide +kernel

theorem test_slotAndStitch_8 : holdsAfter (.stitchWordReceive .sample (0x10000000000000000 : Word72)) (st_slotAndStitch_8) (fun x => decide (x.hw.adc.flight = st_slotAndStitch_8.hw.adc.flight.drop ((st_slotAndStitch_8.hw.adc.flight.takeWhile (fun v_slotAndStitch_8_y => decide (v_slotAndStitch_8_y.frame = v_slotAndStitch_8_f.frame) && st_slotAndStitch_8.hw.reached (v_slotAndStitch_8_y.instant + 192 * nsUnit))).take 3).length ∧ (x.hw.rawCell (17 : Nat) v_slotAndStitch_8_g.frame).map (fun c => (c.frame, c.lost)) = some (v_slotAndStitch_8_g.frame, true) ∧ x.hw.on (statusBit srcStitchCrc) = true)) = true := by decide +kernel

def st_slotAndStitch_9a : State := up

theorem wit_slotAndStitch_9a : (st_slotAndStitch_9a.hw.live = true) ∧ (st_slotAndStitch_9a.hw.coreOn = true) ∧
    (st_slotAndStitch_9a.hw.clk.stitch.mode = .on) ∧ ((.idle : StitchKind) ≠ .sample) := by decide +kernel

theorem test_slotAndStitch_9a : holdsAfter (.stitchWordReceive (.idle : StitchKind) 0) (st_slotAndStitch_9a) (fun x => decide (x = st_slotAndStitch_9a)) = true := by decide +kernel

def st_slotAndStitch_9b : State := up

theorem wit_slotAndStitch_9b : (st_slotAndStitch_9b.hw.live = true) ∧ (st_slotAndStitch_9b.hw.coreOn = true) ∧
    (st_slotAndStitch_9b.hw.clk.stitch.mode = .on) ∧ ((.status 5 : StitchKind) ≠ .sample) := by decide +kernel

theorem test_slotAndStitch_9b : holdsAfter (.stitchWordReceive (.status 5 : StitchKind) 0) (st_slotAndStitch_9b) (fun x => decide (x = st_slotAndStitch_9b)) = true := by decide +kernel

def st_slotAndStitch_10 : State := up

theorem wit_slotAndStitch_10 : (st_slotAndStitch_10.hw.live = true) ∧ (st_slotAndStitch_10.hw.coreOn = true) ∧
    (st_slotAndStitch_10.hw.clk.stitch.mode = .on) ∧ ((.status 5 : StitchKind) ≠ .sample) ∧
    ((0x10000000000000000 : Word72).toNat % 2 ^ 64 = 0) ∧ ((0x10000000000000000 : Word72) ≠ 0) := by decide +kernel

theorem test_slotAndStitch_10 : holdsAfter (.stitchWordReceive (.status 5 : StitchKind) (0x10000000000000000 : Word72)) (st_slotAndStitch_10) (fun x => decide (x.hw.adc.lostWords = min 65535 (st_slotAndStitch_10.hw.adc.lostWords + 1) ∧ x.hw.on (statusBit srcStitchCrc) = true ∧ x.hw.adc.flight = st_slotAndStitch_10.hw.adc.flight)) = true := by decide +kernel

def st_slotAndStitch_11 : State := with_ (fun h => { h with adc := { h.adc with relief := some { pos := 5, oldCore := 5, newCore := 8, since := some 7, active := false, ended := false } } })

def v_slotAndStitch_11_r : CoreRelief := { pos := 5, oldCore := 5, newCore := 8, since := some 7, active := false, ended := false }

theorem wit_slotAndStitch_11 : (st_slotAndStitch_11.hw.live = true) ∧ ((5 : Nat) < 8) ∧
    (st_slotAndStitch_11.hw.adc.relief = some v_slotAndStitch_11_r) ∧
    (st_slotAndStitch_11.hw.boundaryNow = some (0 : Nat)) ∧ (v_slotAndStitch_11_r.pos = (5 : Nat)) ∧
    (v_slotAndStitch_11_r.active = false) ∧ ((v_slotAndStitch_11_r.since = none ∨
    st_slotAndStitch_11.hw.listsWaiting = false ∨ st_slotAndStitch_11.hw.on ADC_SLACK_FORCING = true)) ∧
    ((8 : Nat) = (if st_slotAndStitch_11.hw.roleOf v_slotAndStitch_11_r.newCore = 1 then v_slotAndStitch_11_r.newCore else st_slotAndStitch_11.hw.spareCore.getD 15)) ∧
    ((8 : Nat) < 9) ∧ (v_slotAndStitch_11_r.oldCore < 9) ∧
    (st_slotAndStitch_11.hw.coreOf (5 : Nat) = v_slotAndStitch_11_r.oldCore) := by decide +kernel

theorem test_slotAndStitch_11 : holdsAfter (.coreRelief (5 : Nat)) (st_slotAndStitch_11) (fun x => decide (x.hw.coreOf (5 : Nat) = (8 : Nat) ∧ x.hw.roleOf v_slotAndStitch_11_r.oldCore = 2 ∧ ((8 : Nat) ≠ v_slotAndStitch_11_r.oldCore → x.hw.roleOf (8 : Nat) = 0) ∧ x.hw.adc.relief = some { v_slotAndStitch_11_r with newCore := (8 : Nat), active := true })) = true := by decide +kernel

def st_slotAndStitch_12a : State := with_ (fun h => { h with adc := { h.adc with jobs := [{ pos := 2, slot := 3, ch := 17, done := false }] } })

theorem wit_slotAndStitch_12a : (st_slotAndStitch_12a.hw.live = true) ∧ ((2 : Nat) < 9) ∧
    (st_slotAndStitch_12a.hw.coreFails (2 : Nat) (true : Bool) = true) := by decide +kernel

theorem test_slotAndStitch_12a : holdsAfter (.adcCoreFail (2 : Nat) (true : Bool)) (st_slotAndStitch_12a) (fun x => decide (x.hw.on (ADC_CORE_STAT_FAILED (2 : Nat)) = true ∧ x.hw.roleOf (2 : Nat) = 3 ∧ x.hw.on (statusBit srcAdcCoreFail) = true ∧ x.hw.adc.badCores.contains (2 : Nat) = true)) = true := by decide +kernel

def st_slotAndStitch_12b : State := with_ (fun h => { h with adc := { h.adc with resid := [(4, 65535)] } })

theorem wit_slotAndStitch_12b : (st_slotAndStitch_12b.hw.live = true) ∧ ((4 : Nat) < 9) ∧
    (st_slotAndStitch_12b.hw.coreFails (4 : Nat) (false : Bool) = true) := by decide +kernel

theorem test_slotAndStitch_12b : holdsAfter (.adcCoreFail (4 : Nat) (false : Bool)) (st_slotAndStitch_12b) (fun x => decide (x.hw.on (ADC_CORE_STAT_FAILED (4 : Nat)) = true ∧ x.hw.roleOf (4 : Nat) = 3 ∧ x.hw.on (statusBit srcAdcCoreFail) = true ∧ x.hw.adc.badCores.contains (4 : Nat) = true)) = true := by decide +kernel

def st_slotAndStitch_13 : State := with_ (fun h => (h.put (ADC_CORE_STAT_FAILED 8) 1).put (ADC_CORE_STAT_ROLE 8) 3)

theorem wit_slotAndStitch_13 : (st_slotAndStitch_13.hw.writable (.portA : Requester) = true) ∧ ((8 : Nat) < 9) ∧
    (st_slotAndStitch_13.hw.on (ADC_CORE_STAT_FAILED (8 : Nat)) = true) ∧
    (st_slotAndStitch_13.hw.adc.rehab.contains (8 : Nat) = false) ∧ (st_slotAndStitch_13.hw.roleOf (8 : Nat) = 3) := by decide +kernel

theorem test_slotAndStitch_13 : holdsAfter (.adcCoreRehab (.portA : Requester) (8 : Nat)) (st_slotAndStitch_13) (fun x => decide (x.hw.adc.rehab = st_slotAndStitch_13.hw.adc.rehab ++ [(8 : Nat)] ∧ x.hw.regs = st_slotAndStitch_13.hw.regs)) = true := by decide +kernel

def st_injectedLists_1 : State := up

theorem wit_injectedLists_1 : (st_injectedLists_1.hw.writable (.mspi : Requester) = true) := by decide +kernel

theorem test_injectedLists_1 : holdsAfter (.hkCtlWrite (.mspi : Requester) (0x50002 : Word)) (st_injectedLists_1) (fun x => decide (x.hw.adc.hkExpiry = (if bits (0x50002 : Word) 15 0 = 0 then none else some (st_injectedLists_1.hw.ns + 1000000 * bits (0x50002 : Word) 15 0)) ∧ x.hw.get ADC_HK_CTL_LIST = bits (0x50002 : Word) 19 16)) = true := by decide +kernel

def st_injectedLists_2 : State := with_ (fun h => { h with adc := { h.adc with hkDue := [3], hkExpiry := some 1000000000 }, time := { h.time with tick := 10 ^ 9 } })

theorem wit_injectedLists_2 : (st_injectedLists_2.hw.live = true) ∧ (st_injectedLists_2.hw.adc.hkExpiry = some (1000000000 : Nat)) ∧
    (st_injectedLists_2.hw.due (1000000000 : Nat) = true) := by decide +kernel

theorem test_injectedLists_2 : holdsAfter (.hkTimerExpire) (st_injectedLists_2) (fun x => decide (x.hw.adc.hkDue = st_injectedLists_2.hw.adc.hkDue ++ [st_injectedLists_2.hw.get ADC_HK_CTL_LIST] ∧ x.hw.adc.hkExpiry = (if st_injectedLists_2.hw.get ADC_HK_CTL_INTERVAL_MS = 0 then none else some ((1000000000 : Nat) + 1000000 * st_injectedLists_2.hw.get ADC_HK_CTL_INTERVAL_MS)) ∧ (x.hw.xing 3).busy = true)) = true := by decide +kernel

def st_injectedLists_3 : State := up

theorem wit_injectedLists_3 : (st_injectedLists_3.hw.writable (.mspi : Requester) = true) ∧ ((15 : Nat) < 16) ∧
    (natBit (0x80000000 : Word).toNat 31 = true) ∧ (st_injectedLists_3.hw.ilState (15 : Nat) = 0) := by decide +kernel

theorem test_injectedLists_3 : holdsAfter (.ilStart (.mspi : Requester) (15 : Nat) (0x80000000 : Word)) (st_injectedLists_3) (fun x => decide (x.hw.ilState (15 : Nat) = 1 ∧ storeGet (fun _ => (0, 0)) x.hw.adc.ilAt (15 : Nat) = (st_injectedLists_3.hw.ns, st_injectedLists_3.hw.time.now))) = true := by decide +kernel

def st_injectedLists_4 : State := with_ (fun h => h.put (ADC_IL_STAT_STATE 15) 2)

theorem wit_injectedLists_4 : (st_injectedLists_4.hw.writable (.mspi : Requester) = true) ∧ ((15 : Nat) < 16) ∧
    (natBit (0x80000000 : Word).toNat 31 = true) ∧ (st_injectedLists_4.hw.ilState (15 : Nat) ≠ 0) ∧
    (st_injectedLists_4.hw.on (ADC_IL_STAT_AGAIN (15 : Nat)) = false) := by decide +kernel

theorem test_injectedLists_4 : holdsAfter (.ilStart (.mspi : Requester) (15 : Nat) (0x80000000 : Word)) (st_injectedLists_4) (fun x => decide (x.hw.on (ADC_IL_STAT_AGAIN (15 : Nat)) = true ∧ x.hw.ilState (15 : Nat) = st_injectedLists_4.hw.ilState (15 : Nat))) = true := by decide +kernel

def st_injectedLists_5 : State := with_ (fun h => (h.put (ADC_IL_STAT_STATE 15) 2).put (ADC_IL_STAT_AGAIN 15) 1)

theorem wit_injectedLists_5 : (st_injectedLists_5.hw.writable (.mspi : Requester) = true) ∧ ((15 : Nat) < 16) ∧
    (natBit (0x80000000 : Word).toNat 31 = true) ∧ (st_injectedLists_5.hw.ilState (15 : Nat) ≠ 0) ∧
    (st_injectedLists_5.hw.on (ADC_IL_STAT_AGAIN (15 : Nat)) = true) := by decide +kernel

theorem test_injectedLists_5 : holdsAfter (.ilStart (.mspi : Requester) (15 : Nat) (0x80000000 : Word)) (st_injectedLists_5) (fun x => decide (x.hw.get (ADC_IL_STAT_MERGED (15 : Nat)) = satAdd ((ADC_IL_STAT_MERGED (15 : Nat)).hi + 1 - (ADC_IL_STAT_MERGED (15 : Nat)).lo) (st_injectedLists_5.hw.get (ADC_IL_STAT_MERGED (15 : Nat))) 1)) = true := by decide +kernel

def st_injectedLists_6 : State := with_ (fun h => (h.put (ADC_IL_STAT_STATE 15) 1).put (SEQ_IL_RGN_EN 15) 1)

theorem wit_injectedLists_6 : (st_injectedLists_6.hw.live = true) ∧ (st_injectedLists_6.hw.coreOn = true) ∧
    (st_injectedLists_6.hw.adc.run = none) ∧
    ((List.range 16).find? (fun k => decide (st_injectedLists_6.hw.ilState k = 1) && st_injectedLists_6.hw.on (SEQ_IL_RGN_EN k)) = some (15 : Nat)) := by decide +kernel

theorem test_injectedLists_6 : holdsAfter (.ilRunStart) (st_injectedLists_6) (fun x => decide (x.hw.ilState (15 : Nat) = 2 ∧ x.hw.adc.run.map (fun r => (r.list, r.pc, r.claims, r.ended)) = some ((15 : Nat), st_injectedLists_6.hw.get (SEQ_IL_RGN_BASE (15 : Nat)), [], false))) = true := by decide +kernel

def st_injectedLists_7 : State := with_ (fun h => { (h.put (ADC_IL_STAT_STATE 3) 1).put (ADC_IL_CTL_DEADLINE_US 3) 1 with time := { h.time with tick := 10 ^ 9 } })

theorem wit_injectedLists_7 : (st_injectedLists_7.hw.live = true) ∧ ((3 : Nat) < 16) ∧
    (st_injectedLists_7.hw.get (ADC_IL_CTL_DEADLINE_US (3 : Nat)) ≠ 0) ∧
    (st_injectedLists_7.hw.ilState (3 : Nat) ≠ 0) ∧ (st_injectedLists_7.hw.due ((storeGet (fun _ => (0,
    0)) st_injectedLists_7.hw.adc.ilAt (3 : Nat)).1 + 1000 * st_injectedLists_7.hw.get (ADC_IL_CTL_DEADLINE_US (3 : Nat))) = true) ∧
    (storeGet (fun _ => false) st_injectedLists_7.hw.adc.ilLate (3 : Nat) = false) := by decide +kernel

theorem test_injectedLists_7 : holdsAfter (.ilDeadline (3 : Nat)) (st_injectedLists_7) (fun x => decide (x.hw.on (ADC_IL_STAT_LATE (3 : Nat)) = true ∧ x.hw.on (statusBit srcInjDeferred) = true)) = true := by decide +kernel

def st_injectedLists_8 : State := with_ (fun h => { h with adc := h.adc, time := { h.time with tick := 10 ^ 12 } })

theorem wit_injectedLists_8 : (st_injectedLists_8.hw.live = true) ∧ (st_injectedLists_8.hw.coreOn = true) ∧
    (st_injectedLists_8.hw.adc.forceNext = false) ∧ (st_injectedLists_8.hw.on ADC_SLACK_FORCING = false) ∧
    (st_injectedLists_8.hw.due (st_injectedLists_8.hw.adc.calIssued + msNs (st_injectedLists_8.hw.get CAL_STARVE_TO_TO_MS)) = true) := by decide +kernel

theorem test_injectedLists_8 : holdsAfter (.calStarved) (st_injectedLists_8) (fun x => decide (x.hw.adc.forceNext = true ∧ x.hw.on (statusBit srcCalStarved) = true)) = true := by decide +kernel

def st_injectedLists_9 : State := with_ (fun h => { h with adc := { h.adc with calIssued := 10 ^ 15, relief := some { pos := 5, oldCore := 5, newCore := 8, since := some 7, active := false, ended := false } }, time := { h.time with tick := 10 ^ 12 } })

theorem wit_injectedLists_9 : (st_injectedLists_9.hw.live = true) ∧ (st_injectedLists_9.hw.coreOn = true) ∧
    (st_injectedLists_9.hw.adc.forceNext = false) ∧ (st_injectedLists_9.hw.on ADC_SLACK_FORCING = false) ∧
    ((st_injectedLists_9.hw.cal.feSince = some (7 : Nat) ∨
    st_injectedLists_9.hw.adc.relief.any (fun r => !r.active && decide (r.since = some (7 : Nat))) = true)) ∧
    (st_injectedLists_9.hw.due ((7 : Nat) + msNs (st_injectedLists_9.hw.get CAL_STARVE_TO_TO_MS)) = true) := by decide +kernel

theorem test_injectedLists_9 : holdsAfter (.calStarved) (st_injectedLists_9) (fun x => decide (x.hw.adc.forceNext = true ∧ x.hw.on (statusBit srcCalStarved) = true)) = true := by decide +kernel

def st_regularWalk_1 : State := with_ (fun h => { ((h.setLive 0 (secEncode (0x1 * 2 ^ 60 + 3 * 2 ^ 57 + 7 * 2 ^ 31 + 1 * 2 ^ 25 + 16 * 2 ^ 16 + 2 * 2 ^ 12 : Word64))).setLive 1 (secEncode (0 : Word64))).setReg SEQ_REG_RGN 0x00100000 with seq := { ((h.setLive 0 (secEncode (0x1 * 2 ^ 60 + 3 * 2 ^ 57 + 7 * 2 ^ 31 + 1 * 2 ^ 25 + 16 * 2 ^ 16 + 2 * 2 ^ 12 : Word64))).setLive 1 (secEncode (0 : Word64))).seq with running := true, stack := [], pc := 0, mirror := [(0, 0x1 * 2 ^ 60 + 3 * 2 ^ 57 + 7 * 2 ^ 31 + 1 * 2 ^ 25 + 16 * 2 ^ 16 + 2 * 2 ^ 12)] } })

theorem wit_regularWalk_1 : (st_regularWalk_1.hw.issuesAs .regular (0 : Word72) (.conv (3 : Nat) (7 : Nat) (2 : Nat) (16 : Nat) (2 : Nat)) (st_regularWalk_1.hw.seq.pc + 1,
    st_regularWalk_1.hw.seq.stack) = true) ∧
    (st_regularWalk_1.hw.mirrored .regular st_regularWalk_1.hw.seq.pc = some (.conv (3 : Nat) (7 : Nat) (2 : Nat) (16 : Nat) (2 : Nat))) := by decide +kernel

theorem test_regularWalk_1 : holdsAfter (.conv (0 : Word72)) (st_regularWalk_1) (fun x => decide (x.hw.placeOf .regular = (st_regularWalk_1.hw.seq.pc + 1, st_regularWalk_1.hw.seq.stack) ∧ x.hw.adc.jobs = st_regularWalk_1.hw.adc.jobs ++ (List.range (2 : Nat)).map (fun i => { pos := (3 : Nat), slot := (7 : Nat) + i, ch := (16 : Nat) + i * (2 : Nat), done := false }))) = true := by decide +kernel

def st_regularWalk_2 : State := with_ (fun h => let k : Hw := ((fun h => { ((h.setLive 0 (secEncode (0x3 * 2 ^ 60 + 17 * 2 ^ 49 + 9 * 2 ^ 40 : Word64))).setLive 1 (secEncode (0 : Word64))).setReg SEQ_REG_RGN 0x00100000 with seq := { ((h.setLive 0 (secEncode (0x3 * 2 ^ 60 + 17 * 2 ^ 49 + 9 * 2 ^ 40 : Word64))).setLive 1 (secEncode (0 : Word64))).seq with running := true, stack := [], pc := 0, mirror := [] } }) h); { k with seq := { k.seq with raw := [(68, some { frame := 0, lost := false, absent := false, code := 5, ovr := false, flag := false, hold := { ch := 17, group := 0, instant := 9, raw := 4, origin := 1, enabled := true, isOpen := false, sat := false, flag := false, isolated := false, settle := false, exc := false, cal := false, parked := false, polA := false, polB := false, edgesA := 0, edgesB := 0, frame := 6, tq := 0 }, bad := false, cal := false, offered := false })] } })

theorem wit_regularWalk_2 : (st_regularWalk_2.hw.issuesAs .regular (0 : Word72) (.feed (0 : Nat) (17 : Nat) (9 : Nat) (1 : Nat)) (st_regularWalk_2.hw.seq.pc + 1,
    st_regularWalk_2.hw.seq.stack) = true) ∧ ((0 : Nat) ≤ st_regularWalk_2.hw.seq.frame) := by decide +kernel

theorem test_regularWalk_2 : holdsAfter (.feed (0 : Word72)) (st_regularWalk_2) (fun x => decide (x.hw.placeOf .regular = (st_regularWalk_2.hw.seq.pc + 1, st_regularWalk_2.hw.seq.stack) ∧ (List.range (1 : Nat)).all (fun i => (st_regularWalk_2.hw.rawCell ((17 : Nat) + i) (st_regularWalk_2.hw.seq.frame - (0 : Nat))).all (fun c => c.lost || decide (c.frame ≠ st_regularWalk_2.hw.seq.frame - (0 : Nat)) || decide (x.hw.rawCell ((17 : Nat) + i) (st_regularWalk_2.hw.seq.frame - (0 : Nat)) = some { c with offered := true }))) = true)) = true := by decide +kernel

def st_regularWalk_3 : State := with_ (fun h => { ((h.setLive 0 (secEncode (0x3 * 2 ^ 60 + 3 * 2 ^ 58 + 17 * 2 ^ 49 + 9 * 2 ^ 40 : Word64))).setLive 1 (secEncode (0 : Word64))).setReg SEQ_REG_RGN 0x00100000 with seq := { ((h.setLive 0 (secEncode (0x3 * 2 ^ 60 + 3 * 2 ^ 58 + 17 * 2 ^ 49 + 9 * 2 ^ 40 : Word64))).setLive 1 (secEncode (0 : Word64))).seq with running := true, stack := [], pc := 0, mirror := [] } })

theorem wit_regularWalk_3 : (st_regularWalk_3.hw.issuesAs .regular (0 : Word72) (.feed (3 : Nat) (17 : Nat) (9 : Nat) (1 : Nat)) (st_regularWalk_3.hw.seq.pc + 1,
    st_regularWalk_3.hw.seq.stack) = true) ∧ (st_regularWalk_3.hw.seq.frame < (3 : Nat)) := by decide +kernel

theorem test_regularWalk_3 : holdsAfter (.feed (0 : Word72)) (st_regularWalk_3) (fun x => decide (x.hw.placeOf .regular = (st_regularWalk_3.hw.seq.pc + 1, st_regularWalk_3.hw.seq.stack) ∧ x.hw.str = st_regularWalk_3.hw.str)) = true := by decide +kernel

def st_regularWalk_4 : State := with_ (fun h => { ((h.setLive 0 (secEncode (0x4 * 2 ^ 60 + 511 * 2 ^ 51 : Word64))).setLive 1 (secEncode (0 : Word64))).setReg SEQ_REG_RGN 0x00100000 with seq := { ((h.setLive 0 (secEncode (0x4 * 2 ^ 60 + 511 * 2 ^ 51 : Word64))).setLive 1 (secEncode (0 : Word64))).seq with running := true, stack := [], pc := 0, mirror := [] } })

theorem wit_regularWalk_4 : (st_regularWalk_4.hw.issuesAs .regular (0 : Word72) (.write (511 : Nat) (1 : Nat)) (st_regularWalk_4.hw.seq.pc + 1,
    st_regularWalk_4.hw.seq.stack) = true) ∧ ((0 : Nat) < (1 : Nat)) := by decide +kernel

theorem test_regularWalk_4 : holdsAfter (.write (0 : Word72)) (st_regularWalk_4) (fun x => decide (x.hw.placeOf .regular = (st_regularWalk_4.hw.seq.pc + 1, st_regularWalk_4.hw.seq.stack) ∧ (x.hw.chain ((511 : Nat) + (0 : Nat))).ready = [])) = true := by decide +kernel

def st_regularWalk_5 : State := with_ (fun h => { ((h.setLive 0 (secEncode (0x5 * 2 ^ 60 + 999 : Word64))).setLive 1 (secEncode (0 : Word64))).setReg SEQ_REG_RGN 0x00100000 with seq := { ((h.setLive 0 (secEncode (0x5 * 2 ^ 60 + 999 : Word64))).setLive 1 (secEncode (0 : Word64))).seq with running := true, stack := [], pc := 0, mirror := [] } })

theorem wit_regularWalk_5 : (st_regularWalk_5.hw.issuesAs .regular (0 : Word72) (.wait (999 : Nat)) (st_regularWalk_5.hw.seq.pc + 1,
    st_regularWalk_5.hw.seq.stack) = true) ∧ (st_regularWalk_5.hw.smp.lastBoundary = some (0 : Nat)) ∧
    (st_regularWalk_5.hw.time.now < (0 : Nat) + (999 : Nat) * nsUnit) := by decide +kernel

theorem test_regularWalk_5 : holdsAfter (.wait (0 : Word72)) (st_regularWalk_5) (fun x => decide (x.hw.placeOf .regular = (st_regularWalk_5.hw.seq.pc + 1, st_regularWalk_5.hw.seq.stack) ∧ x.hw.seq.holdUntil = some ((0 : Nat) + (999 : Nat) * nsUnit))) = true := by decide +kernel

def st_regularWalk_6 : State := with_ (fun h => { ((h.setLive 0 (secEncode (0x5 * 2 ^ 60 + 0 : Word64))).setLive 1 (secEncode (0 : Word64))).setReg SEQ_REG_RGN 0x00100000 with seq := { ((h.setLive 0 (secEncode (0x5 * 2 ^ 60 + 0 : Word64))).setLive 1 (secEncode (0 : Word64))).seq with running := true, stack := [], pc := 0, mirror := [] } })

theorem wit_regularWalk_6 : (st_regularWalk_6.hw.issuesAs .regular (0 : Word72) (.wait (0 : Nat)) (st_regularWalk_6.hw.seq.pc + 1,
    st_regularWalk_6.hw.seq.stack) = true) ∧ (st_regularWalk_6.hw.smp.lastBoundary = some (0 : Nat)) ∧
    ((0 : Nat) + (0 : Nat) * nsUnit ≤ st_regularWalk_6.hw.time.now) := by decide +kernel

theorem test_regularWalk_6 : holdsAfter (.wait (0 : Word72)) (st_regularWalk_6) (fun x => decide (x.hw.placeOf .regular = (st_regularWalk_6.hw.seq.pc + 1, st_regularWalk_6.hw.seq.stack) ∧ x.hw.seq.holdUntil = none)) = true := by decide +kernel

def st_regularWalk_7 : State := with_ (fun h => { h with seq := { h.seq with holdUntil := some 5 }, time := { h.time with now := 9 } })

theorem wit_regularWalk_7 : (st_regularWalk_7.hw.live = true) ∧ (st_regularWalk_7.hw.coreOn = true) ∧
    (st_regularWalk_7.hw.seq.holdUntil = some (5 : Nat)) ∧ (st_regularWalk_7.hw.reached (5 : Nat) = true) := by decide +kernel

theorem test_regularWalk_7 : holdsAfter (.waitEnd) (st_regularWalk_7) (fun x => decide (x = { st_regularWalk_7 with hw := { st_regularWalk_7.hw with seq := { st_regularWalk_7.hw.seq with holdUntil := none } } })) = true := by decide +kernel

def st_regularWalk_8 : State := with_ (fun h => { ((h.setLive 0 (secEncode (0x6 * 2 ^ 60 : Word64))).setLive 1 (secEncode (0 : Word64))).setReg SEQ_REG_RGN 0x00100000 with seq := { ((h.setLive 0 (secEncode (0x6 * 2 ^ 60 : Word64))).setLive 1 (secEncode (0 : Word64))).seq with running := true, stack := [], pc := 0, mirror := [] } })

theorem wit_regularWalk_8 : (st_regularWalk_8.hw.issuesAs .regular (0 : Word72) (.fend) (st_regularWalk_8.hw.seq.pc + 1,
    st_regularWalk_8.hw.seq.stack) = true) := by decide +kernel

theorem test_regularWalk_8 : holdsAfter (.fend (0 : Word72)) (st_regularWalk_8) (fun x => decide (x.hw.placeOf .regular = (st_regularWalk_8.hw.seq.pc + 1, st_regularWalk_8.hw.seq.stack) ∧ x.hw.seq.frameDone = true)) = true := by decide +kernel

def st_regularWalk_9a : State := with_ (fun h => { ((h.setLive 0 (secEncode (0 : Word64))).setLive 1 (secEncode (0 : Word64))).setReg SEQ_REG_RGN 0x00100000 with seq := { ((h.setLive 0 (secEncode (0 : Word64))).setLive 1 (secEncode (0 : Word64))).seq with running := true, stack := [], pc := 0, mirror := [] } })

theorem wit_regularWalk_9a : (st_regularWalk_9a.hw.issuesAs (.regular : Walk) (0 : Word72) (.nop) ((st_regularWalk_9a.hw.placeOf (.regular : Walk)).1 + 1,
    (st_regularWalk_9a.hw.placeOf (.regular : Walk)).2) = true) := by decide +kernel

theorem test_regularWalk_9a : holdsAfter (.nop (.regular : Walk) (0 : Word72)) (st_regularWalk_9a) (fun x => decide (x.hw.placeOf (.regular : Walk) = ((st_regularWalk_9a.hw.placeOf (.regular : Walk)).1 + 1, (st_regularWalk_9a.hw.placeOf (.regular : Walk)).2) ∧ x.hw.str = st_regularWalk_9a.hw.str ∧ x.hw.adc.flight = st_regularWalk_9a.hw.adc.flight ∧ x.hw.time = st_regularWalk_9a.hw.time)) = true := by decide +kernel

def st_regularWalk_9b : State := with_ (fun h => { (h.setLive 0 (secEncode (0 : Word64))).setReg (SEQ_IL_RGN 2) 0x00100000 with adc := { h.adc with run := some { list := 2, pc := 0, stack := [], claims := [], since := 0, ended := false, start := 0 } } })

theorem wit_regularWalk_9b : (st_regularWalk_9b.hw.issuesAs (.list : Walk) (0 : Word72) (.nop) ((st_regularWalk_9b.hw.placeOf (.list : Walk)).1 + 1,
    (st_regularWalk_9b.hw.placeOf (.list : Walk)).2) = true) := by decide +kernel

theorem test_regularWalk_9b : holdsAfter (.nop (.list : Walk) (0 : Word72)) (st_regularWalk_9b) (fun x => decide (x.hw.placeOf (.list : Walk) = ((st_regularWalk_9b.hw.placeOf (.list : Walk)).1 + 1, (st_regularWalk_9b.hw.placeOf (.list : Walk)).2) ∧ x.hw.str = st_regularWalk_9b.hw.str ∧ x.hw.adc.flight = st_regularWalk_9b.hw.adc.flight ∧ x.hw.time = st_regularWalk_9b.hw.time)) = true := by decide +kernel

def st_regularWalk_9c : State := with_ (fun h => { ((h).setLive 0 (secEncode (0 : Word64))).setReg SEQ_CAL_RGN 0x80100000 with adc := { h.adc with calRun := some { pc := 0, stack := [], claims := [], issued := 0, since := 0, ended := false, start := 0 } } })

theorem wit_regularWalk_9c : (st_regularWalk_9c.hw.issuesAs (.cal : Walk) (0 : Word72) (.nop) ((st_regularWalk_9c.hw.placeOf (.cal : Walk)).1 + 1,
    (st_regularWalk_9c.hw.placeOf (.cal : Walk)).2) = true) := by decide +kernel

theorem test_regularWalk_9c : holdsAfter (.nop (.cal : Walk) (0 : Word72)) (st_regularWalk_9c) (fun x => decide (x.hw.placeOf (.cal : Walk) = ((st_regularWalk_9c.hw.placeOf (.cal : Walk)).1 + 1, (st_regularWalk_9c.hw.placeOf (.cal : Walk)).2) ∧ x.hw.str = st_regularWalk_9c.hw.str ∧ x.hw.adc.flight = st_regularWalk_9c.hw.adc.flight ∧ x.hw.time = st_regularWalk_9c.hw.time)) = true := by decide +kernel

def st_regularWalk_10a : State := with_ (fun h => { ((h.setLive 0 (secEncode (0x8 * 2 ^ 60 + 1 : Word64))).setLive 1 (secEncode (0 : Word64))).setReg SEQ_REG_RGN 0x00100000 with seq := { ((h.setLive 0 (secEncode (0x8 * 2 ^ 60 + 1 : Word64))).setLive 1 (secEncode (0 : Word64))).seq with running := true, stack := [], pc := 0, mirror := [] } })

theorem wit_regularWalk_10a : (st_regularWalk_10a.hw.issuesAs (.regular : Walk) (0 : Word72) (.jump (1 : Nat)) ((1 : Nat),
    (st_regularWalk_10a.hw.placeOf (.regular : Walk)).2) = true) := by decide +kernel

theorem test_regularWalk_10a : holdsAfter (.jump (.regular : Walk) (0 : Word72)) (st_regularWalk_10a) (fun x => decide (x.hw.placeOf (.regular : Walk) = ((1 : Nat), (st_regularWalk_10a.hw.placeOf (.regular : Walk)).2) ∧ x.hw.str = st_regularWalk_10a.hw.str ∧ x.hw.adc.flight = st_regularWalk_10a.hw.adc.flight ∧ x.hw.time = st_regularWalk_10a.hw.time)) = true := by decide +kernel

def st_regularWalk_10b : State := with_ (fun h => { (h.setLive 0 (secEncode (0x8 * 2 ^ 60 + 9 : Word64))).setReg (SEQ_IL_RGN 2) 0x00100000 with adc := { h.adc with run := some { list := 2, pc := 0, stack := [], claims := [], since := 0, ended := false, start := 0 } } })

theorem wit_regularWalk_10b : (st_regularWalk_10b.hw.issuesAs (.list : Walk) (0 : Word72) (.jump (9 : Nat)) ((9 : Nat),
    (st_regularWalk_10b.hw.placeOf (.list : Walk)).2) = true) := by decide +kernel

theorem test_regularWalk_10b : holdsAfter (.jump (.list : Walk) (0 : Word72)) (st_regularWalk_10b) (fun x => decide (x.hw.placeOf (.list : Walk) = ((9 : Nat), (st_regularWalk_10b.hw.placeOf (.list : Walk)).2) ∧ x.hw.str = st_regularWalk_10b.hw.str ∧ x.hw.adc.flight = st_regularWalk_10b.hw.adc.flight ∧ x.hw.time = st_regularWalk_10b.hw.time)) = true := by decide +kernel

def st_regularWalk_11a : State := with_ (fun h => { ((h.setLive 0 (secEncode (0x7 * 2 ^ 60 + 4 * 2 ^ 13 : Word64))).setLive 1 (secEncode (0 : Word64))).setReg SEQ_REG_RGN 0x00100000 with seq := { ((h.setLive 0 (secEncode (0x7 * 2 ^ 60 + 4 * 2 ^ 13 : Word64))).setLive 1 (secEncode (0 : Word64))).seq with running := true, stack := [(9, 1)], pc := 0, mirror := [] } })

theorem wit_regularWalk_11a : (1 < (5 : Nat)) ∧ ((st_regularWalk_11a.hw.placeOf (.regular : Walk)).2.length < 4) ∧
    ((st_regularWalk_11a.hw.placeOf (.regular : Walk)).2.head?.any (fun y => decide (y.1 = (st_regularWalk_11a.hw.placeOf (.regular : Walk)).1)) = false) ∧
    (st_regularWalk_11a.hw.issuesAs (.regular : Walk) (0 : Word72) (.loop (5 : Nat) (0 : Nat)) ((0 : Nat),
    ((st_regularWalk_11a.hw.placeOf (.regular : Walk)).1,
    (5 : Nat) - 2) :: (st_regularWalk_11a.hw.placeOf (.regular : Walk)).2) = true) := by decide +kernel

theorem test_regularWalk_11a : holdsAfter (.loop (.regular : Walk) (0 : Word72)) (st_regularWalk_11a) (fun x => decide (x.hw.placeOf (.regular : Walk) = ((0 : Nat), ((st_regularWalk_11a.hw.placeOf (.regular : Walk)).1, (5 : Nat) - 2) :: (st_regularWalk_11a.hw.placeOf (.regular : Walk)).2))) = true := by decide +kernel

def st_regularWalk_11b : State := with_ (fun h => { ((h).setLive 0 (secEncode (0x7 * 2 ^ 60 + 4 * 2 ^ 13 : Word64))).setReg SEQ_CAL_RGN 0x80100000 with adc := { h.adc with calRun := some { pc := 0, stack := [], claims := [], issued := 0, since := 0, ended := false, start := 0 } } })

theorem wit_regularWalk_11b : (1 < (5 : Nat)) ∧ ((st_regularWalk_11b.hw.placeOf (.cal : Walk)).2.length < 4) ∧
    ((st_regularWalk_11b.hw.placeOf (.cal : Walk)).2.head?.any (fun y => decide (y.1 = (st_regularWalk_11b.hw.placeOf (.cal : Walk)).1)) = false) ∧
    (st_regularWalk_11b.hw.issuesAs (.cal : Walk) (0 : Word72) (.loop (5 : Nat) (0 : Nat)) ((0 : Nat),
    ((st_regularWalk_11b.hw.placeOf (.cal : Walk)).1,
    (5 : Nat) - 2) :: (st_regularWalk_11b.hw.placeOf (.cal : Walk)).2) = true) := by decide +kernel

theorem test_regularWalk_11b : holdsAfter (.loop (.cal : Walk) (0 : Word72)) (st_regularWalk_11b) (fun x => decide (x.hw.placeOf (.cal : Walk) = ((0 : Nat), ((st_regularWalk_11b.hw.placeOf (.cal : Walk)).1, (5 : Nat) - 2) :: (st_regularWalk_11b.hw.placeOf (.cal : Walk)).2))) = true := by decide +kernel

def st_regularWalk_12 : State := with_ (fun h => { ((h.setLive 0 (secEncode (0x7 * 2 ^ 60 : Word64))).setLive 1 (secEncode (0 : Word64))).setReg SEQ_REG_RGN 0x00100000 with seq := { ((h.setLive 0 (secEncode (0x7 * 2 ^ 60 : Word64))).setLive 1 (secEncode (0 : Word64))).seq with running := true, stack := [(9, 1), (8, 1), (7, 1), (6, 1)], pc := 0, mirror := [] } })

theorem wit_regularWalk_12 : ((st_regularWalk_12.hw.placeOf (.regular : Walk)).2.head?.any (fun y => decide (y.1 = (st_regularWalk_12.hw.placeOf (.regular : Walk)).1)) = false) ∧
    (st_regularWalk_12.hw.issuesAs (.regular : Walk) (0 : Word72) (.loop 1 (0 : Nat)) ((st_regularWalk_12.hw.placeOf (.regular : Walk)).1 + 1,
    (st_regularWalk_12.hw.placeOf (.regular : Walk)).2) = true) := by decide +kernel

theorem test_regularWalk_12 : holdsAfter (.loop (.regular : Walk) (0 : Word72)) (st_regularWalk_12) (fun x => decide (x.hw.placeOf (.regular : Walk) = ((st_regularWalk_12.hw.placeOf (.regular : Walk)).1 + 1, (st_regularWalk_12.hw.placeOf (.regular : Walk)).2))) = true := by decide +kernel

def st_regularWalk_13 : State := with_ (fun h => { ((h.setLive 0 (secEncode (0x7 * 2 ^ 60 + 4 * 2 ^ 13 : Word64))).setLive 1 (secEncode (0 : Word64))).setReg SEQ_REG_RGN 0x00100000 with seq := { ((h.setLive 0 (secEncode (0x7 * 2 ^ 60 + 4 * 2 ^ 13 : Word64))).setLive 1 (secEncode (0 : Word64))).seq with running := true, stack := [(0, 3)], pc := 0, mirror := [] } })

theorem wit_regularWalk_13 : ((st_regularWalk_13.hw.placeOf (.regular : Walk)).2 = ((st_regularWalk_13.hw.placeOf (.regular : Walk)).1,
    (2 : Nat) + 1) :: ([] : List (Nat × Nat))) ∧
    (st_regularWalk_13.hw.issuesAs (.regular : Walk) (0 : Word72) (.loop (5 : Nat) (0 : Nat)) ((0 : Nat),
    ((st_regularWalk_13.hw.placeOf (.regular : Walk)).1, (2 : Nat)) :: ([] : List (Nat × Nat))) = true) := by decide +kernel

theorem test_regularWalk_13 : holdsAfter (.loop (.regular : Walk) (0 : Word72)) (st_regularWalk_13) (fun x => decide (x.hw.placeOf (.regular : Walk) = ((0 : Nat), ((st_regularWalk_13.hw.placeOf (.regular : Walk)).1, (2 : Nat)) :: ([] : List (Nat × Nat))))) = true := by decide +kernel

def st_regularWalk_14 : State := with_ (fun h => { ((h.setLive 0 (secEncode (0x7 * 2 ^ 60 + 4 * 2 ^ 13 : Word64))).setLive 1 (secEncode (0 : Word64))).setReg SEQ_REG_RGN 0x00100000 with seq := { ((h.setLive 0 (secEncode (0x7 * 2 ^ 60 + 4 * 2 ^ 13 : Word64))).setLive 1 (secEncode (0 : Word64))).seq with running := true, stack := [(0, 0)], pc := 0, mirror := [] } })

theorem wit_regularWalk_14 : ((st_regularWalk_14.hw.placeOf (.regular : Walk)).2 = ((st_regularWalk_14.hw.placeOf (.regular : Walk)).1,
    0) :: ([] : List (Nat × Nat))) ∧
    (st_regularWalk_14.hw.issuesAs (.regular : Walk) (0 : Word72) (.loop (5 : Nat) (0 : Nat)) ((st_regularWalk_14.hw.placeOf (.regular : Walk)).1 + 1,
    ([] : List (Nat × Nat))) = true) := by decide +kernel

theorem test_regularWalk_14 : holdsAfter (.loop (.regular : Walk) (0 : Word72)) (st_regularWalk_14) (fun x => decide (x.hw.placeOf (.regular : Walk) = ((st_regularWalk_14.hw.placeOf (.regular : Walk)).1 + 1, ([] : List (Nat × Nat))))) = true := by decide +kernel

def st_regularWalk_15a : State := with_ (fun h => { ((h.setLive 0 (secEncode (0x7 * 2 ^ 60 + 4 * 2 ^ 13 : Word64))).setLive 1 (secEncode (0 : Word64))).setReg SEQ_REG_RGN 0x00100000 with seq := { ((h.setLive 0 (secEncode (0x7 * 2 ^ 60 + 4 * 2 ^ 13 : Word64))).setLive 1 (secEncode (0 : Word64))).seq with running := true, stack := [(9, 1), (8, 1), (7, 1), (6, 1)], pc := 0, mirror := [] } })

theorem wit_regularWalk_15a : (st_regularWalk_15a.hw.live = true) ∧ (st_regularWalk_15a.hw.walkReady (.regular : Walk) = true) ∧
    (st_regularWalk_15a.hw.nextEntry (.regular : Walk) (0 : Word72) = .entry (.loop (5 : Nat) (0 : Nat))) ∧
    ((st_regularWalk_15a.hw.placeOf (.regular : Walk)).2.length = 4) ∧ (1 < (5 : Nat)) ∧
    ((st_regularWalk_15a.hw.placeOf (.regular : Walk)).2.head?.any (fun y => decide (y.1 = (st_regularWalk_15a.hw.placeOf (.regular : Walk)).1)) = false) := by decide +kernel

theorem test_regularWalk_15a : holdsAfter (.loop (.regular : Walk) (0 : Word72)) (st_regularWalk_15a) (fun x => decide (x.hw.on SEQ_STATUS_ILLEGAL = true ∧ x.hw.on (statusBit srcSeqIllegalStep) = true ∧ ((.regular : Walk) = .regular → x.hw.seq.stopped = true) ∧ ((.regular : Walk) = .list → x.hw.adc.run.all (fun r => r.ended) = true) ∧ ((.regular : Walk) = .cal → x.hw.adc.calRun.all (fun r => r.ended) = true))) = true := by decide +kernel

def st_regularWalk_15b : State := with_ (fun h => { (h.setLive 0 (secEncode (0x7 * 2 ^ 60 + 4 * 2 ^ 13 : Word64))).setReg (SEQ_IL_RGN 2) 0x00100000 with adc := { h.adc with run := some { list := 2, pc := 0, stack := [(9, 1), (8, 1), (7, 1), (6, 1)], claims := [], since := 0, ended := false, start := 0 } } })

theorem wit_regularWalk_15b : (st_regularWalk_15b.hw.live = true) ∧ (st_regularWalk_15b.hw.walkReady (.list : Walk) = true) ∧
    (st_regularWalk_15b.hw.nextEntry (.list : Walk) (0 : Word72) = .entry (.loop (5 : Nat) (0 : Nat))) ∧
    ((st_regularWalk_15b.hw.placeOf (.list : Walk)).2.length = 4) ∧ (1 < (5 : Nat)) ∧
    ((st_regularWalk_15b.hw.placeOf (.list : Walk)).2.head?.any (fun y => decide (y.1 = (st_regularWalk_15b.hw.placeOf (.list : Walk)).1)) = false) := by decide +kernel

theorem test_regularWalk_15b : holdsAfter (.loop (.list : Walk) (0 : Word72)) (st_regularWalk_15b) (fun x => decide (x.hw.on SEQ_STATUS_ILLEGAL = true ∧ x.hw.on (statusBit srcSeqIllegalStep) = true ∧ ((.list : Walk) = .regular → x.hw.seq.stopped = true) ∧ ((.list : Walk) = .list → x.hw.adc.run.all (fun r => r.ended) = true) ∧ ((.list : Walk) = .cal → x.hw.adc.calRun.all (fun r => r.ended) = true))) = true := by decide +kernel

def st_listEntries_1 : State := with_ (fun h => { (h.setLive 0 (secEncode (0x2 * 2 ^ 60 + 3 * 2 ^ 53 + 2 ^ 52 + 8 * 2 ^ 43 : Word64))).setReg (SEQ_IL_RGN 2) 0x00100000 with seq := { (h.setLive 0 (secEncode (0x2 * 2 ^ 60 + 3 * 2 ^ 53 + 2 ^ 52 + 8 * 2 ^ 43 : Word64))).seq with mirror := [(0, 0x2 * 2 ^ 60 + 3 * 2 ^ 53 + 2 ^ 52 + 8 * 2 ^ 43)] }, adc := { h.adc with run := some { list := 2, pc := 0, stack := [], claims := [], since := 0, ended := false, start := 0 } } })

theorem wit_listEntries_1 : (st_listEntries_1.hw.issuesAs .list (0 : Word72) (.auxc (3 : Nat) (some 8 : Option Nat)) ((st_listEntries_1.hw.placeOf .list).1 + 1,
    (st_listEntries_1.hw.placeOf .list).2) = true) ∧
    (st_listEntries_1.hw.mirrored .list (st_listEntries_1.hw.placeOf .list).1 = some (.auxc (3 : Nat) (some 8 : Option Nat))) := by decide +kernel

theorem test_listEntries_1 : holdsAfter (.auxc (0 : Word72)) (st_listEntries_1) (fun x => decide (x.hw.placeOf .list = ((st_listEntries_1.hw.placeOf .list).1 + 1, (st_listEntries_1.hw.placeOf .list).2) ∧ x.hw.adc.run.map ListRun.claims = st_listEntries_1.hw.adc.run.map (fun r => r.claims ++ [ConvFor.aux r.list (3 : Nat) (some 8 : Option Nat)]))) = true := by decide +kernel

def st_listEntries_2 : State := with_ (fun h => { ((h).setLive 0 (secEncode (0xA * 2 ^ 60 + 44 * 2 ^ 50 + 15 * 2 ^ 46 + 7 * 2 ^ 38 + 3 * 2 ^ 34 : Word64))).setReg SEQ_CAL_RGN 0x80100000 with seq := { (h.setLive 0 (secEncode (0xA * 2 ^ 60 + 44 * 2 ^ 50 + 15 * 2 ^ 46 + 7 * 2 ^ 38 + 3 * 2 ^ 34 : Word64))).seq with mirror := [(0, 0xA * 2 ^ 60 + 44 * 2 ^ 50 + 15 * 2 ^ 46 + 7 * 2 ^ 38 + 3 * 2 ^ 34)] }, adc := { h.adc with calRun := some { pc := 0, stack := [], claims := [], issued := 0, since := 0, ended := false, start := 0 } } })

theorem wit_listEntries_2 : (st_listEntries_2.hw.issuesAs .cal (0 : Word72) (.cconv (false : Bool) (44 : Nat) (15 : Nat) (8 : Nat) (3 : Nat)) ((st_listEntries_2.hw.placeOf .cal).1 + 1,
    (st_listEntries_2.hw.placeOf .cal).2) = true) ∧
    (st_listEntries_2.hw.mirrored .cal (st_listEntries_2.hw.placeOf .cal).1 = some (.cconv (false : Bool) (44 : Nat) (15 : Nat) (8 : Nat) (3 : Nat))) := by decide +kernel

theorem test_listEntries_2 : holdsAfter (.cconv (0 : Word72)) (st_listEntries_2) (fun x => decide (x.hw.placeOf .cal = ((st_listEntries_2.hw.placeOf .cal).1 + 1, (st_listEntries_2.hw.placeOf .cal).2) ∧ x.hw.adc.calIssued = st_listEntries_2.hw.ns ∧ x.hw.adc.calRun.map CalRun.claims = st_listEntries_2.hw.adc.calRun.map (fun r => st_listEntries_2.hw.calClaims ++ (List.range (8 : Nat)).map (fun i => { aux := (false : Bool), src := (44 : Nat), acc := (3 : Nat), core := (15 : Nat), entry := r.issued, first := decide (i = 0) })))) = true := by decide +kernel

def st_listEntries_3 : State := with_ (fun h => { (h.setLive 0 (secEncode (0x9 * 2 ^ 60 : Word64))).setReg (SEQ_IL_RGN 2) 0x00100000 with seq := { (h.setLive 0 (secEncode (0x9 * 2 ^ 60 : Word64))).seq with mirror := [(0, 0x9 * 2 ^ 60)] }, adc := { h.adc with run := some { list := 2, pc := 0, stack := [], claims := [], since := 0, ended := false, start := 0 } } })

def v_listEntries_3_r : ListRun := { list := 2, pc := 0, stack := [], claims := [], since := 0, ended := false, start := 0 }

theorem wit_listEntries_3 : (st_listEntries_3.hw.issuesAs .list (0 : Word72) .lend ((st_listEntries_3.hw.placeOf .list).1 + 1,
    (st_listEntries_3.hw.placeOf .list).2) = true) ∧
    (st_listEntries_3.hw.mirrored .list (st_listEntries_3.hw.placeOf .list).1 = some .lend) ∧
    (st_listEntries_3.hw.adc.run = some v_listEntries_3_r) ∧ (v_listEntries_3_r.claims = []) ∧
    (st_listEntries_3.hw.on (ADC_IL_STAT_AGAIN v_listEntries_3_r.list) = false) ∧ (v_listEntries_3_r.list < 16) := by decide +kernel

theorem test_listEntries_3 : holdsAfter (.lend .list (0 : Word72)) (st_listEntries_3) (fun x => decide (x.hw.adc.run = none ∧ x.hw.ilState v_listEntries_3_r.list = 0)) = true := by decide +kernel

def st_listEntries_4 : State := with_ (fun h => { ((h.put (ADC_IL_STAT_AGAIN 2) 1).setLive 0 (secEncode (0x9 * 2 ^ 60 : Word64))).setReg (SEQ_IL_RGN 2) 0x00100000 with seq := { (h.setLive 0 (secEncode (0x9 * 2 ^ 60 : Word64))).seq with mirror := [(0, 0x9 * 2 ^ 60)] }, adc := { h.adc with run := some { list := 2, pc := 0, stack := [], claims := [], since := 0, ended := false, start := 0 } } })

def v_listEntries_4_r : ListRun := { list := 2, pc := 0, stack := [], claims := [], since := 0, ended := false, start := 0 }

theorem wit_listEntries_4 : (st_listEntries_4.hw.issuesAs .list (0 : Word72) .lend ((st_listEntries_4.hw.placeOf .list).1 + 1,
    (st_listEntries_4.hw.placeOf .list).2) = true) ∧
    (st_listEntries_4.hw.mirrored .list (st_listEntries_4.hw.placeOf .list).1 = some .lend) ∧
    (st_listEntries_4.hw.adc.run = some v_listEntries_4_r) ∧ (v_listEntries_4_r.claims = []) ∧
    (st_listEntries_4.hw.on (ADC_IL_STAT_AGAIN v_listEntries_4_r.list) = true) ∧ (v_listEntries_4_r.list < 16) := by decide +kernel

theorem test_listEntries_4 : holdsAfter (.lend .list (0 : Word72)) (st_listEntries_4) (fun x => decide (x.hw.adc.run = none ∧ x.hw.ilState v_listEntries_4_r.list = 1 ∧ x.hw.on (ADC_IL_STAT_AGAIN v_listEntries_4_r.list) = false)) = true := by decide +kernel

def st_listEntries_5 : State := with_ (fun h => { (h.setLive 0 (secEncode (0x9 * 2 ^ 60 : Word64))).setReg (SEQ_IL_RGN 2) 0x00100000 with seq := { (h.setLive 0 (secEncode (0x9 * 2 ^ 60 : Word64))).seq with mirror := [(0, 0x9 * 2 ^ 60)] }, adc := { h.adc with run := some { list := 2, pc := 0, stack := [], claims := [.aux 2 3 none], since := 0, ended := false, start := 0 } } })

def v_listEntries_5_r : ListRun := { list := 2, pc := 0, stack := [], claims := [.aux 2 3 none], since := 0, ended := false, start := 0 }

theorem wit_listEntries_5 : (st_listEntries_5.hw.issuesAs .list (0 : Word72) .lend ((st_listEntries_5.hw.placeOf .list).1 + 1,
    (st_listEntries_5.hw.placeOf .list).2) = true) ∧
    (st_listEntries_5.hw.mirrored .list (st_listEntries_5.hw.placeOf .list).1 = some .lend) ∧
    (st_listEntries_5.hw.adc.run = some v_listEntries_5_r) ∧ (v_listEntries_5_r.claims ≠ []) := by decide +kernel

theorem test_listEntries_5 : holdsAfter (.lend .list (0 : Word72)) (st_listEntries_5) (fun x => decide (x.hw.adc.run = some { v_listEntries_5_r with pc := v_listEntries_5_r.pc + 1, ended := true })) = true := by decide +kernel

def st_listEntries_6 : State := with_ (fun h => { ((h).setLive 0 (secEncode (0x9 * 2 ^ 60 : Word64))).setReg SEQ_CAL_RGN 0x80100000 with adc := { h.adc with calRun := some { pc := 0, stack := [], claims := [], issued := 0, since := 0, ended := false, start := 0 } } })

theorem wit_listEntries_6 : (st_listEntries_6.hw.issuesAs .cal (0 : Word72) .lend ((st_listEntries_6.hw.placeOf .cal).1 + 1,
    (st_listEntries_6.hw.placeOf .cal).2) = true) ∧ (st_listEntries_6.hw.calClaims = []) ∧
    (st_listEntries_6.hw.calInFlight = false) ∧ (st_listEntries_6.hw.cal.runFe = false) ∧
    (st_listEntries_6.hw.cal.runAdc = false) := by decide +kernel

theorem test_listEntries_6 : holdsAfter (.lend .cal (0 : Word72)) (st_listEntries_6) (fun x => decide (x.hw.adc.calRun = none ∧ x.hw.adc.calIssued = st_listEntries_6.hw.ns)) = true := by decide +kernel

def st_tableCare_1 : State := with_ (fun h => { h.put SEQ_STATUS_LOCATING 1 with seq := { h.seq with running := true, stopped := true } })

theorem wit_tableCare_1 : (st_tableCare_1.hw.live = true) ∧ (st_tableCare_1.hw.seq.running = true) ∧
    (st_tableCare_1.hw.seq.stopped = true) ∧ (st_tableCare_1.hw.on SEQ_STATUS_LOCATING = true) ∧
    (st_tableCare_1.hw.seq.located = none) ∧ (st_tableCare_1.hw.smp.lastBoundary = some (0 : Nat)) ∧
    (st_tableCare_1.hw.locate st_tableCare_1.hw.smp.per (st_tableCare_1.hw.framePos st_tableCare_1.hw.smp.per st_tableCare_1.hw.smp.ph (st_tableCare_1.hw.boundaryAfter (0 : Nat))) = some ((0,
    []) : Place)) := by decide +kernel

theorem test_tableCare_1 : holdsAfter (.locateComplete) (st_tableCare_1) (fun x => decide (x.hw.seq.located = some ((0, []) : Place) ∧ x.hw.on SEQ_STATUS_LOCATING = false ∧ x.hw.seq.live = st_tableCare_1.hw.seq.live)) = true := by decide +kernel

def st_tableCare_2 : State := up

theorem wit_tableCare_2 : (st_tableCare_2.hw.writable (.portA : Requester) = true) ∧ (isTableWindow (0x7FFF8 : Nat) = true) ∧
    ((0x7FFF8 : Nat) % 8 = 0) := by decide +kernel

theorem test_tableCare_2 : holdsAfter (.seqTableWrite (.portA : Requester) (0x7FFF8 : Nat) (5 : Word)) (st_tableCare_2) (fun x => decide (x.status = 0 ∧ x.hw = st_tableCare_2.hw.setHeld (.portA : Requester) (entryKey (st_tableCare_2.hw.windowEntry (.portA : Requester) (0x7FFF8 : Nat))) (some (5 : Word)))) = true := by decide +kernel

def st_tableCare_3 : State := with_ (fun h => h.setHeld .mspi (entryKey 4095) (some 7))

theorem wit_tableCare_3 : (st_tableCare_3.hw.writable (.mspi : Requester) = true) ∧ (isTableWindow (0x7FFFC : Nat) = true) ∧
    ((0x7FFFC : Nat) % 8 = 4) ∧
    (st_tableCare_3.hw.sealedEntry (st_tableCare_3.hw.windowEntry (.mspi : Requester) (0x7FFFC : Nat)) = false) := by decide +kernel

theorem test_tableCare_3 : holdsAfter (.seqTableWrite (.mspi : Requester) (0x7FFFC : Nat) (5 : Word)) (st_tableCare_3) (fun x => decide (x.status = 0 ∧ x.hw.stagedEntry (st_tableCare_3.hw.windowEntry (.mspi : Requester) (0x7FFFC : Nat)) = some (word64 (st_tableCare_3.hw.heldOr (.mspi : Requester) (entryKey (st_tableCare_3.hw.windowEntry (.mspi : Requester) (0x7FFFC : Nat))) (lo32 ((st_tableCare_3.hw.stagedEntry (st_tableCare_3.hw.windowEntry (.mspi : Requester) (0x7FFFC : Nat))).getD (entryData st_tableCare_3.hw.seq.live (st_tableCare_3.hw.windowEntry (.mspi : Requester) (0x7FFFC : Nat)))))) (5 : Word)) ∧ x.hw.seq = st_tableCare_3.hw.seq)) = true := by decide +kernel

def st_tableCare_4 : State := with_ (fun h => { h with epoch := { h.epoch with sealedSet := some { set := { regs := [], table := [(0, some 1)] }, path := 1, srcId := 0, validated := false, seen := none } } })

theorem wit_tableCare_4 : (st_tableCare_4.hw.writable (.mspi : Requester) = true) ∧ (isTableWindow (0x78004 : Nat) = true) ∧
    ((0x78004 : Nat) % 8 = 4) ∧
    (st_tableCare_4.hw.sealedEntry (st_tableCare_4.hw.windowEntry (.mspi : Requester) (0x78004 : Nat)) = true) := by decide +kernel

theorem test_tableCare_4 : holdsAfter (.seqTableWrite (.mspi : Requester) (0x78004 : Nat) (5 : Word)) (st_tableCare_4) (fun x => decide (x.status = 1 ∧ x.hw.on SEQ_STATUS_WR_REFUSED = true ∧ x.hw.epoch = st_tableCare_4.hw.epoch)) = true := by decide +kernel

def st_tableCare_5 : State := with_ (fun h => h.put SEQ_CTL_SCRUB_EN 1)

theorem wit_tableCare_5 : (st_tableCare_5.hw.live = true) ∧ (st_tableCare_5.hw.coreOn = true) ∧
    (st_tableCare_5.hw.on SEQ_CTL_SCRUB_EN = true) ∧ (st_tableCare_5.hw.seq.scrubPos < 8191) ∧
    (secCorrect (codedAt st_tableCare_5.hw.seq.live st_tableCare_5.hw.seq.scrubPos ^^^ (16 : Word72)) = some (0 : Word72)) ∧
    ((0 : Word72) ≠ codedAt st_tableCare_5.hw.seq.live st_tableCare_5.hw.seq.scrubPos ^^^ (16 : Word72)) := by decide +kernel

theorem test_tableCare_5 : holdsAfter (.seqScrubRead (16 : Word72)) (st_tableCare_5) (fun x => decide (x.hw.seq.scrubPos = st_tableCare_5.hw.seq.scrubPos + 1 ∧ codedAt x.hw.seq.live st_tableCare_5.hw.seq.scrubPos = (0 : Word72) ∧ x.hw.get SEQ_SCRUB_CE_COUNT = satAdd ((SEQ_SCRUB_CE_COUNT).hi + 1 - (SEQ_SCRUB_CE_COUNT).lo) (st_tableCare_5.hw.get SEQ_SCRUB_CE_COUNT) 1)) = true := by decide +kernel

def st_tableCare_6 : State := with_ (fun h => h.put SEQ_CTL_SCRUB_EN 1)

theorem wit_tableCare_6 : (st_tableCare_6.hw.live = true) ∧ (st_tableCare_6.hw.coreOn = true) ∧
    (st_tableCare_6.hw.on SEQ_CTL_SCRUB_EN = true) ∧ (st_tableCare_6.hw.seq.scrubPos < 8191) ∧
    (secCorrect (codedAt st_tableCare_6.hw.seq.live st_tableCare_6.hw.seq.scrubPos ^^^ (0 : Word72)) = some (codedAt st_tableCare_6.hw.seq.live st_tableCare_6.hw.seq.scrubPos ^^^ (0 : Word72))) := by decide +kernel

theorem test_tableCare_6 : holdsAfter (.seqScrubRead (0 : Word72)) (st_tableCare_6) (fun x => decide (x.hw.seq.scrubPos = st_tableCare_6.hw.seq.scrubPos + 1 ∧ codedAt x.hw.seq.live st_tableCare_6.hw.seq.scrubPos = codedAt st_tableCare_6.hw.seq.live st_tableCare_6.hw.seq.scrubPos ^^^ (0 : Word72) ∧ x.hw.regs = st_tableCare_6.hw.regs)) = true := by decide +kernel

def st_tableCare_7 : State := with_ (fun h => h.put SEQ_CTL_SCRUB_EN 1)

theorem wit_tableCare_7 : (st_tableCare_7.hw.live = true) ∧ (st_tableCare_7.hw.coreOn = true) ∧
    (st_tableCare_7.hw.on SEQ_CTL_SCRUB_EN = true) ∧ (st_tableCare_7.hw.seq.scrubPos < 8191) ∧
    (secCorrect (codedAt st_tableCare_7.hw.seq.live st_tableCare_7.hw.seq.scrubPos ^^^ (3 : Word72)) = none) := by decide +kernel

theorem test_tableCare_7 : holdsAfter (.seqScrubRead (3 : Word72)) (st_tableCare_7) (fun x => decide (x.hw.seq.scrubPos = st_tableCare_7.hw.seq.scrubPos + 1 ∧ x.hw.on SEQ_STATUS_CHKSUM = true ∧ x.hw.on (statusBit srcSeqTableChecksum) = true)) = true := by decide +kernel

def st_filterSwaps_1 : State := with_ (fun h => h.put (FIL_RESP_SWAP_EN 511) 1)

theorem wit_filterSwaps_1 : (st_filterSwaps_1.hw.writable (.mspi : Requester) = true) ∧ (natBit (0x800101FF : Word).toNat 31 = true) ∧
    (st_filterSwaps_1.hw.on (FIL_RESP_SWAP_EN (bits (0x800101FF : Word) 8 0)) = true) ∧
    (st_filterSwaps_1.hw.on (FIL_STATUS_FADING (bits (0x800101FF : Word) 8 0)) = false) ∧
    (st_filterSwaps_1.hw.respBad (respOf (st_filterSwaps_1.hw.reg (FIL_RESP (bits (0x800101FF : Word) 8 0))) (bits (0x800101FF : Word) 16 16)) = false) ∧
    ((bits (0x800101FF : Word) 16 16) ≠ st_filterSwaps_1.hw.activeBank (bits (0x800101FF : Word) 8 0)) := by decide +kernel

theorem test_filterSwaps_1 : holdsAfter (.filSwap (.mspi : Requester) (0x800101FF : Word) false) (st_filterSwaps_1) (fun x => decide ((x.hw.chain (bits (0x800101FF : Word) 8 0)).fade = some ((bits (0x800101FF : Word) 16 16), 0) ∧ x.hw.on (FIL_STATUS_FADING (bits (0x800101FF : Word) 8 0)) = true)) = true := by decide +kernel

def st_filterSwaps_2 : State := with_ (fun h => ((h.put (FIL_RESP_SWAP_EN 511) 1).put (FIL_STATUS_FADING 511) 1).put (FIL_STATUS_QUEUED 511) 1)

theorem wit_filterSwaps_2 : (st_filterSwaps_2.hw.writable (.mspi : Requester) = true) ∧ (natBit (0x800101FF : Word).toNat 31 = true) ∧
    (st_filterSwaps_2.hw.on (FIL_RESP_SWAP_EN (bits (0x800101FF : Word) 8 0)) = true) ∧
    (st_filterSwaps_2.hw.on (FIL_STATUS_FADING (bits (0x800101FF : Word) 8 0)) = true) ∧
    (st_filterSwaps_2.hw.respBad (respOf (st_filterSwaps_2.hw.reg (FIL_RESP (bits (0x800101FF : Word) 8 0))) (bits (0x800101FF : Word) 16 16)) = false) := by decide +kernel

theorem test_filterSwaps_2 : holdsAfter (.filSwap (.mspi : Requester) (0x800101FF : Word) false) (st_filterSwaps_2) (fun x => decide (x.hw.on (FIL_STATUS_QUEUED (bits (0x800101FF : Word) 8 0)) = true ∧ x.hw.get (FIL_STATUS_Q_BANK (bits (0x800101FF : Word) 8 0)) = (bits (0x800101FF : Word) 16 16) ∧ (st_filterSwaps_2.hw.on (FIL_STATUS_QUEUED (bits (0x800101FF : Word) 8 0)) = true → x.hw.on (FIL_STATUS_REPLACED (bits (0x800101FF : Word) 8 0)) = true) ∧ x.hw.str = st_filterSwaps_2.hw.str)) = true := by decide +kernel

def st_filterSwaps_3a : State := with_ (fun h => h.put (FIL_RESP_SWAP_EN 511) 1)

theorem wit_filterSwaps_3a : (st_filterSwaps_3a.hw.writable (.mspi : Requester) = true) ∧ (natBit (0x800001FF : Word).toNat 31 = true) ∧
    ((st_filterSwaps_3a.hw.on (FIL_RESP_SWAP_EN (bits (0x800001FF : Word) 8 0)) = false ∨
    st_filterSwaps_3a.hw.respBad (respOf (st_filterSwaps_3a.hw.reg (FIL_RESP (bits (0x800001FF : Word) 8 0))) (bits (0x800001FF : Word) 16 16)) = true ∨
    st_filterSwaps_3a.hw.on (FIL_STATUS_FADING (bits (0x800001FF : Word) 8 0)) = false ∧
    (bits (0x800001FF : Word) 16 16) = st_filterSwaps_3a.hw.activeBank (bits (0x800001FF : Word) 8 0))) := by decide +kernel

theorem test_filterSwaps_3a : holdsAfter (.filSwap (.mspi : Requester) (0x800001FF : Word) false) (st_filterSwaps_3a) (fun x => decide (x.hw.on (FIL_STATUS_IGNORED (bits (0x800001FF : Word) 8 0)) = true ∧ x.hw.str = st_filterSwaps_3a.hw.str)) = true := by decide +kernel

def st_filterSwaps_3b : State := up

theorem wit_filterSwaps_3b : (st_filterSwaps_3b.hw.writable (.portB : Requester) = true) ∧ (natBit (0x800101FF : Word).toNat 31 = true) ∧
    ((st_filterSwaps_3b.hw.on (FIL_RESP_SWAP_EN (bits (0x800101FF : Word) 8 0)) = false ∨
    st_filterSwaps_3b.hw.respBad (respOf (st_filterSwaps_3b.hw.reg (FIL_RESP (bits (0x800101FF : Word) 8 0))) (bits (0x800101FF : Word) 16 16)) = true ∨
    st_filterSwaps_3b.hw.on (FIL_STATUS_FADING (bits (0x800101FF : Word) 8 0)) = false ∧
    (bits (0x800101FF : Word) 16 16) = st_filterSwaps_3b.hw.activeBank (bits (0x800101FF : Word) 8 0))) := by decide +kernel

theorem test_filterSwaps_3b : holdsAfter (.filSwap (.portB : Requester) (0x800101FF : Word) false) (st_filterSwaps_3b) (fun x => decide (x.hw.on (FIL_STATUS_IGNORED (bits (0x800101FF : Word) 8 0)) = true ∧ x.hw.str = st_filterSwaps_3b.hw.str)) = true := by decide +kernel

def st_filterSwaps_4 : State := with_ (fun h => h.put (FIL_RESP_SWAP_EN 511) 1)

theorem wit_filterSwaps_4 : (st_filterSwaps_4.hw.writable (.mspi : Requester) = true) ∧ (natBit (0x800101FF : Word).toNat 31 = true) ∧
    (st_filterSwaps_4.hw.on (FIL_RESP_SWAP_EN (bits (0x800101FF : Word) 8 0)) = true) := by decide +kernel

theorem test_filterSwaps_4 : holdsAfter (.filSwap (.mspi : Requester) (0x800101FF : Word) true) (st_filterSwaps_4) (fun x => decide (x.hw.respBad (respOf (st_filterSwaps_4.hw.reg (FIL_RESP (bits (0x800101FF : Word) 8 0))) (bits (0x800101FF : Word) 16 16)) = true ∧ x.hw.on (FIL_STATUS_IGNORED (bits (0x800101FF : Word) 8 0)) = true ∧ x.hw.on (statusBit srcFilterRomCheck) = true)) = true := by decide +kernel

def st_filterSwaps_5 : State := with_ (fun h => { h with time := { h.time with tick := 10 ^ 9 }, str := { h.str with romNext := 63 } })

theorem wit_filterSwaps_5 : (st_filterSwaps_5.hw.live = true) ∧ (st_filterSwaps_5.hw.coreOn = true) ∧
    (st_filterSwaps_5.hw.due st_filterSwaps_5.hw.str.romDue = true) ∧ (st_filterSwaps_5.hw.str.romNext < 64) := by decide +kernel

theorem test_filterSwaps_5 : holdsAfter (.romBackgroundCheck true true) (st_filterSwaps_5) (fun x => decide (x.hw.respBad st_filterSwaps_5.hw.str.romNext = true ∧ x.hw.str.romNext = st_filterSwaps_5.hw.str.romNext + 1 ∧ x.hw.on (statusBit srcFilterRomCheck) = true)) = true := by decide +kernel

def st_filterSwaps_6 : State := with_ (fun h => { h with time := { h.time with tick := 10 ^ 9 }, str := { h.str with romNext := 64 } })

theorem wit_filterSwaps_6 : (st_filterSwaps_6.hw.live = true) ∧ (st_filterSwaps_6.hw.coreOn = true) ∧
    (st_filterSwaps_6.hw.due st_filterSwaps_6.hw.str.romDue = true) ∧ (st_filterSwaps_6.hw.str.romNext = 64) := by decide +kernel

theorem test_filterSwaps_6 : holdsAfter (.romBackgroundCheck true true) (st_filterSwaps_6) (fun x => decide (x.hw.on FIL_LOAD_HB_BAD = true ∧ x.hw.str.romNext = 0 ∧ x.hw.on (statusBit srcFilterRomCheck) = true)) = true := by decide +kernel

def st_filterSwaps_7 : State := with_ (fun h => { h with time := { h.time with tick := 10 ^ 9 }, str := { h.str with romNext := 64 } })

theorem wit_filterSwaps_7 : (st_filterSwaps_7.hw.live = true) ∧ (st_filterSwaps_7.hw.coreOn = true) ∧
    (st_filterSwaps_7.hw.due st_filterSwaps_7.hw.str.romDue = true) ∧ (((true : Bool) && (false : Bool)) = false) := by decide +kernel

theorem test_filterSwaps_7 : holdsAfter (.romBackgroundCheck (true : Bool) (false : Bool)) (st_filterSwaps_7) (fun x => decide (x.hw.regs = st_filterSwaps_7.hw.regs ∧ x.hw.str.romNext = (st_filterSwaps_7.hw.str.romNext + 1) % 65 ∧ x.hw.str.romDue = st_filterSwaps_7.hw.ns + 1000000)) = true := by decide +kernel

def st_livePath_1 : State := with_ (fun h => ((((h.put SYS_HUB_ID_ID 3).put (DMA_WM_WM 511) 1).put (DMA_CFG_EN 511) 1).put (DMA_CFG_LEN_TILES 511) 1).setStream 511 { stream0 with wpos := 2, rpos := 0, eras := [{ era := 0, started := true, startPos := 0, endPos := none, gone := false, j0 := 0, origin := 0, period := 1000 }], marks := [{ pos := 1, ns := 0, epoch := 0, tq := 0, instant := 0, aux := false }, { pos := 0, ns := 0, epoch := 0, tq := 0, instant := 0, aux := false }] })

def v_livePath_1_e : Era := { era := 0, started := true, startPos := 0, endPos := none, gone := false, j0 := 0, origin := 0, period := 1000 }

theorem wit_livePath_1 : (st_livePath_1.hw.live = true) ∧ (st_livePath_1.hw.coreOn = true) ∧ ((511 : Nat) < 512) ∧
    ((st_livePath_1.hw.stream (511 : Nat)).eraAt (st_livePath_1.hw.stream (511 : Nat)).rpos = some v_livePath_1_e) ∧
    ((st_livePath_1.hw.stream (511 : Nat)).rpos < st_livePath_1.hw.takeLimit (511 : Nat) (st_livePath_1.hw.stream (511 : Nat)).rpos) ∧
    (isPlaceholder (st_livePath_1.hw.bufPeek (511 : Nat) (st_livePath_1.hw.stream (511 : Nat)).rpos) = false) ∧
    ((st_livePath_1.hw.stream (511 : Nat)).leftOver = false) ∧
    ((2 : Nat) = st_livePath_1.hw.runLen (511 : Nat) (st_livePath_1.hw.stream (511 : Nat)).rpos (st_livePath_1.hw.takeLimit (511 : Nat) (st_livePath_1.hw.stream (511 : Nat)).rpos) ((st_livePath_1.hw.stream (511 : Nat)).frameMax (st_livePath_1.hw.stream (511 : Nat)).rpos)) ∧
    ((st_livePath_1.hw.frameDue (511 : Nat) = true ∨ st_livePath_1.hw.runTurns (511 : Nat) (2 : Nat) = true)) ∧
    (((st_livePath_1.hw.bufRead 511 0 2) : Hw × List Word × Bool) = st_livePath_1.hw.bufRead (511 : Nat) (st_livePath_1.hw.stream (511 : Nat)).rpos (2 : Nat)) ∧
    (st_livePath_1.hw.room 2 = true) := by decide +kernel

theorem test_livePath_1 : holdsAfter (.streamFrameBuild (511 : Nat)) (st_livePath_1) (fun x => decide (x.hw.net.egress.length = st_livePath_1.hw.net.egress.length + 1 ∧ x.hw.net.egress.getLast?.map (fun d => (d.frame.ty, d.frame.cls, d.frame.dst, d.frame.flg, d.frame.payload)) = some (0x10, 2, st_livePath_1.hw.get STR_CTL_DEST, ((st_livePath_1.hw.bufRead 511 0 2) : Hw × List Word × Bool).2.2, ((st_livePath_1.hw.bufRead 511 0 2) : Hw × List Word × Bool).1.streamPayload (511 : Nat) (st_livePath_1.hw.stream (511 : Nat)).rpos false v_livePath_1_e ((st_livePath_1.hw.bufRead 511 0 2) : Hw × List Word × Bool).2.1) ∧ (x.hw.stream (511 : Nat)).rpos = (st_livePath_1.hw.stream (511 : Nat)).rpos + (2 : Nat) ∧ (x.hw.stream (511 : Nat)).wpos = (st_livePath_1.hw.stream (511 : Nat)).wpos)) = true := by decide +kernel

def st_livePath_2 : State := with_ (fun h => (h.put SYS_HUB_ID_ID 3).setStream 511 { stream0 with wpos := 2, rpos := 0, eras := [{ era := 0, started := true, startPos := 0, endPos := none, gone := false, j0 := 0, origin := 0, period := 1000 }], marks := [{ pos := 1, ns := 0, epoch := 0, tq := 0, instant := 0, aux := false }, { pos := 0, ns := 0, epoch := 0, tq := 0, instant := 0, aux := false }], losses := [{ era := 0, epoch := 0, reason := 1, pos := 0, first := 4, count := 2 }] })

def v_livePath_2_l : LossRun := { era := 0, epoch := 0, reason := 1, pos := 0, first := 4, count := 2 }

theorem wit_livePath_2 : (st_livePath_2.hw.live = true) ∧ (st_livePath_2.hw.coreOn = true) ∧ ((511 : Nat) < 512) ∧
    (st_livePath_2.hw.trg.gaps = []) ∧
    ((st_livePath_2.hw.stream (511 : Nat)).losses.filter (fun y => (st_livePath_2.hw.stream (511 : Nat)).lossFree y) = v_livePath_2_l :: ([] : List LossRun)) ∧
    (st_livePath_2.hw.room 3 = true) := by decide +kernel

theorem test_livePath_2 : holdsAfter (.gapRecordBuild (511 : Nat)) (st_livePath_2) (fun x => decide (x.hw.net.egress.length = st_livePath_2.hw.net.egress.length + 1 ∧ x.hw.net.egress.getLast?.map (fun d => (d.frame.ty, d.frame.cls, d.frame.epoch, d.frame.payload)) = some (0x11, 3, v_livePath_2_l.epoch % 65536, gapBytes (511 : Nat) v_livePath_2_l.era v_livePath_2_l.reason v_livePath_2_l.first v_livePath_2_l.count) ∧ (x.hw.stream (511 : Nat)).losses = (st_livePath_2.hw.stream (511 : Nat)).losses.erase v_livePath_2_l)) = true := by decide +kernel

def st_livePath_3 : State := with_ (fun h => ((((((h.put SYS_HUB_ID_ID 3).put (DMA_WM_WM 511) 1).put (DMA_CFG_EN 511) 1).put (DMA_CFG_LEN_TILES 511) 1).setMemStored 0 (secEncode (word64 (placeholder 3) (placeholder 3)))).setValid 0 7).setStream 511 { stream0 with wpos := 2, rpos := 0, eras := [{ era := 0, started := true, startPos := 0, endPos := none, gone := false, j0 := 0, origin := 0, period := 1000 }], marks := [{ pos := 1, ns := 0, epoch := 0, tq := 0, instant := 0, aux := false }, { pos := 0, ns := 0, epoch := 0, tq := 0, instant := 0, aux := false }] })

def v_livePath_3_e : Era := { era := 0, started := true, startPos := 0, endPos := none, gone := false, j0 := 0, origin := 0, period := 1000 }

theorem wit_livePath_3 : (st_livePath_3.hw.live = true) ∧ (st_livePath_3.hw.coreOn = true) ∧ ((511 : Nat) < 512) ∧
    (st_livePath_3.hw.trg.gaps = []) ∧
    ((st_livePath_3.hw.stream (511 : Nat)).losses.filter (fun y => (st_livePath_3.hw.stream (511 : Nat)).lossFree y) = []) ∧
    ((st_livePath_3.hw.stream (511 : Nat)).eraAt (st_livePath_3.hw.stream (511 : Nat)).rpos = some v_livePath_3_e) ∧
    ((st_livePath_3.hw.stream (511 : Nat)).rpos < (st_livePath_3.hw.stream (511 : Nat)).wpos) ∧
    (isPlaceholder (st_livePath_3.hw.bufPeek (511 : Nat) (st_livePath_3.hw.stream (511 : Nat)).rpos) = true) ∧
    ((st_livePath_3.hw.stream (511 : Nat)).leftOver = false) ∧
    ((2 : Nat) = st_livePath_3.hw.runLen (511 : Nat) (st_livePath_3.hw.stream (511 : Nat)).rpos (st_livePath_3.hw.stream (511 : Nat)).wpos ((st_livePath_3.hw.stream (511 : Nat)).wpos - (st_livePath_3.hw.stream (511 : Nat)).rpos)) ∧
    ((st_livePath_3.hw.runEnded (511 : Nat) (2 : Nat) = true ∨ st_livePath_3.hw.frameDue (511 : Nat) = true)) ∧
    (st_livePath_3.hw.room 3 = true) := by decide +kernel

theorem test_livePath_3 : holdsAfter (.gapRecordBuild (511 : Nat)) (st_livePath_3) (fun x => decide (x.hw.net.egress.length = st_livePath_3.hw.net.egress.length + 1 ∧ x.hw.net.egress.getLast?.map (fun d => (d.frame.ty, d.frame.cls, d.frame.payload)) = some (0x11, 3, gapBytes (511 : Nat) v_livePath_3_e.era (bits (st_livePath_3.hw.bufPeek (511 : Nat) (st_livePath_3.hw.stream (511 : Nat)).rpos) 31 8) (v_livePath_3_e.indexOf (st_livePath_3.hw.stream (511 : Nat)).rpos) (2 : Nat)) ∧ (x.hw.stream (511 : Nat)).rpos = (st_livePath_3.hw.stream (511 : Nat)).rpos + (2 : Nat))) = true := by decide +kernel

def st_livePath_4 : State := with_ (fun h => (h.put SYS_HUB_ID_ID 3).setStream 0 { stream0 with wpos := 2, rpos := 0, eras := [{ era := 0, started := true, startPos := 0, endPos := none, gone := false, j0 := 0, origin := 0, period := 1000 }], marks := [{ pos := 1, ns := 0, epoch := 0, tq := 0, instant := 0, aux := false }, { pos := 0, ns := 0, epoch := 0, tq := 0, instant := 0, aux := false }], ends := [{ era := 0, reason := gapEraEnd, first := 7, after := 0, left := false }] })

def v_livePath_4_r : EndRecord := { era := 0, reason := gapEraEnd, first := 7, after := 0, left := false }

theorem wit_livePath_4 : (st_livePath_4.hw.live = true) ∧ (st_livePath_4.hw.coreOn = true) ∧ ((0 : Nat) < 512) ∧
    ((st_livePath_4.hw.stream (0 : Nat)).ends = v_livePath_4_r :: ([] : List EndRecord)) ∧
    (v_livePath_4_r.reason = gapEraEnd) ∧ ((v_livePath_4_r.left = true ∨
    v_livePath_4_r.after ≤ (st_livePath_4.hw.stream (0 : Nat)).rpos)) ∧
    ((st_livePath_4.hw.stream (0 : Nat)).losses.all (fun l => decide (l.era ≠ v_livePath_4_r.era)) = true) ∧
    ((st_livePath_4.hw.chain (0 : Nat)).ready.all (fun y => decide (y.era ≠ v_livePath_4_r.era)) = true) ∧
    ((st_livePath_4.hw.stream (0 : Nat)).lone.all (fun y => decide (y.1.era ≠ v_livePath_4_r.era)) = true) ∧
    (st_livePath_4.hw.room 3 = true) := by decide +kernel

theorem test_livePath_4 : holdsAfter (.eraEndRecord (0 : Nat)) (st_livePath_4) (fun x => decide (x.hw.net.egress.length = st_livePath_4.hw.net.egress.length + 1 ∧ x.hw.net.egress.getLast?.map (fun d => (d.frame.ty, d.frame.cls, d.frame.payload)) = some (0x11, 3, gapBytes (0 : Nat) v_livePath_4_r.era gapEraEnd v_livePath_4_r.first 0) ∧ (x.hw.stream (0 : Nat)).ends = ([] : List EndRecord))) = true := by decide +kernel

def st_livePath_5 : State := with_ (fun h => (h.put SYS_HUB_ID_ID 3).setStream 0 { stream0 with wpos := 2, rpos := 0, eras := [{ era := 0, started := true, startPos := 0, endPos := none, gone := false, j0 := 0, origin := 0, period := 1000 }], marks := [{ pos := 1, ns := 0, epoch := 0, tq := 0, instant := 0, aux := false }, { pos := 0, ns := 0, epoch := 0, tq := 0, instant := 0, aux := false }], ends := [{ era := 0, reason := gapStopped, first := 7, after := 0, left := false }] })

def v_livePath_5_r : EndRecord := { era := 0, reason := gapStopped, first := 7, after := 0, left := false }

theorem wit_livePath_5 : (st_livePath_5.hw.live = true) ∧ (st_livePath_5.hw.coreOn = true) ∧ ((0 : Nat) < 512) ∧
    ((st_livePath_5.hw.stream (0 : Nat)).ends = v_livePath_5_r :: ([] : List EndRecord)) ∧
    (v_livePath_5_r.reason = gapStopped) ∧ ((v_livePath_5_r.left = true ∨
    v_livePath_5_r.after ≤ (st_livePath_5.hw.stream (0 : Nat)).rpos)) ∧
    ((st_livePath_5.hw.stream (0 : Nat)).losses.all (fun l => decide (l.era ≠ v_livePath_5_r.era)) = true) ∧
    ((st_livePath_5.hw.chain (0 : Nat)).ready.all (fun y => decide (y.era ≠ v_livePath_5_r.era)) = true) ∧
    ((st_livePath_5.hw.stream (0 : Nat)).lone.all (fun y => decide (y.1.era ≠ v_livePath_5_r.era)) = true) ∧
    (st_livePath_5.hw.room 3 = true) := by decide +kernel

theorem test_livePath_5 : holdsAfter (.stoppedRecord (0 : Nat)) (st_livePath_5) (fun x => decide (x.hw.net.egress.length = st_livePath_5.hw.net.egress.length + 1 ∧ x.hw.net.egress.getLast?.map (fun d => (d.frame.ty, d.frame.cls, d.frame.payload)) = some (0x11, 3, gapBytes (0 : Nat) v_livePath_5_r.era gapStopped v_livePath_5_r.first 0) ∧ (x.hw.stream (0 : Nat)).ends = ([] : List EndRecord))) = true := by decide +kernel

def st_livePath_6 : State := with_ (fun h => h.setHeld .portA STR_BF_COUNT (some 9))

theorem wit_livePath_6 : (st_livePath_6.hw.writable (.portA : Requester) = true) ∧ (natBit (0x81FF0003 : Word).toNat 31 = true) ∧
    ((st_livePath_6.hw.heldOr (.portA : Requester) STR_BF_COUNT (st_livePath_6.hw.reg STR_BF_COUNT)) ≠ 0) ∧
    (st_livePath_6.hw.str.backfill.length < 4) := by decide +kernel

theorem test_livePath_6 : holdsAfter (.backfillSubmit (.portA : Requester) (5 : Nat) (0x81FF0003 : Word)) (st_livePath_6) (fun x => decide (x.status = 0 ∧ x.hw.str.backfill.length = st_livePath_6.hw.str.backfill.length + 1 ∧ x.hw.str.backfill.getLast?.map (fun r => (r.stream, r.era, r.first, r.count)) = some (bits (0x81FF0003 : Word) 24 16, bits (0x81FF0003 : Word) 15 0, (word64 (st_livePath_6.hw.heldOr (.portA : Requester) STR_BF_FIRST_LO (st_livePath_6.hw.reg STR_BF_FIRST_LO)) (st_livePath_6.hw.heldOr (.portA : Requester) STR_BF_FIRST_HI (st_livePath_6.hw.reg STR_BF_FIRST_HI))).toNat, (st_livePath_6.hw.heldOr (.portA : Requester) STR_BF_COUNT (st_livePath_6.hw.reg STR_BF_COUNT)).toNat))) = true := by decide +kernel

def st_livePath_7 : State := with_ (fun h => { h.setHeld .mspi STR_BF_COUNT (some 9) with str := { h.str with backfill := List.replicate 4 { stream := 5, era := 77, first := 3, count := 9, dest := some 4, sending := none, cut := false } } })

theorem wit_livePath_7 : (st_livePath_7.hw.writable (.mspi : Requester) = true) ∧ (natBit (0x81FF0003 : Word).toNat 31 = true) ∧
    ((st_livePath_7.hw.heldOr (.mspi : Requester) STR_BF_COUNT (st_livePath_7.hw.reg STR_BF_COUNT)) ≠ 0) ∧
    (4 ≤ st_livePath_7.hw.str.backfill.length) := by decide +kernel

theorem test_livePath_7 : holdsAfter (.backfillSubmit (.mspi : Requester) (5 : Nat) (0x81FF0003 : Word)) (st_livePath_7) (fun x => decide (x.status = 1 ∧ x.hw = st_livePath_7.hw.flag STR_BF_STATUS_REFUSED)) = true := by decide +kernel

def st_livePath_8 : State := up

theorem wit_livePath_8 : (st_livePath_8.hw.writable (.mspi : Requester) = true) ∧
    ((st_livePath_8.hw.heldOr (.mspi : Requester) STR_BF_COUNT (st_livePath_8.hw.reg STR_BF_COUNT)) = 0) := by decide +kernel

theorem test_livePath_8 : holdsAfter (.backfillSubmit (.mspi : Requester) (5 : Nat) (0x81FF0003 : Word)) (st_livePath_8) (fun x => decide (x.status = 0 ∧ x.hw.str = st_livePath_8.hw.str)) = true := by decide +kernel

def st_livePath_9 : State := with_ (fun h => { h.put SYS_HUB_ID_ID 3 with str := { h.str with backfill := [{ stream := 5, era := 77, first := 3, count := 9, dest := some 4, sending := none, cut := false }] } })

def v_livePath_9_r : BfReq := { stream := 5, era := 77, first := 3, count := 9, dest := some 4, sending := none, cut := false }

theorem wit_livePath_9 : (st_livePath_9.hw.live = true) ∧ (st_livePath_9.hw.coreOn = true) ∧
    (st_livePath_9.hw.str.backfill = v_livePath_9_r :: ([] : List BfReq)) ∧ (v_livePath_9_r.count ≠ 0) ∧
    (v_livePath_9_r.cut = false) ∧ (v_livePath_9_r.sending = none) ∧
    (((st_livePath_9.hw.stream v_livePath_9_r.stream).eras.take 4).find? (fun e => decide (e.era = v_livePath_9_r.era)) = none) ∧
    (st_livePath_9.hw.room 3 = true) := by decide +kernel

theorem test_livePath_9 : holdsAfter (.backfillServe) (st_livePath_9) (fun x => decide (x.hw.str.backfill = ([] : List BfReq) ∧ x.hw.net.egress.length = st_livePath_9.hw.net.egress.length + 1 ∧ x.hw.net.egress.getLast?.map (fun d => (d.frame.cls, d.frame.dst, d.frame.payload)) = some (3, st_livePath_9.hw.bfDest v_livePath_9_r, gapBytes v_livePath_9_r.stream v_livePath_9_r.era gapNotHeld v_livePath_9_r.first v_livePath_9_r.count))) = true := by decide +kernel

def st_livePath_10 : State := with_ (fun h => let k := ((((h.put SYS_HUB_ID_ID 3).put (DMA_WM_WM 511) 1).put (DMA_CFG_EN 511) 1).put (DMA_CFG_LEN_TILES 511) 1).setStream 511 { stream0 with wpos := 2, rpos := 0, eras := [{ era := 0, started := true, startPos := 0, endPos := none, gone := false, j0 := 0, origin := 0, period := 1000 }], marks := [{ pos := 1, ns := 0, epoch := 0, tq := 0, instant := 0, aux := false }, { pos := 0, ns := 0, epoch := 0, tq := 0, instant := 0, aux := false }] }; { k with str := { k.str with backfill := [{ stream := 511, era := 0, first := 1, count := 5, dest := some 4, sending := none, cut := false }] } })

def v_livePath_10_r : BfReq := { stream := 511, era := 0, first := 1, count := 5, dest := some 4, sending := none, cut := false }

def v_livePath_10_e : Era := { era := 0, started := true, startPos := 0, endPos := none, gone := false, j0 := 0, origin := 0, period := 1000 }

theorem wit_livePath_10 : (st_livePath_10.hw.live = true) ∧ (st_livePath_10.hw.coreOn = true) ∧
    (st_livePath_10.hw.str.backfill = v_livePath_10_r :: ([] : List BfReq)) ∧ (v_livePath_10_r.count ≠ 0) ∧
    (v_livePath_10_r.cut = false) ∧ (v_livePath_10_r.sending = none) ∧
    (((st_livePath_10.hw.stream v_livePath_10_r.stream).eras.take 4).find? (fun y => decide (y.era = v_livePath_10_r.era)) = some v_livePath_10_e) ∧
    (v_livePath_10_e.gone = false) ∧ (v_livePath_10_e.j0 ≤ v_livePath_10_r.first) ∧
    (v_livePath_10_r.first < v_livePath_10_e.nextIndex (st_livePath_10.hw.stream v_livePath_10_r.stream).wpos) ∧
    ((st_livePath_10.hw.stream v_livePath_10_r.stream).rpos ≤ v_livePath_10_e.posOf v_livePath_10_r.first) ∧
    ((1 : Nat) = min v_livePath_10_r.count (v_livePath_10_e.nextIndex (st_livePath_10.hw.stream v_livePath_10_r.stream).wpos - v_livePath_10_r.first)) := by decide +kernel

theorem test_livePath_10 : holdsAfter (.backfillServe) (st_livePath_10) (fun x => decide (x.hw.str.backfill = (if v_livePath_10_r.count - (1 : Nat) = 0 then ([] : List BfReq) else v_livePath_10_r.past (1 : Nat) :: ([] : List BfReq)) ∧ x.hw.get STR_BF_CLIPPED_CLIPPED = satAdd 32 (st_livePath_10.hw.get STR_BF_CLIPPED_CLIPPED) (1 : Nat) ∧ x.hw.net.egress = st_livePath_10.hw.net.egress)) = true := by decide +kernel

def st_livePath_11 : State := with_ (fun h => let k := ((((h.put SYS_HUB_ID_ID 3).put (DMA_WM_WM 511) 1).put (DMA_CFG_EN 511) 1).put (DMA_CFG_LEN_TILES 511) 1).setStream 511 { stream0 with wpos := 2, rpos := 1, eras := [{ era := 0, started := true, startPos := 0, endPos := none, gone := false, j0 := 0, origin := 0, period := 1000 }], marks := [{ pos := 1, ns := 0, epoch := 0, tq := 0, instant := 0, aux := false }, { pos := 0, ns := 0, epoch := 0, tq := 0, instant := 0, aux := false }] }; { k with str := { k.str with backfill := [{ stream := 511, era := 0, first := 0, count := 5, dest := some 4, sending := none, cut := false }] } })

def v_livePath_11_r : BfReq := { stream := 511, era := 0, first := 0, count := 5, dest := some 4, sending := none, cut := false }

def v_livePath_11_e : Era := { era := 0, started := true, startPos := 0, endPos := none, gone := false, j0 := 0, origin := 0, period := 1000 }

theorem wit_livePath_11 : (st_livePath_11.hw.live = true) ∧ (st_livePath_11.hw.coreOn = true) ∧
    (st_livePath_11.hw.str.backfill = v_livePath_11_r :: ([] : List BfReq)) ∧ (v_livePath_11_r.count ≠ 0) ∧
    (v_livePath_11_r.cut = false) ∧ (v_livePath_11_r.sending = none) ∧
    (((st_livePath_11.hw.stream v_livePath_11_r.stream).eras.take 4).find? (fun y => decide (y.era = v_livePath_11_r.era)) = some v_livePath_11_e) ∧
    (v_livePath_11_e.gone = false) ∧ (v_livePath_11_e.j0 ≤ v_livePath_11_r.first) ∧
    (v_livePath_11_r.first < v_livePath_11_e.nextIndex (st_livePath_11.hw.stream v_livePath_11_r.stream).wpos) ∧
    (v_livePath_11_e.posOf v_livePath_11_r.first < (st_livePath_11.hw.stream v_livePath_11_r.stream).rpos) ∧
    (st_livePath_11.hw.inBuffer v_livePath_11_r.stream (v_livePath_11_e.posOf v_livePath_11_r.first) = true) ∧
    ((2 : Nat) = min v_livePath_11_r.count (v_livePath_11_e.nextIndex (st_livePath_11.hw.stream v_livePath_11_r.stream).wpos - v_livePath_11_r.first)) ∧
    (isPlaceholder (st_livePath_11.hw.bufPeek v_livePath_11_r.stream (v_livePath_11_e.posOf v_livePath_11_r.first)) = false) ∧
    ((1 : Nat) = st_livePath_11.hw.runLen v_livePath_11_r.stream (v_livePath_11_e.posOf v_livePath_11_r.first) (min (st_livePath_11.hw.stream v_livePath_11_r.stream).rpos (v_livePath_11_e.posOf v_livePath_11_r.first + (2 : Nat))) ((st_livePath_11.hw.stream v_livePath_11_r.stream).frameMax (v_livePath_11_e.posOf v_livePath_11_r.first))) ∧
    (st_livePath_11.hw.classFill 2 < 64) ∧ (st_livePath_11.hw.room 2 = true) := by decide +kernel

theorem test_livePath_11 : holdsAfter (.backfillServe) (st_livePath_11) (fun x => decide (x.hw.str.backfill = (if v_livePath_11_r.count - (1 : Nat) = 0 then ([] : List BfReq) else v_livePath_11_r.past (1 : Nat) :: ([] : List BfReq)) ∧ x.hw.net.egress.length = st_livePath_11.hw.net.egress.length + 1 ∧ x.hw.net.egress.getLast?.map (fun d => (d.frame.ty, d.frame.cls, d.frame.dst)) = some (0x10, 2, st_livePath_11.hw.bfDest v_livePath_11_r))) = true := by decide +kernel

def st_burgeeUnits_1 : State := with_ (fun h => (((((h.put TRG_CTL_ARM 0x8000).setReg (condAddr 15 0 0) (BitVec.ofNat 32 (9 * 2 ^ 28))).put (TRG_ST_CTL_NEXT_HIT (stateReg 15 0)) 5).put (TRG_ST_CTL_COMB (stateReg 15 0)) 0)).setUnit 15 { unit0 with causes := [{ ns := 0, late := false, causes := [.cmd, .entry] }] })

theorem wit_burgeeUnits_1 : (st_burgeeUnits_1.hw.live = true) ∧ ((15 : Nat) < 16) ∧ (st_burgeeUnits_1.hw.unitRuns (15 : Nat) = true) ∧
    ((st_burgeeUnits_1.hw.cycleCauses (15 : Nat)).isEmpty = false) ∧
    ((st_burgeeUnits_1.hw.takeCycle (15 : Nat)).2.a = none) ∧
    ((st_burgeeUnits_1.hw.takeCycle (15 : Nat)).2.b = none) ∧
    (((st_burgeeUnits_1.hw.unitSt (15 : Nat)).latchA = none ∨ (st_burgeeUnits_1.hw.unitSt (15 : Nat)).latchB = none)) := by decide +kernel

theorem test_burgeeUnits_1 : holdsAfter (.triggerDecide (15 : Nat)) (st_burgeeUnits_1) (fun x => decide (x.hw.unitState (15 : Nat) = st_burgeeUnits_1.hw.unitState (15 : Nat) ∧ x.hw.get (TRG_COUNT_COUNT (15 : Nat)) = st_burgeeUnits_1.hw.get (TRG_COUNT_COUNT (15 : Nat)) ∧ (x.hw.unitSt (15 : Nat)).causes = (st_burgeeUnits_1.hw.unitSt (15 : Nat)).causes.tail)) = true := by decide +kernel

def st_burgeeUnits_2 : State := with_ (fun h => (((((h.put TRG_CTL_ARM 0x8000).setReg (condAddr 15 0 0) (BitVec.ofNat 32 (12 * 2 ^ 28))).put (TRG_ST_CTL_NEXT_HIT (stateReg 15 0)) 5).put (TRG_ST_CTL_COMB (stateReg 15 0)) 0).put (TRG_ST_CNT_TARGET (stateReg 15 0)) 2).setUnit 15 { unit0 with causes := [{ ns := 0, late := false, causes := [.cmd, .entry] }] })

theorem wit_burgeeUnits_2 : (st_burgeeUnits_2.hw.live = true) ∧ ((15 : Nat) < 16) ∧ (st_burgeeUnits_2.hw.unitRuns (15 : Nat) = true) ∧
    ((st_burgeeUnits_2.hw.cycleCauses (15 : Nat)).isEmpty = false) ∧
    (st_burgeeUnits_2.hw.get (TRG_ST_CTL_COMB (stateReg (15 : Nat) (st_burgeeUnits_2.hw.unitState (15 : Nat)))) = 0) ∧
    ((st_burgeeUnits_2.hw.takeCycle (15 : Nat)).2.a.isSome = true) ∧
    (st_burgeeUnits_2.hw.get (TRG_COUNT_COUNT (15 : Nat)) + 1 < max 1 (st_burgeeUnits_2.hw.get (TRG_ST_CNT_TARGET (stateReg (15 : Nat) (st_burgeeUnits_2.hw.unitState (15 : Nat)))))) := by decide +kernel

theorem test_burgeeUnits_2 : holdsAfter (.triggerDecide (15 : Nat)) (st_burgeeUnits_2) (fun x => decide (x.hw.unitState (15 : Nat) = st_burgeeUnits_2.hw.unitState (15 : Nat) ∧ x.hw.get (TRG_COUNT_COUNT (15 : Nat)) = st_burgeeUnits_2.hw.get (TRG_COUNT_COUNT (15 : Nat)) + 1)) = true := by decide +kernel

def st_burgeeUnits_3 : State := with_ (fun h => (((((h.put TRG_CTL_ARM 0x8000).setReg (condAddr 15 0 0) (BitVec.ofNat 32 (12 * 2 ^ 28))).put (TRG_ST_CTL_NEXT_HIT (stateReg 15 0)) 5).put (TRG_ST_CTL_COMB (stateReg 15 0)) 0).put (TRG_ST_CTL_ACT_HIT (stateReg 15 0)) 63).setUnit 15 { unit0 with causes := [{ ns := 0, late := false, causes := [.cmd, .entry] }] })

theorem wit_burgeeUnits_3 : (st_burgeeUnits_3.hw.live = true) ∧ ((15 : Nat) < 16) ∧ (st_burgeeUnits_3.hw.unitRuns (15 : Nat) = true) ∧
    ((st_burgeeUnits_3.hw.cycleCauses (15 : Nat)).isEmpty = false) ∧
    (st_burgeeUnits_3.hw.get (TRG_ST_CTL_COMB (stateReg (15 : Nat) (st_burgeeUnits_3.hw.unitState (15 : Nat)))) = 0) ∧
    ((st_burgeeUnits_3.hw.takeCycle (15 : Nat)).2.a.isSome = true) ∧
    (max 1 (st_burgeeUnits_3.hw.get (TRG_ST_CNT_TARGET (stateReg (15 : Nat) (st_burgeeUnits_3.hw.unitState (15 : Nat))))) ≤ st_burgeeUnits_3.hw.get (TRG_COUNT_COUNT (15 : Nat)) + 1) ∧
    (st_burgeeUnits_3.hw.get (TRG_COUNT_COUNT (15 : Nat)) + 1 < 2 ^ 32) ∧
    (st_burgeeUnits_3.hw.get (TRG_ST_CTL_NEXT_HIT (stateReg (15 : Nat) (st_burgeeUnits_3.hw.unitState (15 : Nat)))) < 8) := by decide +kernel

theorem test_burgeeUnits_3 : holdsAfter (.triggerDecide (15 : Nat)) (st_burgeeUnits_3) (fun x => decide (x.hw.unitState (15 : Nat) = st_burgeeUnits_3.hw.get (TRG_ST_CTL_NEXT_HIT (stateReg (15 : Nat) (st_burgeeUnits_3.hw.unitState (15 : Nat)))) ∧ x.hw.get (TRG_COUNT_COUNT (15 : Nat)) = 0 ∧ (x.hw.unitSt (15 : Nat)).entered = st_burgeeUnits_3.hw.time.now)) = true := by decide +kernel

def st_burgeeUnits_4 : State := with_ (fun h => (((((h.put TRG_CTL_ARM 0x8000).setReg (condAddr 15 0 0) (BitVec.ofNat 32 (12 * 2 ^ 28))).put (TRG_ST_CTL_NEXT_HIT (stateReg 15 0)) 9).put (TRG_ST_CTL_COMB (stateReg 15 0)) 0)).setUnit 15 { unit0 with causes := [{ ns := 0, late := false, causes := [.cmd, .entry] }] })

theorem wit_burgeeUnits_4 : (st_burgeeUnits_4.hw.live = true) ∧ ((15 : Nat) < 16) ∧ (st_burgeeUnits_4.hw.unitRuns (15 : Nat) = true) ∧
    ((st_burgeeUnits_4.hw.cycleCauses (15 : Nat)).isEmpty = false) ∧
    (st_burgeeUnits_4.hw.get (TRG_ST_CTL_COMB (stateReg (15 : Nat) (st_burgeeUnits_4.hw.unitState (15 : Nat)))) = 0) ∧
    ((st_burgeeUnits_4.hw.takeCycle (15 : Nat)).2.a.isSome = true) ∧
    (max 1 (st_burgeeUnits_4.hw.get (TRG_ST_CNT_TARGET (stateReg (15 : Nat) (st_burgeeUnits_4.hw.unitState (15 : Nat))))) ≤ st_burgeeUnits_4.hw.get (TRG_COUNT_COUNT (15 : Nat)) + 1) ∧
    (st_burgeeUnits_4.hw.get (TRG_COUNT_COUNT (15 : Nat)) + 1 < 2 ^ 32) ∧
    (st_burgeeUnits_4.hw.get (TRG_ST_CTL_NEXT_HIT (stateReg (15 : Nat) (st_burgeeUnits_4.hw.unitState (15 : Nat)))) = 9) := by decide +kernel

theorem test_burgeeUnits_4 : holdsAfter (.triggerDecide (15 : Nat)) (st_burgeeUnits_4) (fun x => decide (x.hw.on (TRG_STAT_STOPPED (15 : Nat)) = true ∧ (x.hw.unitSt (15 : Nat)).causes = [])) = true := by decide +kernel

def st_burgeeUnits_5 : State := with_ (fun h => { ((h.put TRG_CTL_ARM 0x8000).put (TRG_ST_TMR_LO_TMR_LO (stateReg 15 0)) 5).put (TRG_ST_CTL_NEXT_TO (stateReg 15 0)) 5 with time := { h.time with now := 2 ^ 50 } })

theorem wit_burgeeUnits_5 : (st_burgeeUnits_5.hw.live = true) ∧ ((15 : Nat) < 16) ∧ (st_burgeeUnits_5.hw.unitRuns (15 : Nat) = true) ∧
    (st_burgeeUnits_5.hw.timerDue (15 : Nat) = true) ∧ ((st_burgeeUnits_5.hw.unitSt (15 : Nat)).causes = []) ∧
    (st_burgeeUnits_5.hw.timeReached (15 : Nat) 0 = false) ∧ (st_burgeeUnits_5.hw.timeReached (15 : Nat) 1 = false) ∧
    (((st_burgeeUnits_5.hw.unitSt (15 : Nat)).latchA = none ∨
    (st_burgeeUnits_5.hw.unitSt (15 : Nat)).latchB = none)) ∧
    (st_burgeeUnits_5.hw.get (TRG_ST_CTL_NEXT_TO (stateReg (15 : Nat) (st_burgeeUnits_5.hw.unitState (15 : Nat)))) < 8) := by decide +kernel

theorem test_burgeeUnits_5 : holdsAfter (.triggerTimeout (15 : Nat)) (st_burgeeUnits_5) (fun x => decide (x.hw.unitState (15 : Nat) = st_burgeeUnits_5.hw.get (TRG_ST_CTL_NEXT_TO (stateReg (15 : Nat) (st_burgeeUnits_5.hw.unitState (15 : Nat)))) ∧ (x.hw.unitSt (15 : Nat)).entered = st_burgeeUnits_5.hw.time.now ∧ x.hw.get (TRG_COUNT_COUNT (15 : Nat)) = 0)) = true := by decide +kernel

def st_burgeeUnits_6 : State := with_ (fun h => { ((h.put TRG_CTL_ARM 0x8000).put (TRG_ST_TMR_LO_TMR_LO (stateReg 15 0)) 5).put (TRG_ST_CTL_NEXT_TO (stateReg 15 0)) 9 with time := { h.time with now := 2 ^ 50 } })

theorem wit_burgeeUnits_6 : (st_burgeeUnits_6.hw.live = true) ∧ ((15 : Nat) < 16) ∧ (st_burgeeUnits_6.hw.unitRuns (15 : Nat) = true) ∧
    (st_burgeeUnits_6.hw.timerDue (15 : Nat) = true) ∧ ((st_burgeeUnits_6.hw.unitSt (15 : Nat)).causes = []) ∧
    (st_burgeeUnits_6.hw.timeReached (15 : Nat) 0 = false) ∧ (st_burgeeUnits_6.hw.timeReached (15 : Nat) 1 = false) ∧
    (((st_burgeeUnits_6.hw.unitSt (15 : Nat)).latchA = none ∨
    (st_burgeeUnits_6.hw.unitSt (15 : Nat)).latchB = none)) ∧
    (st_burgeeUnits_6.hw.get (TRG_ST_CTL_NEXT_TO (stateReg (15 : Nat) (st_burgeeUnits_6.hw.unitState (15 : Nat)))) = 9) := by decide +kernel

theorem test_burgeeUnits_6 : holdsAfter (.triggerTimeout (15 : Nat)) (st_burgeeUnits_6) (fun x => decide (x.hw.on (TRG_STAT_STOPPED (15 : Nat)) = true ∧ (x.hw.unitSt (15 : Nat)).causes = [])) = true := by decide +kernel

def st_burgeeUnits_7 : State := with_ (fun h => ((h.put TRG_CTL_ARM 0x8001).put (TRG_UNIT_START 15) 6).put (TRG_STAT_STOPPED 15) 1)

theorem wit_burgeeUnits_7 : (st_burgeeUnits_7.hw.writable (.mspi : Requester) = true) ∧ ((15 : Nat) < 16) ∧
    (natBit (0x8001 : Word).toNat (15 : Nat) = true) ∧ (st_burgeeUnits_7.hw.armed (15 : Nat) = true) := by decide +kernel

theorem test_burgeeUnits_7 : holdsAfter (.trgRestart (.mspi : Requester) (0x8001 : Word)) (st_burgeeUnits_7) (fun x => decide (x.hw.unitState (15 : Nat) = st_burgeeUnits_7.hw.get (TRG_UNIT_START (15 : Nat)) ∧ x.hw.on (TRG_STAT_STOPPED (15 : Nat)) = false ∧ (x.hw.unitSt (15 : Nat)).entered = st_burgeeUnits_7.hw.time.now)) = true := by decide +kernel

def st_burgeeUnits_8 : State := with_ (fun h => h.put TRG_CTL_ARM 0x8001)

theorem wit_burgeeUnits_8 : (st_burgeeUnits_8.hw.writable (.mspi : Requester) = true) ∧ ((15 : Nat) < 16) ∧
    (natBit (0x8001 : Word).toNat (15 : Nat) = true) ∧ (st_burgeeUnits_8.hw.armed (15 : Nat) = true) ∧
    (st_burgeeUnits_8.hw.on (TRG_STAT_STOPPED (15 : Nat)) = false) := by decide +kernel

theorem test_burgeeUnits_8 : holdsAfter (.trgFire (.mspi : Requester) (0x8001 : Word)) (st_burgeeUnits_8) (fun x => decide ((x.hw.unitSt (15 : Nat)).causes = (if st_burgeeUnits_8.hw.coreOn then queueBatch { ns := st_burgeeUnits_8.hw.ns, late := false, causes := [.cmd] } (st_burgeeUnits_8.hw.unitSt (15 : Nat)).causes else holdBatch { ns := st_burgeeUnits_8.hw.ns, late := false, causes := [.cmd] } (st_burgeeUnits_8.hw.unitSt (15 : Nat)).causes) ∧ x.hw.regs = st_burgeeUnits_8.hw.regs)) = true := by decide +kernel

def st_captureSegments_1 : State := with_ (fun h => (((h.put (TRG_CAP_EN 15) 1).put (TRG_CAP_LEN_LEN 15) 64).put (TRG_CAP_POOL_LEN_TILES 15) 3).setUnit 15 { unit0 with alloc := some { hit := { code := 4, time := 77, src := 0, index := 0, era := 0 }, stateAt := 0 }, next := 9 })

def v_captureSegments_1_r : CapReq := { hit := { code := 4, time := 77, src := 0, index := 0, era := 0 }, stateAt := 0 }

theorem wit_captureSegments_1 : (st_captureSegments_1.hw.live = true) ∧ (st_captureSegments_1.hw.coreOn = true) ∧ ((15 : Nat) < 16) ∧
    ((st_captureSegments_1.hw.unitSt (15 : Nat)).alloc = some v_captureSegments_1_r) ∧
    (st_captureSegments_1.hw.on (TRG_CAP_EN (15 : Nat)) = true) ∧ (st_captureSegments_1.hw.nslots (15 : Nat) ≠ 0) ∧
    ((st_captureSegments_1.hw.unitSt (15 : Nat)).next < 4096) ∧
    (st_captureSegments_1.hw.segState (st_captureSegments_1.hw.unitSt (15 : Nat)).next = 0) ∧
    ((0 : Nat) = (st_captureSegments_1.hw.get (TRG_CAP_POOL_BASE_TILE (15 : Nat)) + segTiles (st_captureSegments_1.hw.get (TRG_CAP_NSTR_M1 (15 : Nat)) + 1) (st_captureSegments_1.hw.get (TRG_CAP_LEN_LEN (15 : Nat))) * (((st_captureSegments_1.hw.unitSt (15 : Nat)).next - st_captureSegments_1.hw.get (TRG_CAP_SEG_SEG_BASE (15 : Nat))) % st_captureSegments_1.hw.nslots (15 : Nat)))) ∧
    (st_captureSegments_1.hw.slotHeld (0 : Nat) ((0 : Nat) + segTiles (st_captureSegments_1.hw.get (TRG_CAP_NSTR_M1 (15 : Nat)) + 1) (st_captureSegments_1.hw.get (TRG_CAP_LEN_LEN (15 : Nat)))) = false) := by decide +kernel

theorem test_captureSegments_1 : holdsAfter (.segmentAllocate (15 : Nat)) (st_captureSegments_1) (fun x => decide (x.hw.segState (st_captureSegments_1.hw.unitSt (15 : Nat)).next = 1 ∧ (x.hw.seg (st_captureSegments_1.hw.unitSt (15 : Nat)).next).map SegSt.unit = some (15 : Nat) ∧ x.hw.get (TRG_STAT_LAST_SEG (15 : Nat)) = (st_captureSegments_1.hw.unitSt (15 : Nat)).next ∧ (x.hw.unitSt (15 : Nat)).alloc = (st_captureSegments_1.hw.unitSt (15 : Nat)).heldReq)) = true := by decide +kernel

def st_captureSegments_2 : State := with_ (fun h => ((((h.put (TRG_CAP_EN 15) 1).put (TRG_CAP_LEN_LEN 15) 64).put (TRG_CAP_POOL_LEN_TILES 15) 3).setSegState 9 3).setUnit 15 { unit0 with alloc := some { hit := { code := 4, time := 77, src := 0, index := 0, era := 0 }, stateAt := 0 }, next := 9 })

def v_captureSegments_2_r : CapReq := { hit := { code := 4, time := 77, src := 0, index := 0, era := 0 }, stateAt := 0 }

theorem wit_captureSegments_2 : (st_captureSegments_2.hw.live = true) ∧ (st_captureSegments_2.hw.coreOn = true) ∧ ((15 : Nat) < 16) ∧
    ((st_captureSegments_2.hw.unitSt (15 : Nat)).alloc = some v_captureSegments_2_r) ∧
    (st_captureSegments_2.hw.on (TRG_CAP_EN (15 : Nat)) = true) ∧ (st_captureSegments_2.hw.nslots (15 : Nat) ≠ 0) ∧
    ((st_captureSegments_2.hw.unitSt (15 : Nat)).next < 4096) ∧
    (st_captureSegments_2.hw.segState (st_captureSegments_2.hw.unitSt (15 : Nat)).next ≠ 0) := by decide +kernel

theorem test_captureSegments_2 : holdsAfter (.segmentAllocate (15 : Nat)) (st_captureSegments_2) (fun x => decide (x.hw.get (TRG_MISSED_MISSED (15 : Nat)) = satAdd 32 (st_captureSegments_2.hw.get (TRG_MISSED_MISSED (15 : Nat))) 1 ∧ x.hw.on (TRG_STAT_TFULL (15 : Nat)) = true ∧ (x.hw.unitSt (15 : Nat)).alloc = (st_captureSegments_2.hw.unitSt (15 : Nat)).heldReq ∧ x.hw.trg.segs = st_captureSegments_2.hw.trg.segs)) = true := by decide +kernel

def st_captureSegments_3 : State := (let a := with_ (fun h => (h.setSeg 4095 (some { unit := 2, len := 64, cap := 0, meas := 0, mask := 0, period := 0, epoch := 0, streams := [{ stream := 5, era := 0, first := 0, pre := 0, want := 64, preDone := 0, postDone := 3, miss := [] }], entrySent := false, rdStream := 0, rdWord := 0 })).setSegState 4095 1); { a with hw := (a.hw.put (DMA_CFG_LEN_TILES 5) 1).setStream 5 { stream0 with wpos := 9, rpos := 0, eras := [{ era := 0, started := true, startPos := 0, endPos := none, gone := false, j0 := 0, origin := 0, period := 1000 }], marks := [{ pos := 1, ns := 0, epoch := 0, tq := 0, instant := 0, aux := false }, { pos := 0, ns := 0, epoch := 0, tq := 0, instant := 0, aux := false }] } } : State)

def v_captureSegments_3_y : SegSt := { unit := 2, len := 64, cap := 0, meas := 0, mask := 0, period := 0, epoch := 0, streams := [{ stream := 5, era := 0, first := 0, pre := 0, want := 64, preDone := 0, postDone := 3, miss := [] }], entrySent := false, rdStream := 0, rdWord := 0 }

def v_captureSegments_3_z : SegStream := { stream := 5, era := 0, first := 0, pre := 0, want := 64, preDone := 0, postDone := 3, miss := [] }

def v_captureSegments_3_e : Era := { era := 0, started := true, startPos := 0, endPos := none, gone := false, j0 := 0, origin := 0, period := 1000 }

theorem wit_captureSegments_3 : (st_captureSegments_3.hw.live = true) ∧ (st_captureSegments_3.hw.coreOn = true) ∧ ((4095 : Nat) < 4096) ∧
    ((0 : Nat) < 16) ∧ (st_captureSegments_3.hw.seg (4095 : Nat) = some v_captureSegments_3_y) ∧
    (v_captureSegments_3_y.streams[(0 : Nat)]? = some v_captureSegments_3_z) ∧
    (st_captureSegments_3.hw.segState (4095 : Nat) = 1) ∧
    ((st_captureSegments_3.hw.stream v_captureSegments_3_z.stream).eras.find? (fun w => decide (w.era = v_captureSegments_3_z.era) && !w.gone) = some v_captureSegments_3_e) ∧
    (v_captureSegments_3_z.pre + v_captureSegments_3_z.postDone < v_captureSegments_3_z.want) ∧
    (v_captureSegments_3_z.first + (v_captureSegments_3_z.pre + v_captureSegments_3_z.postDone) < v_captureSegments_3_e.nextIndex (st_captureSegments_3.hw.stream v_captureSegments_3_z.stream).wpos) ∧
    (st_captureSegments_3.hw.undecided v_captureSegments_3_z.stream (v_captureSegments_3_e.posOf (v_captureSegments_3_z.first + (v_captureSegments_3_z.pre + v_captureSegments_3_z.postDone))) = false) ∧
    (st_captureSegments_3.hw.inBuffer v_captureSegments_3_z.stream (v_captureSegments_3_e.posOf (v_captureSegments_3_z.first + (v_captureSegments_3_z.pre + v_captureSegments_3_z.postDone))) = true) := by decide +kernel

theorem test_captureSegments_3 : holdsAfter (.segmentWordCopy (4095 : Nat) (0 : Nat)) (st_captureSegments_3) (fun x => decide (((x.hw.seg (4095 : Nat)).bind (fun w => w.streams[(0 : Nat)]?)).map SegStream.postDone = some (v_captureSegments_3_z.postDone + 1) ∧ x.hw.segGet (4095 : Nat) 11 31 0 = st_captureSegments_3.hw.segGet (4095 : Nat) 11 31 0)) = true := by decide +kernel

def st_captureSegments_4 : State := (let a := with_ (fun h => (h.setSeg 4095 (some { unit := 2, len := 64, cap := 0, meas := 0, mask := 0, period := 0, epoch := 0, streams := [{ stream := 5, era := 0, first := 0, pre := 0, want := 64, preDone := 0, postDone := 3, miss := [] }], entrySent := false, rdStream := 0, rdWord := 0 })).setSegState 4095 1); { a with hw := (a.hw).setStream 5 { stream0 with wpos := 9, rpos := 0, eras := [{ era := 0, started := true, startPos := 0, endPos := none, gone := false, j0 := 0, origin := 0, period := 1000 }], marks := [{ pos := 1, ns := 0, epoch := 0, tq := 0, instant := 0, aux := false }, { pos := 0, ns := 0, epoch := 0, tq := 0, instant := 0, aux := false }] } } : State)

def v_captureSegments_4_y : SegSt := { unit := 2, len := 64, cap := 0, meas := 0, mask := 0, period := 0, epoch := 0, streams := [{ stream := 5, era := 0, first := 0, pre := 0, want := 64, preDone := 0, postDone := 3, miss := [] }], entrySent := false, rdStream := 0, rdWord := 0 }

def v_captureSegments_4_z : SegStream := { stream := 5, era := 0, first := 0, pre := 0, want := 64, preDone := 0, postDone := 3, miss := [] }

def v_captureSegments_4_e : Era := { era := 0, started := true, startPos := 0, endPos := none, gone := false, j0 := 0, origin := 0, period := 1000 }

theorem wit_captureSegments_4 : (st_captureSegments_4.hw.live = true) ∧ (st_captureSegments_4.hw.coreOn = true) ∧ ((4095 : Nat) < 4096) ∧
    ((0 : Nat) < 16) ∧ (st_captureSegments_4.hw.seg (4095 : Nat) = some v_captureSegments_4_y) ∧
    (v_captureSegments_4_y.streams[(0 : Nat)]? = some v_captureSegments_4_z) ∧
    (st_captureSegments_4.hw.segState (4095 : Nat) = 1) ∧
    ((st_captureSegments_4.hw.stream v_captureSegments_4_z.stream).eras.find? (fun w => decide (w.era = v_captureSegments_4_z.era) && !w.gone) = some v_captureSegments_4_e) ∧
    (v_captureSegments_4_z.pre + v_captureSegments_4_z.postDone < v_captureSegments_4_z.want) ∧
    (v_captureSegments_4_z.first + (v_captureSegments_4_z.pre + v_captureSegments_4_z.postDone) < v_captureSegments_4_e.nextIndex (st_captureSegments_4.hw.stream v_captureSegments_4_z.stream).wpos) ∧
    (st_captureSegments_4.hw.undecided v_captureSegments_4_z.stream (v_captureSegments_4_e.posOf (v_captureSegments_4_z.first + (v_captureSegments_4_z.pre + v_captureSegments_4_z.postDone))) = false) ∧
    (st_captureSegments_4.hw.inBuffer v_captureSegments_4_z.stream (v_captureSegments_4_e.posOf (v_captureSegments_4_z.first + (v_captureSegments_4_z.pre + v_captureSegments_4_z.postDone))) = false) := by decide +kernel

theorem test_captureSegments_4 : holdsAfter (.segmentWordCopy (4095 : Nat) (0 : Nat)) (st_captureSegments_4) (fun x => decide (((x.hw.seg (4095 : Nat)).bind (fun w => w.streams[(0 : Nat)]?)).map SegStream.postDone = some (v_captureSegments_4_z.postDone + 1) ∧ x.hw.segGet (4095 : Nat) 0 28 28 = 1 ∧ x.hw.segGet (4095 : Nat) 11 31 0 = (st_captureSegments_4.hw.segGet (4095 : Nat) 11 31 0 + 1) % 2 ^ 32)) = true := by decide +kernel

def st_captureSegments_5 : State := with_ (fun h => (h.setSeg 4095 (some { unit := 2, len := 64, cap := 0, meas := 0, mask := 0, period := 0, epoch := 0, streams := [{ stream := 5, era := 0, first := 0, pre := 0, want := 64, preDone := 0, postDone := 64, miss := [] }], entrySent := false, rdStream := 0, rdWord := 0 })).setSegState 4095 1)

def v_captureSegments_5_y : SegSt := { unit := 2, len := 64, cap := 0, meas := 0, mask := 0, period := 0, epoch := 0, streams := [{ stream := 5, era := 0, first := 0, pre := 0, want := 64, preDone := 0, postDone := 64, miss := [] }], entrySent := false, rdStream := 0, rdWord := 0 }

theorem wit_captureSegments_5 : (st_captureSegments_5.hw.live = true) ∧ (st_captureSegments_5.hw.coreOn = true) ∧ ((4095 : Nat) < 4096) ∧
    (st_captureSegments_5.hw.seg (4095 : Nat) = some v_captureSegments_5_y) ∧ (v_captureSegments_5_y.full = true) ∧
    (st_captureSegments_5.hw.segState (4095 : Nat) = 1) := by decide +kernel

theorem test_captureSegments_5 : holdsAfter (.segmentClose (4095 : Nat)) (st_captureSegments_5) (fun x => decide (x.hw.segState (4095 : Nat) = 2 ∧ x.hw.trg.closing = st_captureSegments_5.hw.trg.closing ++ [(4095 : Nat)])) = true := by decide +kernel

def st_captureSegments_6a : State := (let a := with_ (fun h => (h.setSeg 4095 (some { unit := 2, len := 64, cap := 0x01000000, meas := 0, mask := 0, period := 0, epoch := 0, streams := [{ stream := 5, era := 0, first := 0, pre := 0, want := 64, preDone := 0, postDone := 64, miss := [] }], entrySent := false, rdStream := 0, rdWord := 0 })).setSegState 4095 2); { a with hw := { a.hw with trg := { a.hw.trg with closing := [4095] } } } : State)

def v_captureSegments_6a_y : SegSt := { unit := 2, len := 64, cap := 0x01000000, meas := 0, mask := 0, period := 0, epoch := 0, streams := [{ stream := 5, era := 0, first := 0, pre := 0, want := 64, preDone := 0, postDone := 64, miss := [] }], entrySent := false, rdStream := 0, rdWord := 0 }

theorem wit_captureSegments_6a : (st_captureSegments_6a.hw.live = true) ∧ (st_captureSegments_6a.hw.coreOn = true) ∧ ((4095 : Nat) < 4096) ∧
    (st_captureSegments_6a.hw.seg (4095 : Nat) = some v_captureSegments_6a_y) ∧
    (st_captureSegments_6a.hw.trg.closing = (4095 : Nat) :: ([] : List Nat)) := by decide +kernel

theorem test_captureSegments_6a : holdsAfter (.segmentMeasureDone (4095 : Nat)) (st_captureSegments_6a) (fun x => decide (x.hw.segState (4095 : Nat) = 3 ∧ x.hw.trg.closing = ([] : List Nat) ∧ x.hw.trg.reading = (if natBit v_captureSegments_6a_y.cap.toNat 24 then st_captureSegments_6a.hw.trg.reading ++ [(4095 : Nat)] else st_captureSegments_6a.hw.trg.reading))) = true := by decide +kernel

def st_captureSegments_6b : State := (let a := with_ (fun h => (h.setSeg 4095 (some { unit := 2, len := 64, cap := 0, meas := 0, mask := 0, period := 0, epoch := 0, streams := [{ stream := 5, era := 0, first := 0, pre := 0, want := 64, preDone := 0, postDone := 64, miss := [] }], entrySent := false, rdStream := 0, rdWord := 0 })).setSegState 4095 2); { a with hw := { a.hw with trg := { a.hw.trg with closing := [4095] } } } : State)

def v_captureSegments_6b_y : SegSt := { unit := 2, len := 64, cap := 0, meas := 0, mask := 0, period := 0, epoch := 0, streams := [{ stream := 5, era := 0, first := 0, pre := 0, want := 64, preDone := 0, postDone := 64, miss := [] }], entrySent := false, rdStream := 0, rdWord := 0 }

theorem wit_captureSegments_6b : (st_captureSegments_6b.hw.live = true) ∧ (st_captureSegments_6b.hw.coreOn = true) ∧ ((4095 : Nat) < 4096) ∧
    (st_captureSegments_6b.hw.seg (4095 : Nat) = some v_captureSegments_6b_y) ∧
    (st_captureSegments_6b.hw.trg.closing = (4095 : Nat) :: ([] : List Nat)) := by decide +kernel

theorem test_captureSegments_6b : holdsAfter (.segmentMeasureDone (4095 : Nat)) (st_captureSegments_6b) (fun x => decide (x.hw.segState (4095 : Nat) = 3 ∧ x.hw.trg.closing = ([] : List Nat) ∧ x.hw.trg.reading = (if natBit v_captureSegments_6b_y.cap.toNat 24 then st_captureSegments_6b.hw.trg.reading ++ [(4095 : Nat)] else st_captureSegments_6b.hw.trg.reading))) = true := by decide +kernel

def st_captureSegments_7 : State := with_ (fun h => (h.setSeg 4095 (some { unit := 2, len := 64, cap := 0, meas := 0, mask := 0, period := 0, epoch := 0, streams := [{ stream := 5, era := 0, first := 0, pre := 0, want := 64, preDone := 0, postDone := 64, miss := [] }], entrySent := false, rdStream := 0, rdWord := 0 })).setSegState 4095 3)

def v_captureSegments_7_y : SegSt := { unit := 2, len := 64, cap := 0, meas := 0, mask := 0, period := 0, epoch := 0, streams := [{ stream := 5, era := 0, first := 0, pre := 0, want := 64, preDone := 0, postDone := 64, miss := [] }], entrySent := false, rdStream := 0, rdWord := 0 }

theorem wit_captureSegments_7 : (st_captureSegments_7.hw.writable (.mspi : Requester) = true) ∧ (natBit (0x80000FFF : Word).toNat 31 = true) ∧
    (st_captureSegments_7.hw.seg (bits (0x80000FFF : Word) 11 0) = some v_captureSegments_7_y) ∧
    (st_captureSegments_7.hw.segState (bits (0x80000FFF : Word) 11 0) = 3) ∧
    (natBit v_captureSegments_7_y.cap.toNat 24 = false) := by decide +kernel

theorem test_captureSegments_7 : holdsAfter (.trgSegRel (.mspi : Requester) (0x80000FFF : Word)) (st_captureSegments_7) (fun x => decide (x.hw.seg (bits (0x80000FFF : Word) 11 0) = none ∧ x.hw.segState (bits (0x80000FFF : Word) 11 0) = 0)) = true := by decide +kernel

def st_captureSegments_8 : State := with_ (fun h => (h.setSeg 4095 (some { unit := 2, len := 64, cap := 0x01000000, meas := 0, mask := 0, period := 0, epoch := 0, streams := [{ stream := 5, era := 0, first := 0, pre := 0, want := 64, preDone := 0, postDone := 64, miss := [] }], entrySent := false, rdStream := 0, rdWord := 0 })).setSegState 4095 3)

def v_captureSegments_8_y : SegSt := { unit := 2, len := 64, cap := 0x01000000, meas := 0, mask := 0, period := 0, epoch := 0, streams := [{ stream := 5, era := 0, first := 0, pre := 0, want := 64, preDone := 0, postDone := 64, miss := [] }], entrySent := false, rdStream := 0, rdWord := 0 }

theorem wit_captureSegments_8 : (st_captureSegments_8.hw.writable (.mspi : Requester) = true) ∧
    (st_captureSegments_8.hw.seg (bits (0x80000FFF : Word) 11 0) = some v_captureSegments_8_y) ∧
    ((st_captureSegments_8.hw.segState (bits (0x80000FFF : Word) 11 0) ≠ 3 ∨
    natBit v_captureSegments_8_y.cap.toNat 24 = true)) := by decide +kernel

theorem test_captureSegments_8 : holdsAfter (.trgSegRel (.mspi : Requester) (0x80000FFF : Word)) (st_captureSegments_8) (fun x => decide (x.hw = st_captureSegments_8.hw)) = true := by decide +kernel

def st_captureMemory_1 : State := up

theorem wit_captureMemory_1 : (st_captureMemory_1.hw.writable (.mspi : Requester) = true) ∧ (isWindow (0x117FFFF8 : Nat) = true) ∧
    ((0x117FFFF8 : Nat) % 8 = 0) := by decide +kernel

theorem test_captureMemory_1 : holdsAfter (.memWindowWrite (.mspi : Requester) (0x117FFFF8 : Nat) (0x12345678 : Word)) (st_captureMemory_1) (fun x => decide (x.hw = st_captureMemory_1.hw.setHeld (.mspi : Requester) (0x117FFFF8 : Nat) (some (0x12345678 : Word)))) = true := by decide +kernel

def st_captureMemory_2a : State := with_ (fun h => h.setHeld .mspi 0x117FFFF8 (some 0xDEADBEEF))

theorem wit_captureMemory_2a : (st_captureMemory_2a.hw.writable (.mspi : Requester) = true) ∧ (isWindow (0x117FFFFC : Nat) = true) ∧
    ((0x117FFFFC : Nat) % 8 = 4) ∧
    ((0xDEADBEEF : Word) = (st_captureMemory_2a.hw.heldAt (.mspi : Requester) ((0x117FFFFC : Nat) - 4)).getD (lo32 (st_captureMemory_2a.hw.memPeek (windowWord (0x117FFFFC : Nat)).1))) ∧
    (st_captureMemory_2a.hw.on MEM_FLIPMASK_HI_ARMED = false) := by decide +kernel

theorem test_captureMemory_2a : holdsAfter (.memWindowWrite (.mspi : Requester) (0x117FFFFC : Nat) (0x12345678 : Word)) (st_captureMemory_2a) (fun x => decide (secData (x.hw.memStored (windowWord (0x117FFFFC : Nat)).1) = word64 (0xDEADBEEF : Word) (0x12345678 : Word) ∧ x.hw.validCopies (windowWord (0x117FFFFC : Nat)).1 = 7 ∧ x.hw.heldAt (.mspi : Requester) ((0x117FFFFC : Nat) - 4) = none ∧ x.hw.seq = st_captureMemory_2a.hw.seq ∧ x.hw.str = st_captureMemory_2a.hw.str)) = true := by decide +kernel

def st_captureMemory_2b : State := with_ (fun h => (h.setMemStored 0 (secEncode 0x99)).setValid 0 7)

theorem wit_captureMemory_2b : (st_captureMemory_2b.hw.writable (.portA : Requester) = true) ∧ (isWindow (0x10000004 : Nat) = true) ∧
    ((0x10000004 : Nat) % 8 = 4) ∧
    ((0x99 : Word) = (st_captureMemory_2b.hw.heldAt (.portA : Requester) ((0x10000004 : Nat) - 4)).getD (lo32 (st_captureMemory_2b.hw.memPeek (windowWord (0x10000004 : Nat)).1))) ∧
    (st_captureMemory_2b.hw.on MEM_FLIPMASK_HI_ARMED = false) := by decide +kernel

theorem test_captureMemory_2b : holdsAfter (.memWindowWrite (.portA : Requester) (0x10000004 : Nat) (0x12345678 : Word)) (st_captureMemory_2b) (fun x => decide (secData (x.hw.memStored (windowWord (0x10000004 : Nat)).1) = word64 (0x99 : Word) (0x12345678 : Word) ∧ x.hw.validCopies (windowWord (0x10000004 : Nat)).1 = 7 ∧ x.hw.heldAt (.portA : Requester) ((0x10000004 : Nat) - 4) = none ∧ x.hw.seq = st_captureMemory_2b.hw.seq ∧ x.hw.str = st_captureMemory_2b.hw.str)) = true := by decide +kernel

def st_captureMemory_3 : State := with_ (fun h => (((h.setHeld .mspi 0x117FFFF8 (some 0xDEADBEEF)).put MEM_FLIPMASK_HI_ARMED 1).put MEM_FLIPMASK_HI_SCOPE 1).put MEM_FLIPMASK_LO_DATA_LO 3)

theorem wit_captureMemory_3 : (st_captureMemory_3.hw.writable (.mspi : Requester) = true) ∧ (isWindow (0x117FFFFC : Nat) = true) ∧
    ((0x117FFFFC : Nat) % 8 = 4) ∧
    (st_captureMemory_3.hw.heldAt (.mspi : Requester) ((0x117FFFFC : Nat) - 4) = some (0xDEADBEEF : Word)) ∧
    (st_captureMemory_3.hw.on MEM_FLIPMASK_HI_ARMED = true) ∧
    ((st_captureMemory_3.hw.on MEM_FLIPMASK_HI_SCOPE = true ∨
    st_captureMemory_3.hw.mem.flipBy = some (.mspi : Requester))) := by decide +kernel

theorem test_captureMemory_3 : holdsAfter (.memWindowWrite (.mspi : Requester) (0x117FFFFC : Nat) (0x12345678 : Word)) (st_captureMemory_3) (fun x => decide (x.hw.memStored (windowWord (0x117FFFFC : Nat)).1 = secEncode (word64 (0xDEADBEEF : Word) (0x12345678 : Word)) ^^^ st_captureMemory_3.hw.flipMask ∧ x.hw.validCopies (windowWord (0x117FFFFC : Nat)).1 = st_captureMemory_3.hw.flipValid ∧ x.hw.on MEM_FLIPMASK_HI_ARMED = false)) = true := by decide +kernel

def st_captureMemory_4 : State := up

theorem wit_captureMemory_4 : (st_captureMemory_4.hw.writable (.mspi : Requester) = true) ∧ (natBit (0x80002003 : Word).toNat 31 = true) ∧
    (st_captureMemory_4.hw.mem.clr = none) ∧
    ((List.range (bits (0x80002003 : Word) 25 13 + 1)).all (fun i => decide (allotOf st_captureMemory_4.hw (bits (0x80002003 : Word) 12 0 + i) = 0)) = true) := by decide +kernel

theorem test_captureMemory_4 : holdsAfter (.memClr (.mspi : Requester) (0x80002003 : Word)) (st_captureMemory_4) (fun x => decide (x.hw.mem.clr = some (bits (0x80002003 : Word) 12 0, bits (0x80002003 : Word) 25 13 + 1) ∧ x.hw.on MEM_CTL_CLR_BUSY = true ∧ x.hw.mem.words = st_captureMemory_4.hw.mem.words ∧ x.hw.mem.valid = st_captureMemory_4.hw.mem.valid)) = true := by decide +kernel

def st_captureMemory_5a : State := with_ (fun h => { h with mem := { h.mem with clr := some (0, 1) } })

theorem wit_captureMemory_5a : (st_captureMemory_5a.hw.writable (.mspi : Requester) = true) ∧ (natBit (0x80002003 : Word).toNat 31 = true) ∧
    ((st_captureMemory_5a.hw.mem.clr.isSome = true ∨
    (List.range (bits (0x80002003 : Word) 25 13 + 1)).all (fun i => decide (allotOf st_captureMemory_5a.hw (bits (0x80002003 : Word) 12 0 + i) = 0)) = false)) := by decide +kernel

theorem test_captureMemory_5a : holdsAfter (.memClr (.mspi : Requester) (0x80002003 : Word)) (st_captureMemory_5a) (fun x => decide (x.hw.mem = st_captureMemory_5a.hw.mem ∧ x.hw.on MEM_CTL_CLR_REFUSED = true)) = true := by decide +kernel

def st_captureMemory_5b : State := with_ (fun h => (h.put (DMA_CFG_EN 5) 1).setReg (DMA_CFG 5) 0x80002004)

theorem wit_captureMemory_5b : (st_captureMemory_5b.hw.writable (.mspi : Requester) = true) ∧ (natBit (0x80002003 : Word).toNat 31 = true) ∧
    ((st_captureMemory_5b.hw.mem.clr.isSome = true ∨
    (List.range (bits (0x80002003 : Word) 25 13 + 1)).all (fun i => decide (allotOf st_captureMemory_5b.hw (bits (0x80002003 : Word) 12 0 + i) = 0)) = false)) := by decide +kernel

theorem test_captureMemory_5b : holdsAfter (.memClr (.mspi : Requester) (0x80002003 : Word)) (st_captureMemory_5b) (fun x => decide (x.hw.mem = st_captureMemory_5b.hw.mem ∧ x.hw.on MEM_CTL_CLR_REFUSED = true)) = true := by decide +kernel

def st_captureMemory_6 : State := with_ (fun h => { (h.setValid 512 7).setValid 1024 7 with mem := { ((h.setValid 512 7).setValid 1024 7).mem with clr := some (1, 1) } })

theorem wit_captureMemory_6 : (st_captureMemory_6.hw.live = true) ∧ (st_captureMemory_6.hw.mem.clr = some ((1 : Nat), (1 : Nat))) ∧
    ((1 : Nat) * 512 ≤ (512 : Nat)) ∧ ((512 : Nat) < ((1 : Nat) + (1 : Nat)) * 512) := by decide +kernel

theorem test_captureMemory_6 : holdsAfter (.memClrDone) (st_captureMemory_6) (fun x => decide (x.hw.validCopies (512 : Nat) = 0 ∧ x.hw.mem.clr = none ∧ x.hw.on MEM_CTL_CLR_BUSY = false)) = true := by decide +kernel

def st_captureMemory_7 : State := with_ (fun h => { (h.setValid 512 7).setValid 1024 7 with mem := { ((h.setValid 512 7).setValid 1024 7).mem with clr := some (1, 1) } })

theorem wit_captureMemory_7 : (st_captureMemory_7.hw.live = true) ∧ (st_captureMemory_7.hw.mem.clr = some ((1 : Nat), (1 : Nat))) ∧
    (((1024 : Nat) < (1 : Nat) * 512 ∨ ((1 : Nat) + (1 : Nat)) * 512 ≤ (1024 : Nat))) := by decide +kernel

theorem test_captureMemory_7 : holdsAfter (.memClrDone) (st_captureMemory_7) (fun x => decide (x.hw.validCopies (1024 : Nat) = st_captureMemory_7.hw.validCopies (1024 : Nat) ∧ x.hw.memStored (1024 : Nat) = st_captureMemory_7.hw.memStored (1024 : Nat))) = true := by decide +kernel

def st_captureMemory_8 : State := with_ (fun h => (h.put MEM_CTL_SCRUB_EN 1).setValid 0 7)

theorem wit_captureMemory_8 : (st_captureMemory_8.hw.live = true) ∧ (st_captureMemory_8.hw.coreOn = true) ∧
    (st_captureMemory_8.hw.on MEM_CTL_SCRUB_EN = true) ∧
    ((st_captureMemory_8.hw.get MEM_SCRUB_POS_POS) + 1 < memWordCount) ∧
    (majority3 (st_captureMemory_8.hw.validCopies (st_captureMemory_8.hw.get MEM_SCRUB_POS_POS) ^^^ ((2 : Nat) % 8)) = true) ∧
    (secCorrect (st_captureMemory_8.hw.memStored (st_captureMemory_8.hw.get MEM_SCRUB_POS_POS) ^^^ (4 : Word72)) = some (0 : Word72)) := by decide +kernel

theorem test_captureMemory_8 : holdsAfter (.memScrubRead (4 : Word72) (2 : Nat)) (st_captureMemory_8) (fun x => decide (x.hw.get MEM_SCRUB_POS_POS = (st_captureMemory_8.hw.get MEM_SCRUB_POS_POS) + 1 ∧ x.hw.memStored (st_captureMemory_8.hw.get MEM_SCRUB_POS_POS) = (0 : Word72) ∧ x.hw.validCopies (st_captureMemory_8.hw.get MEM_SCRUB_POS_POS) = 7)) = true := by decide +kernel

def st_captureMemory_9 : State := with_ (fun h => (h.put MEM_CTL_SCRUB_EN 1).put MEM_SCRUB_POS_POS 3145727)

theorem wit_captureMemory_9 : (st_captureMemory_9.hw.live = true) ∧ (st_captureMemory_9.hw.coreOn = true) ∧
    (st_captureMemory_9.hw.on MEM_CTL_SCRUB_EN = true) ∧
    ((st_captureMemory_9.hw.get MEM_SCRUB_POS_POS) + 1 = memWordCount) := by decide +kernel

theorem test_captureMemory_9 : holdsAfter (.memScrubRead (0 : Word72) (0 : Nat)) (st_captureMemory_9) (fun x => decide (x.hw.get MEM_SCRUB_POS_POS = 0 ∧ x.hw.get MEM_SCRUB_PASSES = (st_captureMemory_9.hw.get MEM_SCRUB_PASSES + 1) % 2 ^ 16)) = true := by decide +kernel

def st_captureMemory_10 : State := with_ (fun h => h.setHeld .mspi MEM_FLIPMASK_LO (some 9))

theorem wit_captureMemory_10 : (st_captureMemory_10.hw.writable (.mspi : Requester) = true) := by decide +kernel

theorem test_captureMemory_10 : holdsAfter (.flipmaskArm (.mspi : Requester) (1 : Word)) (st_captureMemory_10) (fun x => decide (x.hw.on MEM_FLIPMASK_HI_ARMED = true ∧ x.hw.mem.flipBy = some (.mspi : Requester) ∧ x.hw.reg MEM_FLIPMASK_LO = st_captureMemory_10.hw.heldOr (.mspi : Requester) MEM_FLIPMASK_LO (st_captureMemory_10.hw.reg MEM_FLIPMASK_LO) ∧ x.hw.mem.words = st_captureMemory_10.hw.mem.words)) = true := by decide +kernel

def st_captureMemory_11 : State := with_ (fun h => (h.put (MEM_TILE_STAT_VERIFIED 6143) 0).put (MEM_TILE_CRC_CRC 6143) blankTileCrc)

theorem wit_captureMemory_11 : (st_captureMemory_11.hw.live = true) ∧ ((6143 : Nat) < 6144) ∧
    (st_captureMemory_11.hw.on (MEM_TILE_STAT_VERIFIED (6143 : Nat)) = false) ∧
    (((st_captureMemory_11.hw.setEntryUpset (6143 : Nat) (st_captureMemory_11.hw.entryUpset (6143 : Nat) ^^^ (0 : Word72))).passRead (6143 : Nat)).2.2 = false) ∧
    ((((st_captureMemory_11.hw.setEntryUpset (6143 : Nat) (st_captureMemory_11.hw.entryUpset (6143 : Nat) ^^^ (0 : Word72))).passRead (6143 : Nat)).1.checkEntry (6143 : Nat)).entryUpset (6143 : Nat) = 0) ∧
    (crc32c ((st_captureMemory_11.hw.setEntryUpset (6143 : Nat) (st_captureMemory_11.hw.entryUpset (6143 : Nat) ^^^ (0 : Word72))).passRead (6143 : Nat)).2.1 = (((st_captureMemory_11.hw.setEntryUpset (6143 : Nat) (st_captureMemory_11.hw.entryUpset (6143 : Nat) ^^^ (0 : Word72))).passRead (6143 : Nat)).1.checkEntry (6143 : Nat)).get (MEM_TILE_CRC_CRC (6143 : Nat))) := by
  have f := crcTile_facts st_captureMemory_11 (blankTileCrc) rfl blankTileCrc_lt
  exact ⟨by decide, by decide, f.1, f.2.1, f.2.2.1, f.2.2.2.1.trans f.2.2.2.2.symm⟩

def st_captureMemory_12 : State := with_ (fun h => (h.put (MEM_TILE_STAT_VERIFIED 6143) 0).put (MEM_TILE_CRC_CRC 6143) ((blankTileCrc + 1) % 2 ^ 32))

theorem wit_captureMemory_12 : (st_captureMemory_12.hw.live = true) ∧ ((6143 : Nat) < 6144) ∧
    (st_captureMemory_12.hw.on (MEM_TILE_STAT_VERIFIED (6143 : Nat)) = false) ∧
    (((st_captureMemory_12.hw.setEntryUpset (6143 : Nat) (st_captureMemory_12.hw.entryUpset (6143 : Nat) ^^^ (0 : Word72))).passRead (6143 : Nat)).2.2 = false) ∧
    ((((st_captureMemory_12.hw.setEntryUpset (6143 : Nat) (st_captureMemory_12.hw.entryUpset (6143 : Nat) ^^^ (0 : Word72))).passRead (6143 : Nat)).1.checkEntry (6143 : Nat)).entryUpset (6143 : Nat) = 0) ∧
    (crc32c ((st_captureMemory_12.hw.setEntryUpset (6143 : Nat) (st_captureMemory_12.hw.entryUpset (6143 : Nat) ^^^ (0 : Word72))).passRead (6143 : Nat)).2.1 ≠ (((st_captureMemory_12.hw.setEntryUpset (6143 : Nat) (st_captureMemory_12.hw.entryUpset (6143 : Nat) ^^^ (0 : Word72))).passRead (6143 : Nat)).1.checkEntry (6143 : Nat)).get (MEM_TILE_CRC_CRC (6143 : Nat))) := by
  have f := crcTile_facts st_captureMemory_12 ((blankTileCrc + 1) % 2 ^ 32) rfl (Nat.mod_lt _ (by decide))
  exact ⟨by decide, by decide, f.1, f.2.1, f.2.2.1, by rw [f.2.2.2.1, f.2.2.2.2]; have := blankTileCrc_lt; omega⟩

def st_captureMemory_13 : State := with_ (fun h => ((h.put (MEM_TILE_STAT_VERIFIED 6143) 0).setMemStored 3145216 3).setValid 3145216 7)

theorem wit_captureMemory_13 : (st_captureMemory_13.hw.live = true) ∧ ((6143 : Nat) < 6144) ∧
    (st_captureMemory_13.hw.on (MEM_TILE_STAT_VERIFIED (6143 : Nat)) = false) ∧
    (((st_captureMemory_13.hw.setEntryUpset (6143 : Nat) (st_captureMemory_13.hw.entryUpset (6143 : Nat) ^^^ (0 : Word72))).passRead (6143 : Nat)).2.2 = true) := by decide +kernel

def st_captureMemory_14 : State := up

theorem wit_captureMemory_14 : (st_captureMemory_14.hw.writable (.mspi : Requester) = true) ∧ ((6143 : Nat) < 6144) ∧
    (natBit (0x80 : Word).toNat 7 = true) := by decide +kernel

theorem test_captureMemory_14 : holdsAfter (.tileReseal (.mspi : Requester) (6143 : Nat) (0x80 : Word)) (st_captureMemory_14) (fun x => decide (x = { st_captureMemory_14 with hw := st_captureMemory_14.hw.put (MEM_TILE_STAT_RESEALING (6143 : Nat)) 1, rdata := [], status := 0 })) = true := by decide +kernel

def st_captureMemory_15 : State := with_ (fun h => (h.put (MEM_TILE_STAT_RESEALING 6143) 1).put (MEM_TILE_STAT_RETIRED 6143) 1)

theorem wit_captureMemory_15 : (st_captureMemory_15.hw.live = true) ∧ ((6143 : Nat) < 6144) ∧
    (st_captureMemory_15.hw.on (MEM_TILE_STAT_RESEALING (6143 : Nat)) = true) ∧
    (((st_captureMemory_15.hw.put (MEM_TILE_STAT_RESEALING (6143 : Nat)) 0).passRead (6143 : Nat)).2.2 = false) := by decide +kernel

def st_captureMemory_16 : State := with_ (fun h => ((h.put (MEM_TILE_STAT_RESEALING 6143) 1).setMemStored 3145216 3).setValid 3145216 7)

theorem wit_captureMemory_16 : (st_captureMemory_16.hw.live = true) ∧ ((6143 : Nat) < 6144) ∧
    (st_captureMemory_16.hw.on (MEM_TILE_STAT_RESEALING (6143 : Nat)) = true) ∧
    (((st_captureMemory_16.hw.put (MEM_TILE_STAT_RESEALING (6143 : Nat)) 0).passRead (6143 : Nat)).2.2 = true) := by decide +kernel

def st_registerWrites_1a : State := up

theorem wit_registerWrites_1a : (((2 : Nat) ≠ 4 ∨ (0x34 : Nat) % 4 ≠ 0)) := by decide +kernel

theorem test_registerWrites_1a : holdsAfter (.registerWrite (.mspi : Requester) (2 : Nat) (0x34 : Nat) (7 : Word)) (st_registerWrites_1a) (fun x => decide (x = { st_registerWrites_1a with rdata := [], status := 2 })) = true := by decide +kernel

def st_registerWrites_1b : State := up

theorem wit_registerWrites_1b : (((4 : Nat) ≠ 4 ∨ (0x36 : Nat) % 4 ≠ 0)) := by decide +kernel

theorem test_registerWrites_1b : holdsAfter (.registerWrite (.mspi : Requester) (4 : Nat) (0x36 : Nat) (7 : Word)) (st_registerWrites_1b) (fun x => decide (x = { st_registerWrites_1b with rdata := [], status := 2 })) = true := by decide +kernel

def st_registerWrites_2 : State := with_ (fun h => h)

def v_registerWrites_2_r : RegRow := ((regRowAt 0x34).getD { name := "", base := 0, count := 0, stride := 0, rw := 0, rws := 0, w1c := 0, rc := 0, ro := 0, wo := 0, reset := 0 })

theorem wit_registerWrites_2 : (st_registerWrites_2.hw.writable (.mspi : Requester) = true) ∧ ((0x34 : Nat) % 4 = 0) ∧ ((0x34 : Nat) < 2 ^ 32) ∧
    ((0x34 : Nat) ≠ SYS_SNAP) ∧
    (st_registerWrites_2.hw.pageWrite (.mspi : Requester) (0x34 : Nat) (0xABCD1234 : Word) = none) ∧
    (st_registerWrites_2.hw.ownWrite (.mspi : Requester) 0 (0x34 : Nat) (0xABCD1234 : Word) = none) ∧
    (isWindow (0x34 : Nat) = false) ∧ (valueOf (0x34 : Nat) = ((0x34 : Nat), 1)) ∧
    (regRowAt (0x34 : Nat) = some v_registerWrites_2_r) ∧ (v_registerWrites_2_r.rws = 0) ∧
    (v_registerWrites_2_r.w1c = 0) := by decide +kernel

theorem test_registerWrites_2 : holdsAfter (.registerWrite (.mspi : Requester) 4 (0x34 : Nat) (0xABCD1234 : Word)) (st_registerWrites_2) (fun x => decide (x.hw.reg (0x34 : Nat) = (st_registerWrites_2.hw.reg (0x34 : Nat) &&& ~~~(BitVec.ofNat 32 v_registerWrites_2_r.rw)) ||| ((0xABCD1234 : Word) &&& BitVec.ofNat 32 v_registerWrites_2_r.rw) ∧ ((0x30 : Nat) ≠ (0x34 : Nat) → x.hw.reg (0x30 : Nat) = st_registerWrites_2.hw.reg (0x30 : Nat)) ∧ x = { st_registerWrites_2 with hw := { st_registerWrites_2.hw with regs := x.hw.regs }, rdata := [], status := 0 })) = true := by decide +kernel

def st_registerWrites_3 : State := with_ (fun h => h)

def v_registerWrites_3_r : RegRow := ((regRowAt 0x30000).getD { name := "", base := 0, count := 0, stride := 0, rw := 0, rws := 0, w1c := 0, rc := 0, ro := 0, wo := 0, reset := 0 })

theorem wit_registerWrites_3 : (st_registerWrites_3.hw.writable (.mspi : Requester) = true) ∧ ((0x30000 : Nat) % 4 = 0) ∧
    ((0x30000 : Nat) < 2 ^ 32) ∧ ((0x30000 : Nat) ≠ SYS_SNAP) ∧
    (st_registerWrites_3.hw.pageWrite (.mspi : Requester) (0x30000 : Nat) (0xFFFFFFFF : Word) = none) ∧
    (st_registerWrites_3.hw.ownWrite (.mspi : Requester) 0 (0x30000 : Nat) (0xFFFFFFFF : Word) = none) ∧
    (isWindow (0x30000 : Nat) = false) ∧ (valueOf (0x30000 : Nat) = ((0x30000 : Nat), 1)) ∧
    (regRowAt (0x30000 : Nat) = some v_registerWrites_3_r) ∧ (v_registerWrites_3_r.rw = 0) ∧
    (v_registerWrites_3_r.w1c = 0) ∧ (v_registerWrites_3_r.rws ≠ 0) := by decide +kernel

theorem test_registerWrites_3 : holdsAfter (.registerWrite (.mspi : Requester) 4 (0x30000 : Nat) (0xFFFFFFFF : Word)) (st_registerWrites_3) (fun x => decide (x.hw.regs = st_registerWrites_3.hw.regs ∧ x.hw.stagedOr (0x30000 : Nat) = (0xFFFFFFFF : Word) &&& BitVec.ofNat 32 v_registerWrites_3_r.rws ∧ ((0x30004 : Nat) ≠ (0x30000 : Nat) → x.hw.stagedOr (0x30004 : Nat) = st_registerWrites_3.hw.stagedOr (0x30004 : Nat)) ∧ x = { st_registerWrites_3 with hw := { st_registerWrites_3.hw with epoch := { st_registerWrites_3.hw.epoch with staging := x.hw.epoch.staging } }, rdata := [], status := 0 })) = true := by decide +kernel

def st_registerWrites_4 : State := with_ (fun h => h.setReg 0x28 6)

def v_registerWrites_4_r : RegRow := ((regRowAt 0x28).getD { name := "", base := 0, count := 0, stride := 0, rw := 0, rws := 0, w1c := 0, rc := 0, ro := 0, wo := 0, reset := 0 })

theorem wit_registerWrites_4 : (st_registerWrites_4.hw.writable (.mspi : Requester) = true) ∧ ((0x28 : Nat) % 4 = 0) ∧ ((0x28 : Nat) < 2 ^ 32) ∧
    ((0x28 : Nat) ≠ SYS_SNAP) ∧
    (st_registerWrites_4.hw.pageWrite (.mspi : Requester) (0x28 : Nat) (0x2 : Word) = none) ∧
    (st_registerWrites_4.hw.ownWrite (.mspi : Requester) 0 (0x28 : Nat) (0x2 : Word) = none) ∧
    (isWindow (0x28 : Nat) = false) ∧ (valueOf (0x28 : Nat) = ((0x28 : Nat), 1)) ∧
    (regRowAt (0x28 : Nat) = some v_registerWrites_4_r) ∧ (v_registerWrites_4_r.rw = 0) ∧
    (v_registerWrites_4_r.rws = 0) ∧ (st_registerWrites_4.hw.stuck (0x28 : Nat) = 0) := by decide +kernel

theorem test_registerWrites_4 : holdsAfter (.registerWrite (.mspi : Requester) 4 (0x28 : Nat) (0x2 : Word)) (st_registerWrites_4) (fun x => decide (x.hw.reg (0x28 : Nat) = st_registerWrites_4.hw.reg (0x28 : Nat) &&& ~~~((0x2 : Word) &&& BitVec.ofNat 32 v_registerWrites_4_r.w1c) ∧ ((0x30 : Nat) ≠ (0x28 : Nat) → x.hw.reg (0x30 : Nat) = st_registerWrites_4.hw.reg (0x30 : Nat)) ∧ x = { st_registerWrites_4 with hw := { st_registerWrites_4.hw with regs := x.hw.regs }, rdata := [], status := 0 })) = true := by decide +kernel

def st_registerWrites_5 : State := State.reset

theorem wit_registerWrites_5 : (st_registerWrites_5.hw.writable (.portB : Requester) = false) ∧ ((0x34 : Nat) % 4 = 0) := by decide +kernel

theorem test_registerWrites_5 : holdsAfter (.registerWrite (.portB : Requester) 4 (0x34 : Nat) (1 : Word)) (st_registerWrites_5) (fun x => decide (x = { st_registerWrites_5 with rdata := [], status := 0 })) = true := by decide +kernel

def st_registerReads_1 : State := with_ (fun h => (h.setReg 0x50044 0x1234).setReg 0x50104 0xFF000000)

def v_registerReads_1_r : RegRow := ((regRowAt 0x50044).getD { name := "", base := 0, count := 0, stride := 0, rw := 0, rws := 0, w1c := 0, rc := 0, ro := 0, wo := 0, reset := 0 })

theorem wit_registerReads_1 : (st_registerReads_1.hw.readable (.mspi : Requester) = true) ∧ (st_registerReads_1.frozen = none) ∧
    ((0x50044 : Nat) % 4 = 0) ∧ ((0x50044 : Nat) < 0x10000000) ∧ (isTableWindow (0x50044 : Nat) = false) ∧
    (isMaskWindow (0x50044 : Nat) = false) ∧ ((0x50044 : Nat) ≠ FLT_EVT_QUEUE) ∧
    (valueOf (0x50044 : Nat) = ((0x50044 : Nat), 1)) ∧ (regRowAt (0x50044 : Nat) = some v_registerReads_1_r) := by decide +kernel

theorem test_registerReads_1 : holdsAfter (.rcRead (.mspi : Requester) (0x50044 : Nat)) (st_registerReads_1) (fun x => decide (x.rdata = [st_registerReads_1.hw.viewWord none (.mspi : Requester) (0x50044 : Nat)] ∧ x.hw.reg (0x50044 : Nat) = st_registerReads_1.hw.reg (0x50044 : Nat) &&& ~~~(BitVec.ofNat 32 v_registerReads_1_r.rc) ∧ ((0x50104 : Nat) ≠ (0x50044 : Nat) → x.hw.reg (0x50104 : Nat) = st_registerReads_1.hw.reg (0x50104 : Nat)) ∧ x = { st_registerReads_1 with hw := { st_registerReads_1.hw with regs := x.hw.regs }, rdata := x.rdata, status := 0 })) = true := by decide +kernel

def st_registerReads_2 : State := with_ (fun h => { h with recd := { h.recd with opsecBase := 2 ^ 32 + 7 } })

def v_registerReads_2_r : RegRow := ((regRowAt REC_OPSEC_LO).getD { name := "", base := 0, count := 0, stride := 0, rw := 0, rws := 0, w1c := 0, rc := 0, ro := 0, wo := 0, reset := 0 })

theorem wit_registerReads_2 : (st_registerReads_2.hw.readable (.portA : Requester) = true) ∧ (st_registerReads_2.frozen = none) ∧
    ((REC_OPSEC_LO : Nat) % 4 = 0) ∧ ((REC_OPSEC_LO : Nat) < 0x10000000) ∧
    (isTableWindow (REC_OPSEC_LO : Nat) = false) ∧ (isMaskWindow (REC_OPSEC_LO : Nat) = false) ∧
    (valueOf (REC_OPSEC_LO : Nat) = ((REC_OPSEC_LO : Nat), 2)) ∧
    (regRowAt (REC_OPSEC_LO : Nat) = some v_registerReads_2_r) ∧ (v_registerReads_2_r.rc = 0) := by decide +kernel

theorem test_registerReads_2 : holdsAfter (.multiwordLatchRead (.portA : Requester) (REC_OPSEC_LO : Nat)) (st_registerReads_2) (fun x => decide (x.rdata = [st_registerReads_2.hw.viewWord none (.portA : Requester) (REC_OPSEC_LO : Nat)] ∧ x.hw.latched (.portA : Requester) ((REC_OPSEC_LO : Nat) + 4) = some (st_registerReads_2.hw.viewWord none (.portA : Requester) ((REC_OPSEC_LO : Nat) + 4)) ∧ x.hw.regs = st_registerReads_2.hw.regs ∧ x.hw = { st_registerReads_2.hw with reqs := x.hw.reqs })) = true := by decide +kernel

def st_registerReads_3 : State := with_ (fun h => { h with boot := { h.boot with phase := .otp } })

theorem wit_registerReads_3 : (st_registerReads_3.hw.live = true) ∧ (st_registerReads_3.hw.coreOn = true) ∧
    (st_registerReads_3.hw.readable .mspi = false) := by decide +kernel

theorem test_registerReads_3 : holdsAfter (.mspiRead (0x34 : Nat) (3 : Nat)) (st_registerReads_3) (fun x => decide (x = { st_registerReads_3 with rdata := List.replicate (3 : Nat) 0, status := 0 })) = true := by decide +kernel

def st_registerReads_4 : State := with_ (fun h => h.setReg 0x34 0x1234)

def v_registerReads_4_r : RegRow := ((regRowAt 0x34).getD { name := "", base := 0, count := 0, stride := 0, rw := 0, rws := 0, w1c := 0, rc := 0, ro := 0, wo := 0, reset := 0 })

theorem wit_registerReads_4 : (st_registerReads_4.hw.live = true) ∧ (st_registerReads_4.hw.coreOn = true) ∧
    (st_registerReads_4.hw.readable .mspi = true) ∧ (st_registerReads_4.frozen = none) ∧ ((0x34 : Nat) % 4 = 0) ∧
    ((0x34 : Nat) < 0x10000000) ∧ (isTableWindow (0x34 : Nat) = false) ∧ (isMaskWindow (0x34 : Nat) = false) ∧
    (valueOf (0x34 : Nat) = ((0x34 : Nat), 1)) ∧ (regRowAt (0x34 : Nat) = some v_registerReads_4_r) ∧
    (v_registerReads_4_r.rc = 0) ∧ ((0x34 : Nat) ≠ FLT_EVT_QUEUE) := by decide +kernel

theorem test_registerReads_4 : holdsAfter (.mspiRead (0x34 : Nat) 1) (st_registerReads_4) (fun x => decide (x = { st_registerReads_4 with rdata := [st_registerReads_4.hw.viewWord none .mspi (0x34 : Nat)], status := 0 })) = true := by decide +kernel

def st_registerReads_5 : State := with_ (fun h => ({ h with clk := { h.clk with core := { h.clk.core with mode := .off } } } : Hw))

theorem wit_registerReads_5 : (st_registerReads_5.hw.live = true) ∧ (st_registerReads_5.hw.coreOn = false) := by decide +kernel

theorem test_registerReads_5 : holdsAfter (.mspiRead (0x34 : Nat) (2 : Nat)) (st_registerReads_5) (fun x => decide (x.rdata = [] ∧ x.hw.clk.mspi = st_registerReads_5.hw.clk.mspi ++ [.read (0x34 : Nat) (2 : Nat)] ∧ (x.hw.xing 7).busy = true ∧ x.hw.reqs = st_registerReads_5.hw.reqs)) = true := by decide +kernel

def st_registerReads_6 : State := with_ (fun h => ({ h with clk := { h.clk with core := { h.clk.core with mode := .off } } } : Hw))

theorem wit_registerReads_6 : (st_registerReads_6.hw.live = true) ∧ (st_registerReads_6.hw.coreOn = false) := by decide +kernel

theorem test_registerReads_6 : holdsAfter (.mspiWrite (0x34 : Nat) ([2] : List Word)) (st_registerReads_6) (fun x => decide (x.rdata = [] ∧ x.hw.clk.mspi = st_registerReads_6.hw.clk.mspi ++ [.write (0x34 : Nat) ([2] : List Word)] ∧ (x.hw.xing 7).busy = true ∧ x.hw.reqs = st_registerReads_6.hw.reqs)) = true := by decide +kernel

def st_registerReads_7 : State := with_ (fun h => h)

def v_registerReads_7_r : RegRow := ((regRowAt 0x34).getD { name := "", base := 0, count := 0, stride := 0, rw := 0, rws := 0, w1c := 0, rc := 0, ro := 0, wo := 0, reset := 0 })

theorem wit_registerReads_7 : (st_registerReads_7.hw.live = true) ∧ (st_registerReads_7.hw.coreOn = true) ∧
    (st_registerReads_7.hw.writable .mspi = true) ∧ ((0x34 : Nat) % 4 = 0) ∧ ((0x34 : Nat) < 2 ^ 32) ∧
    ((0x34 : Nat) ≠ SYS_SNAP) ∧ (st_registerReads_7.hw.pageWrite .mspi (0x34 : Nat) (0xABCD1234 : Word) = none) ∧
    (st_registerReads_7.hw.ownWrite .mspi 0 (0x34 : Nat) (0xABCD1234 : Word) = none) ∧
    (isWindow (0x34 : Nat) = false) ∧ (valueOf (0x34 : Nat) = ((0x34 : Nat), 1)) ∧
    (regRowAt (0x34 : Nat) = some v_registerReads_7_r) ∧ (v_registerReads_7_r.rws = 0) ∧ (v_registerReads_7_r.w1c = 0) := by decide +kernel

theorem test_registerReads_7 : holdsAfter (.mspiWrite (0x34 : Nat) [(0xABCD1234 : Word)]) (st_registerReads_7) (fun x => decide (x.hw.reg (0x34 : Nat) = (st_registerReads_7.hw.reg (0x34 : Nat) &&& ~~~(BitVec.ofNat 32 v_registerReads_7_r.rw)) ||| ((0xABCD1234 : Word) &&& BitVec.ofNat 32 v_registerReads_7_r.rw) ∧ x = { st_registerReads_7 with hw := { st_registerReads_7.hw with regs := x.hw.regs }, rdata := [], status := 0 })) = true := by decide +kernel

def st_registerReads_8 : State := with_ (fun h => h.put SYS_BOOT_MODE 0)

theorem wit_registerReads_8 : (st_registerReads_8.hw.live = true) ∧ (st_registerReads_8.hw.coreOn = true) ∧
    (st_registerReads_8.hw.writable .mspi = false) := by decide +kernel

theorem test_registerReads_8 : holdsAfter (.mspiWrite (0x34 : Nat) ([1, 2] : List Word)) (st_registerReads_8) (fun x => decide (x = { st_registerReads_8 with rdata := [], status := 0 })) = true := by decide +kernel

def st_commits_1 : State := with_ (fun h => h.stage 0x30000 0x3FF 5)

theorem wit_commits_1 : (st_commits_1.hw.writable (.portB : Requester) = true) ∧ ((.portB : Requester) ≠ .loader) ∧
    ((1 : Word).toNat.testBit 0 = true) ∧ (st_commits_1.hw.epoch.sealedSet = none) := by decide +kernel

theorem test_commits_1 : holdsAfter (.commitGo (.portB : Requester) (0x12345 : Nat) (1 : Word)) (st_commits_1) (fun x => decide (x.hw.epoch.sealedSet = some { set := st_commits_1.hw.epoch.staging, path := pathOf (.portB : Requester), srcId := sourceId (.portB : Requester) (0x12345 : Nat), validated := false, seen := none } ∧ x.hw.epoch.staging = { regs := [], table := [] } ∧ x.hw.on SYS_COMMIT_STATUS_PENDING = true)) = true := by decide +kernel

def st_commits_2 : State := with_ (fun h => { h with epoch := { h.epoch with sealedSet := some { set := { regs := [], table := [] }, path := 2, srcId := 9, validated := false, seen := none } } })

theorem wit_commits_2 : (st_commits_2.hw.writable (.mspi : Requester) = true) ∧ ((.mspi : Requester) ≠ .loader) ∧
    ((1 : Word).toNat.testBit 0 = true) ∧ (st_commits_2.hw.epoch.sealedSet.isSome = true) := by decide +kernel

theorem test_commits_2 : holdsAfter (.commitGo (.mspi : Requester) (0 : Nat) (1 : Word)) (st_commits_2) (fun x => decide (x.hw.epoch = st_commits_2.hw.epoch ∧ x.hw.on SYS_COMMIT_STATUS_REFUSED = true)) = true := by decide +kernel

def st_commits_3 : State := with_ (fun h => { h with epoch := { h.epoch with sealedSet := some { set := { regs := [], table := [] }, path := 2, srcId := 9, validated := false, seen := none } } })

def v_commits_3_y : Sealed := { set := { regs := [], table := [] }, path := 2, srcId := 9, validated := false, seen := none }

def v_commits_3_h : Hw := (st_commits_3.hw.romVerify (newStores st_commits_3.hw (st_commits_3.hw.withSet ({ set := { regs := [], table := [] }, path := 2, srcId := 9, validated := false, seen := none } : Sealed).set)) [3])

def v_commits_3_c : Hw := ((st_commits_3.hw.romVerify (newStores st_commits_3.hw (st_commits_3.hw.withSet ({ set := { regs := [], table := [] }, path := 2, srcId := 9, validated := false, seen := none } : Sealed).set)) [3]).withSet ({ set := { regs := [], table := [] }, path := 2, srcId := 9, validated := false, seen := none } : Sealed).set)

theorem wit_commits_3 : (st_commits_3.hw.live = true) ∧ (st_commits_3.hw.coreOn = true) ∧
    (st_commits_3.hw.epoch.sealedSet = some v_commits_3_y) ∧ (v_commits_3_y.validated = false) ∧
    (v_commits_3_h = st_commits_3.hw.romVerify (newStores st_commits_3.hw (st_commits_3.hw.withSet v_commits_3_y.set)) ([3] : List Nat)) ∧
    (v_commits_3_c = v_commits_3_h.withSet v_commits_3_y.set) ∧ (selectsBad v_commits_3_h v_commits_3_c = false) ∧
    (failCode v_commits_3_c = 0) := by decide +kernel

def st_commits_4 : State := with_ (fun h => { h with epoch := { h.epoch with sealedSet := some { set := { regs := [(0x58000, some 0x1FFF)], table := [] }, path := 2, srcId := 9, validated := false, seen := none } } })

def v_commits_4_y : Sealed := { set := { regs := [(0x58000, some 0x1FFF)], table := [] }, path := 2, srcId := 9, validated := false, seen := none }

def v_commits_4_h : Hw := (st_commits_4.hw.romVerify (newStores st_commits_4.hw (st_commits_4.hw.withSet ({ set := { regs := [(0x58000, some 0x1FFF)], table := [] }, path := 2, srcId := 9, validated := false, seen := none } : Sealed).set)) [])

def v_commits_4_c : Hw := ((st_commits_4.hw.romVerify (newStores st_commits_4.hw (st_commits_4.hw.withSet ({ set := { regs := [(0x58000, some 0x1FFF)], table := [] }, path := 2, srcId := 9, validated := false, seen := none } : Sealed).set)) []).withSet ({ set := { regs := [(0x58000, some 0x1FFF)], table := [] }, path := 2, srcId := 9, validated := false, seen := none } : Sealed).set)

theorem wit_commits_4 : (st_commits_4.hw.live = true) ∧ (st_commits_4.hw.coreOn = true) ∧
    (st_commits_4.hw.epoch.sealedSet = some v_commits_4_y) ∧ (v_commits_4_y.validated = false) ∧
    (v_commits_4_h = st_commits_4.hw.romVerify (newStores st_commits_4.hw (st_commits_4.hw.withSet v_commits_4_y.set)) ([] : List Nat)) ∧
    (v_commits_4_c = v_commits_4_h.withSet v_commits_4_y.set) ∧
    ((7 : Nat) = (if selectsBad v_commits_4_h v_commits_4_c then 7 else failCode v_commits_4_c)) ∧ ((7 : Nat) ≠ 0) ∧
    (st_commits_4.hw.boot.phase = .running) := by decide +kernel

def st_commits_5a : State := with_ (fun h => { h with epoch := { h.epoch with sealedSet := some { set := { regs := [], table := [] }, path := 2, srcId := 9, validated := true, seen := none } }, smp := { h.smp with lastBoundary := none }, seq := { h.seq with running := false } })

def v_commits_5a_y : Sealed := { set := { regs := [], table := [] }, path := 2, srcId := 9, validated := true, seen := none }

theorem wit_commits_5a : (st_commits_5a.hw.live = true) ∧ (st_commits_5a.hw.coreOn = true) ∧
    (st_commits_5a.hw.epoch.sealedSet = some v_commits_5a_y) ∧ (v_commits_5a_y.validated = true) ∧
    (st_commits_5a.hw.epoch.snapReq = none) ∧ ((st_commits_5a.hw.boundaryNow.isSome = true ∧
    st_commits_5a.hw.boundaryNow ≠ v_commits_5a_y.seen ∨ st_commits_5a.hw.seq.running = false)) := by decide +kernel

def st_commits_5b : State := with_ (fun h => { h with epoch := { h.epoch with sealedSet := some { set := { regs := [], table := [] }, path := 2, srcId := 9, validated := true, seen := none } }, smp := { h.smp with lastBoundary := some 0 }, seq := { h.seq with running := true } })

def v_commits_5b_y : Sealed := { set := { regs := [], table := [] }, path := 2, srcId := 9, validated := true, seen := none }

theorem wit_commits_5b : (st_commits_5b.hw.live = true) ∧ (st_commits_5b.hw.coreOn = true) ∧
    (st_commits_5b.hw.epoch.sealedSet = some v_commits_5b_y) ∧ (v_commits_5b_y.validated = true) ∧
    (st_commits_5b.hw.epoch.snapReq = none) ∧ ((st_commits_5b.hw.boundaryNow.isSome = true ∧
    st_commits_5b.hw.boundaryNow ≠ v_commits_5b_y.seen ∨ st_commits_5b.hw.seq.running = false)) := by decide +kernel

def st_commits_6 : State := with_ (fun h => { h with epoch := { h.epoch with sealedSet := some { set := { regs := [(HRN_TERM 639, some 5), (FE_CFG 359, some 0xFFFFFFFF)], table := [] }, path := 2, srcId := 9, validated := true, seen := none } }, smp := { h.smp with lastBoundary := none }, seq := { h.seq with running := false } })

def v_commits_6_y : Sealed := { set := { regs := [(HRN_TERM 639, some 5), (FE_CFG 359, some 0xFFFFFFFF)], table := [] }, path := 2, srcId := 9, validated := true, seen := none }

theorem wit_commits_6 : (st_commits_6.hw.live = true) ∧ (st_commits_6.hw.coreOn = true) ∧
    (st_commits_6.hw.epoch.sealedSet = some v_commits_6_y) ∧ (v_commits_6_y.validated = true) ∧
    (st_commits_6.hw.epoch.snapReq = none) ∧ (st_commits_6.hw.boot.phase = .running) ∧
    (st_commits_6.hw.field.relief = []) ∧ (st_commits_6.hw.adc.run = none) ∧ ((639 : Nat) < 640) ∧
    ((359 : Nat) < 360) ∧ ((st_commits_6.hw.boundaryNow.isSome = true ∧
    st_commits_6.hw.boundaryNow ≠ v_commits_6_y.seen ∨ st_commits_6.hw.seq.running = false)) := by decide +kernel

def st_commits_7 : State := with_ (fun h => { h with epoch := { h.epoch with sealedSet := some { set := { regs := [], table := [] }, path := 2, srcId := 9, validated := true, seen := some 0 } }, smp := { h.smp with lastBoundary := some 0 }, seq := { h.seq with running := true } })

def v_commits_7_y : Sealed := { set := { regs := [], table := [] }, path := 2, srcId := 9, validated := true, seen := some 0 }

theorem wit_commits_7 : (st_commits_7.hw.live = true) ∧ (st_commits_7.hw.coreOn = true) ∧
    (st_commits_7.hw.epoch.sealedSet = some v_commits_7_y) ∧ ((v_commits_7_y.validated = false ∨
    st_commits_7.hw.seq.running = true ∧ (st_commits_7.hw.boundaryNow = none ∨
    st_commits_7.hw.boundaryNow = v_commits_7_y.seen))) := by decide +kernel

theorem test_commits_7 : holdsAfter (.commitApply) (st_commits_7) (fun x => decide (x = st_commits_7)) = true := by decide +kernel

def st_commits_8 : State := with_ (fun h => (h.put TIM_STATUS_QUALITY 3).put SYS_BOOT_RELEASED 0)

theorem wit_commits_8 : (st_commits_8.hw.writable (.mspi : Requester) = true) ∧ ((1 : Word).toNat.testBit 0 = true) ∧
    (st_commits_8.hw.running = true) ∧ (st_commits_8.hw.quality = 3) := by decide +kernel

theorem test_commits_8 : holdsAfter (.startFree (.mspi : Requester) (1 : Word)) (st_commits_8) (fun x => decide (x.hw.quality = 2 ∧ x.hw.on SYS_BOOT_FREE_START = true ∧ x.hw.released = true)) = true := by decide +kernel

def st_snapshots_1 : State := up

theorem wit_snapshots_1 : (st_snapshots_1.hw.writable (.portA : Requester) = true) ∧ ((.portA : Requester) ≠ .loader) ∧
    (st_snapshots_1.hw.on SYS_SNAP_HELD = false) ∧ (st_snapshots_1.hw.epoch.snapReq = none) := by decide +kernel

theorem test_snapshots_1 : holdsAfter (.snapReq (.portA : Requester)) (st_snapshots_1) (fun x => decide (x.hw.epoch.snapReq = some (.portA : Requester) ∧ x.hw.regs = st_snapshots_1.hw.regs ∧ x.frozen = st_snapshots_1.frozen)) = true := by decide +kernel

def st_snapshots_2 : State := with_ (fun h => (h.put SYS_SNAP_HELD 1).put SYS_SNAP_OWNER 1)

theorem wit_snapshots_2 : (st_snapshots_2.hw.writable (.portA : Requester) = true) ∧ ((.portA : Requester) ≠ .loader) ∧
    (st_snapshots_2.hw.on SYS_SNAP_HELD = true) ∧ (st_snapshots_2.hw.get SYS_SNAP_OWNER ≠ pathOf (.portA : Requester)) := by decide +kernel

theorem test_snapshots_2 : holdsAfter (.snapReq (.portA : Requester)) (st_snapshots_2) (fun x => decide (x.hw.epoch = st_snapshots_2.hw.epoch ∧ x.hw.on SYS_SNAP_REFUSED = true ∧ x.frozen = st_snapshots_2.frozen)) = true := by decide +kernel

def st_snapshots_3 : State := with_ (fun h => { h with epoch := { h.epoch with snapReq := some .portB, snapSeen := none }, time := { h.time with now := 0 }, smp := { h.smp with lastBoundary := some 0 } })

theorem wit_snapshots_3 : (st_snapshots_3.hw.live = true) ∧ (st_snapshots_3.hw.coreOn = true) ∧
    (st_snapshots_3.hw.epoch.snapReq = some (.portB : Requester)) ∧ (st_snapshots_3.hw.snapDue = true) := by decide +kernel

theorem test_snapshots_3 : holdsAfter (.snapTake) (st_snapshots_3) (fun x => decide (x.hw.on SYS_SNAP_HELD = true ∧ x.hw.get SYS_SNAP_OWNER = pathOf (.portB : Requester) ∧ x.frozen = some x.hw ∧ x.hw.epoch.snapReq = none)) = true := by decide +kernel

def st_snapshots_4 : State := (let a := with_ (fun h => (h.put SYS_SNAP_HELD 1).put SYS_SNAP_OWNER 3); { a with frozen := some a.hw } : State)

theorem wit_snapshots_4 : (st_snapshots_4.hw.writable (.portB : Requester) = true) ∧
    (st_snapshots_4.hw.snapOwned (.portB : Requester) = true) := by decide +kernel

theorem test_snapshots_4 : holdsAfter (.snapRel (.portB : Requester)) (st_snapshots_4) (fun x => decide (x.frozen = none ∧ x.hw.on SYS_SNAP_HELD = false)) = true := by decide +kernel

def st_snapshots_5 : State := (let a := with_ (fun h => (h.put SYS_SNAP_HELD 1).put SYS_SNAP_OWNER 3); { a with frozen := some a.hw } : State)

theorem wit_snapshots_5 : (st_snapshots_5.hw.writable (.portA : Requester) = true) ∧
    (st_snapshots_5.hw.snapOwned (.portA : Requester) = false) := by decide +kernel

theorem test_snapshots_5 : holdsAfter (.snapRel (.portA : Requester)) (st_snapshots_5) (fun x => decide (x = { st_snapshots_5 with rdata := [], status := 0 })) = true := by decide +kernel

def st_snapshots_6 : State := with_ (fun h => { h.put SYS_SNAP_HELD 1 with time := { h.time with tick := 2 ^ 50 } })

theorem wit_snapshots_6 : (st_snapshots_6.hw.live = true) ∧ (st_snapshots_6.hw.on SYS_SNAP_HELD = true) ∧
    (st_snapshots_6.hw.due (st_snapshots_6.hw.epoch.snapSince + msNs (st_snapshots_6.hw.get SYS_SNAP_TO_TIMEOUT_MS)) = true) := by decide +kernel

theorem test_snapshots_6 : holdsAfter (.snapTimeout) (st_snapshots_6) (fun x => decide (x.frozen = none ∧ x.hw.on SYS_SNAP_HELD = false)) = true := by decide +kernel

def st_transactions_1 : State := with_ (fun h => (((h.put SYS_HUB_ID_ID 3).put LNK_PORT_STATUS_ACTIVE 1)).setPort .b { (((h.put SYS_HUB_ID_ID 3).put LNK_PORT_STATUS_ACTIVE 1)).port .b with fifo := [{ frame := { ty := 1, cls := 1, rsp := false, sr := false, flg := false, src := 4, dst := 3, seq := 5, epoch := 0, hops := 7, payload := [9, 9, 0, 0, 0, 2, 0, 0, 0, 0, 1, 0] }, hopsArr := 7, order := 1, trailer := some 1, trailerNs := 0, promoted := false, held := false }] })

def v_transactions_1_e : CmdEntry := { frame := { ty := 1, cls := 1, rsp := false, sr := false, flg := false, src := 4, dst := 3, seq := 5, epoch := 0, hops := 7, payload := [9, 9, 0, 0, 0, 2, 0, 0, 0, 0, 1, 0] }, hopsArr := 7, order := 1, trailer := some 1, trailerNs := 0, promoted := false, held := false }

theorem wit_transactions_1 : (st_transactions_1.hw.live = true) ∧ (st_transactions_1.hw.coreOn = true) ∧
    (st_transactions_1.hw.classRoom 1 = true) ∧ (st_transactions_1.hw.nextCommand = some ((.b : Port),
    v_transactions_1_e)) ∧ (v_transactions_1_e.frame.ty = 0x01) ∧
    (((st_transactions_1.hw.removeCommand (.b : Port) v_transactions_1_e).dupAccept (.b : Port) v_transactions_1_e.frame).2 = true) ∧
    (st_transactions_1.hw.running = true) ∧ (regForm v_transactions_1_e.frame.payload false = 0) := by decide +kernel

theorem test_transactions_1 : holdsAfter (.regRead) (st_transactions_1) (fun x => decide (x.hw.net.egress.getLast?.map (fun d => (d.frame.ty, d.frame.cls, d.frame.rsp, d.frame.dst, d.frame.payload)) = some (v_transactions_1_e.frame.ty, 1, true, v_transactions_1_e.frame.src, regHead v_transactions_1_e.frame.payload 0 (regCount v_transactions_1_e.frame.payload) ++ ((Hw.readWords st_transactions_1.frozen (reqOfPort (.b : Port)) (regCount v_transactions_1_e.frame.payload) (regAddr v_transactions_1_e.frame.payload) ((st_transactions_1.hw.removeCommand (.b : Port) v_transactions_1_e).dupAccept (.b : Port) v_transactions_1_e.frame).1).2).flatMap (fun w => beBytes 4 w.toNat)) ∧ x.rdata = (Hw.readWords st_transactions_1.frozen (reqOfPort (.b : Port)) (regCount v_transactions_1_e.frame.payload) (regAddr v_transactions_1_e.frame.payload) ((st_transactions_1.hw.removeCommand (.b : Port) v_transactions_1_e).dupAccept (.b : Port) v_transactions_1_e.frame).1).2 ∧ x.status = 0 ∧ (x.hw.port (.b : Port)).fifo = (st_transactions_1.hw.port (.b : Port)).fifo.filter (fun y => decide (y.order ≠ v_transactions_1_e.order)))) = true := by decide +kernel

def st_transactions_2 : State := with_ (fun h => (((h.put SYS_HUB_ID_ID 3).put LNK_PORT_STATUS_ACTIVE 1)).setPort .b { (((h.put SYS_HUB_ID_ID 3).put LNK_PORT_STATUS_ACTIVE 1)).port .b with fifo := [{ frame := { ty := 1, cls := 1, rsp := false, sr := false, flg := false, src := 4, dst := 3, seq := 5, epoch := 0, hops := 7, payload := [9, 9, 0, 0, 0, 2, 0, 0, 0, 0, 1, 2] }, hopsArr := 7, order := 1, trailer := some 1, trailerNs := 0, promoted := false, held := false }] })

def v_transactions_2_e : CmdEntry := { frame := { ty := 1, cls := 1, rsp := false, sr := false, flg := false, src := 4, dst := 3, seq := 5, epoch := 0, hops := 7, payload := [9, 9, 0, 0, 0, 2, 0, 0, 0, 0, 1, 2] }, hopsArr := 7, order := 1, trailer := some 1, trailerNs := 0, promoted := false, held := false }

theorem wit_transactions_2 : (st_transactions_2.hw.live = true) ∧ (st_transactions_2.hw.coreOn = true) ∧
    (st_transactions_2.hw.classRoom 1 = true) ∧ (st_transactions_2.hw.nextCommand = some ((.b : Port),
    v_transactions_2_e)) ∧ (v_transactions_2_e.frame.ty = 0x01) ∧
    (((st_transactions_2.hw.removeCommand (.b : Port) v_transactions_2_e).dupAccept (.b : Port) v_transactions_2_e.frame).2 = true) ∧
    (st_transactions_2.hw.running = true) ∧ (regForm v_transactions_2_e.frame.payload false ≠ 0) := by decide +kernel

theorem test_transactions_2 : holdsAfter (.regRead) (st_transactions_2) (fun x => decide (x.hw.net.egress.getLast?.map (fun d => (d.frame.ty, d.frame.cls, d.frame.rsp, d.frame.dst, d.frame.payload)) = some (v_transactions_2_e.frame.ty, 1, true, v_transactions_2_e.frame.src, regHead v_transactions_2_e.frame.payload (regForm v_transactions_2_e.frame.payload false) 0) ∧ (x.hw.port (.b : Port)).fifo = (st_transactions_2.hw.port (.b : Port)).fifo.filter (fun y => decide (y.order ≠ v_transactions_2_e.order)))) = true := by decide +kernel

def st_transactions_3 : State := with_ (fun h => (((h.put SYS_HUB_ID_ID 3).put LNK_PORT_STATUS_ACTIVE 1)).setPort .b { (((h.put SYS_HUB_ID_ID 3).put LNK_PORT_STATUS_ACTIVE 1)).port .b with fifo := [{ frame := { ty := 2, cls := 1, rsp := false, sr := false, flg := false, src := 4, dst := 3, seq := 5, epoch := 0, hops := 7, payload := [9, 9, 0, 0, 0, 2, 0, 0, 0, 0, 0, 0x34, 1, 2, 3, 4, 5, 6, 7, 8] }, hopsArr := 7, order := 1, trailer := some 1, trailerNs := 0, promoted := false, held := false }] })

def v_transactions_3_e : CmdEntry := { frame := { ty := 2, cls := 1, rsp := false, sr := false, flg := false, src := 4, dst := 3, seq := 5, epoch := 0, hops := 7, payload := [9, 9, 0, 0, 0, 2, 0, 0, 0, 0, 0, 0x34, 1, 2, 3, 4, 5, 6, 7, 8] }, hopsArr := 7, order := 1, trailer := some 1, trailerNs := 0, promoted := false, held := false }

def v_transactions_3_w : State × Nat × Nat := (({ st_transactions_3 with hw := ((st_transactions_3.hw.removeCommand .b { frame := { ty := 2, cls := 1, rsp := false, sr := false, flg := false, src := 4, dst := 3, seq := 5, epoch := 0, hops := 7, payload := [9, 9, 0, 0, 0, 2, 0, 0, 0, 0, 0, 0x34, 1, 2, 3, 4, 5, 6, 7, 8] }, hopsArr := 7, order := 1, trailer := some 1, trailerNs := 0, promoted := false, held := false }).dupAccept .b ({ frame := { ty := 2, cls := 1, rsp := false, sr := false, flg := false, src := 4, dst := 3, seq := 5, epoch := 0, hops := 7, payload := [9, 9, 0, 0, 0, 2, 0, 0, 0, 0, 0, 0x34, 1, 2, 3, 4, 5, 6, 7, 8] }, hopsArr := 7, order := 1, trailer := some 1, trailerNs := 0, promoted := false, held := false } : CmdEntry).frame).1 } : State).writeWords .portB 4 0x34 [0x01020304, 0x05060708] 0)

theorem wit_transactions_3 : (st_transactions_3.hw.live = true) ∧ (st_transactions_3.hw.coreOn = true) ∧
    (st_transactions_3.hw.classRoom 1 = true) ∧ (st_transactions_3.hw.nextCommand = some ((.b : Port),
    v_transactions_3_e)) ∧ (v_transactions_3_e.frame.ty = 0x02) ∧
    (((st_transactions_3.hw.removeCommand (.b : Port) v_transactions_3_e).dupAccept (.b : Port) v_transactions_3_e.frame).2 = true) ∧
    (st_transactions_3.hw.running = true) ∧ (regForm v_transactions_3_e.frame.payload true = 0) ∧
    (v_transactions_3_w = ({ st_transactions_3 with hw := ((st_transactions_3.hw.removeCommand (.b : Port) v_transactions_3_e).dupAccept (.b : Port) v_transactions_3_e.frame).1 } : State).writeWords (reqOfPort (.b : Port)) v_transactions_3_e.frame.src (regAddr v_transactions_3_e.frame.payload) ((List.range (regCount v_transactions_3_e.frame.payload)).map (fun i => BitVec.ofNat 32 (beAt v_transactions_3_e.frame.payload (12 + 4 * i) 4))) 0) := by decide +kernel

theorem test_transactions_3 : holdsAfter (.regWrite) (st_transactions_3) (fun x => decide (x.hw.net.egress.getLast?.map (fun d => (d.frame.ty, d.frame.cls, d.frame.rsp, d.frame.dst, d.frame.payload)) = some (v_transactions_3_e.frame.ty, 1, true, v_transactions_3_e.frame.src, regHead v_transactions_3_e.frame.payload v_transactions_3_w.2.1 v_transactions_3_w.2.2) ∧ x.status = v_transactions_3_w.2.1 ∧ x.hw = v_transactions_3_w.1.hw.respond (.b : Port) v_transactions_3_e (regHead v_transactions_3_e.frame.payload v_transactions_3_w.2.1 v_transactions_3_w.2.2) ∧ x.frozen = v_transactions_3_w.1.frozen)) = true := by decide +kernel

def st_transactions_4 : State := with_ (fun h => (((h.put SYS_HUB_ID_ID 3).put LNK_PORT_STATUS_ACTIVE 1)).setPort .b { (((h.put SYS_HUB_ID_ID 3).put LNK_PORT_STATUS_ACTIVE 1)).port .b with fifo := [{ frame := { ty := 2, cls := 1, rsp := false, sr := false, flg := false, src := 4, dst := 3, seq := 5, epoch := 0, hops := 7, payload := [9, 9, 0, 0, 0, 2, 0, 0, 0, 0, 0, 0x34] }, hopsArr := 7, order := 1, trailer := some 1, trailerNs := 0, promoted := false, held := false }] })

def v_transactions_4_e : CmdEntry := { frame := { ty := 2, cls := 1, rsp := false, sr := false, flg := false, src := 4, dst := 3, seq := 5, epoch := 0, hops := 7, payload := [9, 9, 0, 0, 0, 2, 0, 0, 0, 0, 0, 0x34] }, hopsArr := 7, order := 1, trailer := some 1, trailerNs := 0, promoted := false, held := false }

theorem wit_transactions_4 : (st_transactions_4.hw.live = true) ∧ (st_transactions_4.hw.coreOn = true) ∧
    (st_transactions_4.hw.classRoom 1 = true) ∧ (st_transactions_4.hw.nextCommand = some ((.b : Port),
    v_transactions_4_e)) ∧ (v_transactions_4_e.frame.ty = 0x02) ∧
    (((st_transactions_4.hw.removeCommand (.b : Port) v_transactions_4_e).dupAccept (.b : Port) v_transactions_4_e.frame).2 = true) ∧
    (st_transactions_4.hw.running = true) ∧ (regForm v_transactions_4_e.frame.payload true ≠ 0) := by decide +kernel

theorem test_transactions_4 : holdsAfter (.regWrite) (st_transactions_4) (fun x => decide (x.hw.net.egress.getLast?.map (fun d => (d.frame.ty, d.frame.cls, d.frame.rsp, d.frame.dst, d.frame.payload)) = some (v_transactions_4_e.frame.ty, 1, true, v_transactions_4_e.frame.src, regHead v_transactions_4_e.frame.payload (regForm v_transactions_4_e.frame.payload true) 0) ∧ (x.hw.port (.b : Port)).fifo = (st_transactions_4.hw.port (.b : Port)).fifo.filter (fun y => decide (y.order ≠ v_transactions_4_e.order)))) = true := by decide +kernel

def st_transactions_5 : State := with_ (fun h => ((((h.put SYS_HUB_ID_ID 3).put LNK_PORT_STATUS_ACTIVE 1).put SYS_BOOT_MODE 0)).setPort .b { ((((h.put SYS_HUB_ID_ID 3).put LNK_PORT_STATUS_ACTIVE 1).put SYS_BOOT_MODE 0)).port .b with fifo := [{ frame := { ty := 2, cls := 1, rsp := false, sr := false, flg := false, src := 4, dst := 3, seq := 5, epoch := 0, hops := 7, payload := [9, 9, 0, 0, 0, 2, 0, 0, 0, 0, 0, 0x34, 1, 2, 3, 4, 5, 6, 7, 8] }, hopsArr := 7, order := 1, trailer := some 1, trailerNs := 0, promoted := false, held := false }] })

def v_transactions_5_e : CmdEntry := { frame := { ty := 2, cls := 1, rsp := false, sr := false, flg := false, src := 4, dst := 3, seq := 5, epoch := 0, hops := 7, payload := [9, 9, 0, 0, 0, 2, 0, 0, 0, 0, 0, 0x34, 1, 2, 3, 4, 5, 6, 7, 8] }, hopsArr := 7, order := 1, trailer := some 1, trailerNs := 0, promoted := false, held := false }

theorem wit_transactions_5 : (st_transactions_5.hw.live = true) ∧ (st_transactions_5.hw.coreOn = true) ∧
    (st_transactions_5.hw.classRoom 1 = true) ∧ (st_transactions_5.hw.nextCommand = some ((.b : Port),
    v_transactions_5_e)) ∧ (v_transactions_5_e.frame.ty = 0x02) ∧
    (((st_transactions_5.hw.removeCommand (.b : Port) v_transactions_5_e).dupAccept (.b : Port) v_transactions_5_e.frame).2 = true) ∧
    (st_transactions_5.hw.running = false) ∧ (st_transactions_5.hw.get SYS_BOOT_MODE ≠ 2) := by decide +kernel

theorem test_transactions_5 : holdsAfter (.regWrite) (st_transactions_5) (fun x => decide (x.hw.net.egress.getLast?.map (fun d => (d.frame.ty, d.frame.cls, d.frame.rsp, d.frame.dst, d.frame.payload)) = some (v_transactions_5_e.frame.ty, 1, true, v_transactions_5_e.frame.src, regHead v_transactions_5_e.frame.payload 1 0) ∧ (x.hw.port (.b : Port)).fifo = (st_transactions_5.hw.port (.b : Port)).fifo.filter (fun y => decide (y.order ≠ v_transactions_5_e.order)))) = true := by decide +kernel

def st_transactions_6 : State := with_ (fun h => ((((h.put SYS_HUB_ID_ID 3).put LNK_PORT_STATUS_ACTIVE 1).put SYS_BOOT_MODE 2)).setPort .b { ((((h.put SYS_HUB_ID_ID 3).put LNK_PORT_STATUS_ACTIVE 1).put SYS_BOOT_MODE 2)).port .b with fifo := [{ frame := { ty := 2, cls := 1, rsp := false, sr := false, flg := false, src := 4, dst := 3, seq := 5, epoch := 0, hops := 7, payload := [9, 9, 0, 0, 0, 2, 0, 0, 0, 0, 0, 0x34, 1, 2, 3, 4, 5, 6, 7, 8] }, hopsArr := 7, order := 1, trailer := some 1, trailerNs := 0, promoted := false, held := false }] })

def v_transactions_6_e : CmdEntry := { frame := { ty := 2, cls := 1, rsp := false, sr := false, flg := false, src := 4, dst := 3, seq := 5, epoch := 0, hops := 7, payload := [9, 9, 0, 0, 0, 2, 0, 0, 0, 0, 0, 0x34, 1, 2, 3, 4, 5, 6, 7, 8] }, hopsArr := 7, order := 1, trailer := some 1, trailerNs := 0, promoted := false, held := false }

theorem wit_transactions_6 : (st_transactions_6.hw.live = true) ∧ (st_transactions_6.hw.coreOn = true) ∧
    (st_transactions_6.hw.classRoom 1 = true) ∧ (st_transactions_6.hw.nextCommand = some ((.b : Port),
    v_transactions_6_e)) ∧ (v_transactions_6_e.frame.ty = 0x02) ∧
    (((st_transactions_6.hw.removeCommand (.b : Port) v_transactions_6_e).dupAccept (.b : Port) v_transactions_6_e.frame).2 = true) ∧
    (st_transactions_6.hw.running = false) ∧ (st_transactions_6.hw.get SYS_BOOT_MODE = 2) := by decide +kernel

theorem test_transactions_6 : holdsAfter (.regWrite) (st_transactions_6) (fun x => decide (x.hw.net.egress.getLast?.map (fun d => (d.frame.ty, d.frame.cls, d.frame.rsp, d.frame.dst, d.frame.payload)) = some (v_transactions_6_e.frame.ty, 1, true, v_transactions_6_e.frame.src, regHead v_transactions_6_e.frame.payload 8 0) ∧ (x.hw.port (.b : Port)).fifo = (st_transactions_6.hw.port (.b : Port)).fifo.filter (fun y => decide (y.order ≠ v_transactions_6_e.order)))) = true := by decide +kernel

def st_transactions_7 : State := with_ (fun h => (({ ((h.put SYS_HUB_ID_ID 3).put LNK_PORT_STATUS_ACTIVE 1) with net := { ((h.put SYS_HUB_ID_ID 3).put LNK_PORT_STATUS_ACTIVE 1).net with dup := [{ src := 4, head := 5, map := 1, warned := false }] } } : Hw)).setPort .b { (({ ((h.put SYS_HUB_ID_ID 3).put LNK_PORT_STATUS_ACTIVE 1) with net := { ((h.put SYS_HUB_ID_ID 3).put LNK_PORT_STATUS_ACTIVE 1).net with dup := [{ src := 4, head := 5, map := 1, warned := false }] } } : Hw)).port .b with fifo := [{ frame := { ty := 2, cls := 1, rsp := false, sr := false, flg := false, src := 4, dst := 3, seq := 5, epoch := 0, hops := 7, payload := [9, 9, 0, 0, 0, 2, 0, 0, 0, 0, 0, 0x34, 1, 2, 3, 4, 5, 6, 7, 8] }, hopsArr := 7, order := 1, trailer := some 1, trailerNs := 0, promoted := false, held := false }] })

def v_transactions_7_e : CmdEntry := { frame := { ty := 2, cls := 1, rsp := false, sr := false, flg := false, src := 4, dst := 3, seq := 5, epoch := 0, hops := 7, payload := [9, 9, 0, 0, 0, 2, 0, 0, 0, 0, 0, 0x34, 1, 2, 3, 4, 5, 6, 7, 8] }, hopsArr := 7, order := 1, trailer := some 1, trailerNs := 0, promoted := false, held := false }

theorem wit_transactions_7 : (st_transactions_7.hw.live = true) ∧ (st_transactions_7.hw.coreOn = true) ∧
    (st_transactions_7.hw.classRoom 1 = true) ∧ (st_transactions_7.hw.nextCommand = some ((.b : Port),
    v_transactions_7_e)) ∧ (v_transactions_7_e.frame.ty = 0x02) ∧
    (((st_transactions_7.hw.removeCommand (.b : Port) v_transactions_7_e).dupAccept (.b : Port) v_transactions_7_e.frame).2 = false) := by decide +kernel

theorem test_transactions_7 : holdsAfter (.regWrite) (st_transactions_7) (fun x => decide (x = { st_transactions_7 with hw := ((st_transactions_7.hw.removeCommand (.b : Port) v_transactions_7_e).dupAccept (.b : Port) v_transactions_7_e.frame).1 } ∧ x.hw.net.egress = st_transactions_7.hw.net.egress ∧ (x.hw.port (.b : Port)).fifo = (st_transactions_7.hw.port (.b : Port)).fifo.filter (fun y => decide (y.order ≠ v_transactions_7_e.order)))) = true := by decide +kernel

def st_transactions_8a : State := with_ (fun h => ((((h.put SYS_HUB_ID_ID 3).put LNK_PORT_STATUS_ACTIVE 1).put SYS_SNAP_HELD 1).put SYS_SNAP_OWNER 3).setPort .b { ((((h.put SYS_HUB_ID_ID 3).put LNK_PORT_STATUS_ACTIVE 1).put SYS_SNAP_HELD 1).put SYS_SNAP_OWNER 3).port .b with fifo := [{ frame := { ty := 3, cls := 1, rsp := false, sr := false, flg := false, src := 4, dst := 3, seq := 5, epoch := 0, hops := 7, payload := [9, 9, 0, 1, 0, 0, 0, 0, 0, 0, 1, 0, 0, 2, 0, 0] }, hopsArr := 7, order := 1, trailer := some 1, trailerNs := 0, promoted := false, held := false }] })

def v_transactions_8a_e : CmdEntry := { frame := { ty := 3, cls := 1, rsp := false, sr := false, flg := false, src := 4, dst := 3, seq := 5, epoch := 0, hops := 7, payload := [9, 9, 0, 1, 0, 0, 0, 0, 0, 0, 1, 0, 0, 2, 0, 0] }, hopsArr := 7, order := 1, trailer := some 1, trailerNs := 0, promoted := false, held := false }

theorem wit_transactions_8a : (st_transactions_8a.hw.live = true) ∧ (st_transactions_8a.hw.coreOn = true) ∧
    (st_transactions_8a.hw.classRoom 1 = true) ∧ (st_transactions_8a.hw.nextCommand = some ((.b : Port),
    v_transactions_8a_e)) ∧ (v_transactions_8a_e.frame.ty = 0x03) ∧
    (((st_transactions_8a.hw.removeCommand (.b : Port) v_transactions_8a_e).dupAccept (.b : Port) v_transactions_8a_e.frame).2 = true) ∧
    (st_transactions_8a.hw.running = true) ∧ (snapForm v_transactions_8a_e.frame.payload = 0) ∧
    (st_transactions_8a.hw.snapTaken (reqOfPort (.b : Port)) = false) ∧
    (st_transactions_8a.hw.snapOwned (reqOfPort (.b : Port)) = true) := by decide +kernel

theorem test_transactions_8a : holdsAfter (.snapRead) (st_transactions_8a) (fun x => decide (x.hw.net.egress.getLast?.map (fun d => (d.frame.ty, d.frame.cls, d.frame.rsp, d.frame.dst, d.frame.payload)) = some (v_transactions_8a_e.frame.ty, 1, true, v_transactions_8a_e.frame.src, snapHead v_transactions_8a_e.frame.payload 0 ((st_transactions_8a.frozen.getD ((st_transactions_8a.hw.removeCommand (.b : Port) v_transactions_8a_e).dupAccept (.b : Port) v_transactions_8a_e.frame).1).get SYS_EPOCH_EPOCH) ++ ((Hw.readRanges st_transactions_8a.frozen (reqOfPort (.b : Port)) (snapRanges v_transactions_8a_e.frame.payload) ((st_transactions_8a.hw.removeCommand (.b : Port) v_transactions_8a_e).dupAccept (.b : Port) v_transactions_8a_e.frame).1).2).flatMap (fun w => beBytes 4 w.toNat)) ∧ (st_transactions_8a.hw.epoch.snapAuto = false → x.frozen = st_transactions_8a.frozen) ∧ (st_transactions_8a.hw.epoch.snapAuto = true → x.frozen = none) ∧ (x.hw.port (.b : Port)).fifo = (st_transactions_8a.hw.port (.b : Port)).fifo.filter (fun y => decide (y.order ≠ v_transactions_8a_e.order)))) = true := by decide +kernel

def st_transactions_8b : State := with_ (fun h => (({ (((h.put SYS_HUB_ID_ID 3).put LNK_PORT_STATUS_ACTIVE 1).put SYS_SNAP_HELD 1).put SYS_SNAP_OWNER 3 with epoch := { ((h.put SYS_HUB_ID_ID 3).put LNK_PORT_STATUS_ACTIVE 1).epoch with snapAuto := true } } : Hw)).setPort .b { (({ (((h.put SYS_HUB_ID_ID 3).put LNK_PORT_STATUS_ACTIVE 1).put SYS_SNAP_HELD 1).put SYS_SNAP_OWNER 3 with epoch := { ((h.put SYS_HUB_ID_ID 3).put LNK_PORT_STATUS_ACTIVE 1).epoch with snapAuto := true } } : Hw)).port .b with fifo := [{ frame := { ty := 3, cls := 1, rsp := false, sr := false, flg := false, src := 4, dst := 3, seq := 5, epoch := 0, hops := 7, payload := [9, 9, 0, 1, 0, 0, 0, 0, 0, 0, 1, 0, 0, 2, 0, 0] }, hopsArr := 7, order := 1, trailer := some 1, trailerNs := 0, promoted := false, held := false }] })

def v_transactions_8b_e : CmdEntry := { frame := { ty := 3, cls := 1, rsp := false, sr := false, flg := false, src := 4, dst := 3, seq := 5, epoch := 0, hops := 7, payload := [9, 9, 0, 1, 0, 0, 0, 0, 0, 0, 1, 0, 0, 2, 0, 0] }, hopsArr := 7, order := 1, trailer := some 1, trailerNs := 0, promoted := false, held := false }

theorem wit_transactions_8b : (st_transactions_8b.hw.live = true) ∧ (st_transactions_8b.hw.coreOn = true) ∧
    (st_transactions_8b.hw.classRoom 1 = true) ∧ (st_transactions_8b.hw.nextCommand = some ((.b : Port),
    v_transactions_8b_e)) ∧ (v_transactions_8b_e.frame.ty = 0x03) ∧
    (((st_transactions_8b.hw.removeCommand (.b : Port) v_transactions_8b_e).dupAccept (.b : Port) v_transactions_8b_e.frame).2 = true) ∧
    (st_transactions_8b.hw.running = true) ∧ (snapForm v_transactions_8b_e.frame.payload = 0) ∧
    (st_transactions_8b.hw.snapTaken (reqOfPort (.b : Port)) = false) ∧
    (st_transactions_8b.hw.snapOwned (reqOfPort (.b : Port)) = true) := by decide +kernel

theorem test_transactions_8b : holdsAfter (.snapRead) (st_transactions_8b) (fun x => decide (x.hw.net.egress.getLast?.map (fun d => (d.frame.ty, d.frame.cls, d.frame.rsp, d.frame.dst, d.frame.payload)) = some (v_transactions_8b_e.frame.ty, 1, true, v_transactions_8b_e.frame.src, snapHead v_transactions_8b_e.frame.payload 0 ((st_transactions_8b.frozen.getD ((st_transactions_8b.hw.removeCommand (.b : Port) v_transactions_8b_e).dupAccept (.b : Port) v_transactions_8b_e.frame).1).get SYS_EPOCH_EPOCH) ++ ((Hw.readRanges st_transactions_8b.frozen (reqOfPort (.b : Port)) (snapRanges v_transactions_8b_e.frame.payload) ((st_transactions_8b.hw.removeCommand (.b : Port) v_transactions_8b_e).dupAccept (.b : Port) v_transactions_8b_e.frame).1).2).flatMap (fun w => beBytes 4 w.toNat)) ∧ (st_transactions_8b.hw.epoch.snapAuto = false → x.frozen = st_transactions_8b.frozen) ∧ (st_transactions_8b.hw.epoch.snapAuto = true → x.frozen = none) ∧ (x.hw.port (.b : Port)).fifo = (st_transactions_8b.hw.port (.b : Port)).fifo.filter (fun y => decide (y.order ≠ v_transactions_8b_e.order)))) = true := by decide +kernel

def st_transactions_9 : State := with_ (fun h => ((((h.put SYS_HUB_ID_ID 3).put LNK_PORT_STATUS_ACTIVE 1).put SYS_SNAP_HELD 1).put SYS_SNAP_OWNER 1).setPort .b { ((((h.put SYS_HUB_ID_ID 3).put LNK_PORT_STATUS_ACTIVE 1).put SYS_SNAP_HELD 1).put SYS_SNAP_OWNER 1).port .b with fifo := [{ frame := { ty := 3, cls := 1, rsp := false, sr := false, flg := false, src := 4, dst := 3, seq := 5, epoch := 0, hops := 7, payload := [9, 9, 0, 1, 0, 0, 0, 0, 0, 0, 1, 0, 0, 2, 0, 0] }, hopsArr := 7, order := 1, trailer := some 1, trailerNs := 0, promoted := false, held := false }] })

def v_transactions_9_e : CmdEntry := { frame := { ty := 3, cls := 1, rsp := false, sr := false, flg := false, src := 4, dst := 3, seq := 5, epoch := 0, hops := 7, payload := [9, 9, 0, 1, 0, 0, 0, 0, 0, 0, 1, 0, 0, 2, 0, 0] }, hopsArr := 7, order := 1, trailer := some 1, trailerNs := 0, promoted := false, held := false }

theorem wit_transactions_9 : (st_transactions_9.hw.live = true) ∧ (st_transactions_9.hw.coreOn = true) ∧
    (st_transactions_9.hw.classRoom 1 = true) ∧ (st_transactions_9.hw.nextCommand = some ((.b : Port),
    v_transactions_9_e)) ∧ (v_transactions_9_e.frame.ty = 0x03) ∧
    (((st_transactions_9.hw.removeCommand (.b : Port) v_transactions_9_e).dupAccept (.b : Port) v_transactions_9_e.frame).2 = true) ∧
    (st_transactions_9.hw.running = true) ∧ (snapForm v_transactions_9_e.frame.payload = 0) ∧
    (st_transactions_9.hw.snapTaken (reqOfPort (.b : Port)) = true) := by decide +kernel

theorem test_transactions_9 : holdsAfter (.snapRead) (st_transactions_9) (fun x => decide (x.hw.net.egress.getLast?.map (fun d => (d.frame.ty, d.frame.cls, d.frame.rsp, d.frame.dst, d.frame.payload)) = some (v_transactions_9_e.frame.ty, 1, true, v_transactions_9_e.frame.src, snapHead v_transactions_9_e.frame.payload 7 0) ∧ x.frozen = st_transactions_9.frozen ∧ (x.hw.port (.b : Port)).fifo = (st_transactions_9.hw.port (.b : Port)).fifo.filter (fun y => decide (y.order ≠ v_transactions_9_e.order)))) = true := by decide +kernel

def st_transactions_10 : State := with_ (fun h => (({ ((h.put SYS_HUB_ID_ID 3).put LNK_PORT_STATUS_ACTIVE 1) with seq := { ((h.put SYS_HUB_ID_ID 3).put LNK_PORT_STATUS_ACTIVE 1).seq with running := true } } : Hw)).setPort .b { (({ ((h.put SYS_HUB_ID_ID 3).put LNK_PORT_STATUS_ACTIVE 1) with seq := { ((h.put SYS_HUB_ID_ID 3).put LNK_PORT_STATUS_ACTIVE 1).seq with running := true } } : Hw)).port .b with fifo := [{ frame := { ty := 3, cls := 1, rsp := false, sr := false, flg := false, src := 4, dst := 3, seq := 5, epoch := 0, hops := 7, payload := [9, 9, 0, 1, 0, 0, 0, 0, 0, 0, 1, 0, 0, 2, 0, 0] }, hopsArr := 7, order := 1, trailer := some 1, trailerNs := 0, promoted := false, held := false }] })

def v_transactions_10_e : CmdEntry := { frame := { ty := 3, cls := 1, rsp := false, sr := false, flg := false, src := 4, dst := 3, seq := 5, epoch := 0, hops := 7, payload := [9, 9, 0, 1, 0, 0, 0, 0, 0, 0, 1, 0, 0, 2, 0, 0] }, hopsArr := 7, order := 1, trailer := some 1, trailerNs := 0, promoted := false, held := false }

theorem wit_transactions_10 : (st_transactions_10.hw.live = true) ∧ (st_transactions_10.hw.coreOn = true) ∧
    (st_transactions_10.hw.classRoom 1 = true) ∧ (st_transactions_10.hw.nextCommand = some ((.b : Port),
    v_transactions_10_e)) ∧ (v_transactions_10_e.frame.ty = 0x03) ∧ (st_transactions_10.hw.running = true) ∧
    (snapForm v_transactions_10_e.frame.payload = 0) ∧
    (st_transactions_10.hw.snapTaken (reqOfPort (.b : Port)) = false) ∧
    (st_transactions_10.hw.on SYS_SNAP_HELD = false) ∧ (st_transactions_10.hw.epoch.snapReq = none) ∧
    (st_transactions_10.hw.seq.running = true) ∧ (st_transactions_10.hw.nextBoundary = none) := by decide +kernel

theorem test_transactions_10 : holdsAfter (.snapRead) (st_transactions_10) (fun x => decide (x.hw.epoch.snapReq = some (reqOfPort (.b : Port)) ∧ x.hw.epoch.snapAuto = true ∧ x.hw.net = st_transactions_10.hw.net ∧ x.hw.regs = st_transactions_10.hw.regs)) = true := by decide +kernel

def st_transactions_11a : State := with_ (fun h => (((h.put SYS_HUB_ID_ID 3).put LNK_PORT_STATUS_ACTIVE 1)).setPort .b { (((h.put SYS_HUB_ID_ID 3).put LNK_PORT_STATUS_ACTIVE 1)).port .b with fifo := [{ frame := { ty := 0x31, cls := 1, rsp := false, sr := false, flg := false, src := 4, dst := 3, seq := 5, epoch := 0, hops := 7, payload := [9, 9, 0, 0, 0, 0, 0, 18] }, hopsArr := 7, order := 1, trailer := some 1, trailerNs := 0, promoted := false, held := false }] })

def v_transactions_11a_e : CmdEntry := { frame := { ty := 0x31, cls := 1, rsp := false, sr := false, flg := false, src := 4, dst := 3, seq := 5, epoch := 0, hops := 7, payload := [9, 9, 0, 0, 0, 0, 0, 18] }, hopsArr := 7, order := 1, trailer := some 1, trailerNs := 0, promoted := false, held := false }

theorem wit_transactions_11a : (st_transactions_11a.hw.live = true) ∧ (st_transactions_11a.hw.coreOn = true) ∧
    (st_transactions_11a.hw.classRoom 1 = true) ∧ (st_transactions_11a.hw.nextCommand = some ((.b : Port),
    v_transactions_11a_e)) ∧ (v_transactions_11a_e.frame.ty = 0x31) ∧
    (((st_transactions_11a.hw.removeCommand (.b : Port) v_transactions_11a_e).dupAccept (.b : Port) v_transactions_11a_e.frame).2 = true) ∧
    (v_transactions_11a_e.frame.payload.length = 8) ∧ (beAt v_transactions_11a_e.frame.payload 2 2 = 0) := by decide +kernel

theorem test_transactions_11a : holdsAfter (.capDisc) (st_transactions_11a) (fun x => decide (x.hw.net.egress.getLast?.map (fun d => (d.frame.ty, d.frame.cls, d.frame.rsp, d.frame.dst, d.frame.payload)) = some (v_transactions_11a_e.frame.ty, 1, true, v_transactions_11a_e.frame.src, v_transactions_11a_e.frame.payload.take 2 ++ [0, byte (portNo (.b : Port))] ++ slice v_transactions_11a_e.frame.payload 4 4 ++ [byte v_transactions_11a_e.hopsArr, 0] ++ beBytes 2 (18 - beAt v_transactions_11a_e.frame.payload 4 4) ++ (((st_transactions_11a.hw.removeCommand (.b : Port) v_transactions_11a_e).dupAccept (.b : Port) v_transactions_11a_e.frame).1.liveReg SYS_ID :: (st_transactions_11a.frozen.getD ((st_transactions_11a.hw.removeCommand (.b : Port) v_transactions_11a_e).dupAccept (.b : Port) v_transactions_11a_e.frame).1).liveReg SYS_EPOCH :: (List.range (18 - beAt v_transactions_11a_e.frame.payload 4 4)).map (fun i => ((st_transactions_11a.hw.removeCommand (.b : Port) v_transactions_11a_e).dupAccept (.b : Port) v_transactions_11a_e.frame).1.liveReg (0x100 + 4 * (beAt v_transactions_11a_e.frame.payload 4 4 + i)))).flatMap (fun w => beBytes 4 w.toNat)) ∧ (x.hw.port (.b : Port)).fifo = (st_transactions_11a.hw.port (.b : Port)).fifo.filter (fun y => decide (y.order ≠ v_transactions_11a_e.order)))) = true := by decide +kernel

def st_transactions_11b : State := with_ (fun h => (((h.put SYS_HUB_ID_ID 3).put LNK_PORT_STATUS_ACTIVE 1)).setPort .b { (((h.put SYS_HUB_ID_ID 3).put LNK_PORT_STATUS_ACTIVE 1)).port .b with fifo := [{ frame := { ty := 0x31, cls := 1, rsp := false, sr := false, flg := false, src := 4, dst := 3, seq := 5, epoch := 0, hops := 7, payload := [9, 9, 0, 0, 0, 0, 0, 0] }, hopsArr := 7, order := 1, trailer := some 1, trailerNs := 0, promoted := false, held := false }] })

def v_transactions_11b_e : CmdEntry := { frame := { ty := 0x31, cls := 1, rsp := false, sr := false, flg := false, src := 4, dst := 3, seq := 5, epoch := 0, hops := 7, payload := [9, 9, 0, 0, 0, 0, 0, 0] }, hopsArr := 7, order := 1, trailer := some 1, trailerNs := 0, promoted := false, held := false }

theorem wit_transactions_11b : (st_transactions_11b.hw.live = true) ∧ (st_transactions_11b.hw.coreOn = true) ∧
    (st_transactions_11b.hw.classRoom 1 = true) ∧ (st_transactions_11b.hw.nextCommand = some ((.b : Port),
    v_transactions_11b_e)) ∧ (v_transactions_11b_e.frame.ty = 0x31) ∧
    (((st_transactions_11b.hw.removeCommand (.b : Port) v_transactions_11b_e).dupAccept (.b : Port) v_transactions_11b_e.frame).2 = true) ∧
    (v_transactions_11b_e.frame.payload.length = 8) ∧ (beAt v_transactions_11b_e.frame.payload 2 2 = 0) := by decide +kernel

theorem test_transactions_11b : holdsAfter (.capDisc) (st_transactions_11b) (fun x => decide (x.hw.net.egress.getLast?.map (fun d => (d.frame.ty, d.frame.cls, d.frame.rsp, d.frame.dst, d.frame.payload)) = some (v_transactions_11b_e.frame.ty, 1, true, v_transactions_11b_e.frame.src, v_transactions_11b_e.frame.payload.take 2 ++ [0, byte (portNo (.b : Port))] ++ slice v_transactions_11b_e.frame.payload 4 4 ++ [byte v_transactions_11b_e.hopsArr, 0] ++ beBytes 2 (18 - beAt v_transactions_11b_e.frame.payload 4 4) ++ (((st_transactions_11b.hw.removeCommand (.b : Port) v_transactions_11b_e).dupAccept (.b : Port) v_transactions_11b_e.frame).1.liveReg SYS_ID :: (st_transactions_11b.frozen.getD ((st_transactions_11b.hw.removeCommand (.b : Port) v_transactions_11b_e).dupAccept (.b : Port) v_transactions_11b_e.frame).1).liveReg SYS_EPOCH :: (List.range (18 - beAt v_transactions_11b_e.frame.payload 4 4)).map (fun i => ((st_transactions_11b.hw.removeCommand (.b : Port) v_transactions_11b_e).dupAccept (.b : Port) v_transactions_11b_e.frame).1.liveReg (0x100 + 4 * (beAt v_transactions_11b_e.frame.payload 4 4 + i)))).flatMap (fun w => beBytes 4 w.toNat)) ∧ (x.hw.port (.b : Port)).fifo = (st_transactions_11b.hw.port (.b : Port)).fifo.filter (fun y => decide (y.order ≠ v_transactions_11b_e.order)))) = true := by decide +kernel

def st_transactions_12a : State := with_ (fun h => (((h.put SYS_HUB_ID_ID 3).put LNK_PORT_STATUS_ACTIVE 1)).setPort .b { (((h.put SYS_HUB_ID_ID 3).put LNK_PORT_STATUS_ACTIVE 1)).port .b with fifo := [{ frame := { ty := 0x31, cls := 1, rsp := false, sr := false, flg := false, src := 4, dst := 3, seq := 5, epoch := 0, hops := 7, payload := [9, 9, 0, 1, 0, 0, 0, 18] }, hopsArr := 7, order := 1, trailer := some 1, trailerNs := 0, promoted := false, held := false }] })

def v_transactions_12a_e : CmdEntry := { frame := { ty := 0x31, cls := 1, rsp := false, sr := false, flg := false, src := 4, dst := 3, seq := 5, epoch := 0, hops := 7, payload := [9, 9, 0, 1, 0, 0, 0, 18] }, hopsArr := 7, order := 1, trailer := some 1, trailerNs := 0, promoted := false, held := false }

theorem wit_transactions_12a : (st_transactions_12a.hw.live = true) ∧ (st_transactions_12a.hw.coreOn = true) ∧
    (st_transactions_12a.hw.classRoom 1 = true) ∧ (st_transactions_12a.hw.nextCommand = some ((.b : Port),
    v_transactions_12a_e)) ∧ (v_transactions_12a_e.frame.ty = 0x31) ∧
    (((st_transactions_12a.hw.removeCommand (.b : Port) v_transactions_12a_e).dupAccept (.b : Port) v_transactions_12a_e.frame).2 = true) ∧
    ((v_transactions_12a_e.frame.payload.length ≠ 8 ∨ beAt (padded v_transactions_12a_e.frame.payload 8) 2 2 ≠ 0)) := by decide +kernel

theorem test_transactions_12a : holdsAfter (.capDisc) (st_transactions_12a) (fun x => decide (x.hw.net.egress.getLast?.map (fun d => (d.frame.ty, d.frame.cls, d.frame.rsp, d.frame.dst, d.frame.payload)) = some (v_transactions_12a_e.frame.ty, 1, true, v_transactions_12a_e.frame.src, (padded v_transactions_12a_e.frame.payload 8).take 2 ++ [4, byte (portNo (.b : Port))] ++ slice (padded v_transactions_12a_e.frame.payload 8) 4 4) ∧ (x.hw.port (.b : Port)).fifo = (st_transactions_12a.hw.port (.b : Port)).fifo.filter (fun y => decide (y.order ≠ v_transactions_12a_e.order)))) = true := by decide +kernel

def st_transactions_12b : State := with_ (fun h => (((h.put SYS_HUB_ID_ID 3).put LNK_PORT_STATUS_ACTIVE 1)).setPort .b { (((h.put SYS_HUB_ID_ID 3).put LNK_PORT_STATUS_ACTIVE 1)).port .b with fifo := [{ frame := { ty := 0x31, cls := 1, rsp := false, sr := false, flg := false, src := 4, dst := 3, seq := 5, epoch := 0, hops := 7, payload := [9, 9] }, hopsArr := 7, order := 1, trailer := some 1, trailerNs := 0, promoted := false, held := false }] })

def v_transactions_12b_e : CmdEntry := { frame := { ty := 0x31, cls := 1, rsp := false, sr := false, flg := false, src := 4, dst := 3, seq := 5, epoch := 0, hops := 7, payload := [9, 9] }, hopsArr := 7, order := 1, trailer := some 1, trailerNs := 0, promoted := false, held := false }

theorem wit_transactions_12b : (st_transactions_12b.hw.live = true) ∧ (st_transactions_12b.hw.coreOn = true) ∧
    (st_transactions_12b.hw.classRoom 1 = true) ∧ (st_transactions_12b.hw.nextCommand = some ((.b : Port),
    v_transactions_12b_e)) ∧ (v_transactions_12b_e.frame.ty = 0x31) ∧
    (((st_transactions_12b.hw.removeCommand (.b : Port) v_transactions_12b_e).dupAccept (.b : Port) v_transactions_12b_e.frame).2 = true) ∧
    ((v_transactions_12b_e.frame.payload.length ≠ 8 ∨ beAt (padded v_transactions_12b_e.frame.payload 8) 2 2 ≠ 0)) := by decide +kernel

theorem test_transactions_12b : holdsAfter (.capDisc) (st_transactions_12b) (fun x => decide (x.hw.net.egress.getLast?.map (fun d => (d.frame.ty, d.frame.cls, d.frame.rsp, d.frame.dst, d.frame.payload)) = some (v_transactions_12b_e.frame.ty, 1, true, v_transactions_12b_e.frame.src, (padded v_transactions_12b_e.frame.payload 8).take 2 ++ [4, byte (portNo (.b : Port))] ++ slice (padded v_transactions_12b_e.frame.payload 8) 4 4) ∧ (x.hw.port (.b : Port)).fifo = (st_transactions_12b.hw.port (.b : Port)).fifo.filter (fun y => decide (y.order ≠ v_transactions_12b_e.order)))) = true := by decide +kernel

def st_transactions_13a : State := with_ (fun h => (({ h with clk := { h.clk with core := { h.clk.core with mode := .off } } } : Hw)).setPort .b { (({ h with clk := { h.clk with core := { h.clk.core with mode := .off } } } : Hw)).port .b with linkMsgs := [{ frame := { ty := 0x40, cls := 1, rsp := false, sr := false, flg := false, src := 4, dst := 3, seq := 5, epoch := 0, hops := 7, payload := [1, 0, 1, 2] }, stamp := 0 }] })

def v_transactions_13a_m : PortMsg := { frame := { ty := 0x40, cls := 1, rsp := false, sr := false, flg := false, src := 4, dst := 3, seq := 5, epoch := 0, hops := 7, payload := [1, 0, 1, 2] }, stamp := 0 }

theorem wit_transactions_13a : (st_transactions_13a.hw.live = true) ∧ (st_transactions_13a.hw.linkOn = true) ∧
    ((st_transactions_13a.hw.port (.b : Port)).linkMsgs = v_transactions_13a_m :: ([] : List PortMsg)) ∧
    (beAt v_transactions_13a_m.frame.payload 0 1 = 1) := by decide +kernel

theorem test_transactions_13a : holdsAfter (.linkCtlWake (.b : Port)) (st_transactions_13a) (fun x => decide ((x.hw.port (.b : Port)).linkMsgs = ([] : List PortMsg) ∧ (st_transactions_13a.hw.coreOn = false → (x.hw.xing (5 + portNo (.b : Port))).busy = true) ∧ (st_transactions_13a.hw.clk.core.mode = .off → x.hw.clk.core.mode = .waking) ∧ x.hw.ns + 1000000 * beAt v_transactions_13a_m.frame.payload 2 2 ≤ max (x.hw.port (.b : Port)).holdAwake x.hw.ns)) = true := by decide +kernel

def st_transactions_13b : State := with_ (fun h => (h).setPort .b { (h).port .b with linkMsgs := [{ frame := { ty := 0x40, cls := 1, rsp := false, sr := false, flg := false, src := 4, dst := 3, seq := 5, epoch := 0, hops := 7, payload := [1, 0, 1, 2] }, stamp := 0 }] })

def v_transactions_13b_m : PortMsg := { frame := { ty := 0x40, cls := 1, rsp := false, sr := false, flg := false, src := 4, dst := 3, seq := 5, epoch := 0, hops := 7, payload := [1, 0, 1, 2] }, stamp := 0 }

theorem wit_transactions_13b : (st_transactions_13b.hw.live = true) ∧ (st_transactions_13b.hw.linkOn = true) ∧
    ((st_transactions_13b.hw.port (.b : Port)).linkMsgs = v_transactions_13b_m :: ([] : List PortMsg)) ∧
    (beAt v_transactions_13b_m.frame.payload 0 1 = 1) := by decide +kernel

theorem test_transactions_13b : holdsAfter (.linkCtlWake (.b : Port)) (st_transactions_13b) (fun x => decide ((x.hw.port (.b : Port)).linkMsgs = ([] : List PortMsg) ∧ (st_transactions_13b.hw.coreOn = false → (x.hw.xing (5 + portNo (.b : Port))).busy = true) ∧ (st_transactions_13b.hw.clk.core.mode = .off → x.hw.clk.core.mode = .waking) ∧ x.hw.ns + 1000000 * beAt v_transactions_13b_m.frame.payload 2 2 ≤ max (x.hw.port (.b : Port)).holdAwake x.hw.ns)) = true := by decide +kernel

def st_transactions_14 : State := with_ (fun h => (h).setPort .b { (h).port .b with linkMsgs := [{ frame := { ty := 0x40, cls := 1, rsp := false, sr := false, flg := false, src := 4, dst := 3, seq := 5, epoch := 0, hops := 7, payload := [2, 0, 0, 0] }, stamp := 0 }] })

def v_transactions_14_m : PortMsg := { frame := { ty := 0x40, cls := 1, rsp := false, sr := false, flg := false, src := 4, dst := 3, seq := 5, epoch := 0, hops := 7, payload := [2, 0, 0, 0] }, stamp := 0 }

theorem wit_transactions_14 : (st_transactions_14.hw.live = true) ∧ (st_transactions_14.hw.linkOn = true) ∧
    ((st_transactions_14.hw.port (.b : Port)).linkMsgs = v_transactions_14_m :: ([] : List PortMsg)) ∧
    (beAt v_transactions_14_m.frame.payload 0 1 = 2) := by decide +kernel

theorem test_transactions_14 : holdsAfter (.linkCtlStatus (.b : Port)) (st_transactions_14) (fun x => decide ((x.hw.port (.b : Port)).linkMsgs = ([] : List PortMsg) ∧ (x.hw.port (.b : Port)).answers.length = (st_transactions_14.hw.port (.b : Port)).answers.length + 1 ∧ (x.hw.port (.b : Port)).answers.getLast?.map (fun f => (f.ty, f.cls, f.rsp, f.dst)) = some (0x40, 1, true, v_transactions_14_m.frame.src) ∧ (x.hw.port (.b : Port)).answers.getLast?.map (fun f => f.payload) = some ([2, 0, 0, 0] ++ beBytes 4 (st_transactions_14.hw.reg (LNK_STATUS (portNo (.b : Port)))).toNat ++ beBytes 2 (st_transactions_14.hw.get SYS_HUB_ID_ID) ++ [0, 0]))) = true := by decide +kernel

def st_transactions_15 : State := with_ (fun h => ((h.put (LNK_STATUS_STATE 1) 4)).setPort .b { ((h.put (LNK_STATUS_STATE 1) 4)).port .b with linkMsgs := [{ frame := { ty := 0x40, cls := 1, rsp := false, sr := false, flg := false, src := 4, dst := 3, seq := 5, epoch := 0, hops := 7, payload := [3, 0, 0, 0] }, stamp := 0 }] })

def v_transactions_15_m : PortMsg := { frame := { ty := 0x40, cls := 1, rsp := false, sr := false, flg := false, src := 4, dst := 3, seq := 5, epoch := 0, hops := 7, payload := [3, 0, 0, 0] }, stamp := 0 }

theorem wit_transactions_15 : (st_transactions_15.hw.live = true) ∧ (st_transactions_15.hw.linkOn = true) ∧
    ((st_transactions_15.hw.port (.b : Port)).linkMsgs = v_transactions_15_m :: ([] : List PortMsg)) ∧
    (beAt v_transactions_15_m.frame.payload 0 1 = 3) := by decide +kernel

theorem test_transactions_15 : holdsAfter (.linkCtlRetrain (.b : Port)) (st_transactions_15) (fun x => decide ((x.hw.port (.b : Port)).linkMsgs = ([] : List PortMsg) ∧ x.hw.linkState (.b : Port) = 0)) = true := by decide +kernel

def st_hist : State := with_ (fun h => (((((h.put (STR_CFG_HIST 511) 1).put (DMA_CFG_EN 511) 1).put (DMA_CFG_LEN_TILES 511) 1).put MEM_HIST_POOL_BASE_TILE 1).put MEM_HIST_POOL_LEN_TILES 17).setStream 511 { stream0 with wpos := 2, eras := [{ era := 0, started := true, startPos := 0, endPos := some 2, gone := false, j0 := 0, origin := 0, period := 1000 }] })

def v_cinchBlocks_1_e : Era := { era := 0, started := true, startPos := 0, endPos := some 2, gone := false, j0 := 0, origin := 0, period := 1000 }

theorem wit_cinchBlocks_1 : (st_hist.hw.live = true) ∧ (st_hist.hw.coreOn = true) ∧ (st_hist.hw.cin.block = none) ∧
    (st_hist.hw.histOrder.head? = some (511 : Nat)) ∧
    (Hw.makeRoom st_hist.hw.histPlace 1025 st_hist.hw = some st_hist.hw) ∧
    (st_hist.hw.histNext (511 : Nat) = some (v_cinchBlocks_1_e, (2 : Nat), (true : Bool))) ∧
    ((st_hist.hw.stream (511 : Nat)).hpos + (2 : Nat) ≤ st_hist.hw.takeLimit (511 : Nat) (st_hist.hw.stream (511 : Nat)).hpos) := by decide +kernel

theorem test_cinchBlocks_1 : holdsAfter (.histBlockStart (511 : Nat)) (st_hist) (fun x => decide (x.hw.cin.block.map (fun b => (b.chan, b.id, b.sub, b.first, b.last)) = some (1, (511 : Nat), v_cinchBlocks_1_e.era, v_cinchBlocks_1_e.indexOf (st_hist.hw.stream (511 : Nat)).hpos, (true : Bool)) ∧ x.hw.cin.block.map (fun b => (b.input.length, b.place)) = some ((2 : Nat), st_hist.hw.histPlace) ∧ (x.hw.stream (511 : Nat)).hpos = (st_hist.hw.stream (511 : Nat)).hpos + (2 : Nat))) = true := by decide +kernel

def st_cinchBlocks_2 : State := with_ (fun h => let h1 := ((h.put SYS_HUB_ID_ID 3).setSeg 4095 (some { unit := 2, len := 64, cap := 0x01000000, meas := 0, mask := 0, period := 0, epoch := 0, streams := [{ stream := 5, era := 0, first := 0, pre := 0, want := 64, preDone := 0, postDone := 64, miss := [] }], entrySent := true, rdStream := 0, rdWord := 0 })).segPut 4095 8 20 0 64; { h1 with trg := { h1.trg with reading := [4095] } })

def v_cinchBlocks_2_y : SegSt := { unit := 2, len := 64, cap := 0x01000000, meas := 0, mask := 0, period := 0, epoch := 0, streams := [{ stream := 5, era := 0, first := 0, pre := 0, want := 64, preDone := 0, postDone := 64, miss := [] }], entrySent := true, rdStream := 0, rdWord := 0 }

theorem wit_cinchBlocks_2 : (st_cinchBlocks_2.hw.live = true) ∧ (st_cinchBlocks_2.hw.coreOn = true) ∧ ((4095 : Nat) < 4096) ∧
    (st_cinchBlocks_2.hw.cin.block = none) ∧ (st_cinchBlocks_2.hw.histWaits = false) ∧
    (st_cinchBlocks_2.hw.cin.staging = none) ∧ (st_cinchBlocks_2.hw.trg.reading = (4095 : Nat) :: ([] : List Nat)) ∧
    (st_cinchBlocks_2.hw.seg (4095 : Nat) = some v_cinchBlocks_2_y) ∧ (v_cinchBlocks_2_y.entrySent = true) := by decide +kernel

theorem test_cinchBlocks_2 : holdsAfter (.segBlockStart (4095 : Nat)) (st_cinchBlocks_2) (fun x => decide (x.hw.cin.block.map (fun b => (b.chan, b.id, b.sub, b.first, b.last)) = some (2, (4095 : Nat), v_cinchBlocks_2_y.rdStream, v_cinchBlocks_2_y.rdWord, decide (v_cinchBlocks_2_y.rdWord + min 16384 (st_cinchBlocks_2.hw.segHeld (4095 : Nat) - v_cinchBlocks_2_y.rdWord) = st_cinchBlocks_2.hw.segHeld (4095 : Nat))) ∧ x.hw.cin.block.map (fun b => b.input.length) = some (min 16384 (st_cinchBlocks_2.hw.segHeld (4095 : Nat) - v_cinchBlocks_2_y.rdWord)))) = true := by decide +kernel

def st_cinchBlocks_3 : State := with_ (fun h => let h1 := ((h.put SYS_HUB_ID_ID 3).setSeg 4095 (some { unit := 2, len := 64, cap := 0x01000000, meas := 0, mask := 0, period := 0, epoch := 0, streams := [{ stream := 5, era := 0, first := 0, pre := 0, want := 64, preDone := 0, postDone := 64, miss := [] }], entrySent := false, rdStream := 0, rdWord := 0 })).segPut 4095 8 20 0 64; { h1 with trg := { h1.trg with reading := [4095] } })

def v_cinchBlocks_3_y : SegSt := { unit := 2, len := 64, cap := 0x01000000, meas := 0, mask := 0, period := 0, epoch := 0, streams := [{ stream := 5, era := 0, first := 0, pre := 0, want := 64, preDone := 0, postDone := 64, miss := [] }], entrySent := false, rdStream := 0, rdWord := 0 }

theorem wit_cinchBlocks_3 : (st_cinchBlocks_3.hw.live = true) ∧ (st_cinchBlocks_3.hw.coreOn = true) ∧ ((4095 : Nat) < 4096) ∧
    (st_cinchBlocks_3.hw.cin.block = none) ∧ (st_cinchBlocks_3.hw.histWaits = false) ∧
    (st_cinchBlocks_3.hw.cin.staging = none) ∧ (st_cinchBlocks_3.hw.trg.reading = (4095 : Nat) :: ([] : List Nat)) ∧
    (st_cinchBlocks_3.hw.seg (4095 : Nat) = some v_cinchBlocks_3_y) ∧ (v_cinchBlocks_3_y.entrySent = false) ∧
    (st_cinchBlocks_3.hw.room 5 = true) ∧ (st_cinchBlocks_3.hw.segHeld (4095 : Nat) ≠ 0) := by decide +kernel

theorem test_cinchBlocks_3 : holdsAfter (.segBlockStart (4095 : Nat)) (st_cinchBlocks_3) (fun x => decide (x.hw.cin.block.map (fun b => (b.chan, b.id, b.sub, b.first, b.last)) = some (2, (4095 : Nat), v_cinchBlocks_3_y.rdStream, v_cinchBlocks_3_y.rdWord, decide (v_cinchBlocks_3_y.rdWord + min 16384 (st_cinchBlocks_3.hw.segHeld (4095 : Nat) - v_cinchBlocks_3_y.rdWord) = st_cinchBlocks_3.hw.segHeld (4095 : Nat))) ∧ x.hw.cin.block.map (fun b => b.input.length) = some (min 16384 (st_cinchBlocks_3.hw.segHeld (4095 : Nat) - v_cinchBlocks_3_y.rdWord)) ∧ x.hw.net.egress.length = st_cinchBlocks_3.hw.net.egress.length + 1 ∧ x.hw.net.egress.getLast?.map (fun d => (d.frame.ty, d.frame.cls, d.frame.payload)) = some (0x13, 5, segHead (4095 : Nat) 0 false false 0 0 0 0 ++ st_cinchBlocks_3.hw.segEntry (4095 : Nat)))) = true := by decide +kernel

def st_cinchBlocks_4 : State := with_ (fun h => ({ h with cin := { (h).cin with block := some { chan := 1, id := 5, sub := 3, first := 0, last := true, flagged := false, level := 0, pred := 0, input := [0x12345680, 0x12345780], place := 0, epoch := 0, saved := (0, []) } } } : Hw))

def v_cinchBlocks_4_b : CinBlock := { chan := 1, id := 5, sub := 3, first := 0, last := true, flagged := false, level := 0, pred := 0, input := [0x12345680, 0x12345780], place := 0, epoch := 0, saved := (0, []) }

theorem wit_cinchBlocks_4 : (st_cinchBlocks_4.hw.live = true) ∧ (st_cinchBlocks_4.hw.coreOn = true) ∧
    (st_cinchBlocks_4.hw.cin.block = some v_cinchBlocks_4_b) ∧ (v_cinchBlocks_4_b.chan = 1) := by decide +kernel

theorem test_cinchBlocks_4 : holdsAfter (.cinchBlockDone) (st_cinchBlocks_4) (fun x => decide ((st_cinchBlocks_4.hw.get CIN_JOB_STAT_STATE ≠ 1 → x.hw.cin.block = none) ∧ x.hw.cin.nextAge = (st_cinchBlocks_4.hw.cin.nextAge + 1) % 2 ^ 32 ∧ x.hw.cin.nextOff = v_cinchBlocks_4_b.place + (makeBlock v_cinchBlocks_4_b.head v_cinchBlocks_4_b.input).1.length ∧ (x.hw.dirEntry (st_cinchBlocks_4.hw.cin.nextAge % 1024)).map (fun w => (w.stream, w.era, w.first, w.count)) = some (v_cinchBlocks_4_b.id, v_cinchBlocks_4_b.sub, v_cinchBlocks_4_b.first, v_cinchBlocks_4_b.input.length) ∧ (x.hw.dirEntry (st_cinchBlocks_4.hw.cin.nextAge % 1024)).map (fun w => (w.offset, w.size, w.age)) = some (v_cinchBlocks_4_b.place, (makeBlock v_cinchBlocks_4_b.head v_cinchBlocks_4_b.input).1.length, st_cinchBlocks_4.hw.cin.nextAge))) = true := by decide +kernel

def st_cinchBlocks_5 : State := with_ (fun h => (({ h with cin := { (h).cin with block := some { chan := 2, id := 5, sub := 0, first := 0, last := true, flagged := false, level := 0, pred := 0, input := [0x12345680, 0x12345780], place := 0, epoch := 0, saved := (0, []) } } } : Hw)).setSeg 5 (some { unit := 2, len := 64, cap := 0x01000000, meas := 0, mask := 0, period := 0, epoch := 0, streams := [{ stream := 5, era := 0, first := 0, pre := 0, want := 64, preDone := 0, postDone := 64, miss := [] }], entrySent := true, rdStream := 0, rdWord := 0 }))

def v_cinchBlocks_5_b : CinBlock := { chan := 2, id := 5, sub := 0, first := 0, last := true, flagged := false, level := 0, pred := 0, input := [0x12345680, 0x12345780], place := 0, epoch := 0, saved := (0, []) }

def v_cinchBlocks_5_y : SegSt := { unit := 2, len := 64, cap := 0x01000000, meas := 0, mask := 0, period := 0, epoch := 0, streams := [{ stream := 5, era := 0, first := 0, pre := 0, want := 64, preDone := 0, postDone := 64, miss := [] }], entrySent := true, rdStream := 0, rdWord := 0 }

theorem wit_cinchBlocks_5 : (st_cinchBlocks_5.hw.live = true) ∧ (st_cinchBlocks_5.hw.coreOn = true) ∧
    (st_cinchBlocks_5.hw.cin.block = some v_cinchBlocks_5_b) ∧ (v_cinchBlocks_5_b.chan = 2) ∧
    (st_cinchBlocks_5.hw.seg v_cinchBlocks_5_b.id = some v_cinchBlocks_5_y) ∧ (st_cinchBlocks_5.hw.room 5 = false) := by decide +kernel

theorem test_cinchBlocks_5 : holdsAfter (.cinchBlockDone) (st_cinchBlocks_5) (fun x => decide (x.hw.cin.staging.map (fun w => (w.seg, w.sofs, w.block, w.off, w.words)) = some (v_cinchBlocks_5_b.id, v_cinchBlocks_5_b.sub, v_cinchBlocks_5_b.place, 0, v_cinchBlocks_5_b.input.length) ∧ x.hw.cin.staging.map (fun w => w.bytes) = some (makeBlock v_cinchBlocks_5_b.head v_cinchBlocks_5_b.input).1 ∧ x.hw.net.egress = st_cinchBlocks_5.hw.net.egress)) = true := by decide +kernel

def st_cinchBlocks_6 : State := with_ (fun h => ((({ (h.put SYS_HUB_ID_ID 3) with cin := { ((h.put SYS_HUB_ID_ID 3)).cin with block := some { chan := 2, id := 5, sub := 0, first := 0, last := true, flagged := false, level := 0, pred := 0, input := [0x12345680, 0x12345780], place := 0, epoch := 0, saved := (0, []) } } } : Hw)).setSeg 5 (some { unit := 2, len := 64, cap := 0x01000000, meas := 0, mask := 0, period := 0, epoch := 0, streams := [{ stream := 5, era := 0, first := 0, pre := 0, want := 64, preDone := 0, postDone := 64, miss := [] }], entrySent := true, rdStream := 0, rdWord := 0 })).segPut 5 8 20 0 64)

def v_cinchBlocks_6_b : CinBlock := { chan := 2, id := 5, sub := 0, first := 0, last := true, flagged := false, level := 0, pred := 0, input := [0x12345680, 0x12345780], place := 0, epoch := 0, saved := (0, []) }

def v_cinchBlocks_6_y : SegSt := { unit := 2, len := 64, cap := 0x01000000, meas := 0, mask := 0, period := 0, epoch := 0, streams := [{ stream := 5, era := 0, first := 0, pre := 0, want := 64, preDone := 0, postDone := 64, miss := [] }], entrySent := true, rdStream := 0, rdWord := 0 }

theorem wit_cinchBlocks_6 : (st_cinchBlocks_6.hw.live = true) ∧ (st_cinchBlocks_6.hw.coreOn = true) ∧
    (st_cinchBlocks_6.hw.cin.block = some v_cinchBlocks_6_b) ∧ (v_cinchBlocks_6_b.chan = 2) ∧
    (st_cinchBlocks_6.hw.seg v_cinchBlocks_6_b.id = some v_cinchBlocks_6_y) ∧ (st_cinchBlocks_6.hw.room 5 = true) ∧
    ((makeBlock v_cinchBlocks_6_b.head v_cinchBlocks_6_b.input).1.length ≤ fragBytes) ∧
    (v_cinchBlocks_6_y.rdWord + v_cinchBlocks_6_b.input.length < st_cinchBlocks_6.hw.segHeld v_cinchBlocks_6_b.id) := by decide +kernel

theorem test_cinchBlocks_6 : holdsAfter (.cinchBlockDone) (st_cinchBlocks_6) (fun x => decide (x.hw.cin.staging = none ∧ (x.hw.seg v_cinchBlocks_6_b.id).map (fun z => (z.rdStream, z.rdWord)) = some (v_cinchBlocks_6_y.rdStream, v_cinchBlocks_6_y.rdWord + v_cinchBlocks_6_b.input.length) ∧ x.hw.net.egress.length = st_cinchBlocks_6.hw.net.egress.length + 1 ∧ x.hw.net.egress.getLast?.map (fun d => (d.frame.ty, d.frame.cls, d.frame.payload)) = some (0x13, 5, segHead v_cinchBlocks_6_b.id 1 v_cinchBlocks_6_b.flagged true v_cinchBlocks_6_b.sub v_cinchBlocks_6_b.place 0 (makeBlock v_cinchBlocks_6_b.head v_cinchBlocks_6_b.input).1.length ++ (makeBlock v_cinchBlocks_6_b.head v_cinchBlocks_6_b.input).1))) = true := by decide +kernel

def st_cinchJobs_1 : State := with_ (fun h => (h.put CIN_JOB_LEN_WORDS 2).put MEM_WORK_POOL_LEN_TILES 17)

theorem wit_cinchJobs_1 : (st_cinchJobs_1.hw.writable (.portA : Requester) = true) ∧ (bits (0x80000002 : Word) 31 29 = 4) ∧
    (st_cinchJobs_1.hw.get CIN_JOB_STAT_STATE ≠ 1) ∧ (st_cinchJobs_1.hw.get CIN_JOB_STAT_STATE ≠ 2) ∧
    (st_cinchJobs_1.hw.get CIN_JOB_SRC_SRC + st_cinchJobs_1.hw.get CIN_JOB_LEN_WORDS ≤ 6291456) ∧
    (st_cinchJobs_1.hw.get CIN_JOB_LEN_WORDS ≠ 0) ∧ (17 ≤ st_cinchJobs_1.hw.get MEM_WORK_POOL_LEN_TILES) ∧
    ((st_cinchJobs_1.hw.writeRw CIN_JOB_CTL 0x1000013F (0x80000002 : Word)).get CIN_JOB_CTL_LEVEL ≤ 9) ∧
    ((st_cinchJobs_1.hw.writeRw CIN_JOB_CTL 0x1000013F (0x80000002 : Word)).get CIN_JOB_CTL_PRED ≠ 3) := by decide +kernel

theorem test_cinchJobs_1 : holdsAfter (.cinJobGo (.portA : Requester) (7 : Nat) (0x80000002 : Word)) (st_cinchJobs_1) (fun x => decide (x.hw.get CIN_JOB_STAT_STATE = 1 ∧ x.hw.get CIN_JOB_STAT_JOBNO = (st_cinchJobs_1.hw.get CIN_JOB_STAT_JOBNO + 1) % 65536 ∧ x.hw.get CIN_JOB_IN_IN = 0 ∧ x.hw.get CIN_JOB_OUT_OUT = 0 ∧ x.hw.get CIN_OUT_WR_WR = 0 ∧ x.hw.get CIN_OUT_RD_RD = 0 ∧ x.hw.cin.job.map (fun j => (j.src, j.words, j.dest)) = some (st_cinchJobs_1.hw.get CIN_JOB_SRC_SRC, st_cinchJobs_1.hw.get CIN_JOB_LEN_WORDS, answerTo (.portA : Requester) (7 : Nat)) ∧ x.hw.cin.job.map (fun j => (j.level, j.pred, j.send)) = some ((st_cinchJobs_1.hw.writeRw CIN_JOB_CTL 0x1000013F (0x80000002 : Word)).get CIN_JOB_CTL_LEVEL, (st_cinchJobs_1.hw.writeRw CIN_JOB_CTL 0x1000013F (0x80000002 : Word)).get CIN_JOB_CTL_PRED, (st_cinchJobs_1.hw.writeRw CIN_JOB_CTL 0x1000013F (0x80000002 : Word)).on CIN_JOB_CTL_SEND))) = true := by decide +kernel

def st_cinchJobs_2a : State := with_ (fun h => ((h.put CIN_JOB_LEN_WORDS 2).put MEM_WORK_POOL_LEN_TILES 17).put CIN_JOB_STAT_STATE 2)

theorem wit_cinchJobs_2a : (st_cinchJobs_2a.hw.writable (.portA : Requester) = true) ∧ (bits (0x80000002 : Word) 31 29 = 4) ∧
    ((st_cinchJobs_2a.hw.get CIN_JOB_STAT_STATE = 1 ∨ st_cinchJobs_2a.hw.get CIN_JOB_STAT_STATE = 2 ∨
    6291456 < st_cinchJobs_2a.hw.get CIN_JOB_SRC_SRC + st_cinchJobs_2a.hw.get CIN_JOB_LEN_WORDS ∨
    st_cinchJobs_2a.hw.get CIN_JOB_LEN_WORDS = 0 ∨ st_cinchJobs_2a.hw.get MEM_WORK_POOL_LEN_TILES < 17 ∨
    9 < (st_cinchJobs_2a.hw.writeRw CIN_JOB_CTL 0x1000013F (0x80000002 : Word)).get CIN_JOB_CTL_LEVEL ∨
    (st_cinchJobs_2a.hw.writeRw CIN_JOB_CTL 0x1000013F (0x80000002 : Word)).get CIN_JOB_CTL_PRED = 3)) := by decide +kernel

theorem test_cinchJobs_2a : holdsAfter (.cinJobGo (.portA : Requester) (7 : Nat) (0x80000002 : Word)) (st_cinchJobs_2a) (fun x => decide (x.hw.on CIN_JOB_STAT_REFUSED = true ∧ x.hw.cin = st_cinchJobs_2a.hw.cin ∧ x.hw.get CIN_JOB_STAT_STATE = st_cinchJobs_2a.hw.get CIN_JOB_STAT_STATE)) = true := by decide +kernel

def st_cinchJobs_2b : State := with_ (fun h => (h.put CIN_JOB_LEN_WORDS 2).put MEM_WORK_POOL_LEN_TILES 17)

theorem wit_cinchJobs_2b : (st_cinchJobs_2b.hw.writable (.portA : Requester) = true) ∧ (bits (0x8000000A : Word) 31 29 = 4) ∧
    ((st_cinchJobs_2b.hw.get CIN_JOB_STAT_STATE = 1 ∨ st_cinchJobs_2b.hw.get CIN_JOB_STAT_STATE = 2 ∨
    6291456 < st_cinchJobs_2b.hw.get CIN_JOB_SRC_SRC + st_cinchJobs_2b.hw.get CIN_JOB_LEN_WORDS ∨
    st_cinchJobs_2b.hw.get CIN_JOB_LEN_WORDS = 0 ∨ st_cinchJobs_2b.hw.get MEM_WORK_POOL_LEN_TILES < 17 ∨
    9 < (st_cinchJobs_2b.hw.writeRw CIN_JOB_CTL 0x1000013F (0x8000000A : Word)).get CIN_JOB_CTL_LEVEL ∨
    (st_cinchJobs_2b.hw.writeRw CIN_JOB_CTL 0x1000013F (0x8000000A : Word)).get CIN_JOB_CTL_PRED = 3)) := by decide +kernel

theorem test_cinchJobs_2b : holdsAfter (.cinJobGo (.portA : Requester) (7 : Nat) (0x8000000A : Word)) (st_cinchJobs_2b) (fun x => decide (x.hw.on CIN_JOB_STAT_REFUSED = true ∧ x.hw.cin = st_cinchJobs_2b.hw.cin ∧ x.hw.get CIN_JOB_STAT_STATE = st_cinchJobs_2b.hw.get CIN_JOB_STAT_STATE)) = true := by decide +kernel

def st_cinchJobs_3a : State := with_ (fun h => ({ (h.put CIN_JOB_STAT_STATE 1) with cin := { ((h.put CIN_JOB_STAT_STATE 1)).cin with block := some { chan := 1, id := 5, sub := 0, first := 0, last := true, flagged := false, level := 0, pred := 0, input := [1], place := 0, epoch := 0, saved := (0, []) }, job := some { src := 0, words := 4, level := 0, pred := 0, send := false, dest := none, done := 0, partBlock := none, partSize := 0, toSend := [], off := 0, bseq := 0, freed := 0 } } } : Hw))

theorem wit_cinchJobs_3a : (st_cinchJobs_3a.hw.writable (.mspi : Requester) = true) ∧ (natBit (0x20000000 : Word).toNat 29 = true) ∧
    ((st_cinchJobs_3a.hw.get CIN_JOB_STAT_STATE = 1 ∨ st_cinchJobs_3a.hw.get CIN_JOB_STAT_STATE = 2)) := by decide +kernel

theorem test_cinchJobs_3a : holdsAfter (.cinJobAbort (.mspi : Requester) (0x20000000 : Word)) (st_cinchJobs_3a) (fun x => decide (x.hw.get CIN_JOB_STAT_STATE = 4 ∧ x.hw.on CIN_JOB_STAT_MID = false ∧ x.hw.get CIN_OUT_WR_WR = st_cinchJobs_3a.hw.get CIN_OUT_WR_WR ∧ x.hw.get CIN_OUT_RD_RD = st_cinchJobs_3a.hw.get CIN_OUT_RD_RD ∧ x.hw.cin.job.any (fun j => j.partBlock.isSome) = false ∧ x.hw.cin.block = st_cinchJobs_3a.hw.cin.block.filter (fun b => decide (b.chan ≠ 3)))) = true := by decide +kernel

def st_cinchJobs_3b : State := with_ (fun h => ({ (h.put CIN_JOB_STAT_STATE 2) with cin := { ((h.put CIN_JOB_STAT_STATE 2)).cin with block := some { chan := 2, id := 5, sub := 0, first := 0, last := true, flagged := false, level := 0, pred := 0, input := [1], place := 0, epoch := 0, saved := (0, []) }, job := some { src := 0, words := 4, level := 0, pred := 0, send := false, dest := none, done := 0, partBlock := none, partSize := 0, toSend := [], off := 0, bseq := 0, freed := 0 } } } : Hw))

theorem wit_cinchJobs_3b : (st_cinchJobs_3b.hw.writable (.mspi : Requester) = true) ∧ (natBit (0xE0000000 : Word).toNat 29 = true) ∧
    ((st_cinchJobs_3b.hw.get CIN_JOB_STAT_STATE = 1 ∨ st_cinchJobs_3b.hw.get CIN_JOB_STAT_STATE = 2)) := by decide +kernel

theorem test_cinchJobs_3b : holdsAfter (.cinJobAbort (.mspi : Requester) (0xE0000000 : Word)) (st_cinchJobs_3b) (fun x => decide (x.hw.get CIN_JOB_STAT_STATE = 4 ∧ x.hw.on CIN_JOB_STAT_MID = false ∧ x.hw.get CIN_OUT_WR_WR = st_cinchJobs_3b.hw.get CIN_OUT_WR_WR ∧ x.hw.get CIN_OUT_RD_RD = st_cinchJobs_3b.hw.get CIN_OUT_RD_RD ∧ x.hw.cin.job.any (fun j => j.partBlock.isSome) = false ∧ x.hw.cin.block = st_cinchJobs_3b.hw.cin.block.filter (fun b => decide (b.chan ≠ 3)))) = true := by decide +kernel

def st_cinchJobs_3c : State := with_ (fun h => ({ (h.put CIN_JOB_STAT_STATE 1) with cin := { ((h.put CIN_JOB_STAT_STATE 1)).cin with block := some { chan := 3, id := 5, sub := 0, first := 0, last := true, flagged := false, level := 0, pred := 0, input := [1], place := 0, epoch := 0, saved := (0, []) }, job := some { src := 0, words := 4, level := 0, pred := 0, send := false, dest := none, done := 0, partBlock := none, partSize := 0, toSend := [], off := 0, bseq := 0, freed := 0 } } } : Hw))

theorem wit_cinchJobs_3c : (st_cinchJobs_3c.hw.writable (.mspi : Requester) = true) ∧ (natBit (0x20000000 : Word).toNat 29 = true) ∧
    ((st_cinchJobs_3c.hw.get CIN_JOB_STAT_STATE = 1 ∨ st_cinchJobs_3c.hw.get CIN_JOB_STAT_STATE = 2)) := by decide +kernel

theorem test_cinchJobs_3c : holdsAfter (.cinJobAbort (.mspi : Requester) (0x20000000 : Word)) (st_cinchJobs_3c) (fun x => decide (x.hw.get CIN_JOB_STAT_STATE = 4 ∧ x.hw.on CIN_JOB_STAT_MID = false ∧ x.hw.get CIN_OUT_WR_WR = st_cinchJobs_3c.hw.get CIN_OUT_WR_WR ∧ x.hw.get CIN_OUT_RD_RD = st_cinchJobs_3c.hw.get CIN_OUT_RD_RD ∧ x.hw.cin.job.any (fun j => j.partBlock.isSome) = false ∧ x.hw.cin.block = st_cinchJobs_3c.hw.cin.block.filter (fun b => decide (b.chan ≠ 3)))) = true := by decide +kernel

def st_cinchJobs_4 : State := with_ (fun h => h.put CIN_JOB_STAT_STATE 3)

theorem wit_cinchJobs_4 : (st_cinchJobs_4.hw.writable (.mspi : Requester) = true) ∧ (natBit (0x20000000 : Word).toNat 29 = true) ∧
    (st_cinchJobs_4.hw.get CIN_JOB_STAT_STATE ≠ 1) ∧ (st_cinchJobs_4.hw.get CIN_JOB_STAT_STATE ≠ 2) := by decide +kernel

theorem test_cinchJobs_4 : holdsAfter (.cinJobAbort (.mspi : Requester) (0x20000000 : Word)) (st_cinchJobs_4) (fun x => decide (x.hw.cin = st_cinchJobs_4.hw.cin ∧ x.hw.get CIN_JOB_STAT_STATE = st_cinchJobs_4.hw.get CIN_JOB_STAT_STATE)) = true := by decide +kernel

def st_cinchJobs_5a : State := with_ (fun h => ({ ((h.put CIN_JOB_STAT_STATE 2).put MEM_WORK_POOL_LEN_TILES 17) with cin := { (((h.put CIN_JOB_STAT_STATE 2).put MEM_WORK_POOL_LEN_TILES 17)).cin with job := some { src := 0, words := 4, level := 0, pred := 0, send := false, dest := none, done := 0, partBlock := none, partSize := 69631, toSend := [], off := 0, bseq := 0, freed := 0 } } } : Hw))

def v_cinchJobs_5a_j : JobSt := { src := 0, words := 4, level := 0, pred := 0, send := false, dest := none, done := 0, partBlock := none, partSize := 69631, toSend := [], off := 0, bseq := 0, freed := 0 }

theorem wit_cinchJobs_5a : (st_cinchJobs_5a.hw.writable (.mspi : Requester) = true) ∧ (bits (0x40000000 : Word) 31 29 = 2) ∧
    (st_cinchJobs_5a.hw.get CIN_JOB_STAT_STATE = 2) ∧ (st_cinchJobs_5a.hw.cin.job = some v_cinchJobs_5a_j) ∧
    ((if natBit (0x40000000 : Word).toNat 28 = true then 0 else v_cinchJobs_5a_j.partSize) < st_cinchJobs_5a.hw.ringFree) := by decide +kernel

theorem test_cinchJobs_5a : holdsAfter (.cinJobResume (.mspi : Requester) (0x40000000 : Word)) (st_cinchJobs_5a) (fun x => decide (x.hw.get CIN_JOB_STAT_STATE = 1 ∧ x.hw.on CIN_JOB_STAT_MID = false)) = true := by decide +kernel

def st_cinchJobs_5b : State := with_ (fun h => ({ ((h.put CIN_JOB_STAT_STATE 2).put MEM_WORK_POOL_LEN_TILES 17) with cin := { (((h.put CIN_JOB_STAT_STATE 2).put MEM_WORK_POOL_LEN_TILES 17)).cin with job := some { src := 0, words := 4, level := 0, pred := 0, send := false, dest := none, done := 0, partBlock := none, partSize := 69632, toSend := [], off := 0, bseq := 0, freed := 0 } } } : Hw))

def v_cinchJobs_5b_j : JobSt := { src := 0, words := 4, level := 0, pred := 0, send := false, dest := none, done := 0, partBlock := none, partSize := 69632, toSend := [], off := 0, bseq := 0, freed := 0 }

theorem wit_cinchJobs_5b : (st_cinchJobs_5b.hw.writable (.mspi : Requester) = true) ∧ (bits (0x50000000 : Word) 31 29 = 2) ∧
    (st_cinchJobs_5b.hw.get CIN_JOB_STAT_STATE = 2) ∧ (st_cinchJobs_5b.hw.cin.job = some v_cinchJobs_5b_j) ∧
    ((if natBit (0x50000000 : Word).toNat 28 = true then 0 else v_cinchJobs_5b_j.partSize) < st_cinchJobs_5b.hw.ringFree) := by decide +kernel

theorem test_cinchJobs_5b : holdsAfter (.cinJobResume (.mspi : Requester) (0x50000000 : Word)) (st_cinchJobs_5b) (fun x => decide (x.hw.get CIN_JOB_STAT_STATE = 1 ∧ x.hw.on CIN_JOB_STAT_MID = false)) = true := by decide +kernel

def st_cinchJobs_6 : State := with_ (fun h => ({ ((h.put CIN_JOB_STAT_STATE 2).put MEM_WORK_POOL_LEN_TILES 17) with cin := { (((h.put CIN_JOB_STAT_STATE 2).put MEM_WORK_POOL_LEN_TILES 17)).cin with job := some { src := 0, words := 4, level := 0, pred := 0, send := false, dest := none, done := 0, partBlock := none, partSize := 69632, toSend := [], off := 0, bseq := 0, freed := 0 } } } : Hw))

def v_cinchJobs_6_j : JobSt := { src := 0, words := 4, level := 0, pred := 0, send := false, dest := none, done := 0, partBlock := none, partSize := 69632, toSend := [], off := 0, bseq := 0, freed := 0 }

theorem wit_cinchJobs_6 : (st_cinchJobs_6.hw.writable (.mspi : Requester) = true) ∧ (bits (0x40000000 : Word) 31 29 = 2) ∧
    (st_cinchJobs_6.hw.get CIN_JOB_STAT_STATE = 2) ∧ (st_cinchJobs_6.hw.cin.job = some v_cinchJobs_6_j) ∧
    (st_cinchJobs_6.hw.ringFree ≤ (if natBit (0x40000000 : Word).toNat 28 = true then 0 else v_cinchJobs_6_j.partSize)) := by decide +kernel

theorem test_cinchJobs_6 : holdsAfter (.cinJobResume (.mspi : Requester) (0x40000000 : Word)) (st_cinchJobs_6) (fun x => decide (x.hw.get CIN_JOB_STAT_STATE = 2 ∧ x.hw.on CIN_JOB_STAT_MID = st_cinchJobs_6.hw.on CIN_JOB_STAT_MID ∧ x.hw.cin.block = st_cinchJobs_6.hw.cin.block)) = true := by decide +kernel

def st_cinchJobs_7 : State := with_ (fun h => ({ ((h.put CIN_JOB_STAT_STATE 2).put MEM_WORK_POOL_LEN_TILES 17) with cin := { (((h.put CIN_JOB_STAT_STATE 2).put MEM_WORK_POOL_LEN_TILES 17)).cin with job := some { src := 0, words := 4, level := 0, pred := 0, send := true, dest := none, done := 0, partBlock := none, partSize := 69631, toSend := [], off := 0, bseq := 0, freed := 4096 } } } : Hw))

def v_cinchJobs_7_j : JobSt := { src := 0, words := 4, level := 0, pred := 0, send := true, dest := none, done := 0, partBlock := none, partSize := 69631, toSend := [], off := 0, bseq := 0, freed := 4096 }

theorem wit_cinchJobs_7 : (st_cinchJobs_7.hw.live = true) ∧ (st_cinchJobs_7.hw.coreOn = true) ∧
    (st_cinchJobs_7.hw.cin.job = some v_cinchJobs_7_j) ∧ (v_cinchJobs_7_j.send = true) ∧
    (4096 ≤ v_cinchJobs_7_j.freed) ∧ (st_cinchJobs_7.hw.get CIN_JOB_STAT_STATE = 2) ∧
    (v_cinchJobs_7_j.partSize < st_cinchJobs_7.hw.ringFree) := by decide +kernel

theorem test_cinchJobs_7 : holdsAfter (.cinJobAutoResume) (st_cinchJobs_7) (fun x => decide (x.hw.get CIN_JOB_STAT_STATE = 1 ∧ x.hw.on CIN_JOB_STAT_MID = false)) = true := by decide +kernel

def st_cinchJobs_8 : State := with_ (fun h => ({ ((h.put CIN_JOB_STAT_STATE 2).put MEM_WORK_POOL_LEN_TILES 17) with cin := { (((h.put CIN_JOB_STAT_STATE 2).put MEM_WORK_POOL_LEN_TILES 17)).cin with job := some { src := 0, words := 4, level := 0, pred := 0, send := true, dest := none, done := 0, partBlock := none, partSize := 69632, toSend := [], off := 0, bseq := 0, freed := 4096 } } } : Hw))

def v_cinchJobs_8_j : JobSt := { src := 0, words := 4, level := 0, pred := 0, send := true, dest := none, done := 0, partBlock := none, partSize := 69632, toSend := [], off := 0, bseq := 0, freed := 4096 }

theorem wit_cinchJobs_8 : (st_cinchJobs_8.hw.live = true) ∧ (st_cinchJobs_8.hw.coreOn = true) ∧
    (st_cinchJobs_8.hw.cin.job = some v_cinchJobs_8_j) ∧ (v_cinchJobs_8_j.send = true) ∧
    (4096 ≤ v_cinchJobs_8_j.freed) ∧ (st_cinchJobs_8.hw.get CIN_JOB_STAT_STATE = 2) ∧
    (st_cinchJobs_8.hw.ringFree ≤ v_cinchJobs_8_j.partSize) := by decide +kernel

theorem test_cinchJobs_8 : holdsAfter (.cinJobAutoResume) (st_cinchJobs_8) (fun x => decide (x.hw.get CIN_JOB_STAT_STATE = 2 ∧ x.hw.regs = st_cinchJobs_8.hw.regs ∧ x.hw.cin.block = st_cinchJobs_8.hw.cin.block)) = true := by decide +kernel

def st_cinchJobs_9 : State := with_ (fun h => (h.put CIN_OUT_WR_WR 5).put CIN_OUT_RD_RD 0xFFFFFFFF)

theorem wit_cinchJobs_9 : (st_cinchJobs_9.hw.writable (.mspi : Requester) = true) ∧
    (st_cinchJobs_9.hw.cin.job.any (fun j => j.send) = false) ∧
    (((4 : Word).toNat + 2 ^ 32 - st_cinchJobs_9.hw.get CIN_OUT_RD_RD) % 2 ^ 32 ≤ st_cinchJobs_9.hw.ringUsed) := by decide +kernel

theorem test_cinchJobs_9 : holdsAfter (.cinOutRdWrite (.mspi : Requester) (4 : Word)) (st_cinchJobs_9) (fun x => decide (x.hw.get CIN_OUT_RD_RD = (4 : Word).toNat ∧ x.hw.get CIN_OUT_WR_WR = st_cinchJobs_9.hw.get CIN_OUT_WR_WR ∧ x.hw.cin = st_cinchJobs_9.hw.cin)) = true := by decide +kernel

def st_cinchJobs_10 : State := with_ (fun h => h.put CIN_OUT_WR_WR 5)

theorem wit_cinchJobs_10 : (st_cinchJobs_10.hw.writable (.mspi : Requester) = true) ∧
    (st_cinchJobs_10.hw.cin.job.any (fun j => j.send) = false) ∧
    (st_cinchJobs_10.hw.ringUsed < ((6 : Word).toNat + 2 ^ 32 - st_cinchJobs_10.hw.get CIN_OUT_RD_RD) % 2 ^ 32) := by decide +kernel

theorem test_cinchJobs_10 : holdsAfter (.cinOutRdWrite (.mspi : Requester) (6 : Word)) (st_cinchJobs_10) (fun x => decide (x.hw.get CIN_OUT_RD_RD = st_cinchJobs_10.hw.get CIN_OUT_RD_RD ∧ x.hw.on CIN_JOB_STAT_REFUSED = true)) = true := by decide +kernel

def st_cinchJobs_11 : State := with_ (fun h => ({ (h.put CIN_OUT_WR_WR 5) with cin := { ((h.put CIN_OUT_WR_WR 5)).cin with job := some { src := 0, words := 4, level := 0, pred := 0, send := true, dest := none, done := 0, partBlock := none, partSize := 0, toSend := [], off := 0, bseq := 0, freed := 0 } } } : Hw))

theorem wit_cinchJobs_11 : (st_cinchJobs_11.hw.writable (.mspi : Requester) = true) ∧
    (st_cinchJobs_11.hw.cin.job.any (fun j => j.send) = true) := by decide +kernel

theorem test_cinchJobs_11 : holdsAfter (.cinOutRdWrite (.mspi : Requester) (4 : Word)) (st_cinchJobs_11) (fun x => decide (x = { st_cinchJobs_11 with rdata := [], status := 0 })) = true := by decide +kernel

def st_cinchJobs_12 : State := with_ (fun h => ({ ((h.put MEM_WORK_POOL_LEN_TILES 1).put CIN_OUT_WR_WR 4095) with cin := { (((h.put MEM_WORK_POOL_LEN_TILES 1).put CIN_OUT_WR_WR 4095)).cin with block := some { chan := 3, id := 5, sub := 0, first := 0, last := true, flagged := false, level := 0, pred := 0, input := [1], place := 0, epoch := 0, saved := (0, []) }, job := some { src := 0, words := 4, level := 0, pred := 0, send := false, dest := none, done := 0, partBlock := none, partSize := 0, toSend := [], off := 0, bseq := 0, freed := 0 } } } : Hw))

def v_cinchJobs_12_b : CinBlock := { chan := 3, id := 5, sub := 0, first := 0, last := true, flagged := false, level := 0, pred := 0, input := [1], place := 0, epoch := 0, saved := (0, []) }

def v_cinchJobs_12_j : JobSt := { src := 0, words := 4, level := 0, pred := 0, send := false, dest := none, done := 0, partBlock := none, partSize := 0, toSend := [], off := 0, bseq := 0, freed := 0 }

theorem wit_cinchJobs_12 : (st_cinchJobs_12.hw.live = true) ∧ (st_cinchJobs_12.hw.coreOn = true) ∧
    (st_cinchJobs_12.hw.cin.block = some v_cinchJobs_12_b) ∧ (v_cinchJobs_12_b.chan = 3) ∧
    (st_cinchJobs_12.hw.cin.job = some v_cinchJobs_12_j) ∧
    (st_cinchJobs_12.hw.ringFree < (makeBlock v_cinchJobs_12_b.head v_cinchJobs_12_b.input).1.length) := by decide +kernel

theorem test_cinchJobs_12 : holdsAfter (.cinchBlockDone) (st_cinchJobs_12) (fun x => decide (x.hw.cin.block = none ∧ x.hw.get CIN_JOB_STAT_STATE = 2 ∧ x.hw.on CIN_JOB_STAT_MID = true ∧ x.hw.get CIN_OUT_WR_WR = st_cinchJobs_12.hw.get CIN_OUT_WR_WR ∧ x.hw.get CIN_JOB_IN_IN = st_cinchJobs_12.hw.get CIN_JOB_IN_IN ∧ x.hw.get CIN_JOB_OUT_OUT = st_cinchJobs_12.hw.get CIN_JOB_OUT_OUT ∧ x.hw.cin.job.map (fun w => w.partSize) = some st_cinchJobs_12.hw.ringFree ∧ x.hw.cin.job.map (fun w => w.partBlock) = some (some { v_cinchJobs_12_b with input := v_cinchJobs_12_b.input.take (stopState v_cinchJobs_12_b.head (st_cinchJobs_12.hw.ringFree - 36) v_cinchJobs_12_b.input).1, saved := (stopState v_cinchJobs_12_b.head (st_cinchJobs_12.hw.ringFree - 36) v_cinchJobs_12_b.input).2 }))) = true := by decide +kernel

def st_cinchJobs_13 : State := with_ (fun h => ({ (((h.put MEM_WORK_POOL_LEN_TILES 17).put CIN_OUT_WR_WR 4095).put CIN_JOB_STAT_STATE 1) with cin := { ((((h.put MEM_WORK_POOL_LEN_TILES 17).put CIN_OUT_WR_WR 4095).put CIN_JOB_STAT_STATE 1)).cin with block := some { chan := 3, id := 5, sub := 0, first := 0, last := true, flagged := false, level := 0, pred := 0, input := [1], place := 0, epoch := 0, saved := (0, []) }, job := some { src := 0, words := 4, level := 0, pred := 0, send := false, dest := none, done := 0, partBlock := none, partSize := 0, toSend := [], off := 0, bseq := 0, freed := 0 } } } : Hw))

def v_cinchJobs_13_b : CinBlock := { chan := 3, id := 5, sub := 0, first := 0, last := true, flagged := false, level := 0, pred := 0, input := [1], place := 0, epoch := 0, saved := (0, []) }

def v_cinchJobs_13_j : JobSt := { src := 0, words := 4, level := 0, pred := 0, send := false, dest := none, done := 0, partBlock := none, partSize := 0, toSend := [], off := 0, bseq := 0, freed := 0 }

theorem wit_cinchJobs_13 : (st_cinchJobs_13.hw.live = true) ∧ (st_cinchJobs_13.hw.coreOn = true) ∧
    (st_cinchJobs_13.hw.cin.block = some v_cinchJobs_13_b) ∧ (v_cinchJobs_13_b.chan = 3) ∧
    (st_cinchJobs_13.hw.cin.job = some v_cinchJobs_13_j) ∧
    ((makeBlock v_cinchJobs_13_b.head v_cinchJobs_13_b.input).1.length ≤ st_cinchJobs_13.hw.ringFree) := by decide +kernel

theorem test_cinchJobs_13 : holdsAfter (.cinchBlockDone) (st_cinchJobs_13) (fun x => decide (x.hw.get CIN_OUT_WR_WR = (st_cinchJobs_13.hw.get CIN_OUT_WR_WR + (makeBlock v_cinchJobs_13_b.head v_cinchJobs_13_b.input).1.length) % 2 ^ 32 ∧ x.hw.get CIN_JOB_IN_IN = (v_cinchJobs_13_j.done + v_cinchJobs_13_b.input.length) % 2 ^ 32 ∧ x.hw.get CIN_JOB_OUT_OUT = (st_cinchJobs_13.hw.get CIN_JOB_OUT_OUT + (makeBlock v_cinchJobs_13_b.head v_cinchJobs_13_b.input).1.length) % 2 ^ 32 ∧ x.hw.get CIN_JOB_STAT_STATE = (if v_cinchJobs_13_b.last = true then 3 else st_cinchJobs_13.hw.get CIN_JOB_STAT_STATE))) = true := by decide +kernel

def st_portTraining_1 : State := with_ (fun h => { h with time := { h.time with tick := 2 ^ 40 } })

theorem wit_portTraining_1 : (st_portTraining_1.hw.live = true) ∧ (st_portTraining_1.hw.linkOn = true) ∧
    (st_portTraining_1.hw.linkState (.b : Port) = 0) ∧
    (st_portTraining_1.hw.due ((st_portTraining_1.hw.port (.b : Port)).stateSince + 10000) = true) := by decide +kernel

theorem test_portTraining_1 : holdsAfter (.portDownEnd (.b : Port)) (st_portTraining_1) (fun x => decide (x.hw.linkState (.b : Port) = 1 ∧ (x.hw.port (.b : Port)).leftDown = st_portTraining_1.hw.ns)) = true := by decide +kernel

def st_portTraining_2 : State := with_ (fun h => { h with time := { h.time with tick := 248 } })

theorem wit_portTraining_2 : (st_portTraining_2.hw.live = true) ∧ (st_portTraining_2.hw.linkOn = true) ∧
    (st_portTraining_2.hw.linkState (.b : Port) = 0) ∧
    (st_portTraining_2.hw.due ((st_portTraining_2.hw.port (.b : Port)).stateSince + 10000) = false) := by decide +kernel

theorem test_portTraining_2 : holdsAfter (.portDownEnd (.b : Port)) (st_portTraining_2) (fun x => decide (x = st_portTraining_2)) = true := by decide +kernel

def st_portTraining_3a : State := with_ (fun h => h.put (LNK_STATUS_STATE 1) 1)

theorem wit_portTraining_3a : (st_portTraining_3a.hw.live = true) ∧ (st_portTraining_3a.hw.linkOn = true) ∧
    (st_portTraining_3a.hw.linkState (.b : Port) = 1) ∧ ((100000 ≤ (100000 : Nat) ∨
    st_portTraining_3a.hw.on (LNK_STATUS_CLK_LOCK (portNo (.b : Port))) = true ∧
    st_portTraining_3a.hw.due ((st_portTraining_3a.hw.port (.b : Port)).clkSince + 100000) = true)) := by decide +kernel

theorem test_portTraining_3a : holdsAfter (.clockLaneLocked (.b : Port) (100000 : Nat)) (st_portTraining_3a) (fun x => decide (x.hw.linkState (.b : Port) = 2 ∧ x.hw.on (LNK_STATUS_CLK_LOCK (portNo (.b : Port))) = true)) = true := by decide +kernel

def st_portTraining_3b : State := with_ (fun h => atTick 2500 ((h.put (LNK_STATUS_STATE 0) 1).put (LNK_STATUS_CLK_LOCK 0) 1))

theorem wit_portTraining_3b : (st_portTraining_3b.hw.live = true) ∧ (st_portTraining_3b.hw.linkOn = true) ∧
    (st_portTraining_3b.hw.linkState (.a : Port) = 1) ∧ ((100000 ≤ (7 : Nat) ∨
    st_portTraining_3b.hw.on (LNK_STATUS_CLK_LOCK (portNo (.a : Port))) = true ∧
    st_portTraining_3b.hw.due ((st_portTraining_3b.hw.port (.a : Port)).clkSince + 100000) = true)) := by decide +kernel

theorem test_portTraining_3b : holdsAfter (.clockLaneLocked (.a : Port) (7 : Nat)) (st_portTraining_3b) (fun x => decide (x.hw.linkState (.a : Port) = 2 ∧ x.hw.on (LNK_STATUS_CLK_LOCK (portNo (.a : Port))) = true)) = true := by decide +kernel

def st_portTraining_4 : State := with_ (fun h => atTick 9000 (h.put (LNK_STATUS_STATE 1) 1))

theorem wit_portTraining_4 : (st_portTraining_4.hw.live = true) ∧ (st_portTraining_4.hw.linkOn = true) ∧
    (st_portTraining_4.hw.linkState (.b : Port) = 1) ∧ ((99999 : Nat) < 100000) ∧
    (st_portTraining_4.hw.on (LNK_STATUS_CLK_LOCK (portNo (.b : Port))) = false) := by decide +kernel

theorem test_portTraining_4 : holdsAfter (.clockLaneLocked (.b : Port) (99999 : Nat)) (st_portTraining_4) (fun x => decide (x.hw.linkState (.b : Port) = 1 ∧ x.hw.on (LNK_STATUS_CLK_LOCK (portNo (.b : Port))) = true ∧ (x.hw.port (.b : Port)).clkSince = st_portTraining_4.hw.ns - (99999 : Nat))) = true := by decide +kernel

def st_portTraining_5a : State := with_ (fun h => h.put (LNK_STATUS_STATE 1) 2)

theorem wit_portTraining_5a : (st_portTraining_5a.hw.live = true) ∧ (st_portTraining_5a.hw.linkOn = true) ∧
    (st_portTraining_5a.hw.linkState (.b : Port) = 2) ∧ ((15 : Nat) = ([0, 1, 2,
    3] : List Nat).foldl (fun a l => a + b2n (decide (4 ≤ max (st_portTraining_5a.hw.lane (.b : Port) l).lockStep (([4,
    4, 4, 4] : List Nat).getD l 0))) * 2 ^ l) 0) ∧ (((15 : Nat) = 15 ∨ ((15 : Nat) ≠ 0 ∧
    st_portTraining_5a.hw.due ((st_portTraining_5a.hw.port (.b : Port)).stateSince + 8000000) = true))) := by decide +kernel

theorem test_portTraining_5a : holdsAfter (.lockDone (.b : Port) ([4, 4, 4, 4] : List Nat)) (st_portTraining_5a) (fun x => decide (x.hw.linkState (.b : Port) = 3 ∧ x.hw.healthy (.b : Port) = (15 : Nat))) = true := by decide +kernel

def st_portTraining_5b : State := with_ (fun h => { h.put (LNK_STATUS_STATE 0) 2 with time := { h.time with tick := 2 ^ 40 } })

theorem wit_portTraining_5b : (st_portTraining_5b.hw.live = true) ∧ (st_portTraining_5b.hw.linkOn = true) ∧
    (st_portTraining_5b.hw.linkState (.a : Port) = 2) ∧ ((5 : Nat) = ([0, 1, 2,
    3] : List Nat).foldl (fun a l => a + b2n (decide (4 ≤ max (st_portTraining_5b.hw.lane (.a : Port) l).lockStep (([4,
    3, 4] : List Nat).getD l 0))) * 2 ^ l) 0) ∧ (((5 : Nat) = 15 ∨ ((5 : Nat) ≠ 0 ∧
    st_portTraining_5b.hw.due ((st_portTraining_5b.hw.port (.a : Port)).stateSince + 8000000) = true))) := by decide +kernel

theorem test_portTraining_5b : holdsAfter (.lockDone (.a : Port) ([4, 3, 4] : List Nat)) (st_portTraining_5b) (fun x => decide (x.hw.linkState (.a : Port) = 3 ∧ x.hw.healthy (.a : Port) = (5 : Nat))) = true := by decide +kernel

def st_portTraining_6 : State := with_ (fun h => h.put (LNK_STATUS_STATE 1) 2)

theorem wit_portTraining_6 : (st_portTraining_6.hw.live = true) ∧ (st_portTraining_6.hw.linkOn = true) ∧
    (st_portTraining_6.hw.linkState (.b : Port) = 2) ∧ ((7 : Nat) = ([0, 1, 2,
    3] : List Nat).foldl (fun a l => a + b2n (decide (4 ≤ max (st_portTraining_6.hw.lane (.b : Port) l).lockStep (([4,
    4, 4, 3] : List Nat).getD l 0))) * 2 ^ l) 0) ∧ ((7 : Nat) ≠ 15) ∧ (((7 : Nat) = 0 ∨
    st_portTraining_6.hw.due ((st_portTraining_6.hw.port (.b : Port)).stateSince + 8000000) = false)) := by decide +kernel

theorem test_portTraining_6 : holdsAfter (.lockDone (.b : Port) ([4, 4, 4, 3] : List Nat)) (st_portTraining_6) (fun x => decide (x.hw.linkState (.b : Port) = 2 ∧ x.hw.healthy (.b : Port) = (7 : Nat))) = true := by decide +kernel

def st_portTraining_7 : State := with_ (fun h => (h.put (LNK_STATUS_STATE 1) 3).put (LNK_STATUS_HEALTHY 1) 15)

def v_portTraining_7_lvs : List (List Int) := [[], [], markLevels (((up.hw.put (LNK_STATUS_STATE 0) 3).put (LNK_STATUS_HEALTHY 0) 7).put (LNK_STATUS_MY_RECAL 0) 0) .a ctypeAm 3 2, []]

def v_portTraining_7_m : Marker := { ctype := 0x4B, kind := 3, lane := 2, active := 0, recal := 0, healthy := 7, state := 3, stripe := 0 }

theorem wit_portTraining_7 : (st_portTraining_7.hw.live = true) ∧ (st_portTraining_7.hw.linkOn = true) ∧
    (st_portTraining_7.hw.linkState (.b : Port) = 3) ∧
    ((st_portTraining_7.hw.hear (.b : Port) v_portTraining_7_lvs).mark (fun v_portTraining_7_m => decide (v_portTraining_7_m.ctype = ctypeAm ∧
    (v_portTraining_7_m.state = 3 ∨ v_portTraining_7_m.state = 4))) = some v_portTraining_7_m) ∧
    (st_portTraining_7.hw.healthy (.b : Port) &&& v_portTraining_7_m.healthy ≠ 0) := by decide +kernel

theorem test_portTraining_7 : holdsAfter (.portUp (.b : Port) v_portTraining_7_lvs) (st_portTraining_7) (fun x => decide (x.hw.linkState (.b : Port) = 4 ∧ x.hw.active (.b : Port) = st_portTraining_7.hw.healthy (.b : Port) &&& v_portTraining_7_m.healthy ∧ x.hw.get (LNK_STATUS_WIDTH (portNo (.b : Port))) = popCount 4 (st_portTraining_7.hw.healthy (.b : Port) &&& v_portTraining_7_m.healthy) ∧ x.hw.get (LNK_STATUS_P_HEALTHY (portNo (.b : Port))) = v_portTraining_7_m.healthy)) = true := by decide +kernel

def st_portTraining_8 : State := with_ (fun h => (h.put (LNK_STATUS_STATE 1) 3).put (LNK_STATUS_HEALTHY 1) 8)

def v_portTraining_8_lvs : List (List Int) := [markLevels (((up.hw.put (LNK_STATUS_STATE 0) 4).put (LNK_STATUS_HEALTHY 0) 7).put (LNK_STATUS_MY_RECAL 0) 0) .a ctypeAm 3 0, [], [], []]

def v_portTraining_8_m : Marker := { ctype := 0x4B, kind := 3, lane := 0, active := 0, recal := 0, healthy := 7, state := 4, stripe := 0 }

theorem wit_portTraining_8 : (st_portTraining_8.hw.live = true) ∧ (st_portTraining_8.hw.linkOn = true) ∧
    (st_portTraining_8.hw.linkState (.b : Port) = 3) ∧
    ((st_portTraining_8.hw.hear (.b : Port) v_portTraining_8_lvs).mark (fun v_portTraining_8_m => decide (v_portTraining_8_m.ctype = ctypeAm ∧
    (v_portTraining_8_m.state = 3 ∨ v_portTraining_8_m.state = 4))) = some v_portTraining_8_m) ∧
    (st_portTraining_8.hw.healthy (.b : Port) &&& v_portTraining_8_m.healthy = 0) := by decide +kernel

theorem test_portTraining_8 : holdsAfter (.portUp (.b : Port) v_portTraining_8_lvs) (st_portTraining_8) (fun x => decide (x.hw.linkState (.b : Port) = 0 ∧ x.hw.active (.b : Port) = 0)) = true := by decide +kernel

def st_portTraining_9 : State := with_ (fun h => atTick (2 ^ 60) (h.put (LNK_STATUS_STATE 1) 3))

theorem wit_portTraining_9 : (st_portTraining_9.hw.live = true) ∧ (st_portTraining_9.hw.linkOn = true) ∧
    (1 ≤ st_portTraining_9.hw.linkState (.b : Port)) ∧ (st_portTraining_9.hw.linkState (.b : Port) ≤ 3) ∧
    (st_portTraining_9.hw.due ((st_portTraining_9.hw.port (.b : Port)).leftDown + st_portTraining_9.hw.trainMs (.b : Port)) = true) := by decide +kernel

theorem test_portTraining_9 : holdsAfter (.trainingFail (.b : Port)) (st_portTraining_9) (fun x => decide (x.hw.linkState (.b : Port) = 0 ∧ x.hw.on (LNK_EVT_TRAINING_FAIL (portNo (.b : Port))) = true ∧ x.hw.on (statusBit (srcPortTrainingFail (portNo (.b : Port)))) = true)) = true := by decide +kernel

def st_portTraining_10 : State := with_ (fun h => (h.put (LNK_STATUS_STATE 0) 4).put (LNK_STATUS_CLK_LOCK 0) 1)

theorem wit_portTraining_10 : (st_portTraining_10.hw.live = true) ∧ (st_portTraining_10.hw.linkOn = true) ∧
    (st_portTraining_10.hw.on (LNK_STATUS_CLK_LOCK (portNo (.a : Port))) = true) := by decide +kernel

theorem test_portTraining_10 : holdsAfter (.clockLaneLoss (.a : Port)) (st_portTraining_10) (fun x => decide (x.hw.linkState (.a : Port) = 0 ∧ x.hw.on (LNK_EVT_CLOCK_LANE_LOSS (portNo (.a : Port))) = true ∧ x.hw.on (statusBit (srcPortClockLaneLoss (portNo (.a : Port)))) = true)) = true := by decide +kernel

def st_portTraining_11 : State := with_ (fun h => h.put (LNK_STATUS_STATE 0) 4)

theorem wit_portTraining_11 : (st_portTraining_11.hw.writable (.mspi : Requester) = true) ∧ (natBit (0x800A0003 : Word).toNat 31 = true) := by decide +kernel

theorem test_portTraining_11 : holdsAfter (.lnkRetrain (.mspi : Requester) (.a : Port) (0x800A0003 : Word)) (st_portTraining_11) (fun x => decide (x.hw.linkState (.a : Port) = 0 ∧ x.hw.stagedOr (LNK_CTL (portNo (.a : Port))) = (0x800A0003 : Word) &&& 7 ∧ x.hw.get (LNK_CTL_RICH_EVERY (portNo (.a : Port))) = bits (0x800A0003 : Word) 19 16)) = true := by decide +kernel

def st_portTraining_12 : State := with_ (fun h => h.put (LNK_STATUS_STATE 0) 4)

theorem wit_portTraining_12 : (st_portTraining_12.hw.writable (.mspi : Requester) = true) ∧ (natBit (0x000A0003 : Word).toNat 31 = false) := by decide +kernel

theorem test_portTraining_12 : holdsAfter (.lnkRetrain (.mspi : Requester) (.a : Port) (0x000A0003 : Word)) (st_portTraining_12) (fun x => decide (x.hw.linkState (.a : Port) = st_portTraining_12.hw.linkState (.a : Port) ∧ x.hw.stagedOr (LNK_CTL (portNo (.a : Port))) = (0x000A0003 : Word) &&& 7 ∧ x.hw.get (LNK_CTL_RICH_EVERY (portNo (.a : Port))) = bits (0x000A0003 : Word) 19 16)) = true := by decide +kernel

def st_lanesAndWidth_1a : State := with_ (fun h => (((h.put (LNK_STATUS_STATE 1) 4).put (LNK_STATUS_HEALTHY 1) 15).put (LNK_STATUS_ACTIVE 1) 15).put (LNK_STATUS_P_HEALTHY 1) 15)

theorem wit_lanesAndWidth_1a : (st_lanesAndWidth_1a.hw.live = true) ∧ (st_lanesAndWidth_1a.hw.linkOn = true) ∧
    (st_lanesAndWidth_1a.hw.up (.b : Port) = true) ∧ ((3 : Nat) < 4) ∧
    (natBit (st_lanesAndWidth_1a.hw.healthy (.b : Port)) (3 : Nat) = true) ∧
    ((st_lanesAndWidth_1a.hw.on (LNK_STATUS_RX_ASLEEP (portNo (.b : Port))) = false ∨ (0 : Nat) % 4 ≠ 0 ∧
    ((0 : Nat) % 4 ≠ 2 ∨ 2000 ≤ (0 : Nat)))) := by decide +kernel

theorem test_lanesAndWidth_1a : holdsAfter (.laneDown (.b : Port) (3 : Nat) (0 : Nat) (0 : Nat)) (st_lanesAndWidth_1a) (fun x => decide (natBit (x.hw.healthy (.b : Port)) (3 : Nat) = false ∧ x.hw.on (LNK_EVT_LANE_DOWN (portNo (.b : Port))) = true ∧ x.hw.on (statusBit (srcPortLaneDown (portNo (.b : Port)))) = true ∧ x.hw.get (LNK_LANE_CAUSE (portNo (.b : Port)) (3 : Nat)) = (0 : Nat) % 4 ∧ (x.hw.lane (.b : Port) (3 : Nat)).goodSince = st_lanesAndWidth_1a.hw.ns)) = true := by decide +kernel

def st_lanesAndWidth_1b : State := with_ (fun h => ((((h.put (LNK_STATUS_STATE 1) 4).put (LNK_STATUS_HEALTHY 1) 15).put (LNK_STATUS_ACTIVE 1) 15).put (LNK_STATUS_P_HEALTHY 1) 15).put (LNK_STATUS_RX_ASLEEP 1) 1)

theorem wit_lanesAndWidth_1b : (st_lanesAndWidth_1b.hw.live = true) ∧ (st_lanesAndWidth_1b.hw.linkOn = true) ∧
    (st_lanesAndWidth_1b.hw.up (.b : Port) = true) ∧ ((0 : Nat) < 4) ∧
    (natBit (st_lanesAndWidth_1b.hw.healthy (.b : Port)) (0 : Nat) = true) ∧
    ((st_lanesAndWidth_1b.hw.on (LNK_STATUS_RX_ASLEEP (portNo (.b : Port))) = false ∨ (2 : Nat) % 4 ≠ 0 ∧
    ((2 : Nat) % 4 ≠ 2 ∨ 2000 ≤ (2000 : Nat)))) := by decide +kernel

theorem test_lanesAndWidth_1b : holdsAfter (.laneDown (.b : Port) (0 : Nat) (2 : Nat) (2000 : Nat)) (st_lanesAndWidth_1b) (fun x => decide (natBit (x.hw.healthy (.b : Port)) (0 : Nat) = false ∧ x.hw.on (LNK_EVT_LANE_DOWN (portNo (.b : Port))) = true ∧ x.hw.on (statusBit (srcPortLaneDown (portNo (.b : Port)))) = true ∧ x.hw.get (LNK_LANE_CAUSE (portNo (.b : Port)) (0 : Nat)) = (2 : Nat) % 4 ∧ (x.hw.lane (.b : Port) (0 : Nat)).goodSince = st_lanesAndWidth_1b.hw.ns)) = true := by decide +kernel

def st_lanesAndWidth_2a : State := with_ (fun h => ((((h.put (LNK_STATUS_STATE 1) 4).put (LNK_STATUS_HEALTHY 1) 15).put (LNK_STATUS_ACTIVE 1) 15).put (LNK_STATUS_P_HEALTHY 1) 15).put (LNK_STATUS_RX_ASLEEP 1) 1)

theorem wit_lanesAndWidth_2a : (st_lanesAndWidth_2a.hw.live = true) ∧ (st_lanesAndWidth_2a.hw.linkOn = true) ∧
    (st_lanesAndWidth_2a.hw.up (.b : Port) = true) ∧ ((0 : Nat) < 4) ∧
    (natBit (st_lanesAndWidth_2a.hw.healthy (.b : Port)) (0 : Nat) = true) ∧
    (st_lanesAndWidth_2a.hw.on (LNK_STATUS_RX_ASLEEP (portNo (.b : Port))) = true) ∧ (((2 : Nat) % 4 = 0 ∨
    (2 : Nat) % 4 = 2 ∧ (1999 : Nat) < 2000)) := by decide +kernel

theorem test_lanesAndWidth_2a : holdsAfter (.laneDown (.b : Port) (0 : Nat) (2 : Nat) (1999 : Nat)) (st_lanesAndWidth_2a) (fun x => decide (x = st_lanesAndWidth_2a)) = true := by decide +kernel

def st_lanesAndWidth_2b : State := with_ (fun h => ((((h.put (LNK_STATUS_STATE 1) 4).put (LNK_STATUS_HEALTHY 1) 15).put (LNK_STATUS_ACTIVE 1) 15).put (LNK_STATUS_P_HEALTHY 1) 15).put (LNK_STATUS_RX_ASLEEP 1) 1)

theorem wit_lanesAndWidth_2b : (st_lanesAndWidth_2b.hw.live = true) ∧ (st_lanesAndWidth_2b.hw.linkOn = true) ∧
    (st_lanesAndWidth_2b.hw.up (.b : Port) = true) ∧ ((3 : Nat) < 4) ∧
    (natBit (st_lanesAndWidth_2b.hw.healthy (.b : Port)) (3 : Nat) = true) ∧
    (st_lanesAndWidth_2b.hw.on (LNK_STATUS_RX_ASLEEP (portNo (.b : Port))) = true) ∧ (((0 : Nat) % 4 = 0 ∨
    (0 : Nat) % 4 = 2 ∧ (3000 : Nat) < 2000)) := by decide +kernel

theorem test_lanesAndWidth_2b : holdsAfter (.laneDown (.b : Port) (3 : Nat) (0 : Nat) (3000 : Nat)) (st_lanesAndWidth_2b) (fun x => decide (x = st_lanesAndWidth_2b)) = true := by decide +kernel

def st_lanesAndWidth_3 : State := with_ (fun h => atTick 5 (((((h.put (LNK_STATUS_STATE 1) 4).put (LNK_STATUS_HEALTHY 1) 7).put (LNK_STATUS_ACTIVE 1) 15).put (LNK_STATUS_P_HEALTHY 1) 15).put (LNK_LANE_GOOD_MS 1 3) 9))

theorem wit_lanesAndWidth_3 : (st_lanesAndWidth_3.hw.live = true) ∧ (st_lanesAndWidth_3.hw.linkOn = true) ∧
    (st_lanesAndWidth_3.hw.up (.b : Port) = true) ∧ ((3 : Nat) < 4) ∧
    (natBit (st_lanesAndWidth_3.hw.healthy (.b : Port)) (3 : Nat) = false) := by decide +kernel

theorem test_lanesAndWidth_3 : holdsAfter (.laneDown (.b : Port) (3 : Nat) (2 : Nat) (0 : Nat)) (st_lanesAndWidth_3) (fun x => decide (x.hw.healthy (.b : Port) = st_lanesAndWidth_3.hw.healthy (.b : Port) ∧ x.hw.get (LNK_LANE_GOOD_MS (portNo (.b : Port)) (3 : Nat)) = 0 ∧ (x.hw.lane (.b : Port) (3 : Nat)).goodSince = st_lanesAndWidth_3.hw.ns)) = true := by decide +kernel

def st_lanesAndWidth_4 : State := with_ (fun h => (((h.put (LNK_STATUS_STATE 1) 4).put (LNK_STATUS_HEALTHY 1) 11).put (LNK_STATUS_ACTIVE 1) 15).put (LNK_STATUS_P_HEALTHY 1) 7)

theorem wit_lanesAndWidth_4 : (st_lanesAndWidth_4.hw.live = true) ∧ (st_lanesAndWidth_4.hw.linkOn = true) ∧
    (st_lanesAndWidth_4.hw.up (.b : Port) = true) ∧
    (st_lanesAndWidth_4.hw.healthy (.b : Port) &&& st_lanesAndWidth_4.hw.get (LNK_STATUS_P_HEALTHY (portNo (.b : Port))) ≠ 0) ∧
    (st_lanesAndWidth_4.hw.active (.b : Port) ≠ st_lanesAndWidth_4.hw.healthy (.b : Port) &&& st_lanesAndWidth_4.hw.get (LNK_STATUS_P_HEALTHY (portNo (.b : Port)))) := by decide +kernel

def st_lanesAndWidth_5 : State := with_ (fun h => (((h.put (LNK_STATUS_STATE 1) 4).put (LNK_STATUS_HEALTHY 1) 8).put (LNK_STATUS_ACTIVE 1) 15).put (LNK_STATUS_P_HEALTHY 1) 7)

theorem wit_lanesAndWidth_5 : (st_lanesAndWidth_5.hw.live = true) ∧ (st_lanesAndWidth_5.hw.linkOn = true) ∧
    (st_lanesAndWidth_5.hw.up (.b : Port) = true) ∧
    (st_lanesAndWidth_5.hw.healthy (.b : Port) &&& st_lanesAndWidth_5.hw.get (LNK_STATUS_P_HEALTHY (portNo (.b : Port))) = 0) ∧
    (st_lanesAndWidth_5.hw.active (.b : Port) ≠ 0) := by decide +kernel

def st_lanesAndWidth_6 : State := with_ (fun h => (((h.put (LNK_STATUS_STATE 1) 4).put (LNK_STATUS_HEALTHY 1) 15).put (LNK_STATUS_ACTIVE 1) 15).put (LNK_STATUS_P_HEALTHY 1) 15)

def v_lanesAndWidth_6_lvs : List (List Int) := [[], [], [], markLevels (((up.hw.put (LNK_STATUS_STATE 0) 4).put (LNK_STATUS_HEALTHY 0) 7).put (LNK_STATUS_MY_RECAL 0) 8) .a ctypeWidth 0 3]

def v_lanesAndWidth_6_m : Marker := { ctype := 0x55, kind := 0, lane := 3, active := 0, recal := 8, healthy := 7, state := 4, stripe := 0 }

theorem wit_lanesAndWidth_6 : (st_lanesAndWidth_6.hw.live = true) ∧ (st_lanesAndWidth_6.hw.linkOn = true) ∧
    (st_lanesAndWidth_6.hw.up (.b : Port) = true) ∧
    ((st_lanesAndWidth_6.hw.hear (.b : Port) v_lanesAndWidth_6_lvs).mark (fun _ => true) = some v_lanesAndWidth_6_m) ∧
    (v_lanesAndWidth_6_m.healthy ≠ st_lanesAndWidth_6.hw.get (LNK_STATUS_P_HEALTHY (portNo (.b : Port)))) ∧
    (st_lanesAndWidth_6.hw.healthy (.b : Port) &&& v_lanesAndWidth_6_m.healthy ≠ 0) := by decide +kernel

def st_lanesAndWidth_7 : State := with_ (fun h => (((h.put (LNK_STATUS_STATE 1) 4).put (LNK_STATUS_HEALTHY 1) 15).put (LNK_STATUS_ACTIVE 1) 15).put (LNK_STATUS_P_HEALTHY 1) 7)

def v_lanesAndWidth_7_lvs : List (List Int) := [[], [], [], markLevels (((up.hw.put (LNK_STATUS_STATE 0) 4).put (LNK_STATUS_HEALTHY 0) 7).put (LNK_STATUS_MY_RECAL 0) 8) .a ctypeWidth 0 3]

def v_lanesAndWidth_7_m : Marker := { ctype := 0x55, kind := 0, lane := 3, active := 0, recal := 8, healthy := 7, state := 4, stripe := 0 }

theorem wit_lanesAndWidth_7 : (st_lanesAndWidth_7.hw.live = true) ∧ (st_lanesAndWidth_7.hw.linkOn = true) ∧
    (st_lanesAndWidth_7.hw.up (.b : Port) = true) ∧
    ((st_lanesAndWidth_7.hw.hear (.b : Port) v_lanesAndWidth_7_lvs).mark (fun _ => true) = some v_lanesAndWidth_7_m) ∧
    (v_lanesAndWidth_7_m.healthy = st_lanesAndWidth_7.hw.get (LNK_STATUS_P_HEALTHY (portNo (.b : Port)))) := by decide +kernel

theorem test_lanesAndWidth_7 : holdsAfter (.widthBlockReceive (.b : Port) v_lanesAndWidth_7_lvs) (st_lanesAndWidth_7) (fun x => decide (x.hw.active (.b : Port) = st_lanesAndWidth_7.hw.active (.b : Port) ∧ x.hw.healthy (.b : Port) = st_lanesAndWidth_7.hw.healthy (.b : Port) ∧ x.hw.get (LNK_STATUS_P_HEALTHY (portNo (.b : Port))) = v_lanesAndWidth_7_m.healthy ∧ x.hw.get (LNK_STATUS_P_RECAL (portNo (.b : Port))) = v_lanesAndWidth_7_m.recal ∧ x.hw.up (.b : Port) = true)) = true := by decide +kernel

def st_lanesAndWidth_8 : State := with_ (fun h => { (((h.put (LNK_STATUS_STATE 1) 4).put (LNK_STATUS_HEALTHY 1) 7).put (LNK_STATUS_ACTIVE 1) 15).put (LNK_STATUS_P_HEALTHY 1) 15 with time := { h.time with tick := 2 ^ 40 } })

theorem wit_lanesAndWidth_8 : (st_lanesAndWidth_8.hw.live = true) ∧ (st_lanesAndWidth_8.hw.linkOn = true) ∧
    (st_lanesAndWidth_8.hw.up (.b : Port) = true) ∧ ((3 : Nat) < 4) ∧
    (natBit (st_lanesAndWidth_8.hw.healthy (.b : Port)) (3 : Nat) = false) ∧
    (st_lanesAndWidth_8.hw.due ((st_lanesAndWidth_8.hw.lane (.b : Port) (3 : Nat)).goodSince + 10000000) = true) := by decide +kernel

theorem test_lanesAndWidth_8 : holdsAfter (.laneReadmit (.b : Port) (3 : Nat)) (st_lanesAndWidth_8) (fun x => decide (natBit (x.hw.healthy (.b : Port)) (3 : Nat) = true ∧ x.hw.on (LNK_LANE_LOCKED (portNo (.b : Port)) (3 : Nat)) = true ∧ (x.hw.lane (.b : Port) (3 : Nat)).reEq = false ∧ x.hw.active (.b : Port) = st_lanesAndWidth_8.hw.active (.b : Port))) = true := by decide +kernel

def st_lanesAndWidth_9 : State := with_ (fun h => { (((((h.put (LNK_STATUS_STATE 1) 4).put (LNK_STATUS_HEALTHY 1) 15).put (LNK_STATUS_ACTIVE 1) 15).put (LNK_STATUS_P_HEALTHY 1) 15).put (LNK_TRK_RECAL_PEND 1 3) 1).put (LNK_RECAL_RECAL_MAX_S 1) 1 with time := { h.time with tick := 2 ^ 40 } })

theorem wit_lanesAndWidth_9 : (st_lanesAndWidth_9.hw.live = true) ∧ (st_lanesAndWidth_9.hw.linkOn = true) ∧
    (st_lanesAndWidth_9.hw.up (.b : Port) = true) ∧ ((3 : Nat) < 4) ∧
    (st_lanesAndWidth_9.hw.on (LNK_TRK_RECAL_PEND (portNo (.b : Port)) (3 : Nat)) = true) ∧
    (natBit (st_lanesAndWidth_9.hw.healthy (.b : Port)) (3 : Nat) = true) ∧
    (st_lanesAndWidth_9.hw.get (LNK_RECAL_RECAL_MAX_S (portNo (.b : Port))) ≠ 0) ∧
    (st_lanesAndWidth_9.hw.due ((st_lanesAndWidth_9.hw.lane (.b : Port) (3 : Nat)).recalSince + st_lanesAndWidth_9.hw.get (LNK_RECAL_RECAL_MAX_S (portNo (.b : Port))) * 1000000000) = true) := by decide +kernel

theorem test_lanesAndWidth_9 : holdsAfter (.recalTimeout (.b : Port) (3 : Nat)) (st_lanesAndWidth_9) (fun x => decide (natBit (x.hw.healthy (.b : Port)) (3 : Nat) = false ∧ x.hw.on (LNK_EVT_LANE_DOWN (portNo (.b : Port))) = st_lanesAndWidth_9.hw.on (LNK_EVT_LANE_DOWN (portNo (.b : Port))))) = true := by decide +kernel

def st_laneTuning_1a : State := with_ (fun h => (((h.put (LNK_STATUS_STATE 1) 4).put (LNK_STATUS_HEALTHY 1) 15).put (LNK_STATUS_ACTIVE 1) 15).put (LNK_STATUS_P_HEALTHY 1) 15)

theorem wit_laneTuning_1a : (st_laneTuning_1a.hw.live = true) ∧ (st_laneTuning_1a.hw.linkOn = true) ∧
    (st_laneTuning_1a.hw.up (.b : Port) = true) ∧ ((3 : Nat) < 4) ∧ ((3 : Nat) < 4) := by decide +kernel

theorem test_laneTuning_1a : holdsAfter (.trackBound (.b : Port) (3 : Nat) (3 : Nat) (true : Bool)) (st_laneTuning_1a) (fun x => decide (x.hw.offset (.b : Port) (3 : Nat) (3 : Nat) = (if (true : Bool) then 8 else -8) ∧ x.hw.on (LNK_TRK_RECAL_PEND (portNo (.b : Port)) (3 : Nat)) = true ∧ x.hw.linkState (.b : Port) = 4)) = true := by decide +kernel

def st_laneTuning_1b : State := with_ (fun h => (((h.put (LNK_STATUS_STATE 1) 4).put (LNK_STATUS_HEALTHY 1) 15).put (LNK_STATUS_ACTIVE 1) 15).put (LNK_STATUS_P_HEALTHY 1) 15)

theorem wit_laneTuning_1b : (st_laneTuning_1b.hw.live = true) ∧ (st_laneTuning_1b.hw.linkOn = true) ∧
    (st_laneTuning_1b.hw.up (.b : Port) = true) ∧ ((0 : Nat) < 4) ∧ ((0 : Nat) < 4) := by decide +kernel

theorem test_laneTuning_1b : holdsAfter (.trackBound (.b : Port) (0 : Nat) (0 : Nat) (false : Bool)) (st_laneTuning_1b) (fun x => decide (x.hw.offset (.b : Port) (0 : Nat) (0 : Nat) = (if (false : Bool) then 8 else -8) ∧ x.hw.on (LNK_TRK_RECAL_PEND (portNo (.b : Port)) (0 : Nat)) = true ∧ x.hw.linkState (.b : Port) = 4)) = true := by decide +kernel

def st_laneTuning_2 : State := with_ (fun h => ((((h.put (LNK_STATUS_STATE 1) 4).put (LNK_STATUS_HEALTHY 1) 15).put (LNK_STATUS_ACTIVE 1) 15).put (LNK_STATUS_P_HEALTHY 1) 15).setReg (LNK_EQ 1 0) 1)

theorem wit_laneTuning_2 : (st_laneTuning_2.hw.live = true) ∧ (st_laneTuning_2.hw.linkOn = true) ∧
    (st_laneTuning_2.hw.up (.b : Port) = true) ∧ ((0 : Nat) < 4) ∧
    ((st_laneTuning_2.hw.lane (.b : Port) (0 : Nat)).eq ≠ st_laneTuning_2.hw.reg (LNK_EQ (portNo (.b : Port)) (0 : Nat))) ∧
    (natBit (st_laneTuning_2.hw.active (.b : Port)) (0 : Nat) = true) ∧
    (natBit (st_laneTuning_2.hw.healthy (.b : Port)) (0 : Nat) = true) ∧
    ((List.range 4).all (fun k => !(st_laneTuning_2.hw.lane (.b : Port) k).reEq && !(decide (k < (0 : Nat)) && decide ((st_laneTuning_2.hw.lane (.b : Port) k).eq ≠ st_laneTuning_2.hw.reg (LNK_EQ (portNo (.b : Port)) k)))) = true) ∧
    (st_laneTuning_2.hw.get (LNK_CTL_MIN_WIDTH (portNo (.b : Port))) ≤ popCount 4 (natPut (st_laneTuning_2.hw.active (.b : Port)) (0 : Nat) (0 : Nat) 0)) := by decide +kernel

theorem test_laneTuning_2 : holdsAfter (.laneReequalise (.b : Port) (0 : Nat)) (st_laneTuning_2) (fun x => decide ((x.hw.lane (.b : Port) (0 : Nat)).eq = (st_laneTuning_2.hw.lane (.b : Port) (0 : Nat)).eq ∧ (x.hw.lane (.b : Port) (0 : Nat)).reEq = true ∧ natBit (x.hw.healthy (.b : Port)) (0 : Nat) = false ∧ x.hw.active (.b : Port) = st_laneTuning_2.hw.active (.b : Port))) = true := by decide +kernel

def st_laneTuning_3 : State := with_ (fun h => (((((h.put (LNK_STATUS_STATE 1) 4).put (LNK_STATUS_HEALTHY 1) 15).put (LNK_STATUS_ACTIVE 1) 15).put (LNK_STATUS_P_HEALTHY 1) 15).put (LNK_STATUS_ACTIVE 1) 7).setReg (LNK_EQ 1 3) 1)

theorem wit_laneTuning_3 : (st_laneTuning_3.hw.live = true) ∧ (st_laneTuning_3.hw.linkOn = true) ∧
    (st_laneTuning_3.hw.up (.b : Port) = true) ∧ ((3 : Nat) < 4) ∧
    ((st_laneTuning_3.hw.lane (.b : Port) (3 : Nat)).eq ≠ st_laneTuning_3.hw.reg (LNK_EQ (portNo (.b : Port)) (3 : Nat))) ∧
    (natBit (st_laneTuning_3.hw.active (.b : Port)) (3 : Nat) = false) := by decide +kernel

theorem test_laneTuning_3 : holdsAfter (.laneReequalise (.b : Port) (3 : Nat)) (st_laneTuning_3) (fun x => decide ((x.hw.lane (.b : Port) (3 : Nat)).eq = st_laneTuning_3.hw.reg (LNK_EQ (portNo (.b : Port)) (3 : Nat)) ∧ x.hw.regs = st_laneTuning_3.hw.regs)) = true := by decide +kernel

def st_laneTuning_4 : State := with_ (fun h => { ((((h.put (LNK_STATUS_STATE 1) 4).put (LNK_STATUS_HEALTHY 1) 15).put (LNK_STATUS_ACTIVE 1) 15).put (LNK_STATUS_P_HEALTHY 1) 15).setReg (LNK_EQ 1 4) 0x3 with time := { h.time with tick := 2 ^ 40 } })

theorem wit_laneTuning_4 : (st_laneTuning_4.hw.live = true) ∧ (st_laneTuning_4.hw.linkOn = true) ∧
    (st_laneTuning_4.hw.up (.b : Port) = true) ∧
    ((st_laneTuning_4.hw.lane (.b : Port) 4).eq ≠ st_laneTuning_4.hw.reg (LNK_EQ (portNo (.b : Port)) 4)) ∧
    (st_laneTuning_4.hw.due ((st_laneTuning_4.hw.lane (.b : Port) 4).goodSince + 100000) = true) := by decide +kernel

theorem test_laneTuning_4 : holdsAfter (.clockEqStep (.b : Port)) (st_laneTuning_4) (fun x => decide ((x.hw.lane (.b : Port) 4).eq = BitVec.ofNat 32 (stepCell (st_laneTuning_4.hw.lane (.b : Port) 4).eq.toNat (st_laneTuning_4.hw.reg (LNK_EQ (portNo (.b : Port)) 4)).toNat) ∧ x.hw.regs = st_laneTuning_4.hw.regs)) = true := by decide +kernel

def st_laneTuning_5 : State := with_ (fun h => atTick (2 ^ 40) ((((((h.put (LNK_STATUS_STATE 1) 4).put (LNK_STATUS_HEALTHY 1) 15).put (LNK_STATUS_ACTIVE 1) 15).put (LNK_STATUS_P_HEALTHY 1) 15).put CLK_SLEEP_CTL_LANE_B_EN 1).put (LNK_STATUS_P_RECAL 1) 8))

theorem wit_laneTuning_5 : (st_laneTuning_5.hw.live = true) ∧ (st_laneTuning_5.hw.linkOn = true) ∧
    (st_laneTuning_5.hw.up (.b : Port) = true) ∧ (st_laneTuning_5.hw.on (laneEn (.b : Port)) = true) ∧
    (st_laneTuning_5.hw.txAsleep (.b : Port) = false) ∧ (st_laneTuning_5.hw.toSend (.b : Port) = false) ∧
    (st_laneTuning_5.hw.due ((st_laneTuning_5.hw.port (.b : Port)).idleSince + max 100 (st_laneTuning_5.hw.get (LNK_TIMING_IDLE_NS (portNo (.b : Port))))) = true) ∧
    ((st_laneTuning_5.hw.port (.b : Port)).holdAwake ≤ st_laneTuning_5.hw.ns) := by decide +kernel

theorem test_laneTuning_5 : holdsAfter (.laneSleep (.b : Port)) (st_laneTuning_5) (fun x => decide (x.hw.txAsleep (.b : Port) = true ∧ x.hw.up (.b : Port) = true ∧ (x.hw.port (.b : Port)).nap = st_laneTuning_5.hw.get (LNK_STATUS_P_RECAL (portNo (.b : Port))))) = true := by decide +kernel

def st_laneTuning_6 : State := with_ (fun h => let h1 := atTick 10000 (((((h.put (LNK_STATUS_STATE 1) 4).put (LNK_STATUS_HEALTHY 1) 15).put (LNK_STATUS_ACTIVE 1) 15).put (LNK_STATUS_P_HEALTHY 1) 15).put (LNK_STATUS_TX_ASLEEP 1) 1); h1.setPort .b { h1.port .b with nap := 8 })

theorem wit_laneTuning_6 : (st_laneTuning_6.hw.live = true) ∧ (st_laneTuning_6.hw.linkOn = true) ∧
    (st_laneTuning_6.hw.up (.b : Port) = true) ∧ (st_laneTuning_6.hw.txAsleep (.b : Port) = true) ∧
    ((st_laneTuning_6.hw.port (.b : Port)).nap ≠ 0) ∧
    (st_laneTuning_6.hw.due ((st_laneTuning_6.hw.port (.b : Port)).napSince + 400000) = true) := by decide +kernel

theorem test_laneTuning_6 : holdsAfter (.laneSleep (.b : Port)) (st_laneTuning_6) (fun x => decide (x.hw.txAsleep (.b : Port) = true ∧ x.hw.up (.b : Port) = true ∧ (x.hw.port (.b : Port)).nap = 0)) = true := by decide +kernel

def st_laneTuning_7 : State := with_ (fun h => (((h.put (LNK_STATUS_STATE 1) 4).put (LNK_STATUS_HEALTHY 1) 15).put (LNK_STATUS_ACTIVE 1) 15).put (LNK_STATUS_P_HEALTHY 1) 15)

def v_laneTuning_7_lvs : List (List Int) := [[], [], [], markLevels (((up.hw.put (LNK_STATUS_STATE 0) 4).put (LNK_STATUS_HEALTHY 0) 15).put (LNK_STATUS_MY_RECAL 0) 0) .a ctypeSleep 0 3]

theorem wit_laneTuning_7 : (st_laneTuning_7.hw.live = true) ∧ (st_laneTuning_7.hw.linkOn = true) ∧
    (st_laneTuning_7.hw.up (.b : Port) = true) ∧
    ((st_laneTuning_7.hw.hear (.b : Port) v_laneTuning_7_lvs).marks.any (fun m => decide (m.ctype = ctypeSleep)) = true) := by decide +kernel

theorem test_laneTuning_7 : holdsAfter (.sleepBlockReceive (.b : Port) v_laneTuning_7_lvs) (st_laneTuning_7) (fun x => decide (x.hw.on (LNK_STATUS_RX_ASLEEP (portNo (.b : Port))) = true ∧ (st_laneTuning_7.hw.hear (.b : Port) v_laneTuning_7_lvs).marks.all (fun m => decide (m.ctype = ctypeSleep → (x.hw.lane (.b : Port) m.lane).quiet = 64 ∧ (x.hw.lane (.b : Port) m.lane).rprec = 0)) = true)) = true := by decide +kernel

def st_laneTuning_8 : State := with_ (fun h => let h1 := ((((h.put (LNK_STATUS_STATE 1) 4).put (LNK_STATUS_HEALTHY 1) 15).put (LNK_STATUS_ACTIVE 1) 15).put (LNK_STATUS_P_HEALTHY 1) 15).put (LNK_STATUS_TX_ASLEEP 1) 1; h1.setPort .b { h1.port .b with answers := [{ ty := 0x40, cls := 1, rsp := true, sr := false, flg := false, src := 4, dst := 3, seq := 5, epoch := 0, hops := 7, payload := [] }] })

theorem wit_laneTuning_8 : (st_laneTuning_8.hw.live = true) ∧ (st_laneTuning_8.hw.linkOn = true) ∧
    (st_laneTuning_8.hw.up (.b : Port) = true) ∧ (st_laneTuning_8.hw.txAsleep (.b : Port) = true) ∧
    (st_laneTuning_8.hw.toSend (.b : Port) = true) := by decide +kernel

def st_laneTuning_9 : State := with_ (fun h => ((((h.put (LNK_STATUS_STATE 1) 4).put (LNK_STATUS_HEALTHY 1) 15).put (LNK_STATUS_ACTIVE 1) 15).put (LNK_STATUS_P_HEALTHY 1) 15).put (LNK_STATUS_RX_ASLEEP 1) 1)

def v_laneTuning_9_lvs : List (List Int) := [[], markLevels (((up.hw.put (LNK_STATUS_STATE 0) 4).put (LNK_STATUS_HEALTHY 0) 15).put (LNK_STATUS_MY_RECAL 0) 0) .a ctypeAm 2 1, [], []]

theorem wit_laneTuning_9 : (st_laneTuning_9.hw.live = true) ∧ (st_laneTuning_9.hw.linkOn = true) ∧
    (((st_laneTuning_9.hw.hear (.b : Port) v_laneTuning_9_lvs).mark (fun m => decide (m.ctype = ctypeAm ∧
    m.kind = 2))).isSome = true) := by decide +kernel

theorem test_laneTuning_9 : holdsAfter (.wakeAmReceive (.b : Port) v_laneTuning_9_lvs) (st_laneTuning_9) (fun x => decide (x.hw.on (LNK_STATUS_RX_ASLEEP 1) = false)) = true := by decide +kernel

def st_laneTuning_10 : State := with_ (fun h => h.setPort .b { h.port .b with rxSet := 2, rx := some { sof := [], consumed := true, forwarded := false, queued := false, refused := false, stamp := 0 } })

def v_laneTuning_10_lvs : List (List Int) := [[], blockLevels [(true, 0x2D :: zeros 31), (true, zeros 32)], [], []]

theorem wit_laneTuning_10 : (st_laneTuning_10.hw.live = true) ∧ (st_laneTuning_10.hw.linkOn = true) ∧
    ((st_laneTuning_10.hw.hear (.b : Port) v_laneTuning_10_lvs).aborts = true) := by decide +kernel

theorem test_laneTuning_10 : holdsAfter (.abortBlockReceive (.b : Port) v_laneTuning_10_lvs) (st_laneTuning_10) (fun x => decide ((x.hw.port (.b : Port)).rx = none)) = true := by decide +kernel

def st_laneTuning_11 : State := with_ (fun h => h.setPort .b { h.port .b with rxSet := 2, rx := some { sof := [], consumed := true, forwarded := false, queued := false, refused := false, stamp := 0 } })

def v_laneTuning_11_lvs : List (List Int) := [[], blockLevels [(true, 0x00 :: zeros 31), (true, zeros 32)], [], []]

theorem wit_laneTuning_11 : (st_laneTuning_11.hw.live = true) ∧ (st_laneTuning_11.hw.linkOn = true) ∧
    ((st_laneTuning_11.hw.hear (.b : Port) v_laneTuning_11_lvs).aborts = false) := by decide +kernel

theorem test_laneTuning_11 : holdsAfter (.abortBlockReceive (.b : Port) v_laneTuning_11_lvs) (st_laneTuning_11) (fun x => decide ((x.hw.port (.b : Port)).rx = (st_laneTuning_11.hw.port (.b : Port)).rx)) = true := by decide +kernel

def st_frameReception_1a : State := with_ (fun h => (let h1 := ((((h.put (LNK_RX_ERR_HCHK_ERR 1) 65535).put (LNK_STATUS_STATE 1) 4).put (LNK_STATUS_HEALTHY 1) 15).put (LNK_STATUS_ACTIVE 1) 15); h1.setPort .b { h1.port .b with rxSet := 8 }))

def v_frameReception_1a_lvs : List (List Int) := [[], [], [], blockLevels [(true, [0x1E, 0x00] ++ ((({ ty := 1, cls := 1, rsp := false, sr := false, flg := false, src := 4, dst := 3, seq := 5, epoch := 0, hops := 7, payload := [9, 9, 0, 0, 0, 2, 0, 0, 0, 0, 1, 0] } : Frame).bytes).set 15 0).take 30), (true, zeros 32)]]

def v_frameReception_1a_b : RxBlock := { lane := 3, number := 0, control := true, body := [0x1E, 0x00] ++ ((({ ty := 1, cls := 1, rsp := false, sr := false, flg := false, src := 4, dst := 3, seq := 5, epoch := 0, hops := 7, payload := [9, 9, 0, 0, 0, 2, 0, 0, 0, 0, 1, 0] } : Frame).bytes).set 15 0).take 30 }

def v_frameReception_1a_sf : List Byte := ((({ ty := 1, cls := 1, rsp := false, sr := false, flg := false, src := 4, dst := 3, seq := 5, epoch := 0, hops := 7, payload := [9, 9, 0, 0, 0, 2, 0, 0, 0, 0, 1, 0] } : Frame).bytes).set 15 0).take 30

theorem wit_frameReception_1a : (st_frameReception_1a.hw.live = true) ∧ (st_frameReception_1a.hw.linkOn = true) ∧
    (st_frameReception_1a.hw.up (.b : Port) = true) ∧
    ((st_frameReception_1a.hw.hear (.b : Port) v_frameReception_1a_lvs).sof = some v_frameReception_1a_b) ∧
    (v_frameReception_1a_sf = (v_frameReception_1a_b.body.drop 2).take 30) ∧ ((v_frameReception_1a_sf.length < 16 ∨
    crc8Bytes (v_frameReception_1a_sf.take 15) ≠ beAt v_frameReception_1a_sf 15 1 ∨
    4096 < lenOf v_frameReception_1a_sf)) := by decide +kernel

theorem test_frameReception_1a : holdsAfter (.frameHeaderReceive (.b : Port) v_frameReception_1a_lvs (0 : Nat) ([] : List TrackObs)) (st_frameReception_1a) (fun x => decide ((x.hw.port (.b : Port)).rx = none ∧ x.hw.get (LNK_RX_ERR_HCHK_ERR (portNo (.b : Port))) = satAdd 16 (st_frameReception_1a.hw.get (LNK_RX_ERR_HCHK_ERR (portNo (.b : Port)))) 1 ∧ x.hw.get (LNK_RX_FRAMES_FRAMES (portNo (.b : Port))) = st_frameReception_1a.hw.get (LNK_RX_FRAMES_FRAMES (portNo (.b : Port))))) = true := by decide +kernel

def st_frameReception_1b : State := with_ (fun h => (let h1 := (((h.put (LNK_STATUS_STATE 1) 4).put (LNK_STATUS_HEALTHY 1) 15).put (LNK_STATUS_ACTIVE 1) 15); h1.setPort .b { h1.port .b with rxSet := 8 }))

def v_frameReception_1b_lvs : List (List Int) := [[], [], [], blockLevels [(true, [0x1E, 0x00] ++ (zeros 15 ++ [255] ++ zeros 14).take 30), (true, zeros 32)]]

def v_frameReception_1b_b : RxBlock := { lane := 3, number := 0, control := true, body := [0x1E, 0x00] ++ (zeros 15 ++ [255] ++ zeros 14).take 30 }

theorem wit_frameReception_1b : (st_frameReception_1b.hw.live = true) ∧ (st_frameReception_1b.hw.linkOn = true) ∧
    (st_frameReception_1b.hw.up (.b : Port) = true) ∧
    ((st_frameReception_1b.hw.hear (.b : Port) v_frameReception_1b_lvs).sof = some v_frameReception_1b_b) ∧
    (((zeros 15 ++ [255] ++ zeros 14).take 30 : List Byte) = (v_frameReception_1b_b.body.drop 2).take 30) ∧
    ((((zeros 15 ++ [255] ++ zeros 14).take 30 : List Byte).length < 16 ∨
    crc8Bytes (((zeros 15 ++ [255] ++ zeros 14).take 30 : List Byte).take 15) ≠ beAt ((zeros 15 ++ [255] ++ zeros 14).take 30 : List Byte) 15 1 ∨
    4096 < lenOf ((zeros 15 ++ [255] ++ zeros 14).take 30 : List Byte))) := by decide +kernel

theorem test_frameReception_1b : holdsAfter (.frameHeaderReceive (.b : Port) v_frameReception_1b_lvs (0 : Nat) ([] : List TrackObs)) (st_frameReception_1b) (fun x => decide ((x.hw.port (.b : Port)).rx = none ∧ x.hw.get (LNK_RX_ERR_HCHK_ERR (portNo (.b : Port))) = satAdd 16 (st_frameReception_1b.hw.get (LNK_RX_ERR_HCHK_ERR (portNo (.b : Port)))) 1 ∧ x.hw.get (LNK_RX_FRAMES_FRAMES (portNo (.b : Port))) = st_frameReception_1b.hw.get (LNK_RX_FRAMES_FRAMES (portNo (.b : Port))))) = true := by decide +kernel

def st_frameReception_2 : State := with_ (fun h => (let h1 := ((((h.put SYS_HUB_ID_ID 3).put (LNK_STATUS_STATE 1) 4).put (LNK_STATUS_HEALTHY 1) 15).put (LNK_STATUS_ACTIVE 1) 15); h1.setPort .b { h1.port .b with rxSet := 8 }))

def v_frameReception_2_lvs : List (List Int) := [[], [], [], blockLevels [(true, [0x1E, 0x00] ++ ((({ ty := 1, cls := 1, rsp := false, sr := false, flg := false, src := 4, dst := 3, seq := 5, epoch := 0, hops := 7, payload := [9, 9, 0, 0, 0, 2, 0, 0, 0, 0, 1, 0] } : Frame).bytes)).take 30), (true, zeros 32)]]

def v_frameReception_2_b : RxBlock := { lane := 3, number := 0, control := true, body := [0x1E, 0x00] ++ ((({ ty := 1, cls := 1, rsp := false, sr := false, flg := false, src := 4, dst := 3, seq := 5, epoch := 0, hops := 7, payload := [9, 9, 0, 0, 0, 2, 0, 0, 0, 0, 1, 0] } : Frame).bytes)).take 30 }

def v_frameReception_2_sf : List Byte := ((({ ty := 1, cls := 1, rsp := false, sr := false, flg := false, src := 4, dst := 3, seq := 5, epoch := 0, hops := 7, payload := [9, 9, 0, 0, 0, 2, 0, 0, 0, 0, 1, 0] } : Frame).bytes)).take 30

theorem wit_frameReception_2 : (st_frameReception_2.hw.live = true) ∧ (st_frameReception_2.hw.linkOn = true) ∧
    (st_frameReception_2.hw.up (.b : Port) = true) ∧
    ((st_frameReception_2.hw.hear (.b : Port) v_frameReception_2_lvs).sof = some v_frameReception_2_b) ∧
    (v_frameReception_2_sf = (v_frameReception_2_b.body.drop 2).take 30) ∧ (16 ≤ v_frameReception_2_sf.length) ∧
    (crc8Bytes (v_frameReception_2_sf.take 15) = beAt v_frameReception_2_sf 15 1) ∧
    (lenOf v_frameReception_2_sf ≤ 4096) ∧
    (st_frameReception_2.hw.frameRoute (frameOf v_frameReception_2_sf ((v_frameReception_2_sf.drop 16).take (lenOf v_frameReception_2_sf))) = (true,
    false)) ∧
    ((frameOf v_frameReception_2_sf ((v_frameReception_2_sf.drop 16).take (lenOf v_frameReception_2_sf))).rsp = false) ∧
    (fifoType (frameOf v_frameReception_2_sf ((v_frameReception_2_sf.drop 16).take (lenOf v_frameReception_2_sf))).ty = true) ∧
    (st_frameReception_2.hw.inDup (frameOf v_frameReception_2_sf ((v_frameReception_2_sf.drop 16).take (lenOf v_frameReception_2_sf))).src (frameOf v_frameReception_2_sf ((v_frameReception_2_sf.drop 16).take (lenOf v_frameReception_2_sf))).seq = false) ∧
    ((st_frameReception_2.hw.net.portA.fifo ++ st_frameReception_2.hw.net.portB.fifo).any (sameCmd (frameOf v_frameReception_2_sf ((v_frameReception_2_sf.drop 16).take (lenOf v_frameReception_2_sf)))) = false) ∧
    ((st_frameReception_2.hw.port (.b : Port)).fifo.length < 64) := by decide +kernel

theorem test_frameReception_2 : holdsAfter (.frameHeaderReceive (.b : Port) v_frameReception_2_lvs (0 : Nat) ([] : List TrackObs)) (st_frameReception_2) (fun x => decide ((x.hw.port (.b : Port)).fifo.getLast?.map (fun e => (e.frame, e.trailer, e.promoted)) = some ((frameOf v_frameReception_2_sf ((v_frameReception_2_sf.drop 16).take (lenOf v_frameReception_2_sf))), none, false) ∧ (x.hw.port (.b : Port)).rx.map (fun r => (r.consumed, r.forwarded, r.queued)) = some (true, false, true))) = true := by decide +kernel

def st_frameReception_3 : State := with_ (fun h => (let h1 := ((((h.put SYS_HUB_ID_ID 3).put (LNK_STATUS_STATE 1) 4).put (LNK_STATUS_HEALTHY 1) 15).put (LNK_STATUS_ACTIVE 1) 15); h1.setPort .b { h1.port .b with rxSet := 8, fifo := List.replicate 64 { frame := { ty := 1, cls := 1, rsp := false, sr := false, flg := false, src := 6, dst := 3, seq := 5, epoch := 0, hops := 7, payload := [] }, hopsArr := 7, order := 1, trailer := some 1, trailerNs := 0, promoted := false, held := false } }))

def v_frameReception_3_lvs : List (List Int) := [[], [], [], blockLevels [(true, [0x1E, 0x00] ++ ((({ ty := 1, cls := 1, rsp := false, sr := false, flg := false, src := 4, dst := 3, seq := 5, epoch := 0, hops := 7, payload := [9, 9, 0, 0, 0, 2, 0, 0, 0, 0, 1, 0] } : Frame).bytes)).take 30), (true, zeros 32)]]

def v_frameReception_3_b : RxBlock := { lane := 3, number := 0, control := true, body := [0x1E, 0x00] ++ ((({ ty := 1, cls := 1, rsp := false, sr := false, flg := false, src := 4, dst := 3, seq := 5, epoch := 0, hops := 7, payload := [9, 9, 0, 0, 0, 2, 0, 0, 0, 0, 1, 0] } : Frame).bytes)).take 30 }

def v_frameReception_3_sf : List Byte := ((({ ty := 1, cls := 1, rsp := false, sr := false, flg := false, src := 4, dst := 3, seq := 5, epoch := 0, hops := 7, payload := [9, 9, 0, 0, 0, 2, 0, 0, 0, 0, 1, 0] } : Frame).bytes)).take 30

theorem wit_frameReception_3 : (st_frameReception_3.hw.live = true) ∧ (st_frameReception_3.hw.linkOn = true) ∧
    (st_frameReception_3.hw.up (.b : Port) = true) ∧
    ((st_frameReception_3.hw.hear (.b : Port) v_frameReception_3_lvs).sof = some v_frameReception_3_b) ∧
    (v_frameReception_3_sf = (v_frameReception_3_b.body.drop 2).take 30) ∧ (16 ≤ v_frameReception_3_sf.length) ∧
    (crc8Bytes (v_frameReception_3_sf.take 15) = beAt v_frameReception_3_sf 15 1) ∧
    (lenOf v_frameReception_3_sf ≤ 4096) ∧
    (st_frameReception_3.hw.frameRoute (frameOf v_frameReception_3_sf ((v_frameReception_3_sf.drop 16).take (lenOf v_frameReception_3_sf))) = (true,
    false)) ∧
    ((frameOf v_frameReception_3_sf ((v_frameReception_3_sf.drop 16).take (lenOf v_frameReception_3_sf))).rsp = false) ∧
    (fifoType (frameOf v_frameReception_3_sf ((v_frameReception_3_sf.drop 16).take (lenOf v_frameReception_3_sf))).ty = true) ∧
    (st_frameReception_3.hw.inDup (frameOf v_frameReception_3_sf ((v_frameReception_3_sf.drop 16).take (lenOf v_frameReception_3_sf))).src (frameOf v_frameReception_3_sf ((v_frameReception_3_sf.drop 16).take (lenOf v_frameReception_3_sf))).seq = false) ∧
    ((st_frameReception_3.hw.net.portA.fifo ++ st_frameReception_3.hw.net.portB.fifo).any (sameCmd (frameOf v_frameReception_3_sf ((v_frameReception_3_sf.drop 16).take (lenOf v_frameReception_3_sf)))) = false) ∧
    ((st_frameReception_3.hw.port (.b : Port)).rx = none) ∧
    (64 ≤ (st_frameReception_3.hw.port (.b : Port)).fifo.length) := by decide +kernel

theorem test_frameReception_3 : holdsAfter (.frameHeaderReceive (.b : Port) v_frameReception_3_lvs (0 : Nat) ([] : List TrackObs)) (st_frameReception_3) (fun x => decide ((x.hw.port (.b : Port)).fifo = (st_frameReception_3.hw.port (.b : Port)).fifo ∧ x.hw.get (LNK_FIFO_BUSY (portNo (.b : Port))) = satAdd 16 (st_frameReception_3.hw.get (LNK_FIFO_BUSY (portNo (.b : Port)))) 1 ∧ (x.hw.port (.b : Port)).rx.map (fun r => (r.queued, r.refused)) = some (false, true))) = true := by decide +kernel

def st_frameReception_4 : State := with_ (fun h => (let h1 := (((h.put (LNK_STATUS_STATE 1) 4).put (LNK_STATUS_HEALTHY 1) 15).put (LNK_STATUS_ACTIVE 1) 15); h1.setPort .b { h1.port .b with rxSet := 8, rx := some { sof := ((({ ty := 1, cls := 1, rsp := false, sr := false, flg := false, src := 4, dst := 3, seq := 5, epoch := 0, hops := 7, payload := [9, 9, 0, 0, 0, 2, 0, 0, 0, 0, 1, 0] } : Frame).bytes).take 30), consumed := true, forwarded := false, queued := true, refused := false, stamp := 0 }, fifo := [{ frame := { ty := 1, cls := 1, rsp := false, sr := false, flg := false, src := 4, dst := 3, seq := 5, epoch := 0, hops := 7, payload := [] }, hopsArr := 7, order := 1, trailer := none, trailerNs := 0, promoted := false, held := false }] }))

def v_frameReception_4_lvs : List (List Int) := [[], [], [], blockLevels [(false, [0, 0] ++ zeros 30), (true, zeros 32)]]

def v_frameReception_4_r : RxFrame := { sof := ((({ ty := 1, cls := 1, rsp := false, sr := false, flg := false, src := 4, dst := 3, seq := 5, epoch := 0, hops := 7, payload := [9, 9, 0, 0, 0, 2, 0, 0, 0, 0, 1, 0] } : Frame).bytes).take 30), consumed := true, forwarded := false, queued := true, refused := false, stamp := 0 }

theorem wit_frameReception_4 : (st_frameReception_4.hw.live = true) ∧ (st_frameReception_4.hw.linkOn = true) ∧
    (st_frameReception_4.hw.up (.b : Port) = true) ∧
    ((st_frameReception_4.hw.port (.b : Port)).rx = some v_frameReception_4_r) ∧
    (¬ (((v_frameReception_4_r.sof ++ (st_frameReception_4.hw.hear (.b : Port) v_frameReception_4_lvs).data).take (20 + lenOf v_frameReception_4_r.sof)).length = 20 + lenOf v_frameReception_4_r.sof ∧
    beNat (((v_frameReception_4_r.sof ++ (st_frameReception_4.hw.hear (.b : Port) v_frameReception_4_lvs).data).take (20 + lenOf v_frameReception_4_r.sof)).drop (16 + lenOf v_frameReception_4_r.sof)) = crc32c (((v_frameReception_4_r.sof ++ (st_frameReception_4.hw.hear (.b : Port) v_frameReception_4_lvs).data).take (20 + lenOf v_frameReception_4_r.sof)).take 14 ++ (((v_frameReception_4_r.sof ++ (st_frameReception_4.hw.hear (.b : Port) v_frameReception_4_lvs).data).take (20 + lenOf v_frameReception_4_r.sof)).drop 16).take (lenOf v_frameReception_4_r.sof)))) := by decide +kernel

theorem test_frameReception_4 : holdsAfter (.frameTrailerCheck (.b : Port) v_frameReception_4_lvs) (st_frameReception_4) (fun x => decide ((x.hw.port (.b : Port)).rx = none ∧ x.hw.get (LNK_RX_ERR_CRC_ERR (portNo (.b : Port))) = satAdd 16 (st_frameReception_4.hw.get (LNK_RX_ERR_CRC_ERR (portNo (.b : Port)))) 1 ∧ (x.hw.port (.b : Port)).fifo = (st_frameReception_4.hw.port (.b : Port)).fifo.filter (fun e => e.trailer.isSome) ∧ x.hw.get (LNK_RX_FRAMES_FRAMES (portNo (.b : Port))) = st_frameReception_4.hw.get (LNK_RX_FRAMES_FRAMES (portNo (.b : Port))))) = true := by decide +kernel

def st_frameReception_5a : State := with_ (fun h => (let h1 := (((h.put (LNK_STATUS_STATE 1) 4).put (LNK_STATUS_HEALTHY 1) 15).put (LNK_STATUS_ACTIVE 1) 15); h1.setPort .b { h1.port .b with rxSet := 8, rx := some { sof := ((({ ty := 1, cls := 1, rsp := false, sr := false, flg := false, src := 4, dst := 3, seq := 5, epoch := 0, hops := 7, payload := [9, 9, 0, 0, 0, 2, 0, 0, 0, 0, 1, 0] } : Frame).bytes).take 30), consumed := true, forwarded := false, queued := true, refused := false, stamp := 0 }, fifo := [{ frame := { ty := 1, cls := 1, rsp := false, sr := false, flg := false, src := 4, dst := 3, seq := 5, epoch := 0, hops := 7, payload := [] }, hopsArr := 7, order := 1, trailer := none, trailerNs := 0, promoted := false, held := false }] }))

def v_frameReception_5a_lvs : List (List Int) := [[], [], [], blockLevels [(false, (({ ty := 1, cls := 1, rsp := false, sr := false, flg := false, src := 4, dst := 3, seq := 5, epoch := 0, hops := 7, payload := [9, 9, 0, 0, 0, 2, 0, 0, 0, 0, 1, 0] } : Frame).bytes).drop 30 ++ zeros 30), (true, zeros 32)]]

def v_frameReception_5a_r : RxFrame := { sof := ((({ ty := 1, cls := 1, rsp := false, sr := false, flg := false, src := 4, dst := 3, seq := 5, epoch := 0, hops := 7, payload := [9, 9, 0, 0, 0, 2, 0, 0, 0, 0, 1, 0] } : Frame).bytes).take 30), consumed := true, forwarded := false, queued := true, refused := false, stamp := 0 }

theorem wit_frameReception_5a : (st_frameReception_5a.hw.live = true) ∧ (st_frameReception_5a.hw.linkOn = true) ∧
    (st_frameReception_5a.hw.up (.b : Port) = true) ∧
    ((st_frameReception_5a.hw.port (.b : Port)).rx = some v_frameReception_5a_r) ∧
    (((v_frameReception_5a_r.sof ++ (st_frameReception_5a.hw.hear (.b : Port) v_frameReception_5a_lvs).data).take (20 + lenOf v_frameReception_5a_r.sof)).length = 20 + lenOf v_frameReception_5a_r.sof ∧
    beNat (((v_frameReception_5a_r.sof ++ (st_frameReception_5a.hw.hear (.b : Port) v_frameReception_5a_lvs).data).take (20 + lenOf v_frameReception_5a_r.sof)).drop (16 + lenOf v_frameReception_5a_r.sof)) = crc32c (((v_frameReception_5a_r.sof ++ (st_frameReception_5a.hw.hear (.b : Port) v_frameReception_5a_lvs).data).take (20 + lenOf v_frameReception_5a_r.sof)).take 14 ++ (((v_frameReception_5a_r.sof ++ (st_frameReception_5a.hw.hear (.b : Port) v_frameReception_5a_lvs).data).take (20 + lenOf v_frameReception_5a_r.sof)).drop 16).take (lenOf v_frameReception_5a_r.sof))) := by decide +kernel

theorem test_frameReception_5a : holdsAfter (.frameTrailerCheck (.b : Port) v_frameReception_5a_lvs) (st_frameReception_5a) (fun x => decide ((x.hw.port (.b : Port)).rx = none ∧ x.hw.get (LNK_RX_FRAMES_FRAMES (portNo (.b : Port))) = satAdd 32 (st_frameReception_5a.hw.get (LNK_RX_FRAMES_FRAMES (portNo (.b : Port)))) 1 ∧ (x.hw.port (.b : Port)).fifo.length = (st_frameReception_5a.hw.port (.b : Port)).fifo.length ∧ (v_frameReception_5a_r.queued = true → (x.hw.port (.b : Port)).fifo.all (fun e => e.trailer.isSome) = true) ∧ (v_frameReception_5a_r.queued = false → (x.hw.port (.b : Port)).fifo = (st_frameReception_5a.hw.port (.b : Port)).fifo))) = true := by decide +kernel

def st_frameReception_5b : State := with_ (fun h => (let h1 := (((h.put (LNK_STATUS_STATE 1) 4).put (LNK_STATUS_HEALTHY 1) 15).put (LNK_STATUS_ACTIVE 1) 15); h1.setPort .b { h1.port .b with rxSet := 8, rx := some { sof := ((({ ty := 1, cls := 1, rsp := false, sr := false, flg := false, src := 4, dst := 3, seq := 5, epoch := 0, hops := 7, payload := [9, 9, 0, 0, 0, 2, 0, 0, 0, 0, 1, 0] } : Frame).bytes).take 30), consumed := true, forwarded := false, queued := false, refused := false, stamp := 0 }, fifo := [{ frame := { ty := 1, cls := 1, rsp := false, sr := false, flg := false, src := 4, dst := 3, seq := 5, epoch := 0, hops := 7, payload := [] }, hopsArr := 7, order := 1, trailer := none, trailerNs := 0, promoted := false, held := false }] }))

def v_frameReception_5b_lvs : List (List Int) := [[], [], [], blockLevels [(false, (({ ty := 1, cls := 1, rsp := false, sr := false, flg := false, src := 4, dst := 3, seq := 5, epoch := 0, hops := 7, payload := [9, 9, 0, 0, 0, 2, 0, 0, 0, 0, 1, 0] } : Frame).bytes).drop 30 ++ zeros 30), (true, zeros 32)]]

def v_frameReception_5b_r : RxFrame := { sof := ((({ ty := 1, cls := 1, rsp := false, sr := false, flg := false, src := 4, dst := 3, seq := 5, epoch := 0, hops := 7, payload := [9, 9, 0, 0, 0, 2, 0, 0, 0, 0, 1, 0] } : Frame).bytes).take 30), consumed := true, forwarded := false, queued := false, refused := false, stamp := 0 }

theorem wit_frameReception_5b : (st_frameReception_5b.hw.live = true) ∧ (st_frameReception_5b.hw.linkOn = true) ∧
    (st_frameReception_5b.hw.up (.b : Port) = true) ∧
    ((st_frameReception_5b.hw.port (.b : Port)).rx = some v_frameReception_5b_r) ∧
    (((v_frameReception_5b_r.sof ++ (st_frameReception_5b.hw.hear (.b : Port) v_frameReception_5b_lvs).data).take (20 + lenOf v_frameReception_5b_r.sof)).length = 20 + lenOf v_frameReception_5b_r.sof ∧
    beNat (((v_frameReception_5b_r.sof ++ (st_frameReception_5b.hw.hear (.b : Port) v_frameReception_5b_lvs).data).take (20 + lenOf v_frameReception_5b_r.sof)).drop (16 + lenOf v_frameReception_5b_r.sof)) = crc32c (((v_frameReception_5b_r.sof ++ (st_frameReception_5b.hw.hear (.b : Port) v_frameReception_5b_lvs).data).take (20 + lenOf v_frameReception_5b_r.sof)).take 14 ++ (((v_frameReception_5b_r.sof ++ (st_frameReception_5b.hw.hear (.b : Port) v_frameReception_5b_lvs).data).take (20 + lenOf v_frameReception_5b_r.sof)).drop 16).take (lenOf v_frameReception_5b_r.sof))) := by decide +kernel

theorem test_frameReception_5b : holdsAfter (.frameTrailerCheck (.b : Port) v_frameReception_5b_lvs) (st_frameReception_5b) (fun x => decide ((x.hw.port (.b : Port)).rx = none ∧ x.hw.get (LNK_RX_FRAMES_FRAMES (portNo (.b : Port))) = satAdd 32 (st_frameReception_5b.hw.get (LNK_RX_FRAMES_FRAMES (portNo (.b : Port)))) 1 ∧ (x.hw.port (.b : Port)).fifo.length = (st_frameReception_5b.hw.port (.b : Port)).fifo.length ∧ (v_frameReception_5b_r.queued = true → (x.hw.port (.b : Port)).fifo.all (fun e => e.trailer.isSome) = true) ∧ (v_frameReception_5b_r.queued = false → (x.hw.port (.b : Port)).fifo = (st_frameReception_5b.hw.port (.b : Port)).fifo))) = true := by decide +kernel

def st_frameSending_1 : State := with_ (fun h => (let h1 := (((h.put (LNK_STATUS_STATE 1) 4).put (LNK_STATUS_HEALTHY 1) 15).put (LNK_STATUS_ACTIVE 1) 15); h1.setPort .b { h1.port .b with fwd := [{ head := [1, 0x20, 0, 4, 0, 9, 0, 0, 0, 5, 0, 0, 0, 0], frame := { ty := 1, cls := 1, rsp := false, sr := false, flg := false, src := 4, dst := 9, seq := 5, epoch := 0, hops := 7, payload := [] }, size := 20, trailer := [1, 2, 3, 4], complete := true, started := false, stamp := 0, sentStamp := 0 }] }))

def v_frameSending_1_e : FwdEntry := { head := [1, 0x20, 0, 4, 0, 9, 0, 0, 0, 5, 0, 0, 0, 0], frame := { ty := 1, cls := 1, rsp := false, sr := false, flg := false, src := 4, dst := 9, seq := 5, epoch := 0, hops := 7, payload := [] }, size := 20, trailer := [1, 2, 3, 4], complete := true, started := false, stamp := 0, sentStamp := 0 }

theorem wit_frameSending_1 : (st_frameSending_1.hw.live = true) ∧ (st_frameSending_1.hw.linkOn = true) ∧
    (st_frameSending_1.hw.pick (.b : Port) = some (.fwd v_frameSending_1_e)) ∧ (v_frameSending_1_e.complete = true) := by decide +kernel

theorem test_frameSending_1 : holdsAfter (.frameForward (.b : Port) (0 : Nat)) (st_frameSending_1) (fun x => decide ((x.hw.port (.b : Port)).fwd = (st_frameSending_1.hw.port (.b : Port)).fwd.erase v_frameSending_1_e ∧ (x.hw.port (.b : Port)).lastSent = fwdBytes v_frameSending_1_e ((st_frameSending_1.hw.fillLanes (.b : Port)).txStamp (.b : Port) (0 : Nat)))) = true := by decide +kernel

def st_frameSending_2 : State := with_ (fun h => (let h1 := (((((h.put (LNK_STATUS_STATE 1) 4).put (LNK_STATUS_HEALTHY 1) 15).put (LNK_STATUS_ACTIVE 1) 15).put (LNK_STATUS_STATE 0) 4).put (LNK_STATUS_ACTIVE 0) 15); h1.setPort .b { h1.port .b with fwd := [{ head := [1, 0x20, 0, 4, 0, 9, 0, 0, 0, 5, 0, 0, 0, 0], frame := { ty := 1, cls := 1, rsp := false, sr := false, flg := false, src := 4, dst := 9, seq := 5, epoch := 0, hops := 7, payload := [0, 0, 0, 0, 0, 0, 0, 0, 0, 0, 0, 0, 0, 0, 0, 0, 0, 0, 0, 0] }, size := 40, trailer := [1, 2, 3, 4], complete := false, started := false, stamp := 0, sentStamp := 0 }] }))

def v_frameSending_2_e : FwdEntry := { head := [1, 0x20, 0, 4, 0, 9, 0, 0, 0, 5, 0, 0, 0, 0], frame := { ty := 1, cls := 1, rsp := false, sr := false, flg := false, src := 4, dst := 9, seq := 5, epoch := 0, hops := 7, payload := [0, 0, 0, 0, 0, 0, 0, 0, 0, 0, 0, 0, 0, 0, 0, 0, 0, 0, 0, 0] }, size := 40, trailer := [1, 2, 3, 4], complete := false, started := false, stamp := 0, sentStamp := 0 }

theorem wit_frameSending_2 : (st_frameSending_2.hw.live = true) ∧ (st_frameSending_2.hw.linkOn = true) ∧
    (st_frameSending_2.hw.pick (.b : Port) = some (.fwd v_frameSending_2_e)) ∧ (v_frameSending_2_e.complete = false) := by decide +kernel

theorem test_frameSending_2 : holdsAfter (.frameForward (.b : Port) (0 : Nat)) (st_frameSending_2) (fun x => decide ((x.hw.port (.b : Port)).fwd = (st_frameSending_2.hw.port (.b : Port)).fwd.map (fun y => if y = v_frameSending_2_e then { v_frameSending_2_e with started := true, sentStamp := ((st_frameSending_2.hw.fillLanes (.b : Port)).txStamp (.b : Port) (0 : Nat)) } else y) ∧ (x.hw.port (.b : Port)).lastSent = (st_frameSending_2.hw.port (.b : Port)).lastSent)) = true := by decide +kernel

def st_frameSending_3 : State := with_ (fun h => (let h1 := (((h.put (LNK_STATUS_STATE 1) 4).put (LNK_STATUS_HEALTHY 1) 15).put (LNK_STATUS_ACTIVE 1) 15); h1.setPort .b { h1.port .b with answers := [{ ty := 1, cls := 1, rsp := false, sr := false, flg := false, src := 4, dst := 3, seq := 5, epoch := 0, hops := 7, payload := [9, 9, 0, 0, 0, 2, 0, 0, 0, 0, 1, 0] }] }))

def v_frameSending_3_f : Frame := { ty := 1, cls := 1, rsp := false, sr := false, flg := false, src := 4, dst := 3, seq := 5, epoch := 0, hops := 7, payload := [9, 9, 0, 0, 0, 2, 0, 0, 0, 0, 1, 0] }

theorem wit_frameSending_3 : (st_frameSending_3.hw.live = true) ∧ (st_frameSending_3.hw.linkOn = true) ∧
    (st_frameSending_3.hw.pick (.b : Port) = some (.answer v_frameSending_3_f)) := by decide +kernel

theorem test_frameSending_3 : holdsAfter (.frameForward (.b : Port) (0 : Nat)) (st_frameSending_3) (fun x => decide ((x.hw.port (.b : Port)).answers = (st_frameSending_3.hw.port (.b : Port)).answers.drop 1 ∧ (x.hw.port (.b : Port)).lastSent = v_frameSending_3_f.bytes)) = true := by decide +kernel

def st_frameSending_4 : State := with_ (fun h => { (((h.put (LNK_STATUS_STATE 1) 4).put (LNK_STATUS_HEALTHY 1) 15).put (LNK_STATUS_ACTIVE 1) 15) with net := { (((h.put (LNK_STATUS_STATE 1) 4).put (LNK_STATUS_HEALTHY 1) 15).put (LNK_STATUS_ACTIVE 1) 15).net with egress := [{ frame := { ty := 1, cls := 1, rsp := false, sr := false, flg := false, src := 4, dst := 3, seq := 5, epoch := 0, hops := 7, payload := [9, 9, 0, 0, 0, 2, 0, 0, 0, 0, 1, 0] }, sentA := false, sentB := false, firstSent := none, pong := false }] } })

def v_frameSending_4_d : EgDesc := { frame := { ty := 1, cls := 1, rsp := false, sr := false, flg := false, src := 4, dst := 3, seq := 5, epoch := 0, hops := 7, payload := [9, 9, 0, 0, 0, 2, 0, 0, 0, 0, 1, 0] }, sentA := false, sentB := false, firstSent := none, pong := false }

theorem wit_frameSending_4 : (st_frameSending_4.hw.live = true) ∧ (st_frameSending_4.hw.linkOn = true) ∧
    (st_frameSending_4.hw.pick (.b : Port) = some (.own v_frameSending_4_d)) ∧ (v_frameSending_4_d.pong = false) := by decide +kernel

theorem test_frameSending_4 : holdsAfter (.egressSend (.b : Port) (0 : Nat)) (st_frameSending_4) (fun x => decide ((x.hw.port (.b : Port)).lastSent = v_frameSending_4_d.frame.bytes ∧ (x.hw.port (.b : Port)).idleSince = st_frameSending_4.hw.ns ∧ (x.hw.port (.b : Port)).fwd = (st_frameSending_4.hw.port (.b : Port)).fwd)) = true := by decide +kernel

def st_frameSending_5 : State := with_ (fun h => { (((h.put (LNK_STATUS_STATE 1) 4).put (LNK_STATUS_HEALTHY 1) 15).put (LNK_STATUS_ACTIVE 1) 15) with net := { (((h.put (LNK_STATUS_STATE 1) 4).put (LNK_STATUS_HEALTHY 1) 15).put (LNK_STATUS_ACTIVE 1) 15).net with egress := [{ frame := { ty := 1, cls := 1, rsp := false, sr := false, flg := false, src := 4, dst := 3, seq := 5, epoch := 0, hops := 7, payload := [9, 9, 0, 0, 0, 2, 0, 0, 0, 0, 1, 0] }, sentA := false, sentB := false, firstSent := none, pong := true }] } })

def v_frameSending_5_d : EgDesc := { frame := { ty := 1, cls := 1, rsp := false, sr := false, flg := false, src := 4, dst := 3, seq := 5, epoch := 0, hops := 7, payload := [9, 9, 0, 0, 0, 2, 0, 0, 0, 0, 1, 0] }, sentA := false, sentB := false, firstSent := none, pong := true }

theorem wit_frameSending_5 : (st_frameSending_5.hw.live = true) ∧ (st_frameSending_5.hw.linkOn = true) ∧
    (st_frameSending_5.hw.pick (.b : Port) = some (.own v_frameSending_5_d)) ∧ (v_frameSending_5_d.pong = true) := by decide +kernel

theorem test_frameSending_5 : holdsAfter (.egressSend (.b : Port) (0 : Nat)) (st_frameSending_5) (fun x => decide ((x.hw.port (.b : Port)).lastSent = ({ v_frameSending_5_d.frame with payload := v_frameSending_5_d.frame.payload.take 24 ++ timeBytesBe ((st_frameSending_5.hw.fillLanes (.b : Port)).txStamp (.b : Port) (0 : Nat)) ++ v_frameSending_5_d.frame.payload.drop 38 } : Frame).bytes ∧ (x.hw.port (.b : Port)).idleSince = st_frameSending_5.hw.ns ∧ (x.hw.port (.b : Port)).fwd = (st_frameSending_5.hw.port (.b : Port)).fwd)) = true := by decide +kernel

def st_frameSending_6 : State := with_ (fun h => { ({ (((h.put (LNK_STATUS_STATE 1) 4).put (LNK_STATUS_HEALTHY 1) 15).put (LNK_STATUS_ACTIVE 1) 15) with net := { (((h.put (LNK_STATUS_STATE 1) 4).put (LNK_STATUS_HEALTHY 1) 15).put (LNK_STATUS_ACTIVE 1) 15).net with egress := [{ frame := { ty := 1, cls := 1, rsp := false, sr := false, flg := false, src := 4, dst := 3, seq := 5, epoch := 0, hops := 7, payload := [9, 9, 0, 0, 0, 2, 0, 0, 0, 0, 1, 0] }, sentA := true, sentB := false, firstSent := some 0, pong := false }] } } : Hw).put STR_FRM_CTL_LAG_US 1 with time := { h.time with tick := 1000 } })

theorem wit_frameSending_6 : (st_frameSending_6.hw.live = true) ∧ (st_frameSending_6.hw.linkOn = true) ∧
    (st_frameSending_6.hw.up (.b : Port) = true) ∧ (st_frameSending_6.hw.get STR_FRM_CTL_LAG_US ≠ 0) := by decide +kernel

theorem test_frameSending_6 : holdsAfter (.egressLagDrop (.b : Port)) (st_frameSending_6) (fun x => decide (x.hw.get (LNK_FWD_DROP_LAG (portNo (.b : Port))) = satAdd 16 (st_frameSending_6.hw.get (LNK_FWD_DROP_LAG (portNo (.b : Port)))) (st_frameSending_6.hw.net.egress.filter (fun d => unsent (.b : Port) d && d.firstSent.any (fun t => st_frameSending_6.hw.due (t + 1000 * st_frameSending_6.hw.get STR_FRM_CTL_LAG_US)))).length)) = true := by decide +kernel

def st_frameSending_7 : State := with_ (fun h => { h.put SYS_HUB_ID_ID 3 with net := { h.net with events := [(.fault 5 1 2 3 77, 0x10007)] } })

theorem wit_frameSending_7 : (st_frameSending_7.hw.live = true) ∧ (st_frameSending_7.hw.coreOn = true) ∧
    (st_frameSending_7.hw.net.events = ((.fault 5 1 2 3 77,
    0x10007) : EventItem × Nat) :: ([] : List (EventItem × Nat))) ∧ (st_frameSending_7.hw.room 4 = true) := by decide +kernel

theorem test_frameSending_7 : holdsAfter (.eventFrameBuild) (st_frameSending_7) (fun x => decide (x.hw.net.egress.length = st_frameSending_7.hw.net.egress.length + 1 ∧ x.hw.net.egress.getLast?.map (fun d => (d.frame.ty, d.frame.cls, d.frame.epoch, d.frame.payload)) = some (0x12, 4, ((.fault 5 1 2 3 77, 0x10007) : EventItem × Nat).2 % 65536, ((((.fault 5 1 2 3 77, 0x10007) : EventItem × Nat) :: ([] : List (EventItem × Nat))).take 102).flatMap (fun e => st_frameSending_7.hw.itemBytes e.1)) ∧ x.hw.net.events = (((.fault 5 1 2 3 77, 0x10007) : EventItem × Nat) :: ([] : List (EventItem × Nat))).drop 102)) = true := by decide +kernel

def st_frameSending_8 : State := with_ (fun h => { h with net := { h.net with evq := [{ cls := 1, src := 5, info := 7 }, { cls := 3, src := 5, info := 7 }, { cls := 3, src := 5, info := 7 }] } })

theorem wit_frameSending_8 : (st_frameSending_8.hw.readable (.portA : Requester) = true) ∧ (st_frameSending_8.frozen = none) ∧
    (evqFirst st_frameSending_8.hw.net.evq = some ({ cls := 3, src := 5, info := 7 } : EvqItem)) := by decide +kernel

theorem test_frameSending_8 : holdsAfter (.fltEvtQueueRead (.portA : Requester)) (st_frameSending_8) (fun x => decide (x.rdata = [evqWord ({ cls := 3, src := 5, info := 7 } : EvqItem)] ∧ x.hw.net.evq = st_frameSending_8.hw.net.evq.erase ({ cls := 3, src := 5, info := 7 } : EvqItem) ∧ x.hw.regs = st_frameSending_8.hw.regs)) = true := by decide +kernel

def st_frameSending_9 : State := up

theorem wit_frameSending_9 : (st_frameSending_9.hw.readable (.mspi : Requester) = true) ∧ (st_frameSending_9.frozen = none) ∧
    (st_frameSending_9.hw.net.evq = []) := by decide +kernel

theorem test_frameSending_9 : holdsAfter (.fltEvtQueueRead (.mspi : Requester)) (st_frameSending_9) (fun x => decide (x = { st_frameSending_9 with rdata := [0], status := 0 })) = true := by decide +kernel

def st_frameSending_10 : State := { up with frozen := some { up.hw with net := { up.hw.net with evq := [{ cls := 2, src := 5, info := 7 }] } } }

def v_frameSending_10_f : Hw := { up.hw with net := { up.hw.net with evq := [{ cls := 2, src := 5, info := 7 }] } }

theorem wit_frameSending_10 : (st_frameSending_10.hw.readable (.mspi : Requester) = true) ∧
    (st_frameSending_10.frozen = some v_frameSending_10_f) := by decide +kernel

theorem test_frameSending_10 : holdsAfter (.fltEvtQueueRead (.mspi : Requester)) (st_frameSending_10) (fun x => decide (x = { st_frameSending_10 with rdata := [v_frameSending_10_f.evqPeek], status := 0 })) = true := by decide +kernel

def st_dualPortControl_1 : State := with_ (fun h => { (let h1 := ((((h.put (LNK_CRC_MON_THR 1) 5).put (LNK_STATUS_STATE 1) 4).put (LNK_STATUS_HEALTHY 1) 15).put (LNK_STATUS_ACTIVE 1) 15); h1.setPort .b { h1.port .b with crcStart := some 9, crcCount := 5 }) with time := { h.time with tick := 2 ^ 50 } })

theorem wit_dualPortControl_1 : (st_dualPortControl_1.hw.live = true) ∧ (st_dualPortControl_1.hw.linkOn = true) ∧
    (st_dualPortControl_1.hw.up (.b : Port) = true) ∧
    ((st_dualPortControl_1.hw.port (.b : Port)).crcStart = some (9 : Nat)) ∧
    (st_dualPortControl_1.hw.due ((9 : Nat) + msNs (st_dualPortControl_1.hw.get (LNK_CRC_MON_WIN_MS (portNo (.b : Port))))) = true) ∧
    ((st_dualPortControl_1.hw.get (LNK_CRC_MON_THR (portNo (.b : Port))) = 0 ∨
    (st_dualPortControl_1.hw.port (.b : Port)).crcCount ≤ st_dualPortControl_1.hw.get (LNK_CRC_MON_THR (portNo (.b : Port))))) := by decide +kernel

theorem test_dualPortControl_1 : holdsAfter (.crcWindowEnd (.b : Port)) (st_dualPortControl_1) (fun x => decide ((x.hw.port (.b : Port)).crcCount = 0 ∧ (x.hw.port (.b : Port)).crcStart = some ((9 : Nat) + msNs (st_dualPortControl_1.hw.get (LNK_CRC_MON_WIN_MS (portNo (.b : Port))))) ∧ (x.hw.port (.b : Port)).crcRate = false ∧ x.hw.present (srcPortCrcRate (portNo (.b : Port))) = false)) = true := by decide +kernel

def st_dualPortControl_2 : State := with_ (fun h => { (let h1 := (((((h.put (LNK_CRC_MON_THR 1) 5).put (FLT_MAP_CLASS 42) 1).put (LNK_STATUS_STATE 1) 4).put (LNK_STATUS_HEALTHY 1) 15).put (LNK_STATUS_ACTIVE 1) 15); h1.setPort .b { h1.port .b with crcStart := some 9, crcCount := 6 }) with time := { h.time with tick := 2 ^ 50 } })

theorem wit_dualPortControl_2 : (st_dualPortControl_2.hw.live = true) ∧ (st_dualPortControl_2.hw.linkOn = true) ∧
    (st_dualPortControl_2.hw.up (.b : Port) = true) ∧
    ((st_dualPortControl_2.hw.port (.b : Port)).crcStart = some (9 : Nat)) ∧
    (st_dualPortControl_2.hw.due ((9 : Nat) + msNs (st_dualPortControl_2.hw.get (LNK_CRC_MON_WIN_MS (portNo (.b : Port))))) = true) ∧
    (st_dualPortControl_2.hw.get (LNK_CRC_MON_THR (portNo (.b : Port))) ≠ 0) ∧
    (st_dualPortControl_2.hw.get (LNK_CRC_MON_THR (portNo (.b : Port))) < (st_dualPortControl_2.hw.port (.b : Port)).crcCount) := by decide +kernel

theorem test_dualPortControl_2 : holdsAfter (.crcWindowEnd (.b : Port)) (st_dualPortControl_2) (fun x => decide ((x.hw.port (.b : Port)).crcCount = 0 ∧ (x.hw.port (.b : Port)).crcRate = true ∧ x.hw.present (srcPortCrcRate (portNo (.b : Port))) = true ∧ (st_dualPortControl_2.hw.present (srcPortCrcRate (portNo (.b : Port))) = false → x.hw.on (statusBit (srcPortCrcRate (portNo (.b : Port)))) = true))) = true := by decide +kernel

def st_dualPortControl_3a : State := with_ (fun h => (((((h.put (LNK_STATUS_STATE 1) 4).put (LNK_STATUS_HEALTHY 1) 15).put (LNK_STATUS_ACTIVE 1) 15)).put (LNK_STATUS_WIDTH 1) 4).put LNK_PORT_STATUS_ACTIVE 0)

theorem wit_dualPortControl_3a : (st_dualPortControl_3a.hw.live = true) ∧ (st_dualPortControl_3a.hw.activeOf = some (.a : Port)) ∧
    (st_dualPortControl_3a.hw.portCause (.a : Port) ≠ 0) ∧ (st_dualPortControl_3a.hw.forcing ≠ some (.a : Port)) := by decide +kernel

theorem test_dualPortControl_3a : holdsAfter (.giveUp) (st_dualPortControl_3a) (fun x => decide (x.hw.on (gaveUp (.a : Port)) = true ∧ x.hw.activePort = (if st_dualPortControl_3a.hw.portCause (otherPort (.a : Port)) = 0 then portNo (otherPort (.a : Port)) else 2) ∧ x.hw.on (statusBit (srcPortGiveUp (portNo (.a : Port)))) = true)) = true := by decide +kernel

def st_dualPortControl_3b : State := with_ (fun h => h.put LNK_PORT_STATUS_ACTIVE 1)

theorem wit_dualPortControl_3b : (st_dualPortControl_3b.hw.live = true) ∧ (st_dualPortControl_3b.hw.activeOf = some (.b : Port)) ∧
    (st_dualPortControl_3b.hw.portCause (.b : Port) ≠ 0) ∧ (st_dualPortControl_3b.hw.forcing ≠ some (.b : Port)) := by decide +kernel

theorem test_dualPortControl_3b : holdsAfter (.giveUp) (st_dualPortControl_3b) (fun x => decide (x.hw.on (gaveUp (.b : Port)) = true ∧ x.hw.activePort = (if st_dualPortControl_3b.hw.portCause (otherPort (.b : Port)) = 0 then portNo (otherPort (.b : Port)) else 2) ∧ x.hw.on (statusBit (srcPortGiveUp (portNo (.b : Port)))) = true)) = true := by decide +kernel

def st_dualPortControl_4a : State := with_ (fun h => (((((h.put (LNK_STATUS_STATE 1) 4).put (LNK_STATUS_HEALTHY 1) 15).put (LNK_STATUS_ACTIVE 1) 15)).put (LNK_STATUS_WIDTH 1) 4).put LNK_PORT_STATUS_ACTIVE 1)

theorem wit_dualPortControl_4a : (st_dualPortControl_4a.hw.live = true) ∧ (st_dualPortControl_4a.hw.activeOf = some (.b : Port)) ∧
    ((st_dualPortControl_4a.hw.portCause (.b : Port) = 0 ∨ st_dualPortControl_4a.hw.forcing = some (.b : Port))) := by decide +kernel

theorem test_dualPortControl_4a : holdsAfter (.giveUp) (st_dualPortControl_4a) (fun x => decide (x = st_dualPortControl_4a)) = true := by decide +kernel

def st_dualPortControl_4b : State := with_ (fun h => ((((((h.put (LNK_STATUS_STATE 1) 4).put (LNK_STATUS_HEALTHY 1) 15).put (LNK_STATUS_ACTIVE 1) 15)).put (LNK_STATUS_WIDTH 1) 1).put LNK_PORT_STATUS_ACTIVE 1).put LNK_PORT_CTL_FORCE 2)

theorem wit_dualPortControl_4b : (st_dualPortControl_4b.hw.live = true) ∧ (st_dualPortControl_4b.hw.activeOf = some (.b : Port)) ∧
    ((st_dualPortControl_4b.hw.portCause (.b : Port) = 0 ∨ st_dualPortControl_4b.hw.forcing = some (.b : Port))) := by decide +kernel

theorem test_dualPortControl_4b : holdsAfter (.giveUp) (st_dualPortControl_4b) (fun x => decide (x = st_dualPortControl_4b)) = true := by decide +kernel

def st_dualPortControl_5 : State := with_ (fun h => (((((h.put (LNK_STATUS_STATE 1) 4).put (LNK_STATUS_HEALTHY 1) 15).put (LNK_STATUS_ACTIVE 1) 15)).put (LNK_STATUS_WIDTH 1) 4).put LNK_PORT_STATUS_ACTIVE 2)

theorem wit_dualPortControl_5 : (st_dualPortControl_5.hw.live = true) ∧ (st_dualPortControl_5.hw.activeOf = none) ∧
    (st_dualPortControl_5.hw.portCause (.b : Port) = 0) := by decide +kernel

theorem test_dualPortControl_5 : holdsAfter (.portHealthy (.b : Port)) (st_dualPortControl_5) (fun x => decide (x.hw.activePort = portNo (if st_dualPortControl_5.hw.portCause st_dualPortControl_5.hw.prefPort = 0 then st_dualPortControl_5.hw.prefPort else (.b : Port)))) = true := by decide +kernel

def st_dualPortControl_6 : State := with_ (fun h => (((((h.put (LNK_STATUS_STATE 1) 4).put (LNK_STATUS_HEALTHY 1) 15).put (LNK_STATUS_ACTIVE 1) 15)).put (LNK_STATUS_WIDTH 1) 4).put LNK_PORT_STATUS_ACTIVE 0)

theorem wit_dualPortControl_6 : (st_dualPortControl_6.hw.live = true) ∧ ((st_dualPortControl_6.hw.activeOf.isSome = true ∨
    st_dualPortControl_6.hw.portCause (.b : Port) ≠ 0)) := by decide +kernel

theorem test_dualPortControl_6 : holdsAfter (.portHealthy (.b : Port)) (st_dualPortControl_6) (fun x => decide (x = st_dualPortControl_6)) = true := by decide +kernel

def st_dualPortControl_7 : State := with_ (fun h => { (h.put LNK_PORT_STATUS_ACTIVE 1) with net := { h.net with holdSince := some 0 }, time := { h.time with tick := 2 ^ 50 } })

theorem wit_dualPortControl_7 : (st_dualPortControl_7.hw.live = true) ∧ (st_dualPortControl_7.hw.net.holdSince = some (0 : Nat)) ∧
    (st_dualPortControl_7.hw.activeOf = some (otherPort st_dualPortControl_7.hw.prefPort)) ∧
    (st_dualPortControl_7.hw.due ((0 : Nat) + msNs (st_dualPortControl_7.hw.get LNK_REVERT_HOLD_HOLD_MS)) = true) := by decide +kernel

theorem test_dualPortControl_7 : holdsAfter (.revertHoldExpire) (st_dualPortControl_7) (fun x => decide (x.hw.activePort = portNo st_dualPortControl_7.hw.prefPort ∧ x.hw.get LNK_SWITCH_COUNT_SWITCHES = satAdd 32 (st_dualPortControl_7.hw.get LNK_SWITCH_COUNT_SWITCHES) 1)) = true := by decide +kernel

def st_dualPortControl_8 : State := with_ (fun h => { (let h1 := (h.put LNK_PORT_STATUS_ACTIVE 0); h1.setPort .b { h1.port .b with fifo := [{ frame := { ty := 1, cls := 1, rsp := false, sr := false, flg := false, src := 4, dst := 3, seq := 5, epoch := 0, hops := 7, payload := [] }, hopsArr := 7, order := 1, trailer := some 1, trailerNs := 0, promoted := false, held := false }] }) with time := { h.time with tick := 2 ^ 50 } })

theorem wit_dualPortControl_8 : (st_dualPortControl_8.hw.live = true) ∧ (st_dualPortControl_8.hw.activeOf = some (otherPort (.b : Port))) := by decide +kernel

theorem test_dualPortControl_8 : holdsAfter (.shadowTimeout) (st_dualPortControl_8) (fun x => decide ((x.hw.port (.b : Port)).fifo = (st_dualPortControl_8.hw.port (.b : Port)).fifo.filter (fun e => !(fun (e : CmdEntry) => e.trailer.isSome && !e.promoted && !e.held && st_dualPortControl_8.hw.due (e.trailerNs + 1000 * max 1 (st_dualPortControl_8.hw.get LNK_PORT_CTL_SHADOW_US))) e) ∧ (x.hw.port (otherPort (.b : Port))).fifo = (st_dualPortControl_8.hw.port (otherPort (.b : Port))).fifo ∧ x.hw.get (LNK_SHADOW_DROPPED (portNo (.b : Port))) = satAdd 16 (st_dualPortControl_8.hw.get (LNK_SHADOW_DROPPED (portNo (.b : Port)))) ((st_dualPortControl_8.hw.port (.b : Port)).fifo.filter (fun (e : CmdEntry) => e.trailer.isSome && !e.promoted && !e.held && st_dualPortControl_8.hw.due (e.trailerNs + 1000 * max 1 (st_dualPortControl_8.hw.get LNK_PORT_CTL_SHADOW_US)))).length)) = true := by decide +kernel

def st_dualPortControl_9 : State := up

theorem wit_dualPortControl_9 : (st_dualPortControl_9.hw.writable (.mspi : Requester) = true) ∧ (st_dualPortControl_9.hw.inField = false) := by decide +kernel

theorem test_dualPortControl_9 : holdsAfter (.forceWrite (.mspi : Requester) (0x2FFF1 : Word)) (st_dualPortControl_9) (fun x => decide (x.hw.get LNK_PORT_CTL_FORCE = bits (0x2FFF1 : Word) 17 16 ∧ x.hw.get LNK_PORT_CTL_SHADOW_US = bits (0x2FFF1 : Word) 15 4 ∧ x.hw.stagedOr LNK_PORT_CTL = (0x2FFF1 : Word) &&& 3)) = true := by decide +kernel

def st_dualPortControl_10 : State := with_ (fun h => (((h.put (LNK_STATUS_STATE 1) 4).put (LNK_STATUS_HEALTHY 1) 15).put (LNK_STATUS_ACTIVE 1) 15))

theorem wit_dualPortControl_10 : (st_dualPortControl_10.hw.writable (.mspi : Requester) = true) ∧ (st_dualPortControl_10.hw.inField = false) ∧
    (bits (0x20010 : Word) 17 16 = portNo (.b : Port) + 1) ∧ (st_dualPortControl_10.hw.portCause (.b : Port) ≠ 1) ∧
    (st_dualPortControl_10.hw.portCause (.b : Port) ≠ 2) := by decide +kernel

theorem test_dualPortControl_10 : holdsAfter (.forceWrite (.mspi : Requester) (0x20010 : Word)) (st_dualPortControl_10) (fun x => decide (x.hw.activePort = portNo (.b : Port))) = true := by decide +kernel

def st_dualPortControl_11 : State := with_ (fun h => h.put LCS_STATE_STATE 2)

theorem wit_dualPortControl_11 : (st_dualPortControl_11.hw.writable (.mspi : Requester) = true) ∧ (st_dualPortControl_11.hw.inField = true) ∧
    (bits (0x2FFF0 : Word) 17 16 ≠ st_dualPortControl_11.hw.get LNK_PORT_CTL_FORCE) := by decide +kernel

theorem test_dualPortControl_11 : holdsAfter (.forceWrite (.mspi : Requester) (0x2FFF0 : Word)) (st_dualPortControl_11) (fun x => decide (x.hw.get LNK_PORT_CTL_FORCE = st_dualPortControl_11.hw.get LNK_PORT_CTL_FORCE ∧ x.hw.on (statusBit srcLcsViolation) = true)) = true := by decide +kernel

def st_dualPortControl_12 : State := with_ (fun h => h.put LCS_STATE_STATE 2)

theorem wit_dualPortControl_12 : (st_dualPortControl_12.hw.writable (.mspi : Requester) = true) ∧ (st_dualPortControl_12.hw.inField = true) ∧
    (bits (0x0FFF0 : Word) 17 16 = st_dualPortControl_12.hw.get LNK_PORT_CTL_FORCE) := by decide +kernel

theorem test_dualPortControl_12 : holdsAfter (.forceWrite (.mspi : Requester) (0x0FFF0 : Word)) (st_dualPortControl_12) (fun x => decide (x.hw.get LNK_PORT_CTL_FORCE = st_dualPortControl_12.hw.get LNK_PORT_CTL_FORCE ∧ x.hw.get LNK_PORT_CTL_SHADOW_US = bits (0x0FFF0 : Word) 15 4 ∧ x.hw.flt = st_dualPortControl_12.hw.flt)) = true := by decide +kernel

def st_calibration_1 : State := with_ (fun h => let h1 := h.put CAL_CTL_FE_EN 1; { h1.put (CAL_TEMP_T 0) 7 with cal := { h1.cal with seen := [(0, some 0)] } })

theorem wit_calibration_1 : (st_calibration_1.hw.live = true) ∧ (st_calibration_1.hw.coreOn = true) ∧ (st_calibration_1.hw.running = true) ∧
    ((8 : Nat) < 360) ∧ (st_calibration_1.hw.feTrackPick = some ((8 : Nat), (none : Option Nat))) ∧
    (st_calibration_1.hw.cal.feStep = none) ∧ (st_calibration_1.hw.on CAL_CTL_FE_EN = true) ∧
    (st_calibration_1.hw.safe = false) ∧ (st_calibration_1.hw.cal.pickHold = false) := by decide +kernel

theorem test_calibration_1 : holdsAfter (.calStepStart (.frontEnd (8 : Nat))) (st_calibration_1) (fun x => decide (x.hw.cal.feStep.map (fun y => (y.unit, y.inPlace, y.retries)) = some ((8 : Nat), (none : Option Nat).isNone, 0) ∧ x.hw.on CAL_STATUS_FE_BUSY = true ∧ x.hw.feRole (8 : Nat) = (if (none : Option Nat) = none then 2 else st_calibration_1.hw.feRole (8 : Nat)))) = true := by decide +kernel

def st_calibration_2 : State := with_ (fun h => let h1 := h.put CAL_CTL_ADC_EN 1; { h1.put (CAL_TEMP_T 8) 7 with cal := { h1.cal with seen := [(8, some 0)] } })

theorem wit_calibration_2 : (st_calibration_2.hw.live = true) ∧ (st_calibration_2.hw.coreOn = true) ∧ (st_calibration_2.hw.running = true) ∧
    ((8 : Nat) < 9) ∧ (st_calibration_2.hw.adcTrackPick = some ((8 : Nat), (none : Option Nat))) ∧
    (st_calibration_2.hw.cal.adcStep = none) ∧ (st_calibration_2.hw.on CAL_CTL_ADC_EN = true) := by decide +kernel

theorem test_calibration_2 : holdsAfter (.calStepStart (.adc (8 : Nat))) (st_calibration_2) (fun x => decide (x.hw.cal.adcStep.map (fun y => (y.unit, y.inPlace, y.retries)) = some ((8 : Nat), (none : Option Nat).isNone, 0) ∧ x.hw.on CAL_STATUS_ADC_BUSY = true ∧ ((none : Option Nat) = none → x.hw.roleOf (8 : Nat) = 2))) = true := by decide +kernel

def st_calibration_3 : State := with_ (fun h => (let h1 := ((h.put SEQ_CAL_RGN_EN 1).put (ADC_CORE_STAT_ROLE 8) 2).put (CAL_ACC_CNT_CNT 15) 9; { h1 with cal := { h1.cal with adcStep := some { unit := 8, inPlace := true, tStart := 0, retries := 0, again := false, plan := [], got := [], first := none } } } : Hw))

theorem wit_calibration_3 : (st_calibration_3.hw.live = true) ∧ (st_calibration_3.hw.calIdle = true) ∧ ((15 : Nat) < 16) ∧
    ((st_calibration_3.hw.feWants || st_calibration_3.hw.adcWants) = true) := by decide +kernel

theorem test_calibration_3 : holdsAfter (.calRunStart) (st_calibration_3) (fun x => decide (x.hw.adc.calRun.map (fun r => (r.pc, r.start)) = some (st_calibration_3.hw.get SEQ_CAL_RGN_BASE, st_calibration_3.hw.time.now) ∧ x.hw.cal.runFe = st_calibration_3.hw.feWants ∧ x.hw.cal.runAdc = st_calibration_3.hw.adcWants ∧ x.hw.accCnt (15 : Nat) = 0)) = true := by decide +kernel

def st_calibration_4 : State := with_ (fun h => { h.put SEQ_CAL_RGN_EN 1 with time := { h.time with tick := 2 ^ 50 } })

theorem wit_calibration_4 : (st_calibration_4.hw.live = true) ∧ (st_calibration_4.hw.calIdle = true) ∧
    ((st_calibration_4.hw.feWants || st_calibration_4.hw.adcWants) = false) ∧
    (st_calibration_4.hw.due (st_calibration_4.hw.cal.lastRun + 100000000) = true) := by decide +kernel

theorem test_calibration_4 : holdsAfter (.calPeriodicRun) (st_calibration_4) (fun x => decide (x.hw.adc.calRun.map (fun r => (r.pc, r.start)) = some (st_calibration_4.hw.get SEQ_CAL_RGN_BASE, st_calibration_4.hw.time.now) ∧ x.hw.cal.lastRun = st_calibration_4.hw.ns)) = true := by decide +kernel

def st_calibration_5 : State := with_ (fun h => { h with cal := { h.cal with runAdc := true, adcStep := some { unit := 8, inPlace := true, tStart := 0, retries := 0, again := false, plan := [], got := [], first := none } }, time := { h.time with tick := 2 ^ 50 } })

theorem wit_calibration_5 : (st_calibration_5.hw.live = true) ∧ ((st_calibration_5.hw.cal.runFe || st_calibration_5.hw.cal.runAdc) = true) ∧
    (st_calibration_5.hw.due (st_calibration_5.hw.cal.runSince + msNs (st_calibration_5.hw.get CAL_STEP_TO_TO_MS)) = true) := by decide +kernel

theorem test_calibration_5 : holdsAfter (.calStepTimeout) (st_calibration_5) (fun x => decide (x.hw.adc.calRun = none ∧ x.hw.cal.runFe = false ∧ x.hw.cal.runAdc = false ∧ (st_calibration_5.hw.cal.runAdc = true → x.hw.cal.adcStep = none) ∧ (st_calibration_5.hw.cal.runFe = true → x.hw.cal.feStep = none))) = true := by decide +kernel

def st_calibration_6 : State := up

theorem wit_calibration_6 : (st_calibration_6.hw.writable (.mspi : Requester) = true) ∧ (natBit (0x80000005 : Word).toNat 31 = true) ∧
    ((359 : Nat) < 360) := by decide +kernel

def st_calibration_7 : State := with_ (fun h => ((((h.put (LNK_STATUS_STATE 1) 4).put (LNK_STATUS_HEALTHY 1) 15).put (LNK_STATUS_ACTIVE 1) 15)).put CAL_CTL_LINK_EN 1)

theorem wit_calibration_7 : (st_calibration_7.hw.live = true) ∧ ((3 : Nat) < 4) ∧ (st_calibration_7.hw.running = true) ∧
    (st_calibration_7.hw.on CAL_CTL_LINK_EN = true) ∧ (st_calibration_7.hw.up (.b : Port) = true) ∧
    (st_calibration_7.hw.isDue (st_calibration_7.hw.delayItem (4 * portNo (.b : Port) + (3 : Nat))) st_calibration_7.hw.laneTemp = true) ∧
    (st_calibration_7.hw.clk.timing.mode = .on) ∧
    (delayChange (List.replicate 128 7 : List Int) 0 = some ([7] : List Int)) ∧
    (delayChange (List.replicate 128 7 : List Int) 1 = some [(7 : Int)]) ∧
    (agree ([7] : List Int) [(7 : Int)] (st_calibration_7.hw.get CAL_AGREE_TAPS_TAPS) = true) := by decide +kernel

theorem test_calibration_7 : holdsAfter (.delayStep (.b : Port) (3 : Nat) (List.replicate 128 7 : List Int)) (st_calibration_7) (fun x => decide (x.hw.get (TIM_DLY_TX_PS (portNo (.b : Port)) (3 : Nat)) = (clampInt 0 65535 ((bits (st_calibration_7.hw.prodReg (TIM_DLY (portNo (.b : Port)) (3 : Nat))) 31 16 : Int) + (7 : Int))).toNat ∧ x.hw.get (TIM_DLY_RX_PS (portNo (.b : Port)) (3 : Nat)) = (clampInt 0 65535 ((bits (st_calibration_7.hw.prodReg (TIM_DLY (portNo (.b : Port)) (3 : Nat))) 15 0 : Int) + (7 : Int))).toNat ∧ (x.hw.delayItem (4 * portNo (.b : Port) + (3 : Nat))).done = true)) = true := by decide +kernel

def st_calibration_8 : State := with_ (fun h => ((((h.put (LNK_STATUS_STATE 1) 4).put (LNK_STATUS_HEALTHY 1) 15).put (LNK_STATUS_ACTIVE 1) 15)).put CAL_CTL_LINK_EN 1)

theorem wit_calibration_8 : (st_calibration_8.hw.live = true) ∧ ((3 : Nat) < 4) ∧ (st_calibration_8.hw.running = true) ∧
    (st_calibration_8.hw.on CAL_CTL_LINK_EN = true) ∧ (st_calibration_8.hw.up (.b : Port) = true) ∧
    (st_calibration_8.hw.isDue (st_calibration_8.hw.delayItem (4 * portNo (.b : Port) + (3 : Nat))) st_calibration_8.hw.laneTemp = true) ∧
    ((st_calibration_8.hw.clk.timing.mode ≠ .on ∨ delayChange ([0, 5] ++ List.replicate 126 0 : List Int) 0 = none)) := by decide +kernel

theorem test_calibration_8 : holdsAfter (.delayStep (.b : Port) (3 : Nat) ([0, 5] ++ List.replicate 126 0 : List Int)) (st_calibration_8) (fun x => decide (x.hw.get CAL_LAST_RESULT = 1 ∧ x.hw.get CAL_LAST_KIND = 3 ∧ x.hw.get CAL_LAST_ITEM = 4 * portNo (.b : Port) + (3 : Nat) ∧ x.hw.get (TIM_DLY_TX_PS (portNo (.b : Port)) (3 : Nat)) = st_calibration_8.hw.get (TIM_DLY_TX_PS (portNo (.b : Port)) (3 : Nat)) ∧ x.hw.get (TIM_DLY_RX_PS (portNo (.b : Port)) (3 : Nat)) = st_calibration_8.hw.get (TIM_DLY_RX_PS (portNo (.b : Port)) (3 : Nat)))) = true := by decide +kernel

def st_calibration_9 : State := with_ (fun h => h.put (LNK_STATUS_STATE 1) 2)

def v_calibration_9_m : List Int := ([4096, 100, 100] ++ List.replicate 64 1 ++ [10, 20, 30, 40]) ++ ([4096, 100, 100] ++ List.replicate 64 1 ++ [10, 20, 30, 40])

def v_calibration_9_a : List Int := (slicerFields ([4096, 100, 100] ++ List.replicate 64 1 ++ [10, 20, 30, 40]) 0).getD []

def v_calibration_9_b : List Int := (slicerFields ([4096, 100, 100] ++ List.replicate 64 1 ++ [10, 20, 30, 40]) 0).getD []

theorem wit_calibration_9 : (st_calibration_9.hw.live = true) ∧ ((3 : Nat) < 4) ∧
    (st_calibration_9.hw.mayRecal (.b : Port) (3 : Nat) = true) ∧
    (slicerFields v_calibration_9_m 0 = some v_calibration_9_a) ∧
    (slicerFields v_calibration_9_m 1 = some v_calibration_9_b) ∧
    (agree (v_calibration_9_a.take 4) (v_calibration_9_b.take 4) (st_calibration_9.hw.get CAL_AGREE_TAPS_TAPS) = true) := by decide +kernel

theorem test_calibration_9 : holdsAfter (.slicerStep (.b : Port) (3 : Nat) v_calibration_9_m) (st_calibration_9) (fun x => decide (x.hw.get (CAL_LINK_PHASE (portNo (.b : Port)) (3 : Nat)) = (v_calibration_9_b.getD 0 0).toNat % 64 ∧ x.hw.get (CAL_LINK_THR_L (portNo (.b : Port)) (3 : Nat)) = (v_calibration_9_b.getD 1 0).toNat % 128 ∧ x.hw.get (CAL_LINK_THR_M (portNo (.b : Port)) (3 : Nat)) = (v_calibration_9_b.getD 2 0).toNat % 128 ∧ x.hw.get (CAL_LINK_THR_U (portNo (.b : Port)) (3 : Nat)) = (v_calibration_9_b.getD 3 0).toNat % 128 ∧ x.hw.on (LNK_TRK_RECAL_PEND (portNo (.b : Port)) (3 : Nat)) = false ∧ x.hw.offset (.b : Port) (3 : Nat) 3 = 0)) = true := by decide +kernel

def st_faultRaises_1a : State := up

theorem wit_faultRaises_1a : (st_faultRaises_1a.hw.live = true) ∧ ((63 : Nat) < 64) := by decide +kernel

theorem test_faultRaises_1a : holdsAfter (.faultRaise (63 : Nat) (5 : Nat)) (st_faultRaises_1a) (fun x => decide (x.hw.on (statusBit (63 : Nat)) = true ∧ (isLevel (63 : Nat) = true → x.hw.present (63 : Nat) = true))) = true := by decide +kernel

def st_faultRaises_1b : State := up

theorem wit_faultRaises_1b : (st_faultRaises_1b.hw.live = true) ∧ ((0 : Nat) < 64) := by decide +kernel

theorem test_faultRaises_1b : holdsAfter (.faultRaise (0 : Nat) (5 : Nat)) (st_faultRaises_1b) (fun x => decide (x.hw.on (statusBit (0 : Nat)) = true ∧ (isLevel (0 : Nat) = true → x.hw.present (0 : Nat) = true))) = true := by decide +kernel

def st_faultRaises_2 : State := with_ (fun h => h.put (FLT_INFO_RAISES 61) 255)

theorem wit_faultRaises_2 : (st_faultRaises_2.hw.live = true) ∧ ((61 : Nat) < 62) ∧ ((61 : Nat) ≠ 29) := by decide +kernel

theorem test_faultRaises_2 : holdsAfter (.faultRaise (61 : Nat) (0x400005 : Nat)) (st_faultRaises_2) (fun x => decide (x.hw.get (FLT_INFO_INFO (61 : Nat)) = (0x400005 : Nat) % 2 ^ 22 ∧ x.hw.get (FLT_INFO_RAISES (61 : Nat)) = satAdd 8 (st_faultRaises_2.hw.get (FLT_INFO_RAISES (61 : Nat))) 1)) = true := by decide +kernel

def st_faultRaises_3a : State := with_ (fun h => h.put (FLT_MAP_EVT 0) 1)

theorem wit_faultRaises_3a : (st_faultRaises_3a.hw.live = true) ∧ ((0 : Nat) < 64) ∧ (st_faultRaises_3a.hw.on (FLT_MAP_EVT (0 : Nat)) = true) := by decide +kernel

theorem test_faultRaises_3a : holdsAfter (.faultRaise (0 : Nat) (0x400005 : Nat)) (st_faultRaises_3a) (fun x => decide (x.hw.net.events[st_faultRaises_3a.hw.net.events.length]? = some (.fault (0 : Nat) (st_faultRaises_3a.hw.get (FLT_MAP_CLASS (0 : Nat))) (satAdd 8 (st_faultRaises_3a.hw.get (FLT_INFO_RAISES (0 : Nat))) 1) ((0x400005 : Nat) % 2 ^ 22) st_faultRaises_3a.hw.time.now, st_faultRaises_3a.hw.get SYS_EPOCH_EPOCH))) = true := by decide +kernel

def st_faultRaises_3b : State := with_ (fun h => h.put (FLT_MAP_EVT 63) 1)

theorem wit_faultRaises_3b : (st_faultRaises_3b.hw.live = true) ∧ ((63 : Nat) < 64) ∧ (st_faultRaises_3b.hw.on (FLT_MAP_EVT (63 : Nat)) = true) := by decide +kernel

theorem test_faultRaises_3b : holdsAfter (.faultRaise (63 : Nat) (0x400005 : Nat)) (st_faultRaises_3b) (fun x => decide (x.hw.net.events[st_faultRaises_3b.hw.net.events.length]? = some (.fault (63 : Nat) (st_faultRaises_3b.hw.get (FLT_MAP_CLASS (63 : Nat))) (satAdd 8 (st_faultRaises_3b.hw.get (FLT_INFO_RAISES (63 : Nat))) 1) ((0x400005 : Nat) % 2 ^ 22) st_faultRaises_3b.hw.time.now, st_faultRaises_3b.hw.get SYS_EPOCH_EPOCH))) = true := by decide +kernel

def st_faultRaises_4 : State := with_ (fun h => h.put (FLT_MAP_EVQ 8) 1)

theorem wit_faultRaises_4 : (st_faultRaises_4.hw.live = true) ∧ ((8 : Nat) < 64) ∧ (st_faultRaises_4.hw.on (FLT_MAP_EVQ (8 : Nat)) = true) ∧
    (st_faultRaises_4.hw.net.evq.length < 256) := by decide +kernel

theorem test_faultRaises_4 : holdsAfter (.faultRaise (8 : Nat) (0x400005 : Nat)) (st_faultRaises_4) (fun x => decide (x.hw.net.evq[st_faultRaises_4.hw.net.evq.length]? = some { cls := st_faultRaises_4.hw.get (FLT_MAP_CLASS (8 : Nat)), src := (8 : Nat), info := (0x400005 : Nat) % 2 ^ 22 })) = true := by decide +kernel

def st_faultRaises_5 : State := with_ (fun h => (h.put (causeBit 48) 1).put (statusBit 48) 1)

theorem wit_faultRaises_5 : (st_faultRaises_5.hw.live = true) ∧ ((48 : Nat) < 64) ∧ (isLevel (48 : Nat) = true) := by decide +kernel

theorem test_faultRaises_5 : holdsAfter (.faultCauseEnd (48 : Nat)) (st_faultRaises_5) (fun x => decide (x.hw.present (48 : Nat) = false ∧ x.hw.on (statusBit (48 : Nat)) = st_faultRaises_5.hw.on (statusBit (48 : Nat)))) = true := by decide +kernel

def st_faultRaises_6a : State := with_ (fun h => (h.setTimer 61 (some 0)).put (statusBit 61) 1)

theorem wit_faultRaises_6a : (st_faultRaises_6a.hw.live = true) ∧ ((61 : Nat) < 64) ∧
    (storeGet (fun _ => none) st_faultRaises_6a.hw.flt.timers (61 : Nat) = some (0 : Nat)) ∧
    (st_faultRaises_6a.hw.due (0 : Nat) = true) ∧ (st_faultRaises_6a.hw.on (statusBit (61 : Nat)) = true) := by decide +kernel

theorem test_faultRaises_6a : holdsAfter (.reactionTimerExpire (61 : Nat)) (st_faultRaises_6a) (fun x => decide (x.hw.forceOf (61 : Nat) = some (st_faultRaises_6a.hw.reactOf (61 : Nat)) ∧ storeGet (fun _ => none) x.hw.flt.timers (61 : Nat) = none ∧ x.hw.on (statusBit srcEscalated) = true)) = true := by decide +kernel

def st_faultRaises_6b : State := with_ (fun h => (h.setTimer 63 (some 0)).put (statusBit 63) 1)

theorem wit_faultRaises_6b : (st_faultRaises_6b.hw.live = true) ∧ ((63 : Nat) < 64) ∧
    (storeGet (fun _ => none) st_faultRaises_6b.hw.flt.timers (63 : Nat) = some (0 : Nat)) ∧
    (st_faultRaises_6b.hw.due (0 : Nat) = true) ∧ (st_faultRaises_6b.hw.on (statusBit (63 : Nat)) = true) := by decide +kernel

theorem test_faultRaises_6b : holdsAfter (.reactionTimerExpire (63 : Nat)) (st_faultRaises_6b) (fun x => decide (x.hw.forceOf (63 : Nat) = some (st_faultRaises_6b.hw.reactOf (63 : Nat)) ∧ storeGet (fun _ => none) x.hw.flt.timers (63 : Nat) = none ∧ x.hw.on (statusBit srcEscalated) = true)) = true := by decide +kernel

def st_faultRaises_7a : State := up

theorem wit_faultRaises_7a : (st_faultRaises_7a.hw.live = true) ∧ ((0 : Nat) < 8) := by decide +kernel

theorem test_faultRaises_7a : holdsAfter (.supplyMonitorTrip (0 : Nat)) (st_faultRaises_7a) (fun x => decide (x.hw.on (statusBit (railSource (0 : Nat)).1) = true ∧ x.hw.boot.armed.contains (0 : Nat) = true)) = true := by decide +kernel

def st_faultRaises_7b : State := up

theorem wit_faultRaises_7b : (st_faultRaises_7b.hw.live = true) ∧ ((7 : Nat) < 8) := by decide +kernel

theorem test_faultRaises_7b : holdsAfter (.supplyMonitorTrip (7 : Nat)) (st_faultRaises_7b) (fun x => decide (x.hw.on (statusBit (railSource (7 : Nat)).1) = true ∧ x.hw.boot.armed.contains (7 : Nat) = true)) = true := by decide +kernel

def st_faultRaises_8 : State := with_ (fun h => { h.put SYS_BOOT_WAIT_FIELD 1 with time := { h.time with tick := 2 ^ 40 } })

theorem wit_faultRaises_8 : (st_faultRaises_8.hw.live = true) ∧ (3 ≤ (3 : Nat)) ∧ ((3 : Nat) < 8) ∧
    (st_faultRaises_8.hw.due 1000000000 = true) ∧ (st_faultRaises_8.hw.boot.armed.contains (3 : Nat) = false) ∧
    (st_faultRaises_8.hw.on SYS_BOOT_WAIT_FIELD = true) := by decide +kernel

theorem test_faultRaises_8 : holdsAfter (.fieldRailTimeout (3 : Nat)) (st_faultRaises_8) (fun x => decide (x.hw.on (statusBit (railSource (3 : Nat)).1) = true)) = true := by decide +kernel

def st_faultRaises_9 : State := with_ (fun h => { h.put SYS_BOOT_WAIT_FIELD 1 with time := { h.time with tick := 24999999 } })

theorem wit_faultRaises_9 : (st_faultRaises_9.hw.live = true) ∧ (3 ≤ (7 : Nat)) ∧ ((7 : Nat) < 8) ∧
    ((st_faultRaises_9.hw.due 1000000000 = false ∨ st_faultRaises_9.hw.boot.armed.contains (7 : Nat) = true)) := by decide +kernel

theorem test_faultRaises_9 : holdsAfter (.fieldRailTimeout (7 : Nat)) (st_faultRaises_9) (fun x => decide (x = st_faultRaises_9)) = true := by decide +kernel

def st_faultRaises_10 : State := up

theorem wit_faultRaises_10 : (st_faultRaises_10.hw.live = true) ∧ (st_faultRaises_10.hw.boot.refclkLost = false) ∧ ((8 : Nat) < 9) := by decide +kernel

theorem test_faultRaises_10 : holdsAfter (.refclkLoss) (st_faultRaises_10) (fun x => decide (x.hw.boot.refclkLost = true ∧ x.hw.coreOn = false ∧ x.hw.clk.timing.mode = .off ∧ x.hw.clk.stitch.mode = .off ∧ (x.hw.dom (.conv (8 : Nat))).mode = .off ∧ x.hw.on (statusBit srcRefclkLoss) = true)) = true := by decide +kernel

def st_faultRaises_11 : State := with_ (fun h => { h with boot := { h.boot with refclkLost := true } })

theorem wit_faultRaises_11 : (st_faultRaises_11.hw.live = true) ∧ (st_faultRaises_11.hw.boot.refclkLost = true) := by decide +kernel

theorem test_faultRaises_11 : holdsAfter (.refclkLoss) (st_faultRaises_11) (fun x => decide (x = st_faultRaises_11)) = true := by decide +kernel

def st_faultClearing_1a : State := with_ (fun h => ((h.put (statusBit 63) 1).setForce 63 (some 1)).setTimer 63 (some 7))

theorem wit_faultClearing_1a : (st_faultClearing_1a.hw.writable (.mspi : Requester) = true) ∧ ((31 : Nat) < 32) ∧
    (natBit (0x80000000 : Word).toNat (31 : Nat) = true) ∧
    (st_faultClearing_1a.hw.on (statusBit ((if (true : Bool) then 32 else 0) + (31 : Nat))) = true) ∧
    (st_faultClearing_1a.hw.present ((if (true : Bool) then 32 else 0) + (31 : Nat)) = false) := by decide +kernel

theorem test_faultClearing_1a : holdsAfter (.faultStatusClear (.mspi : Requester) (true : Bool) (0x80000000 : Word)) (st_faultClearing_1a) (fun x => decide (x.hw.on (statusBit ((if (true : Bool) then 32 else 0) + (31 : Nat))) = false ∧ x.hw.forceOf ((if (true : Bool) then 32 else 0) + (31 : Nat)) = none ∧ storeGet (fun _ => none) x.hw.flt.timers ((if (true : Bool) then 32 else 0) + (31 : Nat)) = none)) = true := by decide +kernel

def st_faultClearing_1b : State := with_ (fun h => (h.put (statusBit 0) 1))

theorem wit_faultClearing_1b : (st_faultClearing_1b.hw.writable (.mspi : Requester) = true) ∧ ((0 : Nat) < 32) ∧
    (natBit (1 : Word).toNat (0 : Nat) = true) ∧
    (st_faultClearing_1b.hw.on (statusBit ((if (false : Bool) then 32 else 0) + (0 : Nat))) = true) ∧
    (st_faultClearing_1b.hw.present ((if (false : Bool) then 32 else 0) + (0 : Nat)) = false) := by decide +kernel

theorem test_faultClearing_1b : holdsAfter (.faultStatusClear (.mspi : Requester) (false : Bool) (1 : Word)) (st_faultClearing_1b) (fun x => decide (x.hw.on (statusBit ((if (false : Bool) then 32 else 0) + (0 : Nat))) = false ∧ x.hw.forceOf ((if (false : Bool) then 32 else 0) + (0 : Nat)) = none ∧ storeGet (fun _ => none) x.hw.flt.timers ((if (false : Bool) then 32 else 0) + (0 : Nat)) = none)) = true := by decide +kernel

def st_faultClearing_2 : State := with_ (fun h => (h.put (statusBit 48) 1).put (causeBit 48) 1)

theorem wit_faultClearing_2 : (st_faultClearing_2.hw.writable (.mspi : Requester) = true) ∧ ((16 : Nat) < 32) ∧
    ((natBit (0xFFFFFFFF : Word).toNat (16 : Nat) = false ∨
    st_faultClearing_2.hw.present ((if (true : Bool) then 32 else 0) + (16 : Nat)) = true)) := by decide +kernel

theorem test_faultClearing_2 : holdsAfter (.faultStatusClear (.mspi : Requester) (true : Bool) (0xFFFFFFFF : Word)) (st_faultClearing_2) (fun x => decide (x.hw.on (statusBit ((if (true : Bool) then 32 else 0) + (16 : Nat))) = st_faultClearing_2.hw.on (statusBit ((if (true : Bool) then 32 else 0) + (16 : Nat))))) = true := by decide +kernel

def st_faultClearing_3 : State := with_ (fun h => { h with flt := { h.flt with ending := [(13, 1, [5]), (8, 1, [5])] } })

theorem wit_faultClearing_3 : (st_faultClearing_3.hw.live = true) ∧ ((8 : Nat) < 64) ∧ (st_faultClearing_3.hw.boundaryNow = some (0 : Nat)) := by decide +kernel

theorem test_faultClearing_3 : holdsAfter (.parkEnd (8 : Nat)) (st_faultClearing_3) (fun x => decide (x.hw.flt.ending = st_faultClearing_3.hw.flt.ending.filter (fun e => decide (e.1 ≠ (8 : Nat))))) = true := by decide +kernel

def st_faultClearing_4a : State := with_ (fun h => { h with field := { h.field with closed := [(5, 1)], inputs := [(5, some 5)] } })

theorem wit_faultClearing_4a : (st_faultClearing_4a.hw.writable (.mspi : Requester) = true) ∧ (natBit (0x80000000 : Word).toNat 31 = true) ∧
    (natBit (0x80000000 : Word).toNat 30 = false) := by decide +kernel

theorem test_faultClearing_4a : holdsAfter (.safeEnter (.mspi : Requester) (0x80000000 : Word)) (st_faultClearing_4a) (fun x => decide (x.hw.safe = true ∧ x.hw.get FLT_SAFE_SOURCE = (if st_faultClearing_4a.hw.safe = true ∧ st_faultClearing_4a.hw.flt.safeEnding = false then st_faultClearing_4a.hw.get FLT_SAFE_SOURCE else 0x40) ∧ x.hw.field.closed = [] ∧ x.hw.field.closedIn = [] ∧ x.hw.field.inputs = [] ∧ x.hw.flt.safeEnding = false)) = true := by decide +kernel

def st_faultClearing_4b : State := with_ (fun h => (h.put FLT_SAFE_ACTIVE 1).put FLT_SAFE_SOURCE 8)

theorem wit_faultClearing_4b : (st_faultClearing_4b.hw.writable (.mspi : Requester) = true) ∧ (natBit (0x80000000 : Word).toNat 31 = true) ∧
    (natBit (0x80000000 : Word).toNat 30 = false) := by decide +kernel

theorem test_faultClearing_4b : holdsAfter (.safeEnter (.mspi : Requester) (0x80000000 : Word)) (st_faultClearing_4b) (fun x => decide (x.hw.safe = true ∧ x.hw.get FLT_SAFE_SOURCE = (if st_faultClearing_4b.hw.safe = true ∧ st_faultClearing_4b.hw.flt.safeEnding = false then st_faultClearing_4b.hw.get FLT_SAFE_SOURCE else 0x40) ∧ x.hw.field.closed = [] ∧ x.hw.field.closedIn = [] ∧ x.hw.field.inputs = [] ∧ x.hw.flt.safeEnding = false)) = true := by decide +kernel

def st_faultClearing_5 : State := with_ (fun h => h.put FLT_SAFE_ACTIVE 1)

theorem wit_faultClearing_5 : (st_faultClearing_5.hw.writable (.mspi : Requester) = true) ∧ (natBit (0x40000000 : Word).toNat 31 = false) ∧
    (natBit (0x40000000 : Word).toNat 30 = true) ∧ (st_faultClearing_5.hw.inField = false) ∧
    (st_faultClearing_5.hw.safe = true) ∧
    ((List.range 64).any (fun i => st_faultClearing_5.hw.on (statusBit i) && decide (st_faultClearing_5.hw.get (FLT_MAP_REACT i) = 4)) = false) := by decide +kernel

theorem test_faultClearing_5 : holdsAfter (.safeResume (.mspi : Requester) (0x40000000 : Word)) (st_faultClearing_5) (fun x => decide (x.hw.flt.safeEnding = true ∧ x.hw.safe = true)) = true := by decide +kernel

def st_faultClearing_6 : State := with_ (fun h => ((h.put FLT_SAFE_ACTIVE 1).put (statusBit 63) 1).put (FLT_MAP_REACT 63) 4)

theorem wit_faultClearing_6 : (st_faultClearing_6.hw.writable (.mspi : Requester) = true) ∧ (natBit (0x40000000 : Word).toNat 31 = false) ∧
    (natBit (0x40000000 : Word).toNat 30 = true) ∧ (st_faultClearing_6.hw.inField = false) ∧
    (st_faultClearing_6.hw.safe = true) ∧
    ((List.range 64).any (fun i => st_faultClearing_6.hw.on (statusBit i) && decide (st_faultClearing_6.hw.get (FLT_MAP_REACT i) = 4)) = true) := by decide +kernel

theorem test_faultClearing_6 : holdsAfter (.safeResume (.mspi : Requester) (0x40000000 : Word)) (st_faultClearing_6) (fun x => decide (x.hw.flt.safeEnding = st_faultClearing_6.hw.flt.safeEnding ∧ x.hw.on FLT_SAFE_REFUSED = true ∧ x.hw.safe = true)) = true := by decide +kernel

def st_faultClearing_7 : State := up

theorem wit_faultClearing_7 : (st_faultClearing_7.hw.writable (.mspi : Requester) = true) ∧ (natBit (0x40000000 : Word).toNat 31 = false) ∧
    (natBit (0x40000000 : Word).toNat 30 = true) ∧ (st_faultClearing_7.hw.inField = false) ∧
    (st_faultClearing_7.hw.safe = false) := by decide +kernel

theorem test_faultClearing_7 : holdsAfter (.safeResume (.mspi : Requester) (0x40000000 : Word)) (st_faultClearing_7) (fun x => decide (x.hw.flt = st_faultClearing_7.hw.flt ∧ x.hw.safe = false)) = true := by decide +kernel

def st_faultClearing_8 : State := with_ (fun h => (h.put LCS_STATE_STATE 2).put FLT_SAFE_ACTIVE 1)

theorem wit_faultClearing_8 : (st_faultClearing_8.hw.writable (.mspi : Requester) = true) ∧ (natBit (0x40000000 : Word).toNat 31 = false) ∧
    (natBit (0x40000000 : Word).toNat 30 = true) ∧ (st_faultClearing_8.hw.inField = true) := by decide +kernel

theorem test_faultClearing_8 : holdsAfter (.safeResume (.mspi : Requester) (0x40000000 : Word)) (st_faultClearing_8) (fun x => decide (x.hw.on (statusBit srcLcsViolation) = true ∧ (st_faultClearing_8.hw.safe = true → x.hw.safe = true))) = true := by decide +kernel

def st_faultClearing_9 : State := with_ (fun h => { h.put FLT_SAFE_ACTIVE 1 with flt := { h.flt with safeEnding := true } })

theorem wit_faultClearing_9 : (st_faultClearing_9.hw.live = true) ∧ (st_faultClearing_9.hw.boundaryNow = some (0 : Nat)) ∧
    (st_faultClearing_9.hw.safe = true) ∧ (st_faultClearing_9.hw.flt.safeEnding = true) := by decide +kernel

def st_faultClearing_10 : State := with_ (fun h => { h.put FLT_SAFE_ACTIVE 1 with smp := { h.smp with lastBoundary := none }, flt := { h.flt with safeEnding := true } })

theorem wit_faultClearing_10 : (st_faultClearing_10.hw.live = true) ∧ ((st_faultClearing_10.hw.boundaryNow = none ∨
    st_faultClearing_10.hw.safe = false ∨ st_faultClearing_10.hw.flt.safeEnding = false)) := by decide +kernel

theorem test_faultClearing_10 : holdsAfter (.safeEnd) (st_faultClearing_10) (fun x => decide (x = st_faultClearing_10)) = true := by decide +kernel

def st_faultClearing_11 : State := with_ (fun h => { h with flt := { h.flt with faultNUntil := some 5 } })

theorem wit_faultClearing_11 : (st_faultClearing_11.hw.live = true) ∧ (st_faultClearing_11.hw.flt.faultNUntil = some (5 : Nat)) ∧
    (st_faultClearing_11.hw.due (5 : Nat) = true) := by decide +kernel

theorem test_faultClearing_11 : holdsAfter (.faultNMinwEnd) (st_faultClearing_11) (fun x => decide (x.hw.flt.faultNUntil = none ∧ x.hw.faultNLow = (st_faultClearing_11.hw.flt.faultNBoot || st_faultClearing_11.hw.hardStatus))) = true := by decide +kernel

def st_recorder_1 : State := with_ (fun h => h.put REC_CTL_EN 1)

theorem wit_recorder_1 : (st_recorder_1.hw.writable (.portA : Requester) = true) ∧ (natBit (0x80000005 : Word).toNat 31 = true) ∧
    (st_recorder_1.hw.on REC_CTL_EN = true) ∧ (st_recorder_1.hw.xingTakes 0 = true) := by decide +kernel

theorem test_recorder_1 : holdsAfter (.recTrigger (.portA : Requester) (0x80000005 : Word)) (st_recorder_1) (fun x => decide (x.hw.recd.atCrossing.length = st_recorder_1.hw.recd.atCrossing.length + 1 ∧ x.hw.recd.atCrossing.getLast?.map (fun t => (t.code, t.time, t.words, t.epoch)) = some (0x41, st_recorder_1.hw.time.now, none, st_recorder_1.hw.get SYS_EPOCH_EPOCH) ∧ (x.hw.xing 0).busy = true ∧ x.hw.stagedOr REC_CTL = (0x80000005 : Word) &&& 0x3F0F)) = true := by decide +kernel

def st_recorder_2 : State := with_ (fun h => h.put REC_CTL_EN 0)

theorem wit_recorder_2 : (st_recorder_2.hw.writable (.portA : Requester) = true) ∧ ((natBit (0x80000005 : Word).toNat 31 = false ∨
    st_recorder_2.hw.on REC_CTL_EN = false ∨ st_recorder_2.hw.xingTakes 0 = false)) := by decide +kernel

theorem test_recorder_2 : holdsAfter (.recTrigger (.portA : Requester) (0x80000005 : Word)) (st_recorder_2) (fun x => decide (x.hw.recd = st_recorder_2.hw.recd ∧ x.hw.stagedOr REC_CTL = (0x80000005 : Word) &&& 0x3F0F)) = true := by decide +kernel

def st_recorder_3 : State := with_ (fun h => ({ (((h.put CFG_NVM_SFDP_OK 1).put REC_REGION_SIZE_MIB 1).put REC_CTL_SEND 0) with recd := { ((((h.put CFG_NVM_SFDP_OK 1).put REC_REGION_SIZE_MIB 1).put REC_CTL_SEND 0)).recd with staging := [({ code := 5, time := 0, tq := 0, opsec := 0, woke := false, words := none, epoch := 0 }, 255)], slots := [(255, some { whole := false, seq := 7, code := 5, flushed := false, sent := false, epoch := 0 })] } } : Hw))

def v_recorder_3_t : RecTrig := { code := 5, time := 0, tq := 0, opsec := 0, woke := false, words := none, epoch := 0 }

def v_recorder_3_y : RecSlot := { whole := false, seq := 7, code := 5, flushed := false, sent := false, epoch := 0 }

theorem wit_recorder_3 : (st_recorder_3.hw.live = true) ∧ (st_recorder_3.hw.coreOn = true) ∧
    (st_recorder_3.hw.recd.staging = (v_recorder_3_t, (255 : Nat)) :: ([] : List (RecTrig × Nat))) ∧
    (st_recorder_3.hw.recSlot (255 : Nat) = some v_recorder_3_y) ∧ (v_recorder_3_y.flushed = false) ∧
    (st_recorder_3.hw.hasRegion = true) ∧ (st_recorder_3.hw.on REC_CTL_SEND = false) := by decide +kernel

theorem test_recorder_3 : holdsAfter (.recordAssemble) (st_recorder_3) (fun x => decide (x.hw.recd.staging = ([] : List (RecTrig × Nat)) ∧ x.hw.recSlot (255 : Nat) = some { v_recorder_3_y with whole := true } ∧ (x.hw.xing 1).busy = true)) = true := by decide +kernel

def st_recorder_4 : State := with_ (fun h => ({ ((((h.put CFG_NVM_SFDP_OK 1).put REC_REGION_SIZE_MIB 1).put REC_STATUS_SCAN_DONE 1).writeSlot 255 (List.replicate 256 3)) with recd := { (((((h.put CFG_NVM_SFDP_OK 1).put REC_REGION_SIZE_MIB 1).put REC_STATUS_SCAN_DONE 1).writeSlot 255 (List.replicate 256 3))).recd with slots := [(255, some { whole := true, seq := 7, code := 5, flushed := false, sent := false, epoch := 0 })], opsecInit := true } } : Hw))

def v_recorder_4_y : RecSlot := { whole := true, seq := 7, code := 5, flushed := false, sent := false, epoch := 0 }

theorem wit_recorder_4 : (st_recorder_4.hw.live = true) ∧ (st_recorder_4.hw.flushReady = true) ∧
    ((st_recorder_4.hw.slotOrder (fun w => !w.flushed)).head? = some ((255 : Nat), v_recorder_4_y)) ∧
    (v_recorder_4_y.whole = true) ∧
    (st_recorder_4.hw.readSlot (255 : Nat) = some (List.replicate 256 3 : List Byte)) ∧
    (st_recorder_4.hw.goodPage st_recorder_4.hw.ringPages st_recorder_4.hw.recd.nextPage = some (0 : Nat)) ∧
    ((List.replicate 256 3 : List Byte).length = 256) ∧ (((0 : Nat) % 16 = 0 ∨
    st_recorder_4.hw.nvmBytes (st_recorder_4.hw.pageAddr (0 : Nat)) 256 = List.replicate 256 nvm0)) := by decide +kernel

def st_recorder_5 : State := with_ (fun h => ({ ((((h.put CFG_NVM_SFDP_OK 1).put REC_REGION_SIZE_MIB 1).put REC_STATUS_SCAN_DONE 1).writeSlot 255 (List.replicate 256 3)) with recd := { (((((h.put CFG_NVM_SFDP_OK 1).put REC_REGION_SIZE_MIB 1).put REC_STATUS_SCAN_DONE 1).writeSlot 255 (List.replicate 256 3))).recd with slots := [(255, some { whole := true, seq := 7, code := 5, flushed := false, sent := false, epoch := 0 })], opsecInit := true } } : Hw))

def v_recorder_5_y : RecSlot := { whole := true, seq := 7, code := 5, flushed := false, sent := false, epoch := 0 }

theorem wit_recorder_5 : (st_recorder_5.hw.live = true) ∧ (st_recorder_5.hw.flushReady = true) ∧
    ((st_recorder_5.hw.slotOrder (fun w => !w.flushed)).head? = some ((255 : Nat), v_recorder_5_y)) ∧
    (v_recorder_5_y.whole = true) ∧
    (st_recorder_5.hw.readSlot (255 : Nat) = some (List.replicate 256 3 : List Byte)) ∧
    (st_recorder_5.hw.goodPage st_recorder_5.hw.ringPages st_recorder_5.hw.recd.nextPage = some (0 : Nat)) ∧
    (st_recorder_5.hw.recd.badSectors.length < 32) := by decide +kernel

def st_recorder_6 : State := with_ (fun h => ({ h with recd := { (h).recd with opsecInit := true } } : Hw))

theorem wit_recorder_6 : (st_recorder_6.hw.live = true) ∧ (st_recorder_6.hw.coreOn = true) ∧ (st_recorder_6.hw.running = true) ∧
    (st_recorder_6.hw.recd.opsecInit = true) ∧ (st_recorder_6.hw.on REC_STATUS_SCAN_DONE = false) := by decide +kernel

theorem test_recorder_6 : holdsAfter (.recorderScan) (st_recorder_6) (fun x => decide (x.hw.on REC_STATUS_SCAN_DONE = true ∧ st_recorder_6.hw.get REC_SEQ_NEXT ≤ x.hw.get REC_SEQ_NEXT)) = true := by decide +kernel

def st_recorder_7 : State := with_ (fun h => (h.put CFG_NVM_SFDP_OK 1).put REC_REGION_SIZE_MIB 1)

theorem wit_recorder_7 : (st_recorder_7.hw.live = true) ∧ (st_recorder_7.hw.opsecDue = true) := by decide +kernel

def st_recorder_8 : State := up

theorem wit_recorder_8 : (st_recorder_8.hw.writable (.portA : Requester) = true) ∧ (natBit (0x80000000 : Word).toNat 31 = true) ∧
    (st_recorder_8.hw.recd.fetch = none) ∧ (st_recorder_8.hw.room 6 = false) := by decide +kernel

theorem test_recorder_8 : holdsAfter (.recFetch (.portA : Requester) (9 : Nat) (0x80000000 : Word)) (st_recorder_8) (fun x => decide (x.hw.recd.fetch = some (st_recorder_8.hw.get REC_FETCH_FIRST_FIRST, max 1 (bits (0x80000000 : Word) 15 0), ((answerTo (.portA : Requester) (9 : Nat)).getD (st_recorder_8.hw.get STR_CTL_DEST))) ∧ x.hw.on REC_FETCH_CTL_BUSY = true)) = true := by decide +kernel

def st_recorder_9 : State := with_ (fun h => (h.put SYS_HUB_ID_ID 3).put REC_CTL_SEND 0)

theorem wit_recorder_9 : (st_recorder_9.hw.writable (.portA : Requester) = true) ∧ (natBit (0x80000000 : Word).toNat 31 = true) ∧
    (st_recorder_9.hw.recd.fetch = none) ∧ (st_recorder_9.hw.room 6 = true) ∧
    (st_recorder_9.hw.on REC_CTL_SEND = false) ∧
    (st_recorder_9.hw.ringFrom (st_recorder_9.hw.get REC_FETCH_FIRST_FIRST) (min 15 (max 1 (bits (0x80000000 : Word) 15 0))) = []) := by decide +kernel

theorem test_recorder_9 : holdsAfter (.recFetch (.portA : Requester) (9 : Nat) (0x80000000 : Word)) (st_recorder_9) (fun x => decide (x.hw.recd.fetch = none ∧ x.hw.on REC_FETCH_CTL_BUSY = false)) = true := by decide +kernel

def st_recorder_10 : State := with_ (fun h => ({ h with recd := { (h).recd with fetch := some (7, 3, 9) } } : Hw))

theorem wit_recorder_10 : (st_recorder_10.hw.writable (.portA : Requester) = true) ∧ ((natBit (0x80000005 : Word).toNat 31 = false ∨
    st_recorder_10.hw.recd.fetch.isSome = true)) := by decide +kernel

theorem test_recorder_10 : holdsAfter (.recFetch (.portA : Requester) (9 : Nat) (0x80000005 : Word)) (st_recorder_10) (fun x => decide (x.hw.recd = st_recorder_10.hw.recd ∧ x.hw.get REC_FETCH_CTL_COUNT = bits (0x80000005 : Word) 15 0)) = true := by decide +kernel

def st_recorder_11 : State := with_ (fun h => (h.put (REC_BUNT_HI_HI 7) 0x80000000).put (REC_BUNT_LO_LO 7) 9)

theorem wit_recorder_11 : (st_recorder_11.hw.writable (.mspi : Requester) = true) ∧ ((7 : Nat) < 8) ∧
    (natBit (0x80 : Word).toNat (7 : Nat) = true) := by decide +kernel

theorem test_recorder_11 : holdsAfter (.recBuntClr (.mspi : Requester) (0x80 : Word)) (st_recorder_11) (fun x => decide (x.hw.reg (REC_BUNT_HI (7 : Nat)) = 0 ∧ x.hw.reg (REC_BUNT_LO (7 : Nat)) = 0)) = true := by decide +kernel

def st_recorder_12 : State := with_ (fun h => (h.put (REC_BUNT_HI_HI 7) 0x80000000).put (REC_BUNT_LO_LO 7) 9)

theorem wit_recorder_12 : (st_recorder_12.hw.writable (.mspi : Requester) = true) ∧ ((7 : Nat) < 8) ∧
    (natBit (0x7F : Word).toNat (7 : Nat) = false) := by decide +kernel

theorem test_recorder_12 : holdsAfter (.recBuntClr (.mspi : Requester) (0x7F : Word)) (st_recorder_12) (fun x => decide (x.hw.reg (REC_BUNT_HI (7 : Nat)) = st_recorder_12.hw.reg (REC_BUNT_HI (7 : Nat)) ∧ x.hw.reg (REC_BUNT_LO (7 : Nat)) = st_recorder_12.hw.reg (REC_BUNT_LO (7 : Nat)))) = true := by decide +kernel

def st_recorder_13 : State := with_ (fun h => h.setReg (REC_SLOT_BAD 7) 0xF0)

theorem wit_recorder_13 : (st_recorder_13.hw.writable (.mspi : Requester) = true) ∧ ((7 : Nat) < 8) := by decide +kernel

theorem test_recorder_13 : holdsAfter (.recSlotBadClear (.mspi : Requester) (7 : Nat) (0x30 : Word)) (st_recorder_13) (fun x => decide (x.hw.reg (REC_SLOT_BAD (7 : Nat)) = st_recorder_13.hw.reg (REC_SLOT_BAD (7 : Nat)) &&& ~~~(0x30 : Word) ∧ x.hw.recd = st_recorder_13.hw.recd)) = true := by decide +kernel

def st_starts_1 : State := with_ (fun h => { h with recd := { h.recd with opsecBase := 9 } })

theorem test_starts_1 : holdsAfter (.powerOn) (st_starts_1) (fun x => decide (x.hw.boot.phase = .aonReset ∧ x.hw.get SYS_BOOT_RST_SRC = 0 ∧ x.frozen = none ∧ x.otp = st_starts_1.otp ∧ x.hw.boot.nvm = st_starts_1.hw.boot.nvm ∧ x.hw.recd = rec0 ∧ x.pending = st_starts_1.pending)) = true := by decide +kernel

def st_starts_2 : State := with_ (fun h => (h.put (REC_BUNT_LO_LO 7) 9).setReg (REC_SLOT_BAD 7) 5)

theorem wit_starts_2 : (st_starts_2.hw.live = true) ∧ (1000 ≤ (1000 : Nat)) ∧ ((7 : Nat) < 8) := by decide +kernel

theorem test_starts_2 : holdsAfter (.resetN (1000 : Nat)) (st_starts_2) (fun x => decide (x.hw.boot.phase = .aonReset ∧ x.hw.get SYS_BOOT_RST_SRC = 1 ∧ x.otp = st_starts_2.otp ∧ x.hw.boot.nvm = st_starts_2.hw.boot.nvm ∧ x.hw.recd.ram = st_starts_2.hw.recd.ram ∧ x.hw.recd.slots = st_starts_2.hw.recd.slots.filter (fun w => w.2.any RecSlot.whole) ∧ x.hw.reg (REC_BUNT_LO (7 : Nat)) = st_starts_2.hw.reg (REC_BUNT_LO (7 : Nat)) ∧ x.hw.reg (REC_BUNT_HI (7 : Nat)) = st_starts_2.hw.reg (REC_BUNT_HI (7 : Nat)) ∧ x.hw.reg (REC_SLOT_BAD (7 : Nat)) = st_starts_2.hw.reg (REC_SLOT_BAD (7 : Nat)))) = true := by decide +kernel

def st_starts_3 : State := up

theorem wit_starts_3 : ((199 : Nat) < 200) := by decide +kernel

theorem test_starts_3 : holdsAfter (.resetN (199 : Nat)) (st_starts_3) (fun x => decide (x = st_starts_3)) = true := by decide +kernel

def st_starts_4 : State := up

theorem test_starts_4 : holdsAfter (.aonResetBegin) (st_starts_4) (fun x => decide (x.hw.boot.phase = .off ∧ x.hw.live = false ∧ x.otp = st_starts_4.otp ∧ x.hw.boot.nvm = st_starts_4.hw.boot.nvm ∧ x.frozen = none)) = true := by decide +kernel

def st_starts_5 : State := with_ (fun h => { h with boot := { h.boot with phase := .aonReset } })

theorem wit_starts_5 : (st_starts_5.hw.boot.phase = .aonReset) := by decide +kernel

theorem test_starts_5 : holdsAfter (.aonResetEnd (0x55 : Nat)) (st_starts_5) (fun x => decide (x.hw.boot.phase = .otp ∧ x.hw.get SYS_BOOT_POS = (0x55 : Nat) % 64 ∧ x.hw.live = true ∧ x.hw.flt.faultNBoot = false)) = true := by decide +kernel

def st_starts_6 : State := { with_ (fun h => { h with boot := { h.boot with phase := .otp } }) with otp := { State.reset.otp with copies := [3, 1, 2] } }

theorem wit_starts_6 : (st_starts_6.hw.boot.phase = .otp) ∧ (st_starts_6.hw.boot.refclkLost = false) := by decide +kernel

theorem test_starts_6 : holdsAfter (.otpReadDone ([3] : List Nat)) (st_starts_6) (fun x => decide (x.hw.boot.phase = .sfdp ∧ x.hw.get LCS_STATE_STATE = otpState st_starts_6.otp.copies ∧ x.hw.get LCS_STATE_DBG_BSCAN = b2n (decide (otpState st_starts_6.otp.copies ≠ 2)) ∧ x.hw.get LCS_STATE_DBG_REG = b2n (decide (otpState st_starts_6.otp.copies ≠ 2 ∧ otpState st_starts_6.otp.copies ≠ 4)) ∧ x.hw.coreOn = true ∧ x.hw.lcs = st_starts_6.otp ∧ x.otp = st_starts_6.otp)) = true := by decide +kernel

def st_starts_7 : State := with_ (fun h => { h with boot := { h.boot with phase := .otp, refclkLost := true } })

theorem wit_starts_7 : (st_starts_7.hw.boot.phase = .otp) ∧ (st_starts_7.hw.boot.refclkLost = true) := by decide +kernel

theorem test_starts_7 : holdsAfter (.otpReadDone ([3] : List Nat)) (st_starts_7) (fun x => decide (x = st_starts_7)) = true := by decide +kernel

def st_starts_8 : State := with_ (fun h => { h with boot := { h.boot with restartAt := some 0 } })

theorem wit_starts_8 : (st_starts_8.hw.live = true) ∧ (st_starts_8.hw.restartDue = true) := by decide +kernel

theorem test_starts_8 : holdsAfter (.commandRestart) (st_starts_8) (fun x => decide (x.hw.boot.phase = .aonReset ∧ x.hw.get SYS_BOOT_RST_SRC = 2 ∧ x.otp = st_starts_8.otp ∧ x.hw.boot.nvm = st_starts_8.hw.boot.nvm)) = true := by decide +kernel

def st_starts_9 : State := with_ (fun h => { h with boot := { h.boot with restartAt := some 1000000000 } })

theorem wit_starts_9 : (st_starts_9.hw.restartDue = false) := by decide +kernel

theorem test_starts_9 : holdsAfter (.commandRestart) (st_starts_9) (fun x => decide (x = st_starts_9)) = true := by decide +kernel

def st_starts_10 : State := with_ (fun h => { h with boot := { h.boot with erasure := some true, nvm := [(16777215, 0), (16777216, 1)] } })

theorem wit_starts_10 : (st_starts_10.hw.live = true) ∧ (st_starts_10.hw.boot.erasure = some (true : Bool)) ∧
    ((16777215 : Nat) < 16777216) := by decide +kernel

theorem test_starts_10 : holdsAfter (.erasureComplete) (st_starts_10) (fun x => decide (x.hw.boot.phase = .aonReset ∧ x.hw.get SYS_BOOT_RST_SRC = 2 ∧ x.otp = st_starts_10.otp ∧ x.hw.recd.ram = [] ∧ x.hw.recd.slots = [] ∧ storeGet (fun _ => nvm0) x.hw.boot.nvm (16777215 : Nat) = nvm0)) = true := by decide +kernel

def st_loader_1a : State := with_ (fun h => { h with boot := { h.boot with phase := .sfdp } })

def v_loader_1a_p : SfdpParams := { ok := true, addr4 := false, maxWidth := 2, densityLog2 := 25, pageLog2 := 8, erase4k := 0x20 }

theorem wit_loader_1a : (st_loader_1a.hw.live = true) ∧ (st_loader_1a.hw.boot.phase = .sfdp) ∧ (sfdpAccepted v_loader_1a_p = true) := by decide +kernel

def st_loader_1b : State := with_ (fun h => { h.put LCS_STATE_STATE 4 with boot := { h.boot with phase := .sfdp } })

def v_loader_1b_p : SfdpParams := { ok := true, addr4 := false, maxWidth := 2, densityLog2 := 25, pageLog2 := 8, erase4k := 0x20 }

theorem wit_loader_1b : (st_loader_1b.hw.live = true) ∧ (st_loader_1b.hw.boot.phase = .sfdp) ∧ (sfdpAccepted v_loader_1b_p = true) := by decide +kernel

def st_loader_2a : State := with_ (fun h => { h with boot := { h.boot with phase := .sfdp } })

def v_loader_2a_p : SfdpParams := { ok := true, addr4 := false, maxWidth := 2, densityLog2 := 24, pageLog2 := 8, erase4k := 0x20 }

theorem wit_loader_2a : (st_loader_2a.hw.live = true) ∧ (st_loader_2a.hw.boot.phase = .sfdp) ∧ (sfdpAccepted v_loader_2a_p = false) ∧
    (st_loader_2a.hw.on CFG_NVM_SFDP_OK = false) := by decide +kernel

theorem test_loader_2a : holdsAfter (.loaderSfdp v_loader_2a_p) (st_loader_2a) (fun x => decide (x.hw.boot.phase = .load [] ∧ x.hw.get (CFG_IMG_FAIL 0) = 1 ∧ x.hw.get (CFG_IMG_FAIL 1) = 1 ∧ x.hw.on LCS_STATUS_FLOOR = true ∧ x.hw.get64 LCS_CTR_LO_CTR_LO LCS_CTR_HI_CTR_HI = (if st_loader_2a.hw.get LCS_STATE_STATE = 0 then 0 else 2 ^ 63 - 1))) = true := by decide +kernel

def st_loader_2b : State := with_ (fun h => { h.put LCS_STATE_STATE 1 with boot := { h.boot with phase := .sfdp } })

def v_loader_2b_p : SfdpParams := { ok := true, addr4 := false, maxWidth := 2, densityLog2 := 25, pageLog2 := 8, erase4k := 0 }

theorem wit_loader_2b : (st_loader_2b.hw.live = true) ∧ (st_loader_2b.hw.boot.phase = .sfdp) ∧ (sfdpAccepted v_loader_2b_p = false) ∧
    (st_loader_2b.hw.on CFG_NVM_SFDP_OK = false) := by decide +kernel

theorem test_loader_2b : holdsAfter (.loaderSfdp v_loader_2b_p) (st_loader_2b) (fun x => decide (x.hw.boot.phase = .load [] ∧ x.hw.get (CFG_IMG_FAIL 0) = 1 ∧ x.hw.get (CFG_IMG_FAIL 1) = 1 ∧ x.hw.on LCS_STATUS_FLOOR = true ∧ x.hw.get64 LCS_CTR_LO_CTR_LO LCS_CTR_HI_CTR_HI = (if st_loader_2b.hw.get LCS_STATE_STATE = 0 then 0 else 2 ^ 63 - 1))) = true := by decide +kernel

def st_loader_3a : State := with_ (fun h => { h with boot := { h.boot with phase := .headers, nvm := [(0, 0)] } })

theorem wit_loader_3a : (st_loader_3a.hw.live = true) ∧ (st_loader_3a.hw.boot.phase = .headers) ∧ ((1 : Nat) < 2) := by decide +kernel

theorem test_loader_3a : holdsAfter (.imageHeaderJudge) (st_loader_3a) (fun x => decide (x.hw.boot.phase = .load st_loader_3a.hw.slotOrderOf ∧ x.hw.get (CFG_IMG_FAIL (1 : Nat)) = (headerFail (st_loader_3a.hw.imageBytes (1 : Nat) 0 64)).getD (st_loader_3a.hw.get (CFG_IMG_FAIL (1 : Nat))))) = true := by decide +kernel

def st_loader_3b : State := with_ (fun h => { h with boot := { h.boot with phase := .headers, nvm := [(0, 0)] } })

theorem wit_loader_3b : (st_loader_3b.hw.live = true) ∧ (st_loader_3b.hw.boot.phase = .headers) ∧ ((0 : Nat) < 2) := by decide +kernel

theorem test_loader_3b : holdsAfter (.imageHeaderJudge) (st_loader_3b) (fun x => decide (x.hw.boot.phase = .load st_loader_3b.hw.slotOrderOf ∧ x.hw.get (CFG_IMG_FAIL (0 : Nat)) = (headerFail (st_loader_3b.hw.imageBytes (0 : Nat) 0 64)).getD (st_loader_3b.hw.get (CFG_IMG_FAIL (0 : Nat))))) = true := by decide +kernel

def st_loader_4 : State := with_ (fun h => { h with boot := { h.boot with phase := .load [0, 1], nvm := [(6, 0), (7, 0)] } })

theorem wit_loader_4 : (st_loader_4.hw.live = true) ∧ (st_loader_4.hw.boot.phase = .load ((0 : Nat) :: ([1] : List Nat))) ∧
    ((0 : Nat) < 2) ∧ (((st_loader_4.hw.put (CFG_IMG_TRIED (0 : Nat)) 1).verifyImage (0 : Nat)).2 = some ((3 : Nat),
    (0 : Nat))) := by decide +kernel

theorem test_loader_4 : holdsAfter (.imageLoad) (st_loader_4) (fun x => decide (x.hw.boot.phase = .load ([1] : List Nat) ∧ x.hw.get (CFG_IMG_FAIL (0 : Nat)) = (3 : Nat) % 16 ∧ x.hw.get (CFG_IMG_SECT (0 : Nat)) = (0 : Nat) % 256 ∧ x.hw.epoch.staging = { regs := [], table := [] } ∧ x.hw.epoch.sealedSet = none ∧ x.hw.trg.mask = [])) = true := by decide +kernel

def st_loader_5 : State := with_ (fun h => { h.put SYS_BOOT_WAIT_FIELD 1 with boot := { h.boot with phase := .load [0, 1], nvm := ((List.range 128).zip ([71, 158, 26, 12, 1, 0, 2, 0, 128, 0, 0, 0, 1, 0, 0, 0, 0, 0, 0, 0, 45, 212, 99, 173, 0, 0, 0, 0, 0, 0, 0, 0, 0, 0, 0, 0, 0, 0, 0, 0, 0, 0, 0, 0, 0, 0, 0, 0, 0, 0, 0, 0, 0, 0, 0, 0, 0, 0, 0, 0, 36, 165, 2, 106, 1, 0, 1, 0, 96, 0, 0, 0, 8, 0, 0, 0, 104, 0, 0, 0, 12, 0, 1, 0, 112, 0, 0, 0, 8, 0, 0, 0, 120, 0, 0, 0, 72, 50, 161, 0, 0, 0, 0, 0, 171, 151, 217, 211, 0, 0, 0, 0, 35, 1, 0, 0, 0, 0, 0, 0, 178, 124, 111, 50, 0, 0, 0, 0] : List Byte)) } })

theorem wit_loader_5 : (st_loader_5.hw.live = true) ∧ (st_loader_5.hw.boot.phase = .load ((0 : Nat) :: ([1] : List Nat))) ∧
    ((0 : Nat) < 2) ∧ (((st_loader_5.hw.put (CFG_IMG_TRIED (0 : Nat)) 1).verifyImage (0 : Nat)).2 = none) ∧
    (((st_loader_5.hw.put (CFG_IMG_TRIED (0 : Nat)) 1).verifyImage (0 : Nat)).1.on SYS_BOOT_WAIT_FIELD = true) := by decide +kernel

theorem test_loader_5 : holdsAfter (.imageLoad) (st_loader_5) (fun x => decide (x.hw.boot.phase = .waitField (0 : Nat) ([1] : List Nat) ∧ x.hw.epoch = ((st_loader_5.hw.put (CFG_IMG_TRIED (0 : Nat)) 1).verifyImage (0 : Nat)).1.epoch ∧ x.hw.on (CFG_IMG_TRIED (0 : Nat)) = ((st_loader_5.hw.put (CFG_IMG_TRIED (0 : Nat)) 1).verifyImage (0 : Nat)).1.on (CFG_IMG_TRIED (0 : Nat)))) = true := by decide +kernel

def st_loader_6 : State := with_ (fun h => { h.put SYS_BOOT_WAIT_FIELD 0 with boot := { h.boot with phase := .load [0, 1], nvm := ((List.range 128).zip ([71, 158, 26, 12, 1, 0, 2, 0, 128, 0, 0, 0, 1, 0, 0, 0, 0, 0, 0, 0, 45, 212, 99, 173, 0, 0, 0, 0, 0, 0, 0, 0, 0, 0, 0, 0, 0, 0, 0, 0, 0, 0, 0, 0, 0, 0, 0, 0, 0, 0, 0, 0, 0, 0, 0, 0, 0, 0, 0, 0, 36, 165, 2, 106, 1, 0, 1, 0, 96, 0, 0, 0, 8, 0, 0, 0, 104, 0, 0, 0, 12, 0, 1, 0, 112, 0, 0, 0, 8, 0, 0, 0, 120, 0, 0, 0, 72, 50, 161, 0, 0, 0, 0, 0, 171, 151, 217, 211, 0, 0, 0, 0, 35, 1, 0, 0, 0, 0, 0, 0, 178, 124, 111, 50, 0, 0, 0, 0] : List Byte)) } })

theorem wit_loader_6 : (st_loader_6.hw.live = true) ∧ (st_loader_6.hw.boot.phase = .load ((0 : Nat) :: ([1] : List Nat))) ∧
    ((0 : Nat) < 2) ∧ (((st_loader_6.hw.put (CFG_IMG_TRIED (0 : Nat)) 1).verifyImage (0 : Nat)).2 = none) ∧
    (((st_loader_6.hw.put (CFG_IMG_TRIED (0 : Nat)) 1).verifyImage (0 : Nat)).1.on SYS_BOOT_WAIT_FIELD = false) := by decide +kernel

theorem test_loader_6 : holdsAfter (.imageLoad) (st_loader_6) (fun x => decide (x.hw.boot.phase = .committing (0 : Nat) ([1] : List Nat) ∧ x.hw.epoch.sealedSet.map Sealed.set = some ((st_loader_6.hw.put (CFG_IMG_TRIED (0 : Nat)) 1).verifyImage (0 : Nat)).1.epoch.staging ∧ x.hw.on SYS_COMMIT_STATUS_PENDING = true)) = true := by decide +kernel

def st_loader_7 : State := with_ (fun h => { h with boot := { h.boot with phase := .load [] } })

theorem wit_loader_7 : (st_loader_7.hw.live = true) ∧ (st_loader_7.hw.boot.phase = .load []) := by decide +kernel

theorem test_loader_7 : holdsAfter (.repeaterMode) (st_loader_7) (fun x => decide (x.hw.boot.phase = .repeater ∧ x.hw.get SYS_BOOT_MODE = 2 ∧ x.hw.get SYS_BOOT_IMAGE = 3)) = true := by decide +kernel

def st_loader_8 : State := with_ (fun h => { h.put (CFG_IMG_FAIL 1) 3 with boot := { h.boot with phase := .load [] } })

theorem wit_loader_8 : (st_loader_8.hw.live = true) ∧ (st_loader_8.hw.boot.phase = .load []) ∧ ((1 : Nat) < 2) ∧
    (st_loader_8.hw.get (CFG_IMG_FAIL (1 : Nat)) ≠ 0) ∧ (st_loader_8.hw.get (CFG_IMG_FAIL (1 : Nat)) ≠ 0xB) := by decide +kernel

theorem test_loader_8 : holdsAfter (.repeaterMode) (st_loader_8) (fun x => decide (x.hw.on (statusBit srcImageFallback) = true ∧ x.hw.get (FLT_INFO_INFO srcImageFallback) = 2)) = true := by decide +kernel

def st_loader_9 : State := up

theorem wit_loader_9 : (st_loader_9.hw.boot.phase ≠ .load []) := by decide +kernel

theorem test_loader_9 : holdsAfter (.repeaterMode) (st_loader_9) (fun x => decide (x = st_loader_9)) = true := by decide +kernel

def st_loader_10 : State := with_ (fun h => { h.put SYS_BOOT_WAIT_FIELD 1 with boot := { h.boot with phase := .waitField 1 [0] } })

theorem wit_loader_10 : (st_loader_10.hw.live = true) ∧ (st_loader_10.hw.boot.phase = .waitField (1 : Nat) ([0] : List Nat)) ∧
    (st_loader_10.hw.on SYS_BOOT_WAIT_FIELD = true) := by decide +kernel

theorem test_loader_10 : holdsAfter (.fieldReferencesReady) (st_loader_10) (fun x => decide (x.hw.boot.phase = .committing (1 : Nat) ([0] : List Nat) ∧ x.hw.on SYS_BOOT_WAIT_FIELD = false ∧ x.hw.epoch.sealedSet.map Sealed.set = some st_loader_10.hw.epoch.staging ∧ x.hw.on SYS_COMMIT_STATUS_PENDING = true)) = true := by decide +kernel

def st_criticalCommands_1a : State := authHub 1 1 [2, 0, 0, 0, 0, 0, 0, 0] [166, 135, 20, 6, 154, 166, 119, 77, 117, 220, 123, 221, 220, 94, 125, 146] (fun h => h.put SYS_HUB_ID_ID 3)

def v_criticalCommands_1a_e : CmdEntry := authEntry 1 [2, 0, 0, 0, 0, 0, 0, 0] [166, 135, 20, 6, 154, 166, 119, 77, 117, 220, 123, 221, 220, 94, 125, 146]

theorem wit_criticalCommands_1a : (st_criticalCommands_1a.authReady (.b : Port) v_criticalCommands_1a_e 1 = true) ∧
    ((st_criticalCommands_1a.hw.get LCS_STATE_STATE ≠ 0 ∨
    (beAt (authArgs v_criticalCommands_1a_e.frame.payload) 0 1) ≠ 1 ∨
    ((keySlot st_criticalCommands_1a.otp.cmdKeys).isNone || (keySlot st_criticalCommands_1a.otp.imgKeys).isNone) = false)) := by decide +kernel

theorem test_criticalCommands_1a : holdsAfter (.lifecycle true true) (st_criticalCommands_1a) (fun x => decide (stateBit x.otp.copies ((beAt (authArgs v_criticalCommands_1a_e.frame.payload) 0 1) - 1) = true ∧ ((beAt (authArgs v_criticalCommands_1a_e.frame.payload) 0 1) = 4 → x.otp.cmdKeys.all KeySlot.revoked = true ∧ x.otp.imgKeys.all KeySlot.revoked = true) ∧ x.hw.boot.restartAt = some (st_criticalCommands_1a.hw.ns + 1000000) ∧ x.hw.get64 LCS_CTR_LO_CTR_LO LCS_CTR_HI_CTR_HI = authCounter v_criticalCommands_1a_e.frame.payload)) = true := by decide +kernel

def st_criticalCommands_1b : State := authHub 3 1 [4, 0, 0, 0, 0, 0, 0, 0] [160, 76, 185, 114, 120, 77, 28, 240, 20, 212, 11, 196, 120, 21, 21, 222] (fun h => h.put SYS_HUB_ID_ID 3)

def v_criticalCommands_1b_e : CmdEntry := authEntry 1 [4, 0, 0, 0, 0, 0, 0, 0] [160, 76, 185, 114, 120, 77, 28, 240, 20, 212, 11, 196, 120, 21, 21, 222]

theorem wit_criticalCommands_1b : (st_criticalCommands_1b.authReady (.b : Port) v_criticalCommands_1b_e 1 = true) ∧
    ((st_criticalCommands_1b.hw.get LCS_STATE_STATE ≠ 0 ∨
    (beAt (authArgs v_criticalCommands_1b_e.frame.payload) 0 1) ≠ 1 ∨
    ((keySlot st_criticalCommands_1b.otp.cmdKeys).isNone || (keySlot st_criticalCommands_1b.otp.imgKeys).isNone) = false)) := by decide +kernel

theorem test_criticalCommands_1b : holdsAfter (.lifecycle true true) (st_criticalCommands_1b) (fun x => decide (stateBit x.otp.copies ((beAt (authArgs v_criticalCommands_1b_e.frame.payload) 0 1) - 1) = true ∧ ((beAt (authArgs v_criticalCommands_1b_e.frame.payload) 0 1) = 4 → x.otp.cmdKeys.all KeySlot.revoked = true ∧ x.otp.imgKeys.all KeySlot.revoked = true) ∧ x.hw.boot.restartAt = some (st_criticalCommands_1b.hw.ns + 1000000) ∧ x.hw.get64 LCS_CTR_LO_CTR_LO LCS_CTR_HI_CTR_HI = authCounter v_criticalCommands_1b_e.frame.payload)) = true := by decide +kernel

def st_criticalCommands_2 : State := { authHub 0 1 [1, 0, 0, 0, 0, 0, 0, 0] [155, 77, 210, 201, 253, 239, 135, 238, 68, 104, 254, 197, 191, 227, 236, 179] (fun h => { h.put SYS_HUB_ID_ID 3 with lcs := State.reset.otp }) with otp := State.reset.otp }

def v_criticalCommands_2_e : CmdEntry := authEntry 1 [1, 0, 0, 0, 0, 0, 0, 0] [155, 77, 210, 201, 253, 239, 135, 238, 68, 104, 254, 197, 191, 227, 236, 179]

theorem wit_criticalCommands_2 : (st_criticalCommands_2.authReady (.b : Port) v_criticalCommands_2_e 1 = true) ∧
    (st_criticalCommands_2.hw.get LCS_STATE_STATE = 0) ∧
    ((beAt (authArgs v_criticalCommands_2_e.frame.payload) 0 1) = 1) ∧
    (((keySlot st_criticalCommands_2.otp.cmdKeys).isNone || (keySlot st_criticalCommands_2.otp.imgKeys).isNone) = true) := by decide +kernel

def st_criticalCommands_3 : State := authHub 1 2 [1, 0, 0, 0, 0, 0, 0, 0, 128, 140, 60, 228, 24, 103, 194, 84, 37, 80, 64, 77, 76, 160, 193, 44, 159, 230, 150, 165, 94, 97, 174, 194, 137, 87, 172, 45, 73, 173, 132, 208, 171, 156, 248, 163, 22, 124, 96, 200] [83, 98, 223, 175, 96, 113, 239, 216, 251, 204, 159, 81, 232, 161, 97, 183] (fun h => h.put SYS_HUB_ID_ID 3)

def v_criticalCommands_3_e : CmdEntry := authEntry 2 [1, 0, 0, 0, 0, 0, 0, 0, 128, 140, 60, 228, 24, 103, 194, 84, 37, 80, 64, 77, 76, 160, 193, 44, 159, 230, 150, 165, 94, 97, 174, 194, 137, 87, 172, 45, 73, 173, 132, 208, 171, 156, 248, 163, 22, 124, 96, 200] [83, 98, 223, 175, 96, 113, 239, 216, 251, 204, 159, 81, 232, 161, 97, 183]

theorem wit_criticalCommands_3 : (st_criticalCommands_3.authReady (.b : Port) v_criticalCommands_3_e 2 = true) ∧
    (st_criticalCommands_3.otp.shaped = true) ∧ ((1 : Nat) < 4) ∧
    ((List.range 4).find? (fun y => !((st_criticalCommands_3.otp.slots (beAt (authArgs v_criticalCommands_3_e.frame.payload) 0 1)).getD y keySlot0).written) = some (1 : Nat)) ∧
    (((((st_criticalCommands_3.hw.removeCommand (.b : Port) v_criticalCommands_3_e).dupAccept (.b : Port) v_criticalCommands_3_e.frame).1.takeCounter (authCounter v_criticalCommands_3_e.frame.payload) true).1.keyOf (((st_criticalCommands_3.hw.removeCommand (.b : Port) v_criticalCommands_3_e).dupAccept (.b : Port) v_criticalCommands_3_e.frame).1.takeCounter (authCounter v_criticalCommands_3_e.frame.payload) true).1.lcs.cmdKeys).bind (fun w => unwrapKey w (slice (authArgs v_criticalCommands_3_e.frame.payload) 8 40)) = some (9 : Nat)) := by decide +kernel

def st_criticalCommands_4 : State := authHub 1 2 [1, 0, 0, 0, 0, 0, 0, 0, 128, 140, 60, 228, 24, 103, 194, 84, 37, 80, 64, 77, 76, 160, 193, 44, 159, 230, 150, 165, 94, 97, 174, 194, 137, 87, 172, 45, 73, 173, 132, 208, 171, 156, 248, 163, 22, 124, 96, 200] [83, 98, 223, 175, 96, 113, 239, 216, 251, 204, 159, 81, 232, 161, 97, 183] (fun h => h.put SYS_HUB_ID_ID 3)

def v_criticalCommands_4_e : CmdEntry := authEntry 2 [1, 0, 0, 0, 0, 0, 0, 0, 128, 140, 60, 228, 24, 103, 194, 84, 37, 80, 64, 77, 76, 160, 193, 44, 159, 230, 150, 165, 94, 97, 174, 194, 137, 87, 172, 45, 73, 173, 132, 208, 171, 156, 248, 163, 22, 124, 96, 200] [83, 98, 223, 175, 96, 113, 239, 216, 251, 204, 159, 81, 232, 161, 97, 183]

theorem wit_criticalCommands_4 : (st_criticalCommands_4.authReady (.b : Port) v_criticalCommands_4_e 2 = true) ∧
    (st_criticalCommands_4.otp.shaped = true) ∧
    ((List.range 4).find? (fun y => !((st_criticalCommands_4.otp.slots (beAt (authArgs v_criticalCommands_4_e.frame.payload) 0 1)).getD y keySlot0).written) = some (1 : Nat)) ∧
    (((((st_criticalCommands_4.hw.removeCommand (.b : Port) v_criticalCommands_4_e).dupAccept (.b : Port) v_criticalCommands_4_e.frame).1.takeCounter (authCounter v_criticalCommands_4_e.frame.payload) true).1.keyOf (((st_criticalCommands_4.hw.removeCommand (.b : Port) v_criticalCommands_4_e).dupAccept (.b : Port) v_criticalCommands_4_e.frame).1.takeCounter (authCounter v_criticalCommands_4_e.frame.payload) true).1.lcs.cmdKeys).bind (fun w => unwrapKey w (slice (authArgs v_criticalCommands_4_e.frame.payload) 8 40)) = some (9 : Nat)) ∧
    (keySlot (st_criticalCommands_4.otp.slots (beAt (authArgs v_criticalCommands_4_e.frame.payload) 0 1)) = some (0 : Nat)) := by decide +kernel

def st_criticalCommands_5 : State := authHub 1 2 [1, 0, 0, 0, 0, 0, 0, 0, 128, 140, 60, 228, 24, 103, 194, 84, 37, 80, 64, 77, 76, 160, 193, 44, 159, 230, 150, 165, 94, 97, 174, 194, 137, 87, 172, 45, 73, 173, 132, 208, 171, 156, 248, 163, 22, 124, 96, 201] [90, 3, 170, 82, 221, 239, 250, 90, 31, 111, 136, 152, 146, 112, 106, 228] (fun h => h.put SYS_HUB_ID_ID 3)

def v_criticalCommands_5_e : CmdEntry := authEntry 2 [1, 0, 0, 0, 0, 0, 0, 0, 128, 140, 60, 228, 24, 103, 194, 84, 37, 80, 64, 77, 76, 160, 193, 44, 159, 230, 150, 165, 94, 97, 174, 194, 137, 87, 172, 45, 73, 173, 132, 208, 171, 156, 248, 163, 22, 124, 96, 201] [90, 3, 170, 82, 221, 239, 250, 90, 31, 111, 136, 152, 146, 112, 106, 228]

theorem wit_criticalCommands_5 : (st_criticalCommands_5.authReady (.b : Port) v_criticalCommands_5_e 2 = true) ∧
    (((List.range 4).find? (fun y => !((st_criticalCommands_5.otp.slots (beAt (authArgs v_criticalCommands_5_e.frame.payload) 0 1)).getD y keySlot0).written) = none ∨
    ((((st_criticalCommands_5.hw.removeCommand (.b : Port) v_criticalCommands_5_e).dupAccept (.b : Port) v_criticalCommands_5_e.frame).1.takeCounter (authCounter v_criticalCommands_5_e.frame.payload) true).1.keyOf (((st_criticalCommands_5.hw.removeCommand (.b : Port) v_criticalCommands_5_e).dupAccept (.b : Port) v_criticalCommands_5_e.frame).1.takeCounter (authCounter v_criticalCommands_5_e.frame.payload) true).1.lcs.cmdKeys).bind (fun w => unwrapKey w (slice (authArgs v_criticalCommands_5_e.frame.payload) 8 40)) = none)) := by decide +kernel

def st_criticalCommands_6 : State := authHub 1 3 [0, 0, 0, 0, 0, 0, 0x10, 0] [99, 189, 239, 94, 76, 159, 244, 12, 156, 106, 90, 131, 24, 242, 213, 246] (fun h => h.put SYS_HUB_ID_ID 3)

def v_criticalCommands_6_e : CmdEntry := authEntry 3 [0, 0, 0, 0, 0, 0, 0x10, 0] [99, 189, 239, 94, 76, 159, 244, 12, 156, 106, 90, 131, 24, 242, 213, 246]

theorem wit_criticalCommands_6 : (st_criticalCommands_6.authReady (.b : Port) v_criticalCommands_6_e 3 = true) ∧
    (beAt (authArgs v_criticalCommands_6_e.frame.payload) 1 1 = 0) := by decide +kernel

def st_criticalCommands_7 : State := authHub 1 3 [0, 1, 0, 0, 0, 0, 0, 0, 1, 2, 3, 4] [100, 250, 155, 96, 248, 229, 214, 102, 3, 28, 136, 84, 49, 69, 59, 173] (fun h => h.put SYS_HUB_ID_ID 3)

def v_criticalCommands_7_e : CmdEntry := authEntry 3 [0, 1, 0, 0, 0, 0, 0, 0, 1, 2, 3, 4] [100, 250, 155, 96, 248, 229, 214, 102, 3, 28, 136, 84, 49, 69, 59, 173]

theorem wit_criticalCommands_7 : (st_criticalCommands_7.authReady (.b : Port) v_criticalCommands_7_e 3 = true) ∧
    (beAt (authArgs v_criticalCommands_7_e.frame.payload) 1 1 = 1) := by decide +kernel

def st_criticalCommands_8 : State := authHub 1 3 [0, 2, 0, 0, 0, 0, 0, 0] [139, 155, 14, 30, 227, 127, 57, 241, 202, 85, 202, 132, 45, 204, 33, 18] (fun h => h.put SYS_HUB_ID_ID 3)

def v_criticalCommands_8_e : CmdEntry := authEntry 3 [0, 2, 0, 0, 0, 0, 0, 0] [139, 155, 14, 30, 227, 127, 57, 241, 202, 85, 202, 132, 45, 204, 33, 18]

theorem wit_criticalCommands_8 : (st_criticalCommands_8.authReady (.b : Port) v_criticalCommands_8_e 3 = true) ∧
    (beAt (authArgs v_criticalCommands_8_e.frame.payload) 1 1 = 2) := by decide +kernel

def st_criticalCommands_9 : State := authHub 1 4 [] [162, 79, 216, 13, 64, 129, 152, 189, 48, 248, 68, 189, 87, 220, 64, 228] (fun h => ((h.put SYS_HUB_ID_ID 3).put REC_REGION_SIZE_MIB 1).put REC_REGION_BASE_4K 4096)

def v_criticalCommands_9_e : CmdEntry := authEntry 4 [] [162, 79, 216, 13, 64, 129, 152, 189, 48, 248, 68, 189, 87, 220, 64, 228]

theorem wit_criticalCommands_9 : (st_criticalCommands_9.authReady (.b : Port) v_criticalCommands_9_e 4 = true) ∧
    (st_criticalCommands_9.hw.hasRegion = true) ∧ (st_criticalCommands_9.hw.regionBase + 8192 ≤ (16785408 : Nat)) ∧
    ((16785408 : Nat) < st_criticalCommands_9.hw.regionBase + st_criticalCommands_9.hw.regionSize) := by decide +kernel

def st_criticalCommands_10 : State := authHub 1 4 [] [162, 79, 216, 13, 64, 129, 152, 189, 48, 248, 68, 189, 87, 220, 64, 228] (fun h => h.put SYS_HUB_ID_ID 3)

def v_criticalCommands_10_e : CmdEntry := authEntry 4 [] [162, 79, 216, 13, 64, 129, 152, 189, 48, 248, 68, 189, 87, 220, 64, 228]

theorem wit_criticalCommands_10 : (st_criticalCommands_10.authReady (.b : Port) v_criticalCommands_10_e 4 = true) ∧
    (st_criticalCommands_10.hw.hasRegion = false) := by decide +kernel

def st_criticalCommands_11 : State := authHub 2 5 [2, 0, 0, 0] [20, 239, 25, 128, 227, 47, 144, 95, 57, 179, 108, 64, 109, 38, 128, 139] (fun h => h.put SYS_HUB_ID_ID 3)

def v_criticalCommands_11_e : CmdEntry := authEntry 5 [2, 0, 0, 0] [20, 239, 25, 128, 227, 47, 144, 95, 57, 179, 108, 64, 109, 38, 128, 139]

theorem wit_criticalCommands_11 : (st_criticalCommands_11.authReady (.b : Port) v_criticalCommands_11_e 5 = true) := by decide +kernel

def st_criticalCommands_12 : State := authHub 2 6 [] [105, 122, 209, 158, 182, 36, 236, 22, 143, 115, 252, 210, 114, 184, 160, 168] (fun h => (h.put SYS_HUB_ID_ID 3).put FLT_SAFE_ACTIVE 1)

def v_criticalCommands_12_e : CmdEntry := authEntry 6 [] [105, 122, 209, 158, 182, 36, 236, 22, 143, 115, 252, 210, 114, 184, 160, 168]

theorem wit_criticalCommands_12 : (st_criticalCommands_12.authReady (.b : Port) v_criticalCommands_12_e 6 = true) ∧
    (st_criticalCommands_12.hw.safe = true) ∧
    ((List.range 64).any (fun i => st_criticalCommands_12.hw.on (statusBit i) && decide (st_criticalCommands_12.hw.get (FLT_MAP_REACT i) = 4)) = false) := by decide +kernel

def st_criticalCommands_13 : State := authHub 2 6 [] [105, 122, 209, 158, 182, 36, 236, 22, 143, 115, 252, 210, 114, 184, 160, 168] (fun h => (((h.put SYS_HUB_ID_ID 3).put FLT_SAFE_ACTIVE 1).put (statusBit 63) 1).put (FLT_MAP_REACT 63) 4)

def v_criticalCommands_13_e : CmdEntry := authEntry 6 [] [105, 122, 209, 158, 182, 36, 236, 22, 143, 115, 252, 210, 114, 184, 160, 168]

theorem wit_criticalCommands_13 : (st_criticalCommands_13.authReady (.b : Port) v_criticalCommands_13_e 6 = true) ∧
    (st_criticalCommands_13.hw.safe = true) ∧
    ((List.range 64).any (fun i => st_criticalCommands_13.hw.on (statusBit i) && decide (st_criticalCommands_13.hw.get (FLT_MAP_REACT i) = 4)) = true) := by decide +kernel

def st_criticalCommands_14 : State := authHub 2 7 [] [85, 254, 239, 140, 234, 37, 112, 6, 90, 236, 107, 194, 208, 112, 160, 215] (fun h => h.put SYS_HUB_ID_ID 3)

def v_criticalCommands_14_e : CmdEntry := authEntry 7 [] [85, 254, 239, 140, 234, 37, 112, 6, 90, 236, 107, 194, 208, 112, 160, 215]

theorem wit_criticalCommands_14 : (st_criticalCommands_14.authReady (.b : Port) v_criticalCommands_14_e 7 = true) := by decide +kernel

def st_criticalCommands_15 : State := authHub 2 8 [3, 0, 0, 0] [240, 178, 130, 103, 55, 192, 123, 19, 17, 43, 186, 69, 135, 106, 125, 185] (fun h => h.put SYS_HUB_ID_ID 3)

def v_criticalCommands_15_e : CmdEntry := authEntry 8 [3, 0, 0, 0] [240, 178, 130, 103, 55, 192, 123, 19, 17, 43, 186, 69, 135, 106, 125, 185]

theorem wit_criticalCommands_15 : (st_criticalCommands_15.authReady (.b : Port) v_criticalCommands_15_e 8 = true) := by decide +kernel

def st_criticalCommands_16 : State := authHub 2 9 [] [62, 252, 146, 139, 81, 108, 121, 33, 138, 121, 101, 52, 18, 132, 193, 121] (fun h => h.put SYS_HUB_ID_ID 3)

def v_criticalCommands_16_e : CmdEntry := authEntry 9 [] [62, 252, 146, 139, 81, 108, 121, 33, 138, 121, 101, 52, 18, 132, 193, 121]

theorem wit_criticalCommands_16 : (st_criticalCommands_16.authReady (.b : Port) v_criticalCommands_16_e 9 = true) := by decide +kernel

theorem wit_frames_field : (.ovTrip 639 true (-13001) : Instr).isFieldRow = true ∧ holdsAfter (.ovTrip 639 true (-13001)) up (fun _ => true) = true := by decide +kernel

theorem wit_frames_link : (.portDownEnd .b : Instr).isLinkRow = true ∧ holdsAfter (.portDownEnd .b) up (fun _ => true) = true := by decide +kernel

theorem wit_frames_fault : (.faultRaise 63 1 : Instr).isFaultRow = true ∧ holdsAfter (.faultRaise 63 1) up (fun _ => true) = true := by decide +kernel

theorem wit_frames_recorder : (.recTrigger .mspi 0x80000000 : Instr).isRecorderRow = true ∧ holdsAfter (.recTrigger .mspi 0x80000000) up (fun _ => true) = true := by decide +kernel

theorem wit_resetHolds : (with_ (fun h => { h with boot := { h.boot with phase := .off } })).hw.live = false ∧ (.aonTick : Instr).isStart = false ∧ holdsAfter .aonTick (with_ (fun h => { h with boot := { h.boot with phase := .off } })) (fun x => decide (x.hw.time = up.hw.time)) = true := by decide +kernel

theorem wit_otp : (authHub 1 1 [2, 0, 0, 0, 0, 0, 0, 0] [166, 135, 20, 6, 154, 166, 119, 77, 117, 220, 123, 221, 220, 94, 125, 146] (fun h => h.put SYS_HUB_ID_ID 3)).otp.shaped = true := by decide +kernel

theorem wit_onlyCritical : (.powerOn : Instr).isCritical = false ∧ holdsAfter .powerOn { up with otp := keyed } (fun x => decide (x.otp = keyed)) = true := by decide +kernel

theorem wit_snapshotHolds : (.aonTick : Instr).touchesSnapshot = false ∧ holdsAfter .aonTick { up with frozen := some up.hw } (fun x => x.frozen.isSome) = true := by decide +kernel

theorem wit_readsDoNotShowKeys : up.frozen = none ∧ keyed.otpTrims = up.hw.lcs.otpTrims ∧ 0x34 + 4 * 2 ≤ 0x10000000 := by decide +kernel

theorem wit_commitRaises : (with_ (fun h => { h with epoch := { h.epoch with sealedSet := some { set := { regs := [], table := [] }, path := 2, srcId := 9, validated := true, seen := none } }, smp := { h.smp with lastBoundary := none }, seq := { h.seq with running := false } })).hw.live = true ∧ (with_ (fun h => { h with epoch := { h.epoch with sealedSet := some { set := { regs := [], table := [] }, path := 2, srcId := 9, validated := true, seen := none } }, smp := { h.smp with lastBoundary := none }, seq := { h.seq with running := false } })).hw.coreOn = true ∧ (with_ (fun h => { h with epoch := { h.epoch with sealedSet := some { set := { regs := [], table := [] }, path := 2, srcId := 9, validated := true, seen := none } }, smp := { h.smp with lastBoundary := none }, seq := { h.seq with running := false } })).hw.epoch.sealedSet = some { set := { regs := [], table := [] }, path := 2, srcId := 9, validated := true, seen := none } ∧ (with_ (fun h => { h with epoch := { h.epoch with sealedSet := some { set := { regs := [], table := [] }, path := 2, srcId := 9, validated := true, seen := none } }, smp := { h.smp with lastBoundary := none }, seq := { h.seq with running := false } })).hw.applyAt { set := { regs := [], table := [] }, path := 2, srcId := 9, validated := true, seen := none } = some up.hw.time.now := by decide +kernel

theorem wit_status : up.status ≤ 8 ∧ holdsAfter (.registerWrite .mspi 2 0 0) up (fun x => decide (x.status = 2)) = true := by decide +kernel

def st_turned : State := authHub 1 1 [2, 0, 0, 0, 0, 0, 0, 0] [0, 135, 20, 6, 154, 166, 119, 77, 117, 220, 123, 221, 220, 94, 125, 146] (fun h => h.put SYS_HUB_ID_ID 3)

def st_replayed : State := authHub 1 1 [2, 0, 0, 0, 0, 0, 0, 0] [166, 135, 20, 6, 154, 166, 119, 77, 117, 220, 123, 221, 220, 94, 125, 146] (fun h => (h.put SYS_HUB_ID_ID 3).put LCS_CTR_LO_CTR_LO 7)

theorem wit_turned_1 : st_turned.authTurns .b (authEntry 1 [2, 0, 0, 0, 0, 0, 0, 0] [0, 135, 20, 6, 154, 166, 119, 77, 117, 220, 123, 221, 220, 94, 125, 146]) = true ∧ authOk (st_turned.hw.keyOf st_turned.hw.lcs.cmdKeys) (authEntry 1 [2, 0, 0, 0, 0, 0, 0, 0] [0, 135, 20, 6, 154, 166, 119, 77, 117, 220, 123, 221, 220, 94, 125, 146]).frame = false := by decide +kernel

theorem wit_turned_2 : st_replayed.authTurns .b (authEntry 1 [2, 0, 0, 0, 0, 0, 0, 0] [166, 135, 20, 6, 154, 166, 119, 77, 117, 220, 123, 221, 220, 94, 125, 146]) = true ∧ authOk (st_replayed.hw.keyOf st_replayed.hw.lcs.cmdKeys) (authEntry 1 [2, 0, 0, 0, 0, 0, 0, 0] [166, 135, 20, 6, 154, 166, 119, 77, 117, 220, 123, 221, 220, 94, 125, 146]).frame = true ∧ authCounter (authEntry 1 [2, 0, 0, 0, 0, 0, 0, 0] [166, 135, 20, 6, 154, 166, 119, 77, 117, 220, 123, 221, 220, 94, 125, 146]).frame.payload ≤ st_replayed.hw.get64 LCS_CTR_LO_CTR_LO LCS_CTR_HI_CTR_HI := by decide +kernel

/-- Each names an object one past the last, and the check and the hub refuse it. -/
theorem test_illFormed_0 : ([.domainWakeStart (.strobe 8),
    .domainWakeStart (.burgee 16),
    .calStepStart (.frontEnd 360),
    .calStepStart (.adc 9),
    .seqTableWrite .mspi 0x77FFC 0,
    .seqTableWrite .mspi 0x80000 0,
    .seqTableWrite .mspi 0x78002 0,
    .memWindowWrite .mspi 0xFFFFFFC 0,
    .memWindowWrite .mspi 0x11800000 0,
    .memWindowWrite .mspi 0x10000002 0,
    .fieldRailTimeout 2,
    .ovTrip 640 false 0,
    .switchCurrentLimit 640 false,
    .ovClear 640 false 0,
    .routeReclose 640,
    .tstatOvClear .mspi 640 0 0,
    .openComparatorTrip 320,
    .openComparatorClear 320,
    .openStateEnd 320,
    .probeInterval 640,
    .probePulseStart 640,
    .probePulseEnd 640 0,
    .probeRecoveryEnd 640,
    .saturationTrip 320] : List Instr).all (fun c => !c.wf && (match exec c up with | .fault .noSuchObject => true | _ => false)) = true := by decide +kernel

/-- Each names an object one past the last, and the check and the hub refuse it. -/
theorem test_illFormed_1 : ([.saturationClear 320,
    .driverChange 80,
    .driverLimitEnter 80,
    .driverLimitLeave 80,
    .excOvercurrent 80,
    .excReversed 80,
    .reversedClear .mspi 80 0,
    .compliance 80,
    .chopStart 80,
    .chopEdge 80,
    .reliefPrepare 320,
    .reliefSwitchover 40,
    .reliefOldOpen 40,
    .reliefFinish 40,
    .strobePlace 8,
    .groupStrobe 8,
    .syncReset 8,
    .slotSample 17 0 0 false 0,
    .ilStart .mspi 16 0,
    .ilDeadline 16,
    .coreRelief 8,
    .adcCoreFail 9 false,
    .adcCoreRehab .mspi 9,
    .streamFrameBuild 512] : List Instr).all (fun c => !c.wf && (match exec c up with | .fault .noSuchObject => true | _ => false)) = true := by decide +kernel

/-- Each names an object one past the last, and the check and the hub refuse it. -/
theorem test_illFormed_2 : ([.gapRecordBuild 512,
    .eraEndRecord 512,
    .stoppedRecord 512,
    .triggerDecide 16,
    .triggerTimeout 16,
    .segmentAllocate 16,
    .segmentWordCopy 4096 0,
    .segmentWordCopy 0 16,
    .segmentClose 4096,
    .segmentMeasureDone 4096,
    .tileVerify 6144 0,
    .tileReseal .mspi 6144 0,
    .tileResealDone 6144,
    .histBlockStart 512,
    .segBlockStart 4096,
    .laneDown .b 4 0 0,
    .laneReadmit .b 4,
    .trackBound .b 4 0 false,
    .trackBound .b 0 4 false,
    .recalTimeout .b 4,
    .laneReequalise .b 4,
    .delayStep .b 4 [],
    .slicerStep .b 4 [],
    .xingAck 8] : List Instr).all (fun c => !c.wf && (match exec c up with | .fault .noSuchObject => true | _ => false)) = true := by decide +kernel

/-- Each names an object one past the last, and the check and the hub refuse it. -/
theorem test_illFormed_3 : ([.xingRequest 8,
    .queueResync 9 0,
    .queueResync 0 2,
    .faultRaise 64 0,
    .faultCauseEnd 64,
    .reactionTimerExpire 64,
    .parkEnd 64,
    .recSlotBadClear .mspi 8 0,
    .supplyMonitorTrip 8,
    .fieldRailTimeout 8,
    .complianceClear 80] : List Instr).all (fun c => !c.wf && (match exec c up with | .fault .noSuchObject => true | _ => false)) = true := by decide +kernel

theorem test_wellFormed_0 : ([.domainWakeStart (.strobe 7),
    .domainWakeStart (.burgee 15),
    .calStepStart (.frontEnd 359),
    .calStepStart (.adc 8),
    .seqTableWrite .mspi 0x78000 0,
    .seqTableWrite .mspi 0x7FFFC 0,
    .memWindowWrite .mspi 0x10000000 0,
    .memWindowWrite .mspi 0x117FFFFC 0,
    .fieldRailTimeout 3,
    .ovTrip 639 false 0,
    .switchCurrentLimit 639 false,
    .ovClear 639 false 0,
    .routeReclose 639,
    .tstatOvClear .mspi 639 0 0,
    .openComparatorTrip 319,
    .openComparatorClear 319,
    .openStateEnd 319,
    .probeInterval 639,
    .probePulseStart 639,
    .probePulseEnd 639 0,
    .probeRecoveryEnd 639,
    .saturationTrip 319,
    .saturationClear 319,
    .driverChange 79] : List Instr).all (fun c => c.wf) = true := by decide +kernel

theorem test_wellFormed_1 : ([.driverLimitEnter 79,
    .driverLimitLeave 79,
    .excOvercurrent 79,
    .excReversed 79,
    .reversedClear .mspi 79 0,
    .compliance 79,
    .chopStart 79,
    .chopEdge 79,
    .reliefPrepare 319,
    .reliefSwitchover 39,
    .reliefOldOpen 39,
    .reliefFinish 39,
    .strobePlace 7,
    .groupStrobe 7,
    .syncReset 7,
    .slotSample 16 0 0 false 0,
    .ilStart .mspi 15 0,
    .ilDeadline 15,
    .coreRelief 7,
    .adcCoreFail 8 false,
    .adcCoreRehab .mspi 8,
    .streamFrameBuild 511,
    .gapRecordBuild 511,
    .eraEndRecord 511] : List Instr).all (fun c => c.wf) = true := by decide +kernel

theorem test_wellFormed_2 : ([.stoppedRecord 511,
    .triggerDecide 15,
    .triggerTimeout 15,
    .segmentAllocate 15,
    .segmentWordCopy 4095 0,
    .segmentWordCopy 0 15,
    .segmentClose 4095,
    .segmentMeasureDone 4095,
    .tileVerify 6143 0,
    .tileReseal .mspi 6143 0,
    .tileResealDone 6143,
    .histBlockStart 511,
    .segBlockStart 4095,
    .laneDown .b 3 0 0,
    .laneReadmit .b 3,
    .trackBound .b 3 0 false,
    .trackBound .b 0 3 false,
    .recalTimeout .b 3,
    .laneReequalise .b 3,
    .delayStep .b 3 [],
    .slicerStep .b 3 [],
    .xingAck 7,
    .xingRequest 7,
    .queueResync 8 0] : List Instr).all (fun c => c.wf) = true := by decide +kernel

theorem test_wellFormed_3 : ([.queueResync 0 1,
    .faultRaise 63 0,
    .faultCauseEnd 63,
    .reactionTimerExpire 63,
    .parkEnd 63,
    .recSlotBadClear .mspi 7 0,
    .supplyMonitorTrip 7,
    .fieldRailTimeout 7,
    .complianceClear 79] : List Instr).all (fun c => c.wf) = true := by decide +kernel

end Sys2Proof.Tests
end

/-! ## What keeps a held snapshot (R16, R40, R41) -/

namespace Sys2Proof.Machine

/-! ### Commands taken from the FIFOs -/

/-- What does not look at the hub and is kept by the command's own effect is kept by taking the command. -/
theorem State.takeCommand_keeps {β : Type} (g : State → β) (is : Frame → Bool) (f : State → Port → CmdEntry → State)
    (hhw : ∀ (s : State) (h : Hw), g { s with hw := h } = g s) (hf : ∀ s p e, g (f s p e) = g s) (s : State) :
    g (s.takeCommand is f) = g s := by
  unfold State.takeCommand
  split
  · rfl
  · split
    · split
      · dsimp only
        split
        · rw [hf, hhw]
        · rw [hhw]
      · rfl
    · rfl

theorem State.takeCommand_frozen (is : Frame → Bool) (f : State → Port → CmdEntry → State)
    (hf : ∀ s p e, (f s p e).frozen = s.frozen) (s : State) : (s.takeCommand is f).frozen = s.frozen :=
  State.takeCommand_keeps State.frozen is f (fun _ _ => rfl) hf s

theorem State.regRead_frozen (s : State) (p : Port) (e : CmdEntry) : (s.regRead p e).frozen = s.frozen := by
  unfold State.regRead
  dsimp only
  split
  · rfl
  · split <;> rfl

theorem State.capDisc_frozen (s : State) (p : Port) (e : CmdEntry) : (s.capDisc p e).frozen = s.frozen := by
  unfold State.capDisc
  dsimp only
  split <;> rfl

theorem State.authAnswer_frozen (s : State) (key : Option Nat) (p : Port) (e : CmdEntry) (n : Nat) (l : List Byte) :
    (s.authAnswer key p e n l).frozen = s.frozen := (rfl)

theorem State.authTurned_frozen (s : State) (h : Hw) (key : Option Nat) (p : Port) (e : CmdEntry) (n : Nat) :
    (s.authTurned h key p e n).frozen = s.frozen := State.authAnswer_frozen _ key p e n []

theorem State.authPerform_frozen (s : State) (h : Hw) (key : Option Nat) (p : Port) (e : CmdEntry) (ok : Bool) :
    (s.authPerform h key p e ok).frozen = s.frozen := by
  unfold State.authPerform
  dsimp only
  split <;> rfl

/-- However an AUTH_CMD is answered, a held snapshot stays: a restart that it orders comes later. -/
theorem State.authRun_frozen (ctrOk opOk : Bool) (s : State) (p : Port) (e : CmdEntry) :
    (s.authRun ctrOk opOk p e).frozen = s.frozen := by
  unfold State.authRun
  dsimp only
  split
  · exact State.authAnswer_frozen _ _ _ _ _ _
  · simp only [apply_ite State.frozen, State.authAnswer_frozen, State.authTurned_frozen, State.authPerform_frozen, ite_self]

theorem State.critical_frozen (s : State) (cmd : Nat) (ctrOk opOk : Bool) :
    (s.critical cmd ctrOk opOk).frozen = s.frozen := by
  unfold State.critical
  split
  · rfl
  · exact State.takeCommand_frozen _ _ (State.authRun_frozen ctrOk opOk) s

/-! ### Reads -/

/-- A read over MSPI is performed or waits for CORE; either way the snapshot stays. -/
theorem State.mspiAccess_read_frozen (s : State) (a n : Nat) : (s.mspiAccess (.read a n)).frozen = s.frozen := by
  unfold State.mspiAccess
  split
  · unfold State.mspiDo State.mspiRead
    dsimp only
    split <;> rfl
  · rfl

/-! ### The shared shapes of a meaning -/

theorem actOn_frozen {s t : State} {b : Bool} {f : Hw → Hw} (h : actOn s b f = .next t) : t.frozen = s.frozen := by
  obtain ⟨-, hfrozen, -⟩ := actOn_frame s t b f h
  exact hfrozen

theorem accWrite_frozen {s t : State} {q : Requester} {b : Bool} {f : Hw → Hw} (h : accWrite s q b f = .next t) :
    t.frozen = s.frozen := by
  obtain ⟨-, hfrozen, -⟩ := accWrite_frame s t q b f h
  exact hfrozen

theorem onPort_frozen {s t : State} {b : Bool} {f : Hw → Hw} (h : onPort s b f = .next t) : t.frozen = s.frozen :=
  actOn_frozen h

/-! ### Every command -/

/-- A command that acts on the hub alone, by whatever shape its row has, keeps the snapshot; the few with a shape of
their own are the reads, the two table and backfill writes, and the commands that come in frames. -/
theorem exec_frozen_of_not_touches (c : Instr) (s x : State) (hc : c.touchesSnapshot = false) (h : exec c s = .next x) :
    x.frozen = s.frozen := by
  unfold exec at h
  cases c with
  | registerWrite | frameBoundary | commitApply | snapTake | snapRel | snapTimeout | domainWakeDone | regWrite
  | snapRead | powerOn | resetN | mspiWrite | commandRestart | aonResetBegin | erasureComplete => cases hc
  | aonTick | commitValidated | stitchWordReceive | sidebandEvent | domainWakeStart | coreWakeDemand | domainSleep
  | ovTrip | switchCurrentLimit | ovClear | routeReclose | openComparatorTrip | openComparatorClear | openStateEnd
  | probeInterval | probePulseStart | probePulseEnd | probeRecoveryEnd | saturationTrip | saturationClear
  | driverChange | driverLimitEnter | driverLimitLeave | excOvercurrent | vexcTotalOvercurrent | excReversed
  | compliance | chopStart | chopEdge | reliefPrepare | reliefSwitchover | reliefOldOpen | reliefFinish
  | strobePlace | groupStrobe | syncReset | syncInEdge | syncScheduleEval | syncOutPulseEnd | slotSample
  | hkTimerExpire | ilRunStart | ilDeadline | calStarved | coreRelief | adcCoreFail | romBackgroundCheck | nop
  | conv | auxc | feed | write | wait | waitEnd | fend | loop | jump | lend | cconv | locateComplete | seqScrubRead
  | streamFrameBuild | gapRecordBuild | eraEndRecord | stoppedRecord | backfillServe | triggerDecide
  | triggerTimeout | segmentAllocate | segmentWordCopy | segmentClose | segmentMeasureDone | memClrDone
  | tileVerify | tileResealDone | memScrubRead | histBlockStart | segBlockStart | cinchBlockDone | cinJobAutoResume
  | eventFrameBuild | timeSync | timePing | giveUp | portHealthy | revertHoldExpire | shadowTimeout | timeHoldover
  | freeTimeout | calRunStart | calStepTimeout | calPeriodicRun | delayStep | slicerStep | xingAck | xingRequest
  | queueResync | faultRaise | faultCauseEnd | reactionTimerExpire | parkEnd | faultNMinwEnd | safeEnd
  | recordAssemble | recordFlush | recorderScan | opsecSave | loaderSfdp | imageHeaderJudge | imageLoad
  | fieldReferencesReady | repeaterMode | supplyMonitorTrip | fieldRailTimeout | refclkLoss | complianceClear =>
    exact actOn_frozen h
  | commitGo | snapReq | tstatOvClear | reversedClear | syncScheduleArm | syncScheduleCancel | hkCtlWrite | ilStart
  | adcCoreRehab | filSwap | trgRestart | trgFire | trgSegRel | memWindowWrite | memClr | tileReseal | flipmaskArm
  | cinJobGo | cinJobResume | cinJobAbort | cinOutRdWrite | lnkRetrain | forceWrite | timIncrWrite | timAdjWrite
  | timSetWrite | timLock | calRunAll | faultStatusClear | safeEnter | safeResume | recTrigger | recFetch
  | recBuntClr | recSlotBadClear | startFree =>
    exact accWrite_frozen h
  | portDownEnd | clockLaneLocked | lockDone | portUp | trainingFail | laneDown | clockLaneLoss | widthChange
  | widthBlockReceive | laneReadmit | trackBound | recalTimeout | laneReequalise | clockEqStep | laneSleep
  | sleepBlockReceive | laneWake | abortBlockReceive | frameHeaderReceive | frameTrailerCheck | frameForward
  | egressSend | egressLagDrop | linkCtlWake | linkCtlStatus | linkCtlRetrain | crcWindowEnd | wakeAmReceive =>
    exact onPort_frozen h
  | aonResetEnd | otpReadDone | rcRead | multiwordLatchRead => cases h; rfl
  | calStepStart t => cases t <;> exact actOn_frozen h
  | seqTableWrite q a v =>
    simp only [execSeqTableWrite] at h
    split at h <;> cases h
    rfl
  | backfillSubmit q src v =>
    simp only [execBackfillSubmit] at h
    split at h <;> cases h <;> rfl
  | fltEvtQueueRead q =>
    simp only [execFltEvtQueueRead] at h
    split at h
    · split at h <;> cases h <;> rfl
    · cases h; rfl
  | timNowRead q d =>
    simp only [execTimNowRead] at h
    split at h <;> cases h <;> rfl
  | regRead => cases h; exact State.takeCommand_frozen _ _ State.regRead_frozen s
  | capDisc => cases h; exact State.takeCommand_frozen _ _ State.capDisc_frozen s
  | mspiRead a n =>
    cases h
    split
    · exact State.mspiAccess_read_frozen s a n
    · rfl
  | lifecycle | keyRotate | imageWrite | recorderErase | forcePort | resume | zeroize | debugUnlock | factoryReset =>
    cases h; exact State.critical_frozen s _ _ _

/-- Settles O56: the frame of every command that is not one of the snapshot's own. -/
theorem snapshotHolds : Obligations.SnapshotHolds := exec_frozen_of_not_touches

end Sys2Proof.Machine

/-! ## Accesses outside the conditions that the access statements name (R11, R642) -/

namespace Sys2Proof.Machine

/-! ### A write beyond the register space -/

/-- R11: an address of more than 32 bits is refused before it is asked whether the requester's writes have effect. -/
theorem State.busWrite_beyond (s : State) (q : Requester) (src a : Nat) (v : Word) (ha : 2 ^ 32 ≤ a) :
    s.busWrite q src a v = (s, stAccess) := if_pos (Or.inr ha)

theorem exec_registerWrite_beyond (s : State) (q : Requester) (a : Nat) (v : Word) (ha : 2 ^ 32 ≤ a) :
    exec (.registerWrite q 4 a v) s = .next { s with rdata := [], status := stAccess } := by
  simp only [exec, execRegisterWrite, if_true, State.busWrite_beyond s q 0 a v ha]

/-- Refutes O24: its last clause asks STATUS 0 of every aligned write whose requester's writes have no effect, and does not
keep to addresses of 32 bits. Before the OTP read has ended, the write at 2^32 is answered STATUS ACCESS. -/
theorem not_registerWrites : ¬ Obligations.RegisterWrites := by
  unfold Obligations.RegisterWrites
  rintro ⟨-, -, -, -, hclosed⟩
  obtain ⟨x, hx, rfl⟩ := hclosed State.reset .mspi (2 ^ 32) 0 (by decide) (by decide)
  rw [exec_registerWrite_beyond State.reset .mspi (2 ^ 32) 0 (Nat.le_refl _)] at hx
  have hstatus : stAccess = 0 := congrArg State.status (Host.Outcome.next.inj hx)
  exact absurd hstatus (by decide)

/-! ### An MSPI read before the OTP read has ended -/

/-- R642: an MSPI access that no bus serves is performed at once, with CORE asleep too. -/
theorem State.mspiAccess_unserved (s : State) (m : MspiAccess) (h : s.hw.readable .mspi = false) :
    s.mspiAccess m = s.mspiDo m := by
  simp [State.mspiAccess, h]

theorem State.mspiRead_unserved (s : State) (a n : Nat) (h : s.hw.readable .mspi = false) :
    s.mspiRead a n = { s with rdata := List.replicate n 0, status := stOk } := by
  simp [State.mspiRead, h]

theorem exec_mspiRead_unserved (s : State) (a n : Nat) (hlive : s.hw.live = true) (h : s.hw.readable .mspi = false) :
    exec (.mspiRead a n) s = .next { s with rdata := List.replicate n 0, status := stOk } := by
  simp only [exec, execMspiRead, hlive, if_true, State.mspiAccess_unserved s _ h, State.mspiDo,
    State.mspiRead_unserved s a n h]

/-- Refutes O25: its clause on a sleeping CORE asks every MSPI read to wait, and leaves out that the bus serves MSPI. In the
state after reset CORE sleeps and the OTP read is under way, and a read of one word is answered 0 at once. -/
theorem not_registerReads : ¬ Obligations.RegisterReads := by
  unfold Obligations.RegisterReads
  rintro ⟨-, -, -, -, hasleep, -, -, -⟩
  obtain ⟨x, hx, hrdata, -⟩ := hasleep State.reset 0 1 (by decide) (by decide)
  rw [exec_mspiRead_unserved State.reset 0 1 (by decide) (by decide)] at hx
  have hanswer : [0] = x.rdata := congrArg State.rdata (Host.Outcome.next.inj hx)
  rw [hrdata] at hanswer
  exact absurd hanswer (by decide)

end Sys2Proof.Machine

namespace Sys2Proof.Machine

/-! ## Views: what an operation leaves as it is

A view looks at registers, the epoch, which clock domains run, and the two ports. One lemma per operation says that a
view does not see it; each statement then takes the view of what it speaks about. -/

/-! ### What a view may look at -/

/-- Which clock domains run. Asking for a wake changes none of them: a domain that stands still begins to wake. -/
def Hw.lit (h : Hw) (d : Domain) : Bool := decide ((h.dom d).mode = .on)

/-- The part of the hub that views look at. -/
structure Seen where
  regs : Store Word
  epoch : EpochSt
  lit : Domain → Bool
  portA : PortSt
  portB : PortSt

def Hw.seen (h : Hw) : Seen := ⟨h.regs, h.epoch, h.lit, h.net.portA, h.net.portB⟩

/-- A register that no view looks at: SYS_HUB_ID, SYS_BOOT, HRN_CONFLICT, and those from FE_STATUS on. -/
abbrev PlainAddr (a : Nat) : Prop := a = 0x4 ∨ a = 0x8 ∨ a = 0x11008 ∨ 0x20800 ≤ a

/-- A field that does not reach the count of lagging copies of either port. -/
abbrev OffLag (f : Fld) : Prop :=
  (f.addr ≠ 0xC0110 ∧ f.addr ≠ 0xD0110) ∨ (f.lo ≤ f.hi ∧ f.hi < 16)

/-- A view: it sees no plain register but, at most, the counts of lagging copies. -/
structure View (β : Type) where
  look : Seen → β
  look_put : ∀ (h : Hw) (f : Fld) (v : Nat), PlainAddr f.addr → OffLag f → look (h.put f v).seen = look h.seen

def View.see {β : Type} (V : View β) (h : Hw) : β := V.look h.seen

/-- The view sees nothing of the links. -/
structure View.Far {β : Type} (V : View β) : Prop where
  setReg : ∀ (h : Hw) (a : Nat) (w : Word), PlainAddr a → V.see (h.setReg a w) = V.see h
  setPort : ∀ (h : Hw) (p : Port) (x : PortSt), V.see (h.setPort p x) = V.see h

namespace View

variable {β : Type} {V : View β}

/-! ### Registers and groups -/

theorem see_put (h : Hw) (f : Fld) (v : Nat) (hf : PlainAddr f.addr) (hl : V.Far ∨ OffLag f) :
    V.see (h.put f v) = V.see h :=
  hl.elim (fun hV => hV.setReg h _ _ hf) (V.look_put h f v hf)

/-- A field of a register that stands alone. -/
@[simp ↓] theorem see_put_single (h : Hw) (a hi lo v : Nat) (ha : a = 0x4 ∨ a = 0x8 ∨ a = 0x11008 ∨ 0x20800 ≤ a)
    (hl : V.Far ∨ (a ≠ 0xC0110 ∧ a ≠ 0xD0110)) : V.see (h.put ⟨a, hi, lo⟩ v) = V.see h :=
  see_put h _ v ha (hl.imp_right Or.inl)

/-- A field of a register of an array that begins at `a`: beyond both ports, or too low in its word for their counts. -/
theorem see_put_from (h : Hw) (a b hi lo v : Nat) (hb : a ≤ b) (ha : 0x20800 ≤ a)
    (hl : V.Far ∨ 0xD0110 < a ∨ (lo ≤ hi ∧ hi < 16)) : V.see (h.put ⟨b, hi, lo⟩ v) = V.see h := by
  refine see_put h _ v (Or.inr (Or.inr <| Or.inr (Nat.le_trans ha hb))) (hl.imp_right (fun hl => ?_))
  rcases hl with hl | hl
  · exact Or.inl ⟨(by omega : b ≠ 0xC0110), (by omega : b ≠ 0xD0110)⟩
  · exact Or.inr hl

@[simp ↓] theorem see_put_array (h : Hw) (a x hi lo v : Nat) (ha : 0x20800 ≤ a)
    (hl : V.Far ∨ 0xD0110 < a ∨ (lo ≤ hi ∧ hi < 16)) : V.see (h.put ⟨a + x, hi, lo⟩ v) = V.see h :=
  see_put_from h a _ hi lo v (by omega) ha hl

@[simp ↓] theorem see_put_array2 (h : Hw) (a x y hi lo v : Nat) (ha : 0x20800 ≤ a)
    (hl : V.Far ∨ 0xD0110 < a ∨ (lo ≤ hi ∧ hi < 16)) : V.see (h.put ⟨a + x + y, hi, lo⟩ v) = V.see h :=
  see_put_from h a _ hi lo v (by omega) ha hl

@[simp ↓] theorem see_put_array3 (h : Hw) (a x y z hi lo v : Nat) (ha : 0x20800 ≤ a)
    (hl : V.Far ∨ 0xD0110 < a ∨ (lo ≤ hi ∧ hi < 16)) : V.see (h.put ⟨a + x + y + z, hi, lo⟩ v) = V.see h :=
  see_put_from h a _ hi lo v (by omega) ha hl

@[simp ↓] theorem see_bump (h : Hw) (f : Fld) (n : Nat) (hf : ∀ v, V.see (h.put f v) = V.see h) :
    V.see (h.bump f n) = V.see h := hf _

@[simp ↓] theorem see_setReg (hV : V.Far) (h : Hw) (a : Nat) (w : Word) (ha : PlainAddr a) :
    V.see (h.setReg a w) = V.see h := hV.setReg h a w ha

@[simp ↓] theorem see_setPort (hV : V.Far) (h : Hw) (p : Port) (x : PortSt) : V.see (h.setPort p x) = V.see h :=
  hV.setPort h p x

@[simp ↓] theorem see_flt (h : Hw) (x : FltSt) : V.see { h with flt := x } = V.see h := (rfl)
@[simp ↓] theorem see_recd (h : Hw) (x : RecSt) : V.see { h with recd := x } = V.see h := (rfl)
@[simp ↓] theorem see_field (h : Hw) (x : FieldSt) : V.see { h with field := x } = V.see h := (rfl)
@[simp ↓] theorem see_smp (h : Hw) (x : SmpSt) : V.see { h with smp := x } = V.see h := (rfl)
@[simp ↓] theorem see_adc (h : Hw) (x : AdcSt) : V.see { h with adc := x } = V.see h := (rfl)
@[simp ↓] theorem see_seq (h : Hw) (x : SeqSt) : V.see { h with seq := x } = V.see h := (rfl)
@[simp ↓] theorem see_str (h : Hw) (x : StrSt) : V.see { h with str := x } = V.see h := (rfl)
@[simp ↓] theorem see_trg (h : Hw) (x : TrgSt) : V.see { h with trg := x } = V.see h := (rfl)
@[simp ↓] theorem see_mem (h : Hw) (x : MemSt) : V.see { h with mem := x } = V.see h := (rfl)
@[simp ↓] theorem see_cin (h : Hw) (x : CinSt) : V.see { h with cin := x } = V.see h := (rfl)
@[simp ↓] theorem see_cal (h : Hw) (x : CalSt) : V.see { h with cal := x } = V.see h := (rfl)
@[simp ↓] theorem see_boot (h : Hw) (x : BootSt) : V.see { h with boot := x } = V.see h := (rfl)
@[simp ↓] theorem see_time (h : Hw) (x : TimeSt) : V.see { h with time := x } = V.see h := (rfl)
@[simp ↓] theorem see_reqs (h : Hw) (x : Store ReqSt) : V.see { h with reqs := x } = V.see h := (rfl)
@[simp ↓] theorem see_draw (h : Hw) : V.see h.draw = V.see h := (rfl)

/-- The link's own lists aside, a view sees the two ports alone. -/
@[simp ↓] theorem see_net (h : Hw) (x : NetSt) (ha : x.portA = h.net.portA) (hb : x.portB = h.net.portB) :
    V.see { h with net := x } = V.see h := by
  simp only [View.see, Hw.seen, ha, hb]; rfl

theorem see_clk (h : Hw) (x : ClkSt) (hx : ({ h with clk := x } : Hw).lit = h.lit) : V.see { h with clk := x } = V.see h := by
  simp only [View.see, Hw.seen, hx]

/-! ### Combinators -/

@[simp ↓] theorem see_when (h : Hw) (c : Bool) (f : Hw → Hw) (hf : V.see (f h) = V.see h) : V.see (h.when c f) = V.see h :=
  when_keeps V.see f c h hf

@[simp ↓] theorem see_each {α : Type} (h : Hw) (l : List α) (f : Hw → α → Hw) (hf : ∀ h x, V.see (f h x) = V.see h) :
    V.see (h.each l f) = V.see h := each_keeps V.see f hf l h

theorem see_each_mem {α : Type} (l : List α) (f : Hw → α → Hw) :
    ∀ h : Hw, (∀ h, ∀ x ∈ l, V.see (f h x) = V.see h) → V.see (h.each l f) = V.see h := by
  induction l with
  | nil => intro h _; rfl
  | cons x t ih =>
    intro h hf
    exact (ih (f h x) (fun h y hy => hf h y (List.mem_cons_of_mem _ hy))).trans (hf h x List.mem_cons_self)

/-- A fold that carries something beside the hub. -/
theorem see_foldl {α γ : Type} (l : List α) (f : Hw × γ → α → Hw × γ) (hf : ∀ p x, V.see (f p x).1 = V.see p.1) :
    ∀ p : Hw × γ, V.see (l.foldl f p).1 = V.see p.1 := by
  induction l with
  | nil => intro p; rfl
  | cons x t ih => intro p; exact (ih (f p x)).trans (hf p x)

/-! ### Clock domains and crossings -/

@[simp ↓] theorem see_setXing (h : Hw) (x : Nat) (c : Crossing) : V.see (h.setXing x c) = V.see h :=
  see_clk h _ (funext (fun d => by cases d <;> rfl))

@[simp ↓] theorem see_xingReq (h : Hw) (x : Nat) : V.see (h.xingReq x) = V.see h := by
  unfold Hw.xingReq
  dsimp only
  split
  · simp
  · split <;> simp +decide [xingOvr]

theorem dom_setDom (h : Hw) (d e : Domain) (x : DomSt) : (h.setDom d x).dom e = if e = d then x else h.dom e := by
  cases d <;> cases e <;> simp [Hw.setDom, Hw.dom, storeGet_set]

theorem lit_setDom (h : Hw) (d : Domain) (x : DomSt) (hx : x.mode ≠ .on) (hd : (h.dom d).mode ≠ .on) :
    (h.setDom d x).lit = h.lit := by
  funext e
  rw [Hw.lit, Hw.lit, dom_setDom]
  split
  next he => rw [he, decide_eq_false hx, decide_eq_false hd]
  next => rfl

theorem seen_setDom (h : Hw) (d : Domain) (x : DomSt) (hx : x.mode ≠ .on) (hd : (h.dom d).mode ≠ .on) :
    V.see (h.setDom d x) = V.see h := by
  have hlit := lit_setDom h d x hx hd
  cases d <;> exact see_clk h _ hlit

@[simp ↓] theorem see_wake (h : Hw) (d : Domain) : V.see (h.wake d) = V.see h := by
  unfold Hw.wake
  dsimp only
  split
  next hmode =>
    split
    · rfl
    · exact seen_setDom h d _ (by simp) (by simp [hmode])
  next hmode => exact seen_setDom h d _ (by simp [hmode]) (by simp [hmode])
  next => rfl

/-! ### The lanes of a port -/

section Lanes
variable (hV : V.Far)
include hV

@[simp ↓] theorem see_setLane (h : Hw) (p : Port) (l : Nat) (x : Lane) : V.see (h.setLane p l x) = V.see h :=
  hV.setPort h p _

@[simp ↓] theorem see_nextSlot (h : Hw) (p : Port) : V.see (h.nextSlot p) = V.see h := hV.setPort h p _

@[simp ↓] theorem see_markLane (h : Hw) (p : Port) (ctype kind l : Nat) : V.see (h.markLane p ctype kind l) = V.see h :=
  see_setLane hV h p l _

@[simp ↓] theorem see_trainLane (h : Hw) (p : Port) (l : Nat) : V.see (h.trainLane p l) = V.see h := by
  unfold Hw.trainLane; split <;> simp [hV]

@[simp ↓] theorem see_openSlot (h : Hw) (p : Port) : V.see (h.openSlot p) = V.see h := by
  have hout (h : Hw) (l : List Nat) : V.see ((h.each l (fun h l => h.trainLane p l)).nextSlot p) = V.see h := by simp [hV]
  unfold Hw.openSlot
  rw [hout, see_when _ _ _ ((hout _ _).trans (see_each _ _ _ (fun h l => see_markLane hV h p _ _ l)))]

@[simp ↓] theorem see_sendBlock (h : Hw) (p : Port) (b : Bool × List Byte) : V.see (h.sendBlock p b) = V.see h := by
  unfold Hw.sendBlock; simp [hV]

@[simp ↓] theorem see_sendIdle (h : Hw) (p : Port) : V.see (h.sendIdle p) = V.see h := by
  unfold Hw.sendIdle; simp [hV]

@[simp ↓] theorem see_padSlot (h : Hw) (p : Port) : V.see (h.padSlot p) = V.see h := by
  unfold Hw.padSlot; simp [hV]

@[simp ↓] theorem see_fillSlot (h : Hw) (p : Port) : V.see (h.fillSlot p) = V.see h := by
  unfold Hw.fillSlot; dsimp only; split <;> simp [hV]

@[simp ↓] theorem see_fillLanes (h : Hw) (p : Port) : V.see (h.fillLanes p) = V.see h := by
  unfold Hw.fillLanes; dsimp only
  repeat' split
  all_goals simp [see_nextSlot hV, see_trainLane hV, see_padSlot hV, see_fillSlot hV]

@[simp ↓] theorem see_sendStriped (h : Hw) (p : Port) (bs : List (Bool × List Byte)) : V.see (h.sendStriped p bs) = V.see h := by
  unfold Hw.sendStriped; simp [hV]

@[simp ↓] theorem see_dropRx (h : Hw) (p : Port) : V.see (h.dropRx p) = V.see h := by
  unfold Hw.dropRx
  split
  · dsimp only
    simp [hV]
  · rfl

end Lanes

/-! ### Control of the two ports -/

@[simp ↓] theorem see_sweep (h : Hw) : V.see h.sweep = V.see h := see_net h _ rfl rfl

@[simp ↓] theorem see_holdCheck (h : Hw) : V.see h.holdCheck = V.see h := see_net h _ rfl rfl

@[simp ↓] theorem see_setActive (hV : V.Far) (h : Hw) (a : Nat) : V.see (h.setActive a) = V.see h := by
  unfold Hw.setActive; split <;> simp +decide [hV]

@[simp ↓] theorem see_control (hV : V.Far) (h : Hw) : V.see h.control = V.see h := by
  unfold Hw.control; split <;> simp [hV]

@[simp ↓] theorem see_portDown (hV : V.Far) (h : Hw) (p : Port) : V.see (h.portDown p) = V.see h := by
  unfold Hw.portDown
  have hstatus : 0x20800 ≤ LNK_STATUS (portNo p) := by change 0x20800 ≤ 0xC0000 + 0x10000 * portNo p + 0x10; omega
  simp [hV, see_setReg hV _ (LNK_STATUS (portNo p)) _ (Or.inr (Or.inr <| Or.inr hstatus))]

/-! ### Recorder triggers, causes and items -/

@[simp ↓] theorem see_recTriggerAt (h : Hw) (c : Nat) (ws : Option (List Word)) : V.see (h.recTriggerAt c ws) = V.see h := by
  unfold Hw.recTriggerAt; split <;> simp

@[simp ↓] theorem see_setUnit (h : Hw) (n : Nat) (u : UnitSt) : V.see (h.setUnit n u) = V.see h := (rfl)

@[simp ↓] theorem see_unitCauses (h : Hw) (n : Nat) (late : Bool) (cs : List TrgCause) :
    V.see (h.unitCauses n late cs) = V.see h := by
  unfold Hw.unitCauses; split <;> simp

@[simp ↓] theorem see_unitCause (h : Hw) (n : Nat) (c : TrgCause) : V.see (h.unitCause n c) = V.see h :=
  see_unitCauses h n false [c]

@[simp ↓] theorem see_unitsCause (h : Hw) (c : TrgCause) : V.see (h.unitsCause c) = V.see h := by
  unfold Hw.unitsCause; simp

@[simp ↓] theorem see_eventItem (h : Hw) (e : EventItem) : V.see (h.eventItem e) = V.see h := see_net h _ rfl rfl

@[simp ↓] theorem see_evqWrite (h : Hw) (c i x : Nat) : V.see (h.evqWrite c i x).1 = V.see h := by
  unfold Hw.evqWrite; split
  · exact see_net h _ rfl rfl
  · simp +decide

@[simp ↓] theorem see_pullFaultN (h : Hw) : V.see h.pullFaultN = V.see h := (rfl)
@[simp ↓] theorem see_setObjects (h : Hw) (i : Nat) (l : List Nat) : V.see (h.setObjects i l) = V.see h := (rfl)
@[simp ↓] theorem see_setForce (h : Hw) (i : Nat) (r : Option Nat) : V.see (h.setForce i r) = V.see h := (rfl)
@[simp ↓] theorem see_setTimer (h : Hw) (i : Nat) (t : Option Nat) : V.see (h.setTimer i t) = V.see h := (rfl)

/-! ### Drivers

An object names a driver below 1,024; the registers of drivers beyond would reach those of the ports. -/

@[simp ↓] theorem see_setDrv (h : Hw) (d : Nat) (x : DriverSt) : V.see (h.setDrv d x) = V.see h := (rfl)

@[simp ↓] theorem see_exWindow (h : Hw) (d x ch : Nat) : V.see (h.exWindow d x ch) = V.see h := (rfl)

@[simp ↓] theorem see_exWindows (h : Hw) (d x : Nat) : V.see (h.exWindows d x) = V.see h := by
  unfold Hw.exWindows; simp

theorem see_putDrv (h : Hw) (d hi lo v : Nat) (hd : V.Far ∨ d < 1024) : V.see (h.put ⟨EXC_STATUS d, hi, lo⟩ v) = V.see h :=
  see_put h _ v (Or.inr (Or.inr <| Or.inr (by change 0x20800 ≤ 0x30600 + 4 * d; omega)))
    (hd.imp_right (fun hd => Or.inl (by change 0x30600 + 4 * d ≠ _ ∧ 0x30600 + 4 * d ≠ _; omega)))

@[simp ↓] theorem see_setPol (h : Hw) (d v : Nat) (hd : V.Far ∨ d < 1024) : V.see (h.setPol d v) = V.see h := by
  unfold Hw.setPol
  rw [see_when _ _ _ (see_setDrv _ _ _), see_putDrv h d _ _ v hd]

@[simp ↓] theorem see_zeroDriver (h : Hw) (d : Nat) (hd : V.Far ∨ d < 1024) : V.see (h.zeroDriver d) = V.see h := by
  unfold Hw.zeroDriver; simp [hd]

theorem see_showFaultOff (h : Hw) (ds : List Nat) (hds : ∀ d ∈ ds, V.Far ∨ d < 1024) : V.see (h.showFaultOff ds) = V.see h :=
  see_each_mem ds _ h (fun h d hd => see_putDrv h d _ _ _ (hds d hd))

theorem see_zeroDrivers (h : Hw) (ds : List Nat) (hds : ∀ d ∈ ds, V.Far ∨ d < 1024) : V.see (h.each ds Hw.zeroDriver) = V.see h :=
  see_each_mem ds _ h (fun h d hd => see_zeroDriver h d (hds d hd))

theorem see_stopDrivers (h : Hw) (ds : List Nat) (hds : ∀ d ∈ ds, V.Far ∨ d < 1024) : V.see (h.stopDrivers ds) = V.see h :=
  (see_showFaultOff _ ds hds).trans (see_zeroDrivers h ds hds)

/-- R554: an object's number has at most ten bits, of which a driver takes seven. -/
theorem objDrivers_lt (i info : Nat) : ∀ d ∈ objDrivers i info, d < 1024 := by
  have hpair (k d : Nat) (hk : k < 512) (hd : d ∈ [2 * k, 2 * k + 1]) : d < 1024 := by
    rcases List.mem_pair.1 hd with rfl | rfl <;> omega
  have hrange (d : Nat) (hd : d ∈ List.range nDrv) : d < 1024 := Nat.lt_trans (List.mem_range.1 hd) (by decide)
  have hten := natBits_lt info 9 0
  have hnine := natBits_lt info 8 0
  have hseven := natBits_lt info 6 0
  intro d hd
  unfold objDrivers at hd
  dsimp only [clusOfTerm, clusOfChan, clusOfDrv] at hd
  split at hd
  · exact hpair _ d (by omega) hd
  split at hd
  · exact hpair _ d (by omega) hd
  split at hd
  · split at hd
    · exact hrange d hd
    · exact hpair _ d (by omega) hd
  split at hd
  · split at hd
    · exact hpair _ d (by omega) hd
    · exact hpair _ d (by omega) hd
    · split at hd
      · exact hrange d hd
      · exact hpair _ d (by omega) hd
  · exact hrange d hd

/-! ### Reactions and raises

Of all sources, 34 and 42 alone, a port's CRC rate, may take a port down. -/

@[simp ↓] theorem see_noteFail (h : Hw) (a b c d : Nat) : V.see (h.noteFail a b c d) = V.see h := by
  unfold Hw.noteFail; simp +decide

@[simp ↓] theorem see_setRelief (h : Hw) (k : Nat) (r : Option Relief) : V.see (h.setRelief k r) = V.see h := (rfl)

@[simp ↓] theorem see_feStepOver (h : Hw) (x : CalStep) : V.see (h.feStepOver x) = V.see h := by
  unfold Hw.feStepOver; dsimp only
  repeat' split
  all_goals simp +decide

@[simp ↓] theorem see_abandonFeStep (h : Hw) : V.see h.abandonFeStep = V.see h := by
  unfold Hw.abandonFeStep; split <;> simp

@[simp ↓] theorem see_flt_field (h : Hw) (x : FltSt) (y : FieldSt) : V.see { h with flt := x, field := y } = V.see h := (rfl)

@[simp ↓] theorem see_enterSafe (h : Hw) (i : Nat) : V.see (h.enterSafe i) = V.see h := by
  have hds : ∀ d ∈ List.range nDrv, V.Far ∨ d < 1024 := fun d hd => Or.inr (Nat.lt_trans (List.mem_range.1 hd) (by decide))
  unfold Hw.enterSafe
  dsimp only
  rw [see_showFaultOff _ _ hds, see_zeroDrivers _ _ hds, see_flt_field]
  split <;> simp +decide

@[simp ↓] theorem see_resetBlock (h : Hw) (i x : Nat) (hi : V.Far ∨ (i ≠ 34 ∧ i ≠ 42)) : V.see (h.resetBlock i x) = V.see h := by
  unfold Hw.resetBlock
  dsimp only
  split
  · rfl
  split
  · rfl
  split
  · split <;> simp +decide
  split
  next hport => exact see_portDown (hi.resolve_right (fun hi => hi.1 hport)) h _
  split
  next hport => exact see_portDown (hi.resolve_right (fun hi => hi.2 hport)) h _
  rfl

@[simp ↓] theorem see_reactOn (h : Hw) (i r x : Nat) (hi : V.Far ∨ (i ≠ 34 ∧ i ≠ 42)) : V.see (h.reactOn i r x) = V.see h := by
  unfold Hw.reactOn
  split
  · exact see_stopDrivers h _ (fun d hd => Or.inr (objDrivers_lt i x d hd))
  · exact see_resetBlock h i x hi
  · exact see_enterSafe h i
  · rfl

@[simp ↓] theorem see_reactAll (h : Hw) (i : Nat) (hi : V.Far ∨ (i ≠ 34 ∧ i ≠ 42)) : V.see (h.reactAll i) = V.see h := by
  unfold Hw.reactAll; simp [hi]

theorem see_raiseN (fuel : Nat) : ∀ (h : Hw) (i info : Nat), (V.Far ∨ (i ≠ 34 ∧ i ≠ 42)) → V.see (raiseN fuel h i info) = V.see h := by
  induction fuel with
  | zero => intro h i info _; rfl
  | succ n ih =>
    intro h i info hi
    have hqueue (h : Hw) : V.see (raiseN n h srcEvqOverrun 0) = V.see h := ih h _ _ (Or.inr (by decide))
    have htimer (h : Hw) : V.see (raiseN n h srcEscalationTimer i) = V.see h := ih h _ _ (Or.inr (by decide))
    have hesc (h : Hw) (x : Nat) : V.see (raiseN n h srcEscalated x) = V.see h := ih h _ _ (Or.inr (by decide))
    unfold raiseN
    dsimp only
    repeat' split
    all_goals simp +decide [hi, hqueue, htimer, hesc, statusBit, causeBit]

/-- No view sees a raise, but that of a CRC rate, whose reaction may take its port down. -/
@[simp ↓] theorem see_raise (h : Hw) (i info : Nat) (hi : V.Far ∨ (i ≠ 34 ∧ i ≠ 42)) : V.see (h.raise i info) = V.see h :=
  see_raiseN 4 h i info hi

end View
end Sys2Proof.Machine

/-! ## Views of a commit (R36) -/

namespace Sys2Proof.Machine
namespace View

variable {β : Type} {V : View β}

/-! ### Frames of the hub's own (R425, R449) -/

@[simp ↓] theorem see_number (h : Hw) (f : Frame) : V.see (h.number f).1 = V.see h := by
  unfold Hw.number; dsimp only; simp +decide

@[simp ↓] theorem see_classFull (h : Hw) (c : Nat) : V.see (h.classFull c) = V.see h := by
  unfold Hw.classFull; dsimp only; split
  · rfl
  · simp +decide

@[simp ↓] theorem see_enqueueOn (h : Hw) (f : Frame) (pong : Bool) (only : Option Port) :
    V.see (h.enqueueOn f pong only).1 = V.see h := by
  unfold Hw.enqueueOn
  split
  · rfl
  · split <;> simp

@[simp ↓] theorem see_enqueue (h : Hw) (f : Frame) : V.see (h.enqueue f).1 = V.see h := see_enqueueOn h f false none

@[simp ↓] theorem see_flushGaps (h : Hw) : V.see h.flushGaps = V.see h := by
  unfold Hw.flushGaps
  dsimp only
  rw [see_trg, see_foldl]
  · exact see_trg h _
  · intro p g
    split <;> simp

/-! ### Sampling (chapter 04) -/

@[simp ↓] theorem see_setGrp (h : Hw) (g : Nat) (x : GroupSt) : V.see (h.setGrp g x) = V.see h := (rfl)

@[simp ↓] theorem see_showPend (h : Hw) : V.see h.showPend = V.see h := by
  unfold Hw.showPend; simp +decide

@[simp ↓] theorem see_resolveReq (h : Hw) (r : SyncReq) : V.see (h.resolveReq r).1 = V.see h := by
  unfold Hw.resolveReq
  split
  · refine see_foldl _ _ (fun p g => ?_) _
    split
    · split <;> simp
    · rfl
  · rfl

@[simp ↓] theorem see_settleReqs (h : Hw) : V.see h.settleReqs = V.see h := by
  unfold Hw.settleReqs
  rw [see_showPend, see_smp]
  refine see_foldl _ _ (fun p r => ?_) _
  exact see_resolveReq p.1 r

@[simp ↓] theorem see_syncRequest (h : Hw) (t mask src : Nat) : V.see (h.syncRequest t mask src) = V.see h := by
  unfold Hw.syncRequest; simp

@[simp ↓] theorem see_showActive (h : Hw) : V.see h.showActive = V.see h := by
  unfold Hw.showActive; simp +decide

@[simp ↓] theorem see_feWindow (h : Hw) (ch s : Nat) : V.see (h.feWindow ch s) = V.see h := (rfl)

@[simp ↓] theorem see_smpCommit (h old : Hw) (b : Nat) : V.see (h.smpCommit old b) = V.see h := by
  unfold Hw.smpCommit
  dsimp only
  have hreset (r : Hw × Nat) (t : Nat) :
      V.see (if r.2 = 0 then r.1.settleReqs else r.1.syncRequest t r.2 0) = V.see r.1 := by
    split <;> simp
  rw [see_showActive, see_each _ _ _ (fun h m => see_feWindow h m b), hreset]
  refine (see_foldl _ _ (fun p g => ?_) _).trans ?_
  · exact see_setGrp p.1 g _
  · rw [see_when _ _ _ (see_smp _ _), see_smp]

/-! ### The Bridle and the pool (chapters 05 and 07) -/

@[simp ↓] theorem see_beginAt (h : Hw) (p : Place) : V.see (h.beginAt p) = V.see h := by
  unfold Hw.beginAt; simp +decide

@[simp ↓] theorem see_seqCommit (h old : Hw) (flipped : List Nat) (first : Nat) :
    V.see (h.seqCommit old flipped first) = V.see h := by
  unfold Hw.seqCommit
  dsimp only
  repeat' split
  all_goals simp +decide

@[simp ↓] theorem see_setIlAt (h : Hw) (l ns start : Nat) : V.see (h.setIlAt l ns start) = V.see h := (rfl)

section Far
variable (hV : V.Far)
include hV

@[simp ↓] theorem see_listOver (h : Hw) (l : Nat) : V.see (h.listOver l) = V.see h := by
  unfold Hw.listOver; dsimp only; split <;> simp [hV]

@[simp ↓] theorem see_ilAbandon (h : Hw) : V.see h.ilAbandon = V.see h := by
  unfold Hw.ilAbandon; split <;> simp [hV]

@[simp ↓] theorem see_adcCommit (h old : Hw) (touched : Nat → Nat → Bool) : V.see (h.adcCommit old touched) = V.see h := by
  unfold Hw.adcCommit
  split
  · dsimp only
    split <;> simp [hV]
  · rfl

/-! ### Streams (chapters 06 and 08) -/

@[simp ↓] theorem see_endFade (h : Hw) (s : Nat) : V.see (h.endFade s) = V.see h := by
  unfold Hw.endFade; split <;> simp [hV, Hw.setChain]

@[simp ↓] theorem see_reportLost (h : Hw) (s reason pos : Nat) : V.see (h.reportLost s reason pos) = V.see h := by
  unfold Hw.reportLost; simp [hV, Hw.setStream]

@[simp ↓] theorem see_loseAll (h : Hw) (s reason : Nat) : V.see (h.loseAll s reason) = V.see h := by
  unfold Hw.loseAll; simp [hV, Hw.setStream]

end Far

@[simp ↓] theorem see_setChain (h : Hw) (s : Nat) (c : Chain) : V.see (h.setChain s c) = V.see h := (rfl)
@[simp ↓] theorem see_setStream (h : Hw) (s : Nat) (x : StreamSt) : V.see (h.setStream s x) = V.see h := (rfl)

@[simp ↓] theorem see_noteDue (h : Hw) (s : Nat) : V.see (h.noteDue s) = V.see h := by
  unfold Hw.noteDue
  repeat' split
  all_goals rfl

@[simp ↓] theorem see_endEra (h : Hw) (s : Nat) : V.see (h.endEra s) = V.see h := by
  unfold Hw.endEra
  dsimp only
  repeat' split
  all_goals simp

/-! ### Segments (chapter 09) -/

@[simp ↓] theorem see_missDone (h : Hw) (x : SegStream) (p : Nat × Nat → Bool) : V.see (h.missDone x p).1 = V.see h := by
  unfold Hw.missDone
  dsimp only
  split <;> simp

@[simp ↓] theorem see_setSeg (h : Hw) (k : Nat) (x : Option SegSt) : V.see (h.setSeg k x) = V.see h := (rfl)
@[simp ↓] theorem see_setSegWord (h : Hw) (k i : Nat) (w : Word) : V.see (h.setSegWord k i w) = V.see h := (rfl)
@[simp ↓] theorem see_segPut (h : Hw) (k i hi lo v : Nat) : V.see (h.segPut k i hi lo v) = V.see h :=
  see_setSegWord h k i _
@[simp ↓] theorem see_setSegState (h : Hw) (k v : Nat) : V.see (h.setSegState k v) = V.see h :=
  see_segPut h k 0 31 30 v

@[simp ↓] theorem see_closeSeg (h : Hw) (k : Nat) (cut : Bool) : V.see (h.closeSeg k cut) = V.see h := by
  unfold Hw.closeSeg
  split
  · split
    · dsimp only
      rw [see_trg, see_setSegState, see_when _ _ _ (by simp), see_setSeg]
      refine see_foldl _ _ (fun p y => ?_) _
      exact see_missDone p.1 y _
    · rfl
  · rfl

@[simp ↓] theorem see_cutSegs (h : Hw) (p : SegSt → Bool) : V.see (h.cutSegs p) = V.see h := by
  unfold Hw.cutSegs
  refine see_each h _ _ (fun h q => ?_)
  split
  · split <;> simp
  · rfl

@[simp ↓] theorem see_clearHist (h : Hw) (raw : Bool) (src : Nat) : V.see (h.clearHist raw src) = V.see h := by
  unfold Hw.clearHist; simp

section Far
variable (hV : V.Far)
include hV

/-! ### Eras and buffers (R256, R271) -/

@[simp ↓] theorem see_newEra (h : Hw) (s j0 origin period : Nat) : V.see (h.newEra s j0 origin period) = V.see h := by
  unfold Hw.newEra; simp [hV]

@[simp ↓] theorem see_startBuffer (h : Hw) (s j0 origin period : Nat) : V.see (h.startBuffer s j0 origin period) = V.see h := by
  unfold Hw.startBuffer; simp [hV]

omit hV in
@[simp ↓] theorem see_stopBuffer (h : Hw) (s : Nat) : V.see (h.stopBuffer s) = V.see h := by
  unfold Hw.stopBuffer; dsimp only; split <;> rfl

@[simp ↓] theorem see_moveBuffer (h : Hw) (s : Nat) : V.see (h.moveBuffer s) = V.see h := by
  unfold Hw.moveBuffer; simp [hV]

@[simp ↓] theorem see_streamCommit (h old : Hw) (b s : Nat) : V.see (h.streamCommit old b s) = V.see h := by
  unfold Hw.streamCommit
  dsimp only
  have hbuffer (starts renews stops : Bool) (h : Hw) (x : Chain) (j0 org per : Nat) :
      V.see (if starts then (h.setChain s x).startBuffer s j0 org per
        else if renews then h.newEra s j0 org per else if stops then h.stopBuffer s else h) = V.see h := by
    repeat' split
    all_goals simp [hV]
  rw [see_when _ _ _ (see_moveBuffer hV _ s), see_setChain, hbuffer, see_setChain, see_when]
  simp [hV]

/-! ### Lanes, backfill, compression, relief and triggers -/

@[simp ↓] theorem see_sendMarker (h : Hw) (p : Port) (ctype kind : Nat) : V.see (h.sendMarker p ctype kind) = V.see h := by
  unfold Hw.sendMarker; simp [hV]

@[simp ↓] theorem see_wakeLanes (h : Hw) (p : Port) : V.see (h.wakeLanes p) = V.see h := by
  unfold Hw.wakeLanes
  dsimp only
  split
  · have hblock (h : Hw) : V.see ((h.each [0, 1, 2, 3] (fun h l => h.setLane p l (h.lane p l).sendRich)).nextSlot p) = V.see h := by
      simp [hV]
    rw [see_sendMarker hV, see_each _ _ _ (fun h _ => hblock h)]
    simp [hV]
  · rfl

@[simp ↓] theorem see_linkCommit (h old : Hw) : V.see (h.linkCommit old) = V.see h := by
  have hcells (h : Hw) (p : Port) (ls : List Nat) (f : Hw → Nat → Lane) :
      V.see (h.each ls (fun h l => h.setLane p l (f h l))) = V.see h := by simp [hV]
  unfold Hw.linkCommit
  dsimp only
  rw [see_control hV, see_when _ _ _ (by simp), see_each]
  intro h p
  refine (see_when _ _ _ ?_).trans (see_when _ _ _ ?_)
  · exact see_wakeLanes hV _ p
  · exact hcells h p _ _

omit hV in
@[simp ↓] theorem see_backfillCommit (h old : Hw) : V.see (h.backfillCommit old) = V.see h := by
  unfold Hw.backfillCommit
  dsimp only
  repeat' split
  all_goals rfl

omit hV in
@[simp ↓] theorem see_setJob (h : Hw) (j : Option JobSt) : V.see (h.setJob j) = V.see h := (rfl)

omit hV in
@[simp ↓] theorem see_jobAbort (h : Hw) : V.see h.jobAbort = V.see h := by
  unfold Hw.jobAbort
  dsimp only
  repeat' split
  all_goals simp +decide

omit hV in
@[simp ↓] theorem see_cin_str (h : Hw) (x : CinSt) (y : StrSt) : V.see { h with cin := x, str := y } = V.see h := (rfl)

omit hV in
@[simp ↓] theorem see_cinCommit (h old : Hw) : V.see (h.cinCommit old) = V.see h := by
  have hpos (h : Hw) (s : Nat) (x y : StreamSt) (a b : Bool) :
      V.see (if a then h.setStream s x else if b then h.setStream s y else h) = V.see h := by
    split
    · rfl
    · split <;> rfl
  unfold Hw.cinCommit
  dsimp only
  rw [see_each _ _ _ see_noteDue, see_when _ _ _ (by simp), see_when _ _ _ (by simp +decide), see_each]
  exact fun h s => hpos h s _ _ _ _

omit hV in
@[simp ↓] theorem see_setInputs (h : Hw) (u : Nat) (ch : Option Nat) : V.see (h.setInputs u ch) = V.see h := (rfl)

@[simp ↓] theorem see_reliefCommit (h old : Hw) (b : Nat) : V.see (h.reliefCommit old b) = V.see h := by
  unfold Hw.reliefCommit
  refine see_each h _ _ (fun h q => ?_)
  split
  · dsimp only
    split
    · simp [hV]
    · rfl
  · rfl

@[simp ↓] theorem see_enterState (h : Hw) (n s : Nat) (signal : Bool) : V.see (h.enterState n s signal) = V.see h := by
  unfold Hw.enterState; simp [hV]

@[simp ↓] theorem see_enterStart (h : Hw) (n : Nat) : V.see (h.enterStart n) = V.see h := by
  unfold Hw.enterStart; simp [hV]

@[simp ↓] theorem see_trgCommit (h old : Hw) : V.see (h.trgCommit old) = V.see h := by
  unfold Hw.trgCommit
  refine see_each h _ _ (fun h n => ?_)
  dsimp only
  rw [see_when _ _ _ (see_setUnit _ n _), see_when _ _ _ (see_cutSegs _ _)]
  repeat' split
  all_goals simp [hV]

/-! ### Start-up, recorder and the field die -/

omit hV in
@[simp ↓] theorem see_opsecRead (h : Hw) : V.see h.opsecRead = V.see h := by
  unfold Hw.opsecRead
  repeat' split
  all_goals simp +decide

omit hV in
@[simp ↓] theorem see_firstCommit (h : Hw) (slot : Nat) : V.see (h.firstCommit slot) = V.see h := by
  unfold Hw.firstCommit
  dsimp only
  repeat' split
  all_goals simp +decide

omit hV in
@[simp ↓] theorem see_deferRestart (h : Hw) (b : Nat) : V.see (h.deferRestart b) = V.see h := by
  unfold Hw.deferRestart
  repeat' split
  all_goals rfl

omit hV in
@[simp ↓] theorem see_showLoad (h : Hw) : V.see h.showLoad = V.see h := by
  unfold Hw.showLoad; simp +decide

@[simp ↓] theorem see_showAux (h : Hw) : V.see h.showAux = V.see h := by
  unfold Hw.showAux; simp [hV]

omit hV in
@[simp ↓] theorem see_regionCommit (h old : Hw) : V.see (h.regionCommit old) = V.see h := by
  unfold Hw.regionCommit; split <;> rfl

omit hV in
@[simp ↓] theorem see_setProbe (h : Hw) (k : Nat) (p : Option ProbeSt) : V.see (h.setProbe k p) = V.see h := (rfl)

omit hV in
@[simp ↓] theorem see_routeChanged (h : Hw) (t : Nat) : V.see (h.routeChanged t) = V.see h := by
  unfold Hw.routeChanged Hw.dropProbe
  dsimp only
  repeat' split
  all_goals rfl

omit hV in
@[simp ↓] theorem see_smp_field (h : Hw) (x : SmpSt) (y : FieldSt) : V.see { h with smp := x, field := y } = V.see h := (rfl)

omit hV in
@[simp ↓] theorem see_feWindowAt (h : Hw) (ch b : Nat) : V.see (h.feWindowAt ch b) = V.see h := by
  unfold Hw.feWindowAt Hw.markHeld
  repeat' split
  all_goals rfl

omit hV in
@[simp ↓] theorem see_openMoving (h : Hw) (x : SwitchId) : V.see (h.openMoving x) = V.see h := by
  unfold Hw.openMoving
  split
  · rfl
  · exact see_when _ _ _ rfl

omit hV in
@[simp ↓] theorem see_moveSwitches (h : Hw) (b : Nat) (l : List SwitchId) : V.see (h.moveSwitches b l) = V.see h := by
  unfold Hw.moveSwitches; simp

omit hV in
@[simp ↓] theorem see_markChange (h : Hw) (d : Nat) : V.see (h.markChange d) = V.see h := (rfl)

omit hV in
@[simp ↓] theorem see_wantChange (h : Hw) (d : Nat) : V.see (h.wantChange d) = V.see h := (rfl)

omit hV in
@[simp ↓] theorem see_fieldCommit (h old : Hw) (b : Nat) : V.see (h.fieldCommit old b) = V.see h := by
  unfold Hw.fieldCommit
  dsimp only
  repeat' split
  all_goals simp

@[simp ↓] theorem see_markSlicers (h : Hw) : V.see h.markSlicers = V.see h := by
  unfold Hw.markSlicers
  refine see_when _ _ _ (see_each _ _ _ (fun h i => see_when _ _ _ ?_))
  simp [hV]

end Far

end View

/-! ### The commit as a whole -/

/-- The set stands in the registers, the epoch has advanced and the requester is recorded (R36, R46). -/
def Hw.applied (h : Hw) (x : Sealed) : Hw :=
  let h1 : Hw := { h.withSet x.set with epoch := { h.epoch with sealedSet := none } }
  (((h1.put SYS_EPOCH_EPOCH (h.get SYS_EPOCH_EPOCH + 1)).put SYS_COMMIT_SRC_PATH x.path).put
    SYS_COMMIT_SRC_SRC_ID x.srcId).put SYS_COMMIT_STATUS_PENDING 0

/-- The rest of a commit goes on from there and leaves what a view sees. -/
theorem View.see_commitApply {β : Type} {V : View β} (hV : V.Far) (h : Hw) (x : Sealed) (b : Nat) :
    V.see (h.commitApply x b) = V.see (h.applied x) := by
  unfold Hw.commitApply
  extract_lets hs he h1 h2 flipped h3 h4 h5 h6 h7 h8 h9
  have hfirst : V.see h3 = V.see (h.applied x) := by
    simp only [h3]
    split
    · exact see_firstCommit _ _
    · rfl
  simp [hV, h9, h8, h7, h6, h5, h4, hfirst]

end Sys2Proof.Machine

/-! ## Commits (R35 to R39, R46) -/

namespace Sys2Proof.Machine

/-- The view of the epoch and of the registers that no operation of the hub writes by itself. -/
def stagedView : View (EpochSt × (Nat → Word)) where
  look s := (s.epoch, fun a => if PlainAddr a then 0 else storeGet regReset s.regs a)
  look_put := fun h f v hf _ => by
    refine Prod.ext rfl (funext (fun a => ?_))
    dsimp only
    split
    · rfl
    · rename_i ha
      exact reg_put_other h f v (fun e => ha (e ▸ hf))

theorem stagedView_far : stagedView.Far where
  setReg h a w ha := by
    refine Prod.ext rfl (funext (fun b => ?_))
    dsimp only [View.see, stagedView]
    split
    · rfl
    · rename_i hb
      exact reg_setReg_other h w (fun e => hb (e ▸ ha))
  setPort h p x := by cases p <;> rfl

theorem epoch_of_staged {g h : Hw} (he : stagedView.see g = stagedView.see h) : g.epoch = h.epoch :=
  congrArg Prod.fst he

theorem reg_of_staged {g h : Hw} (he : stagedView.see g = stagedView.see h) (a : Nat) (ha : ¬ PlainAddr a) :
    g.reg a = h.reg a := by
  have h2 := congrFun (congrArg Prod.snd he) a
  simp only [View.see, stagedView, if_neg ha] at h2
  exact h2

theorem get_of_staged {g h : Hw} (he : stagedView.see g = stagedView.see h) (f : Fld) (ha : ¬ PlainAddr f.addr) :
    g.get f = h.get f := by
  simp only [Hw.get, reg_of_staged he _ ha]

/-! ### A set that applies -/

/-- What the hub shows of a set that has been applied (R36, R46). -/
structure Shown (x h : Hw) (y : Sealed) : Prop where
  unsealed : x.epoch.sealedSet = none
  staging : x.epoch.staging = h.epoch.staging
  epoch : x.get SYS_EPOCH_EPOCH = (h.get SYS_EPOCH_EPOCH + 1) % 2 ^ 32
  pending : x.on SYS_COMMIT_STATUS_PENDING = false
  path : x.get SYS_COMMIT_SRC_PATH = y.path % 4
  srcId : x.get SYS_COMMIT_SRC_SRC_ID = y.srcId % 65536

theorem shown_applied (h : Hw) (y : Sealed) : Shown (h.applied y) h y where
  unsealed := rfl
  staging := rfl
  epoch := by
    unfold Hw.applied
    rw [get_put_other _ _ _ _ (by decide), get_put_other _ _ _ _ (by decide), get_put_other _ _ _ _ (by decide),
      get_put_same _ _ _ (by decide) (by decide)]
    rfl
  pending := on_put_zero _ _ (by decide) (by decide)
  path := by
    unfold Hw.applied
    rw [get_put_other _ _ _ _ (by decide), get_put_disjoint _ _ _ _ (by decide) (by decide) (by decide) (by rfl) (by decide),
      get_put_same _ _ _ (by decide) (by decide)]
    rfl
  srcId := by
    unfold Hw.applied
    rw [get_put_other _ _ _ _ (by decide), get_put_same _ _ _ (by decide) (by decide)]
    rfl

theorem shown_of_staged {x g h : Hw} {y : Sealed} (he : stagedView.see x = stagedView.see g) (hg : Shown g h y) :
    Shown x h y where
  unsealed := by rw [epoch_of_staged he, hg.unsealed]
  staging := by rw [epoch_of_staged he, hg.staging]
  epoch := by rw [get_of_staged he _ (by decide), hg.epoch]
  pending := by simpa only [Hw.on, get_of_staged he SYS_COMMIT_STATUS_PENDING (by decide)] using hg.pending
  path := by rw [get_of_staged he _ (by decide), hg.path]
  srcId := by rw [get_of_staged he _ (by decide), hg.srcId]

theorem shown_commitApply (h : Hw) (y : Sealed) (b : Nat) : Shown (h.commitApply y b) h y :=
  shown_of_staged (View.see_commitApply stagedView_far h y b) (shown_applied h y)

/-- A snapshot that is due at the same boundary is taken first: it does not touch what a commit counts on. -/
theorem snapTake_epoch (s : State) :
    s.snapTake.hw.get SYS_EPOCH_EPOCH = s.hw.get SYS_EPOCH_EPOCH ∧ s.snapTake.hw.epoch.staging = s.hw.epoch.staging := by
  have htaken (q : Requester) : (s.snapTakeFor q).hw.get SYS_EPOCH_EPOCH = s.hw.get SYS_EPOCH_EPOCH := by
    change ((s.hw.put SYS_SNAP_HELD 1).put SYS_SNAP_OWNER (pathOf q)).get SYS_EPOCH_EPOCH = _
    rw [get_put_other _ _ _ _ (by decide), get_put_other _ _ _ _ (by decide)]
  unfold State.snapTake
  split
  · split
    · exact ⟨htaken _, rfl⟩
    · exact ⟨rfl, rfl⟩
  · exact ⟨rfl, rfl⟩

theorem state_commitApply {s : State} {y : Sealed} {b : Nat} (hy : s.hw.epoch.sealedSet = some y)
    (hb : s.hw.applyAt y = some b) : s.commitApply = { s.snapTake with hw := s.snapTake.hw.commitApply y b } := by
  simp [State.commitApply, hy, hb]

theorem shown_state_commitApply {s : State} {y : Sealed} {b : Nat} (hy : s.hw.epoch.sealedSet = some y)
    (hb : s.hw.applyAt y = some b) : Shown s.commitApply.hw s.hw y := by
  have hs := snapTake_epoch s
  have ha := shown_commitApply s.snapTake.hw y b
  rw [state_commitApply hy hb]
  exact { ha with staging := ha.staging.trans hs.2, epoch := by rw [ha.epoch, hs.1] }

theorem exec_commitApply {s : State} (hl : s.hw.live = true) (hc : s.hw.coreOn = true) :
    exec .commitApply s = .next s.commitApply := by
  change (Host.Outcome.next (if s.hw.live && s.hw.coreOn then s.commitApply else s)) = _
  simp [hl, hc]

/-- Settles O58: the rest of a commit leaves what a view of the staged registers sees. -/
theorem commitRaisesTheEpoch : Obligations.CommitRaisesTheEpoch := by
  unfold Obligations.CommitRaisesTheEpoch
  intro s y b hl hc hy hb
  have h := shown_state_commitApply hy hb
  exact ⟨_, exec_commitApply hl hc, h.epoch, h.unsealed, h.pending, h.path, h.srcId⟩

/-! ### A set that waits, and one that is refused -/

theorem commitApply_idle {s : State} {y : Sealed} (hy : s.hw.epoch.sealedSet = some y) (hb : s.hw.applyAt y = none) :
    s.commitApply = s := by
  simp [State.commitApply, hy, hb]

theorem applyAt_none_of_waits {h : Hw} {y : Sealed}
    (hw : y.validated = false ∨ h.seq.running = true ∧ (h.boundaryNow = none ∨ h.boundaryNow = y.seen)) :
    h.applyAt y = none := by
  rcases hw with hv | ⟨hr, hn | hs⟩
  · simp [Hw.applyAt, hv]
  · simp [Hw.applyAt, hn, hr]
  · simp [Hw.applyAt, hs, hr]

theorem applyAt_some_of_due {h : Hw} {y : Sealed} (hv : y.validated = true)
    (hd : h.boundaryNow.isSome = true ∧ h.boundaryNow ≠ y.seen ∨ h.seq.running = false) : ∃ b, h.applyAt y = some b := by
  by_cases hn : h.boundaryNow.isSome = true ∧ h.boundaryNow ≠ y.seen
  · obtain ⟨b, hb⟩ := Option.isSome_iff_exists.mp hn.1
    exact ⟨b, by simpa [Hw.applyAt, hv, hb] using fun e => absurd (hb.trans e) hn.2⟩
  · have hr : h.seq.running = false := hd.resolve_left hn
    exact ⟨h.time.now, by simp [Hw.applyAt, hv, hn, hr]⟩

@[simp] theorem still_romMark (h : Hw) (i : Nat) : (h.romMark i).still = h.still := by
  unfold Hw.romMark Hw.putBit; split <;> simp

@[simp] theorem still_romVerify (h : Hw) (stores bad : List Nat) : (h.romVerify stores bad).still = h.still := by
  simp [Hw.romVerify]

@[simp] theorem still_noteRefusal (h c : Hw) (code : Nat) : (h.noteRefusal c code).still = h.still := by
  unfold Hw.noteRefusal
  repeat' split
  all_goals simp [Hw.noteTable, Hw.noteConflict]

theorem View.see_romMark {β : Type} {V : View β} (hV : V.Far) (h : Hw) (i : Nat) : V.see (h.romMark i) = V.see h := by
  unfold Hw.romMark Hw.putBit bitFld; split <;> simp +decide [hV]

theorem View.see_romVerify {β : Type} {V : View β} (hV : V.Far) (h : Hw) (stores bad : List Nat) :
    V.see (h.romVerify stores bad) = V.see h :=
  View.see_each _ _ _ (View.see_romMark hV)

theorem View.see_noteRefusal {β : Type} {V : View β} (h c : Hw) (code : Nat) :
    V.see (h.noteRefusal c code) = V.see h := by
  unfold Hw.noteRefusal
  repeat' split
  all_goals simp +decide [Hw.noteTable, Hw.noteConflict]

/-- The check that fails first, or 0: the code fits its field. -/
theorem failCode_lt (h : Hw) : failCode h < 16 := by
  unfold failCode
  repeat' split
  all_goals decide

/-- A refused set, as long as no image is being written to the hub (R38). -/
theorem commitFails_running (h c : Hw) (x : Sealed) (code : Nat) (hr : h.boot.phase = .running) :
    h.commitFails c x code = Hw.noteRefusal (Hw.raise (((({ h with epoch :=
      { h.epoch with staging := returned x.set h.epoch.staging, sealedSet := none } } : Hw).put
      SYS_COMMIT_STATUS_PENDING 0).put SYS_COMMIT_STATUS_FAILED 1).put SYS_COMMIT_STATUS_FAIL_CODE code)
      srcEpochCommitFail code) c code := by
  unfold Hw.commitFails
  extract_lets he h1 h2 h3
  have hboot : h3.boot = h.boot := congrArg Still.boot (by simp [h3, h2] : h3.still = h1.still)
  rw [hboot, hr]

structure Refused (x h : Hw) (y : Sealed) (code : Nat) : Prop where
  unsealed : x.epoch.sealedSet = none
  staging : x.epoch.staging = returned y.set h.epoch.staging
  code : x.get SYS_COMMIT_STATUS_FAIL_CODE = code
  failed : x.on SYS_COMMIT_STATUS_FAILED = true
  epoch : x.get SYS_EPOCH_EPOCH = h.get SYS_EPOCH_EPOCH

theorem refused_commitFails (h c : Hw) (y : Sealed) (code : Nat) (hr : h.boot.phase = .running) (hk : code < 16) :
    Refused (h.commitFails c y code) h y code := by
  rw [commitFails_running h c y code hr]
  generalize hg : (((({ h with epoch := { h.epoch with staging := returned y.set h.epoch.staging, sealedSet := none } } :
    Hw).put SYS_COMMIT_STATUS_PENDING 0).put SYS_COMMIT_STATUS_FAILED 1).put SYS_COMMIT_STATUS_FAIL_CODE code) = g
  have he : stagedView.see ((g.raise srcEpochCommitFail code).noteRefusal c code) = stagedView.see g :=
    (View.see_noteRefusal _ _ _).trans (View.see_raise _ _ _ (Or.inl stagedView_far))
  subst hg
  constructor
  · rw [epoch_of_staged he]; rfl
  · rw [epoch_of_staged he]; rfl
  · rw [get_of_staged he _ (by decide), get_put_same _ _ _ (by decide) (by decide)]
    exact Nat.mod_eq_of_lt hk
  · rw [Hw.on, get_of_staged he _ (by decide),
      get_put_disjoint _ _ _ _ (by decide) (by decide) (by decide) (by rfl) (by decide)]
    exact on_put_one _ _ (by decide) (by decide)
  · rw [get_of_staged he _ (by decide), get_put_other _ _ _ _ (by decide), get_put_other _ _ _ _ (by decide),
      get_put_other _ _ _ _ (by decide)]
    rfl

/-! ### What a command on a set answers -/

section Validation

variable {h g c : Hw} {bad : List Nat} {y : Sealed} (hy : h.epoch.sealedSet = some y) (hv : y.validated = false)
  (hg : g = h.romVerify (newStores h (h.withSet y.set)) bad) (hc : c = g.withSet y.set)

include hy hv hg hc

theorem commitValidated_of_passes (hb : selectsBad g c = false) (hf : failCode c = 0) : h.commitValidated bad =
    ({ g with
      epoch := { g.epoch with sealedSet := some { y with validated := true, seen := g.smp.lastBoundary } }
      seq := { g.seq with mirrorNext := c.mirrorOf } } : Hw).wake .stitch := by
  simp [Hw.commitValidated, hy, hv, ← hg, ← hc, hb, hf]

theorem commitValidated_of_fails {k : Nat} (hk : k = if selectsBad g c then 7 else failCode c) (h0 : k ≠ 0) :
    h.commitValidated bad = g.commitFails c y k := by
  simp [Hw.commitValidated, hy, hv, ← hg, ← hc, ← hk, h0]

end Validation

theorem regs_wake (h : Hw) (d : Domain) : (h.wake d).regs = h.regs := by
  unfold Hw.wake
  dsimp only
  repeat' split
  all_goals cases d <;> rfl

theorem exec_commitValidated {s : State} (bad : List Nat) (hl : s.hw.live = true) (hc : s.hw.coreOn = true) :
    exec (.commitValidated bad) s = .next { s with hw := s.hw.commitValidated bad } := by
  change actOn s true _ = _
  rw [actOn_live s _ hl]
  simp [Hw.when, hc]

/-! ### Release without a time (R208) -/

/-- Pending synchronisation requests write the two pending bits alone. -/
theorem reg_settleReqs (h : Hw) {a : Nat} (ha : a ≠ SMP_SYNC_STATUS) : h.settleReqs.reg a = h.reg a := by
  have hresolve (h : Hw) (r : SyncReq) : (h.resolveReq r).1.reg a = h.reg a := by
    unfold Hw.resolveReq
    split
    · refine foldl_keeps (fun p : Hw × SyncReq => p.1.reg a = h.reg a) _ (fun p g hp => ?_) _ _ rfl
      dsimp only
      repeat' split
      all_goals exact hp
    · rfl
  have hfold := foldl_keeps (fun p : Hw × List SyncReq => p.1.reg a = h.reg a) (fun p r =>
    let q := p.1.resolveReq r
    (q.1, if q.2.mask = 0 then p.2 else p.2 ++ [q.2])) (fun p r hp => (hresolve p.1 r).trans hp) h.smp.reqs (h, []) rfl
  unfold Hw.settleReqs Hw.showPend
  rw [reg_put_other _ _ _ ha, reg_put_other _ _ _ ha]
  exact hfold

/-- After the bit that says so, a release writes the states of sampling alone. -/
theorem reg_release (h : Hw) {a : Nat} (hs : a ≠ SMP_SYNC_STATUS) (hp : a ≠ SMP_STATUS) :
    h.release.reg a = (h.put SYS_BOOT_RELEASED 1).reg a := by
  unfold Hw.release
  extract_lets h1 f armed h2
  have harm : h2.reg a = h1.reg a := 
    each_keeps (fun h => h.reg a) (fun h g => h.setGrp g { h.grp g with notBefore := f }) (fun _ _ => rfl) armed h1
  unfold Hw.showActive
  rw [reg_put_other _ _ _ hp, reg_put_other _ _ _ hp]
  exact (reg_settleReqs _ hs).trans harm

theorem startFree_running (h : Hw) (v : Word) (hv : v.toNat.testBit 0 = true) (hr : h.running = true)
    (hq : h.quality = 3) : h.startFree v =
      Hw.when ((h.put TIM_STATUS_QUALITY 2).put SYS_BOOT_FREE_START 1)
        (!Hw.released ((h.put TIM_STATUS_QUALITY 2).put SYS_BOOT_FREE_START 1)) Hw.release := by
  simp [Hw.startFree, hv, hr, hq]

/-- Sampling runs freely, whether it was released before or not. -/
theorem released_when (h : Hw) (hf : h.on SYS_BOOT_FREE_START = true) (hq : h.quality = 2) :
    let x := h.when (!h.released) Hw.release
    x.quality = 2 ∧ x.on SYS_BOOT_FREE_START = true ∧ x.released = true := by
  cases hr : h.released with
  | true => exact ⟨hq, hf, hr⟩
  | false =>
    have hreg {a : Nat} := reg_release h (a := a)
    refine ⟨?_, ?_, ?_⟩
    · change h.release.get TIM_STATUS_QUALITY = 2
      rw [Hw.get, hreg (by decide) (by decide), reg_put_other _ _ _ (by decide)]
      exact hq
    · change h.release.on SYS_BOOT_FREE_START = true
      rw [Hw.on, Hw.get, hreg (by decide) (by decide), ← Hw.get,
        get_put_disjoint _ _ _ _ (by decide) (by decide) (by decide) (by rfl) (by decide)]
      exact hf
    · change h.release.on SYS_BOOT_RELEASED = true
      rw [Hw.on, Hw.get, hreg (by decide) (by decide), ← Hw.get]
      exact on_put_one _ _ (by decide) (by decide)

theorem exec_commitGo (q : Requester) (src : Nat) (v : Word) (s : State) :
    exec (.commitGo q src v) s = accWrite s q true (fun h => h.commitGo q src v) := (rfl)

theorem exec_startFree (q : Requester) (v : Word) (s : State) :
    exec (.startFree q v) s = accWrite s q true (fun h => h.startFree v) := (rfl)

theorem commitGo_of_free {h : Hw} {q : Requester} {src : Nat} {v : Word} (hq : q ≠ .loader)
    (hv : v.toNat.testBit 0 = true) (hn : h.epoch.sealedSet = none) :
    h.commitGo q src v = h.seal (pathOf q) (sourceId q src) := by
  simp [Hw.commitGo, hv, hq, hn]

theorem commitGo_of_sealed {h : Hw} {q : Requester} {src : Nat} {v : Word} (hq : q ≠ .loader)
    (hv : v.toNat.testBit 0 = true) (hn : h.epoch.sealedSet.isSome = true) :
    h.commitGo q src v = h.put SYS_COMMIT_STATUS_REFUSED 1 := by
  simp [Hw.commitGo, hv, hq, hn]

theorem reg_applied (h : Hw) (y : Sealed) {a : Nat} (he : a ≠ SYS_EPOCH) (hc : a ≠ SYS_COMMIT_SRC)
    (hs : a ≠ SYS_COMMIT_STATUS) : (h.applied y).reg a = (h.withSet y.set).reg a := by
  unfold Hw.applied
  rw [reg_put_other _ _ _ hs, reg_put_other _ _ _ hc, reg_put_other _ _ _ hc, reg_put_other _ _ _ he]
  rfl

/-- A register that the hub itself leaves alone reads what the set says. -/
theorem reg_state_commitApply {s : State} {y : Sealed} {b a : Nat} (hy : s.hw.epoch.sealedSet = some y)
    (hb : s.hw.applyAt y = some b) (hn : s.hw.epoch.snapReq = none) (ha : ¬ PlainAddr a) (he : a ≠ SYS_EPOCH)
    (hc : a ≠ SYS_COMMIT_SRC) (hs : a ≠ SYS_COMMIT_STATUS) : s.commitApply.hw.reg a = (s.hw.withSet y.set).reg a := by
  have htake : s.snapTake = s := by simp [State.snapTake, hn]
  rw [state_commitApply hy hb, htake]
  exact (reg_of_staged (View.see_commitApply stagedView_far s.hw y b) a ha).trans (reg_applied _ _ he hc hs)

/-- Settles O26: the commands on a set one by one; what applies or is refused is read off the view of the staged
registers. -/
theorem commits : Obligations.Commits := by
  unfold Obligations.Commits
  refine ⟨?_, ?_, ?_, ?_, ?_, ?_, ?_, ?_⟩
  · intro s q src v hw hq hv hn
    refine ⟨_, (exec_commitGo ..).trans (accWrite_open s q _ hw), ?_⟩
    rw [commitGo_of_free hq hv hn]
    exact ⟨rfl, rfl, on_put_one _ _ (by decide) (by decide)⟩
  · intro s q src v hw hq hv hn
    refine ⟨_, (exec_commitGo ..).trans (accWrite_open s q _ hw), ?_⟩
    rw [commitGo_of_sealed hq hv hn]
    exact ⟨rfl, on_put_one _ _ (by decide) (by decide)⟩
  · intro s y bad h c hl hc hy hv hh hcand hbad hcode
    refine ⟨_, exec_commitValidated bad hl hc, ?_⟩
    have hrom : h.still = s.hw.still := by rw [hh]; exact still_romVerify ..
    have hstill := still_wake ({ h with
      epoch := { h.epoch with sealedSet := some { y with validated := true, seen := h.smp.lastBoundary } }
      seq := { h.seq with mirrorNext := c.mirrorOf } } : Hw) .stitch
    rw [commitValidated_of_passes hy hv hh hcand hbad hcode]
    exact ⟨congrArg (·.epoch.sealedSet) hstill, regs_wake _ _,
      (congrArg (·.epoch.staging) hstill).trans (congrArg (·.epoch.staging) hrom), congrArg (·.seq.mirrorNext) hstill⟩
  · intro s y bad h c k hl hc hy hv hh hcand hcode hk hr
    refine ⟨_, exec_commitValidated bad hl hc, ?_⟩
    have hstill : h.still = s.hw.still := by rw [hh]; exact still_romVerify ..
    have hstaged : stagedView.see h = stagedView.see s.hw := by rw [hh]; exact View.see_romVerify stagedView_far ..
    have hlt : k < 16 := by have := failCode_lt c; rw [hcode]; split <;> omega
    have hphase : h.boot.phase = .running := (congrArg (·.boot.phase) hstill).trans hr
    obtain ⟨hsealed, hstaging, hfail, hfailed, hepoch⟩ := refused_commitFails h c y k hphase hlt
    rw [commitValidated_of_fails hy hv hh hcand hcode hk]
    exact ⟨hsealed, hstaging.trans (congrArg (fun q => returned y.set q.epoch.staging) hstill), hfail, hfailed,
      hepoch.trans (get_of_staged hstaged _ (by decide))⟩
  · intro s y hl hc hy hv _ hd
    obtain ⟨b, hb⟩ := applyAt_some_of_due hv hd
    have h := shown_state_commitApply hy hb
    exact ⟨_, exec_commitApply hl hc, h.unsealed, h.staging, h.epoch, h.path, h.srcId, h.pending⟩
  · intro s y t m hl hc hy hv hn _ _ _ ht hm hd
    obtain ⟨b, hb⟩ := applyAt_some_of_due hv hd
    have hreg {a : Nat} := reg_state_commitApply (a := a) hy hb hn
    refine ⟨_, exec_commitApply hl hc, hreg ?_ ?_ ?_ ?_, hreg ?_ ?_ ?_ ?_⟩ <;>
      simp only [SYS_EPOCH, SYS_COMMIT_SRC, SYS_COMMIT_STATUS, PlainAddr, HRN_TERM, FE_CFG] <;> omega
  · intro s y hl hc hy hw
    exact ⟨_, exec_commitApply hl hc, commitApply_idle hy (applyAt_none_of_waits hw)⟩
  · intro s q v hw hv hr hq
    refine ⟨_, (exec_startFree ..).trans (accWrite_open s q _ hw), ?_⟩
    rw [startFree_running s.hw v hv hr hq]
    refine released_when _ (on_put_one _ _ (by decide) (by decide)) ?_
    rw [Hw.quality, get_put_other _ _ _ _ (by decide), get_put_same _ _ _ (by decide) (by decide)]
    rfl

end Sys2Proof.Machine

/-! ## The snapshot (R40, R41) -/

namespace Sys2Proof.Machine

theorem exec_snapReq (q : Requester) (s : State) : exec (.snapReq q) s = accWrite s q true (fun h => h.snapAsk q) := (rfl)

theorem exec_snapRel {q : Requester} {s : State} (hw : s.hw.writable q = true) :
    exec (.snapRel q) s = .next { s.snapRel q with rdata := [], status := 0 } := by
  change execSnapRel q s = _
  simp [execSnapRel, hw]

/-- A request is kept where nobody holds or awaits the snapshot. -/
theorem snapAsk_of_free {h : Hw} {q : Requester} (hq : q ≠ .loader) (hh : h.on SYS_SNAP_HELD = false)
    (hn : h.epoch.snapReq = none) :
    h.snapAsk q = { h with epoch := { h.epoch with snapReq := some q, snapSeen := h.smp.lastBoundary } } := by
  simp [Hw.snapAsk, Hw.snapTaken, hq, hh, hn]

/-- A request is refused while another path holds the snapshot. -/
theorem snapAsk_of_held {h : Hw} {q : Requester} (hq : q ≠ .loader) (hh : h.on SYS_SNAP_HELD = true)
    (ho : h.get SYS_SNAP_OWNER ≠ pathOf q) : h.snapAsk q = h.put SYS_SNAP_REFUSED 1 := by
  simp [Hw.snapAsk, Hw.snapTaken, hq, hh, ho]

theorem pathOf_lt (q : Requester) : pathOf q < 4 := by cases q <;> decide

/-- The snapshot taken is the hub as it then stands, with its owner shown. -/
theorem snapTakeFor_spec (s : State) (q : Requester) :
    (s.snapTakeFor q).hw.on SYS_SNAP_HELD = true ∧ (s.snapTakeFor q).hw.get SYS_SNAP_OWNER = pathOf q ∧
    (s.snapTakeFor q).frozen = some (s.snapTakeFor q).hw ∧ (s.snapTakeFor q).hw.epoch.snapReq = none := by
  refine ⟨?_, ?_, rfl, rfl⟩
  · change Hw.on ((s.hw.put SYS_SNAP_HELD 1).put SYS_SNAP_OWNER (pathOf q)) SYS_SNAP_HELD = true
    rw [Hw.on, get_put_disjoint _ _ _ _ (by decide) (by decide) (by decide) (by rfl) (by decide)]
    exact on_put_one _ _ (by decide) (by decide)
  · change Hw.get ((s.hw.put SYS_SNAP_HELD 1).put SYS_SNAP_OWNER (pathOf q)) SYS_SNAP_OWNER = pathOf q
    rw [get_put_same _ _ _ (by decide) (by decide)]
    exact Nat.mod_eq_of_lt (pathOf_lt q)

theorem snapRelease_spec (s : State) : s.snapRelease.frozen = none ∧ s.snapRelease.hw.on SYS_SNAP_HELD = false := by
  refine ⟨rfl, ?_⟩
  change Hw.on ((s.hw.put SYS_SNAP_HELD 0).put SYS_SNAP_OWNER 0) SYS_SNAP_HELD = false
  rw [Hw.on, get_put_disjoint _ _ _ _ (by decide) (by decide) (by decide) (by rfl) (by decide)]
  exact on_put_zero _ _ (by decide) (by decide)

/-- Settles O27: what the request, the taking and the release do, one after the other. -/
theorem snapshots : Obligations.Snapshots := by
  unfold Obligations.Snapshots
  refine ⟨?_, ?_, ?_, ?_, ?_, ?_⟩
  · intro s q hw hq hh hn
    refine ⟨_, (exec_snapReq q s).trans (accWrite_open s q _ hw), ?_⟩
    rw [snapAsk_of_free hq hh hn]
    exact ⟨rfl, rfl, rfl⟩
  · intro s q hw hq hh ho
    refine ⟨_, (exec_snapReq q s).trans (accWrite_open s q _ hw), ?_⟩
    rw [snapAsk_of_held hq hh ho]
    exact ⟨rfl, on_put_one _ _ (by decide) (by decide), rfl⟩
  · intro s q hl hc hq hd
    have htake : exec .snapTake s = .next (s.snapTakeFor q) := by
      change execSnapTake s = _
      simp [execSnapTake, State.snapTake, hl, hc, hq, hd]
    exact ⟨_, htake, snapTakeFor_spec s q⟩
  · intro s q hw ho
    have hrel : s.snapRel q = s.snapRelease := by simp [State.snapRel, ho]
    refine ⟨_, exec_snapRel hw, ?_⟩
    rw [hrel]
    exact snapRelease_spec s
  · intro s q hw ho
    have hrel : s.snapRel q = s := by simp [State.snapRel, ho]
    exact ⟨_, exec_snapRel hw, by rw [hrel]⟩
  · intro s hl hh hd
    have hout : exec .snapTimeout s = .next s.snapRelease := by
      change execSnapTimeout s = _
      simp [execSnapTimeout, State.snapTimeout, hl, hh, hd]
    exact ⟨_, hout, snapRelease_spec s⟩

end Sys2Proof.Machine

/-! ## Views of the hub's own sending: memory, segments, jobs and the recorder -/

namespace Sys2Proof.Machine
namespace View

variable {β : Type} {V : View β}

/-! ### Capture memory -/

@[simp ↓] theorem see_noteMem (h : Hw) (ue : Bool) (y w c : Nat) (b : Bool) : V.see (h.noteMem ue y w c b) = V.see h := by
  unfold Hw.noteMem; dsimp only; split
  · rfl
  · simp +decide

@[simp ↓] theorem see_memCe (h : Hw) (y w c t : Nat) (b : Bool) : V.see (h.memCe y w c t b) = V.see h := by
  unfold Hw.memCe; simp +decide

@[simp ↓] theorem see_setValid (h : Hw) (a v : Nat) : V.see (h.setValid a v) = V.see h := (rfl)

@[simp ↓] theorem see_setMemStored (h : Hw) (a : Nat) (c : Word72) : V.see (h.setMemStored a c) = V.see h := (rfl)

@[simp ↓] theorem see_setEntryUpset (h : Hw) (t : Nat) (u : Word72) : V.see (h.setEntryUpset t u) = V.see h := (rfl)

@[simp ↓] theorem see_checkValid (h : Hw) (a c : Nat) : V.see (h.checkValid a c) = V.see h := by
  unfold Hw.checkValid; dsimp only; split <;> simp

@[simp ↓] theorem see_retire (h : Hw) (t c : Nat) : V.see (h.retire t c) = V.see h := by
  unfold Hw.retire; split
  · rfl
  · simp +decide

@[simp ↓] theorem see_memUe (h : Hw) (y w c : Nat) : V.see (h.memUe y w c) = V.see h := by
  unfold Hw.memUe; simp +decide

@[simp ↓] theorem see_memRead (h : Hw) (a c : Nat) : V.see (h.memRead a c).1 = V.see h := by
  unfold Hw.memRead
  dsimp only
  repeat' split
  all_goals simp

@[simp ↓] theorem see_takeWord (h : Hw) (a c : Nat) : V.see (h.takeWord a c).1 = V.see h := see_memRead h a c

@[simp ↓] theorem see_passRead (h : Hw) (t : Nat) : V.see (h.passRead t).1 = V.see h := by
  unfold Hw.passRead
  refine see_foldl _ _ (fun p i => ?_) _
  exact see_memRead p.1 _ _

@[simp ↓] theorem see_checkEntry (h : Hw) (t : Nat) : V.see (h.checkEntry t) = V.see h := by
  unfold Hw.checkEntry
  split
  · rfl
  · split <;> simp +decide

@[simp ↓] theorem see_verifyTile (h : Hw) (t : Nat) : V.see (h.verifyTile t) = V.see h := by
  unfold Hw.verifyTile
  dsimp only
  repeat' split
  all_goals simp +decide

@[simp ↓] theorem see_useTile (h : Hw) (t : Nat) : V.see (h.useTile t) = V.see h := see_when _ _ _ (see_verifyTile h t)

@[simp ↓] theorem see_useTiles (h : Hw) (l : List Nat) : V.see (h.useTiles l) = V.see h := see_each _ _ _ see_useTile

@[simp ↓] theorem see_consumeWords (h : Hw) (l : List Nat) (c : Nat) : V.see (h.consumeWords l c).1 = V.see h := by
  unfold Hw.consumeWords
  refine (see_foldl _ _ (fun p a => ?_) _).trans (see_useTiles h l)
  exact see_takeWord p.1 a c

@[simp ↓] theorem see_readBytes (h : Hw) (word : Nat → Nat) (n : Nat) : V.see (h.readBytes word n).1 = V.see h :=
  see_consumeWords h _ _

/-! ### Segments and jobs -/

@[simp ↓] theorem see_nextBseq (h : Hw) : V.see h.nextBseq.1 = V.see h := see_net h _ rfl rfl

@[simp ↓] theorem see_releaseSeg (h : Hw) (k : Nat) : V.see (h.releaseSeg k) = V.see h := by
  unfold Hw.releaseSeg; simp

@[simp ↓] theorem see_readoutOver (h : Hw) (k : Nat) : V.see (h.readoutOver k) = V.see h :=
  (see_trg _ _).trans (see_releaseSeg h k)

@[simp ↓] theorem see_segBlockSent (h : Hw) (o : SegOut) : V.see (h.segBlockSent o) = V.see h := by
  unfold Hw.segBlockSent
  dsimp only
  repeat' split
  all_goals simp

@[simp ↓] theorem see_segPump (n : Nat) : ∀ h : Hw, V.see (Hw.segPump n h) = V.see h := by
  induction n with
  | zero => intro h; rfl
  | succ n ih =>
    intro h
    unfold Hw.segPump
    dsimp only
    repeat' split
    all_goals simp [ih]

@[simp ↓] theorem see_jobPump (n : Nat) : ∀ h : Hw, V.see (Hw.jobPump n h) = V.see h := by
  induction n with
  | zero => intro h; rfl
  | succ n ih =>
    intro h
    unfold Hw.jobPump
    dsimp only
    repeat' split
    all_goals simp +decide [ih]

@[simp ↓] theorem see_cinPump (h : Hw) : V.see h.cinPump = V.see h := (see_jobPump _ _).trans (see_segPump _ h)

/-! ### The recorder -/

@[simp ↓] theorem see_setSlot (h : Hw) (i : Nat) (x : Option RecSlot) : V.see (h.setSlot i x) = V.see h := (rfl)

@[simp ↓] theorem see_freeSlots (h : Hw) : V.see h.freeSlots = V.see h := (rfl)

@[simp ↓] theorem see_bunting (h : Hw) (c l : Nat) : V.see (h.bunting c l).1 = V.see h := by
  unfold Hw.bunting
  dsimp only
  split <;> simp +decide

@[simp ↓] theorem see_storeFail (h : Hw) (c l n k : Nat) : V.see (h.storeFail c l n k) = V.see h := by
  unfold Hw.storeFail
  dsimp only
  split <;> simp +decide

@[simp ↓] theorem see_slotLost (h : Hw) (i : Nat) (x : RecSlot) : V.see (h.slotLost i x) = V.see h := by
  unfold Hw.slotLost; simp +decide

@[simp ↓] theorem see_sendRecords (n : Nat) : ∀ h : Hw, V.see (Hw.sendRecords n h) = V.see h := by
  induction n with
  | zero => intro h; rfl
  | succ n ih =>
    intro h
    unfold Hw.sendRecords
    dsimp only
    repeat' split
    all_goals simp [ih]

@[simp ↓] theorem see_sendFetch (n : Nat) : ∀ h : Hw, V.see (Hw.sendFetch n h) = V.see h := by
  induction n with
  | zero => intro h; rfl
  | succ n ih =>
    intro h
    unfold Hw.sendFetch
    dsimp only
    repeat' split
    all_goals simp +decide [ih]

@[simp ↓] theorem see_recPump (h : Hw) : V.see h.recPump = V.see h := (see_sendFetch _ _).trans (see_sendRecords _ h)

/-- What the hub builds and sends by itself, no view sees. -/
@[simp ↓] theorem see_pump (h : Hw) : V.see h.pump = V.see h := by
  unfold Hw.pump; simp

end View
end Sys2Proof.Machine

/-! ## Which domains run: what a register access leaves as it is

An access that the supervisor queued is served when CORE runs again (R542); it changes no domain that runs. -/

namespace Sys2Proof.Machine

/-- The view of the domains that run. -/
def litView : View (Domain → Bool) where
  look s := s.lit
  look_put _ _ _ _ _ := rfl

@[simp ↓] theorem litView_far : litView.Far where
  setReg _ _ _ _ := rfl
  setPort h p x := by cases p <;> rfl

namespace Lit

/-! ### Registers and groups: no register tells which domain runs -/

@[simp ↓] theorem see_setReg (h : Hw) (a : Nat) (w : Word) : litView.see (h.setReg a w) = litView.see h := (rfl)

@[simp ↓] theorem see_put (h : Hw) (f : Fld) (v : Nat) : litView.see (h.put f v) = litView.see h := (rfl)

@[simp ↓] theorem see_bump (h : Hw) (f : Fld) (n : Nat) : litView.see (h.bump f n) = litView.see h := (rfl)

@[simp ↓] theorem see_epoch (h : Hw) (x : EpochSt) : litView.see { h with epoch := x } = litView.see h := (rfl)

@[simp ↓] theorem see_clearBits (h : Hw) (a m : Nat) (v : Word) : litView.see (h.clearBits a m v) = litView.see h := (rfl)

@[simp ↓] theorem see_clearOnRead (h : Hw) (a rc : Nat) : litView.see (h.clearOnRead a rc) = litView.see h := (rfl)

@[simp ↓] theorem see_writeRw (h : Hw) (a m : Nat) (v : Word) : litView.see (h.writeRw a m v) = litView.see h := (rfl)

@[simp ↓] theorem see_flag (h : Hw) (f : Fld) : litView.see (h.flag f) = litView.see h := (rfl)

@[simp ↓] theorem see_causeEnd (h : Hw) (i : Nat) : litView.see (h.causeEnd i) = litView.see h := (rfl)

@[simp ↓] theorem see_stage (h : Hw) (a m : Nat) (v : Word) : litView.see (h.stage a m v) = litView.see h := (rfl)

@[simp ↓] theorem see_setRq (h : Hw) (q : Requester) (r : ReqSt) : litView.see (h.setRq q r) = litView.see h := (rfl)

@[simp ↓] theorem see_setLatch (h : Hw) (q : Requester) (a : Nat) (v : Word) : litView.see (h.setLatch q a v) = litView.see h := (rfl)

@[simp ↓] theorem see_setHeld (h : Hw) (q : Requester) (a : Nat) (v : Option Word) :
    litView.see (h.setHeld q a v) = litView.see h := (rfl)

@[simp ↓] theorem see_dropHeld (h : Hw) (q : Requester) (a n : Nat) : litView.see (h.dropHeld q a n) = litView.see h :=
  View.see_each _ _ _ (fun _ _ => rfl)

@[simp ↓] theorem see_clearFlag (h : Hw) (f : Fld) (v : Word) (c : Bool) : litView.see (h.clearFlag f v c) = litView.see h :=
  View.see_when _ _ _ rfl

@[simp ↓] theorem see_ite (c : Prop) [Decidable c] (f g : Hw) :
    litView.see (if c then f else g) = if c then litView.see f else litView.see g := apply_ite ..

/-! ### Reads -/

@[simp ↓] theorem see_readPair (h : Hw) (q : Requester) (k : Nat) (b : Bool) (w : Word64) :
    litView.see (h.readPair q k b w).1 = litView.see h := by
  unfold Hw.readPair; split <;> rfl

@[simp ↓] theorem see_latchWords (h : Hw) (q : Requester) (b : Nat) (ws : List Word) :
    litView.see (h.latchWords q b ws) = litView.see h :=
  View.see_each h (ws.zip (valueWords (b + 4) ws.length)) _ (fun _ _ => rfl)

@[simp ↓] theorem see_evqRead (h : Hw) : litView.see h.evqRead.1 = litView.see h := by
  unfold Hw.evqRead; split <;> rfl

@[simp ↓] theorem see_readEffect (h : Hw) (a : Nat) : litView.see (h.readEffect a) = litView.see h := by
  unfold Hw.readEffect
  split
  · simp
  · split <;> simp

@[simp ↓] theorem see_busRead (h : Hw) (fr : Option Hw) (q : Requester) (a : Nat) :
    litView.see (h.busRead fr q a).1 = litView.see h := by
  unfold Hw.busRead
  dsimp only
  repeat' split
  all_goals simp

theorem see_readWords (fr : Option Hw) (q : Requester) (n : Nat) :
    ∀ (a : Nat) (h : Hw), litView.see (Hw.readWords fr q n a h).1 = litView.see h := by
  induction n with
  | zero => intro a h; rfl
  | succ n ih => intro a h; exact (ih _ _).trans (see_busRead h fr q a)

/-! ### Writes of SYS and the front of the hub (R36, R41, R208) -/

@[simp ↓] theorem see_seal (h : Hw) (p n : Nat) : litView.see (h.seal p n) = litView.see h := (rfl)

@[simp ↓] theorem see_commitGo (h : Hw) (q : Requester) (src : Nat) (v : Word) :
    litView.see (h.commitGo q src v) = litView.see h := by
  unfold Hw.commitGo; simp

@[simp ↓] theorem see_snapAsk (h : Hw) (q : Requester) : litView.see (h.snapAsk q) = litView.see h := by
  unfold Hw.snapAsk; simp

theorem see_snapWrite (s : State) (q : Requester) (v : Word) : litView.see (s.snapWrite q v).hw = litView.see s.hw := by
  have hrel (s : State) : litView.see (s.snapRel q).hw = litView.see s.hw := by
    unfold State.snapRel; split <;> rfl
  unfold State.snapWrite
  dsimp only
  repeat' split
  all_goals simp [hrel]

@[simp ↓] theorem see_release (h : Hw) : litView.see h.release = litView.see h := by
  unfold Hw.release; simp

@[simp ↓] theorem see_startFree (h : Hw) (v : Word) : litView.see (h.startFree v) = litView.see h := by
  unfold Hw.startFree; simp

/-! ### Writes of the terminals, sampling and the converters -/

@[simp ↓] theorem see_wantReclose (h : Hw) (t : Nat) : litView.see (h.wantReclose t) = litView.see h := by
  unfold Hw.wantReclose; simp

@[simp ↓] theorem see_ovCause (h : Hw) : litView.see h.ovCause = litView.see h := View.see_when _ _ _ rfl

@[simp ↓] theorem see_setOv (h : Hw) (t v : Nat) : litView.see (h.setOv t v) = litView.see h := (rfl)

@[simp ↓] theorem see_tstatAny (h : Hw) (t : Nat) (v : Word) : litView.see (h.tstatAny t v) = litView.see h := by
  unfold Hw.tstatAny Hw.tstatWrite; simp

@[simp ↓] theorem see_excStatusWrite (h : Hw) (d : Nat) (v : Word) : litView.see (h.excStatusWrite d v) = litView.see h := by
  have hoff (h : Hw) : litView.see (h.showFaultOff [d]) = litView.see h :=
    View.see_showFaultOff _ _ (fun _ _ => Or.inl litView_far)
  unfold Hw.excStatusWrite; simp [hoff]

@[simp ↓] theorem see_cancelSource (h : Hw) (src : Nat) : litView.see (h.cancelSource src) = litView.see h := by
  unfold Hw.cancelSource; simp

@[simp ↓] theorem see_syncT2Write (h : Hw) (q : Requester) (v : Word) : litView.see (h.syncT2Write q v) = litView.see h := by
  unfold Hw.syncT2Write; simp

@[simp ↓] theorem see_rehabWrite (h : Hw) (c : Nat) : litView.see (h.rehabWrite c) = litView.see h :=
  View.see_when _ _ _ rfl

@[simp ↓] theorem see_hkCtlWrite (h : Hw) (v : Word) : litView.see (h.hkCtlWrite v) = litView.see h := (rfl)

@[simp ↓] theorem see_listStart (h : Hw) (l n : Nat) : litView.see (h.listStart l n) = litView.see h := by
  unfold Hw.listStart; simp

@[simp ↓] theorem see_ilCtlWrite (h : Hw) (l : Nat) (v : Word) : litView.see (h.ilCtlWrite l v) = litView.see h := by
  unfold Hw.ilCtlWrite; simp

/-! ### Writes of the filters, the table, streams and the trigger -/

@[simp ↓] theorem see_swapRequest (h : Hw) (s b : Nat) : litView.see (h.swapRequest s b) = litView.see h := by
  unfold Hw.swapRequest; simp

@[simp ↓] theorem see_filSwap (h : Hw) (v : Word) : litView.see (h.filSwap v) = litView.see h := by
  unfold Hw.filSwap; simp

@[simp ↓] theorem see_tableWrite (h : Hw) (q : Requester) (a : Nat) (v : Word) :
    litView.see (h.tableWrite q a v).1 = litView.see h := by
  unfold Hw.tableWrite
  dsimp only
  repeat' split
  · exact see_setHeld ..
  · exact (see_setHeld ..).trans (see_put ..)
  · exact (see_epoch ..).trans (see_setHeld ..)

@[simp ↓] theorem see_backfillWrite (h : Hw) (q : Requester) (d : Option Nat) (v : Word) :
    litView.see (h.backfillWrite q d v).1 = litView.see h := by
  have hregs (lo hi n : Word) : litView.see (((((h.dropHeld q STR_BF_FIRST_LO 4).setReg STR_BF_FIRST_LO lo).setReg
      STR_BF_FIRST_HI hi).setReg STR_BF_COUNT n).writeRw STR_BF_CTL 0x1FFFFFF v) = litView.see h := by simp
  unfold Hw.backfillWrite
  dsimp only
  repeat' split
  · exact (View.see_str ..).trans (hregs _ _ _)
  · exact see_flag ..
  · exact hregs _ _ _

@[simp ↓] theorem see_maskWrite (h : Hw) (q : Requester) (a : Nat) (v : Word) : litView.see (h.maskWrite q a v) = litView.see h := by
  unfold Hw.maskWrite
  dsimp only
  split <;> rfl

@[simp ↓] theorem see_trgRestart (h : Hw) (v : Word) : litView.see (h.trgRestart v) = litView.see h :=
  View.see_each _ _ _ (fun h n => View.see_when _ _ _ (View.see_enterStart litView_far h n))

@[simp ↓] theorem see_trgFire (h : Hw) (v : Word) : litView.see (h.trgFire v) = litView.see h :=
  View.see_each _ _ _ (fun h n => View.see_when _ _ _ (View.see_unitCause h n _))

@[simp ↓] theorem see_segRel (h : Hw) (v : Word) : litView.see (h.segRel v) = litView.see h := by
  unfold Hw.segRel
  dsimp only
  split <;> simp

/-! ### Writes of capture memory and the cinch -/

@[simp ↓] theorem see_memClear (h : Hw) (v : Word) : litView.see (h.memClear v) = litView.see h := by
  unfold Hw.memClear; simp

@[simp ↓] theorem see_flipArm (h : Hw) (q : Requester) (v : Word) : litView.see (h.flipArm q v) = litView.see h := by
  unfold Hw.flipArm; simp

@[simp ↓] theorem see_resealStart (h : Hw) (t : Nat) (v : Word) : litView.see (h.resealStart t v) = litView.see h :=
  View.see_when _ _ _ rfl

@[simp ↓] theorem see_flipDone (h : Hw) : litView.see h.flipDone = litView.see h := by
  unfold Hw.flipDone; simp

@[simp ↓] theorem see_storeCode (h : Hw) (a : Nat) (c : Word72) (w : Option Requester) :
    litView.see (h.storeCode a c w) = litView.see h := by
  unfold Hw.storeCode; simp

@[simp ↓] theorem see_memWrite (h : Hw) (a : Nat) (w : Word64) (src : Nat) (q : Option Requester) :
    litView.see (h.memWrite a w src q) = litView.see h := by
  unfold Hw.memWrite Hw.putEntry Hw.meetWrite; simp

@[simp ↓] theorem see_memWriteHalf (h : Hw) (a : Nat) (b : Bool) (w : Word) (src : Nat) (q : Option Requester) :
    litView.see (h.memWriteHalf a b w src q) = litView.see h := by
  unfold Hw.memWriteHalf; simp

@[simp ↓] theorem see_windowWrite (h : Hw) (q : Requester) (a : Nat) (v : Word) :
    litView.see (h.windowWrite q a v) = litView.see h := by
  unfold Hw.windowWrite
  dsimp only
  repeat' split
  all_goals simp

@[simp ↓] theorem see_consumeHalves (h : Hw) (l : List (Nat × Bool)) (c : Nat) :
    litView.see (h.consumeHalves l c).1 = litView.see h := by
  unfold Hw.consumeHalves
  refine (View.see_foldl _ _ (fun p a => ?_) _).trans (View.see_useTiles h _)
  exact View.see_takeWord p.1 _ c

@[simp ↓] theorem see_takeInput (h : Hw) (place : Nat → Nat × Bool) (p n : Nat) :
    litView.see (h.takeInput place p n).1 = litView.see h := see_consumeHalves h _ _

@[simp ↓] theorem see_setBlock (h : Hw) (b : CinBlock) : litView.see (h.setBlock b) = litView.see h := (rfl)

@[simp ↓] theorem see_jobTake (h : Hw) : litView.see h.jobTake = litView.see h := by
  unfold Hw.jobTake
  dsimp only
  repeat' split
  all_goals simp

@[simp ↓] theorem see_jobGo (h : Hw) (d : Option Nat) : litView.see (h.jobGo d) = litView.see h := by
  unfold Hw.jobGo; simp

@[simp ↓] theorem see_jobResume (h : Hw) (m : Bool) : litView.see (h.jobResume m) = litView.see h := by
  unfold Hw.jobResume
  dsimp only
  repeat' split
  all_goals simp

@[simp ↓] theorem see_jobCtl (h : Hw) (d : Option Nat) (v : Word) : litView.see (h.jobCtl d v) = litView.see h := by
  unfold Hw.jobCtl; simp

@[simp ↓] theorem see_outRd (h : Hw) (v : Word) : litView.see (h.outRd v) = litView.see h := by
  unfold Hw.outRd; simp

/-! ### Writes of the links and of time -/

@[simp ↓] theorem see_linkCtl (h : Hw) (p : Port) (v : Word) : litView.see (h.linkCtl p v) = litView.see h := by
  unfold Hw.linkCtl; simp

@[simp ↓] theorem see_crcMonWrite (h : Hw) (p : Port) (v : Word) : litView.see (h.crcMonWrite p v) = litView.see h := by
  unfold Hw.crcMonWrite; simp

@[simp ↓] theorem see_portCtlWrite (h : Hw) (q : Requester) (v : Word) : litView.see (h.portCtlWrite q v) = litView.see h := by
  unfold Hw.portCtlWrite Hw.closedWrite Hw.setForcePort; simp

@[simp ↓] theorem see_incrWrite (h : Hw) (q : Requester) (v : Word) : litView.see (h.incrWrite q v) = litView.see h := by
  unfold Hw.incrWrite; simp

@[simp ↓] theorem see_stepReject (h : Hw) (n : Nat) : litView.see (h.stepReject n) = litView.see h := by
  unfold Hw.stepReject; simp

@[simp ↓] theorem see_showTimePend (h : Hw) : litView.see h.showTimePend = litView.see h := (rfl)

@[simp ↓] theorem see_adjWrite (h : Hw) (q : Requester) (v : Word) : litView.see (h.adjWrite q v) = litView.see h := by
  unfold Hw.adjWrite; simp

@[simp ↓] theorem see_setWrite (h : Hw) (q : Requester) (v : Word) : litView.see (h.setWrite q v) = litView.see h := by
  unfold Hw.setWrite; simp

@[simp ↓] theorem see_enterLocked (h : Hw) : litView.see h.enterLocked = litView.see h := by
  unfold Hw.enterLocked; simp

@[simp ↓] theorem see_ctlWrite (h : Hw) (v : Word) : litView.see (h.ctlWrite v) = litView.see h := by
  unfold Hw.ctlWrite; simp

/-! ### Writes of calibration, faults and the recorder -/

@[simp ↓] theorem see_runAll (h : Hw) : litView.see h.runAll = litView.see h := by
  unfold Hw.runAll Hw.setFeItem Hw.setAdcItem Hw.setSlicerItem Hw.setDelayItem; simp

@[simp ↓] theorem see_calCtlWrite (h : Hw) (v : Word) : litView.see (h.calCtlWrite v) = litView.see h := by
  unfold Hw.calCtlWrite; simp

@[simp ↓] theorem see_judgeTemps (h : Hw) : litView.see h.judgeTemps = litView.see h := by
  unfold Hw.judgeTemps
  dsimp only
  repeat' split
  all_goals simp

@[simp ↓] theorem see_clearSource (h : Hw) (i : Nat) : litView.see (h.clearSource i) = litView.see h := (rfl)

@[simp ↓] theorem see_statusClear (h : Hw) (b : Bool) (v : Word) : litView.see (h.statusClear b v) = litView.see h := by
  unfold Hw.statusClear; simp

@[simp ↓] theorem see_resumeSafe (h : Hw) : litView.see h.resumeSafe.1 = litView.see h := by
  unfold Hw.resumeSafe
  repeat' split
  all_goals rfl

@[simp ↓] theorem see_safeWrite (h : Hw) (q : Requester) (v : Word) : litView.see (h.safeWrite q v) = litView.see h := by
  unfold Hw.safeWrite; simp

@[simp ↓] theorem see_recCtlWrite (h : Hw) (v : Word) : litView.see (h.recCtlWrite v) = litView.see h := by
  unfold Hw.recCtlWrite; simp

@[simp ↓] theorem see_buntClear (h : Hw) (v : Word) : litView.see (h.buntClear v) = litView.see h := by
  unfold Hw.buntClear; simp

@[simp ↓] theorem see_fetchWrite (h : Hw) (d : Option Nat) (v : Word) : litView.see (h.fetchWrite d v) = litView.see h := by
  unfold Hw.fetchWrite; simp

/-! ### The access as a whole -/

theorem see_pageWrite (h g : Hw) (q : Requester) (a : Nat) (v : Word) (hg : h.pageWrite q a v = some g) :
    litView.see g = litView.see h := by
  unfold Hw.pageWrite at hg
  dsimp only at hg
  repeat' split at hg
  all_goals (cases hg <;> rfl)

theorem see_ownWrite (h : Hw) (q : Requester) (src a : Nat) (v : Word) (r : Hw × Nat) (hr : h.ownWrite q src a v = some r) :
    litView.see r.1 = litView.see h := by
  unfold Hw.ownWrite at hr
  dsimp only at hr
  repeat' split at hr
  all_goals (cases hr <;> simp)

@[simp ↓] theorem see_plainWrite (h : Hw) (a : Nat) (v : Word) : litView.see (h.plainWrite a v) = litView.see h := by
  unfold Hw.plainWrite; split <;> simp

@[simp ↓] theorem see_stagedPair (h : Hw) (q : Requester) (a : Nat) (v : Word) :
    litView.see (h.stagedPair q a v) = litView.see h := by
  unfold Hw.stagedPair; simp

theorem see_busWrite (h : Hw) (q : Requester) (src a : Nat) (v : Word) :
    litView.see (h.busWrite q src a v).1 = litView.see h := by
  unfold Hw.busWrite
  split
  · rename_i g hg
    exact see_pageWrite h g q a v hg
  · split
    · rename_i r hr
      exact see_ownWrite h q src a v r hr
    · dsimp only
      repeat' split
      all_goals simp

theorem see_state_busWrite (s : State) (q : Requester) (src a : Nat) (v : Word) :
    litView.see (s.busWrite q src a v).1.hw = litView.see s.hw := by
  unfold State.busWrite
  repeat' split
  · rfl
  · rfl
  · exact see_snapWrite s q v
  · exact see_busWrite s.hw q src a v

theorem see_mspiWords (ws : List Word) : ∀ (s : State) (a : Nat), litView.see (s.mspiWords a ws).hw = litView.see s.hw := by
  induction ws with
  | nil => intro s a; rfl
  | cons v vs ih => intro s a; exact (ih _ _).trans (see_state_busWrite s .mspi 0 a v)

theorem see_mspiDo (s : State) (m : MspiAccess) : litView.see (s.mspiDo m).hw = litView.see s.hw := by
  cases m with
  | read a n =>
    change litView.see (s.mspiRead a n).hw = _
    unfold State.mspiRead
    split
    · exact see_readWords s.frozen .mspi n _ s.hw
    · rfl
  | write a ws => exact see_mspiWords ws s _

/-- The accesses that waited for CORE change no domain that runs. -/
theorem see_mspiServe (s : State) : litView.see s.mspiServe.hw = litView.see s.hw := by
  unfold State.mspiServe
  split
  · exact foldl_keeps (fun x : State => litView.see x.hw = litView.see s.hw) _
      (fun x m hx => (see_mspiDo x m).trans hx) _ _ rfl
  · rfl

end Lit
end Sys2Proof.Machine

/-! ## Sending blocks moves the lanes of the port and its slots, and nothing else (R389) -/

namespace Sys2Proof.Machine

/-- A port without its lanes, its slots and the number of its next block. -/
def PortSt.unwired (x : PortSt) : PortSt := { x with lanes := [], block := 0, slot := 0, slotAt := 0 }

/-- The hub without the lanes of its ports. -/
def Hw.unwired (h : Hw) : Hw :=
  { h with net := { h.net with portA := h.net.portA.unwired, portB := h.net.portB.unwired } }

theorem unwired_setPort (h : Hw) (p : Port) (x : PortSt) (hx : x.unwired = (h.port p).unwired) :
    (h.setPort p x).unwired = h.unwired := by
  cases p <;> (simp only [Hw.unwired, Hw.setPort, hx]; rfl)

theorem unwired_when (h : Hw) (c : Bool) (f : Hw → Hw) (hf : (f h).unwired = h.unwired) :
    (h.when c f).unwired = h.unwired := when_keeps Hw.unwired f c h hf

theorem unwired_each {α : Type} (h : Hw) (l : List α) (f : Hw → α → Hw) (hf : ∀ h x, (f h x).unwired = h.unwired) :
    (h.each l f).unwired = h.unwired := each_keeps Hw.unwired f hf l h

@[simp] theorem unwired_setLane (h : Hw) (p : Port) (l : Nat) (x : Lane) : (h.setLane p l x).unwired = h.unwired :=
  unwired_setPort h p _ rfl

@[simp] theorem unwired_nextSlot (h : Hw) (p : Port) : (h.nextSlot p).unwired = h.unwired := unwired_setPort h p _ rfl

@[simp] theorem unwired_markLane (h : Hw) (p : Port) (c k l : Nat) : (h.markLane p c k l).unwired = h.unwired :=
  unwired_setLane h p l _

@[simp] theorem unwired_trainLane (h : Hw) (p : Port) (l : Nat) : (h.trainLane p l).unwired = h.unwired := by
  unfold Hw.trainLane; split <;> simp

/-- One slot on lanes that are being trained. -/
theorem unwired_trainSlot (h : Hw) (p : Port) (l : List Nat) :
    ((h.each l (fun h l => h.trainLane p l)).nextSlot p).unwired = h.unwired :=
  (unwired_nextSlot _ p).trans (unwired_each _ _ _ (fun h l => unwired_trainLane h p l))

@[simp] theorem unwired_openSlot (h : Hw) (p : Port) : (h.openSlot p).unwired = h.unwired := by
  unfold Hw.openSlot
  exact (unwired_trainSlot _ p _).trans (unwired_when _ _ _
    ((unwired_trainSlot _ p _).trans (unwired_each _ _ _ (fun h l => unwired_markLane h p _ _ l))))

/-- A block on the next lane, in a slot that is opened first where it is due. -/
theorem unwired_block (h : Hw) (p : Port) (l : Nat) (x : Lane) (n : Nat) :
    ((h.setLane p l x).setPort p { (h.setLane p l x).port p with block := n }).unwired = h.unwired :=
  (unwired_setPort _ p _ (by rfl)).trans (unwired_setLane h p l x)

@[simp] theorem unwired_sendBlock (h : Hw) (p : Port) (b : Bool × List Byte) : (h.sendBlock p b).unwired = h.unwired := by
  unfold Hw.sendBlock
  exact (unwired_block _ p _ _ _).trans (unwired_when _ _ _ (unwired_openSlot h p))

@[simp] theorem unwired_sendIdle (h : Hw) (p : Port) : (h.sendIdle p).unwired = h.unwired := by
  unfold Hw.sendIdle
  exact (unwired_block _ p _ _ _).trans (unwired_when _ _ _ (unwired_openSlot h p))

@[simp] theorem unwired_padSlot (h : Hw) (p : Port) : (h.padSlot p).unwired = h.unwired :=
  unwired_each _ _ _ (fun h _ => unwired_sendIdle h p)

@[simp] theorem unwired_fillSlot (h : Hw) (p : Port) : (h.fillSlot p).unwired = h.unwired := by
  unfold Hw.fillSlot
  dsimp only
  split
  · exact unwired_trainSlot h p _
  · exact unwired_each _ _ _ (fun h _ => unwired_sendIdle h p)

@[simp] theorem unwired_fillLanes (h : Hw) (p : Port) : (h.fillLanes p).unwired = h.unwired := by
  unfold Hw.fillLanes
  dsimp only
  repeat' split
  · rfl
  · rfl
  · exact unwired_each _ _ _ (fun h _ => unwired_trainSlot h p _)
  · rfl
  · exact (unwired_each _ _ _ (fun h _ => unwired_fillSlot h p)).trans (unwired_padSlot h p)

@[simp] theorem unwired_sendStriped (h : Hw) (p : Port) (bs : List (Bool × List Byte)) :
    (h.sendStriped p bs).unwired = h.unwired :=
  (unwired_each _ _ _ (fun h b => unwired_sendBlock h p b)).trans (unwired_fillLanes h p)

theorem regs_sendStriped (h : Hw) (p : Port) (bs : List (Bool × List Byte)) : (h.sendStriped p bs).regs = h.regs := by
  have hsent := congrArg Hw.regs (unwired_sendStriped h p bs)
  exact hsent

end Sys2Proof.Machine

/-! ## Clock domains and crossings (R23 to R28, R541 to R551) -/

namespace Sys2Proof.Machine

/-! ### Waking a domain -/

theorem dom_wake_other (h : Hw) {d e : Domain} (he : e ≠ d) : (h.wake d).dom e = h.dom e := by
  unfold Hw.wake
  dsimp only
  repeat' split
  all_goals simp [View.dom_setDom, he]

theorem sideband_wake (h : Hw) (d : Domain) : (h.wake d).clk.sideband = h.clk.sideband := by
  unfold Hw.wake
  dsimp only
  repeat' split
  all_goals cases d <;> rfl

/-- A domain that stands still or wakes, on a hub with REFCLK and the OTP read done: a wake of it starts or goes on. -/
structure Wakeable (h : Hw) (d : Domain) : Prop where
  mode : (h.dom d).mode = .off ∨ (h.dom d).mode = .waking
  refclk : h.boot.refclkLost = false
  otp : h.boot.phase ≠ .otp

theorem mode_wake {h : Hw} {d : Domain} (hw : Wakeable h d) : ((h.wake d).dom d).mode = .waking := by
  obtain ⟨hm | hm, hr, hp⟩ := hw <;> simp [Hw.wake, hm, hr, hp, View.dom_setDom]

section WakeList
variable (c : Hw → Domain → Bool) (d : Domain)

/-- One domain of the list: `d` wakes if it is the one, and keeps its state otherwise. -/
theorem when_wake {h : Hw} (e : Domain) (hw : Wakeable h d) (hcd : c h d = true) :
    ((h.when (c h e) (fun h => h.wake e)).dom d).mode = .waking ∨
    d ≠ e ∧ (h.when (c h e) (fun h => h.wake e)).dom d = h.dom d := by
  by_cases he : d = e
  · subst he
    rw [hcd]
    exact Or.inl (mode_wake hw)
  · exact Or.inr ⟨he, when_keeps (·.dom d) _ _ h (dom_wake_other h he)⟩

/-- The wakes of a list reach each domain in it whose condition holds; the condition is one that no wake changes. -/
theorem mode_each_wake (hc : ∀ g h : Hw, g.still = h.still → c g d = c h d) (l : List Domain) :
    ∀ h : Hw, Wakeable h d → c h d = true → d ∈ l ∨ (h.dom d).mode = .waking →
      ((h.each l (fun h d => h.when (c h d) (fun h => h.wake d))).dom d).mode = .waking := by
  induction l with
  | nil => intro h _ _ hd; exact hd.resolve_left List.not_mem_nil
  | cons e l ih =>
    intro h hw hcd hd
    have hstill : (h.when (c h e) (fun h => h.wake e)).still = h.still := still_when _ _ _ (still_wake h e)
    have hboot : (h.when (c h e) (fun h => h.wake e)).boot = h.boot := congrArg Still.boot hstill
    have hcond := (hc _ _ hstill).trans hcd
    rcases when_wake c d e hw hcd with hm | ⟨he, hm⟩
    · exact ih _ ⟨Or.inr hm, hboot ▸ hw.refclk, hboot ▸ hw.otp⟩ hcond (Or.inr hm)
    · refine ih _ ⟨hm ▸ hw.mode, hboot ▸ hw.refclk, hboot ▸ hw.otp⟩ hcond (hd.imp (fun h => ?_) (fun h => hm ▸ h))
      exact (List.mem_cons.mp h).resolve_left he

theorem regs_each_wake (l : List Domain) (h : Hw) :
    (h.each l (fun h d => h.when (c h d) (fun h => h.wake d))).regs = h.regs :=
  each_keeps Hw.regs (fun h d => h.when (c h d) (fun h => h.wake d))
    (fun h d => when_keeps Hw.regs (fun h => h.wake d) _ h (regs_wake h d)) l h

end WakeList

theorem exec_domainWakeStart {e : WakeEntry} {s : State} (hl : s.hw.live = true)
    (hw : (Instr.domainWakeStart e).wf = true) :
    exec (.domainWakeStart e) s = .next { s with hw := s.hw.wakeStart e } := by
  change execDomainWakeStart e s = _
  have hobj : entryWf e = true := hw
  cases e <;> simp_all [execDomainWakeStart, entryWf, isGroup, isTrig, actOn_live]

theorem exec_coreWakeDemand {dem : Demand} {s : State} (hl : s.hw.live = true) :
    exec (.coreWakeDemand dem) s = .next { s with hw := match dem with
      | .mspi => s.hw.wakeRequest 7
      | .partner p => s.hw.wakeRequest (5 + portNo p)
      | _ => s.hw.wake .core } := actOn_live s _ hl

/-! ### Crossings -/

theorem xing_setXing (h : Hw) (k j : Nat) (c : Crossing) : (h.setXing k c).xing j = if j = k then c else h.xing j := by
  simp [Hw.xing, Hw.setXing, storeGet_set]

theorem dom_setXing (h : Hw) (k : Nat) (c : Crossing) (d : Domain) : (h.setXing k c).dom d = h.dom d := by
  cases d <;> rfl

theorem dom_put (h : Hw) (f : Fld) (v : Nat) (d : Domain) : (h.put f v).dom d = h.dom d := by cases d <;> rfl

theorem dom_xingReq (h : Hw) (k : Nat) (d : Domain) : (h.xingReq k).dom d = h.dom d := by
  unfold Hw.xingReq
  dsimp only
  repeat' split
  · exact dom_setXing ..
  · exact dom_setXing ..
  · exact dom_put ..

theorem xing_wake (h : Hw) (d : Domain) (k : Nat) : (h.wake d).xing k = h.xing k := by
  unfold Hw.wake
  dsimp only
  repeat' split
  all_goals cases d <;> rfl

theorem regs_xingActed (h : Hw) (k : Nat) : (h.xingActed k).regs = h.regs := (rfl)

/-- That a side has acted changes neither the count of a crossing nor whether it is busy. -/
theorem xing_xingActed (h : Hw) (j k : Nat) : ((h.xingActed j).xing k).busy = (h.xing k).busy ∧
    ((h.xingActed j).xing k).pending = (h.xing k).pending := by
  unfold Hw.xingActed
  rw [xing_setXing]
  split
  next hk => rw [hk]; exact ⟨rfl, rfl⟩
  next => exact ⟨rfl, rfl⟩

theorem xing_when_acted (h : Hw) (c : Bool) (j k : Nat) :
    ((h.when c (fun h => h.xingActed j)).xing k).busy = (h.xing k).busy ∧
    ((h.when c (fun h => h.xingActed j)).xing k).pending = (h.xing k).pending := by
  cases c
  · exact ⟨rfl, rfl⟩
  · exact xing_xingActed h j k

/-! A request makes an idle crossing busy, is counted on a busy one, and is lost on one that counts no further. -/

theorem xingReq_of_idle {h : Hw} {k : Nat} (hb : (h.xing k).busy = false) :
    h.xingReq k = h.setXing k { busy := true, pending := (h.xing k).pending, acted := false } := by
  simp [Hw.xingReq, hb]

theorem xingReq_of_busy {h : Hw} {k : Nat} (hb : (h.xing k).busy = true) (hp : (h.xing k).pending < 255) :
    h.xingReq k = h.setXing k { h.xing k with pending := (h.xing k).pending + 1 } := by
  simp [Hw.xingReq, hb, hp]

theorem xingReq_of_full {h : Hw} {k : Nat} (hb : (h.xing k).busy = true) (hp : (h.xing k).pending = 255) :
    h.xingReq k = h.put (xingOvr k) 1 := by
  simp [Hw.xingReq, hb, hp]

/-- A WAKE crossing's request wakes CORE beside what every request does. -/
theorem request_spec (h : Hw) (k : Nat) : ((h.request k).xing k).busy = ((h.xingReq k).xing k).busy ∧
    ((h.request k).xing k).pending = ((h.xingReq k).xing k).pending ∧ (h.request k).regs = (h.xingReq k).regs := by
  unfold Hw.request
  split
  · obtain ⟨hb, hp⟩ := xing_when_acted ((h.xingReq k).wake .core) ((h.xingReq k).wake .core).coreOn k k
    have hx := xing_wake (h.xingReq k) .core k
    refine ⟨hb.trans (congrArg Crossing.busy hx), hp.trans (congrArg Crossing.pending hx), ?_⟩
    exact (when_keeps Hw.regs (fun h => h.xingActed k) _ _ rfl).trans (regs_wake (h.xingReq k) .core)
  · exact ⟨rfl, rfl, rfl⟩

theorem core_wakeRequest {h : Hw} (k : Nat) (hw : Wakeable h .core) : (h.wakeRequest k).clk.core.mode = .waking := by
  have hreq : Wakeable (h.xingReq k) .core :=
    have hboot : (h.xingReq k).boot = h.boot := congrArg Still.boot (still_xingReq h k)
    ⟨dom_xingReq h k .core ▸ hw.mode, hboot ▸ hw.refclk, hboot ▸ hw.otp⟩
  have hacted := when_keeps (fun g => g.dom .core) (fun g => g.xingActed k) ((h.xingReq k).wake .core).coreOn
    ((h.xingReq k).wake .core) (dom_setXing _ k _ .core)
  exact (congrArg DomSt.mode hacted).trans (mode_wake hreq)

/-- Claiming a slot for a recorder trigger is acted on, no more, at the crossing. -/
theorem xing_recReceive (h : Hw) (k : Nat) : (h.recReceive.xing k).busy = (h.xing k).busy ∧
    (h.recReceive.xing k).pending = (h.xing k).pending := by
  have hacted (g : Hw) (hg : g.clk = (h.xingActed 0).clk) :
      (g.xing k).busy = (h.xing k).busy ∧ (g.xing k).pending = (h.xing k).pending := by
    have hx : g.xing k = (h.xingActed 0).xing k := 
      congrArg (fun c : ClkSt => storeGet (fun _ => crossing0) c.crossings k) hg
    rw [hx]
    exact xing_xingActed h 0 k
  unfold Hw.recReceive
  dsimp only
  repeat' split
  · exact hacted _ (by simp [Hw.setSlot]; rfl)
  · exact hacted _ (by simp; rfl)
  · exact ⟨rfl, rfl⟩
  · exact ⟨rfl, rfl⟩

theorem ack_spec (h : Hw) (k : Nat) (hb : (h.xing k).busy = true) :
    (0 < (h.xing k).pending → ((h.ack k).xing k).busy = true ∧ ((h.ack k).xing k).pending = (h.xing k).pending - 1) ∧
    ((h.xing k).pending = 0 → (h.ack k).xing k = crossing0) := by
  have hrec := when_keeps (fun g : Hw => ((g.xing k).busy, (g.xing k).pending)) Hw.recReceive (decide (k = 0)) h
    (Prod.ext (xing_recReceive h k).1 (xing_recReceive h k).2)
  obtain ⟨hbusy, hpend⟩ := Prod.mk.inj hrec
  rw [← hpend]
  unfold Hw.ack
  generalize h.when (decide (k = 0)) Hw.recReceive = g at *
  obtain ⟨hb', hp'⟩ := xing_when_acted (g.xingAck k) (decide (5 ≤ k) && ((g.xingAck k).xing k).busy && (g.xingAck k).coreOn) k k
  have hack : g.xingAck k = if 0 < (g.xing k).pending then
      g.setXing k { busy := true, pending := (g.xing k).pending - 1, acted := false } else g.setXing k crossing0 := by
    simp [Hw.xingAck, hbusy, hb]
  constructor
  · intro h0
    rw [hb', hp', hack, if_pos h0, xing_setXing, if_pos rfl]
    exact ⟨rfl, rfl⟩
  · intro h0
    rw [hack, if_neg (by omega)]
    simp [xing_setXing, crossing0, Hw.when]

theorem exec_xingRequest {k : Nat} {s : State} (hl : s.hw.live = true) (hk : k < 8) :
    exec (.xingRequest k) s = .next { s with hw := s.hw.request k } := by
  change actOn s (isXing k) _ = _
  rw [isXing, decide_eq_true hk]
  exact actOn_live s _ hl

theorem exec_xingAck {k : Nat} {s : State} (hl : s.hw.live = true) (hk : k < 8) (ha : s.hw.ackSeen k = true) :
    exec (.xingAck k) s = .next { s with hw := s.hw.ack k } := by
  change actOn s (isXing k) _ = _
  rw [isXing, decide_eq_true hk, actOn_live s _ hl, ha]
  rfl

theorem busy_of_ackSeen {h : Hw} {k : Nat} (ha : h.ackSeen k = true) : (h.xing k).busy = true :=
  (Bool.and_eq_true_iff.mp ha).1

/-! ### Queues (R546 to R548) -/

theorem regs_dropRx (h : Hw) (p : Port) : (h.dropRx p).regs = h.regs := by
  unfold Hw.dropRx
  split
  · dsimp only
    rw [when_keeps Hw.regs _ _ _ (regs_sendStriped _ _ _), when_keeps Hw.regs _ _ _ (Hw.setPort_regs _ _ _),
      Hw.setPort_regs]
  · rfl

/-- A write side that is reset is acted on for each queue, without a register but the count. -/
theorem resync_write (h : Hw) {qu : Nat} (hq : qu < 9) : ∃ g, h.resync qu 0 = some g ∧ g.regs = h.regs := by
  have hdrop := regs_dropRx h
  have hport := Hw.setPort_regs h
  interval_cases qu
  · exact ⟨_, rfl, rfl⟩
  · exact ⟨_, rfl, hdrop .a⟩
  · exact ⟨_, rfl, hdrop .b⟩
  · exact ⟨_, rfl, hdrop .a⟩
  · exact ⟨_, rfl, hdrop .b⟩
  · exact ⟨_, rfl, hport .a _⟩
  · exact ⟨_, rfl, hport .b _⟩
  · exact ⟨_, rfl, rfl⟩
  · exact ⟨_, rfl, rfl⟩

/-- A read side is acted on for the two forwarding buffers. -/
theorem resync_read (h : Hw) {qu : Nat} (hq : qu = 3 ∨ qu = 4) : ∃ g, h.resync qu 1 = some g ∧ g.regs = h.regs := by
  rcases hq with rfl | rfl
  · exact ⟨_, rfl, (when_keeps Hw.regs _ _ _ (regs_sendStriped _ _ _)).trans (Hw.setPort_regs h .b _)⟩
  · exact ⟨_, rfl, (when_keeps Hw.regs _ _ _ (regs_sendStriped _ _ _)).trans (Hw.setPort_regs h .a _)⟩

theorem resync_read_none (h : Hw) {qu : Nat} (hq : qu < 9) (h3 : qu ≠ 3) (h4 : qu ≠ 4) : h.resync qu 1 = none := by
  interval_cases qu <;> simp_all [Hw.resync]

/-- The count of a resynchronisation on a queue. -/
theorem exec_queueResync {qu side : Nat} {s : State} {g : Hw} (hl : s.hw.live = true) (hq : qu < 9) (hs : side < 2)
    (hg : s.hw.resync qu side = some g) (hr : g.regs = s.hw.regs) :
    Completes (.queueResync qu side) s (fun x =>
      x.hw.get CLK_RESYNC_RESYNCS = satAdd 32 (s.hw.get CLK_RESYNC_RESYNCS) 1) := by
  have hout : exec (.queueResync qu side) s = .next { s with hw := g.bump CLK_RESYNC_RESYNCS 1 } := by
    change execQueueResync qu side s = _
    simp [execQueueResync, hq, hs, actOn_live s _ hl, hg]
  have hget : g.get CLK_RESYNC_RESYNCS = s.hw.get CLK_RESYNC_RESYNCS := by
    rw [Hw.get, Hw.reg, hr, ← Hw.reg, ← Hw.get]
  have hlt : satAdd 32 (s.hw.get CLK_RESYNC_RESYNCS) 1 < 2 ^ 32 := by
    unfold satAdd; split <;> omega
  refine ⟨_, hout, ?_⟩
  change (g.put CLK_RESYNC_RESYNCS (satAdd 32 (g.get CLK_RESYNC_RESYNCS) 1)).get CLK_RESYNC_RESYNCS = _
  rw [get_put_same _ _ _ (by decide) (by decide), hget]
  exact Nat.mod_eq_of_lt hlt

/-! ### A wake that is done -/

/-- The domain runs, and what CORE then serves leaves it running. -/
theorem dom_wakeDone {h : Hw} {d : Domain} (hm : (h.dom d).mode = .waking)
    (hc : ∀ c, d = .conv c → h.clk.timing.mode = .on) : ((h.wakeDone d).dom d).mode = .on := by
  have hwake : h.wakeable d = true := by
    cases d with
    | conv c => simpa [Hw.wakeable] using hc c rfl
    | timing => rfl
    | core => rfl
    | stitch => rfl
  have hacted (g : Hw) (l : List Nat) : (g.each l (fun g x => g.when (g.xing x).busy (fun g => g.xingActed x))).dom d =
      g.dom d :=
    each_keeps (fun g : Hw => g.dom d) _ (fun g x => when_keeps (fun g : Hw => g.dom d) _ _ g (dom_setXing g x _ d)) l g
  unfold Hw.wakeDone
  dsimp only
  rw [if_pos ⟨hm, hwake⟩]
  split
  next he =>
    rw [hacted, Hw.bump, dom_put, View.dom_setDom, if_pos rfl]
  next => rw [View.dom_setDom, if_pos rfl]

theorem mode_on_of_lit {g h : Hw} (he : litView.see g = litView.see h) (d : Domain) (hm : (h.dom d).mode = .on) :
    (g.dom d).mode = .on :=
  of_decide_eq_true ((congrFun he d).trans (decide_eq_true hm))

theorem reached_of_still {g h : Hw} (he : g.still = h.still) (t : Nat) : g.reached t = h.reached t := by
  have htime : g.time = h.time := congrArg Still.time he
  rw [Hw.reached, Hw.reached, Hw.incrNow, Hw.incrNow, htime]

theorem wakeStart_of_entry {h : Hw} {e : WakeEntry} {t : Nat} (ht : h.nextEntryAt e = some t) :
    h.wakeStart e = h.each ([Domain.timing, .core, .stitch] ++ h.servingCores.map .conv) (fun h d =>
      h.when (needsDomain e d && h.reached (t - wakeLead e d * nsUnit)) (fun h => h.wake d)) := by
  simp only [Hw.wakeStart, ht]

/-- A count that differs from the last one is kept, and its events wake CORE. -/
theorem sideband_spec {h : Hw} {src cnt : Nat} (hw : Wakeable h .core)
    (hlast : storeGet (fun _ => 0) h.clk.sideband src < 16) (hcnt : cnt < 16)
    (hne : cnt ≠ storeGet (fun _ => 0) h.clk.sideband src) : (h.sideband src cnt).clk.core.mode = .waking ∧
    storeGet (fun _ => 0) (h.sideband src cnt).clk.sideband src = cnt := by
  have hnew : decide ((cnt % 16 + 16 - storeGet (fun _ => 0) h.clk.sideband src) % 16 ≠ 0) = true := by
    rw [decide_eq_true_iff]; omega
  unfold Hw.sideband
  dsimp only
  rw [hnew]
  refine ⟨mode_wake (d := .core) ⟨hw.mode, hw.refclk, hw.otp⟩, ?_⟩
  change storeGet (fun _ => 0) (Hw.wake _ .core).clk.sideband src = cnt
  rw [sideband_wake, storeGet_set_same, Nat.mod_eq_of_lt hcnt]

/-- Settles O13: the wakes, the crossings and the queues one by one; that a domain which has woken still runs when the
waiting accesses are served is what the view of the domains that run says. -/
theorem clockDomains : Obligations.ClockDomains := by
  unfold Obligations.ClockDomains
  refine ⟨?_, ?_, ?_, ?_, ?_, ?_, ?_, ?_, ?_, ?_, ?_, ?_, ?_⟩
  · intro s e d t hl hwf hd hm hr hn ht hreach
    have hc (g h : Hw) (hgh : g.still = h.still) : (needsDomain e d && g.reached (t - wakeLead e d * nsUnit)) =
        (needsDomain e d && h.reached (t - wakeLead e d * nsUnit)) := by
      rw [reached_of_still hgh]
    refine ⟨_, exec_domainWakeStart hl hwf, ?_⟩
    rw [wakeStart_of_entry ht]
    exact ⟨mode_each_wake (fun h d => needsDomain e d && h.reached (t - wakeLead e d * nsUnit)) d hc _ s.hw
      ⟨Or.inl hm, hr.1, hr.2⟩ (Bool.and_eq_true_iff.mpr ⟨hn, hreach⟩) (Or.inl (List.contains_iff_mem.mp hd)),
      regs_each_wake _ _ _⟩
  · intro s dem hl hm hr
    have hw : Wakeable s.hw .core := ⟨Or.inl hm, hr.1, hr.2⟩
    refine ⟨_, exec_coreWakeDemand hl, ?_⟩
    cases dem with
    | mspi => exact core_wakeRequest 7 hw
    | partner p => exact core_wakeRequest (5 + portNo p) hw
    | _ => exact mode_wake hw
  · intro s src cnt hl hm hr hlast hcnt hne
    have hw : Wakeable s.hw .core := ⟨Or.inl hm, hr.1, hr.2⟩
    exact ⟨_, actOn_live s _ hl, sideband_spec hw hlast hcnt hne⟩
  · intro s d hl hd hm hc
    have hout : exec (.domainWakeDone d) s = .next ({ s with hw := s.hw.wakeDone d } : State).mspiServe := by
      change execDomainWakeDone d s = _
      simp [execDomainWakeDone, hd, hl]
    exact ⟨_, hout, mode_on_of_lit (Lit.see_mspiServe _) d (dom_wakeDone hm hc)⟩
  · intro s d hl hd hm hen hp hf
    have hsleep : s.hw.sleep d = s.hw.setDom d { mode := .entering, again := false, since := s.hw.ns } := by
      simp [Hw.sleep, hm, hen, hp, hf]
    refine ⟨_, (?_ : actOn s (isDomain d) _ = _), rfl⟩
    rw [hd, actOn_live s _ hl, hsleep]
  · intro s k hl hk hb
    obtain ⟨hbusy, hpend, hregs⟩ := request_spec s.hw k
    rw [xingReq_of_idle hb] at hbusy hpend hregs
    rw [xing_setXing, if_pos rfl] at hbusy hpend
    exact ⟨_, exec_xingRequest hl hk, hbusy, hpend, hregs⟩
  · intro s k hl hk hb hp
    obtain ⟨hbusy, hpend, hregs⟩ := request_spec s.hw k
    rw [xingReq_of_busy hb hp] at hbusy hpend hregs
    rw [xing_setXing, if_pos rfl] at hbusy hpend
    exact ⟨_, exec_xingRequest hl hk, hbusy.trans hb, hpend, hregs⟩
  · intro s k hl hk hb hp
    obtain ⟨hbusy, hpend, hregs⟩ := request_spec s.hw k
    rw [xingReq_of_full hb hp] at hbusy hpend hregs
    have hon : (s.hw.request k).on (xingOvr k) = (s.hw.put (xingOvr k) 1).on (xingOvr k) := by
      rw [Hw.on, Hw.on, Hw.get, Hw.get, Hw.reg, Hw.reg, hregs]
    exact ⟨_, exec_xingRequest hl hk, hbusy.trans hb, hpend.trans hp,
      hon.trans (on_put_one _ _ (Nat.le_refl k) (by omega : k < 32))⟩
  · intro s k hl hk ha hp
    exact ⟨_, exec_xingAck hl hk ha, (ack_spec s.hw k (busy_of_ackSeen ha)).1 hp⟩
  · intro s k hl hk ha hp
    exact ⟨_, exec_xingAck hl hk ha, (ack_spec s.hw k (busy_of_ackSeen ha)).2 hp⟩
  · intro s qu hl hq
    obtain ⟨g, hg, hr⟩ := resync_write s.hw hq
    exact exec_queueResync hl hq (by decide) hg hr
  · intro s qu hl hq
    obtain ⟨g, hg, hr⟩ := resync_read s.hw hq
    exact exec_queueResync hl (by omega) (by decide) hg hr
  · intro s qu hl hq h3 h4
    have hout : exec (.queueResync qu 1) s = .next s := by
      change execQueueResync qu 1 s = _
      simp [execQueueResync, hq, actOn_live s _ hl, resync_read_none s.hw hq h3 h4]
    exact ⟨_, hout, rfl⟩

end Sys2Proof.Machine

/-! ## Frames go out, and the queue of events (R422, R430, R431, R445, R450, R452, R495) -/

namespace Sys2Proof.Machine

/-! ### What the hub's own sending leaves of the links -/

/-- The count of lagging copies at a port, and each port as it stands. -/
def linkView : View (PortSt × PortSt × (Port → Nat)) where
  look s := (s.portA, s.portB, fun p =>
    bits (storeGet regReset s.regs (LNK_FWD_DROP_LAG (portNo p)).addr) (LNK_FWD_DROP_LAG (portNo p)).hi
      (LNK_FWD_DROP_LAG (portNo p)).lo)
  look_put := fun h f v _ hl => by
    have hlag (p : Port) : (h.put f v).get (LNK_FWD_DROP_LAG (portNo p)) = h.get (LNK_FWD_DROP_LAG (portNo p)) := by
      by_cases ha : (LNK_FWD_DROP_LAG (portNo p)).addr = f.addr
      · rcases hl with ⟨hA, hB⟩ | ⟨hlo, hhi⟩
        · cases p
          · exact absurd ha.symm hA
          · exact absurd ha.symm hB
        · exact get_put_disjoint h f _ v hlo (by omega) (by cases p <;> decide) ha (Or.inl hhi)
      · exact get_put_other h f _ v ha
    exact Prod.ext rfl (Prod.ext rfl (funext hlag))

theorem port_pump (h : Hw) (p : Port) : h.pump.port p = h.port p := by
  have hp : linkView.see h.pump = linkView.see h := View.see_pump h
  cases p
  · exact congrArg Prod.fst hp
  · exact congrArg (·.2.1) hp

theorem lag_pump (h : Hw) (p : Port) : h.pump.get (LNK_FWD_DROP_LAG (portNo p)) = h.get (LNK_FWD_DROP_LAG (portNo p)) := by
  have hp : linkView.see h.pump = linkView.see h := View.see_pump h
  exact congrFun (congrArg (·.2.2) hp) p

/-! ### The lanes have no part in what a port sends -/

theorem port_setPort (h : Hw) (p : Port) (x : PortSt) : (h.setPort p x).port p = x := by cases p <;> rfl

theorem port_unwired (h : Hw) (p : Port) : h.unwired.port p = (h.port p).unwired := by cases p <;> rfl

theorem pick_unwired (h : Hw) (p : Port) : h.unwired.pick p = h.pick p := by
  have hfwd : (h.unwired.port p).fwd = (h.port p).fwd := by rw [port_unwired]; rfl
  have hans : (h.unwired.port p).answers = (h.port p).answers := by rw [port_unwired]; rfl
  unfold Hw.pick
  dsimp only
  rw [hfwd, hans]
  rfl

section Unwired
variable {g h : Hw} (he : g.unwired = h.unwired)
include he

theorem pick_of_unwired (p : Port) : g.pick p = h.pick p := by
  rw [← pick_unwired g, he, pick_unwired h]

theorem port_of_unwired (p : Port) : (g.port p).unwired = (h.port p).unwired := by
  rw [← port_unwired g, he, port_unwired h]

theorem fwd_of_unwired (p : Port) : (g.port p).fwd = (h.port p).fwd := by
  have hport := congrArg PortSt.fwd (port_of_unwired he p)
  exact hport

theorem answers_of_unwired (p : Port) : (g.port p).answers = (h.port p).answers := by
  have hport := congrArg PortSt.answers (port_of_unwired he p)
  exact hport

theorem lastSent_of_unwired (p : Port) : (g.port p).lastSent = (h.port p).lastSent := by
  have hport := congrArg PortSt.lastSent (port_of_unwired he p)
  exact hport

theorem ns_of_unwired : g.ns = h.ns := by
  have htime := congrArg Hw.ns he
  exact htime

end Unwired

/-! ### A frame leaves -/

theorem port_frameSent (h : Hw) (p : Port) (b : List Byte) :
    (h.frameSent p b).port p = { h.port p with lastSent := b, idleSince := h.ns } := port_setPort ..

theorem fwd_sendStriped (h : Hw) (p : Port) (x : PortSt) (bs : List (Bool × List Byte)) :
    (((h.setPort p x).sendStriped p bs).port p).fwd = x.fwd := by
  rw [fwd_of_unwired (unwired_sendStriped ..), port_setPort]

/-- A stored frame leaves whole, and its entry with it. -/
theorem sendFwd_complete (h : Hw) (p : Port) (off : Nat) (e : FwdEntry) (hc : e.complete = true) :
    ((h.sendFwd p off e).port p).fwd = (h.port p).fwd.erase e ∧
    ((h.sendFwd p off e).port p).lastSent = fwdBytes e (h.txStamp p off) := by
  unfold Hw.sendFwd
  dsimp only
  rw [if_pos hc, port_frameSent]
  exact ⟨fwd_sendStriped .., rfl⟩

/-- A frame that is still coming in starts with its stamp; nothing has left whole. -/
theorem sendFwd_started (h : Hw) (p : Port) (off : Nat) (e : FwdEntry) (hc : e.complete = false) :
    ((h.sendFwd p off e).port p).fwd = (h.port p).fwd.map (fun y =>
      if y = e then { e with started := true, sentStamp := h.txStamp p off } else y) ∧
    ((h.sendFwd p off e).port p).lastSent = (h.port p).lastSent := by
  unfold Hw.sendFwd
  dsimp only
  rw [if_neg (by simp [hc])]
  refine ⟨fwd_sendStriped .., ?_⟩
  rw [lastSent_of_unwired (unwired_sendStriped ..), port_setPort]

theorem sendAnswer_spec (h : Hw) (p : Port) (f : Frame) :
    ((h.sendAnswer p f).port p).answers = (h.port p).answers.drop 1 ∧ ((h.sendAnswer p f).port p).lastSent = f.bytes := by
  unfold Hw.sendAnswer
  dsimp only
  rw [port_frameSent]
  refine ⟨?_, rfl⟩
  change (Hw.port (Hw.sendStriped _ p _) p).answers = _
  rw [answers_of_unwired (unwired_sendStriped ..), port_setPort]

theorem port_sweep (h : Hw) (p : Port) : h.sweep.port p = h.port p := by cases p <;> rfl

/-- The frame of a descriptor as it leaves at the time `t`: a PONG carries it as its ORIG. -/
def EgDesc.sent (d : EgDesc) (t : Nat) : Frame :=
  let pay := d.frame.payload
  if d.pong then { d.frame with payload := pay.take 24 ++ timeBytesBe t ++ pay.drop 38 } else d.frame

theorem sendOwn_spec (h : Hw) (p : Port) (off : Nat) (d : EgDesc) :
    ((h.sendOwn p off d).port p).lastSent = (d.sent (h.txStamp p off)).bytes ∧ ((h.sendOwn p off d).port p).idleSince = h.ns ∧
    ((h.sendOwn p off d).port p).fwd = (h.port p).fwd := by
  unfold Hw.sendOwn
  extract_lets f pay f' first mark hn h1
  have hns := ns_of_unwired (unwired_sendStriped h1 p (frameBlocks f'.bytes))
  rw [port_sweep, port_frameSent]
  refine ⟨rfl, hns, ?_⟩
  change (Hw.port (Hw.sendStriped _ p _) p).fwd = _
  rw [fwd_of_unwired (unwired_sendStriped ..)]
  cases p <;> rfl

/-! ### The commands -/

theorem exec_frameForward {p : Port} {off : Nat} {s : State} (hl : s.hw.live = true) (ho : s.hw.linkOn = true) :
    exec (.frameForward p off) s = .next { s with hw := (s.hw.sendNext p off false).pump } := by
  change onPort s true _ = _
  rw [onPort, actOn_live s _ hl, ho]
  rfl

theorem exec_egressSend {p : Port} {off : Nat} {s : State} (hl : s.hw.live = true) (ho : s.hw.linkOn = true) :
    exec (.egressSend p off) s = .next { s with hw := (s.hw.sendNext p off true).pump } := by
  change onPort s true _ = _
  rw [onPort, actOn_live s _ hl, ho]
  rfl

theorem exec_egressLagDrop {p : Port} {s : State} (hl : s.hw.live = true) (ho : s.hw.linkOn = true) :
    exec (.egressLagDrop p) s = .next { s with hw := (s.hw.lagDrop p).pump } := by
  change onPort s true _ = _
  rw [onPort, actOn_live s _ hl, ho]
  rfl

theorem pick_fillLanes (h : Hw) (p : Port) : (h.fillLanes p).pick p = h.pick p :=
  pick_of_unwired (unwired_fillLanes h p) p

section SendNext
variable {h : Hw} {p : Port} (off : Nat)

theorem sendNext_fwd {e : FwdEntry} (hp : h.pick p = some (.fwd e)) :
    h.sendNext p off false = (h.fillLanes p).sendFwd p off e := by
  simp [Hw.sendNext, pick_fillLanes, hp]

theorem sendNext_answer {f : Frame} (hp : h.pick p = some (.answer f)) :
    h.sendNext p off false = (h.fillLanes p).sendAnswer p f := by
  simp [Hw.sendNext, pick_fillLanes, hp]

theorem sendNext_own {d : EgDesc} (b : Bool) (hp : h.pick p = some (.own d)) :
    h.sendNext p off b = (h.fillLanes p).sendOwn p off d := by
  simp [Hw.sendNext, pick_fillLanes, hp]

end SendNext

/-- A frame of the hub, as the port sends it. -/
theorem egressSend_own {s : State} {p : Port} (off : Nat) {d : EgDesc} (hl : s.hw.live = true) (ho : s.hw.linkOn = true)
    (hp : s.hw.pick p = some (.own d)) :
    Completes (.egressSend p off) s (fun x =>
      (x.hw.port p).lastSent = (d.sent ((s.hw.fillLanes p).txStamp p off)).bytes ∧
      (x.hw.port p).idleSince = s.hw.ns ∧ (x.hw.port p).fwd = (s.hw.port p).fwd) := by
  obtain ⟨hlast, hidle, hfwd⟩ := sendOwn_spec (s.hw.fillLanes p) p off d
  have hfill := unwired_fillLanes s.hw p
  refine ⟨_, exec_egressSend hl ho, ?_⟩
  dsimp only
  rw [sendNext_own off true hp, port_pump]
  exact ⟨hlast, hidle.trans (ns_of_unwired hfill), hfwd.trans (fwd_of_unwired hfill p)⟩

theorem get_sweep (h : Hw) (f : Fld) : h.sweep.get f = h.get f := (rfl)

theorem get_net (h : Hw) (x : NetSt) (f : Fld) : ({ h with net := x } : Hw).get f = h.get f := (rfl)

/-- The copies that lag are counted, in a count that saturates (R450). -/
theorem lag_lagDrop (h : Hw) (p : Port) (hu : h.up p = true) (hz : h.get STR_FRM_CTL_LAG_US ≠ 0) :
    (h.lagDrop p).get (LNK_FWD_DROP_LAG (portNo p)) = satAdd 16 (h.get (LNK_FWD_DROP_LAG (portNo p)))
      (h.net.egress.filter (fun d => unsent p d &&
        d.firstSent.any (fun t => h.due (t + 1000 * h.get STR_FRM_CTL_LAG_US)))).length := by
  have hlt (a b : Nat) : satAdd 16 a b < 2 ^ 16 := by unfold satAdd; split <;> omega
  have hlate (d : EgDesc) : (unsent p d && decide (h.get STR_FRM_CTL_LAG_US ≠ 0) && d.firstSent.any (fun t =>
      h.due (t + 1000 * h.get STR_FRM_CTL_LAG_US))) = (unsent p d && d.firstSent.any (fun t =>
      h.due (t + 1000 * h.get STR_FRM_CTL_LAG_US))) := by simp [hz]
  unfold Hw.lagDrop
  dsimp only
  rw [if_pos hu]
  simp only [hlate]
  rw [get_sweep, Hw.bump, get_put_same _ _ _ (by decide : 16 ≤ 31) (by decide : 31 < 32), get_net]
  exact Nat.mod_eq_of_lt (hlt _ _)

/-- A frame that its class takes stands last in the queue, with its number (R425, R450). -/
theorem enqueue_of_room {h : Hw} {f : Frame} (hs : f.src ≠ 0) (hr : h.classRoom f.cls = true) :
    (h.enqueue f).1.net.egress = h.net.egress ++
      [{ frame := (h.number f).2, sentA := false, sentB := false, firstSent := none, pong := false }] ∧
    (h.enqueue f).1.net.events = h.net.events := by
  have hq : ¬ (f.src = 0 ∧ f.rsp = false) := fun hq => hs hq.1
  unfold Hw.enqueue Hw.enqueueOn
  rw [if_neg hq, if_pos hr]
  simp [Hw.number]

/-- Waiting items leave in one frame. -/
theorem buildEvents_spec (h : Hw) (i : EventItem × Nat) (rest : List (EventItem × Nat)) (hc : h.coreOn = true)
    (he : h.net.events = i :: rest) (hr : h.room 4 = true) :
    h.buildEvents.net.egress.length = h.net.egress.length + 1 ∧
    h.buildEvents.net.egress.getLast?.map (fun d => (d.frame.ty, d.frame.cls, d.frame.epoch, d.frame.payload)) =
      some (0x12, 4, i.2 % 65536, ((i :: rest).take 102).flatMap (fun e => h.itemBytes e.1)) ∧
    h.buildEvents.net.events = (i :: rest).drop 102 := by
  obtain ⟨hroom, hid⟩ := Bool.and_eq_true_iff.mp hr
  have hbuild : h.buildEvents =
      let q := h.enqueue (h.ownFrame 0x12 4 (h.get STR_CTL_DEST) false i.2
        (((i :: rest).take 102).flatMap (fun e => h.itemBytes e.1)))
      { q.1 with net := { q.1.net with events := q.1.net.events.drop 102 } } := by
    simp [Hw.buildEvents, hc, he, hr]
  obtain ⟨hegress, hevents⟩ := enqueue_of_room (h := h) (f := h.ownFrame 0x12 4 (h.get STR_CTL_DEST) false i.2
    (((i :: rest).take 102).flatMap (fun e => h.itemBytes e.1))) (of_decide_eq_true hid) hroom
  rw [hbuild]
  dsimp only
  rw [hegress, hevents, he, List.getLast?_concat]
  exact ⟨by simp, rfl, rfl⟩

/-- Settles O35: each frame by the one that the port picks; the lanes have no part in the choice, and what the hub builds
and sends by itself afterwards leaves the ports and the counts of lagging copies as they are. -/
theorem frameSending : Obligations.FrameSending := by
  unfold Obligations.FrameSending
  refine ⟨?_, ?_, ?_, ?_, ?_, ?_, ?_, ?_, ?_, ?_⟩
  · intro s p off e hl ho hp hc
    obtain ⟨hfwd, hlast⟩ := sendFwd_complete (s.hw.fillLanes p) p off e hc
    refine ⟨_, exec_frameForward hl ho, ?_⟩
    dsimp only
    rw [sendNext_fwd off hp, port_pump, ← fwd_of_unwired (unwired_fillLanes s.hw p) p]
    exact ⟨hfwd, hlast⟩
  · intro s p off e hl ho hp hc
    obtain ⟨hfwd, hlast⟩ := sendFwd_started (s.hw.fillLanes p) p off e hc
    have hfill := unwired_fillLanes s.hw p
    refine ⟨_, exec_frameForward hl ho, ?_⟩
    dsimp only
    rw [sendNext_fwd off hp, port_pump, ← fwd_of_unwired hfill p, ← lastSent_of_unwired hfill p]
    exact ⟨hfwd, hlast⟩
  · intro s p off f hl ho hp
    obtain ⟨hans, hlast⟩ := sendAnswer_spec (s.hw.fillLanes p) p f
    refine ⟨_, exec_frameForward hl ho, ?_⟩
    dsimp only
    rw [sendNext_answer off hp, port_pump, ← answers_of_unwired (unwired_fillLanes s.hw p) p]
    exact ⟨hans, hlast⟩
  · intro s p off d hl ho hp hd
    simpa only [EgDesc.sent, hd, Bool.false_eq_true, if_false] using egressSend_own off hl ho hp
  · intro s p off d hl ho hp hd
    simpa only [EgDesc.sent, hd, if_true] using egressSend_own off hl ho hp
  · intro s p hl ho hu hz
    exact ⟨_, exec_egressLagDrop hl ho, (lag_pump _ p).trans (lag_lagDrop s.hw p hu hz)⟩
  · intro s i rest hl hc he hr
    exact ⟨_, actOn_live s _ hl, buildEvents_spec s.hw i rest hc he hr⟩
  · intro s q i hr hf hi
    have hread : s.hw.evqRead = ({ s.hw with net := { s.hw.net with evq := s.hw.net.evq.erase i } }, evqWord i) := by
      simp only [Hw.evqRead, hi]
    have hout : exec (.fltEvtQueueRead q) s =
        .next { s with hw := s.hw.evqRead.1, rdata := [s.hw.evqRead.2], status := 0 } := by
      change execFltEvtQueueRead q s = _
      simp [execFltEvtQueueRead, hr, hf]
    refine ⟨_, hout, ?_⟩
    rw [hread]
    exact ⟨rfl, rfl, rfl⟩
  · intro s q hr hf hn
    have hread : s.hw.evqRead = (s.hw, 0) := by simp [Hw.evqRead, hn, evqFirst, lowestClass]
    have hout : exec (.fltEvtQueueRead q) s = .next { s with rdata := [0], status := 0 } := by
      change execFltEvtQueueRead q s = _
      simp [execFltEvtQueueRead, hr, hf, hread]
    exact ⟨_, hout, rfl⟩
  · intro s q f hr hf
    have hout : exec (.fltEvtQueueRead q) s = .next { s with rdata := [f.evqPeek], status := 0 } := by
      change execFltEvtQueueRead q s = _
      simp [execFltEvtQueueRead, hr, hf]
    exact ⟨_, hout, rfl⟩

end Sys2Proof.Machine

/-! ## A core that fails (R166) -/

namespace Sys2Proof.Machine

/-- A calibration step of a front-end unit that no hub has: the role of unit 48,132 would stand where the first core's
status stands. -/
def strayStep : CalStep :=
  { unit := 48132, inPlace := true, tStart := 0, retries := 0, again := false, plan := [], got := [], first := none }

/-- A hub with that step under way, whose firmware maps ADC_CORE_FAIL to class 3 with the safe state as its reaction, and
whose first core is past its residue limit. -/
def strayHub : State :=
  { State.reset with hw := { (hw0.put (FLT_MAP_CLASS srcAdcCoreFail) 3).put (FLT_MAP_REACT srcAdcCoreFail) 4 with
      boot := { hw0.boot with phase := .running }
      adc := { hw0.adc with resid := [(0, 65535)] }
      cal := { hw0.cal with feStep := some strayStep } } }

theorem strayHub_live : strayHub.hw.live = true := by decide +kernel

theorem strayHub_coreFails : strayHub.hw.coreFails 0 false = true := by decide +kernel

theorem exec_adcCoreFail {s : State} {c : Nat} {b : Bool} (hl : s.hw.live = true) (hc : c < 9)
    (hf : s.hw.coreFails c b = true) : exec (.adcCoreFail c b) s = .next { s with hw := s.hw.coreFail c } := by
  change actOn s (isCore c) _ = _
  rw [isCore, decide_eq_true hc, actOn_live s _ hl, hf]
  rfl

/-- The safe state abandons the step, and the role written for its unit takes the failed core's place. -/
theorem strayHub_role : (strayHub.hw.coreFail 0).roleOf 0 = 1 := by decide +kernel

/-- The clause that the counterexample refutes. -/
theorem role_coreFail_of_slotAndStitch (h : Obligations.SlotAndStitch) {s : State} {c : Nat} {b : Bool}
    (hl : s.hw.live = true) (hc : c < 9) (hf : s.hw.coreFails c b = true) : (s.hw.coreFail c).roleOf c = 3 := by
  unfold Obligations.SlotAndStitch at h
  obtain ⟨-, -, -, -, -, -, -, -, -, -, -, hfails, -⟩ := h
  obtain ⟨x, hx, -, hrole, -⟩ := hfails s c b hl hc hf
  obtain rfl : { s with hw := s.hw.coreFail c } = x := Host.Outcome.next.inj ((exec_adcCoreFail hl hc hf).symm.trans hx)
  exact hrole

/-- Refutes O14: in a state that holds a front-end step of unit 48,132 (no command makes one, but the statement is about
every state), the failed core does not keep role 3. Its fault is mapped to the safe state; the safe state abandons the
step and writes role 1 to the step's unit, whose register would be that of the core. -/
theorem not_slotAndStitch : ¬ Obligations.SlotAndStitch := fun h =>
  have hrole := role_coreFail_of_slotAndStitch h strayHub_live (by decide : 0 < 9) strayHub_coreFails
  absurd (strayHub_role.symm.trans hrole) (by decide)

end Sys2Proof.Machine

/-! ## What a raise leaves of the field die (R552 to R560) -/

namespace Sys2Proof.Machine

/-- What a raise leaves, unless it enters SAFE: the field die but its drivers with their windows, its reliefs, its input
switches and what a TERM_OPEN notes; the status bits of sources 6 to 28; SAFE; and the mode. -/
structure Lasting where
  field : FieldSt
  raised : Nat → Bool
  safe : Bool
  running : Bool

def Hw.lasting (h : Hw) : Lasting where
  field := { h.field with drivers := [], exEnd := [], exFirst := [], relief := [], closedIn := [], inputs := [],
                            openRaised := [], passedNow := [] }
  raised i := decide (6 ≤ i ∧ i ≤ 28) && h.on ⟨FLT_STATUS 0, i, i⟩
  safe := h.safe
  running := h.running

/-- SAFE opens every switch (R558). -/
def Lasting.inSafe (a : Lasting) : Lasting := { a with field := { a.field with closed := [] }, safe := true }

/-- What SAFE will leave of a hub that enters it. -/
def Hw.refuge (h : Hw) : Lasting := h.lasting.inSafe

/-- The field die as SAFE will leave it. -/
def Hw.calm (h : Hw) : FieldSt := h.refuge.field

/-- The hub `g` comes from `h` by what a raise can do: it stands as before, or SAFE has been entered. -/
def Hw.Follows (h g : Hw) : Prop := g.lasting = h.lasting ∨ g.lasting = h.refuge

theorem refuge_of_lasting {g h : Hw} (e : g.lasting = h.lasting) : g.refuge = h.refuge := congrArg Lasting.inSafe e

/-! ### Registers and groups -/

/-- A field that reaches no status bit of sources 6 to 28. -/
abbrev OffRaised (f : Fld) : Prop := f.addr ≠ 0x100100 ∨ (f.lo ≤ f.hi ∧ (f.hi < 6 ∨ (28 < f.lo ∧ f.hi < 32)))

theorem raised_put (h : Hw) (f : Fld) (v : Nat) (hf : OffRaised f) : (h.put f v).lasting.raised = h.lasting.raised := by
  funext i
  change (decide (6 ≤ i ∧ i ≤ 28) && _) = (decide (6 ≤ i ∧ i ≤ 28) && _)
  by_cases hi : 6 ≤ i ∧ i ≤ 28
  · have hget : (h.put f v).get ⟨FLT_STATUS 0, i, i⟩ = h.get ⟨FLT_STATUS 0, i, i⟩ := by
      by_cases ha : FLT_STATUS 0 = f.addr
      · obtain ⟨hlo, hhi⟩ := hf.resolve_left (fun hf => hf ha.symm)
        exact get_put_disjoint h f _ v hlo (by omega) (Nat.le_refl i) ha (by dsimp only; omega)
      · exact get_put_other h f _ v ha
    rw [Hw.on, Hw.on, hget]
  · rw [decide_eq_false hi]; rfl

theorem running_put (h : Hw) (f : Fld) (v : Nat) (hf : f.addr ≠ 0x8) : (h.put f v).running = h.running := by
  rw [Hw.running, Hw.running, get_put_other h f _ v (Ne.symm hf)]

theorem lasting_put (h : Hw) (f : Fld) (v : Nat) (hf : OffRaised f) (hs : f.addr ≠ 0x100114) (hm : f.addr ≠ 0x8) :
    (h.put f v).lasting = h.lasting := by
  have hsafe : (h.put f v).safe = h.safe := on_put_other h f _ v (Ne.symm hs)
  rw [Lasting.mk.injEq]
  exact ⟨rfl, raised_put h f v hf, hsafe, running_put h f v hm⟩

theorem refuge_put (h : Hw) (f : Fld) (v : Nat) (hf : OffRaised f) (hm : f.addr ≠ 0x8) : (h.put f v).refuge = h.refuge := by
  rw [Hw.refuge, Hw.refuge, Lasting.inSafe, Lasting.inSafe, Lasting.mk.injEq]
  exact ⟨rfl, raised_put h f v hf, rfl, running_put h f v hm⟩


/-- The two above, with the side conditions as `simp` meets them. -/
@[simp ↓] theorem lasting_put_at (h : Hw) (a hi lo v : Nat)
    (hf : a ≠ 0x100100 ∨ (lo ≤ hi ∧ (hi < 6 ∨ (28 < lo ∧ hi < 32)))) (hs : a ≠ 0x100114) (hm : a ≠ 0x8) : (h.put ⟨a, hi, lo⟩ v).lasting = h.lasting := lasting_put h _ v hf hs hm

@[simp ↓] theorem refuge_put_at (h : Hw) (a hi lo v : Nat)
    (hf : a ≠ 0x100100 ∨ (lo ≤ hi ∧ (hi < 6 ∨ (28 < lo ∧ hi < 32)))) (hm : a ≠ 0x8) : (h.put ⟨a, hi, lo⟩ v).refuge = h.refuge := refuge_put h _ v hf hm

/-- A field of an array of registers that begins at `a`. -/
@[simp ↓] theorem lasting_put_array (h : Hw) (a x hi lo v : Nat) (ha : 0x100114 < a) :
    (h.put ⟨a + x, hi, lo⟩ v).lasting = h.lasting :=
  lasting_put h _ v (Or.inl (by change a + x ≠ _; omega)) (by change a + x ≠ _; omega) (by change a + x ≠ _; omega)

@[simp ↓] theorem refuge_put_array (h : Hw) (a x hi lo v : Nat) (hf : lo ≤ hi ∧ hi < 6) (hm : 0x8 < a) :
    (h.put ⟨a + x, hi, lo⟩ v).refuge = h.refuge :=
  refuge_put h _ v (Or.inr ⟨hf.1, Or.inl hf.2⟩) (by change a + x ≠ 8; omega)

@[simp] theorem lasting_when (h : Hw) (c : Bool) (f : Hw → Hw) (hf : (f h).lasting = h.lasting) :
    (h.when c f).lasting = h.lasting := when_keeps Hw.lasting f c h hf

@[simp] theorem refuge_when (h : Hw) (c : Bool) (f : Hw → Hw) (hf : (f h).refuge = h.refuge) :
    (h.when c f).refuge = h.refuge := when_keeps Hw.refuge f c h hf

@[simp] theorem lasting_each {α : Type} (h : Hw) (l : List α) (f : Hw → α → Hw) (hf : ∀ h x, (f h x).lasting = h.lasting) :
    (h.each l f).lasting = h.lasting := each_keeps Hw.lasting f hf l h

theorem lasting_each_mem {α : Type} (l : List α) (f : Hw → α → Hw) :
    ∀ h : Hw, (∀ h, ∀ x ∈ l, (f h x).lasting = h.lasting) → (h.each l f).lasting = h.lasting := by
  induction l with
  | nil => intro h _; rfl
  | cons x t ih =>
    intro h hf
    exact (ih (f h x) (fun h y hy => hf h y (List.mem_cons_of_mem _ hy))).trans (hf h x List.mem_cons_self)

@[simp] theorem lasting_net (h : Hw) (x : NetSt) : ({ h with net := x } : Hw).lasting = h.lasting := (rfl)
@[simp] theorem lasting_recd (h : Hw) (x : RecSt) : ({ h with recd := x } : Hw).lasting = h.lasting := (rfl)
@[simp] theorem lasting_cin (h : Hw) (x : CinSt) : ({ h with cin := x } : Hw).lasting = h.lasting := (rfl)
@[simp] theorem refuge_cal (h : Hw) (x : CalSt) : ({ h with cal := x } : Hw).refuge = h.refuge := (rfl)
@[simp] theorem lasting_setXing (h : Hw) (x : Nat) (c : Crossing) : (h.setXing x c).lasting = h.lasting := (rfl)
@[simp] theorem lasting_setUnit (h : Hw) (n : Nat) (u : UnitSt) : (h.setUnit n u).lasting = h.lasting := (rfl)
@[simp] theorem lasting_setObjects (h : Hw) (i : Nat) (l : List Nat) : (h.setObjects i l).lasting = h.lasting := (rfl)
@[simp] theorem lasting_setDrv (h : Hw) (d : Nat) (x : DriverSt) : (h.setDrv d x).lasting = h.lasting := (rfl)
@[simp] theorem lasting_exWindow (h : Hw) (d x ch : Nat) : (h.exWindow d x ch).lasting = h.lasting := (rfl)
@[simp] theorem refuge_setRelief (h : Hw) (k : Nat) (r : Option Relief) : (h.setRelief k r).refuge = h.refuge := (rfl)
@[simp] theorem lasting_setDom (h : Hw) (d : Domain) (x : DomSt) : (h.setDom d x).lasting = h.lasting := by cases d <;> rfl

/-! ### What follows a raise at once -/

@[simp] theorem lasting_xingReq (h : Hw) (x : Nat) : (h.xingReq x).lasting = h.lasting := by
  unfold Hw.xingReq
  dsimp only
  split
  · simp
  · split <;> simp +decide [xingOvr]

@[simp] theorem lasting_wake (h : Hw) (d : Domain) : (h.wake d).lasting = h.lasting := by
  unfold Hw.wake
  dsimp only
  repeat' split
  all_goals simp

@[simp] theorem lasting_recTriggerAt (h : Hw) (c : Nat) (ws : Option (List Word)) :
    (h.recTriggerAt c ws).lasting = h.lasting := by
  unfold Hw.recTriggerAt; split <;> simp

@[simp] theorem lasting_unitCause (h : Hw) (n : Nat) (c : TrgCause) : (h.unitCause n c).lasting = h.lasting := by
  unfold Hw.unitCause Hw.unitCauses; split <;> simp

@[simp] theorem lasting_unitsCause (h : Hw) (c : TrgCause) : (h.unitsCause c).lasting = h.lasting := by
  unfold Hw.unitsCause; simp

@[simp] theorem lasting_evqWrite (h : Hw) (c i x : Nat) : (h.evqWrite c i x).1.lasting = h.lasting := by
  unfold Hw.evqWrite; split <;> simp +decide

@[simp] theorem lasting_eventItem (h : Hw) (e : EventItem) : (h.eventItem e).lasting = h.lasting := (rfl)
@[simp] theorem lasting_pullFaultN (h : Hw) : h.pullFaultN.lasting = h.lasting := (rfl)

/-! ### Reactions -/

theorem lasting_putDrv (h : Hw) (d hi lo v : Nat) (hd : d < 1024) : (h.put ⟨EXC_STATUS d, hi, lo⟩ v).lasting = h.lasting :=
  lasting_put h _ v (Or.inl (by change 0x30600 + 4 * d ≠ _; omega)) (by change 0x30600 + 4 * d ≠ _; omega)
    (by change 0x30600 + 4 * d ≠ _; omega)

theorem lasting_zeroDriver (h : Hw) (d : Nat) (hd : d < 1024) : (h.zeroDriver d).lasting = h.lasting := by
  unfold Hw.zeroDriver Hw.setPol Hw.exWindows
  simp [lasting_putDrv _ d _ _ _ hd]

theorem lasting_zeroDrivers (h : Hw) (ds : List Nat) (hds : ∀ d ∈ ds, d < 1024) : (h.each ds Hw.zeroDriver).lasting = h.lasting :=
  lasting_each_mem ds _ h (fun h d hd => lasting_zeroDriver h d (hds d hd))

theorem lasting_stopDrivers (h : Hw) (ds : List Nat) (hds : ∀ d ∈ ds, d < 1024) : (h.stopDrivers ds).lasting = h.lasting :=
  (lasting_each_mem ds _ _ (fun h d hd => lasting_putDrv h d _ _ _ (hds d hd))).trans (lasting_zeroDrivers h ds hds)

/-- R105, R519: a step that is over writes the registers of its units, of which SAFE alone is certain to be none. -/
@[simp] theorem refuge_feStepOver (h : Hw) (x : CalStep) : (h.feStepOver x).refuge = h.refuge := by
  unfold Hw.feStepOver
  dsimp only
  repeat' split
  all_goals simp +decide

@[simp] theorem refuge_abandonFeStep (h : Hw) : h.abandonFeStep.refuge = h.refuge := by
  unfold Hw.abandonFeStep Hw.noteFail Hw.bump
  split <;> simp +decide

/-- Every switch opens in SAFE. -/
theorem lasting_openAll {h : Hw} (x : FltSt) (hs : h.safe = true) :
    ({ h with flt := x, field := { h.field with closed := [], closedIn := [], inputs := [] } } : Hw).lasting = h.refuge := by
  rw [Hw.refuge, Lasting.inSafe, Lasting.mk.injEq]
  exact ⟨rfl, rfl, hs, rfl⟩

theorem lasting_enterSafe (h : Hw) (i : Nat) : (h.enterSafe i).lasting = h.refuge := by
  have hds : ∀ d ∈ List.range nDrv, d < 1024 := fun d hd => Nat.lt_trans (List.mem_range.1 hd) (by decide)
  rw [← refuge_abandonFeStep h]
  unfold Hw.enterSafe
  dsimp only
  rw [Hw.showFaultOff, lasting_each_mem _ _ _ (fun h d hd => lasting_putDrv h d _ _ _ (hds d hd)), lasting_zeroDrivers _ _ hds]
  split
  next hagain => exact lasting_openAll _ (Bool.and_eq_true_iff.mp hagain).1
  next =>
    rw [lasting_openAll _ (on_put_one _ FLT_SAFE_ACTIVE (by decide) (by decide))]
    simp +decide

theorem lasting_resetBlock (h : Hw) (i x : Nat) (hi : i ≠ 34 ∧ i ≠ 42) : (h.resetBlock i x).lasting = h.lasting := by
  unfold Hw.resetBlock
  dsimp only
  split
  · rfl
  split
  · rfl
  split
  · split <;> simp +decide
  split
  next hport => exact absurd hport hi.1
  split
  next hport => exact absurd hport hi.2
  rfl

/-! ### A raise

Its reactions may enter SAFE, and so may the raises that it makes itself: those of sources 29, 62 and 63. -/

namespace Hw.Follows

theorem refl (h : Hw) : h.Follows h := Or.inl rfl

theorem of_lasting {h g : Hw} (e : g.lasting = h.lasting) : h.Follows g := Or.inl e

/-- What SAFE leaves is left in either case. -/
theorem refuge_eq {h g : Hw} (hg : h.Follows g) : g.refuge = h.refuge :=
  hg.elim refuge_of_lasting (fun e => (congrArg Lasting.inSafe e).trans rfl)

theorem trans {h g k : Hw} (hg : h.Follows g) (hk : g.Follows k) : h.Follows k :=
  hk.elim (fun e => hg.imp e.trans e.trans) (fun e => Or.inr (e.trans hg.refuge_eq))

theorem when {h : Hw} (c : Bool) (f : Hw → Hw) (hf : h.Follows (f h)) : h.Follows (h.when c f) := by
  cases c
  · exact refl h
  · exact hf

theorem each {α : Type} (f : Hw → α → Hw) (hf : ∀ (h : Hw) (x : α), h.Follows (f h x)) (l : List α) :
    ∀ h : Hw, h.Follows (h.each l f) := by
  induction l with
  | nil => exact refl
  | cons x t ih => intro h; exact (hf h x).trans (ih (f h x))

theorem reactOn (h : Hw) (i r x : Nat) (hi : i ≠ 34 ∧ i ≠ 42) : h.Follows (h.reactOn i r x) := by
  unfold Hw.reactOn
  split
  · exact Or.inl (lasting_stopDrivers h _ (View.objDrivers_lt i x))
  · exact Or.inl (lasting_resetBlock h i x hi)
  · exact Or.inr (lasting_enterSafe h i)
  · exact refl h

theorem reactAll (h : Hw) (i : Nat) (hi : i ≠ 34 ∧ i ≠ 42) : h.Follows (h.reactAll i) :=
  each _ (fun h x => reactOn h i _ x hi) _ (h.setForce i _)

end Hw.Follows

/-- What a raise notes before anything reacts: status, cause, INFO, the objects, the pin, the event item, the recorder's
trigger and the Burgee's cause. -/
def Hw.noteRaise (h : Hw) (i info : Nat) : Hw :=
  let was := h.on (statusBit i)
  let cls := h.get (FLT_MAP_CLASS i)
  let h := (h.put (statusBit i) 1).when (isLevel i) (fun h => h.put (causeBit i) 1)
  let h := (h.put (FLT_INFO_INFO i) info).bump (FLT_INFO_RAISES i) 1
  let h := h.setObjects i (if was then (if (h.objects i).contains info then h.objects i else h.objects i ++ [info]) else [info])
  let h := h.when (decide (1 ≤ cls)) Hw.pullFaultN
  let h := h.when (h.on (FLT_MAP_EVT i)) (fun h =>
    h.eventItem (.fault i cls (h.get (FLT_INFO_RAISES i)) info h.time.now))
  let h := h.when (!was && h.on (FLT_MAP_REC i) && decide (i ≠ srcRecStoreFail)) (fun h => h.recTriggerAt i none)
  h.unitsCause (.fault i)

/-- The item for the queue, and whether the queue lost it. -/
def Hw.queueRaise (h : Hw) (cls i info : Nat) : Hw × Bool :=
  if h.on (FLT_MAP_EVQ i) then h.evqWrite cls i info else (h, false)

/-- What then reacts. -/
def Hw.raiseActs (h : Hw) (fuel : Nat) (was : Bool) (cls i info : Nat) : Hw :=
  match h.forceOf i with
  | some r => if was then h.reactOn i r info else h
  | none =>
    if cls = 2 ∧ was = false then
      raiseN fuel (h.setTimer i (some (h.ns + 1000 * max 1 (h.get (FLT_MAP_TMR_US i))))) srcEscalationTimer i
    else if cls = 3 ∧ was = false then
      raiseN fuel (h.reactAll i) srcEscalated (64 * h.get (FLT_MAP_REACT i) + i)
    else h

theorem raiseN_succ (fuel : Nat) (h : Hw) (i info : Nat) : raiseN (fuel + 1) h i info =
    (((h.noteRaise i (info % 2 ^ 22)).queueRaise (h.get (FLT_MAP_CLASS i)) i (info % 2 ^ 22)).1.when
      (((h.noteRaise i (info % 2 ^ 22)).queueRaise (h.get (FLT_MAP_CLASS i)) i (info % 2 ^ 22)).2 &&
        decide (i ≠ srcEvqOverrun)) (fun h => raiseN fuel h srcEvqOverrun 0)).raiseActs fuel (h.on (statusBit i))
      (h.get (FLT_MAP_CLASS i)) i (info % 2 ^ 22) := (rfl)

theorem lasting_causeBit (h : Hw) (i v : Nat) (hi : i < 64) : (h.put (causeBit i) v).lasting = h.lasting := by
  have ha : FLT_CAUSE (i / 32) = 0x100108 + 4 * (i / 32) := rfl
  exact lasting_put h _ v (Or.inl (by change FLT_CAUSE (i / 32) ≠ _; omega)) (by change FLT_CAUSE (i / 32) ≠ _; omega)
    (by change FLT_CAUSE (i / 32) ≠ _; omega)

theorem lasting_noteRaise (h : Hw) (i info : Nat) (hi : i < 64) :
    (h.noteRaise i info).lasting = (h.put (statusBit i) 1).lasting := by
  simp [Hw.noteRaise, Hw.bump, lasting_causeBit _ _ _ hi]

theorem lasting_queueRaise (h : Hw) (cls i info : Nat) : (h.queueRaise cls i info).1.lasting = h.lasting := by
  unfold Hw.queueRaise; split <;> simp

/-- The raises that a raise makes itself. -/
abbrev ByRaise (j : Nat) : Prop := j = srcEvqOverrun ∨ j = srcEscalationTimer ∨ j = srcEscalated

theorem follows_raiseActs {fuel : Nat} (hsub : ∀ (h : Hw) (j info : Nat), ByRaise j → h.Follows (raiseN fuel h j info))
    (h : Hw) (was : Bool) (cls i info : Nat) (hp : i ≠ 34 ∧ i ≠ 42) : h.Follows (h.raiseActs fuel was cls i info) := by
  unfold Hw.raiseActs
  split
  · split
    · exact Hw.Follows.reactOn h i _ info hp
    · exact Hw.Follows.refl h
  split
  · exact hsub (h.setTimer i _) _ _ (by decide)
  split
  · exact (Hw.Follows.reactAll h i hp).trans (hsub _ _ _ (by decide))
  · exact Hw.Follows.refl h

theorem follows_raiseN_succ {fuel : Nat} (hsub : ∀ (h : Hw) (j info : Nat), ByRaise j → h.Follows (raiseN fuel h j info))
    (h : Hw) (i info : Nat) (hi : i < 64) (hp : i ≠ 34 ∧ i ≠ 42) :
    (h.put (statusBit i) 1).Follows (raiseN (fuel + 1) h i info) := by
  rw [raiseN_succ]
  exact (Hw.Follows.of_lasting ((lasting_queueRaise _ _ i _).trans (lasting_noteRaise h i _ hi))).trans
    ((Hw.Follows.when _ _ (hsub _ _ _ (by decide))).trans (follows_raiseActs hsub _ _ _ i _ hp))

theorem follows_raiseN_sub (fuel : Nat) : ∀ (h : Hw) (j info : Nat), ByRaise j → h.Follows (raiseN fuel h j info) := by
  induction fuel with
  | zero => intro h j info _; exact Hw.Follows.refl h
  | succ fuel ih =>
    intro h j info hj
    have hstatus : (h.put (statusBit j) 1).lasting = h.lasting := by
      rcases hj with rfl | rfl | rfl <;> simp +decide [statusBit]
    have hsrc : j < 64 ∧ j ≠ 34 ∧ j ≠ 42 := by rcases hj with rfl | rfl | rfl <;> decide
    exact (Hw.Follows.of_lasting hstatus).trans (follows_raiseN_succ ih h j info hsrc.1 hsrc.2)

/-- A raise sets its status bit; SAFE may be entered; the rest lasts. -/
theorem follows_raise (h : Hw) (i info : Nat) (hi : i < 64) (hp : i ≠ 34 ∧ i ≠ 42) :
    (h.put (statusBit i) 1).Follows (h.raise i info) :=
  follows_raiseN_succ (follows_raiseN_sub 3) h i info hi hp

/-! ### What is read off it -/

section
variable {h g : Hw}

theorem Hw.Follows.calm_eq (hg : h.Follows g) : g.calm = h.calm := congrArg Lasting.field hg.refuge_eq

section
variable (e : g.calm = h.calm)
include e

theorem ovState_of_calm (t : Nat) : g.ovState t = h.ovState t :=
  (congrArg (fun f : FieldSt => storeGet (fun _ => 0) f.ov t) e :)

theorem isolated_of_calm (t : Nat) : g.isolated t = h.isolated t := by
  rw [Hw.isolated, Hw.isolated, ovState_of_calm e]

theorem reclose_of_calm : g.field.reclose = h.field.reclose := (congrArg FieldSt.reclose e :)

theorem openBits_of_calm (ch : Nat) : g.openBits ch = h.openBits ch :=
  (congrArg (fun f : FieldSt => storeGet (fun _ => 0) f.openBy ch) e :)

theorem isOpen_of_calm (ch : Nat) : g.isOpen ch = h.isOpen ch := by
  rw [Hw.isOpen, Hw.isOpen, openBits_of_calm e]

theorem cmpTripped_of_calm (ch : Nat) : g.cmpTripped ch = h.cmpTripped ch :=
  (congrArg (fun f : FieldSt => storeGet (fun _ => false) f.cmp ch) e :)

theorem probe_of_calm (k : Nat) : g.probe k = h.probe k :=
  (congrArg (fun f : FieldSt => storeGet (fun _ => none) f.probe k) e :)

end

theorem Hw.Follows.closedAt_zero (hg : h.Follows g) {t : Nat} (ht : h.closedAt t = 0) : g.closedAt t = 0 := by
  rcases hg with hg | hg
  · exact (congrArg (fun a : Lasting => storeGet (fun _ => 0) a.field.closed t) hg).trans ht
  · exact congrArg (fun a : Lasting => storeGet (fun _ => 0) a.field.closed t) hg

theorem statusBit_low {i : Nat} (hi : i < 32) : statusBit i = ⟨FLT_STATUS 0, i, i⟩ := by
  rw [statusBit, Nat.div_eq_of_lt hi, Nat.mod_eq_of_lt hi]

/-- The status bit of a source from 6 to 28 stays as it is. -/
theorem Hw.Follows.status_eq (hg : h.Follows g) {i : Nat} (hi : 6 ≤ i ∧ i ≤ 28) : g.on (statusBit i) = h.on (statusBit i) := by
  have hraised : g.lasting.raised i = h.lasting.raised i := congrArg (·.raised i) hg.refuge_eq
  simpa [Hw.lasting, hi, statusBit_low (show i < 32 by omega)] using hraised

/-- A status bit that is set adds itself to what is raised. -/
theorem lasting_putStatus (h : Hw) {i : Nat} (hi : i < 32) : (h.put (statusBit i) 1).lasting =
    { h.lasting with raised := fun j => decide (6 ≤ j ∧ j ≤ 28) && (decide (j = i) || h.lasting.raised j) } := by
  have hraised (j : Nat) (hj : 6 ≤ j ∧ j ≤ 28) : (h.put ⟨FLT_STATUS 0, i, i⟩ 1).on ⟨FLT_STATUS 0, j, j⟩ =
      (decide (j = i) || h.on ⟨FLT_STATUS 0, j, j⟩) := by
    by_cases hji : j = i
    · rw [hji, on_put_one h _ (Nat.le_refl i) hi, decide_eq_true rfl, Bool.true_or]
    · rw [Hw.on, get_put_disjoint h ⟨FLT_STATUS 0, i, i⟩ ⟨FLT_STATUS 0, j, j⟩ 1 (Nat.le_refl i) hi (Nat.le_refl j) rfl
        (Nat.lt_or_gt_of_ne (Ne.symm hji)), decide_eq_false hji, Bool.false_or, Hw.on]
  rw [statusBit_low hi, Lasting.mk.injEq]
  refine ⟨rfl, funext (fun j => ?_), ?_, ?_⟩
  · change (decide (6 ≤ j ∧ j ≤ 28) && _) = (decide (6 ≤ j ∧ j ≤ 28) && (_ || (decide (6 ≤ j ∧ j ≤ 28) && _)))
    by_cases hj : 6 ≤ j ∧ j ≤ 28
    · rw [decide_eq_true hj, Bool.true_and, Bool.true_and, Bool.true_and, hraised j hj]
    · rw [decide_eq_false hj, Bool.false_and, Bool.false_and]
  · exact on_put_other h _ _ _ (show 0x100114 ≠ 0x100100 by decide)
  · exact running_put h _ _ (show 0x100100 ≠ 0x8 by decide)

theorem lasting_putStatus_congr (e : g.lasting = h.lasting) {i : Nat} (hi : i < 32) :
    (g.put (statusBit i) 1).lasting = (h.put (statusBit i) 1).lasting := by
  rw [lasting_putStatus g hi, lasting_putStatus h hi, e]

end

/-! ### TERM_OPEN and the open-wire state (R74, R76, R77) -/

theorem on_setReg_other (h : Hw) {a : Nat} (w : Word) (f : Fld) (ha : f.addr ≠ a) : (h.setReg a w).on f = h.on f := by
  rw [Hw.on, Hw.on, Hw.get, Hw.get, reg_setReg_other h w ha]

@[simp ↓] theorem lasting_setReg_array (h : Hw) (a x : Nat) (w : Word) (ha : 0x100114 < a) :
    (h.setReg (a + x) w).lasting = h.lasting := by
  rw [Lasting.mk.injEq]
  have hraised (i : Nat) : (h.setReg (a + x) w).on ⟨FLT_STATUS 0, i, i⟩ = h.on ⟨FLT_STATUS 0, i, i⟩ :=
    on_setReg_other h w _ (show 0x100100 ≠ a + x by omega)
  have hboot : (h.setReg (a + x) w).reg SYS_BOOT = h.reg SYS_BOOT := reg_setReg_other h w (show 0x8 ≠ a + x by omega)
  exact ⟨rfl, funext (fun i => congrArg (decide (6 ≤ i ∧ i ≤ 28) && ·) (hraised i)),
    on_setReg_other h w FLT_SAFE_ACTIVE (show 0x100114 ≠ a + x by omega), congrArg (fun r => decide (bits r 31 30 = 1)) hboot⟩

theorem lasting_fillOpen (h : Hw) (ch : Nat) : (h.fillOpen ch).lasting = h.lasting := by
  unfold Hw.fillOpen Hw.put64
  dsimp only
  split <;> simp

theorem lasting_openRaised (h : Hw) (m : Store Nat) :
    ({ h with field := { h.field with openRaised := m } } : Hw).lasting = h.lasting := (rfl)

theorem follows_raiseOpen (h : Hw) (ch : Nat) : (h.put (statusBit srcTermOpen) 1).Follows (h.raiseOpen ch) :=
  (Hw.Follows.of_lasting (lasting_putStatus_congr (lasting_fillOpen h ch) (by decide))).trans
    ((follows_raise (h.fillOpen ch) srcTermOpen ch (by decide) (by decide)).trans
      (Hw.Follows.of_lasting (lasting_openRaised _ _)))

theorem calm_raiseOpen (h : Hw) (ch : Nat) : (h.raiseOpen ch).calm = h.calm :=
  (follows_raiseOpen h ch).calm_eq.trans rfl

theorem status_raiseOpen (h : Hw) (ch : Nat) : (h.raiseOpen ch).on (statusBit srcTermOpen) = true :=
  ((follows_raiseOpen h ch).status_eq (by decide)).trans (on_put_one h _ (by decide) (by decide))

theorem calm_passedNow (h : Hw) (l : List Nat) : (h.each l (fun h t => h.setPassedNow t false)).calm = h.calm :=
  each_keeps Hw.calm (fun h t => h.setPassedNow t false) (fun _ _ => rfl) l h

theorem calm_enterOpen (h : Hw) (ch bit : Nat) (always : Bool) :
    (h.enterOpen ch bit always).calm = (h.setOpenBits ch (h.openBits ch ||| bit)).calm := by
  have hopen (h : Hw) (c : Bool) : (h.when c (fun h => h.raiseOpen ch)).calm = h.calm :=
    when_keeps Hw.calm (fun h => h.raiseOpen ch) c h (calm_raiseOpen h ch)
  have hpassed (h : Hw) (c : Bool) (l : List Nat) : (h.when c (fun h => h.each l (fun h t => h.setPassedNow t false))).calm =
      h.calm := when_keeps Hw.calm (fun h => h.each l (fun h t => h.setPassedNow t false)) c h (calm_passedNow h l)
  exact (hopen _ _).trans (hpassed _ _ _)

/-- A channel that a comparator or a probe finds open is in the open-wire state. -/
theorem isOpen_enterOpen (h : Hw) (ch : Nat) (always : Bool) : (h.enterOpen ch 1 always).isOpen ch = true := by
  rw [isOpen_of_calm (calm_enterOpen h ch 1 always), Hw.isOpen, Hw.openBits, Hw.setOpenBits, storeGet_set_same,
    decide_eq_true_iff]
  exact fun h0 => absurd (Nat.or_eq_zero_iff.mp h0).2 (by decide)

/-- Entering the state raises TERM_OPEN. -/
theorem status_enterOpen (h : Hw) (ch bit : Nat) (always : Bool) (hc : h.isOpen ch = false) :
    (h.enterOpen ch bit always).on (statusBit srcTermOpen) = true := by
  unfold Hw.enterOpen
  dsimp only
  rw [hc, Bool.not_false, Bool.or_true]
  exact status_raiseOpen _ ch

namespace View

variable {β : Type} {V : View β} (hV : V.Far)

@[simp ↓] theorem see_setPassedNow (h : Hw) (t : Nat) (b : Bool) : V.see (h.setPassedNow t b) = V.see h := (rfl)
@[simp ↓] theorem see_setOpenBits (h : Hw) (ch v : Nat) : V.see (h.setOpenBits ch v) = V.see h := (rfl)

section
include hV

@[simp ↓] theorem see_fillOpen (h : Hw) (ch : Nat) : V.see (h.fillOpen ch) = V.see h := by
  have hinfo : 0x20800 ≤ FLT_OPEN_INFO ch := by change 0x20800 ≤ 0x102010 + 32 * ch; omega
  unfold Hw.fillOpen Hw.put64
  dsimp only
  split
  · simp
  · simp [see_setReg hV _ (FLT_OPEN_INFO ch) _ (Or.inr (Or.inr (Or.inr hinfo)))]

@[simp ↓] theorem see_raiseOpen (h : Hw) (ch : Nat) : V.see (h.raiseOpen ch) = V.see h := by
  unfold Hw.raiseOpen
  simp [hV]

@[simp ↓] theorem see_enterOpen (h : Hw) (ch bit : Nat) (always : Bool) : V.see (h.enterOpen ch bit always) = V.see h := by
  unfold Hw.enterOpen
  simp [hV]

end
end View

end Sys2Proof.Machine

/-! ## Isolation of a terminal (R66 to R69) -/

namespace Sys2Proof.Machine

/-! ### Bits of numbers -/

theorem natBits_bit (n i : Nat) : natBits n i i = (natBit n i).toNat := by
  rw [natBits, natBit, Nat.toNat_testBit, Nat.shiftRight_eq_div_pow, Nat.add_sub_cancel_left, Nat.pow_one]

theorem decide_bits_bit (v : Word) (i : Nat) : decide (bits v i i ≠ 0) = natBit v.toNat i := by
  rw [bits, natBits_bit]; cases natBit v.toNat i <;> rfl

/-! ### What a terminal reads, operation by operation -/

@[simp] theorem ovState_setOv_same (h : Hw) (t v : Nat) : (h.setOv t v).ovState t = v := storeGet_set_same _ _ _ _

@[simp] theorem closedAt_setClosed_same (h : Hw) (t : Nat) (w : Word) : (h.setClosed t w).closedAt t = w :=
  storeGet_set_same _ _ _ _

@[simp] theorem pinAt_setPin_same (h : Hw) (t : Nat) (mv : Int) : (h.setPin t mv).pinAt t = mv := storeGet_set_same _ _ _ _

/-- A probe that is dropped leaves the field die but the probes of the clusters. -/
theorem dropProbe_eq (h : Hw) (t : Nat) : h.dropProbe t = h ∨ h.dropProbe t = h.setProbe (clusOfTerm t) none := by
  unfold Hw.dropProbe
  split
  · split
    · exact Or.inr rfl
    · exact Or.inl rfl
  · exact Or.inl rfl

@[simp] theorem ovState_dropProbe (h : Hw) (t u : Nat) : (h.dropProbe t).ovState u = h.ovState u := by
  obtain e | e := dropProbe_eq h t
  · rw [e]
  · rw [e]; rfl

@[simp] theorem closedAt_dropProbe (h : Hw) (t u : Nat) : (h.dropProbe t).closedAt u = h.closedAt u := by
  obtain e | e := dropProbe_eq h t
  · rw [e]
  · rw [e]; rfl

/-! ### Trips -/

theorem ovBit_addr (t : Nat) (neg : Bool) : (ovBit t neg).addr = 0x12000 + 4 * t := by cases neg <;> rfl

theorem ovBit_width (t : Nat) (neg : Bool) : (ovBit t neg).lo ≤ (ovBit t neg).hi ∧ (ovBit t neg).hi < 32 := by
  cases neg
  · exact ⟨Nat.le_refl 0, show 0 < 32 by decide⟩
  · exact ⟨Nat.le_refl 1, show 1 < 32 by decide⟩

/-- A detector's trip before anything is raised. -/
def Hw.tripped (h : Hw) (t : Nat) (neg : Bool) : Hw :=
  let h1 := h.setOv t (h.ovState t ||| (if neg then 2 else 1) ||| 4)
  let h2 := { h1 with field := { h1.field with
    reclose := h1.field.reclose.filter (fun x => decide (x ≠ t))
    ovAt := storeSet (fun _ => 0) h1.field.ovAt t h1.ns } }
  ((h2.setClosed t 0).dropProbe t).put (ovBit t neg) 1

theorem ovTrip_of_clear {h : Hw} {t : Nat} {neg : Bool} (hn : natBit (h.ovState t) (b2n neg) = false) :
    h.ovTrip t neg = (h.tripped t neg).raise srcTermOvervolt (t + 1024 * b2n neg) := by
  rw [b2n] at hn
  unfold Hw.ovTrip
  dsimp only
  rw [hn]
  rfl

theorem ovState_tripped (h : Hw) (t : Nat) (neg : Bool) :
    (h.tripped t neg).ovState t = h.ovState t ||| (if neg then 2 else 1) ||| 4 :=
  (ovState_dropProbe _ t t).trans (ovState_setOv_same h t _)

theorem closedAt_tripped (h : Hw) (t : Nat) (neg : Bool) : (h.tripped t neg).closedAt t = 0 :=
  (closedAt_dropProbe _ t t).trans (closedAt_setClosed_same _ t 0)

/-- R67: the terminal is isolated with its switches open, and the trip shows in both its places. -/
theorem ovTrip_spec {h : Hw} {t : Nat} {neg : Bool} (ht : t < 640) (hn : natBit (h.ovState t) (b2n neg) = false) :
    (h.ovTrip t neg).isolated t = true ∧ (h.ovTrip t neg).closedAt t = 0 ∧ (h.ovTrip t neg).on (ovBit t neg) = true ∧
    (h.ovTrip t neg).on (statusBit srcTermOvervolt) = true := by
  rw [ovTrip_of_clear hn]
  have hf := follows_raise (h.tripped t neg) srcTermOvervolt (t + 1024 * b2n neg) (by decide) (by decide)
  have hbit : ¬ PlainAddr (ovBit t neg).addr := by rw [ovBit_addr]; omega
  have hview := View.see_raise (V := stagedView) (h.tripped t neg) srcTermOvervolt (t + 1024 * b2n neg) (Or.inr (by decide))
  refine ⟨?_, hf.closedAt_zero (closedAt_tripped h t neg), ?_, ?_⟩
  · rw [isolated_of_calm hf.calm_eq]
    change natBit ((h.tripped t neg).ovState t) 2 = true
    rw [ovState_tripped, natBit, Nat.testBit_or]
    exact Bool.or_eq_true_iff.mpr (Or.inr (by decide))
  · rw [Hw.on, get_of_staged hview _ hbit]
    exact on_put_one _ _ (ovBit_width t neg).1 (ovBit_width t neg).2
  · exact (hf.status_eq (by decide)).trans (on_put_one _ _ (by decide) (by decide))

/-! ### Clears -/

@[simp] theorem field_ovCause (h : Hw) : h.ovCause.field = h.field := when_keeps Hw.field _ _ h rfl

theorem on_ovCause (h : Hw) (f : Fld) (hf : f.addr ≠ 0x100108) : h.ovCause.on f = h.on f :=
  when_keeps (·.on f) _ _ h (on_put_other h _ f 0 hf)

theorem ovState_of_field {g h : Hw} (e : g.field = h.field) (t : Nat) : g.ovState t = h.ovState t :=
  congrArg (fun f : FieldSt => storeGet (fun _ => 0) f.ov t) e

/-- A terminal that wants its routes back: isolated, it waits for its reclose. -/
theorem wantReclose_spec (h : Hw) (t : Nat) : (h.wantReclose t).field.ov = h.field.ov ∧ (h.wantReclose t).regs = h.regs ∧
    (h.isolated t = true → (h.wantReclose t).field.reclose.contains t = true) := by
  unfold Hw.wantReclose
  split
  next => exact ⟨rfl, rfl, fun _ => by simp⟩
  next hn => exact ⟨rfl, rfl, fun hi => by simpa [hi] using hn⟩

theorem ovClear_of_due {h : Hw} {t : Nat} {neg : Bool} (hn : natBit (h.ovState t) (b2n neg) = true)
    (hd : h.due (storeGet (fun _ => 0) h.field.ovAt t + h.recoverNs) = true) :
    h.ovClear t neg = ((h.setOv t (natPut (h.ovState t) (b2n neg) (b2n neg) 0)).ovCause).when
      (decide (natPut (h.ovState t) (b2n neg) (b2n neg) 0 % 4 = 0) && h.on HRN_OV_CTL_AUTO) (fun h => h.wantReclose t) := by
  have hov : ((h.setOv t (natPut (h.ovState t) (b2n neg) (b2n neg) 0)).ovCause).ovState t =
      natPut (h.ovState t) (b2n neg) (b2n neg) 0 :=
    (ovState_of_field (field_ovCause _) t).trans (ovState_setOv_same h t _)
  have hauto : ((h.setOv t (natPut (h.ovState t) (b2n neg) (b2n neg) 0)).ovCause).on HRN_OV_CTL_AUTO = h.on HRN_OV_CTL_AUTO :=
    on_ovCause _ _ (by decide)
  unfold Hw.ovClear
  dsimp only
  rw [← b2n, if_pos ⟨hn, hd⟩, hov, hauto]

/-- R66, R69: the detector's bit goes; under AUTO = 1 an isolated terminal without a tripped detector waits for its
reclose, and under AUTO = 0 none begins to wait. -/
theorem ovClear_spec {h : Hw} {t : Nat} {neg : Bool} (hn : natBit (h.ovState t) (b2n neg) = true)
    (hd : h.due (storeGet (fun _ => 0) h.field.ovAt t + h.recoverNs) = true) :
    (h.ovClear t neg).ovState t = natPut (h.ovState t) (b2n neg) (b2n neg) 0 ∧
    (h.on HRN_OV_CTL_AUTO = false → (h.ovClear t neg).field.reclose = h.field.reclose) ∧
    (h.on HRN_OV_CTL_AUTO = true → natPut (h.ovState t) (b2n neg) (b2n neg) 0 = 4 →
      (h.ovClear t neg).field.reclose.contains t = true) := by
  rw [ovClear_of_due hn hd]
  generalize natPut (h.ovState t) (b2n neg) (b2n neg) 0 = v
  have hov : ((h.setOv t v).ovCause).ovState t = v := (ovState_of_field (field_ovCause _) t).trans (ovState_setOv_same h t v)
  obtain ⟨hwov, -, hwait⟩ := wantReclose_spec (h.setOv t v).ovCause t
  refine ⟨?_, fun ha => ?_, fun ha hv => ?_⟩
  · refine (when_keeps (·.ovState t) _ _ _ ?_).trans hov
    exact congrArg (fun m => storeGet (fun _ => 0) m t) hwov
  · rw [ha, Bool.and_false]
    exact (congrArg FieldSt.reclose (field_ovCause (h.setOv t v)) :)
  · rw [ha, hv]
    rw [hv] at hwait
    refine hwait ?_
    rw [Hw.isolated, ← hv, hov, hv]
    decide

/-! ### Firmware clears (R69, R72) -/

/-- A W1C bit that a write of `v` clears where `c` allows it. -/
def Hw.clearBit (h : Hw) (f : Fld) (c : Bool) (v : Word) : Hw := h.when (c && decide (bits v f.hi f.lo ≠ 0)) (fun h => h.put f 0)

@[simp] theorem field_clearBit (h : Hw) (f : Fld) (c : Bool) (v : Word) : (h.clearBit f c v).field = h.field :=
  when_keeps Hw.field _ _ h rfl

theorem clearBit_false (h : Hw) (f : Fld) (v : Word) : h.clearBit f false v = h := (rfl)

theorem on_clearBit_other (h : Hw) {a i j : Nat} (c : Bool) (v : Word) (hi : i < 32) (hij : i ≠ j) :
    (h.clearBit ⟨a, i, i⟩ c v).on ⟨a, j, j⟩ = h.on ⟨a, j, j⟩ := by
  refine when_keeps (·.on ⟨a, j, j⟩) _ _ h (?_ : (h.put ⟨a, i, i⟩ 0).on ⟨a, j, j⟩ = h.on ⟨a, j, j⟩)
  rw [Hw.on, Hw.on, get_put_disjoint h ⟨a, i, i⟩ ⟨a, j, j⟩ 0 (Nat.le_refl i) hi (Nat.le_refl j) rfl (Nat.lt_or_gt_of_ne hij)]

theorem on_clearBit_away (h : Hw) (f g : Fld) (c : Bool) (v : Word) (ha : g.addr ≠ f.addr) : (h.clearBit f c v).on g = h.on g :=
  when_keeps (·.on g) _ _ h (on_put_other h f g 0 ha)

theorem on_clearBit_same (h : Hw) {a i : Nat} (v : Word) (hi : i < 32) :
    (h.clearBit ⟨a, i, i⟩ true v).on ⟨a, i, i⟩ = (!natBit v.toNat i && h.on ⟨a, i, i⟩) := by
  rw [Hw.clearBit, Bool.true_and, decide_bits_bit]
  cases natBit v.toNat i
  · rfl
  · exact on_put_zero h _ (Nat.le_refl i) hi

/-- The bits of HRN_TSTAT that a write of `v` clears: those of the detectors inside the clear window alone. -/
def Hw.tstatBits (h : Hw) (t : Nat) (inWindow : Bool) (v : Word) : Hw :=
  (((h.clearBit (HRN_TSTAT_PROBE_OPEN t) true v).clearBit (HRN_TSTAT_SHORT_GND t) true v).clearBit (HRN_TSTAT_OV_NEG t)
    inWindow v).clearBit (HRN_TSTAT_OV_POS t) inWindow v

theorem tstatWrite_eq (h : Hw) (t : Nat) (w : Bool) (v : Word) : h.tstatWrite t w v =
    (h.tstatBits t w v).when (w && !(h.tstatBits t w v).on (HRN_TSTAT_OV_NEG t) && !(h.tstatBits t w v).on (HRN_TSTAT_OV_POS t) &&
      (h.tstatBits t w v).isolated t && !(h.tstatBits t w v).on HRN_OV_CTL_AUTO)
      (fun h => ((h.setOv t 4).ovCause).wantReclose t) := (rfl)

@[simp] theorem field_tstatBits (h : Hw) (t : Nat) (w : Bool) (v : Word) : (h.tstatBits t w v).field = h.field := by
  simp [Hw.tstatBits]

theorem on_tstatBits_away (h : Hw) (t : Nat) (w : Bool) (v : Word) (f : Fld) (hf : f.addr ≠ HRN_TSTAT t) :
    (h.tstatBits t w v).on f = h.on f := by
  rw [Hw.tstatBits, on_clearBit_away _ (HRN_TSTAT_OV_POS t) f w v hf, on_clearBit_away _ (HRN_TSTAT_OV_NEG t) f w v hf,
    on_clearBit_away _ (HRN_TSTAT_SHORT_GND t) f true v hf, on_clearBit_away _ (HRN_TSTAT_PROBE_OPEN t) f true v hf]

/-- An OV bit inside the clear window: a 1 clears it. -/
theorem on_tstatBits (h : Hw) (t : Nat) (neg : Bool) (v : Word) :
    (h.tstatBits t true v).on (ovBit t neg) = (!natBit v.toNat (ovBit t neg).lo && h.on (ovBit t neg)) := by
  unfold Hw.tstatBits
  cases neg
  · change Hw.on _ (HRN_TSTAT_OV_POS t) = (!natBit v.toNat 0 && h.on (HRN_TSTAT_OV_POS t))
    rw [on_clearBit_same _ v (by decide), on_clearBit_other _ _ v (by decide) (by decide),
      on_clearBit_other _ _ v (by decide) (by decide), on_clearBit_other _ _ v (by decide) (by decide)]
  · change Hw.on _ (HRN_TSTAT_OV_NEG t) = (!natBit v.toNat 1 && h.on (HRN_TSTAT_OV_NEG t))
    rw [on_clearBit_other _ _ v (by decide) (by decide), on_clearBit_same _ v (by decide),
      on_clearBit_other _ _ v (by decide) (by decide), on_clearBit_other _ _ v (by decide) (by decide)]

/-- Outside it the OV bits stay. -/
theorem on_tstatBits_outside (h : Hw) (t : Nat) (neg : Bool) (v : Word) :
    (h.tstatBits t false v).on (ovBit t neg) = h.on (ovBit t neg) := by
  unfold Hw.tstatBits
  rw [clearBit_false, clearBit_false]
  cases neg
  · change Hw.on _ (HRN_TSTAT_OV_POS t) = h.on (HRN_TSTAT_OV_POS t)
    rw [on_clearBit_other _ _ v (by decide) (by decide), on_clearBit_other _ _ v (by decide) (by decide)]
  · change Hw.on _ (HRN_TSTAT_OV_NEG t) = h.on (HRN_TSTAT_OV_NEG t)
    rw [on_clearBit_other _ _ v (by decide) (by decide), on_clearBit_other _ _ v (by decide) (by decide)]

theorem on_of_regs {g h : Hw} (e : g.regs = h.regs) (f : Fld) : g.on f = h.on f := by
  rw [Hw.on, Hw.on, Hw.get, Hw.get, Hw.reg, Hw.reg, e]

/-- What follows in the field die leaves the OV bits. -/
theorem on_tstatWrite (h : Hw) {t : Nat} (ht : t < 640) (neg w : Bool) (v : Word) :
    (h.tstatWrite t w v).on (ovBit t neg) = (h.tstatBits t w v).on (ovBit t neg) := by
  have hcause : (ovBit t neg).addr ≠ 0x100108 := by rw [ovBit_addr]; omega
  rw [tstatWrite_eq]
  refine when_keeps (·.on (ovBit t neg)) _ _ _ ?_
  obtain ⟨-, hregs, -⟩ := wantReclose_spec ((h.tstatBits t w v).setOv t 4).ovCause t
  exact (on_of_regs hregs _).trans (on_ovCause _ _ hcause)

theorem tstatWrite_outside (h : Hw) (t : Nat) (v : Word) : h.tstatWrite t false v = h.tstatBits t false v := (rfl)

/-- R69: with both bits clear under AUTO = 0 the isolated terminal waits for its reclose. -/
theorem tstatWrite_ends {h : Hw} {t : Nat} {v : Word} (hn : (h.tstatBits t true v).on (HRN_TSTAT_OV_NEG t) = false)
    (hp : (h.tstatBits t true v).on (HRN_TSTAT_OV_POS t) = false) (hi : h.isolated t = true) (ha : h.on HRN_OV_CTL_AUTO = false)
    (ht : t < 640) : (h.tstatWrite t true v).field.reclose.contains t = true ∧ (h.tstatWrite t true v).ovState t = 4 := by
  have hiso : (h.tstatBits t true v).isolated t = true := by rwa [Hw.isolated, ovState_of_field (field_tstatBits ..)]
  have hauto : (h.tstatBits t true v).on HRN_OV_CTL_AUTO = false :=
    (on_tstatBits_away h t true v _ (show 0x11004 ≠ 0x12000 + 4 * t by omega)).trans ha
  rw [tstatWrite_eq, hn, hp, hiso, hauto]
  generalize h.tstatBits t true v = g
  have hov : ((g.setOv t 4).ovCause).ovState t = 4 := (ovState_of_field (field_ovCause _) t).trans (ovState_setOv_same g t 4)
  obtain ⟨hwov, -, hwait⟩ := wantReclose_spec (g.setOv t 4).ovCause t
  exact ⟨hwait (by rw [Hw.isolated, hov]; decide), (congrArg (fun m => storeGet (fun _ => 0) m t) hwov).trans hov⟩

/-! ### The reclose (R62, R69) -/

/-- What the switches of a terminal are to be hangs on the mode, SAFE, its isolation, its route and the channels' settings. -/
theorem route_congr {g h : Hw} {t : Nat} (ht : t < 640) (hrun : g.running = h.running) (hsafe : g.safe = h.safe)
    (hiso : g.isolated t = h.isolated t) (hreg : ∀ a, 0x10000 ≤ a ∧ a < 0x11000 ∨ 0x20000 ≤ a ∧ a < 0x20800 → g.reg a = h.reg a) :
    g.route t = h.route t := by
  have hterm : g.reg (HRN_TERM t) = h.reg (HRN_TERM t) :=
    hreg _ (show 0x10000 ≤ 0x10000 + 4 * t ∧ 0x10000 + 4 * t < 0x11000 ∨ _ by omega)
  have hch : g.get (HRN_TERM_IN_CH t) = h.get (HRN_TERM_IN_CH t) := congrArg (fun w => bits w 2 0) hterm
  have hlt : h.get (HRN_TERM_IN_CH t) < 8 := natBits_lt _ 2 0
  have hclus : clusOfTerm t = t / 16 := rfl
  have hcfg : g.reg (FE_CFG (8 * clusOfTerm t + h.get (HRN_TERM_IN_CH t))) =
      h.reg (FE_CFG (8 * clusOfTerm t + h.get (HRN_TERM_IN_CH t))) := hreg _ (by dsimp only [FE_CFG]; omega)
  have hen : g.on (FE_CFG_EN (8 * clusOfTerm t + h.get (HRN_TERM_IN_CH t))) =
      h.on (FE_CFG_EN (8 * clusOfTerm t + h.get (HRN_TERM_IN_CH t))) := congrArg (fun w => decide (bits w 0 0 ≠ 0)) hcfg
  rw [Hw.route, Hw.route, hrun, hsafe, hiso, hterm, hch, hen]

theorem route_of_safe {h : Hw} (hs : h.safe = true) (t : Nat) : h.route t = 0 := by
  simp [Hw.route, hs]

/-- A terminal that is isolated no more, waits for nothing, and has the switches of its route. -/
structure Hw.Reclosed (h : Hw) (t : Nat) : Prop where
  isolated : h.isolated t = false
  waits : h.field.reclose.contains t = false
  closed : h.closedAt t = h.route t

namespace Hw.Reclosed

theorem of_same {g h : Hw} {t : Nat} (hr : h.Reclosed t) (hregs : g.regs = h.regs) (hov : g.field.ov = h.field.ov)
    (hrec : g.field.reclose = h.field.reclose) (hclosed : g.field.closed = h.field.closed) (ht : t < 640) : g.Reclosed t := by
  have hov' : g.isolated t = h.isolated t := congrArg (fun m => natBit (storeGet (fun _ => 0) m t) 2) hov
  have hreg (a : Nat) : g.reg a = h.reg a := congrArg (fun m => storeGet regReset m a) hregs
  have hroute : g.route t = h.route t := route_congr ht (congrArg (fun w => decide (bits w 31 30 = 1)) (hreg SYS_BOOT))
    (congrArg (fun w => decide (bits w 0 0 ≠ 0)) (hreg FLT_SAFE)) hov' (fun a _ => hreg a)
  have hat : g.closedAt t = h.closedAt t := congrArg (fun m => storeGet (fun _ => 0) m t) hclosed
  exact ⟨hov'.trans hr.isolated, (congrArg (·.contains t) hrec).trans hr.waits, hat.trans (hr.closed.trans hroute.symm)⟩

theorem put {h : Hw} {t : Nat} (hr : h.Reclosed t) (f : Fld) (v : Nat) (ht : t < 640) (hf : 0x20800 ≤ f.addr)
    (hs : f.addr ≠ 0x100114) : (h.put f v).Reclosed t := by
  have hroute : (h.put f v).route t = h.route t := route_congr ht (running_put h f v (by omega))
    (on_put_other h f _ v (Ne.symm hs)) rfl (fun a ha => reg_put_other h f v (by omega))
  exact ⟨hr.isolated, hr.waits, hr.closed.trans hroute.symm⟩

/-- In SAFE, which a raise may enter, a route has no switches. -/
theorem follows {g h : Hw} {t : Nat} (hr : h.Reclosed t) (hg : h.Follows g) (hv : stagedView.see g = stagedView.see h)
    (ht : t < 640) : g.Reclosed t := by
  have hiso := isolated_of_calm hg.calm_eq t
  refine ⟨hiso.trans hr.isolated, (congrArg (·.contains t) (reclose_of_calm hg.calm_eq)).trans hr.waits, ?_⟩
  rcases hg with hg | hg
  · have hat : g.closedAt t = h.closedAt t := congrArg (fun a : Lasting => storeGet (fun _ => 0) a.field.closed t) hg
    have hroute : g.route t = h.route t := route_congr ht (congrArg Lasting.running hg) (congrArg Lasting.safe hg) hiso
      (fun a ha => reg_of_staged hv a (by omega))
    exact hat.trans (hr.closed.trans hroute.symm)
  · have hat : g.closedAt t = 0 := congrArg (fun a : Lasting => storeGet (fun _ => 0) a.field.closed t) hg
    exact hat.trans (route_of_safe (congrArg Lasting.safe hg) t).symm

theorem raiseOpen {h : Hw} {t : Nat} (hr : h.Reclosed t) (ch : Nat) (ht : t < 640) : (h.raiseOpen ch).Reclosed t := by
  have hv : stagedView.see (h.raiseOpen ch) = stagedView.see (h.put (statusBit srcTermOpen) 1) :=
    (View.see_raiseOpen stagedView_far h ch).trans (View.see_put h _ 1 (by decide) (Or.inl stagedView_far)).symm
  exact (hr.put (statusBit srcTermOpen) 1 ht (by decide) (by decide)).follows (follows_raiseOpen h ch) hv ht

theorem enterOpen {h : Hw} {t : Nat} (hr : h.Reclosed t) (ch bit : Nat) (always : Bool) (ht : t < 640) :
    (h.enterOpen ch bit always).Reclosed t := by
  have hbits : (h.setOpenBits ch (h.openBits ch ||| bit)).Reclosed t := hr.of_same rfl rfl rfl rfl ht
  have hpassed (c : Bool) (l : List Nat) : ((h.setOpenBits ch (h.openBits ch ||| bit)).when c
      (fun h => h.each l (fun h t => h.setPassedNow t false))).Reclosed t := by
    cases c
    · exact hbits
    · exact foldl_keeps (fun g : Hw => g.Reclosed t) (fun g u => g.setPassedNow u false)
        (fun g u hg => hg.of_same rfl rfl rfl rfl ht) l _ hbits
  unfold Hw.enterOpen
  dsimp only
  generalize (_ || _ : Bool) = c
  cases c
  · exact hpassed _ _
  · exact (hpassed _ _).raiseOpen ch ht

theorem feWindowAt {h : Hw} {t : Nat} (hr : h.Reclosed t) (ch b : Nat) (ht : t < 640) : (h.feWindowAt ch b).Reclosed t := by
  have hw : (h.feWindow ch b).Reclosed t := hr.of_same rfl rfl rfl rfl ht
  unfold Hw.feWindowAt Hw.markHeld
  split
  · split
    · exact hw.of_same rfl rfl rfl rfl ht
    · exact hw
  · exact hw

end Hw.Reclosed

/-- What the reclose of a terminal does to one of its channels. -/
def Hw.recloseChan (b : Nat) (h : Hw) (ch : Nat) : Hw :=
  let h := h.feWindowAt ch b
  if h.cmpTripped ch && !h.chanIsolated ch then h.enterOpen ch 1 false else h.setCmpClear ch

theorem Hw.Reclosed.recloseChan {h : Hw} {t : Nat} (hr : h.Reclosed t) (ch b : Nat) (ht : t < 640) :
    (h.recloseChan b ch).Reclosed t := by
  have hw := hr.feWindowAt ch b ht
  unfold Hw.recloseChan
  dsimp only
  split
  · exact hw.enterOpen ch 1 false ht
  · exact hw.of_same rfl rfl rfl rfl ht

/-- The terminal that waited, before its channels are looked at. -/
def Hw.rejoin (h : Hw) (t : Nat) : Hw :=
  (({ h with field := { h.field with reclose := h.field.reclose.filter (fun x => decide (x ≠ t)) } } : Hw).setOv t 0).closeRoute t

theorem reclose_of_waiting {h : Hw} {t b : Nat} (hb : h.boundaryNow = some b) (hw : h.field.reclose.contains t = true) :
    h.reclose t = (h.rejoin t).each ((h.rejoin t).termChans t) (Hw.recloseChan b) := by
  unfold Hw.reclose
  rw [hb]
  dsimp only
  rw [if_pos hw]
  rfl

theorem reclosed_rejoin (h : Hw) (t : Nat) : (h.rejoin t).Reclosed t where
  isolated := by
    have hov : (h.rejoin t).ovState t = 0 := storeGet_set_same _ _ t 0
    rw [Hw.isolated, hov]
    decide
  waits := by
    change (h.field.reclose.filter (fun x => decide (x ≠ t))).contains t = false
    simp
  closed := closedAt_setClosed_same _ t _

/-- R69: at a boundary a terminal that waits is reclosed. -/
theorem reclosed_reclose {h : Hw} {t b : Nat} (ht : t < 640) (hb : h.boundaryNow = some b)
    (hw : h.field.reclose.contains t = true) : (h.reclose t).Reclosed t := by
  rw [reclose_of_waiting hb hw]
  exact foldl_keeps (fun g : Hw => g.Reclosed t) _ (fun g ch hg => hg.recloseChan ch b ht) _ _ (reclosed_rejoin h t)

/-! ### The commands -/

theorem exec_ovTrip {s : State} {t : Nat} {neg : Bool} {mv : Int} (hl : s.hw.live = true) (ht : t < 640)
    (hm : s.hw.mayTrip t neg mv = true) :
    exec (.ovTrip t neg mv) s = .next { s with hw := (s.hw.setPin t mv).ovTrip t neg } := by
  change actOn s (decide (t < nTerm)) _ = _
  rw [decide_eq_true ht, actOn_live s _ hl, hm]
  rfl

theorem exec_ovClear {s : State} {t : Nat} {neg : Bool} {mv : Int} (hl : s.hw.live = true) (ht : t < 640)
    (hm : s.hw.mayClear t mv = true) :
    exec (.ovClear t neg mv) s = .next { s with hw := (s.hw.setPin t mv).ovClear t neg } := by
  change actOn s (decide (t < nTerm)) _ = _
  rw [decide_eq_true ht, actOn_live s _ hl, hm]
  rfl

theorem exec_switchCurrentLimit {s : State} {t : Nat} {neg : Bool} (hl : s.hw.live = true) (ht : t < 640)
    (hc : bits (s.hw.closedAt t) 11 10 = 1 ∨ bits (s.hw.closedAt t) 7 5 = 7) :
    exec (.switchCurrentLimit t neg) s = .next { s with hw := s.hw.ovTrip t neg } := by
  change actOn s (decide (t < nTerm)) _ = _
  rw [decide_eq_true ht, actOn_live s _ hl, if_pos hc]

theorem exec_routeReclose {s : State} {t : Nat} (hl : s.hw.live = true) (ht : t < 640) :
    exec (.routeReclose t) s = .next { s with hw := s.hw.reclose t } := by
  change actOn s (decide (t < nTerm)) _ = _
  rw [decide_eq_true ht, actOn_live s _ hl]

/-- The pin is told its voltage, and the write is judged by it. -/
theorem exec_tstatOvClear {s : State} {q : Requester} {t : Nat} {mv : Int} {v : Word} {w : Bool}
    (hw : s.hw.writable q = true) (ht : t < 640) (hin : (s.hw.setPin t mv).inWindow t mv = w) :
    exec (.tstatOvClear q t mv v) s =
      .next { s with hw := (s.hw.setPin t mv).draw.tstatWrite t w v, rdata := [], status := 0 } := by
  change accWrite s q (decide (t < nTerm)) (fun h => (h.setPin t mv).tstatAny t v) = _
  rw [decide_eq_true ht, accWrite_open s q _ hw, Hw.tstatAny, pinAt_setPin_same, hin]

theorem inWindow_of_surelyClear {h : Hw} {t : Nat} {mv : Int} (hs : h.surelyClear t mv = true) :
    (h.setPin t mv).inWindow t mv = true := Bool.or_eq_true_iff.mpr (Or.inl hs)

theorem inWindow_of_not_mayClear {h : Hw} {t : Nat} {mv : Int} (hm : h.mayClear t mv = false) :
    (h.setPin t mv).inWindow t mv = false := by
  have hs : h.surelyClear t mv = false := by
    simp only [Hw.mayClear, Hw.surelyClear, decide_eq_false_iff_not] at hm ⊢
    omega
  exact Bool.or_eq_false_iff.mpr ⟨hs, Bool.and_eq_false_iff.mpr (Or.inl hm)⟩

/-- Settles O1: trips, clears, the reclose and firmware's clears one by one. That a trip's own reaction takes back nothing
of it, and leaves a reclosed terminal the switches of its route, is what `follows_raise` says of a raise. That the terminal
stays isolated from the clear to the boundary is the model's choice (log 183). -/
theorem terminalProtection : Obligations.TerminalProtection := by
  unfold Obligations.TerminalProtection
  refine ⟨?_, ?_, ?_, ?_, ?_, ?_, ?_⟩
  · intro s t neg mv hl ht hn hm
    exact ⟨_, exec_ovTrip hl ht hm, ovTrip_spec (h := s.hw.setPin t mv) ht hn⟩
  · intro s t neg hl ht hn hc
    exact ⟨_, exec_switchCurrentLimit hl ht hc, ovTrip_spec ht hn⟩
  · intro s t neg mv hl ht hn hm hd
    exact ⟨_, exec_ovClear hl ht hm, ovClear_spec (h := s.hw.setPin t mv) hn hd⟩
  · intro s t b hl ht hb hw
    obtain ⟨hiso, hwaits, hclosed⟩ := reclosed_reclose ht hb hw
    exact ⟨_, exec_routeReclose hl ht, hiso, hwaits, hclosed⟩
  · intro s q t mv v neg hw ht hs hv
    refine ⟨_, exec_tstatOvClear hw ht (inWindow_of_surelyClear hs), ?_⟩
    change Hw.on _ _ = false
    rw [on_tstatWrite _ ht, on_tstatBits, hv]
    rfl
  · intro s q t mv v hw ht hm
    refine ⟨_, exec_tstatOvClear hw ht (inWindow_of_not_mayClear hm), ?_⟩
    rw [tstatWrite_outside]
    exact ⟨on_tstatBits_outside _ t false v, on_tstatBits_outside _ t true v, field_tstatBits _ t false v⟩
  · intro s q t mv v hw ht hs ha hi hp hn
    have hclear (neg : Bool) (hb : natBit v.toNat (ovBit t neg).lo = true ∨ s.hw.on (ovBit t neg) = false) :
        ((s.hw.setPin t mv).draw.tstatBits t true v).on (ovBit t neg) = false := by
      rw [on_tstatBits]
      rcases hb with hb | hb
      · rw [hb]; rfl
      · exact Bool.and_eq_false_iff.mpr (Or.inr hb)
    exact ⟨_, exec_tstatOvClear hw ht (inWindow_of_surelyClear hs),
      tstatWrite_ends (h := (s.hw.setPin t mv).draw) (hclear true hn) (hclear false hp) hi ha ht⟩

end Sys2Proof.Machine

/-! ## Open inputs, saturation and the open-wire probe (R67, R74 to R78, R86 to R89) -/

namespace Sys2Proof.Machine

/-! ### The comparator and the open-wire state -/

theorem cmpTripped_setCmp (h : Hw) (ch : Nat) (b : Bool) : (h.setCmp ch b).cmpTripped ch = b := storeGet_set_same _ _ ch b

theorem openBits_setOpenBits (h : Hw) (ch v : Nat) : (h.setOpenBits ch v).openBits ch = v := storeGet_set_same _ _ ch v

/-- R74: with no terminal isolated the trip begins the open-wire state. -/
theorem cmpTrip_opens {h : Hw} {ch : Nat} (hc : h.hasCmp ch = true) (ht : h.cmpTripped ch = false)
    (hi : h.chanIsolated ch = false) (ho : h.isOpen ch = false) : (h.cmpTrip ch).isOpen ch = true ∧
    (h.cmpTrip ch).cmpTripped ch = true ∧ (h.cmpTrip ch).on (statusBit srcTermOpen) = true := by
  have hcmp : h.cmpTrip ch = (h.setCmp ch true).enterOpen ch 1 (decide (h.openBits ch % 2 = 0 ∧ h.isOpen ch = false)) := by
    simp only [Hw.cmpTrip, hc, ht, hi, Bool.not_false, Bool.and_true, if_true, Bool.false_eq_true, if_false]
  rw [hcmp]
  exact ⟨isOpen_enterOpen _ ch _,
    (cmpTripped_of_calm (calm_enterOpen _ ch 1 _) ch).trans (cmpTripped_setCmp h ch true), status_enterOpen _ ch 1 _ ho⟩

/-- R67: under isolation the comparator alone is noted. -/
theorem cmpTrip_of_isolated {h : Hw} {ch : Nat} (hc : h.hasCmp ch = true) (ht : h.cmpTripped ch = false)
    (hi : h.chanIsolated ch = true) : h.cmpTrip ch = h.setCmp ch true := by
  simp [Hw.cmpTrip, hc, ht, hi]

theorem cmpClear_of_tripped {h : Hw} {ch : Nat} (ht : h.cmpTripped ch = true) :
    h.cmpClear ch = (h.setCmp ch false).setCmpClear ch := by
  rw [Hw.cmpClear, if_pos ht]

theorem field_causeEnd (h : Hw) (i : Nat) : (h.causeEnd i).field = h.field := (rfl)

/-- Leaving the state writes its reasons, and the cause's register. -/
theorem field_leaveOpen (h : Hw) (ch bit : Nat) :
    (h.leaveOpen ch bit).field = (h.setOpenBits ch (h.openBits ch &&& (3 ^^^ bit))).field :=
  when_keeps Hw.field _ _ _ (field_causeEnd _ _)

theorem isOpen_leaveOpen (h : Hw) (ch : Nat) : (h.leaveOpen ch 3).isOpen ch = false := by
  have hbits : (h.leaveOpen ch 3).openBits ch = h.openBits ch &&& 0 :=
    (congrArg (fun f : FieldSt => storeGet (fun _ => 0) f.openBy ch) (field_leaveOpen h ch 3)).trans
      (openBits_setOpenBits h ch _)
  rw [Hw.isOpen, hbits, Nat.and_zero]
  rfl

theorem reg_leaveOpen (h : Hw) (ch bit a : Nat) (ha : a ≠ 0x100108) : (h.leaveOpen ch bit).reg a = h.reg a :=
  when_keeps (·.reg a) _ _ _ (reg_put_other _ (causeBit srcTermOpen) 0 ha)

/-- Each reason that the channel has has been clear for the recovery time (R88, R101). -/
def Hw.reasonsClear (h : Hw) (ch : Nat) : Prop :=
  (h.openBits ch % 2 = 1 → h.chanIsolated ch = false ∧ h.cmpTripped ch = false ∧
    h.due (storeGet (fun _ => 0) h.field.cmpClear ch + h.recoverNs) = true) ∧
  (h.openBits ch / 2 % 2 = 1 → (List.range 2).all (fun i => !h.xlinks (2 * clusOfChan ch + i) ch ||
    (!h.on (EXC_STATUS_COMPLIANCE (2 * clusOfChan ch + i)) &&
      h.due ((h.drv (2 * clusOfChan ch + i)).compClear + h.recoverNs))) = true)

theorem openStateEnd_of_clear {h : Hw} {ch b : Nat} (hb : h.boundaryNow = some b) (ho : h.isOpen ch = true)
    (hp : h.probed ch = false) (hc : h.reasonsClear ch) : h.openStateEnd ch = h.leaveOpen ch 3 := by
  obtain ⟨hcmp, hcomp⟩ := hc
  have hact : (h.boundaryNow.isSome && h.isOpen ch && !h.probed ch) = true := by rw [hb, ho, hp]; rfl
  unfold Hw.openStateEnd
  rw [if_pos hact]
  refine if_pos ⟨?_, ?_⟩
  · refine (Nat.mod_two_eq_zero_or_one (h.openBits ch)).imp_right (fun h1 => ?_)
    obtain ⟨hiso, htrip, hdue⟩ := hcmp h1
    rw [hiso, htrip, hdue]
    rfl
  · exact (Nat.mod_two_eq_zero_or_one (h.openBits ch / 2)).imp_right hcomp

/-! ### Saturation -/

theorem satTrip_of_enabled {h : Hw} {ch : Nat} (he : h.on (FE_CFG_EN ch) = true) (hs : h.on (FE_STATUS_SAT ch) = false) :
    h.satTrip ch = if h.get (FE_CFG_MODE ch) = 2 ∧ h.on (FE_CFG_AUTO_RST ch) = true then
      (h.put (FE_STATUS_SAT ch) 1).feWindow ch h.time.now else h.put (FE_STATUS_SAT ch) 1 := by
  unfold Hw.satTrip Hw.when
  rw [he, hs]
  simp only [Bool.not_false, Bool.and_true, if_true, Bool.and_eq_true, decide_eq_true_eq]
  rfl

/-! ### The probe -/

theorem probe_setProbe (h : Hw) (k : Nat) (p : Option ProbeSt) : (h.setProbe k p).probe k = p := storeGet_set_same _ _ k p

/-- R75: the visit waits for its strobe. -/
theorem probeVisit_of_free {h : Hw} {t : Nat} (hen : h.on HRN_PROBE_CTL_EN = true) (ht : h.on (HRN_TERM_PROBE t) = true)
    (hr : h.running = true)
    (hd : h.due (storeGet (fun _ => 0) h.field.visited t + msNs (h.get HRN_PROBE_CTL_INTERVAL_MS)) = true)
    (hi : h.isolated t = false) (hp : h.probe (clusOfTerm t) = none) :
    (h.probeVisit t).probe (clusOfTerm t) =
      some { term := t, phase := .due, since := h.ns, net := 0, edge := false, strobed := none } ∧
    (h.probeVisit t).regs = h.regs := by
  simp only [Hw.probeVisit, hen, ht, hd, hr, hi, hp, Bool.and_true, if_true, Bool.false_eq_true, if_false, Option.isSome_none]
  exact ⟨probe_setProbe _ _ _, rfl⟩

theorem probeStart_of_strobed {h : Hw} {t i : Nat} {p : ProbeSt} (hp : h.probe (clusOfTerm t) = some p) (ht : p.term = t)
    (hph : p.phase = .due) (hs : p.strobed = some i) (hn : h.time.now ≤ i + 100 * nsUnit)
    (hr : h.reached (i + 100 * nsUnit) = true) : h.probeStart t =
      h.setProbe (clusOfTerm t) (some { p with phase := .pulse, since := h.ns, net := i + 100 * nsUnit }) := by
  simp only [Hw.probeStart, hp, hs]
  exact if_pos ⟨ht, hph, hn, hr⟩

theorem probeRecovered_of_due {h : Hw} {t : Nat} {p : ProbeSt} (hp : h.probe (clusOfTerm t) = some p) (ht : p.term = t)
    (hph : p.phase = .recover) (hd : h.due (p.since + 10000 * h.get HRN_PROBE_CTL_RECOVER) = true) :
    h.probeRecovered t = h.setProbe (clusOfTerm t) none := by
  simp only [Hw.probeRecovered, hp]
  exact if_pos ⟨ht, hph, hd⟩

/-- The cluster's probe recovers once it has judged. -/
def Hw.judged (h : Hw) (t : Nat) (p : ProbeSt) : Hw :=
  h.setProbe (clusOfTerm t) (some { p with phase := .recover, since := h.ns })

/-- A pulse that has lasted 20 us. -/
structure Hw.Pulsed (h : Hw) (t : Nat) (p : ProbeSt) : Prop where
  probe : h.probe (clusOfTerm t) = some p
  term : p.term = t
  phase : p.phase = .pulse
  due : h.due (p.since + 20000) = true

/-- What a channel of the terminal does with a pass: it leaves the open-wire state if all its probed inputs have passed. -/
def Hw.passChan (h : Hw) (ch : Nat) : Hw :=
  if h.isOpen ch && ((h.inTerms ch).filter (fun t => h.on (HRN_TERM_PROBE t))).all
    (fun t => storeGet (fun _ => false) h.field.passedNow t) then h.leaveOpen ch 3 else h

/-- A pass is noted for the terminal. -/
def Hw.notePass (h : Hw) (t : Nat) (x : ProbePass) : Hw :=
  ({ h with field := { h.field with passed := storeSet (fun _ => none) h.field.passed t (some x) } } : Hw).setPassedNow t true

theorem probeJudge_open {h : Hw} {t : Nat} {p : ProbeSt} {rise : Int} (hp : h.Pulsed t p)
    (ho : openThrUv (h.get HRN_PROBE_CTL_OPEN_THR) < rise) : h.probeJudge t rise =
      (((h.judged t p).put (HRN_TSTAT_PROBE_OPEN t) 1).setPassedNow t false).each (h.termChans t)
        (fun h ch => h.enterOpen ch 1 true) := by
  obtain ⟨hprobe, hterm, hphase, hdue⟩ := hp
  simp only [Hw.probeJudge, hprobe]
  rw [if_pos ⟨hterm, hphase, hdue⟩, if_pos ho]
  rfl

theorem probeJudge_short {h : Hw} {t : Nat} {p : ProbeSt} {rise : Int} (hp : h.Pulsed t p)
    (ho : rise ≤ openThrUv (h.get HRN_PROBE_CTL_OPEN_THR)) (hs : rise < 5000) : h.probeJudge t rise =
      (((h.judged t p).put (HRN_TSTAT_SHORT_GND t) 1).setPassedNow t false).each (h.termChans t)
        (fun h ch => h.raiseOpen ch) := by
  obtain ⟨hprobe, hterm, hphase, hdue⟩ := hp
  simp only [Hw.probeJudge, hprobe]
  rw [if_pos ⟨hterm, hphase, hdue⟩, if_neg (not_lt.mpr ho), if_pos hs]
  rfl

/-- R77: the pass names the pulse's time, and the stream and index of the terminal's channel at it. -/
def Hw.passOf (h : Hw) (t : Nat) (p : ProbeSt) : ProbePass :=
  let st := (h.streamOf ((h.termChans t).headD 0)).getD 0
  { time := p.net, stream := st, index := h.indexAt st p.net }

theorem probeJudge_pass {h : Hw} {t : Nat} {p : ProbeSt} {rise : Int} (hp : h.Pulsed t p)
    (ho : rise ≤ openThrUv (h.get HRN_PROBE_CTL_OPEN_THR)) (hs : 5000 ≤ rise) : h.probeJudge t rise =
      ((h.judged t p).notePass t ((h.judged t p).passOf t p)).each (h.termChans t) Hw.passChan := by
  obtain ⟨hprobe, hterm, hphase, hdue⟩ := hp
  simp only [Hw.probeJudge, hprobe]
  rw [if_pos ⟨hterm, hphase, hdue⟩, if_neg (not_lt.mpr ho), if_neg (not_lt.mpr hs)]
  rfl

theorem lastPass_notePass (h : Hw) (t : Nat) (x : ProbePass) : (h.notePass t x).lastPass t = some x :=
  storeGet_set_same (fun _ => none) h.field.passed t (some x)

theorem probe_judged (h : Hw) (t : Nat) (p : ProbeSt) :
    (h.judged t p).probe (clusOfTerm t) = some { p with phase := .recover, since := h.ns } := probe_setProbe h _ _

/-- A terminal feeds one channel or none. -/
theorem termChans_cases (h : Hw) (t : Nat) : h.termChans t = [] ∨ ∃ ch, h.termChans t = [ch] := by
  unfold Hw.termChans
  split
  · exact Or.inr ⟨_, rfl⟩
  · exact Or.inl rfl

theorem probe_raiseOpen (h : Hw) (ch k : Nat) : (h.raiseOpen ch).probe k = h.probe k := probe_of_calm (calm_raiseOpen h ch) k

theorem probe_enterOpen (h : Hw) (ch bit : Nat) (always : Bool) (k : Nat) : (h.enterOpen ch bit always).probe k = h.probe k :=
  probe_of_calm (calm_enterOpen h ch bit always) k

/-- A bit of HRN_TSTAT that is set stays so while the terminal's channels raise. -/
theorem on_tstat_each {h : Hw} {t : Nat} (ht : t < 640) (i : Nat) (hi : i < 32) (f : Hw → Nat → Hw)
    (hf : ∀ h ch, stagedView.see (f h ch) = stagedView.see h) (l : List Nat) :
    (((h.put ⟨HRN_TSTAT t, i, i⟩ 1).setPassedNow t false).each l f).on ⟨HRN_TSTAT t, i, i⟩ = true := by
  have hplain : ¬ PlainAddr (HRN_TSTAT t) := by change ¬ PlainAddr (0x12000 + 4 * t); omega
  rw [Hw.on, get_of_staged (View.see_each _ l f hf) _ hplain]
  exact on_put_one h ⟨HRN_TSTAT t, i, i⟩ (Nat.le_refl i) hi

/-- R76: an open terminal. -/
theorem probeJudge_open_spec {h : Hw} {t : Nat} {p : ProbeSt} {rise : Int} (ht : t < 640) (hp : h.Pulsed t p)
    (ho : openThrUv (h.get HRN_PROBE_CTL_OPEN_THR) < rise) : (h.probeJudge t rise).on (HRN_TSTAT_PROBE_OPEN t) = true ∧
    (h.termChans t).all (fun ch => (h.probeJudge t rise).isOpen ch) = true ∧
    (h.probeJudge t rise).probe (clusOfTerm t) = some { p with phase := .recover, since := h.ns } := by
  rw [probeJudge_open hp ho]
  refine ⟨on_tstat_each ht 5 (by decide) _ (fun h ch => View.see_enterOpen stagedView_far h ch 1 true) _, ?_, ?_⟩
  · rcases termChans_cases h t with hl | ⟨ch, hl⟩
    · rw [hl]; rfl
    · rw [hl, List.all_cons, List.all_nil, Bool.and_true]
      exact isOpen_enterOpen _ ch true
  · exact (each_keeps (·.probe (clusOfTerm t)) (fun h ch => h.enterOpen ch 1 true)
      (fun h ch => probe_enterOpen h ch 1 true _) _ _).trans (probe_judged h t p)

/-- R76: a terminal shorted to ground. -/
theorem probeJudge_short_spec {h : Hw} {t : Nat} {p : ProbeSt} {rise : Int} (ht : t < 640) (hp : h.Pulsed t p)
    (ho : rise ≤ openThrUv (h.get HRN_PROBE_CTL_OPEN_THR)) (hs : rise < 5000) :
    (h.probeJudge t rise).on (HRN_TSTAT_SHORT_GND t) = true ∧
    (h.probeJudge t rise).probe (clusOfTerm t) = some { p with phase := .recover, since := h.ns } := by
  rw [probeJudge_short hp ho hs]
  refine ⟨on_tstat_each ht 4 (by decide) _ (fun h ch => View.see_raiseOpen stagedView_far h ch) _, ?_⟩
  exact (each_keeps (·.probe (clusOfTerm t)) (fun h ch => h.raiseOpen ch) (fun h ch => probe_raiseOpen h ch _) _ _).trans
    (probe_judged h t p)

theorem passed_passChan (h : Hw) (ch : Nat) : (h.passChan ch).field.passed = h.field.passed := by
  unfold Hw.passChan
  split
  · exact (congrArg FieldSt.passed (field_leaveOpen h ch 3) :)
  · rfl

theorem reg_passChan (h : Hw) (a ch : Nat) (ha : a ≠ 0x100108) : (h.passChan ch).reg a = h.reg a := by
  unfold Hw.passChan
  split
  · exact reg_leaveOpen h ch 3 a ha
  · rfl

/-- R76, R77: a pass is recorded with the time of its pulse. -/
theorem probeJudge_pass_spec {h : Hw} {t : Nat} {p : ProbeSt} {rise : Int} (ht : t < 640) (hp : h.Pulsed t p)
    (ho : rise ≤ openThrUv (h.get HRN_PROBE_CTL_OPEN_THR)) (hs : 5000 ≤ rise) :
    ((h.probeJudge t rise).lastPass t).map ProbePass.time = some p.net ∧
    (h.probeJudge t rise).reg (HRN_TSTAT t) = h.reg (HRN_TSTAT t) := by
  have hpassed := each_keeps (·.field.passed) Hw.passChan passed_passChan (h.termChans t)
    ((h.judged t p).notePass t ((h.judged t p).passOf t p))
  have hreg := each_keeps (·.reg (HRN_TSTAT t)) Hw.passChan
    (fun h ch => reg_passChan h _ ch (show 0x12000 + 4 * t ≠ 0x100108 by omega)) (h.termChans t)
    ((h.judged t p).notePass t ((h.judged t p).passOf t p))
  rw [probeJudge_pass hp ho hs, Hw.lastPass, hpassed]
  exact ⟨congrArg (Option.map ProbePass.time) (lastPass_notePass (h.judged t p) t ((h.judged t p).passOf t p)), hreg⟩

/-! ### The commands -/

section Commands
variable {s : State} (hl : s.hw.live = true)
include hl

/-- A command on a terminal. -/
theorem actOn_term {t : Nat} (ht : t < 640) (f : Hw → Hw) : actOn s (decide (t < nTerm)) f = .next { s with hw := f s.hw } := by
  rw [decide_eq_true ht, actOn_live s f hl]

/-- A command on a channel. -/
theorem actOn_chan {ch : Nat} (hc : ch < 320) (f : Hw → Hw) : actOn s (decide (ch < nChan)) f = .next { s with hw := f s.hw } := by
  rw [decide_eq_true hc, actOn_live s f hl]

/-- A command on a cluster. -/
theorem actOn_clus {k : Nat} (hk : k < 40) (f : Hw → Hw) : actOn s (decide (k < nClus)) f = .next { s with hw := f s.hw } := by
  rw [decide_eq_true hk, actOn_live s f hl]

end Commands

/-- Settles O2: comparator, saturation and probe, command by command; what a TERM_OPEN raises takes back neither the
open-wire state nor a bit of HRN_TSTAT (`follows_raiseOpen`, and the view of the staged registers). That the start of the
pulse is the probe's network time is the model's choice (log 186). -/
theorem openAndSaturation : Obligations.OpenAndSaturation := by
  unfold Obligations.OpenAndSaturation
  refine ⟨?_, ?_, ?_, ?_, ?_, ?_, ?_, ?_, ?_, ?_, ?_, ?_⟩
  · intro s ch hl hch hc ht hi ho
    exact ⟨_, actOn_chan hl hch (·.cmpTrip ch), cmpTrip_opens hc ht hi ho⟩
  · intro s ch hl hch hc ht hi
    refine ⟨_, actOn_chan hl hch (·.cmpTrip ch), ?_⟩
    rw [cmpTrip_of_isolated hc ht hi]
  · intro s ch hl hch ht
    refine ⟨_, actOn_chan hl hch (·.cmpClear ch), ?_⟩
    rw [cmpClear_of_tripped ht]
    exact ⟨cmpTripped_setCmp s.hw ch false, rfl, rfl⟩
  · intro s ch b hl hch hb ho hp hcmp hcomp
    refine ⟨_, actOn_chan hl hch (·.openStateEnd ch), ?_⟩
    rw [openStateEnd_of_clear hb ho hp ⟨hcmp, hcomp⟩]
    exact isOpen_leaveOpen s.hw ch
  · intro s ch hl hch he hs
    refine ⟨_, actOn_chan hl hch (·.satTrip ch), ?_⟩
    rw [satTrip_of_enabled he hs]
  · intro s ch hl hch
    exact ⟨_, actOn_chan hl hch (·.put (FE_STATUS_SAT ch) 0), rfl⟩
  · intro s t hl ht hen hprobe hr hd hi hp
    exact ⟨_, actOn_term hl ht (·.probeVisit t), probeVisit_of_free hen hprobe hr hd hi hp⟩
  · intro s t i p hl ht hp hterm hph hs hn hr
    refine ⟨_, actOn_term hl ht (·.probeStart t), ?_⟩
    rw [probeStart_of_strobed hp hterm hph hs hn hr]
  · intro s t p rise hl ht hp hterm hph hd ho
    exact ⟨_, actOn_term hl ht (·.probeJudge t rise), probeJudge_open_spec ht ⟨hp, hterm, hph, hd⟩ ho⟩
  · intro s t p rise hl ht hp hterm hph hd ho hs
    exact ⟨_, actOn_term hl ht (·.probeJudge t rise), probeJudge_short_spec ht ⟨hp, hterm, hph, hd⟩ ho hs⟩
  · intro s t p rise hl ht hp hterm hph hd ho hs
    exact ⟨_, actOn_term hl ht (·.probeJudge t rise), probeJudge_pass_spec ht ⟨hp, hterm, hph, hd⟩ ho hs⟩
  · intro s t p hl ht hp hterm hph hd
    refine ⟨_, actOn_term hl ht (·.probeRecovered t), ?_⟩
    rw [probeRecovered_of_due hp hterm hph hd]

end Sys2Proof.Machine

/-! ## The relief of a front end (R51, R105) -/

namespace Sys2Proof.Machine

theorem relief_setRelief (h : Hw) (k : Nat) (r : Option Relief) : (h.setRelief k r).relief k = r := storeGet_set_same _ _ k r

/-! ### The registers of a unit

A field of FE_UNIT keeps its value under a write of another of its fields, of another unit's, or of FE_STATUS. -/

theorem get_put_field (h : Hw) {a hi lo hi' lo' v : Nat} (hf : lo ≤ hi) (h31 : hi < 32) (hg : lo' ≤ hi')
    (hd : hi < lo' ∨ hi' < lo) : (h.put ⟨a, hi, lo⟩ v).get ⟨a, hi', lo'⟩ = h.get ⟨a, hi', lo'⟩ :=
  get_put_disjoint h ⟨a, hi, lo⟩ ⟨a, hi', lo'⟩ v hf h31 hg rfl hd

theorem get_putRole (h : Hw) (u v : Nat) : (h.put (FE_UNIT_ROLE u) v).get (FE_UNIT_ROLE u) = v % 4 :=
  get_put_same h _ v (Nat.zero_le _) (show 1 < 32 by decide)

theorem get_putUnit_other (h : Hw) {u w hi lo hi' lo' v : Nat} (hu : u ≠ w) :
    (h.put ⟨FE_UNIT w, hi, lo⟩ v).get ⟨FE_UNIT u, hi', lo'⟩ = h.get ⟨FE_UNIT u, hi', lo'⟩ :=
  get_put_other h ⟨FE_UNIT w, hi, lo⟩ ⟨FE_UNIT u, hi', lo'⟩ v (show 0x21000 + 4 * u ≠ 0x21000 + 4 * w by omega)

theorem get_putStatus_unit (h : Hw) {u ch hi lo hi' lo' v : Nat} (hc : ch < 320) :
    (h.put ⟨FE_STATUS ch, hi, lo⟩ v).get ⟨FE_UNIT u, hi', lo'⟩ = h.get ⟨FE_UNIT u, hi', lo'⟩ :=
  get_put_other h ⟨FE_STATUS ch, hi, lo⟩ ⟨FE_UNIT u, hi', lo'⟩ v (show 0x21000 + 4 * u ≠ 0x20800 + 4 * ch by omega)

/-! ### B0 -/

theorem reliefPrepare_spec {h : Hw} {ch b n : Nat} (hb : h.boundaryNow = some b) (hn : h.spareUnit (clusOfChan ch) = some n)
    (hc : h.reliefChan = some ch) (hr : h.relief (clusOfChan ch) = none) (hbar : h.barred ch = false)
    (hw : h.cal.feSince = none ∨ h.listsWaiting = false ∨ h.on ADC_SLACK_FORCING = true) :
    (h.reliefPrepare ch).relief (clusOfChan ch) =
      some { ch := ch, oldUnit := h.unitOfChan ch, newUnit := n, b0 := b, b1 := 0, phase := .prepared } ∧
    (h.reliefPrepare ch).on (FE_UNIT_PREP n) = true := by
  have hnot : ¬ (h.reliefChan = some ch ∧ h.relief (clusOfChan ch) = none ∧ h.barred ch = true) := by
    rw [hbar]; exact fun hx => Bool.false_ne_true hx.2.2
  simp only [Hw.reliefPrepare, hb, hn]
  rw [if_neg hnot, if_pos ⟨hc, hr, hw⟩]
  refine ⟨relief_setRelief h _ _, ?_⟩
  change Hw.on (((h.setRelief (clusOfChan ch) _).put (FE_UNIT_PREP n) 1).put (FE_UNIT_LOCAL n) (ch % 8)) (FE_UNIT_PREP n) = true
  rw [Hw.on, get_put_field _ (by decide) (by decide) (by decide) (by decide)]
  exact on_put_one _ (FE_UNIT_PREP n) (Nat.le_refl 5) (show 5 < 32 by decide)

/-! ### B1 -/

/-- The roles after the switch-over: the spare serves the channel, and the relieved unit is to be calibrated. -/
def Hw.swapRoles (h : Hw) (r : Relief) : Hw :=
  let h2 := ((h.put (FE_UNIT_ROLE r.newUnit) 0).put (FE_UNIT_LOCAL r.newUnit) (r.ch % 8)).put (FE_UNIT_PREP r.newUnit) 0
  (((h2.put (FE_UNIT_ROLE r.oldUnit) 2).put (FE_UNIT_LOCAL r.oldUnit) 0).put (FE_STATUS_UNIT r.ch) r.newUnit).put
    (FE_STATUS_CAL r.ch) 1

theorem reliefSwitch_of_settled {h : Hw} {k b : Nat} {r : Relief} (hr : h.relief k = some r) (hb : h.boundaryNow = some b)
    (hp : r.phase = .prepared) (hs : r.b0 + max (h.settleNs r.ch) 20000 * nsUnit ≤ b) :
    h.reliefSwitch k = (h.setRelief k (some { r with phase := .overlap, b1 := b })).swapRoles r := by
  simp only [Hw.reliefSwitch, hr, hb]
  rw [if_pos ⟨hp, hs⟩]
  rfl

theorem relief_swapRoles (h : Hw) (r : Relief) (k : Nat) : (h.swapRoles r).relief k = h.relief k := by
  simp only [Hw.swapRoles, Hw.relief, Hw.put_field]

theorem swapRoles_spec (h : Hw) {r : Relief} (hc : r.ch < 320) (hn : r.newUnit < 360) (hne : r.oldUnit ≠ r.newUnit) :
    (h.swapRoles r).get (FE_UNIT_ROLE r.newUnit) = 0 ∧ (h.swapRoles r).get (FE_UNIT_ROLE r.oldUnit) = 2 ∧
    (h.swapRoles r).unitOfChan r.ch = r.newUnit ∧ (h.swapRoles r).on (FE_STATUS_CAL r.ch) = true := by
  unfold Hw.swapRoles
  refine ⟨?_, ?_, ?_, ?_⟩
  · rw [get_putStatus_unit _ hc, get_putStatus_unit _ hc, get_putUnit_other _ (Ne.symm hne), get_putUnit_other _ (Ne.symm hne),
      get_put_field _ (by decide) (by decide) (by decide) (by decide),
      get_put_field _ (by decide) (by decide) (by decide) (by decide), get_putRole]
  · rw [get_putStatus_unit _ hc, get_putStatus_unit _ hc, get_put_field _ (by decide) (by decide) (by decide) (by decide),
      get_putRole]
  · rw [Hw.unitOfChan, get_put_field _ (by decide) (by decide) (by decide) (by decide),
      get_put_same _ (FE_STATUS_UNIT r.ch) _ (Nat.zero_le _) (show 8 < 32 by decide)]
    exact Nat.mod_eq_of_lt (show r.newUnit < 512 by omega)
  · exact on_put_one _ (FE_STATUS_CAL r.ch) (Nat.le_refl 15) (show 15 < 32 by decide)

/-! ### After the overlap -/

theorem reliefOpen_of_reached {h : Hw} {k : Nat} {r : Relief} (hr : h.relief k = some r) (hp : r.phase = .overlap)
    (ht : h.reached (r.b1 + 1100 * nsUnit) = true) : h.reliefOpen k =
      ((h.setRelief k (some { r with phase := .calibrating })).setInputs r.newUnit
        (if h.inputsOn r.ch then some r.ch else none)).setInputs r.oldUnit none := by
  simp only [Hw.reliefOpen, hr]
  exact if_pos ⟨hp, ht⟩

/-- ROLE is no part of CAL, whatever registers the units and the channel have. -/
theorem on_cal_putRole (h : Hw) (ch u v : Nat) : (h.put (FE_UNIT_ROLE u) v).on (FE_STATUS_CAL ch) = h.on (FE_STATUS_CAL ch) := by
  by_cases ha : FE_STATUS ch = FE_UNIT u
  · rw [Hw.on, Hw.on, get_put_disjoint h (FE_UNIT_ROLE u) (FE_STATUS_CAL ch) v (Nat.zero_le 1) (show 1 < 32 by decide)
      (Nat.le_refl 15) ha (Or.inl (show 1 < 15 by decide))]
  · exact on_put_other h (FE_UNIT_ROLE u) (FE_STATUS_CAL ch) v ha

theorem reliefFinish_of_ended {h : Hw} {k b : Nat} {r : Relief} (hr : h.relief k = some r) (hb : h.boundaryNow = some b)
    (hp : r.phase = .ended) : h.reliefFinish k = ((h.setRelief k none).put (FE_STATUS_CAL r.ch) 0).when
      (decide (h.feRole r.oldUnit = 2)) (fun h => h.put (FE_UNIT_ROLE r.oldUnit) 1) := by
  simp only [Hw.reliefFinish, hr, hb]
  exact if_pos hp

theorem reliefFinish_spec {h : Hw} {k b : Nat} {r : Relief} (hr : h.relief k = some r) (hb : h.boundaryNow = some b)
    (hp : r.phase = .ended) : (h.reliefFinish k).relief k = none ∧ (h.reliefFinish k).on (FE_STATUS_CAL r.ch) = false := by
  have hcal : ((h.setRelief k none).put (FE_STATUS_CAL r.ch) 0).on (FE_STATUS_CAL r.ch) = false :=
    on_put_zero _ (FE_STATUS_CAL r.ch) (Nat.le_refl 15) (show 15 < 32 by decide)
  rw [reliefFinish_of_ended hr hb hp]
  cases decide (h.feRole r.oldUnit = 2)
  · exact ⟨relief_setRelief h k none, hcal⟩
  · exact ⟨relief_setRelief h k none, (on_cal_putRole _ r.ch r.oldUnit 1).trans hcal⟩

/-- Settles O5: the four steps of a relief, one after the other. That UNIT, ROLE and CAL change at the switch-over is the
model's reading of R105 (log 88). -/
theorem frontEndRelief : Obligations.FrontEndRelief := by
  unfold Obligations.FrontEndRelief
  refine ⟨?_, ?_, ?_, ?_⟩
  · intro s ch b n hl hch _ hb hn hc hr hbar hw
    exact ⟨_, actOn_chan hl hch (·.reliefPrepare ch), reliefPrepare_spec hb hn hc hr hbar hw⟩
  · intro s k b r hl hk hr hb hp hs hch _ hnew hne
    refine ⟨_, actOn_clus hl hk (·.reliefSwitch k), ?_⟩
    rw [reliefSwitch_of_settled hr hb hp hs]
    exact ⟨(relief_swapRoles _ r k).trans (relief_setRelief s.hw k _), swapRoles_spec _ hch hnew hne⟩
  · intro s k r hl hk hr hp ht
    refine ⟨_, actOn_clus hl hk (·.reliefOpen k), ?_⟩
    rw [reliefOpen_of_reached hr hp ht]
  · intro s k b r hl hk hr hb hp
    exact ⟨_, actOn_clus hl hk (·.reliefFinish k), reliefFinish_spec hr hb hp⟩

end Sys2Proof.Machine

/-! ## Drivers 0.3 us after a frame boundary (R95, R100, R102, R103) -/

namespace Sys2Proof.Machine

/-! ### What a driver reads, operation by operation -/

theorem drv_setDrv (h : Hw) (d : Nat) (x : DriverSt) : (h.setDrv d x).drv d = x := storeGet_set_same _ _ d x

theorem drv_exWindows (h : Hw) (d x e : Nat) : (h.exWindows d x).drv e = h.drv e :=
  each_keeps (·.drv e) (fun h ch => h.exWindow d x ch) (fun _ _ => rfl) (h.linked d) h

theorem get_exWindows (h : Hw) (d x : Nat) (f : Fld) : (h.exWindows d x).get f = h.get f :=
  each_keeps (·.get f) (fun h ch => h.exWindow d x ch) (fun _ _ => rfl) (h.linked d) h

theorem drv_put (h : Hw) (f : Fld) (v d : Nat) : (h.put f v).drv d = h.drv d := (rfl)

theorem get_setDrv (h : Hw) (d : Nat) (x : DriverSt) (f : Fld) : (h.setDrv d x).get f = h.get f := (rfl)

/-- A polarity is written, and of the driver only its count of edges changes. -/
theorem drv_setPol (h : Hw) (d v : Nat) : ∃ n, (h.setPol d v).drv d = { h.drv d with edges := n } := by
  unfold Hw.setPol Hw.when
  split
  · exact ⟨_, (drv_setDrv _ d _).trans (by rw [drv_put])⟩
  · exact ⟨_, drv_put h _ v d⟩

theorem pol_setPol (h : Hw) (d : Nat) {v : Nat} (hv : v < 2) : (h.setPol d v).get (EXC_STATUS_POL d) = v := by
  have hput : (h.put (EXC_STATUS_POL d) v).get (EXC_STATUS_POL d) = v % 2 :=
    get_put_same h (EXC_STATUS_POL d) v (Nat.le_refl 21) (show 21 < 32 by decide)
  unfold Hw.setPol
  refine (when_keeps (·.get (EXC_STATUS_POL d)) _ _ _ ?_).trans (hput.trans (Nat.mod_eq_of_lt hv))
  exact get_setDrv _ d _ _

/-! ### A change -/

/-- Nothing keeps the output at 0: MODE is not 0, no reaction, SAFE or reversal holds the driver, and the hub runs. -/
def Hw.drives (h : Hw) (d : Nat) : Bool := decide (h.get (EXC_CFG_MODE d) ≠ 0) && !h.faultOff d && h.running

/-- The driver becomes a chopped one, which waits for its start frame. -/
def Hw.startsChopped (h : Hw) (d : Nat) : Bool :=
  h.drives d && decide (4 ≤ h.get (EXC_CFG_MODE d)) && !((h.drv d).on && decide (4 ≤ (h.drv d).mode))

/-- A driver with the settings that its registers give. -/
def Hw.taken (h : Hw) (d : Nat) : DriverSt :=
  { h.drv d with cfg := h.reg (EXC_CFG d), set := h.reg (EXC_SET d), chop := h.reg (EXC_CHOP d), wants := false, change := false,
                 on := h.drives d && !h.startsChopped d, chopWait := h.startsChopped d }

/-- R100: the driver takes its settings; one that is not driven as a chopped one shows no polarity, and its channels' windows
start. -/
theorem driverTake_eq (h : Hw) (d x : Nat) : h.driverTake d x =
    ((h.setDrv d (h.taken d)).when (!(h.drives d && decide (4 ≤ h.get (EXC_CFG_MODE d)) && !h.startsChopped d))
      (fun h => h.setPol d 0)).exWindows d x := (rfl)

theorem drv_when_setPol (h : Hw) (d : Nat) (c : Bool) :
    ∃ n, (h.when c (fun h => h.setPol d 0)).drv d = { h.drv d with edges := n } := by
  unfold Hw.when
  split
  · exact drv_setPol h d 0
  · exact ⟨(h.drv d).edges, rfl⟩

theorem drv_driverTake (h : Hw) (d x : Nat) : ∃ n, (h.driverTake d x).drv d = { h.taken d with edges := n } := by
  have hpol := drv_when_setPol (h.setDrv d (h.taken d)) d
    (!(h.drives d && decide (4 ≤ h.get (EXC_CFG_MODE d)) && !h.startsChopped d))
  rw [drv_setDrv] at hpol
  rw [driverTake_eq, drv_exWindows]
  exact hpol

/-- A chopped mode is not 0. -/
theorem startsChopped_eq (h : Hw) (d : Nat) : h.startsChopped d =
    (decide (4 ≤ h.get (EXC_CFG_MODE d)) && !h.faultOff d && h.running && !((h.drv d).on && decide (4 ≤ (h.drv d).mode))) := by
  unfold Hw.startsChopped Hw.drives
  by_cases hm : 4 ≤ h.get (EXC_CFG_MODE d)
  · rw [decide_eq_true hm, decide_eq_true (show h.get (EXC_CFG_MODE d) ≠ 0 by omega), Bool.and_true]
  · rw [decide_eq_false hm, Bool.and_false, Bool.false_and, Bool.false_and, Bool.false_and, Bool.false_and]

/-! ### Chopped drivers -/

/-- R102: in its start frame the driver is driven, positive first. -/
theorem chopStart_spec {h : Hw} {d i : Nat} (hi : h.driverInstant = some i) (hw : (h.drv d).chopWait = true)
    (hc : h.chopCount (h.drv d).group % (2 * (h.drv d).half) = 0) : ((h.chopStart d).drv d).on = true ∧
    ((h.chopStart d).drv d).chopWait = false ∧ (h.chopStart d).get (EXC_STATUS_POL d) = 0 := by
  have hstart : h.chopStart d =
      ((h.setDrv d { h.drv d with on := true, chopWait := false }).setPol d 0).exWindows d i := by
    simp only [Hw.chopStart, hi]
    exact if_pos ⟨hw, hc⟩
  obtain ⟨n, hn⟩ := drv_setPol (h.setDrv d { h.drv d with on := true, chopWait := false }) d 0
  rw [hstart, drv_exWindows, get_exWindows, hn, drv_setDrv]
  exact ⟨rfl, rfl, pol_setPol _ d (by decide)⟩

/-- R102: the polarity is that of the frame count, whether it changes at this instant or not. What a due probe notes of an
edge is neither the driver's nor a register's. -/
theorem chopEdge_spec {h : Hw} {d i : Nat} (hi : h.driverInstant = some i) (ho : (h.drv d).on = true)
    (hm : 4 ≤ (h.drv d).mode) :
    (h.chopEdge d).get (EXC_STATUS_POL d) = h.chopCount (h.drv d).group / (h.drv d).half % 2 ∧ ((h.chopEdge d).drv d).on = true := by
  have hpol := pol_setPol h d (Nat.mod_lt (h.chopCount (h.drv d).group / (h.drv d).half) (show 0 < 2 by decide))
  obtain ⟨n, hn⟩ := drv_setPol h d (h.chopCount (h.drv d).group / (h.drv d).half % 2)
  have hon := (congrArg DriverSt.on hn).trans ho
  simp only [Hw.chopEdge, hi]
  by_cases hp : h.chopCount (h.drv d).group / (h.drv d).half % 2 = h.get (EXC_STATUS_POL d)
  · rw [if_neg (fun ⟨_, _, hne⟩ => hne hp)]
    exact ⟨hp.symm, ho⟩
  · rw [if_pos ⟨ho, hm, hp⟩]
    split
    · exact ⟨hpol, hon⟩
    · exact ⟨hpol, hon⟩

/-! ### The commands -/

/-- A command on a driver. -/
theorem actOn_drv {s : State} (hl : s.hw.live = true) {d : Nat} (hd : d < 80) (f : Hw → Hw) :
    actOn s (decide (d < nDrv)) f = .next { s with hw := f s.hw } := by
  rw [decide_eq_true hd, actOn_live s f hl]

theorem exec_driverChange {s : State} {d i : Nat} (hl : s.hw.live = true) (hd : d < 80) (hi : s.hw.driverInstant = some i)
    (hc : (s.hw.drv d).change = true) : exec (.driverChange d) s = .next { s with hw := s.hw.driverTake d i } := by
  change actOn s (decide (d < nDrv)) _ = _
  rw [actOn_drv hl hd, hi]
  simp only [hc, if_true]

/-- Settles O4: the change, the start and the edge, each read off what the command makes of the driver's entry; the count of
edges is all that a written polarity changes there. -/
theorem driverInstants : Obligations.DriverInstants := by
  unfold Obligations.DriverInstants
  refine ⟨?_, ?_, ?_⟩
  · intro s d i hl hd hi hc
    obtain ⟨n, hn⟩ := drv_driverTake s.hw d i
    refine ⟨_, exec_driverChange hl hd hi hc, ?_⟩
    dsimp only
    rw [hn]
    exact ⟨rfl, rfl, rfl, rfl, startsChopped_eq s.hw d, rfl⟩
  · intro s d i hl hd hi hw hc
    exact ⟨_, actOn_drv hl hd (·.chopStart d), chopStart_spec hi hw hc⟩
  · intro s d i hl hd hi ho hm
    exact ⟨_, actOn_drv hl hd (·.chopEdge d), chopEdge_spec hi ho hm⟩

end Sys2Proof.Machine

/-! ## A safe state entered over a step of a unit that no hub has (R514, R558) -/

namespace Sys2Proof.Machine

/-- A hub whose firmware maps source `i` to class 3 with the safe state as its reaction, and that has a front-end step of
unit `u` under way. -/
def strayUnitHub (i u : Nat) : Hw :=
  { (hw0.put (FLT_MAP_CLASS i) 3).put (FLT_MAP_REACT i) 4 with
    boot := { hw0.boot with phase := .running }
    cal := { hw0.cal with feStep := some { strayStep with unit := u } } }

/-! ### The total's overcurrent -/

/-- The total has been above 2.0 A for 10 us; the role of unit 228,618 would stand where EXC_OVERCURRENT's INFO stands. -/
def strayOverHub : State :=
  { State.reset with hw := { strayUnitHub srcExcOvercurrent 228618 with
      time := { hw0.time with tick := 250 }
      field := { hw0.field with totalOver := some 0 } } }

theorem strayOverHub_live : strayOverHub.hw.live = true := by decide +kernel

theorem strayOverHub_due : strayOverHub.hw.due (0 + 10000) = true := by decide +kernel

/-- The raise writes 0x7F; the safe state then writes role 1 over its two lowest bits. -/
theorem strayOverHub_info :
    (strayOverHub.hw.totalSeen 2001).totalOvercurrent.get (FLT_INFO_INFO srcExcOvercurrent) = 0x7D := by decide +kernel

/-- The clause that the counterexample refutes. -/
theorem info_totalOvercurrent_of_driverLimits (h : Obligations.DriverLimits) {s : State} {since ma : Nat}
    (hl : s.hw.live = true) (hm : 2000 < ma) (ht : s.hw.field.totalOver = some since) (hd : s.hw.due (since + 10000) = true)
    (hr : s.hw.field.totalRaised = false) :
    (s.hw.totalSeen ma).totalOvercurrent.get (FLT_INFO_INFO srcExcOvercurrent) = 0x7F := by
  unfold Obligations.DriverLimits at h
  obtain ⟨-, -, -, htotal, -⟩ := h
  obtain ⟨x, hx, -, hinfo⟩ := htotal s since ma hl hm ht hd hr
  have hexec : exec (.vexcTotalOvercurrent ma) s = .next { s with hw := (s.hw.totalSeen ma).totalOvercurrent } :=
    actOn_live s (fun h => (h.totalSeen ma).totalOvercurrent) hl
  obtain rfl := Host.Outcome.next.inj (hexec.symm.trans hx)
  exact hinfo

/-- Refutes O3: in a state that holds a front-end step of unit 228,618 (no command makes one, but the statement is about
every state), the total's EXC_OVERCURRENT does not keep its INFO of 0x7F. The fault is mapped to the safe state; the safe
state abandons the step and writes role 1 to the step's unit, whose register would be that of the INFO. -/
theorem not_driverLimits : ¬ Obligations.DriverLimits := fun h =>
  have hinfo := info_totalOvercurrent_of_driverLimits h strayOverHub_live (by decide : 2000 < 2001) rfl strayOverHub_due rfl
  absurd (strayOverHub_info.symm.trans hinfo) (by decide)

/-! ### A frame boundary -/

/-- The frame that ends has left regular work undone; the role of unit 15,872 would stand where EXC_TOTAL stands. -/
def strayShortHub : State :=
  { State.reset with hw := { strayUnitHub srcSlackOverrun 15872 with seq := { hw0.seq with running := true } } }

theorem strayShortHub_live : strayShortHub.hw.live = true := by decide +kernel

theorem strayShortHub_boundary : strayShortHub.hw.nextBoundary = some 0 := by decide +kernel

/-- A total of 0 is measured; SLACK_OVERRUN's safe state then writes role 1 over it. -/
theorem strayShortHub_total :
    (strayShortHub.boundarySnap.hw.frameBoundary 0 []).get EXC_TOTAL_TOTAL = 1 := by decide +kernel

theorem exec_frameBoundary {s : State} (hl : s.hw.live = true) (ma : Nat) (im : List Nat) : exec (.frameBoundary ma im) s =
    .next { s.boundarySnap with hw := s.boundarySnap.hw.frameBoundary ma im } := by
  change execFrameBoundary ma im s = _
  rw [execFrameBoundary, hl]
  rfl

/-- The clause that the counterexample refutes. -/
theorem total_of_frameBoundaryActs (h : Obligations.FrameBoundaryActs) {s : State} {b : Nat} (ma : Nat) (im : List Nat)
    (hl : s.hw.live = true) (hb : s.hw.nextBoundary = some b) :
    (s.boundarySnap.hw.frameBoundary ma im).get EXC_TOTAL_TOTAL = min ma 65535 := by
  unfold Obligations.FrameBoundaryActs at h
  obtain ⟨x, hx, -, htotal, -⟩ := h s b ma im hl hb
  obtain rfl := Host.Outcome.next.inj ((exec_frameBoundary hl ma im).symm.trans hx)
  exact htotal

/-- Refutes O7: in a state that holds a front-end step of unit 15,872 (no command makes one, but the statement is about every
state), EXC_TOTAL does not show the measured total of 0. The frame that ends was cut short; SLACK_OVERRUN is mapped to the
safe state, which abandons the step and writes role 1 to the step's unit, whose register would be EXC_TOTAL. -/
theorem not_frameBoundaryActs : ¬ Obligations.FrameBoundaryActs := fun h =>
  have htotal := total_of_frameBoundaryActs h 0 [] strayShortHub_live strayShortHub_boundary
  absurd (strayShortHub_total.symm.trans htotal) (by decide)

end Sys2Proof.Machine

/-! ## A placed strobe stays (R124) -/

namespace Sys2Proof.Machine

/-! ### Groups -/

theorem grp_of_smp {h h' : Hw} (hs : h'.smp = h.smp) (g : Nat) : h'.grp g = h.grp g := by
  rw [Hw.grp, hs]; rfl

theorem grp_setGrp (h : Hw) (k g : Nat) (x : GroupSt) : (h.setGrp k x).grp g = if g = k then x else h.grp g :=
  storeGet_set _ _ _ _ _

/-- The strobe that a group has placed. -/
def Hw.placedOf (h : Hw) (g : Nat) : Option Placed := (h.grp g).placed

theorem placedOf_of_smp {h h' : Hw} (hs : h'.smp = h.smp) (g : Nat) : h'.placedOf g = h.placedOf g :=
  congrArg GroupSt.placed (grp_of_smp hs g)

theorem placedOf_setGrp (h : Hw) (k g : Nat) {x : GroupSt} (hx : x.placed = h.placedOf k) :
    (h.setGrp k x).placedOf g = h.placedOf g := by
  rw [Hw.placedOf, grp_setGrp]
  split
  next hg => rw [hx, hg]
  next => rfl

theorem placedOf_put (h : Hw) (f : Fld) (v g : Nat) : (h.put f v).placedOf g = h.placedOf g :=
  placedOf_of_smp (Hw.put_smp h f v) g

/-! ### What leaves the schedule alone -/

theorem smp_showTimePend (h : Hw) : h.showTimePend.smp = h.smp := (rfl)

theorem smp_stepReject (h : Hw) (info : Nat) : (h.stepReject info).smp = h.smp := Hw.raise_smp _ _ _

theorem smp_dropHeld (h : Hw) (q : Requester) (base n : Nat) : (h.dropHeld q base n).smp = h.smp :=
  each_keeps Hw.smp _ (fun _ _ => Hw.setHeld_smp _ _ _ _) _ h

theorem smp_domTick (h : Hw) : h.domTick.smp = h.smp := by
  refine each_keeps Hw.smp _ (fun h d => ?_) _ h
  dsimp only
  split
  · split
    · exact (congrArg Still.smp (still_wake _ d)).trans (Hw.setDom_smp _ _ _)
    · exact Hw.setDom_smp _ _ _
  · rfl

theorem smp_closeMoving (h : Hw) (x : SwitchId) : (h.closeMoving x).smp = h.smp := by cases x <;> rfl

theorem smp_switchTick (h : Hw) : h.switchTick.smp = h.smp := by
  unfold Hw.switchTick
  refine (each_keeps Hw.smp _ (fun h q => ?_) _ _).trans (when_keeps Hw.smp _ _ _ ?_)
  · split
    · exact when_keeps Hw.smp _ _ _ (Hw.setInputs_smp _ _ _)
    · rfl
  · exact each_keeps Hw.smp _ smp_closeMoving _ h

/-! ### Rates, steps and loads (R487 to R489) -/

theorem smp_incrWrite (h : Hw) (q : Requester) (v : Word) : (h.incrWrite q v).smp = h.smp := by
  simp [Hw.incrWrite, apply_ite Hw.smp, smp_dropHeld]

theorem smp_adjWrite (h : Hw) (q : Requester) (v : Word) : (h.adjWrite q v).smp = h.smp := by
  have hflag (h : Hw) (c : Bool) (f : Fld) : (h.when c (fun h => h.flag f)).smp = h.smp :=
    when_keeps Hw.smp _ c h (Hw.flag_smp h f)
  simp [Hw.adjWrite, apply_ite Hw.smp, smp_stepReject, smp_showTimePend, hflag, smp_dropHeld]

theorem smp_setWrite (h : Hw) (q : Requester) (v : Word) : (h.setWrite q v).smp = h.smp := by
  simp [Hw.setWrite, apply_ite Hw.smp, smp_stepReject, smp_showTimePend, smp_dropHeld]

/-! ### Sync requests (R129, R131) -/

theorem placed_resolve {x y : GroupSt} {f src edge : Nat} (hy : x.resolve f src edge = some y) : y.placed = x.placed := by
  unfold GroupSt.resolve at hy
  dsimp only at hy
  split at hy
  · split at hy <;> cases hy
    rfl
  · cases hy
    rfl

theorem placedOf_resolveReq (h : Hw) (r : SyncReq) (g : Nat) : (h.resolveReq r).1.placedOf g = h.placedOf g := by
  unfold Hw.resolveReq
  split
  · refine foldl_keeps (fun p : Hw × SyncReq => p.1.placedOf g = h.placedOf g) _ (fun p k hp => ?_) _ _ rfl
    dsimp only
    split
    · split
      next hy => exact (placedOf_setGrp _ _ _ (placed_resolve hy)).trans hp
      next => exact hp
    · exact hp
  · rfl

theorem placedOf_settleReqs (h : Hw) (g : Nat) : h.settleReqs.placedOf g = h.placedOf g :=
  foldl_keeps (fun p : Hw × List SyncReq => p.1.placedOf g = h.placedOf g) _
    (fun p r hp => (placedOf_resolveReq p.1 r g).trans hp) _ _ rfl

theorem placedOf_syncRequest (h : Hw) (t mask src g : Nat) : (h.syncRequest t mask src).placedOf g = h.placedOf g :=
  placedOf_settleReqs _ g

theorem placedOf_pinTick (h : Hw) (g : Nat) : h.pinTick.placedOf g = h.placedOf g := by
  unfold Hw.pinTick
  split
  · rfl
  · exact placedOf_syncRequest _ _ _ _ g
  · rfl

theorem placedOf_dropIgnored (h : Hw) (g : Nat) : h.dropIgnored.placedOf g = h.placedOf g := by
  unfold Hw.dropIgnored
  split <;> rfl

/-! ### The tick (R484) -/

/-- A load hands the groups' next grids over. -/
theorem placedOf_timeLoad (h : Hw) (t g : Nat) : (h.timeLoad t).placedOf g = h.placedOf g := by
  unfold Hw.timeLoad
  dsimp only
  rw [apply_ite (fun h => Hw.placedOf h g), placedOf_put, placedOf_put, ite_self]
  refine (each_keeps (fun h => h.placedOf g) _ (fun h k => ?_) _ _).trans ?_
  · split
    · exact placedOf_setGrp h k g rfl
    · rfl
  · split <;> rfl

theorem placedOf_tickTime (h : Hw) (g : Nat) : h.tickTime.placedOf g = h.placedOf g := by
  have hflag (h : Hw) (c : Bool) (f : Fld) : (h.when c (fun h => h.flag f)).placedOf g = h.placedOf g :=
    when_keeps (fun h => h.placedOf g) _ c h (placedOf_put h f 1 g)
  have hreject (h : Hw) (c : Bool) (i : Nat) : (h.when c (fun h => h.stepReject i)).placedOf g = h.placedOf g :=
    when_keeps (fun h => h.placedOf g) _ c h (placedOf_of_smp (smp_stepReject h i) g)
  unfold Hw.tickTime
  dsimp only
  rw [placedOf_of_smp (smp_showTimePend _) g]
  split
  · rw [hflag, placedOf_timeLoad]
    rfl
  · rw [hreject]
    rfl

/-- What a tick does to a live hub that has REFCLK. -/
theorem placedOf_tick (h : Hw) (g : Nat) : h.tickTime.dropIgnored.pinTick.domTick.switchTick.placedOf g = h.placedOf g :=
  calc h.tickTime.dropIgnored.pinTick.domTick.switchTick.placedOf g
    _ = h.tickTime.dropIgnored.pinTick.domTick.placedOf g := placedOf_of_smp (smp_switchTick _) g
    _ = h.tickTime.dropIgnored.pinTick.placedOf g := placedOf_of_smp (smp_domTick _) g
    _ = h.tickTime.dropIgnored.placedOf g := placedOf_pinTick _ g
    _ = h.tickTime.placedOf g := placedOf_dropIgnored _ g
    _ = h.placedOf g := placedOf_tickTime h g

/-! ### The commands -/

theorem exec_timIncrWrite (q : Requester) (v : Word) (s : State) :
    exec (.timIncrWrite q v) s = accWrite s q true (fun h => h.incrWrite q v) := (rfl)

theorem exec_timAdjWrite (q : Requester) (v : Word) (s : State) :
    exec (.timAdjWrite q v) s = accWrite s q true (fun h => h.adjWrite q v) := (rfl)

theorem exec_timSetWrite (q : Requester) (v : Word) (s : State) :
    exec (.timSetWrite q v) s = accWrite s q true (fun h => h.setWrite q v) := (rfl)

theorem placedOf_aonTick {s t : State} (ht : exec .aonTick s = .next t) (g : Nat) : t.hw.placedOf g = s.hw.placedOf g := by
  change execAonTick s = .next t at ht
  obtain ⟨-, ⟨-, rfl⟩ | ⟨-, rfl⟩⟩ := actOn_next s t _ _ ht
  · dsimp only
    split
    · rfl
    · exact placedOf_tick s.hw g
  · rfl

theorem placedOf_accWrite {s t : State} {q : Requester} {b : Bool} {f : Hw → Hw} {g : Nat}
    (hf : (f s.hw).placedOf g = s.hw.placedOf g) (ht : accWrite s q b f = .next t) :
    t.hw.placedOf g = s.hw.placedOf g := by
  obtain ⟨-, rfl⟩ := accWrite_next s t q b f ht
  dsimp only
  split
  · exact hf
  · rfl

/-- Settles O10: the tick hands over grids and gives groups their resets, and neither touches what is placed; rates, steps
and loads wait for their tick, and no write of them reaches the schedule. -/
theorem placedStrobesStay : Obligations.PlacedStrobesStay := by
  unfold Obligations.PlacedStrobesStay
  rintro s t c g (rfl | ⟨q, v, rfl⟩ | ⟨q, v, rfl⟩ | ⟨q, v, rfl⟩) ht
  · exact placedOf_aonTick ht g
  · exact placedOf_accWrite (placedOf_of_smp (smp_incrWrite s.hw q v) g) ((exec_timIncrWrite q v s).symm.trans ht)
  · exact placedOf_accWrite (placedOf_of_smp (smp_adjWrite s.hw q v) g) ((exec_timAdjWrite q v s).symm.trans ht)
  · exact placedOf_accWrite (placedOf_of_smp (smp_setWrite s.hw q v) g) ((exec_timSetWrite q v s).symm.trans ht)

end Sys2Proof.Machine

/-! ## Where a strobe is placed (R123) -/

namespace Sys2Proof.Machine

/-- Rounding is out by at most a half. -/
theorem roundHalfEven_near (n : Int) {d : Nat} (hd : 0 < d) :
    2 * (roundHalfEven n d * d) ≤ 2 * n + d ∧ 2 * n ≤ 2 * (roundHalfEven n d * d) + d := by
  have hdiv : n / (d : Int) * d + n % (d : Int) = n := Int.ediv_mul_add_emod n d
  have hrest : ((n % (d : Int)).toNat : Int) = n % (d : Int) := Int.toNat_of_nonneg (Int.emod_nonneg n (by omega))
  have hlt : n % (d : Int) < d := Int.emod_lt_of_pos n (by omega)
  have hup : (n / (d : Int) + 1) * d = n / (d : Int) * d + d := by ring
  unfold roundHalfEven
  dsimp only
  repeat' split
  all_goals omega

theorem roundHalfEven_nonneg {n : Int} (hn : 0 ≤ n) (d : Nat) : 0 ≤ roundHalfEven n d := by
  have hdiv : 0 ≤ n / (d : Int) := Int.ediv_nonneg hn (by omega)
  unfold roundHalfEven
  dsimp only
  repeat' split
  all_goals omega

/-- The fine taps of a share `r` of `d`, in 800 to the whole. -/
def fineTaps (r d : Nat) : Nat := (roundHalfEven ((r * 800 : Nat) : Int) d).toNat

/-- The taps are out by at most half a tap. -/
theorem fineTaps_near (r : Nat) {d : Nat} (hd : 0 < d) :
    2 * (fineTaps r d * d) ≤ 2 * (r * 800) + d ∧ 2 * (r * 800) ≤ 2 * (fineTaps r d * d) + d := by
  have hnear := roundHalfEven_near ((r * 800 : Nat) : Int) hd
  have hcast : ((fineTaps r d : Nat) : Int) = roundHalfEven ((r * 800 : Nat) : Int) d :=
    Int.toNat_of_nonneg (roundHalfEven_nonneg (Int.natCast_nonneg _) d)
  rw [← hcast] at hnear
  exact_mod_cast hnear

theorem fineTaps_le {r d : Nat} (hr : r < d) : fineTaps r d ≤ 800 := by
  obtain ⟨hle, -⟩ := fineTaps_near r (Nat.zero_lt_of_lt hr)
  have hlt : fineTaps r d < 801 := Nat.lt_of_mul_lt_mul_right (a := d) (by omega)
  omega

/-- The taps never make up the 1,024 that would carry into the coarse steps. -/
theorem coarseFine_eq (i t : Nat) {incr : Nat} (hi : 0 < incr) :
    coarseFine i t incr = ((i - t) * 40 / incr, fineTaps ((i - t) * 40 % incr) incr) := by
  have hle : fineTaps ((i - t) * 40 % incr) incr ≤ 800 := fineTaps_le (Nat.mod_lt _ hi)
  have hcarry : fineTaps ((i - t) * 40 % incr) incr ≠ 1024 := by omega
  exact if_neg hcarry

/-- Settles O12: whole steps are exact, and the taps round what is left of a step to the nearest. -/
theorem strobePlacement : Obligations.StrobePlacement := by
  unfold Obligations.StrobePlacement
  intro i t incr hi _
  rw [coarseFine_eq i t hi]
  obtain ⟨hle, hge⟩ := fineTaps_near ((i - t) * 40 % incr) hi
  have hwhole : (i - t) * 40 / incr * incr + (i - t) * 40 % incr = (i - t) * 40 := Nat.div_add_mod' _ _
  refine ⟨?_, ?_, fineTaps_le (Nat.mod_lt _ hi)⟩
  · norm_cast
    linarith
  · norm_cast
    linarith

end Sys2Proof.Machine

/-! ## A scheduled request under a rate of 0 (R132, R484) -/

namespace Sys2Proof.Machine

/-- A hub with a scheduled request of group 0 whose boundary is at 0 s, where network time stands still. -/
def standingHub : State :=
  { State.reset with hw := { hw0 with
      boot := { hw0.boot with phase := .running }
      time := { hw0.time with incr := 0, tick := 1 }
      smp := { hw0.smp with armReq := some (0, 1, 0) } } }

theorem standingHub_live : standingHub.hw.live = true := by decide +kernel

/-- No tick interval takes the boundary in, as the tick has no length. -/
theorem standingHub_notReached : standingHub.hw.reached (standingHub.hw.boundaryFrom 0) = false := by decide +kernel

/-- Yet network time stands at the boundary, so the request is late, and dropped. -/
theorem standingHub_dropped :
    standingHub.hw.syncEval.smp.reqs.any (fun r => decide (r.time = 0 ∧ r.mask = 1 ∧ r.src = 4)) = false := by decide +kernel

theorem exec_syncScheduleEval {s : State} (hl : s.hw.live = true) :
    exec .syncScheduleEval s = .next { s with hw := s.hw.syncEval } := actOn_live s Hw.syncEval hl

/-- The clause that the counterexample refutes. -/
theorem waits_syncEval_of_strobes (h : Obligations.Strobes) {s : State} {t mask tick : Nat} (hl : s.hw.live = true)
    (ha : s.hw.smp.armReq = some (t, mask, tick)) (ht : tick < s.hw.time.tick)
    (hb : s.hw.reached (s.hw.boundaryFrom t) = false) (hm : mask ≠ 0) :
    s.hw.syncEval.smp.reqs.any (fun r => decide (r.time = t ∧ r.mask = mask ∧ r.src = 4)) = true := by
  unfold Obligations.Strobes at h
  obtain ⟨-, -, -, -, -, -, -, -, -, hwaits⟩ := h
  obtain ⟨x, hx, -, hany⟩ := hwaits s t mask tick hl ha ht hb hm
  obtain rfl := Host.Outcome.next.inj ((exec_syncScheduleEval hl).symm.trans hx)
  exact hany

/-- Refutes O11: in a state whose rate is 0 (no write of TIM_INCR gives it, but the statement is about every state), network
time stands at the request's boundary and no tick reaches it. The request does not wait for its boundary: it is late, and with
LATE_ACT = 0 it is dropped. -/
theorem not_strobes : ¬ Obligations.Strobes := fun h =>
  have hany := waits_syncEval_of_strobes h standingHub_live rfl (by decide : 0 < 1) standingHub_notReached Nat.one_ne_zero
  absurd (standingHub_dropped.symm.trans hany) Bool.false_ne_true

end Sys2Proof.Machine

/-! ## An entry that a walk issues (R222 to R224, R235, R238) -/

namespace Sys2Proof.Machine

/-- The hub once a walk has read its entry and moved to its next place, before the entry acts. -/
def Hw.issued (h : Hw) (w : Walk) (u : Word72) (next : Place) : Hw :=
  ((h.fetchEffect w u).noteIssue w next).setPlace w next

/-- The place after the one where a walk stands. -/
abbrev Hw.onward (h : Hw) (w : Walk) : Place := ((h.placeOf w).1 + 1, (h.placeOf w).2)

theorem issuesAs_iff {h : Hw} {w : Walk} {u : Word72} {e : Entry} {next : Place} : h.issuesAs w u e next = true ↔
    h.live = true ∧ h.walkReady w = true ∧ h.nextEntry w u = .entry e ∧ h.breachStart w e = false ∧
    e.after (h.placeOf w) = some next := by
  simp [Hw.issuesAs, and_assoc]

theorem live_of_issuesAs {h : Hw} {w : Walk} {u : Word72} {e : Entry} {next : Place} (hi : h.issuesAs w u e next = true) :
    h.live = true := (issuesAs_iff.mp hi).1

theorem ready_of_issuesAs {h : Hw} {w : Walk} {u : Word72} {e : Entry} {next : Place} (hi : h.issuesAs w u e next = true) :
    h.walkReady w = true :=
  have ⟨_, hready, _⟩ := issuesAs_iff.mp hi
  hready

/-- An entry of the command's kind: the walk moves, the field die follows its mirror, and the rest of the entry acts. -/
theorem issue_of_issuesAs {h : Hw} {w : Walk} {u : Word72} {e : Entry} {next : Place} (hi : h.issuesAs w u e next = true)
    (f : Hw → Entry → Hw) {kind : Entry → Bool} (hk : kind e = true) : h.issue w u kind f =
      f ((h.issued w u next).fieldStep w (h.mirrored w (h.placeOf w).1)) e := by
  obtain ⟨-, hready, hentry, hbreach, hafter⟩ := issuesAs_iff.mp hi
  simp only [Hw.issue, hready, hentry, hbreach, hk, hafter]
  rfl

/-! ### The read of an entry (R238)

It corrects the live copy and counts, and nothing else. -/

theorem readLive_keeps {β : Type} (q : Hw → β) (hlive : ∀ (h : Hw) (e : Nat) (c : Word72), q (h.setLive e c) = q h)
    (hcount : ∀ h : Hw, q (h.bump SEQ_SCRUB_CE_COUNT 1) = q h) (h : Hw) (e : Nat) (u : Word72) :
    q (h.readLive e u).1 = q h := by
  unfold Hw.readLive
  dsimp only
  split
  · exact (when_keeps q (fun h => h.bump SEQ_SCRUB_CE_COUNT 1) _ _ (hcount _)).trans (hlive h e _)
  · exact hlive h e _

/-- A field that the count of corrected entries does not reach. -/
abbrev OffScrubCount (f : Fld) : Prop := f.addr ≠ 0x70028 ∨ (f.lo ≤ f.hi ∧ f.hi < 16)

theorem get_bumpScrub (h : Hw) (f : Fld) (hf : OffScrubCount f) : (h.bump SEQ_SCRUB_CE_COUNT 1).get f = h.get f := by
  by_cases ha : f.addr = 0x70028
  · obtain ⟨hlo, hhi⟩ := hf.resolve_left (not_not_intro ha)
    exact get_put_disjoint h SEQ_SCRUB_CE_COUNT f _ (by decide) (by decide) hlo ha (Or.inr hhi)
  · exact get_put_other h SEQ_SCRUB_CE_COUNT f _ ha

theorem get_readLive (h : Hw) (e : Nat) (u : Word72) (f : Fld) (hf : OffScrubCount f) : (h.readLive e u).1.get f = h.get f :=
  readLive_keeps (·.get f) (fun _ _ _ => rfl) (fun h => get_bumpScrub h f hf) h e u

theorem readLive_adc (h : Hw) (e : Nat) (u : Word72) : (h.readLive e u).1.adc = h.adc :=
  readLive_keeps Hw.adc (fun _ _ _ => rfl) (fun h => Hw.bump_adc h _ 1) h e u

theorem readLive_cal (h : Hw) (e : Nat) (u : Word72) : (h.readLive e u).1.cal = h.cal :=
  readLive_keeps Hw.cal (fun _ _ _ => rfl) (fun h => Hw.bump_cal h _ 1) h e u

theorem readLive_ns (h : Hw) (e : Nat) (u : Word72) : (h.readLive e u).1.ns = h.ns :=
  congrArg (fun t : TimeSt => 40 * t.tick) (readLive_keeps Hw.time (fun _ _ _ => rfl) (fun h => Hw.bump_time h _ 1) h e u)

/-! ### Where a list stands once its entry has been issued -/

theorem get_issued (h : Hw) {w : Walk} (hw : w ≠ .regular) (u : Word72) (next : Place) (f : Fld) (hf : OffScrubCount f) :
    (h.issued w u next).get f = h.get f := by
  cases w with
  | regular => exact absurd rfl hw
  | list => exact get_readLive h _ u f hf
  | cal => exact get_readLive h _ u f hf

theorem again_issued_list (h : Hw) (u : Word72) (next : Place) (l : Nat) :
    (h.issued .list u next).on (ADC_IL_STAT_AGAIN l) = h.on (ADC_IL_STAT_AGAIN l) := by
  rw [Hw.on, Hw.on, get_issued h (by decide) u next (ADC_IL_STAT_AGAIN l) (Or.inr (show 3 ≤ 3 ∧ 3 < 16 by decide))]

theorem issued_list_run {h : Hw} {r : ListRun} (hr : h.adc.run = some r) (u : Word72) (next : Place) :
    (h.issued .list u next).adc.run = some { r with pc := next.1, stack := next.2 } := by
  change (h.readLive (h.placeOf .list).1 u).1.adc.run.map _ = _
  rw [readLive_adc, hr]
  rfl

theorem issued_cal_run {h : Hw} {r : CalRun} (hr : h.adc.calRun = some r) (u : Word72) (next : Place) :
    (h.issued .cal u next).adc.calRun = some { r with pc := next.1, stack := next.2 } := by
  change (h.readLive (h.placeOf .cal).1 u).1.adc.calRun.map _ = _
  rw [readLive_adc, hr]
  rfl

theorem issued_cal_calIssued (h : Hw) (u : Word72) (next : Place) : (h.issued .cal u next).adc.calIssued = h.ns :=
  readLive_ns h _ u

theorem issued_cal_cal (h : Hw) (u : Word72) (next : Place) : (h.issued .cal u next).cal = h.cal := readLive_cal h _ u

theorem issued_cal_ns (h : Hw) (u : Word72) (next : Place) : (h.issued .cal u next).ns = h.ns := readLive_ns h _ u

theorem placeOf_list_of_run {h : Hw} {r : ListRun} (hr : h.adc.run = some r) : h.placeOf .list = (r.pc, r.stack) := by
  simp only [Hw.placeOf, hr, Option.map_some, Option.getD_some]

theorem placeOf_cal_of_run {h : Hw} {r : CalRun} (hr : h.adc.calRun = some r) : h.placeOf .cal = (r.pc, r.stack) := by
  simp only [Hw.placeOf, hr, Option.map_some, Option.getD_some]

theorem run_of_listReady {h : Hw} (hw : h.walkReady .list = true) : ∃ r, h.adc.run = some r := by
  obtain ⟨-, hany⟩ := Bool.and_eq_true_iff.mp hw
  obtain ⟨r, hr, -⟩ := (Option.any_eq_true _ _).mp hany
  exact ⟨r, hr⟩

theorem run_of_calReady {h : Hw} (hw : h.walkReady .cal = true) : ∃ r, h.adc.calRun = some r := by
  simp only [Hw.walkReady, Hw.calReady, Bool.and_eq_true] at hw
  obtain ⟨⟨-, hany⟩, -⟩ := hw
  obtain ⟨r, hr, -⟩ := (Option.any_eq_true _ _).mp hany
  exact ⟨r, hr⟩

end Sys2Proof.Machine

/-! ## The entries of injected and calibration lists (R160, R161, R221, R222, R230, R511) -/

namespace Sys2Proof.Machine

/-! ### Claims -/

/-- Waking clocks changes the clocks alone. -/
theorem wake_keeps {β : Type} (q : Hw → β) (hclk : ∀ (h : Hw) (x : ClkSt), q { h with clk := x } = q h) (h : Hw) (d : Domain) :
    q (h.wake d) = q h := by
  have hset (x : DomSt) : q (h.setDom d x) = q h := by cases d <;> exact hclk h _
  unfold Hw.wake
  dsimp only
  split
  · split
    · rfl
    · exact hset _
  · exact hset _
  · rfl

theorem wakeConv_keeps {β : Type} (q : Hw → β) (hclk : ∀ (h : Hw) (x : ClkSt), q { h with clk := x } = q h) (h : Hw)
    (cores : List Nat) : q (h.wakeConv cores) = q h :=
  (wake_keeps q hclk _ _).trans
    ((each_keeps q _ (fun h c => wake_keeps q hclk h (.conv c)) cores _).trans (wake_keeps q hclk h _))

theorem wakeConv_adc (h : Hw) (cores : List Nat) : (h.wakeConv cores).adc = h.adc :=
  wakeConv_keeps Hw.adc (fun _ _ => rfl) h cores

theorem claimAux_run {h : Hw} {r : ListRun} (hr : h.adc.run = some r) (src : Nat) (stream : Option Nat) :
    (h.claimAux src stream).adc.run = some { r with
      claims := r.claims ++ [.aux r.list src stream], since := if r.claims.isEmpty then h.time.now else r.since } := by
  unfold Hw.claimAux
  rw [wakeConv_adc]
  exact congrArg (Option.map _) hr

/-- The conversions that a CCONV claims, of the entry numbered `entry` of its run. -/
def cconvClaims (aux : Bool) (src core n acc entry : Nat) : List CalClaim :=
  (List.range n).map (fun i => { aux := aux, src := src, acc := acc, core := core, entry := entry, first := decide (i = 0) })

theorem claimCal_run {h : Hw} {r : CalRun} (hr : h.adc.calRun = some r) (aux : Bool) (src core n acc : Nat) :
    (h.claimCal aux src core n acc).adc.calRun = some { r with
      claims := h.calClaims ++ cconvClaims aux src core n acc r.issued, issued := r.issued + 1,
      since := if h.calClaims.isEmpty then h.time.now else r.since } := by
  unfold Hw.claimCal
  rw [wakeConv_adc]
  exact congrArg (Option.map _) hr

theorem claimCal_calIssued (h : Hw) (aux : Bool) (src core n acc : Nat) :
    (h.claimCal aux src core n acc).adc.calIssued = h.adc.calIssued := by
  unfold Hw.claimCal
  rw [wakeConv_adc]

/-- Whatever the field die finds in its mirror, it changes the converter pool and the clocks alone. -/
theorem fieldStep_keeps {β : Type} (q : Hw → β) (hclk : ∀ (h : Hw) (x : ClkSt), q { h with clk := x } = q h)
    (hadc : ∀ (h : Hw) (x : AdcSt), q { h with adc := x } = q h) (h : Hw) (w : Walk) (e : Option Entry) :
    q (h.fieldStep w e) = q h := by
  unfold Hw.fieldStep
  split
  · exact (wakeConv_keeps q hclk _ _).trans (hadc h _)
  · exact (wakeConv_keeps q hclk _ _).trans (hadc h _)
  · exact (wakeConv_keeps q hclk _ _).trans (hadc h _)
  · rfl

/-! ### The claims that are left

They follow from the run's claims and from the roles of the cores and front ends. -/

theorem dropIdle_congr {g h : Hw} (e : g.calIdleClaim = h.calIdleClaim) :
    ∀ (fuel : Nat) (cs : List CalClaim), g.dropIdle fuel cs = h.dropIdle fuel cs := by
  intro fuel
  induction fuel with
  | zero => intro cs; rfl
  | succ fuel ih =>
    intro cs
    unfold Hw.dropIdle
    rw [e]
    split
    · exact ih _
    · rfl

/-- The count of corrected entries is no part of a role, whatever register a claim's source has. -/
theorem calIdleClaim_issued_cal (h : Hw) (u : Word72) (next : Place) :
    (h.issued .cal u next).calIdleClaim = h.calIdleClaim := by
  funext k
  have hcore : (h.issued .cal u next).roleOf k.core = h.roleOf k.core :=
    get_issued h (by decide) u next (ADC_CORE_STAT_ROLE k.core) (Or.inr (show 0 ≤ 1 ∧ 1 < 16 by decide))
  have hfe : (h.issued .cal u next).get (FE_UNIT_ROLE k.src) = h.get (FE_UNIT_ROLE k.src) :=
    get_issued h (by decide) u next (FE_UNIT_ROLE k.src) (Or.inr (show 0 ≤ 1 ∧ 1 < 16 by decide))
  simp only [Hw.calIdleClaim, hcore, hfe]

theorem calClaims_issued_cal {h : Hw} {r : CalRun} (hr : h.adc.calRun = some r) (u : Word72) (next : Place) :
    (h.issued .cal u next).calClaims = h.calClaims := by
  simp only [Hw.calClaims, issued_cal_run hr, hr, Option.map_some, dropIdle_congr (calIdleClaim_issued_cal h u next)]

/-! ### The end of a list's run (R160, R161) -/

theorem listOver_idle {h : Hw} {l : Nat} (ha : h.on (ADC_IL_STAT_AGAIN l) = false) :
    h.listOver l = Hw.put { h with adc := { h.adc with run := none } } (ADC_IL_STAT_STATE l) 0 :=
  if_neg (ne_true_of_eq_false ha)

theorem listOver_again {h : Hw} {l : Nat} (ha : h.on (ADC_IL_STAT_AGAIN l) = true) : h.listOver l =
    ((Hw.put { h with adc := { h.adc with run := none } } (ADC_IL_STAT_AGAIN l) 0).put (ADC_IL_STAT_STATE l) 1).setIlAt l
      (storeGet (fun _ => (0, 0)) h.adc.ilAgain l).1 (storeGet (fun _ => (0, 0)) h.adc.ilAgain l).2 :=
  if_pos ha

theorem listOver_idle_spec {h : Hw} {l : Nat} (ha : h.on (ADC_IL_STAT_AGAIN l) = false) :
    (h.listOver l).adc.run = none ∧ (h.listOver l).ilState l = 0 := by
  rw [listOver_idle ha]
  exact ⟨congrArg AdcSt.run (Hw.put_adc _ _ 0), get_put_same _ (ADC_IL_STAT_STATE l) 0 (Nat.zero_le 1) (show 1 < 32 by decide)⟩

theorem listOver_again_spec {h : Hw} {l : Nat} (ha : h.on (ADC_IL_STAT_AGAIN l) = true) :
    (h.listOver l).adc.run = none ∧ (h.listOver l).ilState l = 1 ∧ (h.listOver l).on (ADC_IL_STAT_AGAIN l) = false := by
  have hget (g : Hw) (a b : Nat) (f : Fld) : (g.setIlAt l a b).get f = g.get f := rfl
  rw [listOver_again ha, Hw.ilState, Hw.on, hget, hget]
  refine ⟨rfl, get_put_same _ (ADC_IL_STAT_STATE l) 1 (Nat.zero_le 1) (show 1 < 32 by decide), ?_⟩
  rw [get_put_field _ (by decide) (by decide) (by decide) (by decide)]
  exact on_put_zero _ (ADC_IL_STAT_AGAIN l) (Nat.le_refl 3) (show 3 < 32 by decide)

/-- LEND of an injected list: no further entry issues, and the run is over where no claim is left. -/
def Hw.listEnd (h : Hw) : Hw :=
  Hw.runCheck { h with adc := { h.adc with run := h.adc.run.map (fun (r : ListRun) => { r with ended := true }) } }

theorem listEnd_drained {h : Hw} {r : ListRun} (hr : h.adc.run = some r) (hc : r.claims = []) :
    h.listEnd = Hw.listOver { h with adc := { h.adc with run := some { r with ended := true } } } r.list := by
  simp only [Hw.listEnd, Hw.runCheck, hr, Option.map_some, hc, List.isEmpty_nil, Bool.and_self, if_true]

theorem listEnd_idle {h : Hw} {r : ListRun} (hr : h.adc.run = some r) (hc : r.claims = [])
    (ha : h.on (ADC_IL_STAT_AGAIN r.list) = false) : h.listEnd.adc.run = none ∧ h.listEnd.ilState r.list = 0 := by
  rw [listEnd_drained hr hc]
  exact listOver_idle_spec ha

theorem listEnd_again {h : Hw} {r : ListRun} (hr : h.adc.run = some r) (hc : r.claims = [])
    (ha : h.on (ADC_IL_STAT_AGAIN r.list) = true) : h.listEnd.adc.run = none ∧ h.listEnd.ilState r.list = 1 ∧
    h.listEnd.on (ADC_IL_STAT_AGAIN r.list) = false := by
  rw [listEnd_drained hr hc]
  exact listOver_again_spec ha

theorem listEnd_claimed {h : Hw} {r : ListRun} (hr : h.adc.run = some r) (hc : r.claims ≠ []) :
    h.listEnd.adc.run = some { r with ended := true } := by
  simp only [Hw.listEnd, Hw.runCheck, hr, Option.map_some]
  rw [if_neg (by simpa using hc)]

theorem stepDone_calRun (h : Hw) : h.stepDone.adc.calRun = h.adc.calRun :=
  when_keeps (·.adc.calRun) (fun h => { h with adc := { h.adc with forceEnd := true } }) _ h rfl

theorem stepDone_calIssued (h : Hw) : h.stepDone.adc.calIssued = h.adc.calIssued :=
  when_keeps (·.adc.calIssued) (fun h => { h with adc := { h.adc with forceEnd := true } }) _ h rfl

/-- LEND of the calibration list where it serves no track: at most a forcing ends with the run. -/
theorem calLend_idle {h : Hw} (hfe : h.cal.runFe = false) (hadc : h.cal.runAdc = false) :
    h.calLend.adc.calRun = none ∧ h.calLend.adc.calIssued = h.ns := by
  unfold Hw.calLend
  rw [hfe, hadc]
  exact ⟨when_keeps (·.adc.calRun) Hw.stepDone _ _ (stepDone_calRun _),
    when_keeps (·.adc.calIssued) Hw.stepDone _ _ (stepDone_calIssued _)⟩

/-! ### The commands -/

section Commands

variable {s : State} {u : Word72} {next : Place}

theorem exec_auxc {src : Nat} {stream : Option Nat} (hi : s.hw.issuesAs .list u (.auxc src stream) next = true)
    (hm : s.hw.mirrored .list (s.hw.placeOf .list).1 = some (.auxc src stream)) :
    exec (.auxc u) s = .next { s with hw := (s.hw.issued .list u next).claimAux src stream } := by
  change actOn s true _ = _
  rw [actOn_live s _ (live_of_issuesAs hi), issue_of_issuesAs hi _ rfl, hm]
  rfl

theorem exec_cconv {aux : Bool} {src core n acc : Nat} (hi : s.hw.issuesAs .cal u (.cconv aux src core n acc) next = true)
    (hm : s.hw.mirrored .cal (s.hw.placeOf .cal).1 = some (.cconv aux src core n acc)) :
    exec (.cconv u) s = .next { s with hw := (s.hw.issued .cal u next).claimCal aux src core n acc } := by
  change actOn s true _ = _
  rw [actOn_live s _ (live_of_issuesAs hi), issue_of_issuesAs hi _ rfl, hm]
  rfl

theorem exec_lend_list (hi : s.hw.issuesAs .list u .lend next = true)
    (hm : s.hw.mirrored .list (s.hw.placeOf .list).1 = some .lend) :
    exec (.lend .list u) s = .next { s with hw := (s.hw.issued .list u next).listEnd } := by
  change actOn s true _ = _
  rw [actOn_live s _ (live_of_issuesAs hi)]
  dsimp only
  rw [issue_of_issuesAs hi _ rfl, hm]
  rfl

/-- The mirror need not hold the LEND: the run that its entry would claim for ends. -/
theorem exec_lend_cal (hi : s.hw.issuesAs .cal u .lend next = true) (hc : s.hw.calClaims = [])
    (hflight : s.hw.calInFlight = false) : exec (.lend .cal u) s = .next { s with
      hw := ((s.hw.issued .cal u next).fieldStep .cal (s.hw.mirrored .cal (s.hw.placeOf .cal).1)).calLend } := by
  obtain ⟨r, hr⟩ := run_of_calReady (ready_of_issuesAs hi)
  have hdrained : (s.hw.adc.calRun.isSome && s.hw.calClaims.isEmpty && !s.hw.calInFlight) = true := by
    rw [hr, hc, hflight]; rfl
  change actOn s true _ = _
  rw [actOn_live s _ (live_of_issuesAs hi)]
  dsimp only
  rw [hdrained, issue_of_issuesAs hi _ rfl]

theorem calLend_of_issued (hfe : s.hw.cal.runFe = false) (hadc : s.hw.cal.runAdc = false) (e : Option Entry) :
    ((s.hw.issued .cal u next).fieldStep .cal e).calLend.adc.calRun = none ∧
    ((s.hw.issued .cal u next).fieldStep .cal e).calLend.adc.calIssued = s.hw.ns := by
  have hcal : ((s.hw.issued .cal u next).fieldStep .cal e).cal = s.hw.cal :=
    (fieldStep_keeps Hw.cal (fun _ _ => rfl) (fun _ _ => rfl) _ .cal e).trans (issued_cal_cal s.hw u next)
  have hns : ((s.hw.issued .cal u next).fieldStep .cal e).ns = s.hw.ns :=
    (fieldStep_keeps Hw.ns (fun _ _ => rfl) (fun _ _ => rfl) _ .cal e).trans (issued_cal_ns s.hw u next)
  rw [← hns]
  exact calLend_idle (hcal ▸ hfe) (hcal ▸ hadc)

end Commands

/-- Settles O17, by what each entry finds once the walk has moved on. The count of corrected entries, which reading the entry
may raise, stands apart from every role, so the claims that are left are those that were left before. -/
theorem listEntries : Obligations.ListEntries := by
  unfold Obligations.ListEntries
  refine ⟨?_, ?_, ?_, ?_, ?_, ?_⟩
  · intro s u src stream hi hm
    obtain ⟨r, hr⟩ := run_of_listReady (ready_of_issuesAs hi)
    have hrun := claimAux_run (issued_list_run hr u (s.hw.onward .list)) src stream
    refine ⟨_, exec_auxc hi hm, placeOf_list_of_run hrun, ?_⟩
    rw [hrun, hr]
    rfl
  · intro s u aux src core n acc hi hm
    obtain ⟨r, hr⟩ := run_of_calReady (ready_of_issuesAs hi)
    have hrun := claimCal_run (issued_cal_run hr u (s.hw.onward .cal)) aux src core n acc
    have hissued := claimCal_calIssued (s.hw.issued .cal u (s.hw.onward .cal)) aux src core n acc
    refine ⟨_, exec_cconv hi hm, placeOf_cal_of_run hrun, hissued.trans (issued_cal_calIssued s.hw u _), ?_⟩
    rw [hrun, hr, calClaims_issued_cal hr]
    rfl
  · intro s u r hi hm hr hc ha _
    have hend := listEnd_idle (issued_list_run hr u (s.hw.onward .list)) hc ((again_issued_list s.hw u _ r.list).trans ha)
    exact ⟨_, exec_lend_list hi hm, hend⟩
  · intro s u r hi hm hr hc ha _
    have hend := listEnd_again (issued_list_run hr u (s.hw.onward .list)) hc ((again_issued_list s.hw u _ r.list).trans ha)
    exact ⟨_, exec_lend_list hi hm, hend⟩
  · intro s u r hi hm hr hc
    have hend := listEnd_claimed (issued_list_run hr u (s.hw.onward .list)) hc
    refine ⟨_, exec_lend_list hi hm, hend.trans ?_⟩
    rw [Hw.onward, placeOf_list_of_run hr]
  · intro s u hi hc hflight hfe hadc
    exact ⟨_, exec_lend_cal hi hc hflight, calLend_of_issued hfe hadc _⟩

end Sys2Proof.Machine

/-! ## A safe state entered over the relief of a unit that no hub has (R105, R161, R558) -/

namespace Sys2Proof.Machine

/-- A relief prepared for unit 0 whose spare no hub has: the LOCAL of unit 48,193 would stand where LATE of list 0 stands. -/
def strayRelief : Relief := { ch := 0, oldUnit := 0, newUnit := 48193, b0 := 0, b1 := 0, phase := .prepared }

/-- A hub in that relief, whose firmware maps INJ_DEFERRED to the safe state; list 0 is pending past its deadline of 1 us. -/
def strayLateHub : State :=
  { State.reset with hw := { ((strayUnitHub srcInjDeferred 0).put (ADC_IL_STAT_STATE 0) 1).put (ADC_IL_CTL_DEADLINE_US 0) 1 with
      time := { hw0.time with tick := 25 }
      field := { hw0.field with relief := [(0, some strayRelief)] } } }

theorem strayLateHub_live : strayLateHub.hw.live = true := by decide +kernel

theorem strayLateHub_deadline : strayLateHub.hw.get (ADC_IL_CTL_DEADLINE_US 0) ≠ 0 := by decide +kernel

theorem strayLateHub_pending : strayLateHub.hw.ilState 0 ≠ 0 := by decide +kernel

theorem strayLateHub_due : strayLateHub.hw.due ((storeGet (fun _ => (0, 0)) strayLateHub.hw.adc.ilAt 0).1 +
    1000 * strayLateHub.hw.get (ADC_IL_CTL_DEADLINE_US 0)) = true := by decide +kernel

/-- LATE is set before the raise; the safe state then writes LOCAL 0 over it. -/
theorem strayLateHub_late : (strayLateHub.hw.ilDeadline 0).on (ADC_IL_STAT_LATE 0) = false := by decide +kernel

theorem exec_ilDeadline {s : State} {l : Nat} (hl : s.hw.live = true) (hlist : l < 16) :
    exec (.ilDeadline l) s = .next { s with hw := s.hw.ilDeadline l } := by
  change actOn s (isList l) _ = _
  rw [isList, decide_eq_true hlist, actOn_live s _ hl]

/-- The clause that the counterexample refutes. -/
theorem late_ilDeadline_of_injectedLists (h : Obligations.InjectedLists) {s : State} {l : Nat} (hl : s.hw.live = true)
    (hlist : l < 16) (hus : s.hw.get (ADC_IL_CTL_DEADLINE_US l) ≠ 0) (hst : s.hw.ilState l ≠ 0)
    (hdue : s.hw.due ((storeGet (fun _ => (0, 0)) s.hw.adc.ilAt l).1 + 1000 * s.hw.get (ADC_IL_CTL_DEADLINE_US l)) = true)
    (hlate : storeGet (fun _ => false) s.hw.adc.ilLate l = false) : (s.hw.ilDeadline l).on (ADC_IL_STAT_LATE l) = true := by
  unfold Obligations.InjectedLists at h
  obtain ⟨-, -, -, -, -, -, hdeadline, -⟩ := h
  obtain ⟨x, hx, hon, -⟩ := hdeadline s l hl hlist hus hst hdue hlate
  obtain rfl := Host.Outcome.next.inj ((exec_ilDeadline hl hlist).symm.trans hx)
  exact hon

/-- Refutes O15: in a state that holds a prepared relief by unit 48,193 (no command makes one, but the statement is about
every state), a deadline that passes does not leave LATE set. INJ_DEFERRED is mapped to the safe state; the safe state
abandons the step of the relieved unit and writes LOCAL 0 to the spare, whose register would be ADC_IL_STAT of list 0. -/
theorem not_injectedLists : ¬ Obligations.InjectedLists := fun h =>
  have hlate := late_ilDeadline_of_injectedLists h strayLateHub_live (by decide : 0 < 16) strayLateHub_deadline
    strayLateHub_pending strayLateHub_due rfl
  absurd (strayLateHub_late.symm.trans hlate) Bool.false_ne_true

end Sys2Proof.Machine

/-! ## The mark of a bad response, and a safe state entered over a step of a unit that no hub has (R208, R514, R558) -/

namespace Sys2Proof.Machine

/-- A hub whose background check of response 1 is due, with CORE on; the role of unit 65,538 would stand where FIL_ROM_BAD_LO
stands. Two mismatches set the mark of the response, bit 1; the safe state then writes role 1 to bits 1 and 0. -/
def strayRomHub : { s : State // (s.hw.romCheck true).respBad 1 = false } where
  val := { State.reset with hw := { strayUnitHub srcFilterRomCheck 65538 with
    clk := { hw0.clk with core := { hw0.clk.core with mode := .on } }
    time := { hw0.time with tick := 25000 }
    str := { hw0.str with romNext := 1 } } }
  property := by decide +kernel

theorem strayRomHub_live : strayRomHub.val.hw.live = true := by decide

theorem strayRomHub_coreOn : strayRomHub.val.hw.coreOn = true := by decide

theorem strayRomHub_due : strayRomHub.val.hw.due strayRomHub.val.hw.str.romDue = true := by decide

theorem exec_romBackgroundCheck {s : State} (b1 b2 : Bool) (hl : s.hw.live = true) (hc : s.hw.coreOn = true)
    (hd : s.hw.due s.hw.str.romDue = true) :
    exec (.romBackgroundCheck b1 b2) s = .next { s with hw := s.hw.romCheck (b1 && b2) } := by
  change actOn s true (fun h => h.when (h.coreOn && h.due h.str.romDue) (fun h => h.romCheck (b1 && b2))) = _
  rw [actOn_live s _ hl, hc, hd]
  rfl

/-- The clause that the counterexample refutes. -/
theorem respBad_romCheck_of_filterSwaps (h : Obligations.FilterSwaps) {s : State} (hl : s.hw.live = true)
    (hc : s.hw.coreOn = true) (hd : s.hw.due s.hw.str.romDue = true) (hi : s.hw.str.romNext < 64) :
    (s.hw.romCheck true).respBad s.hw.str.romNext = true := by
  unfold Obligations.FilterSwaps at h
  obtain ⟨-, -, -, -, hcheck, -⟩ := h
  obtain ⟨x, hx, hbad, -⟩ := hcheck s hl hc hd hi
  obtain rfl := Host.Outcome.next.inj ((exec_romBackgroundCheck true true hl hc hd).symm.trans hx)
  exact hbad

/-- Refutes O19: in a state that holds a front-end step of unit 65,538 (no command makes one, but the statement is about every
state), a response that the background check reads wrong twice does not stay marked. FILTER_ROM_CHECK is mapped to the safe
state; the safe state abandons the step and writes role 1 to the step's unit, whose register would be FIL_ROM_BAD_LO. -/
theorem not_filterSwaps : ¬ Obligations.FilterSwaps := fun h =>
  have hbad := respBad_romCheck_of_filterSwaps h strayRomHub_live strayRomHub_coreOn strayRomHub_due (by decide : 1 < 64)
  absurd (strayRomHub.property.symm.trans hbad) Bool.false_ne_true

end Sys2Proof.Machine

/-! ## The fields that no raise writes (R552 to R560) -/

namespace Sys2Proof.Machine

/-- A field above bit 5 of a register between those of the drivers and those of Cinch: outside the registers that a raise
and its reactions write, and, wherever a front-end unit is taken to stand, above ROLE, LOCAL and PREP. -/
structure RaiseFree (f : Fld) : Prop where
  pastDrivers : 0x31600 ≤ f.addr
  belowCinch : f.addr < 0xB0000
  high : 6 ≤ f.lo
  ordered : f.lo ≤ f.hi

/-- What these fields read. -/
def Hw.raiseFree (h : Hw) (f : { f : Fld // RaiseFree f }) : Nat := h.get f.1

theorem raiseFree_put (h : Hw) (f : Fld) (v : Nat)
    (hf : f.addr < 0x31600 ∨ 0xB0000 ≤ f.addr ∨ (f.lo ≤ f.hi ∧ f.hi < 6)) : (h.put f v).raiseFree = h.raiseFree := by
  funext ⟨g, habove, hbelow, hhigh, hordered⟩
  change (h.put f v).get g = h.get g
  by_cases ha : g.addr = f.addr
  · obtain ⟨hlo, hhi⟩ : f.lo ≤ f.hi ∧ f.hi < 6 := by omega
    exact get_put_disjoint h f g v hlo (by omega) hordered ha (Or.inl (by omega))
  · exact get_put_other h f g v ha

/-- The rule with its side conditions as `simp` meets them. -/
@[simp ↓] theorem raiseFree_put_at (h : Hw) (a hi lo v : Nat) (ha : a < 0x31600 ∨ 0xB0000 ≤ a ∨ (lo ≤ hi ∧ hi < 6)) :
    (h.put ⟨a, hi, lo⟩ v).raiseFree = h.raiseFree := raiseFree_put h _ v ha

/-- A field of an array of registers that begins at `a`. -/
@[simp ↓] theorem raiseFree_put_array (h : Hw) (a x hi lo v : Nat) (ha : 0xB0000 ≤ a ∨ (lo ≤ hi ∧ hi < 6)) :
    (h.put ⟨a + x, hi, lo⟩ v).raiseFree = h.raiseFree :=
  raiseFree_put h _ v (Or.inr (ha.imp_left (Nat.le_add_right_of_le ·)))

theorem raiseFree_putDrv (h : Hw) (d hi lo v : Nat) (hd : d < 1024) :
    (h.put ⟨EXC_STATUS d, hi, lo⟩ v).raiseFree = h.raiseFree :=
  raiseFree_put h _ v (Or.inl (by change 0x30600 + 4 * d < 0x31600; omega))

/-! ### Combinators and groups -/

@[simp] theorem raiseFree_when (h : Hw) (c : Bool) (f : Hw → Hw) (hf : (f h).raiseFree = h.raiseFree) :
    (h.when c f).raiseFree = h.raiseFree := when_keeps Hw.raiseFree f c h hf

@[simp] theorem raiseFree_each {α : Type} (h : Hw) (l : List α) (f : Hw → α → Hw)
    (hf : ∀ h x, (f h x).raiseFree = h.raiseFree) : (h.each l f).raiseFree = h.raiseFree := each_keeps Hw.raiseFree f hf l h

theorem raiseFree_each_mem {α : Type} (l : List α) (f : Hw → α → Hw) :
    ∀ h : Hw, (∀ h, ∀ x ∈ l, (f h x).raiseFree = h.raiseFree) → (h.each l f).raiseFree = h.raiseFree := by
  induction l with
  | nil => intro h _; rfl
  | cons x t ih =>
    intro h hf
    exact (ih (f h x) (fun h y hy => hf h y (List.mem_cons_of_mem _ hy))).trans (hf h x List.mem_cons_self)

@[simp] theorem raiseFree_net (h : Hw) (x : NetSt) : ({ h with net := x } : Hw).raiseFree = h.raiseFree := (rfl)
@[simp] theorem raiseFree_recd (h : Hw) (x : RecSt) : ({ h with recd := x } : Hw).raiseFree = h.raiseFree := (rfl)
@[simp] theorem raiseFree_cin (h : Hw) (x : CinSt) : ({ h with cin := x } : Hw).raiseFree = h.raiseFree := (rfl)
@[simp] theorem raiseFree_cal (h : Hw) (x : CalSt) : ({ h with cal := x } : Hw).raiseFree = h.raiseFree := (rfl)
@[simp] theorem raiseFree_fltField (h : Hw) (x : FltSt) (y : FieldSt) :
    ({ h with flt := x, field := y } : Hw).raiseFree = h.raiseFree := (rfl)
@[simp] theorem raiseFree_setXing (h : Hw) (x : Nat) (c : Crossing) : (h.setXing x c).raiseFree = h.raiseFree := (rfl)
@[simp] theorem raiseFree_setUnit (h : Hw) (n : Nat) (u : UnitSt) : (h.setUnit n u).raiseFree = h.raiseFree := (rfl)
@[simp] theorem raiseFree_setObjects (h : Hw) (i : Nat) (l : List Nat) : (h.setObjects i l).raiseFree = h.raiseFree := (rfl)
@[simp] theorem raiseFree_setForce (h : Hw) (i : Nat) (r : Option Nat) : (h.setForce i r).raiseFree = h.raiseFree := (rfl)
@[simp] theorem raiseFree_setTimer (h : Hw) (i : Nat) (t : Option Nat) : (h.setTimer i t).raiseFree = h.raiseFree := (rfl)
@[simp] theorem raiseFree_setDrv (h : Hw) (d : Nat) (x : DriverSt) : (h.setDrv d x).raiseFree = h.raiseFree := (rfl)
@[simp] theorem raiseFree_exWindow (h : Hw) (d x ch : Nat) : (h.exWindow d x ch).raiseFree = h.raiseFree := (rfl)
@[simp] theorem raiseFree_setRelief (h : Hw) (k : Nat) (r : Option Relief) : (h.setRelief k r).raiseFree = h.raiseFree := (rfl)
@[simp] theorem raiseFree_eventItem (h : Hw) (e : EventItem) : (h.eventItem e).raiseFree = h.raiseFree := (rfl)
@[simp] theorem raiseFree_pullFaultN (h : Hw) : h.pullFaultN.raiseFree = h.raiseFree := (rfl)

/-! ### What follows a raise at once -/

@[simp] theorem raiseFree_xingReq (h : Hw) (x : Nat) : (h.xingReq x).raiseFree = h.raiseFree := by
  unfold Hw.xingReq
  dsimp only
  split
  · simp
  · split <;> simp +decide [xingOvr]

@[simp] theorem raiseFree_recTriggerAt (h : Hw) (c : Nat) (ws : Option (List Word)) :
    (h.recTriggerAt c ws).raiseFree = h.raiseFree := by
  have hwake (h : Hw) (x : RecSt) : (({ h with recd := x } : Hw).wake .core).raiseFree = h.raiseFree :=
    wake_keeps Hw.raiseFree (fun _ _ => rfl) _ .core
  unfold Hw.recTriggerAt
  split <;> simp [hwake]

@[simp] theorem raiseFree_unitsCause (h : Hw) (c : TrgCause) : (h.unitsCause c).raiseFree = h.raiseFree := by
  refine each_keeps Hw.raiseFree _ (fun h n => ?_) _ h
  unfold Hw.unitCause Hw.unitCauses
  split <;> simp

@[simp] theorem raiseFree_evqWrite (h : Hw) (c i x : Nat) : (h.evqWrite c i x).1.raiseFree = h.raiseFree := by
  unfold Hw.evqWrite
  split <;> simp +decide

/-! ### Reactions -/

theorem raiseFree_zeroDriver (h : Hw) (d : Nat) (hd : d < 1024) : (h.zeroDriver d).raiseFree = h.raiseFree := by
  unfold Hw.zeroDriver Hw.setPol Hw.exWindows
  simp [raiseFree_putDrv _ d _ _ _ hd]

theorem raiseFree_stopDrivers (h : Hw) (ds : List Nat) (hds : ∀ d ∈ ds, d < 1024) :
    (h.stopDrivers ds).raiseFree = h.raiseFree :=
  (raiseFree_each_mem ds _ _ (fun h d hd => raiseFree_putDrv h d _ _ _ (hds d hd))).trans
    (raiseFree_each_mem ds _ h (fun h d hd => raiseFree_zeroDriver h d (hds d hd)))

/-- A step that is over writes its units' lowest bits alone. -/
@[simp] theorem raiseFree_feStepOver (h : Hw) (x : CalStep) : (h.feStepOver x).raiseFree = h.raiseFree := by
  unfold Hw.feStepOver
  dsimp only
  repeat' split
  all_goals simp +decide

@[simp] theorem raiseFree_abandonFeStep (h : Hw) : h.abandonFeStep.raiseFree = h.raiseFree := by
  unfold Hw.abandonFeStep Hw.noteFail Hw.bump
  split <;> simp +decide

@[simp] theorem raiseFree_enterSafe (h : Hw) (i : Nat) : (h.enterSafe i).raiseFree = h.raiseFree := by
  have hds : ∀ d ∈ List.range nDrv, d < 1024 := fun d hd => Nat.lt_trans (List.mem_range.1 hd) (by decide)
  refine (raiseFree_stopDrivers _ (List.range nDrv) hds).trans ?_
  rw [raiseFree_fltField]
  split <;> simp +decide

theorem raiseFree_resetBlock (h : Hw) (i x : Nat) (hi : i ≠ 34 ∧ i ≠ 42) : (h.resetBlock i x).raiseFree = h.raiseFree := by
  unfold Hw.resetBlock
  dsimp only
  split
  · rfl
  split
  · rfl
  split
  · split <;> simp +decide
  split
  next hport => exact absurd hport hi.1
  split
  next hport => exact absurd hport hi.2
  rfl

theorem raiseFree_reactOn (h : Hw) (i r x : Nat) (hi : i ≠ 34 ∧ i ≠ 42) : (h.reactOn i r x).raiseFree = h.raiseFree := by
  unfold Hw.reactOn
  split
  · exact raiseFree_stopDrivers h _ (View.objDrivers_lt i x)
  · exact raiseFree_resetBlock h i x hi
  · exact raiseFree_enterSafe h i
  · rfl

theorem raiseFree_reactAll (h : Hw) (i : Nat) (hi : i ≠ 34 ∧ i ≠ 42) : (h.reactAll i).raiseFree = h.raiseFree :=
  each_keeps Hw.raiseFree _ (fun h x => raiseFree_reactOn h i _ x hi) _ (h.setForce i _)

/-! ### A raise -/

theorem raiseFree_noteRaise (h : Hw) (i info : Nat) : (h.noteRaise i info).raiseFree = h.raiseFree := by
  simp +decide [Hw.noteRaise, Hw.bump, statusBit, causeBit]

theorem raiseFree_queueRaise (h : Hw) (cls i info : Nat) : (h.queueRaise cls i info).1.raiseFree = h.raiseFree := by
  unfold Hw.queueRaise
  split <;> simp

theorem raiseFree_raiseActs {fuel : Nat}
    (hsub : ∀ (h : Hw) (j info : Nat), j ≠ 34 ∧ j ≠ 42 → (raiseN fuel h j info).raiseFree = h.raiseFree) (h : Hw) (was : Bool)
    (cls i info : Nat) (hi : i ≠ 34 ∧ i ≠ 42) : (h.raiseActs fuel was cls i info).raiseFree = h.raiseFree := by
  unfold Hw.raiseActs
  split
  · split
    · exact raiseFree_reactOn h i _ info hi
    · rfl
  split
  · exact hsub (h.setTimer i _) _ _ (by decide)
  split
  · exact (hsub _ _ _ (by decide)).trans (raiseFree_reactAll h i hi)
  · rfl

theorem raiseFree_raiseN (fuel : Nat) : ∀ (h : Hw) (i info : Nat), i ≠ 34 ∧ i ≠ 42 →
    (raiseN fuel h i info).raiseFree = h.raiseFree := by
  induction fuel with
  | zero => intro h i info _; rfl
  | succ fuel ih =>
    intro h i info hi
    rw [raiseN_succ, raiseFree_raiseActs ih _ _ _ i _ hi, raiseFree_when _ _ _ (ih _ _ _ (by decide)),
      raiseFree_queueRaise, raiseFree_noteRaise]

/-- Such a field reads after a raise what it read before; the sources left out are the CRC rates, whose reaction may take
their port down. -/
theorem get_raise {f : Fld} (hf : RaiseFree f) (h : Hw) (i info : Nat) (hi : i ≠ 34 ∧ i ≠ 42) :
    (h.raise i info).get f = h.get f :=
  congrFun (raiseFree_raiseN 4 h i info hi) ⟨f, hf⟩

end Sys2Proof.Machine

/-! ## Locating, the table window and the background check (R225, R234, R238, R240, R241) -/

namespace Sys2Proof.Machine

/-! ### The locate of a stopped walk -/

theorem locateDone_found {h : Hw} {b : Nat} {p : Place} (hrun : h.seq.running = true) (hstop : h.seq.stopped = true)
    (hbusy : h.on SEQ_STATUS_LOCATING = true) (hnone : h.seq.located = none) (hb : h.smp.lastBoundary = some b)
    (hp : h.locate h.smp.per (h.framePos h.smp.per h.smp.ph (h.boundaryAfter b)) = some p) :
    h.locateDone = Hw.put { h with seq := { h.seq with located := some p } } SEQ_STATUS_LOCATING 0 := by
  simp only [Hw.locateDone, hrun, hstop, hbusy, hnone, hb, hp, Option.isNone_none, Bool.and_self, if_true]

theorem exec_locateComplete {s : State} (hl : s.hw.live = true) :
    exec .locateComplete s = .next { s with hw := s.hw.locateDone } := actOn_live s Hw.locateDone hl

/-! ### The table window -/

theorem exec_seqTableWrite {s : State} {q : Requester} {a : Nat} (v : Word) (hq : s.hw.writable q = true)
    (ha : isTableWindow a = true) : exec (.seqTableWrite q a v) s =
      .next { s with hw := (s.hw.tableWrite q a v).1, rdata := [], status := (s.hw.tableWrite q a v).2 } := by
  simp only [exec, execSeqTableWrite, ha, hq, if_true]

/-- The low word is held. -/
theorem tableWrite_low (h : Hw) (q : Requester) {a : Nat} (v : Word) (ha : a % 8 = 0) :
    h.tableWrite q a v = (h.setHeld q (entryKey (h.windowEntry q a)) (some v), 0) := if_pos ha

/-- The high word of a sealed entry is refused, and what was held is dropped. -/
theorem tableWrite_sealed {h : Hw} {q : Requester} {a : Nat} (v : Word) (ha : a % 8 = 4)
    (hs : h.sealedEntry (h.windowEntry q a) = true) : h.tableWrite q a v =
      ((h.put SEQ_STATUS_WR_REFUSED 1).setHeld q (entryKey (h.windowEntry q a)) none, 1) := by
  simp only [Hw.tableWrite, ha, hs, if_true]
  rfl

/-- The entry that a high word stages: with the low word that is held, or else with the one that the entry has. -/
def Hw.stagedBy (h : Hw) (q : Requester) (e : Nat) (v : Word) : Word64 :=
  word64 (h.heldOr q (entryKey e) (lo32 ((h.stagedEntry e).getD (entryData h.seq.live e)))) v

/-- The hub with an entry staged, and no word of it held. -/
def Hw.stageEntry (h : Hw) (q : Requester) (e : Nat) (w : Word64) : Hw :=
  { h.setHeld q (entryKey e) none with epoch := { h.epoch with
      staging := { h.epoch.staging with table := storeSet (fun _ => none) h.epoch.staging.table e (some w) } } }

theorem stagedEntry_stageEntry (h : Hw) (q : Requester) (e : Nat) (w : Word64) :
    (h.stageEntry q e w).stagedEntry e = some w := by
  rw [Hw.stagedEntry, Hw.stageEntry, storeGet_set_same]

theorem tableWrite_high {h : Hw} {q : Requester} {a : Nat} (v : Word) (ha : a % 8 = 4)
    (hs : h.sealedEntry (h.windowEntry q a) = false) : h.tableWrite q a v =
      (h.stageEntry q (h.windowEntry q a) (h.stagedBy q (h.windowEntry q a) v), 0) := by
  have hlow : a % 8 ≠ 0 := by omega
  simp only [Hw.tableWrite, hlow, hs, if_false, Bool.false_eq_true]
  rfl

/-! ### The read of an entry -/

theorem readLive_correctable {h : Hw} {e : Nat} {u k : Word72} (hk : secCorrect (codedAt h.seq.live e ^^^ u) = some k) :
    h.readLive e u = ((h.setLive e k).when (decide (k ≠ codedAt h.seq.live e ^^^ u))
      (fun h => h.bump SEQ_SCRUB_CE_COUNT 1), some (secData k)) := by
  simp only [Hw.readLive, hk]

theorem readLive_uncorrectable {h : Hw} {e : Nat} {u : Word72} (hk : secCorrect (codedAt h.seq.live e ^^^ u) = none) :
    h.readLive e u = (h.setLive e (codedAt h.seq.live e ^^^ u), none) := by
  simp only [Hw.readLive, hk]

theorem codedAt_setLive (h : Hw) (e : Nat) (c : Word72) : codedAt (h.setLive e c).seq.live e = c :=
  storeGet_set_same _ _ _ _

/-! ### An entry that cannot be corrected -/

theorem raiseFree_chksum : RaiseFree SEQ_STATUS_CHKSUM := ⟨by decide, by decide, by decide, by decide⟩

/-- CHKSUM and SEQ_TABLE_CHECKSUM are set, whatever reacts to the raise. -/
theorem tableBad_flags (h : Hw) (e : Nat) :
    (h.tableBad e).on SEQ_STATUS_CHKSUM = true ∧ (h.tableBad e).on (statusBit srcSeqTableChecksum) = true := by
  unfold Hw.tableBad
  constructor
  · rw [Hw.on, get_raise raiseFree_chksum _ _ _ (by decide)]
    exact on_put_one h SEQ_STATUS_CHKSUM (by decide) (by decide)
  · rw [(follows_raise _ srcSeqTableChecksum _ (by decide) (by decide)).status_eq (by decide)]
    exact on_put_one _ _ (by decide) (by decide)

/-! ### The background check -/

/-- The hub once the background check has read its entry and has reported one that cannot be corrected. -/
def Hw.scrubRead (h : Hw) (u : Word72) : Hw :=
  (h.readLive h.seq.scrubPos u).1.when (h.readLive h.seq.scrubPos u).2.isNone
    (fun g => (g.noteSeqErr 3 3 h.seq.scrubPos).tableBad h.seq.scrubPos)

/-- Below the last entry, the check then goes to the next entry and takes this one into its CRC, which no register shows. -/
theorem seqScrub_next {h : Hw} (u : Word72) (hc : h.coreOn = true) (he : h.on SEQ_CTL_SCRUB_EN = true)
    (hp : h.seq.scrubPos < 8191) : (h.seqScrub u).seq.scrubPos = h.seq.scrubPos + 1 ∧
      (h.seqScrub u).seq.live = (h.scrubRead u).seq.live ∧ (h.seqScrub u).regs = (h.scrubRead u).regs := by
  simp only [Hw.seqScrub, hc, he, Bool.and_self, if_true, hp.ne, if_false, Hw.scrubRead, and_self]

theorem scrubRead_correctable {h : Hw} {u k : Word72}
    (hk : secCorrect (codedAt h.seq.live h.seq.scrubPos ^^^ u) = some k) : h.scrubRead u =
      (h.setLive h.seq.scrubPos k).when (decide (k ≠ codedAt h.seq.live h.seq.scrubPos ^^^ u))
        (fun h => h.bump SEQ_SCRUB_CE_COUNT 1) := by
  rw [Hw.scrubRead, readLive_correctable hk]
  simp only [Option.isNone_some, Hw.when, Bool.false_eq_true, if_false]

theorem scrubRead_good {h : Hw} {u : Word72} (hk : secCorrect (codedAt h.seq.live h.seq.scrubPos ^^^ u) =
    some (codedAt h.seq.live h.seq.scrubPos ^^^ u)) :
    h.scrubRead u = h.setLive h.seq.scrubPos (codedAt h.seq.live h.seq.scrubPos ^^^ u) := by
  rw [scrubRead_correctable hk, decide_eq_false (not_not_intro rfl)]
  rfl

theorem scrubRead_corrected {h : Hw} {u k : Word72} (hk : secCorrect (codedAt h.seq.live h.seq.scrubPos ^^^ u) = some k)
    (hne : k ≠ codedAt h.seq.live h.seq.scrubPos ^^^ u) :
    h.scrubRead u = (h.setLive h.seq.scrubPos k).bump SEQ_SCRUB_CE_COUNT 1 := by
  rw [scrubRead_correctable hk, decide_eq_true hne]
  rfl

theorem scrubRead_uncorrectable {h : Hw} {u : Word72} (hk : secCorrect (codedAt h.seq.live h.seq.scrubPos ^^^ u) = none) :
    h.scrubRead u = ((h.setLive h.seq.scrubPos (codedAt h.seq.live h.seq.scrubPos ^^^ u)).noteSeqErr 3 3
      h.seq.scrubPos).tableBad h.seq.scrubPos := by
  rw [Hw.scrubRead, readLive_uncorrectable hk]
  simp only [Option.isNone_none, Hw.when, if_true]

theorem get_of_regs {g h : Hw} (e : g.regs = h.regs) (f : Fld) : g.get f = h.get f := by
  simp only [Hw.get, Hw.reg, e]

theorem satAdd_lt (w a b : Nat) : satAdd w a b < 2 ^ w := by
  have hpos := Nat.two_pow_pos w
  unfold satAdd
  split <;> omega

/-- A counter that does not wrap: it reads its saturating sum. -/
theorem get_bump_same (h : Hw) (f : Fld) (n : Nat) (hf : f.lo ≤ f.hi) (h31 : f.hi < 32) :
    (h.bump f n).get f = satAdd (f.hi + 1 - f.lo) (h.get f) n := by
  rw [Hw.bump, get_put_same h f _ hf h31, Nat.mod_eq_of_lt (satAdd_lt _ _ _)]

theorem exec_seqScrubRead {s : State} (u : Word72) (hl : s.hw.live = true) :
    exec (.seqScrubRead u) s = .next { s with hw := s.hw.seqScrub u } := actOn_live s (fun h => h.seqScrub u) hl

/-- Settles O18, by what a locate, a write of the window and a check of one entry each leave. That CHKSUM and the fault's
status bit outlast the reaction of an uncorrectable entry's raise is `tableBad_flags`: no raise writes CHKSUM. -/
theorem tableCare : Obligations.TableCare := by
  unfold Obligations.TableCare
  refine ⟨?_, ?_, ?_, ?_, ?_, ?_, ?_⟩
  · intro s b p hl hrun hstop hbusy hnone hb hp
    refine ⟨_, exec_locateComplete hl, ?_⟩
    rw [locateDone_found hrun hstop hbusy hnone hb hp]
    exact ⟨rfl, on_put_zero _ SEQ_STATUS_LOCATING (by decide) (by decide), rfl⟩
  · intro s q a v hq ha hlow
    refine ⟨_, exec_seqTableWrite v hq ha, ?_⟩
    rw [tableWrite_low s.hw q v hlow]
    exact ⟨rfl, rfl⟩
  · intro s q a v hq ha hhigh hs
    refine ⟨_, exec_seqTableWrite v hq ha, ?_⟩
    rw [tableWrite_high v hhigh hs]
    exact ⟨rfl, stagedEntry_stageEntry _ q _ _, rfl⟩
  · intro s q a v hq ha hhigh hs
    refine ⟨_, exec_seqTableWrite v hq ha, ?_⟩
    rw [tableWrite_sealed v hhigh hs]
    exact ⟨rfl, (on_of_regs (Hw.setHeld_regs ..) _).trans (on_put_one s.hw _ (by decide) (by decide)),
      (Hw.setHeld_epoch ..).trans (Hw.put_epoch ..)⟩
  · intro s u k hl hc he hp hk hne
    obtain ⟨hpos, hlive, hregs⟩ := seqScrub_next u hc he hp
    rw [scrubRead_corrected hk hne] at hlive hregs
    refine ⟨_, exec_seqScrubRead u hl, hpos, ?_, (get_of_regs hregs _).trans (get_bump_same _ _ _ (by decide) (by decide))⟩
    exact (congrArg (codedAt · _) hlive).trans (codedAt_setLive s.hw _ k)
  · intro s u hl hc he hp hk
    obtain ⟨hpos, hlive, hregs⟩ := seqScrub_next u hc he hp
    rw [scrubRead_good hk] at hlive hregs
    exact ⟨_, exec_seqScrubRead u hl, hpos, (congrArg (codedAt · _) hlive).trans (codedAt_setLive s.hw _ _), hregs⟩
  · intro s u hl hc he hp hk
    obtain ⟨hpos, -, hregs⟩ := seqScrub_next u hc he hp
    rw [scrubRead_uncorrectable hk] at hregs
    obtain ⟨hchksum, hstatus⟩ := tableBad_flags ((s.hw.setLive s.hw.seq.scrubPos
      (codedAt s.hw.seq.live s.hw.seq.scrubPos ^^^ u)).noteSeqErr 3 3 s.hw.seq.scrubPos) s.hw.seq.scrubPos
    exact ⟨_, exec_seqScrubRead u hl, hpos, (on_of_regs hregs _).trans hchksum, (on_of_regs hregs _).trans hstatus⟩

end Sys2Proof.Machine

/-! ## A word of a stream that no hub has, written as the walk stops (R171, R172, R227, R241) -/

namespace Sys2Proof.Machine

/-! ### A fifth nested loop -/

theorem after_fifthLoop {p : Place} {n : Nat} (t : Nat) (hn : 1 < n) (hlen : p.2.length = 4)
    (htop : p.2.head?.any (fun y => decide (y.1 = p.1)) = false) : (Entry.loop n t).after p = none := by
  obtain ⟨e, stack⟩ := p
  cases stack with
  | nil => cases hlen
  | cons top rest =>
    have htop : top.1 ≠ e := by simpa using htop
    have hlen : ¬ (top :: rest).length < 4 := by rw [hlen]; decide
    simp only [Entry.after, htop, hn.ne', hlen, if_false]

theorem breachStart_loop (h : Hw) (w : Walk) (n t : Nat) : h.breachStart w (.loop n t) = false := Bool.and_false _

theorem exec_fifthLoop {s : State} {w : Walk} {u : Word72} {n t : Nat} (hl : s.hw.live = true)
    (hready : s.hw.walkReady w = true) (hentry : s.hw.nextEntry w u = .entry (.loop n t))
    (hafter : (Entry.loop n t).after (s.hw.placeOf w) = none) :
    exec (.loop w u) s = .next { s with hw := (s.hw.fetchEffect w u).illegalStep w 1 (s.hw.placeOf w).1 } := by
  change actOn s true _ = _
  rw [actOn_live s _ hl]
  simp only [Hw.issue, hready, hentry, breachStart_loop, hafter, if_true, Bool.false_eq_true, if_false]

/-! ### The counterexample -/

/-- A stream whose buffer has no words has one output waiting for its partner. Its losses would be counted where the status
bits of sources 32 to 55 stand. -/
def strayStream : Nat × StreamSt :=
  (168001, { stream0 with lone := some ({ era := 0, index := 0, word := 0, instant := 0, tq := 0 }, false) })

/-- A hub with that stream, where sources 32 to 50 are raised, and whose regular walk stands in four loops at the LOOP of
entry 0. -/
def strayStreamHub : State :=
  { State.reset with hw := { hw0.setReg (FLT_STATUS 1) 0x7FFFF with
      boot := { hw0.boot with phase := .running }
      clk := { hw0.clk with core := { hw0.clk.core with mode := .on } }
      smp := { hw0.smp with lastBoundary := some 0 }
      seq := { hw0.seq with
        live := [(0, secEncode 0x7000000000002000)], running := true, stack := [(1, 0), (2, 0), (3, 0), (4, 0)] }
      str := { hw0.str with streams := [strayStream] } } }

theorem strayStreamHub_live : strayStreamHub.hw.live = true := by decide +kernel

theorem strayStreamHub_ready : strayStreamHub.hw.walkReady .regular = true := by decide +kernel

theorem strayStreamHub_entry : strayStreamHub.hw.nextEntry .regular 0 = .entry (.loop 2 0) := by decide +kernel

/-- The raise sets bit 19 above the nineteen that are set; the word that the end of the frame writes is then counted as lost,
and the count carries into the bit. -/
theorem strayStreamHub_status : ((strayStreamHub.hw.fetchEffect .regular 0).illegalStep .regular 1 0).on
    (statusBit srcSeqIllegalStep) = false := by decide +kernel

/-- The clause that the counterexample refutes. -/
theorem status_fifthLoop_of_regularWalk (h : Obligations.RegularWalk) {s : State} {w : Walk} {u : Word72} {n t : Nat}
    (hl : s.hw.live = true) (hready : s.hw.walkReady w = true) (hentry : s.hw.nextEntry w u = .entry (.loop n t))
    (hlen : (s.hw.placeOf w).2.length = 4) (hn : 1 < n)
    (htop : (s.hw.placeOf w).2.head?.any (fun y => decide (y.1 = (s.hw.placeOf w).1)) = false) :
    ((s.hw.fetchEffect w u).illegalStep w 1 (s.hw.placeOf w).1).on (statusBit srcSeqIllegalStep) = true := by
  unfold Obligations.RegularWalk at h
  obtain ⟨-, -, -, -, -, -, -, -, -, -, -, -, -, -, hfifth⟩ := h
  obtain ⟨x, hx, -, hstatus, -⟩ := hfifth s w u n t hl hready hentry hlen hn htop
  obtain rfl := Host.Outcome.next.inj ((exec_fifthLoop hl hready hentry (after_fifthLoop t hn hlen htop)).symm.trans hx)
  exact hstatus

/-- Refutes O16: in a state that holds a waiting word of stream 168,001 (no command makes one, but the statement is about every
state), the illegal step of a fifth nested loop does not leave SEQ_ILLEGAL_STEP raised. The regular walk stops, which ends its
frame and writes the word that waits; the word is lost, and the count of lost words, whose register would be that of the
status bits, carries over the bit. -/
theorem not_regularWalk : ¬ Obligations.RegularWalk := fun h =>
  have hstatus := status_fifthLoop_of_regularWalk h strayStreamHub_live strayStreamHub_ready strayStreamHub_entry
    rfl (by decide : 1 < 2) rfl
  absurd (strayStreamHub_status.symm.trans hstatus) Bool.false_ne_true

end Sys2Proof.Machine

/-! ## A stream frame built as a safe state is entered over a step of a unit that no hub has (R267, R332, R514, R558) -/

namespace Sys2Proof.Machine

/-- The era of the word that waits. -/
def strayEra : Era :=
  { era := 0, started := true, startPos := 0, endPos := none, gone := false, j0 := 0, origin := 0, period := 1000 }

/-- A hub whose stream 0 has one word to send, at memory word 0 of a verified tile, where one copy of the valid bit is upset;
the role of unit 97,280 would stand where STR_CTL stands. -/
def strayDestHub : State :=
  { State.reset with hw := { ((strayUnitHub srcMemCe 97280).put SYS_HUB_ID_ID 3).put (MEM_TILE_STAT_VERIFIED 0) 1 with
      clk := { hw0.clk with core := { hw0.clk.core with mode := .on } }
      mem := { hw0.mem with valid := [(0, 1)] }
      str := { hw0.str with streams := [(0, { stream0 with wpos := 1, eras := [strayEra] })] } } }

theorem strayDestHub_live : strayDestHub.hw.live = true := by decide +kernel

theorem strayDestHub_coreOn : strayDestHub.hw.coreOn = true := by decide +kernel

theorem strayDestHub_era : (strayDestHub.hw.stream 0).eraAt (strayDestHub.hw.stream 0).rpos = some strayEra := by
  decide +kernel

theorem strayDestHub_undelivered :
    (strayDestHub.hw.stream 0).rpos < strayDestHub.hw.takeLimit 0 (strayDestHub.hw.stream 0).rpos := by decide +kernel

theorem strayDestHub_data : isPlaceholder (strayDestHub.hw.bufPeek 0 (strayDestHub.hw.stream 0).rpos) = false := by
  decide +kernel

theorem strayDestHub_leftOver : (strayDestHub.hw.stream 0).leftOver = false := by decide +kernel

theorem strayDestHub_due : strayDestHub.hw.frameDue 0 = true := by decide +kernel

theorem strayDestHub_room : strayDestHub.hw.room 2 = true := by decide +kernel

theorem strayDestHub_dest : strayDestHub.hw.get STR_CTL_DEST = 0xFFF0 := by decide +kernel

/-- Reading the word repairs its valid bit and raises MEM_CE; the safe state then writes role 1 over DEST's two lowest bits. -/
theorem strayDestHub_sent : (strayDestHub.hw.buildStreamFrame 0).net.egress.getLast?.map (fun d => d.frame.dst) =
    some 0xFFF1 := by decide +kernel

theorem exec_streamFrameBuild {s : State} {k : Nat} (hl : s.hw.live = true) (hc : s.hw.coreOn = true) (hk : k < 512) :
    exec (.streamFrameBuild k) s = .next { s with hw := s.hw.buildStreamFrame k } := by
  change actOn s (decide (k < nStream)) (fun h => h.when h.coreOn (fun h => h.buildStreamFrame k)) = _
  rw [decide_eq_true hk, actOn_live s _ hl, hc]
  rfl

/-- The clause that the counterexample refutes. -/
theorem dst_streamFrame_of_livePath (h : Obligations.LivePath) {s : State} {k : Nat} {e : Era} (hl : s.hw.live = true)
    (hc : s.hw.coreOn = true) (hk : k < 512) (he : (s.hw.stream k).eraAt (s.hw.stream k).rpos = some e)
    (hlim : (s.hw.stream k).rpos < s.hw.takeLimit k (s.hw.stream k).rpos)
    (hdata : isPlaceholder (s.hw.bufPeek k (s.hw.stream k).rpos) = false) (hleft : (s.hw.stream k).leftOver = false)
    (hdue : s.hw.frameDue k = true) (hroom : s.hw.room 2 = true) :
    (s.hw.buildStreamFrame k).net.egress.getLast?.map (fun d => d.frame.dst) = some (s.hw.get STR_CTL_DEST) := by
  unfold Obligations.LivePath at h
  obtain ⟨hframe, -⟩ := h
  obtain ⟨x, hx, -, hlast, -, -⟩ := hframe s k _ e _ hl hc hk he hlim hdata hleft rfl (Or.inl hdue) rfl hroom
  obtain rfl := Host.Outcome.next.inj ((exec_streamFrameBuild hl hc hk).symm.trans hx)
  simpa only [Option.map_map, Function.comp_def, Option.map_some] using congrArg (Option.map (fun y => y.2.2.1)) hlast

/-- Refutes O20: in a state that holds a front-end step of unit 97,280 (no command makes one, but the statement is about every
state), the stream frame does not go to the hub that STR_CTL.DEST named before the command, since it is made up after its words
are read. The read repairs a valid bit; MEM_CE is mapped to the safe state, which abandons the step and writes role 1 to the
step's unit, whose register would be STR_CTL. -/
theorem not_livePath : ¬ Obligations.LivePath := fun h =>
  have hdst := dst_streamFrame_of_livePath h strayDestHub_live strayDestHub_coreOn (by decide : 0 < 512) strayDestHub_era
    strayDestHub_undelivered strayDestHub_data strayDestHub_leftOver strayDestHub_due strayDestHub_room
  absurd (strayDestHub_sent.symm.trans (hdst.trans (congrArg some strayDestHub_dest))) (by decide)

end Sys2Proof.Machine

/-! ## What the trigger units decide (R285, R286, R292 to R296, R313) -/

namespace Sys2Proof.Machine

/-! ### The unit beside its registers -/

@[simp] theorem unitSt_setUnit_same (h : Hw) (n : Nat) (u : UnitSt) : (h.setUnit n u).unitSt n = u :=
  storeGet_set_same _ _ n u

theorem unitSt_setUnit_other (h : Hw) {m n : Nat} (u : UnitSt) (hm : n ≠ m) : (h.setUnit m u).unitSt n = h.unitSt n :=
  storeGet_set_other _ _ u hm

theorem unitSt_put (h : Hw) (f : Fld) (v n : Nat) : (h.put f v).unitSt n = h.unitSt n := (rfl)

theorem on_setUnit (h : Hw) (n : Nat) (u : UnitSt) (f : Fld) : (h.setUnit n u).on f = h.on f := (rfl)

theorem get_setUnit (h : Hw) (n : Nat) (u : UnitSt) (f : Fld) : (h.setUnit n u).get f = h.get f := (rfl)

@[simp] theorem Hw.setUnit_time (h : Hw) (n : Nat) (u : UnitSt) : (h.setUnit n u).time = h.time := (rfl)

theorem unitState_of_regs {g h : Hw} (e : g.regs = h.regs) (n : Nat) : g.unitState n = h.unitState n :=
  get_of_regs e _

/-! ### Entering and leaving a state -/

theorem stat_ne_count (n : Nat) : TRG_STAT n ≠ TRG_COUNT n := by
  change 0x90400 + 4 * n ≠ 0x90440 + 4 * n; omega

theorem unitState_putCount (h : Hw) (n v : Nat) : (h.put (TRG_COUNT_COUNT n) v).unitState n = h.unitState n :=
  get_put_other h (TRG_COUNT_COUNT n) (TRG_STAT_STATE n) v (stat_ne_count n)

/-- A unit that enters a state is there, with its counter at 0, since now. -/
theorem enterState_spec (h : Hw) (n : Nat) {st : Nat} (hst : st < 8) (signal : Bool) :
    (h.enterState n st signal).unitState n = st ∧ (h.enterState n st signal).get (TRG_COUNT_COUNT n) = 0 ∧
    ((h.enterState n st signal).unitSt n).entered = h.time.now := by
  unfold Hw.enterState
  refine ⟨?_, get_put_same _ (TRG_COUNT_COUNT n) 0 (Nat.zero_le 31) (by decide : 31 < 32), ?_⟩
  · rw [unitState_putCount]
    exact (get_put_same _ (TRG_STAT_STATE n) st (by decide : 16 ≤ 18) (by decide : 18 < 32)).trans (Nat.mod_eq_of_lt hst)
  · rw [unitSt_put, unitSt_put, unitSt_setUnit_same]

/-- Entering a state does not say whether the unit has stopped. -/
theorem stopped_enterState (h : Hw) (n st : Nat) (signal : Bool) :
    (h.enterState n st signal).on (TRG_STAT_STOPPED n) = h.on (TRG_STAT_STOPPED n) := by
  unfold Hw.enterState
  rw [on_put_other _ (TRG_COUNT_COUNT n) (TRG_STAT_STOPPED n) 0 (stat_ne_count n), Hw.on,
    get_put_field _ (by decide) (by decide) (by decide) (by decide)]
  rfl

theorem stopUnit_spec (h : Hw) (n : Nat) :
    (h.stopUnit n).on (TRG_STAT_STOPPED n) = true ∧ ((h.stopUnit n).unitSt n).causes = [] := by
  unfold Hw.stopUnit
  refine ⟨?_, by rw [unitSt_setUnit_same]⟩
  rw [on_setUnit]
  exact on_put_one h (TRG_STAT_STOPPED n) (Nat.le_refl 31) (by decide : 31 < 32)

/-! ### No action moves network time -/

@[simp] theorem Hw.noteMem_time (h : Hw) (ue : Bool) (y w src : Nat) (v : Bool) : (h.noteMem ue y w src v).time = h.time := by
  unfold Hw.noteMem; split <;> simp

@[simp] theorem Hw.memCe_time (h : Hw) (y w src t : Nat) (v : Bool) : (h.memCe y w src t v).time = h.time := by
  simp only [Hw.memCe, Hw.raise_time, Hw.bump_time, Hw.noteMem_time]

@[simp] theorem Hw.retire_time (h : Hw) (t c : Nat) : (h.retire t c).time = h.time := by
  unfold Hw.retire; split <;> simp

@[simp] theorem Hw.memUe_time (h : Hw) (y w src : Nat) : (h.memUe y w src).time = h.time := by
  simp only [Hw.memUe, Hw.retire_time, Hw.raise_time, Hw.bump_time, Hw.noteMem_time]

theorem Hw.checkValid_time (h : Hw) (a src : Nat) : (h.checkValid a src).time = h.time := by
  rcases checkValid_cases h a src with e | ⟨v, e⟩
  · rw [e]
  · rw [e, Hw.memCe_time, Hw.setValid_time]

theorem Hw.checkEntry_time (h : Hw) (t : Nat) : (h.checkEntry t).time = h.time := by
  rcases checkEntry_cases h t with e | ⟨y, e⟩ | ⟨y, e⟩
  · rw [e]
  · rw [e, Hw.memCe_time, Hw.setEntryUpset_time]
  · rw [e, Hw.retire_time, Hw.raise_time, Hw.bump_time, Hw.noteMem_time]

theorem Hw.memRead_time (h : Hw) (a src : Nat) : (h.memRead a src).1.time = h.time := by
  refine Eq.trans ?_ (Hw.checkValid_time h a src)
  rcases memRead_cases h a src with e | ⟨d, y, e⟩ | ⟨y, e⟩
  · rw [e]
  · rw [e, Hw.memCe_time, Hw.setMemStored_time]
  · rw [e, Hw.memUe_time]

theorem Hw.storeCode_time (h : Hw) (a : Nat) (c : Word72) (win : Option Requester) : (h.storeCode a c win).time = h.time := by
  unfold Hw.storeCode; split <;> simp [Hw.flipDone]

theorem Hw.memWrite_time (h : Hw) (a : Nat) (w : Word64) (src : Nat) (win : Option Requester) :
    (h.memWrite a w src win).time = h.time := by
  obtain ⟨c, e⟩ := memWrite_form h a w src win
  rw [e, Hw.storeCode_time, Hw.put_time, Hw.putEntry, Hw.put_time, Hw.setEntryUpset_time, Hw.meetWrite, Hw.checkEntry_time,
    Hw.checkValid_time]

theorem Hw.memWriteHalf_time (h : Hw) (a : Nat) (hi : Bool) (w : Word) (src : Nat) (win : Option Requester) :
    (h.memWriteHalf a hi w src win).time = h.time := by
  unfold Hw.memWriteHalf
  exact (Hw.memWrite_time ..).trans (Hw.memRead_time ..)

theorem Hw.markWord_time (h : Hw) (cause : Option TrgCause) : (h.markWord cause).time = h.time := by
  unfold Hw.markWord
  split
  · dsimp only
    split
    · rw [Hw.memWriteHalf_time]
    · rfl
  · rfl

theorem Hw.capture_time (h : Hw) (n left : Nat) (x : CondHit) : (h.capture n left x).time = h.time := by
  unfold Hw.capture
  split
  · dsimp only
    split <;> simp
  · rfl

theorem Hw.unitCause_time (h : Hw) (n : Nat) (c : TrgCause) : (h.unitCause n c).time = h.time :=
  congrArg Still.time (still_unitCause h n c)

theorem Hw.listStart_time (h : Hw) (l start : Nat) : (h.listStart l start).time = h.time := by
  unfold Hw.listStart
  split
  · simp [Hw.setIlAt]
  · split <;> simp

theorem Hw.swapRequest_time (h : Hw) (s bank : Nat) : (h.swapRequest s bank).time = h.time := by
  unfold Hw.swapRequest
  dsimp only
  split
  · exact Hw.put_time ..
  · split
    · rw [Hw.put_time, Hw.put_time]
      exact when_keeps Hw.time _ _ h (Hw.put_time ..)
    · rw [Hw.put_time, Hw.setChain]

/-- Network time stands still while a transition acts. -/
theorem Hw.actions_time (h : Hw) (n acts left entered next count : Nat) (tmo : Bool) (x : CondHit) (cause : Option TrgCause) :
    (h.actions n acts left entered next count tmo x cause).time = h.time := by
  have hsignal (h : Hw) : (h.signal n next).time = h.time := each_keeps Hw.time _ (fun h m => Hw.unitCause_time h m _) _ h
  unfold Hw.actions
  exact (when_keeps Hw.time _ _ _ rfl).trans <| (when_keeps Hw.time _ _ _ (Hw.swapRequest_time ..)).trans <|
    (when_keeps Hw.time _ _ _ (Hw.listStart_time ..)).trans <| (when_keeps Hw.time _ _ _ (hsignal _)).trans <|
    (when_keeps Hw.time _ _ _ (Hw.markWord_time ..)).trans (when_keeps Hw.time _ _ _ (Hw.capture_time ..))

/-! ### Transitions -/

/-- A transition into a state, whatever its actions. -/
theorem transit_enter (h : Hw) (n acts count : Nat) {next : Nat} (tmo : Bool) (x : CondHit) (cause : Option TrgCause)
    (hn : next < 8) :
    (h.transit n acts next count tmo x cause).unitState n = next ∧
    (h.transit n acts next count tmo x cause).get (TRG_COUNT_COUNT n) = 0 ∧
    ((h.transit n acts next count tmo x cause).unitSt n).entered = h.time.now := by
  simp only [Hw.transit, hn, if_true]
  rw [← Hw.actions_time h n acts (h.unitState n) next next count tmo x cause]
  exact enterState_spec _ n hn _

/-- A transition that stops the unit, whatever its actions. -/
theorem transit_stop (h : Hw) (n acts count : Nat) (tmo : Bool) (x : CondHit) (cause : Option TrgCause) :
    (h.transit n acts 9 count tmo x cause).on (TRG_STAT_STOPPED n) = true ∧
    ((h.transit n acts 9 count tmo x cause).unitSt n).causes = [] := stopUnit_spec _ n

/-! ### One deciding cycle -/

/-- What the evaluation of unit `n`'s conditions leaves: the registers, the time, and the unit but for its histories. -/
def Hw.offHist (h : Hw) (n : Nat) : Store Word × TimeSt × UnitSt := (h.regs, h.time, { h.unitSt n with hist := [] })

theorem offHist_evalSample (h : Hw) (n s c : Nat) (cause : TrgCause) :
    (h.evalSample n s c cause).1.offHist n = h.offHist n := by
  unfold Hw.evalSample
  dsimp only
  split
  · split
    · simp only [Hw.offHist, unitSt_setUnit_same]; rfl
    · rfl
  · rfl

theorem offHist_evalAll (h : Hw) (n : Nat) (cause : TrgCause) : (h.evalAll n cause).1.offHist n = h.offHist n :=
  foldl_keeps (fun p : Hw × Bool × Bool => p.1.offHist n = h.offHist n) _
    (fun p _ hp => (offHist_evalSample p.1 ..).trans hp) _ _ rfl

theorem offHist_evalCycle (h : Hw) (n : Nat) (cs : List TrgCause) : (h.evalCycle n cs).1.offHist n = h.offHist n :=
  foldl_keeps (fun p : Hw × Found => p.1.offHist n = h.offHist n) _ (fun p _ hp => (offHist_evalAll p.1 ..).trans hp) _ _ rfl

/-- A cycle's evaluation consumes its causes, and leaves registers, time and latches. -/
theorem takeCycle_spec (h : Hw) (n : Nat) :
    (h.takeCycle n).1.regs = h.regs ∧ (h.takeCycle n).1.time = h.time ∧
    ((h.takeCycle n).1.unitSt n).causes = (h.unitSt n).causes.tail ∧
    ((h.takeCycle n).1.unitSt n).latchA = (h.unitSt n).latchA ∧ ((h.takeCycle n).1.unitSt n).latchB = (h.unitSt n).latchB := by
  have heval := offHist_evalCycle (h.setUnit n { h.unitSt n with causes := (h.unitSt n).causes.tail }) n (h.cycleCauses n)
  simp only [Hw.offHist, unitSt_setUnit_same, Prod.mk.injEq] at heval
  obtain ⟨hregs, htime, hunit⟩ := heval
  simp only [UnitSt.mk.injEq] at hunit
  obtain ⟨hcauses, hlatchA, hlatchB, -⟩ := hunit
  unfold Hw.takeCycle
  simp only [unitSt_setUnit_same]
  exact ⟨hregs, htime, hcauses, hlatchA, hlatchB⟩

/-- In a state with COMB 0 condition A alone makes the event. -/
theorem event_comb0 {h : Hw} {n : Nat} (a b : Option CondHit)
    (hcomb : h.get (TRG_ST_CTL_COMB (stateReg n (h.unitState n))) = 0) : h.event n a b = (h, a) := by
  unfold Hw.event
  rw [hcomb]
  rfl

/-- Without a hit and with a latch open no rule of combination makes an event. -/
theorem event_idle {h : Hw} {n : Nat} (hlatch : (h.unitSt n).latchA = none ∨ (h.unitSt n).latchB = none) :
    (h.event n none none).2 = none ∧ (h.event n none none).1.regs = h.regs ∧ (h.event n none none).1.time = h.time ∧
    ((h.event n none none).1.unitSt n).causes = (h.unitSt n).causes := by
  unfold Hw.event
  split
  · exact ⟨rfl, rfl, rfl, rfl⟩
  · exact ⟨rfl, rfl, rfl, rfl⟩
  · simp only [Option.or_none]
    split
    next hA hB => simp [hA, hB] at hlatch
    next => exact ⟨rfl, rfl, rfl, congrArg UnitSt.causes (unitSt_setUnit_same ..)⟩
  · exact ⟨rfl, rfl, rfl, rfl⟩

/-- A cycle in which nothing is true consumes its causes. -/
theorem decideCycle_idle {h : Hw} {n : Nat} (ha : (h.takeCycle n).2.a = none) (hb : (h.takeCycle n).2.b = none)
    (hlatch : (h.unitSt n).latchA = none ∨ (h.unitSt n).latchB = none) :
    (h.decideCycle n).2 = false ∧ (h.decideCycle n).1.regs = h.regs ∧ (h.decideCycle n).1.time = h.time ∧
    ((h.decideCycle n).1.unitSt n).causes = (h.unitSt n).causes.tail := by
  obtain ⟨hregs, htime, hcauses, hA, hB⟩ := takeCycle_spec h n
  rw [← hA, ← hB] at hlatch
  obtain ⟨hnone, hregs', htime', hcauses'⟩ := event_idle hlatch
  simp only [Hw.decideCycle, ha, hb, hnone]
  exact ⟨trivial, hregs'.trans hregs, htime'.trans htime, hcauses'.trans hcauses⟩

/-- The hub once a cycle's event has been counted. -/
def Hw.counted (h : Hw) (n : Nat) : Hw := (h.takeCycle n).1.put (TRG_COUNT_COUNT n) (h.get (TRG_COUNT_COUNT n) + 1)

theorem Hw.counted_time (h : Hw) (n : Nat) : (h.counted n).time = h.time := by
  obtain ⟨-, htime, -⟩ := takeCycle_spec h n
  exact htime

theorem get_counted_other (h : Hw) (n : Nat) (f : Fld) (hf : f.addr ≠ TRG_COUNT n) : (h.counted n).get f = h.get f := by
  obtain ⟨hregs, -⟩ := takeCycle_spec h n
  exact (get_put_other _ _ f _ hf).trans (get_of_regs hregs f)

theorem ctl_ne_count {n : Nat} (hn : n < 16) (k : Nat) : TRG_ST_CTL k ≠ TRG_COUNT n := by
  change 0x91018 + 64 * k ≠ 0x90440 + 4 * n; omega

theorem cnt_ne_count {n : Nat} (hn : n < 16) (k : Nat) : TRG_ST_CNT k ≠ TRG_COUNT n := by
  change 0x9101c + 64 * k ≠ 0x90440 + 4 * n; omega

/-- In a state with COMB 0 condition A's hit counts, and at the target it makes the state's transition. -/
theorem decideCycle_hitA {h : Hw} {n : Nat} {x : CondHit} (hn : n < 16) (ha : (h.takeCycle n).2.a = some x)
    (hcomb : h.get (TRG_ST_CTL_COMB (stateReg n (h.unitState n))) = 0) :
    h.decideCycle n =
      if max 1 (h.get (TRG_ST_CNT_TARGET (stateReg n (h.unitState n)))) ≤ h.get (TRG_COUNT_COUNT n) + 1 then
        ((h.counted n).transit n (h.get (TRG_ST_CTL_ACT_HIT (stateReg n (h.unitState n))))
          (h.get (TRG_ST_CTL_NEXT_HIT (stateReg n (h.unitState n)))) (h.get (TRG_COUNT_COUNT n) + 1) false x
          ((h.takeCycle n).2.marked x), true)
      else (h.counted n, false) := by
  obtain ⟨hregs, -⟩ := takeCycle_spec h n
  have hevent : (h.takeCycle n).1.event n (h.takeCycle n).2.a (h.takeCycle n).2.b = ((h.takeCycle n).1, some x) := by
    rw [event_comb0 _ _ (by rw [unitState_of_regs hregs, get_of_regs hregs]; exact hcomb), ha]
  have hctl (hi lo : Nat) (k : Nat) : (h.counted n).get ⟨TRG_ST_CTL k, hi, lo⟩ = h.get ⟨TRG_ST_CTL k, hi, lo⟩ :=
    get_counted_other h n _ (ctl_ne_count hn k)
  have hcnt (k : Nat) : (h.counted n).get (TRG_ST_CNT_TARGET k) = h.get (TRG_ST_CNT_TARGET k) :=
    get_counted_other h n _ (cnt_ne_count hn k)
  rw [Hw.decideCycle, hevent]
  simp only [get_of_regs hregs (TRG_COUNT_COUNT n)]
  rw [← Hw.counted, hctl, hctl, hcnt]

/-! ### The timer -/

/-- The hub once the cycle of a timeout has been evaluated: nothing is true in it, and the timer has expired. -/
def Hw.timedOut (h : Hw) (n : Nat) : Hw :=
  ((h.decideCycle n).1.put (TRG_COUNT_COUNT n) (h.get (TRG_COUNT_COUNT n))).setUnit n
    { (h.decideCycle n).1.unitSt n with expired := true }

theorem Hw.timedOut_time (h : Hw) (n : Nat) : (h.timedOut n).time = (h.decideCycle n).1.time := by
  rw [Hw.timedOut, Hw.setUnit_time, Hw.put_time]

/-- A timer that is over, with nothing that waits or has become true, makes the state's transition on a timeout. -/
theorem triggerTimeout_idle {h : Hw} {n : Nat} (hruns : h.unitRuns n = true) (hdue : h.timerDue n = true)
    (hcauses : (h.unitSt n).causes = []) (hA : h.timeReached n 0 = false) (hB : h.timeReached n 1 = false)
    (hlatch : (h.unitSt n).latchA = none ∨ (h.unitSt n).latchB = none) :
    (h.timedOut n).time = h.time ∧ ∃ acts count x, h.triggerTimeout n =
      (h.timedOut n).transit n acts (h.get (TRG_ST_CTL_NEXT_TO (stateReg n (h.unitState n)))) count true x none := by
  have hcycle : h.cycleCauses n = [] := by simp [Hw.cycleCauses, hcauses, hA, hB]
  have htake : (h.takeCycle n).2 = { a := none, b := none, words := [] } := by unfold Hw.takeCycle; rw [hcycle]; rfl
  obtain ⟨hmiss, -, htime, -⟩ := decideCycle_idle (by rw [htake]) (by rw [htake]) hlatch
  refine ⟨(Hw.timedOut_time h n).trans htime, h.get (TRG_ST_CTL_ACT_TO (stateReg n (h.unitState n))), h.get (TRG_COUNT_COUNT n),
    { code := 8, time := h.time.now, src := 0, index := 0, era := 0 }, ?_⟩
  simp only [Hw.triggerTimeout, hruns, hdue, hcauses, List.length_nil, Hw.decideOlder, hmiss, Bool.and_self, Bool.not_true,
    Bool.or_self, if_true, Bool.false_eq_true, if_false, Hw.timedOut]

/-! ### Restarts and fired causes -/

theorem each_keeps_mem {α β : Type} (q : Hw → β) (f : Hw → α → Hw) (l : List α) (hf : ∀ h, ∀ x ∈ l, q (f h x) = q h) (h : Hw) :
    q (h.each l f) = q h := by
  induction l generalizing h with
  | nil => rfl
  | cons x t ih =>
    exact (ih (fun h y hy => hf h y (List.mem_cons_of_mem _ hy)) (f h x)).trans (hf h x List.mem_cons_self)

/-- Of a row of operations only that on `n` shows in what is seen of `n`. -/
theorem each_at {β : Type} (q : Hw → β) (f : Hw → Nat → Hw) {n : Nat} (hf : ∀ h m, m ≠ n → q (f h m) = q h) {l : List Nat}
    (hn : n ∈ l) (hl : l.Nodup) (h : Hw) : ∃ g, q g = q h ∧ q (h.each l f) = q (f g n) := by
  induction l generalizing h with
  | nil => exact absurd hn List.not_mem_nil
  | cons x t ih =>
    obtain ⟨hx, ht⟩ := List.nodup_cons.mp hl
    by_cases hxn : x = n
    · subst hxn
      exact ⟨h, rfl, each_keeps_mem q f t (fun h y hy => hf h y (fun e => hx (e ▸ hy))) (f h x)⟩
    · obtain ⟨g, hg, he⟩ := ih ((List.mem_cons.mp hn).resolve_left (Ne.symm hxn)) ht (f h x)
      exact ⟨g, hg.trans (hf h x hxn), he⟩

/-- What a restart is told of a unit, and what it sets. -/
structure UnitView where
  start : Nat
  armed : Bool
  state : Nat
  stopped : Bool
  unit : UnitSt
  time : TimeSt

def Hw.unitView (h : Hw) (n : Nat) : UnitView :=
  ⟨h.get (TRG_UNIT_START n), h.armed n, h.unitState n, h.on (TRG_STAT_STOPPED n), h.unitSt n, h.time⟩

theorem unitView_put (h : Hw) (n : Nat) (f : Fld) (v : Nat) (hunit : TRG_UNIT n ≠ f.addr) (hctl : TRG_CTL ≠ f.addr)
    (hstat : TRG_STAT n ≠ f.addr) : (h.put f v).unitView n = h.unitView n := by
  unfold Hw.unitView Hw.armed Hw.unitState
  rw [get_put_other h f (TRG_UNIT_START n) v hunit, get_put_other h f TRG_CTL_ARM v hctl,
    get_put_other h f (TRG_STAT_STATE n) v hstat, on_put_other h f (TRG_STAT_STOPPED n) v hstat]
  rfl

theorem unitView_putStat (h : Hw) {n m : Nat} (hn : n < 16) (hm : m ≠ n) (hi lo v : Nat) :
    (h.put ⟨TRG_STAT m, hi, lo⟩ v).unitView n = h.unitView n := by
  refine unitView_put h n ⟨TRG_STAT m, hi, lo⟩ v ?_ ?_ ?_
  · change 0x90100 + 32 * n ≠ 0x90400 + 4 * m; omega
  · change 0x90000 ≠ 0x90400 + 4 * m; omega
  · change 0x90400 + 4 * n ≠ 0x90400 + 4 * m; omega

theorem unitView_putCount (h : Hw) {n : Nat} (hn : n < 16) (m v : Nat) :
    (h.put (TRG_COUNT_COUNT m) v).unitView n = h.unitView n := by
  refine unitView_put h n (TRG_COUNT_COUNT m) v ?_ ?_ ?_
  · change 0x90100 + 32 * n ≠ 0x90440 + 4 * m; omega
  · change 0x90000 ≠ 0x90440 + 4 * m; omega
  · change 0x90400 + 4 * n ≠ 0x90440 + 4 * m; omega

theorem unitView_setUnit_other (h : Hw) {n m : Nat} (hm : m ≠ n) (u : UnitSt) : (h.setUnit m u).unitView n = h.unitView n := by
  unfold Hw.unitView
  rw [unitSt_setUnit_other h u (Ne.symm hm)]
  rfl

/-- A unit's restart shows in no other unit. -/
theorem unitView_enterStart_other (h : Hw) {n m : Nat} (hn : n < 16) (hm : m ≠ n) : (h.enterStart m).unitView n = h.unitView n := by
  unfold Hw.enterStart Hw.enterState
  rw [unitView_putCount _ hn, unitView_putStat _ hn hm, unitView_setUnit_other _ hm, unitView_setUnit_other _ hm,
    unitView_putStat _ hn hm]

/-- A unit that is about to enter its start state: it no longer stands stopped, and its histories are clear. -/
def Hw.freshUnit (h : Hw) (n : Nat) : Hw := (h.put (TRG_STAT_STOPPED n) 0).setUnit n { h.unitSt n with hist := [] }

theorem Hw.freshUnit_time (h : Hw) (n : Nat) : (h.freshUnit n).time = h.time := by
  rw [Hw.freshUnit, Hw.setUnit_time, Hw.put_time]

theorem enterStart_eq (h : Hw) {n : Nat} (hn : n < 16) :
    h.enterStart n = (h.freshUnit n).enterState n (h.get (TRG_UNIT_START n)) false := by
  have haddr : TRG_UNIT n ≠ TRG_STAT n := by change 0x90100 + 32 * n ≠ 0x90400 + 4 * n; omega
  have hstart : (h.freshUnit n).get (TRG_UNIT_START n) = h.get (TRG_UNIT_START n) := by
    rw [Hw.freshUnit, get_setUnit, get_put_other h (TRG_STAT_STOPPED n) (TRG_UNIT_START n) 0 haddr]
  rw [← hstart, Hw.enterStart, Hw.freshUnit]

/-- A unit that enters its start state runs, since now. -/
theorem enterStart_spec (h : Hw) {n : Nat} (hn : n < 16) :
    (h.enterStart n).unitState n = h.get (TRG_UNIT_START n) ∧ (h.enterStart n).on (TRG_STAT_STOPPED n) = false ∧
    ((h.enterStart n).unitSt n).entered = h.time.now := by
  have hstart : h.get (TRG_UNIT_START n) < 8 := natBits_lt _ _ _
  obtain ⟨hstate, -, hentered⟩ := enterState_spec (h.freshUnit n) n hstart false
  rw [Hw.freshUnit_time] at hentered
  rw [enterStart_eq h hn]
  refine ⟨hstate, ?_, hentered⟩
  rw [stopped_enterState, Hw.freshUnit, on_setUnit]
  exact on_put_zero h (TRG_STAT_STOPPED n) (Nat.le_refl 31) (by decide : 31 < 32)

theorem trgRestart_spec (h : Hw) (v : Word) {n : Nat} (hn : n < 16) (hv : natBit v.toNat n = true) (harm : h.armed n = true) :
    (h.trgRestart v).unitState n = h.get (TRG_UNIT_START n) ∧ (h.trgRestart v).on (TRG_STAT_STOPPED n) = false ∧
    ((h.trgRestart v).unitSt n).entered = h.time.now := by
  obtain ⟨g, hg, hend⟩ := each_at (fun h => h.unitView n)
    (fun h m => h.when (natBit v.toNat m && h.armed m) (fun h => h.enterStart m))
    (fun h m hm => when_keeps (fun h => h.unitView n) _ _ h (unitView_enterStart_other h hn hm))
    (List.mem_range.mpr hn) List.nodup_range h
  have harmed : g.armed n = true := (congrArg UnitView.armed hg).trans harm
  obtain ⟨hstate, hstopped, hentered⟩ := enterStart_spec g hn
  simp only [hv, harmed, Bool.and_self, Hw.when, if_true] at hend
  rw [Hw.trgRestart]
  refine ⟨?_, ?_, ?_⟩
  · exact (congrArg UnitView.state hend).trans (hstate.trans (congrArg UnitView.start hg))
  · exact (congrArg UnitView.stopped hend).trans hstopped
  · exact (congrArg (fun w => w.unit.entered) hend).trans (hentered.trans (congrArg (fun w => w.time.now) hg))

theorem regs_unitCause (h : Hw) (n : Nat) (c : TrgCause) : (h.unitCause n c).regs = h.regs := by
  unfold Hw.unitCause Hw.unitCauses
  split <;> rfl

/-- What decides where a cause that reaches unit `n` waits, and what waits there. -/
def Hw.causeView (h : Hw) (n : Nat) : Store Word × TimeSt × ClkSt × UnitSt := (h.regs, h.time, h.clk, h.unitSt n)

theorem causeView_unitCause_other (h : Hw) {n m : Nat} (hm : m ≠ n) (c : TrgCause) :
    (h.unitCause m c).causeView n = h.causeView n := by
  unfold Hw.unitCause Hw.unitCauses
  split
  · unfold Hw.causeView
    rw [unitSt_setUnit_other h _ (Ne.symm hm)]
    rfl
  · rfl

theorem armed_of_regs {g h : Hw} (e : g.regs = h.regs) (n : Nat) : g.armed n = h.armed n := by
  rw [Hw.armed, Hw.armed, get_of_regs e]

theorem trgFire_causes (h : Hw) (v : Word) {n : Nat} (hn : n < 16) (hv : natBit v.toNat n = true) (harm : h.armed n = true)
    (hstop : h.on (TRG_STAT_STOPPED n) = false) :
    ((h.trgFire v).unitSt n).causes =
      if h.coreOn then queueBatch { ns := h.ns, late := false, causes := [.cmd] } (h.unitSt n).causes
      else holdBatch { ns := h.ns, late := false, causes := [.cmd] } (h.unitSt n).causes := by
  obtain ⟨g, hg, hend⟩ := each_at (fun h => h.causeView n)
    (fun h m => h.when (natBit v.toNat m) (fun h => h.unitCause m .cmd))
    (fun h m hm => when_keeps (fun h => h.causeView n) _ _ h (causeView_unitCause_other h hm .cmd))
    (List.mem_range.mpr hn) List.nodup_range h
  simp only [Hw.causeView, Prod.mk.injEq] at hg hend
  obtain ⟨hregs, htime, hclk, hunit⟩ := hg
  obtain ⟨-, -, -, hend⟩ := hend
  have hruns : (g.armed n && !g.on (TRG_STAT_STOPPED n)) = true := by
    rw [armed_of_regs hregs, on_of_regs hregs, harm, hstop]; rfl
  rw [Hw.trgFire, hend, hv, Hw.when, if_pos rfl, Hw.unitCause, Hw.unitCauses, if_pos hruns]
  rw [unitSt_setUnit_same, hunit, Hw.coreOn, Hw.coreOn, Hw.ns, Hw.ns, hclk, htime]

theorem trgFire_regs (h : Hw) (v : Word) : (h.trgFire v).regs = h.regs :=
  each_keeps Hw.regs _ (fun h m => when_keeps Hw.regs _ _ h (regs_unitCause h m .cmd)) _ h

/-! ### The units' clauses -/

theorem exec_trigger {s : State} {n : Nat} (f : Hw → Hw) (hl : s.hw.live = true) (hn : n < 16) :
    actOn s (isTrig n) f = .next { s with hw := f s.hw } := by
  rw [isTrig, decide_eq_true hn, actOn_live s f hl]

theorem exec_triggerDecide {s : State} {n : Nat} (hl : s.hw.live = true) (hn : n < 16) (hruns : s.hw.unitRuns n = true)
    (hcauses : (s.hw.cycleCauses n).isEmpty = false) :
    exec (.triggerDecide n) s = .next { s with hw := (s.hw.decideCycle n).1 } := by
  refine (exec_trigger (fun h => h.triggerDecide n) hl hn).trans ?_
  simp only [Hw.triggerDecide, hruns, hcauses, Bool.not_false, Bool.and_self, if_true]

/-- Settles O21: each decision by what its cycle finds. That no action of a transition moves network time is `Hw.actions_time`,
and that the other units' restarts and causes do not show in a unit is `each_at`. -/
theorem burgeeUnits : Obligations.BurgeeUnits := by
  unfold Obligations.BurgeeUnits
  refine ⟨?_, ?_, ?_, ?_, ?_, ?_, ?_, ?_⟩
  · intro s n hl hn hruns hcauses ha hb hlatch
    obtain ⟨-, hregs, -, htail⟩ := decideCycle_idle ha hb hlatch
    exact ⟨_, exec_triggerDecide hl hn hruns hcauses, unitState_of_regs hregs n, get_of_regs hregs _, htail⟩
  · intro s n hl hn hruns hcauses hcomb ha hbelow
    obtain ⟨x, hx⟩ := Option.isSome_iff_exists.mp ha
    have htarget : s.hw.get (TRG_ST_CNT_TARGET (stateReg n (s.hw.unitState n))) < 2 ^ 32 := natBits_lt _ _ _
    refine ⟨_, exec_triggerDecide hl hn hruns hcauses, ?_⟩
    rw [decideCycle_hitA hn hx hcomb, if_neg (Nat.not_le.mpr hbelow)]
    refine ⟨get_counted_other s.hw n (TRG_STAT_STATE n) (stat_ne_count n), ?_⟩
    exact (get_put_same _ (TRG_COUNT_COUNT n) _ (Nat.zero_le 31) (by decide : 31 < 32)).trans
      (Nat.mod_eq_of_lt (by change _ < 2 ^ 32; omega))
  · intro s n hl hn hruns hcauses hcomb ha hat _ hnext
    obtain ⟨x, hx⟩ := Option.isSome_iff_exists.mp ha
    refine ⟨_, exec_triggerDecide hl hn hruns hcauses, ?_⟩
    rw [decideCycle_hitA hn hx hcomb, if_pos hat, ← Hw.counted_time s.hw n]
    exact transit_enter _ n _ _ _ _ _ hnext
  · intro s n hl hn hruns hcauses hcomb ha hat _ hnext
    obtain ⟨x, hx⟩ := Option.isSome_iff_exists.mp ha
    refine ⟨_, exec_triggerDecide hl hn hruns hcauses, ?_⟩
    rw [decideCycle_hitA hn hx hcomb, if_pos hat, hnext]
    exact transit_stop _ n _ _ _ _ _
  · intro s n hl hn hruns hdue hcauses hA hB hlatch hnext
    obtain ⟨htime, acts, count, x, he⟩ := triggerTimeout_idle hruns hdue hcauses hA hB hlatch
    refine ⟨_, exec_trigger (fun h => h.triggerTimeout n) hl hn, ?_⟩
    obtain ⟨hstate, hcount, hentered⟩ := transit_enter (s.hw.timedOut n) n acts count true x none hnext
    rw [he, ← htime]
    exact ⟨hstate, hentered, hcount⟩
  · intro s n hl hn hruns hdue hcauses hA hB hlatch hnext
    obtain ⟨-, acts, count, x, he⟩ := triggerTimeout_idle hruns hdue hcauses hA hB hlatch
    refine ⟨_, exec_trigger (fun h => h.triggerTimeout n) hl hn, ?_⟩
    rw [he, hnext]
    exact transit_stop _ n _ _ _ _ _
  · intro s q v n hq hn hv harm
    exact ⟨_, accWrite_open s q (fun h => h.trgRestart v) hq, trgRestart_spec s.hw v hn hv harm⟩
  · intro s q v n hq hn hv harm hstop
    exact ⟨_, accWrite_open s q (fun h => h.trgFire v) hq, trgFire_causes s.hw v hn hv harm hstop, trgFire_regs s.hw v⟩

end Sys2Proof.Machine

/-! ## A trigger that finds no entry once more (R300) -/

namespace Sys2Proof.Machine

theorem on_nextCapture (h : Hw) (n : Nat) : (h.nextCapture n).on (TRG_STAT_TFULL n) = h.on (TRG_STAT_TFULL n) := by
  unfold Hw.nextCapture
  rw [Hw.on, get_put_field _ (by decide) (by decide) (by decide) (by decide), get_setUnit]
  rfl

theorem fullT_nextCapture (h : Hw) (n : Nat) : ((h.nextCapture n).unitSt n).fullT = (h.unitSt n).fullT := by
  unfold Hw.nextCapture
  rw [unitSt_put, unitSt_setUnit_same]

/-- R300: until an allocation succeeds, a further trigger that finds no entry is counted, and raises nothing. -/
theorem missTrigger_told {h : Hw} {n : Nat} (htold : (h.unitSt n).fullT = true) :
    h.missTrigger n true = h.bump (TRG_MISSED_MISSED n) 1 := by
  simp only [Hw.missTrigger, htold, if_true]

/-- Such a trigger leaves TFULL as it stands. -/
theorem tfull_allocate_told {h : Hw} {n : Nat} {r : CapReq} (hr : (h.unitSt n).alloc = some r)
    (hen : h.on (TRG_CAP_EN n) = true) (hslots : h.nslots n ≠ 0) (htaken : h.segState (h.unitSt n).next ≠ 0)
    (htold : (h.unitSt n).fullT = true) : (h.allocate n).on (TRG_STAT_TFULL n) = h.on (TRG_STAT_TFULL n) := by
  have hcap : natBit (h.reg (TRG_CAP n)).toNat 31 = true := (decide_bits_bit _ 31).symm.trans hen
  have haddr : TRG_STAT n ≠ TRG_MISSED n := by change 0x90400 + 4 * n ≠ 0x90480 + 4 * n; omega
  have hmiss : h.allocate n = (h.nextCapture n).missTrigger n true := by
    simp only [Hw.allocate, hr, hcap, hslots, htaken, Bool.true_eq_false, or_self, if_false, ne_eq, not_false_eq_true, if_true]
  rw [hmiss, missTrigger_told ((fullT_nextCapture h n).trans htold), Hw.bump,
    on_put_other _ (TRG_MISSED_MISSED n) (TRG_STAT_TFULL n) _ haddr, on_nextCapture]

theorem exec_segmentAllocate {s : State} {n : Nat} (hl : s.hw.live = true) (hc : s.hw.coreOn = true) (hn : n < 16) :
    exec (.segmentAllocate n) s = .next { s with hw := s.hw.allocate n } := by
  refine (exec_trigger (fun h => h.when h.coreOn (fun h => h.allocate n)) hl hn).trans ?_
  rw [hc]
  rfl

/-! ### The counterexample -/

/-- A CAPTURE that waits for unit 0's allocator. -/
def waitingCapture : CapReq := { hit := { code := 4, time := 0, src := 0, index := 0, era := 0 }, stateAt := 0 }

/-- A hub whose unit 0 has one CAPTURE in the allocator and one held, while its one entry is closed and not released. -/
def twoCapturesHub : Hw :=
  (((({ hw0 with
      boot := { hw0.boot with phase := .running }
      clk := { hw0.clk with core := { hw0.clk.core with mode := .on } } } : Hw).put (TRG_CAP_EN 0) 1).put
    (TRG_CAP_POOL_LEN_TILES 0) 1).setSegState 0 3).setUnit 0
    { unit0 with alloc := some waitingCapture, heldReq := some waitingCapture }

/-- That hub once the first CAPTURE has been missed, which sets TFULL, and firmware has cleared TFULL (W1C). -/
def clearedTfullHub : State := { State.reset with hw := (twoCapturesHub.allocate 0).put (TRG_STAT_TFULL 0) 0 }

theorem clearedTfullHub_live : clearedTfullHub.hw.live = true := by decide +kernel

theorem clearedTfullHub_coreOn : clearedTfullHub.hw.coreOn = true := by decide +kernel

theorem clearedTfullHub_alloc : (clearedTfullHub.hw.unitSt 0).alloc = some waitingCapture := by decide +kernel

theorem clearedTfullHub_enabled : clearedTfullHub.hw.on (TRG_CAP_EN 0) = true := by decide +kernel

theorem clearedTfullHub_slots : clearedTfullHub.hw.nslots 0 ≠ 0 := by decide +kernel

theorem clearedTfullHub_next : (clearedTfullHub.hw.unitSt 0).next < 4096 := by decide +kernel

theorem clearedTfullHub_taken : clearedTfullHub.hw.segState (clearedTfullHub.hw.unitSt 0).next ≠ 0 := by decide +kernel

theorem clearedTfullHub_told : (clearedTfullHub.hw.unitSt 0).fullT = true := by decide +kernel

theorem clearedTfullHub_tfull : clearedTfullHub.hw.on (TRG_STAT_TFULL 0) = false :=
  on_put_zero _ (TRG_STAT_TFULL 0) (by decide) (by decide)

/-- The clause that the counterexample refutes. -/
theorem tfull_of_captureSegments (h : Obligations.CaptureSegments) {s : State} {n : Nat} {r : CapReq} (hl : s.hw.live = true)
    (hc : s.hw.coreOn = true) (hn : n < 16) (hr : (s.hw.unitSt n).alloc = some r) (hen : s.hw.on (TRG_CAP_EN n) = true)
    (hslots : s.hw.nslots n ≠ 0) (hnext : (s.hw.unitSt n).next < 4096) (htaken : s.hw.segState (s.hw.unitSt n).next ≠ 0) :
    (s.hw.allocate n).on (TRG_STAT_TFULL n) = true := by
  unfold Obligations.CaptureSegments at h
  obtain ⟨-, hmissed, -⟩ := h
  obtain ⟨x, hx, -, htfull, -⟩ := hmissed s n r hl hc hn hr hen hslots hnext htaken
  obtain rfl := Host.Outcome.next.inj ((exec_segmentAllocate hl hc hn).symm.trans hx)
  exact htfull

/-- Refutes O22: SEGMENT_TABLE_FULL is raised once until an allocation succeeds (R300), and firmware can clear TFULL between two
missed triggers. The second one is counted, but leaves TFULL clear, where the statement has TFULL set after every trigger that
finds its entry taken. -/
theorem not_captureSegments : ¬ Obligations.CaptureSegments := fun h =>
  have hset := tfull_of_captureSegments h clearedTfullHub_live clearedTfullHub_coreOn (by decide) clearedTfullHub_alloc
    clearedTfullHub_enabled clearedTfullHub_slots clearedTfullHub_next clearedTfullHub_taken
  have hkept := tfull_allocate_told clearedTfullHub_alloc clearedTfullHub_enabled clearedTfullHub_slots clearedTfullHub_taken
    clearedTfullHub_told
  Bool.false_ne_true (clearedTfullHub_tfull.symm.trans (hkept.symm.trans hset))

end Sys2Proof.Machine

/-! ## An armed flip mask that a safe state changes before its write (R345, R514, R558) -/

namespace Sys2Proof.Machine

theorem exec_memWindowWrite {s : State} {q : Requester} {a : Nat} (v : Word) (hq : s.hw.writable q = true)
    (ha : isWindow a = true) :
    exec (.memWindowWrite q a v) s = .next { s with hw := s.hw.windowWrite q a v, rdata := [], status := 0 } := by
  change accWrite s q (isWindow a) (fun h => h.windowWrite q a v) = _
  rw [ha, accWrite_open s q _ hq]

/-- A running hub with a mask armed that is to invert bit 1 of the code word, and with one copy of the valid bit of memory word 0
upset; the role of unit 130,052 would stand where the mask's two lowest bits stand. -/
def strayMaskHub : State :=
  let h : Hw := { strayUnitHub srcMemCe 130052 with mem := { hw0.mem with valid := [(0, 1)], flipBy := some .mspi } }
  let armed : Hw := ((h.put SYS_BOOT_MODE 1).put MEM_FLIPMASK_LO_DATA_LO 2).put MEM_FLIPMASK_HI_ARMED 1
  { State.reset with hw := armed.setHeld .mspi 0x10000000 (some 0) }

theorem strayMaskHub_writable : strayMaskHub.hw.writable .mspi = true := by decide +kernel

theorem strayMaskHub_held : strayMaskHub.hw.heldAt .mspi (0x10000004 - 4) = some 0 := by decide +kernel

theorem strayMaskHub_armed : strayMaskHub.hw.on MEM_FLIPMASK_HI_ARMED = true := by decide +kernel

theorem strayMaskHub_mask : strayMaskHub.hw.flipMask = 2 := by decide +kernel

/-- The code word of zero data is 0: what is stored is the mask. The write first repairs the valid bit and raises MEM_CE; the
safe state writes role 1 over bits 1 and 0 of the mask. -/
theorem strayMaskHub_stored : (strayMaskHub.hw.windowWrite .mspi 0x10000004 0).memStored 0 = 1 := by decide +kernel

theorem secEncode_zero : secEncode (word64 0 0) = 0 := by decide +kernel

/-- The clause that the counterexample refutes. -/
theorem memStored_windowWrite_of_captureMemory (h : Obligations.CaptureMemory) {s : State} {q : Requester} {a : Nat}
    {v lo : Word} (hq : s.hw.writable q = true) (ha : isWindow a = true) (hhigh : a % 8 = 4)
    (hheld : s.hw.heldAt q (a - 4) = some lo) (harmed : s.hw.on MEM_FLIPMASK_HI_ARMED = true)
    (hby : s.hw.mem.flipBy = some q) :
    (s.hw.windowWrite q a v).memStored (windowWord a).1 = secEncode (word64 lo v) ^^^ s.hw.flipMask := by
  unfold Obligations.CaptureMemory at h
  obtain ⟨-, -, hflipped, -⟩ := h
  obtain ⟨x, hx, hstored, -⟩ := hflipped s q a v lo hq ha hhigh hheld harmed (Or.inr hby)
  obtain rfl := Host.Outcome.next.inj ((exec_memWindowWrite v hq ha).symm.trans hx)
  exact hstored

/-- Refutes O23: in a state that holds a front-end step of unit 130,052 (no command makes one, but the statement is about every
state), the stored code word differs from that of the data by another mask than the armed one. The write repairs a copy of the
word's valid bit; MEM_CE is mapped to the safe state, which abandons the step and writes role 1 to the step's unit, whose
register would be MEM_FLIPMASK_LO. -/
theorem not_captureMemory : ¬ Obligations.CaptureMemory := fun h =>
  have hstored := memStored_windowWrite_of_captureMemory h (v := 0) strayMaskHub_writable (by decide : isWindow 0x10000004 = true)
    (by decide) strayMaskHub_held strayMaskHub_armed rfl
  have hmask : (0 : Word72) ^^^ strayMaskHub.hw.flipMask = 2 := congrArg (0 ^^^ ·) strayMaskHub_mask
  absurd (strayMaskHub_stored.symm.trans (hstored.trans (secEncode_zero ▸ hmask))) (by decide)

end Sys2Proof.Machine

/-! ## What every command leaves beside the hub (R436, R591, R618) -/

namespace Sys2Proof.Machine

/-! ### The shape of a command's meaning -/

/-- The commands whose meaning is neither an operation on the hub nor a register write with a row of its own: the accesses that
answer words, the snapshot, the two events of a boundary, the transactions and critical commands of the FIFOs, and the starts. -/
def hasOwnShape : Instr → Bool
  | .registerWrite _ _ _ _ | .rcRead _ _ | .multiwordLatchRead _ _ | .frameBoundary _ _ | .commitApply | .snapTake
  | .snapRel _ | .snapTimeout | .domainWakeDone _ | .seqTableWrite _ _ _ | .backfillSubmit _ _ _ | .regRead | .regWrite
  | .snapRead | .capDisc | .fltEvtQueueRead _ | .timNowRead _ _ | .powerOn | .resetN _ | .aonResetEnd _ | .otpReadDone _
  | .mspiRead _ _ | .mspiWrite _ _ | .lifecycle _ _ | .keyRotate _ _ | .imageWrite _ _ | .recorderErase _ _
  | .forcePort _ _ | .resume _ _ | .zeroize _ _ | .debugUnlock _ _ | .factoryReset _ _ | .commandRestart | .aonResetBegin
  | .erasureComplete => true
  | _ => false

theorem exists_actOn_of_onPort {s : State} {e : Out} (h : ∃ b f, e = onPort s b f) : ∃ b f, e = actOn s b f :=
  let ⟨b, _, he⟩ := h
  ⟨b, _, he⟩

/-- Every other command is one of the two shared shapes. -/
theorem exec_shape (c : Instr) (s : State) (hc : hasOwnShape c = false) :
    (∃ b f, exec c s = actOn s b f) ∨ ∃ q b f, exec c s = accWrite s q b f := by
  unfold exec
  cases c with
  | calStepStart t => exact Or.inl (by cases t <;> exact ⟨_, _, rfl⟩)
  | commitGo | snapReq | tstatOvClear | reversedClear | syncScheduleArm | syncScheduleCancel | hkCtlWrite | ilStart
  | adcCoreRehab | filSwap | trgRestart | trgFire | trgSegRel | memWindowWrite | memClr | tileReseal | flipmaskArm
  | cinJobGo | cinJobResume | cinJobAbort | cinOutRdWrite | lnkRetrain | forceWrite | timIncrWrite | timAdjWrite
  | timSetWrite | timLock | calRunAll | faultStatusClear | safeEnter | safeResume | recTrigger | recFetch
  | recBuntClr | recSlotBadClear | startFree => exact Or.inr ⟨_, _, _, rfl⟩
  | registerWrite | rcRead | multiwordLatchRead | frameBoundary | commitApply | snapTake | snapRel | snapTimeout
  | domainWakeDone | seqTableWrite | backfillSubmit | regRead | regWrite | snapRead | capDisc | fltEvtQueueRead
  | timNowRead | powerOn | resetN | aonResetEnd | otpReadDone | mspiRead | mspiWrite | lifecycle | keyRotate
  | imageWrite | recorderErase | forcePort | resume | zeroize | debugUnlock | factoryReset | commandRestart
  | aonResetBegin | erasureComplete => cases hc
  | portDownEnd | clockLaneLocked | lockDone | portUp | trainingFail | laneDown | clockLaneLoss | widthChange
  | widthBlockReceive | laneReadmit | trackBound | recalTimeout | laneReequalise | clockEqStep | laneSleep
  | sleepBlockReceive | laneWake | abortBlockReceive | frameHeaderReceive | frameTrailerCheck | frameForward
  | egressSend | egressLagDrop | linkCtlWake | linkCtlStatus | linkCtlRetrain | crcWindowEnd | wakeAmReceive =>
    exact Or.inl (exists_actOn_of_onPort ⟨_, _, rfl⟩)
  | _ => exact Or.inl ⟨_, _, rfl⟩

/-! ### OTP, the queue and STATUS -/

/-- `x` has the OTP array and the queue of `s`, and a STATUS that the spec names if `s` has one. -/
structure State.Beside (s x : State) : Prop where
  otp : x.otp = s.otp
  pending : x.pending = s.pending
  status : s.status ≤ 8 → x.status ≤ 8

namespace State.Beside

theorem refl (s : State) : s.Beside s := ⟨rfl, rfl, id⟩

theorem trans {s t u : State} (h : s.Beside t) (k : t.Beside u) : s.Beside u :=
  ⟨k.otp.trans h.otp, k.pending.trans h.pending, k.status ∘ h.status⟩

/-- The hub and the snapshot may become anything. -/
theorem withHw (s : State) (h : Hw) (f : Option Hw) : s.Beside { s with hw := h, frozen := f } := ⟨rfl, rfl, id⟩

/-- An access may answer any words, with a STATUS that the spec names. -/
theorem answered (s : State) (h : Hw) (f : Option Hw) (ws : List Word) {n : Nat} (hn : n ≤ 8) :
    s.Beside { s with hw := h, frozen := f, rdata := ws, status := n } := ⟨rfl, rfl, fun _ => hn⟩

theorem ite {s t u : State} {p : Prop} [Decidable p] (ht : s.Beside t) (hu : s.Beside u) : s.Beside (if p then t else u) := by
  split
  · exact ht
  · exact hu

end State.Beside

open State.Beside

/-! ### The snapshot and the commit -/

theorem State.snapTake_beside (s : State) : s.Beside s.snapTake := by
  unfold State.snapTake
  split
  · exact .ite (withHw s _ _) (.refl s)
  · exact .refl s

theorem State.snapRelease_beside (s : State) : s.Beside s.snapRelease := withHw s _ _

theorem State.snapRel_beside (s : State) (q : Requester) : s.Beside (s.snapRel q) := .ite s.snapRelease_beside (.refl s)

theorem State.snapTimeout_beside (s : State) : s.Beside s.snapTimeout := .ite s.snapRelease_beside (.refl s)

theorem State.snapWrite_beside (s : State) (q : Requester) (v : Word) : s.Beside (s.snapWrite q v) := by
  have hrel : s.Beside (if v.toNat.testBit 1 then
      ({ s with hw := s.hw.clearBits SYS_SNAP 0x8 v } : State).snapRel q else { s with hw := s.hw.clearBits SYS_SNAP 0x8 v }) :=
    .ite ((withHw s _ _).trans (State.snapRel_beside _ q)) (withHw s _ _)
  exact .ite (hrel.trans (withHw _ _ _)) hrel

theorem State.commitApply_beside (s : State) : s.Beside s.commitApply := by
  unfold State.commitApply
  split
  · split
    · exact s.snapTake_beside.trans (withHw _ _ _)
    · exact .refl s
  · exact .refl s

theorem State.boundarySnap_beside (s : State) : s.Beside s.boundarySnap := .ite s.snapTake_beside (.refl s)

/-! ### Accesses -/

theorem Hw.tableWrite_status (h : Hw) (q : Requester) (a : Nat) (v : Word) : (h.tableWrite q a v).2 ≤ 8 := by
  unfold Hw.tableWrite
  simp only [apply_ite Prod.snd]
  split
  · omega
  · split <;> omega

theorem Hw.backfillWrite_status (h : Hw) (q : Requester) (d : Option Nat) (v : Word) : (h.backfillWrite q d v).2 ≤ 8 := by
  unfold Hw.backfillWrite
  simp only [apply_ite Prod.snd]
  split
  · split <;> omega
  · omega

/-- The STATUS of a register whose write has an effect of its own is BUSY, DENIED or OK. -/
theorem Hw.ownWrite_status {h : Hw} {q : Requester} {src a : Nat} {v : Word} {r : Hw × Nat}
    (hr : h.ownWrite q src a v = some r) : r.2 ≤ 8 := by
  unfold Hw.ownWrite at hr
  dsimp only at hr
  split at hr <;> grind [Hw.tableWrite_status, Hw.backfillWrite_status]

theorem Hw.busWrite_status (h : Hw) (q : Requester) (src a : Nat) (v : Word) : (h.busWrite q src a v).2 ≤ 8 := by
  unfold Hw.busWrite
  split
  · exact Nat.zero_le _
  · split
    · exact Hw.ownWrite_status ‹_›
    · simp only [apply_ite Prod.snd, ite_self]
      exact Nat.zero_le _

theorem State.busWrite_status (s : State) (q : Requester) (src a : Nat) (v : Word) : (s.busWrite q src a v).2 ≤ 8 := by
  unfold State.busWrite
  simp only [apply_ite Prod.snd]
  grind [Hw.busWrite_status]

theorem State.busWrite_beside (s : State) (q : Requester) (src a : Nat) (v : Word) : s.Beside (s.busWrite q src a v).1 := by
  unfold State.busWrite
  simp only [apply_ite Prod.fst]
  exact .ite (.refl s) (.ite (.refl s) (.ite (s.snapWrite_beside q v) (withHw s _ _)))

theorem State.writeWords_beside (q : Requester) (src : Nat) (ws : List Word) :
    ∀ (s : State) (a n : Nat), s.Beside (s.writeWords q src a ws n).1 := by
  induction ws with
  | nil => intro s a n; exact .refl s
  | cons v vs ih =>
    intro s a n
    unfold State.writeWords
    simp only [apply_ite Prod.fst]
    exact .ite ((s.busWrite_beside q src a v).trans (ih _ _ _)) (s.busWrite_beside q src a v)

/-- Words are written until one is refused: the STATUS is that one's. -/
theorem State.writeWords_status (q : Requester) (src : Nat) (ws : List Word) :
    ∀ (s : State) (a n : Nat), (s.writeWords q src a ws n).2.1 ≤ 8 := by
  induction ws with
  | nil => intro s a n; exact Nat.zero_le _
  | cons v vs ih =>
    intro s a n
    unfold State.writeWords
    dsimp only
    split
    · exact ih _ _ _
    · exact s.busWrite_status q src a v

theorem State.mspiWords_beside (ws : List Word) : ∀ (s : State) (a : Nat), s.Beside (s.mspiWords a ws) := by
  induction ws with
  | nil => intro s a; exact .refl s
  | cons v vs ih => intro s a; exact (s.busWrite_beside .mspi 0 a v).trans (ih _ _)

theorem State.mspiDo_beside (s : State) (m : MspiAccess) : s.Beside (s.mspiDo m) := by
  cases m with
  | read a n => exact .ite (answered s _ _ _ (Nat.zero_le _)) (answered s _ _ _ (Nat.zero_le _))
  | write a ws => exact (State.mspiWords_beside ws s _).trans (answered _ _ _ _ (Nat.zero_le _))

theorem State.mspiAccess_beside (s : State) (m : MspiAccess) : s.Beside (s.mspiAccess m) :=
  .ite (s.mspiDo_beside m) (answered s _ _ _ (Nat.zero_le _))

theorem foldl_mspiDo_beside (l : List MspiAccess) : ∀ s : State, s.Beside (l.foldl State.mspiDo s) := by
  induction l with
  | nil => exact .refl
  | cons m t ih => intro s; exact (s.mspiDo_beside m).trans (ih _)

theorem State.mspiServe_beside (s : State) : s.Beside s.mspiServe :=
  .ite ((withHw s _ _).trans (foldl_mspiDo_beside _ _)) (.refl s)

theorem State.readOne_beside (s : State) (q : Requester) (a : Nat) : s.Beside (s.readOne q a) :=
  answered s _ _ _ (by split <;> decide)

/-! ### Commands of the FIFOs -/

theorem State.takeCommand_beside (is : Frame → Bool) (f : State → Port → CmdEntry → State)
    (hf : ∀ (s : State) p e, s.Beside (f s p e)) (s : State) : s.Beside (s.takeCommand is f) := by
  unfold State.takeCommand
  split
  · exact .refl s
  · split
    · exact .ite (.ite ((withHw s _ _).trans (hf _ _ _)) (withHw s _ _)) (.refl s)
    · exact .refl s

theorem State.respond_beside (s : State) (p : Port) (e : CmdEntry) (l : List Byte) : s.Beside (s.respond p e l) := withHw s _ _

theorem State.regRead_beside (s : State) (p : Port) (e : CmdEntry) : s.Beside (s.regRead p e) := by
  unfold State.regRead
  dsimp only
  split
  · exact s.respond_beside p e _
  · exact .ite (s.respond_beside p e _) ((answered s _ _ _ (Nat.zero_le _)).trans (State.respond_beside _ p e _))

theorem State.regWrite_beside (s : State) (p : Port) (e : CmdEntry) : s.Beside (s.regWrite p e) := by
  unfold State.regWrite
  dsimp only
  split
  · exact s.respond_beside p e _
  · exact .ite (s.respond_beside p e _) (((State.writeWords_beside _ _ _ s _ _).trans
      (answered _ _ _ _ (State.writeWords_status _ _ _ s _ _))).trans (State.respond_beside _ p e _))

theorem State.capDisc_beside (s : State) (p : Port) (e : CmdEntry) : s.Beside (s.capDisc p e) :=
  .ite (s.respond_beside p e _) (s.respond_beside p e _)

theorem State.snapAnswer_beside (s : State) (p : Port) (e : CmdEntry) : s.Beside (s.snapAnswer p e) :=
  (answered s _ _ _ (Nat.zero_le _)).trans (State.respond_beside _ p e _)

theorem State.snapRead_beside (s : State) : s.Beside s.snapRead := by
  have answer : ∀ (t : State) (p : Port) (e : CmdEntry), t.Beside
      (if t.hw.epoch.snapAuto then (t.snapAnswer p e).snapRelease else t.snapAnswer p e) := fun t p e =>
    .ite ((t.snapAnswer_beside p e).trans (State.snapRelease_beside _)) (t.snapAnswer_beside p e)
  unfold State.snapRead
  dsimp only
  split
  · refine .ite (.refl s) (.ite (s.takeCommand_beside _ _ fun t p e => ?_)
      (.ite (s.takeCommand_beside _ _ answer) (.ite (.ite (.trans ?_ (State.takeCommand_beside _ _ answer _)) ?_) (.refl s))))
    · split <;> exact t.respond_beside p _ _
    all_goals exact .trans (.ite (.refl s) (withHw s _ _)) (State.snapTake_beside _)
  · exact .refl s

/-! ### Starts -/

theorem State.startAs_beside (s : State) (src : Nat) : s.Beside (s.startAs src) := answered s _ _ _ (Nat.zero_le _)

theorem State.powerLoss_beside (s : State) : s.Beside s.powerLoss := answered s _ _ _ (Nat.zero_le _)

theorem State.resetPulse_beside (s : State) (n : Nat) : s.Beside (s.resetPulse n) :=
  .ite (.refl s) (.ite (s.startAs_beside _) (.ite ((withHw s _ _).trans (State.startAs_beside _ _)) (withHw s _ _)))

theorem State.erased_beside (s : State) : s.Beside s.erased := by
  unfold State.erased
  split
  · exact (withHw s _ _).trans (State.startAs_beside _ _)
  · exact .refl s

/-! ### Every command but the critical ones -/

theorem beside_of_next {s t x : State} (h : (Host.Outcome.next t : Out) = .next x) (ht : s.Beside t) : s.Beside x :=
  Host.Outcome.next.inj h ▸ ht

/-- A command that is not critical leaves OTP and the queue as they are, and a STATUS that the spec names. -/
theorem exec_beside (c : Instr) (s x : State) (hc : c.isCritical = false) (h : exec c s = .next x) : s.Beside x := by
  cases hown : hasOwnShape c
  · obtain ⟨b, f, hf⟩ | ⟨q, b, f, hf⟩ := exec_shape c s hown <;> rw [hf] at h
    · obtain ⟨hotp, -, -, hstatus, hpending⟩ := actOn_frame s x b f h
      exact ⟨hotp, hpending, hstatus.trans_le⟩
    · obtain ⟨-, rfl⟩ := accWrite_next s x q b f h
      exact answered s _ _ _ (Nat.zero_le _)
  · unfold exec at h
    cases c with
    | registerWrite q n a v =>
      simp only [execRegisterWrite] at h
      split at h
      · exact beside_of_next h ((s.busWrite_beside q 0 a v).trans (answered _ _ _ _ (s.busWrite_status q 0 a v)))
      · exact beside_of_next h (answered s _ _ _ (by decide))
    | rcRead | multiwordLatchRead => exact beside_of_next h (s.readOne_beside _ _)
    | frameBoundary => exact beside_of_next h (.ite (s.boundarySnap_beside.trans (withHw _ _ _)) (.refl s))
    | commitApply => exact beside_of_next h (.ite s.commitApply_beside (.refl s))
    | snapTake => exact beside_of_next h (.ite s.snapTake_beside (.refl s))
    | snapRel q =>
      exact beside_of_next h (.ite ((s.snapRel_beside q).trans (answered _ _ _ _ (Nat.zero_le _)))
        (answered s _ _ _ (Nat.zero_le _)))
    | snapTimeout => exact beside_of_next h (.ite s.snapTimeout_beside (.refl s))
    | domainWakeDone d =>
      simp only [execDomainWakeDone] at h
      split at h
      · exact beside_of_next h (.ite ((withHw s _ _).trans (State.mspiServe_beside _)) (.refl s))
      · cases h
    | seqTableWrite q a v =>
      simp only [execSeqTableWrite] at h
      split at h
      · refine beside_of_next h (answered s _ _ _ ?_)
        split
        · exact s.hw.tableWrite_status q a v
        · exact Nat.zero_le _
      · cases h
    | backfillSubmit q src v =>
      simp only [execBackfillSubmit] at h
      split at h
      · exact beside_of_next h (answered s _ _ _ (s.hw.backfillWrite_status q _ v))
      · exact beside_of_next h (answered s _ _ _ (Nat.zero_le _))
    | regRead => exact beside_of_next h (s.takeCommand_beside _ _ State.regRead_beside)
    | regWrite => exact beside_of_next h (s.takeCommand_beside _ _ State.regWrite_beside)
    | snapRead => exact beside_of_next h s.snapRead_beside
    | capDisc => exact beside_of_next h (s.takeCommand_beside _ _ State.capDisc_beside)
    | fltEvtQueueRead q =>
      simp only [execFltEvtQueueRead] at h
      split at h
      · split at h <;> exact beside_of_next h (answered s _ _ _ (Nat.zero_le _))
      · exact beside_of_next h (answered s _ _ _ (Nat.zero_le _))
    | timNowRead q d =>
      simp only [execTimNowRead] at h
      split at h <;> exact beside_of_next h (answered s _ _ _ (Nat.zero_le _))
    | powerOn => exact beside_of_next h (s.startAs_beside _)
    | resetN n => exact beside_of_next h (s.resetPulse_beside n)
    | aonResetEnd | otpReadDone => exact beside_of_next h (withHw s _ _)
    | mspiRead | mspiWrite => exact beside_of_next h (.ite (s.mspiAccess_beside _) (.refl s))
    | commandRestart => exact beside_of_next h (.ite (s.startAs_beside _) (.refl s))
    | aonResetBegin => exact beside_of_next h s.powerLoss_beside
    | erasureComplete => exact beside_of_next h (.ite s.erased_beside (.refl s))
    | lifecycle | keyRotate | imageWrite | recorderErase | forcePort | resume | zeroize | debugUnlock | factoryReset =>
      cases hc
    | _ => cases hown

/-- Settles O54: no command but the nine critical ones touches the array. -/
theorem onlyCriticalCommandsProgramOtp : Obligations.OnlyCriticalCommandsProgramOtp := fun c s x hc h =>
  (exec_beside c s x hc h).otp

end Sys2Proof.Machine

/-! ## What programming does to the OTP array (R618, R621, R623, R630) -/

namespace Sys2Proof.Machine

/-! ### Programming goes one way -/

/-- Of an array that has its shape, `b` is what programming may make, and has its shape. -/
def LcsSt.LeadsTo (a b : LcsSt) : Prop := a.shaped = true → a.within b ∧ b.shaped = true

theorem KeySlot.within_refl (k : KeySlot) : k.within k := ⟨fun h => ⟨h, rfl⟩, id⟩

theorem LcsSt.within_refl (o : LcsSt) : o.within o :=
  ⟨fun _ _ _ h => h, fun _ _ => KeySlot.within_refl _, fun _ _ => KeySlot.within_refl _, rfl, rfl⟩

theorem LcsSt.LeadsTo.refl (o : LcsSt) : o.LeadsTo o := fun h => ⟨o.within_refl, h⟩

theorem LcsSt.LeadsTo.trans {a b c : LcsSt} (hab : a.LeadsTo b) (hbc : b.LeadsTo c) : a.LeadsTo c := by
  intro ha
  obtain ⟨⟨hstate, hcmd, himg, hregs, htrims⟩, hb⟩ := hab ha
  obtain ⟨⟨kstate, kcmd, kimg, kregs, ktrims⟩, hc⟩ := hbc hb
  have slot {k l m : KeySlot} (h : k.within l) (g : l.within m) : k.within m :=
    ⟨fun hw => ⟨(g.1 (h.1 hw).1).1, (g.1 (h.1 hw).1).2.trans (h.1 hw).2⟩, g.2 ∘ h.2⟩
  exact ⟨⟨fun k hk i => kstate k hk i ∘ hstate k hk i, fun i hi => slot (hcmd i hi) (kcmd i hi),
    fun i hi => slot (himg i hi) (kimg i hi), kregs.trans hregs, ktrims.trans htrims⟩, hc⟩

theorem LcsSt.shaped_iff (o : LcsSt) :
    o.shaped = true ↔ (o.copies.length = 3 ∧ o.cmdKeys.length = 4 ∧ o.imgKeys.length = 4) ∧ ∀ c ∈ o.copies, c < 16 := by
  simp [LcsSt.shaped, List.all_eq_true]

/-! ### State bits -/

theorem setBit_keeps : ∀ n < 16, ∀ i < 4, setBit n i < 16 ∧ ∀ j < 4, natBit n j = true → natBit (setBit n i) j = true := by
  decide

theorem bitsWithin_setBit {n i : Nat} (hn : n < 16) (hi : i < 4) : bitsWithin n (setBit n i) := by
  intro j hj
  obtain hj4 | hj4 := Nat.lt_or_ge j 4
  · exact (setBit_keeps n hn i hi).2 j hj4 hj
  · have hlt : n < 2 ^ j := hn.trans_le (Nat.pow_le_pow_right (n := 2) (i := 4) (by omega) hj4)
    exact absurd hj (by simp [natBit, Nat.testBit_lt_two_pow hlt])

/-- Whether or not the programming of a copy succeeds, no bit of it clears and the copy keeps its four bits. -/
theorem bitsWithin_program {n i : Nat} (hn : n < 16) (hi : i < 4) (p : Bool) :
    bitsWithin n (if p then setBit n i else n) ∧ (if p then setBit n i else n) < 16 := by
  split
  · exact ⟨bitsWithin_setBit hn hi, (setBit_keeps n hn i hi).1⟩
  · exact ⟨fun _ => id, hn⟩

theorem LcsSt.programState_leadsTo (o : LcsSt) {i : Nat} (hi : i < 4) (ok : Bool) (d : Nat) :
    o.LeadsTo (o.programState i ok d).otp := by
  intro ho
  obtain ⟨⟨hcopies, hcmd, himg⟩, hbits⟩ := (o.shaped_iff).mp ho
  have hcopy (k : Nat) (hk : k < 3) : o.copies.getD k 0 < 16 := by
    rw [List.getD_eq_getElem _ _ (by omega)]
    exact hbits _ (List.getElem_mem _)
  have step (k : Nat) (hk : k < 3) := bitsWithin_program (hcopy k hk) hi (ok || Config.freeBool (d + k))
  refine ⟨⟨fun k hk => ?_, fun _ _ => KeySlot.within_refl _, fun _ _ => KeySlot.within_refl _, rfl, rfl⟩,
    (LcsSt.shaped_iff _).mpr ⟨⟨rfl, hcmd, himg⟩, fun c hc => ?_⟩⟩
  · interval_cases k
    · exact (step 0 (by omega)).1
    · exact (step 1 (by omega)).1
    · exact (step 2 (by omega)).1
  · simp only [LcsSt.programState, List.mem_cons, List.not_mem_nil, or_false] at hc
    obtain rfl | rfl | rfl := hc
    · exact (step 0 (by omega)).2
    · exact (step 1 (by omega)).2
    · exact (step 2 (by omega)).2

/-! ### Key slots -/

theorem getD_map_range (f : Nat → KeySlot) {i : Nat} (hi : i < 4) : ((List.range 4).map f).getD i keySlot0 = f i := by
  rw [List.getD_eq_getElem _ _ (by simpa using hi)]
  simp

theorem LcsSt.revokeAll_leadsTo (o : LcsSt) (ok : Bool) (d : Nat) : o.LeadsTo (o.revokeAll ok d).otp := by
  intro ho
  obtain ⟨⟨hcopies, -, -⟩, hbits⟩ := (o.shaped_iff).mp ho
  refine ⟨⟨fun _ _ _ => id, fun i hi => ?_, fun i hi => ?_, rfl, rfl⟩,
    (LcsSt.shaped_iff _).mpr ⟨⟨hcopies, by simp [LcsSt.revokeAll], by simp [LcsSt.revokeAll]⟩, hbits⟩⟩
  all_goals
    simp only [LcsSt.revokeAll, getD_map_range _ hi]
    exact ⟨fun h => ⟨h, rfl⟩, fun h => by simp only [h, Bool.true_or]⟩

/-- What programming may do to the slots of a key. -/
def slotsWithin (l m : List KeySlot) : Prop :=
  m.length = l.length ∧ ∀ i, (l.getD i keySlot0).within (m.getD i keySlot0)

theorem slotsWithin_trans {l m n : List KeySlot} (h : slotsWithin l m) (k : slotsWithin m n) : slotsWithin l n := by
  refine ⟨k.1.trans h.1, fun i => ?_⟩
  obtain ⟨hkey, hrev⟩ := h.2 i
  obtain ⟨kkey, krev⟩ := k.2 i
  exact ⟨fun hw => ⟨(kkey (hkey hw).1).1, (kkey (hkey hw).1).2.trans (hkey hw).2⟩, krev ∘ hrev⟩

theorem slotsWithin_refl (l : List KeySlot) : slotsWithin l l := ⟨rfl, fun _ => KeySlot.within_refl _⟩

theorem slotsWithin_set {l : List KeySlot} {i : Nat} {k : KeySlot} (h : (l.getD i keySlot0).within k) :
    slotsWithin l (l.set i k) := by
  refine ⟨List.length_set, fun j => ?_⟩
  simp only [List.getD_eq_getElem?_getD, List.getElem?_set] at h ⊢
  split
  · subst i
    split
    · exact h
    · simp [*, KeySlot.within_refl]
  · exact KeySlot.within_refl _

theorem LcsSt.withSlots_leadsTo (o : LcsSt) (which : Nat) {l : List KeySlot} (h : slotsWithin (o.slots which) l) :
    o.LeadsTo (o.withSlots which l) := by
  intro ho
  obtain ⟨⟨hcopies, hcmd, himg⟩, hbits⟩ := (o.shaped_iff).mp ho
  by_cases hwhich : which = 0
  · rw [LcsSt.slots, if_pos hwhich] at h
    rw [LcsSt.withSlots, if_pos hwhich]
    exact ⟨⟨fun _ _ _ => id, fun i _ => h.2 i, fun _ _ => KeySlot.within_refl _, rfl, rfl⟩,
      (LcsSt.shaped_iff _).mpr ⟨⟨hcopies, h.1.trans hcmd, himg⟩, hbits⟩⟩
  · rw [LcsSt.slots, if_neg hwhich] at h
    rw [LcsSt.withSlots, if_neg hwhich]
    exact ⟨⟨fun _ _ _ => id, fun _ _ => KeySlot.within_refl _, fun i _ => h.2 i, rfl, rfl⟩,
      (LcsSt.shaped_iff _).mpr ⟨⟨hcopies, hcmd, h.1.trans himg⟩, hbits⟩⟩

/-- A slot that is not written may be given any key. -/
theorem LcsSt.programKey_leadsTo (o : LcsSt) (which : Nat) {i : Nat} (key : Nat) (ok : Bool) (d : Nat)
    (hi : ((o.slots which).getD i keySlot0).written = false) : o.LeadsTo (o.programKey which i key ok d).otp := by
  have fresh (k : Nat) (w : Bool) : slotsWithin (o.slots which)
      ((o.slots which).set i { (o.slots which).getD i keySlot0 with key := k, written := w }) :=
    slotsWithin_set ⟨fun h => absurd (hi.symm.trans h) Bool.false_ne_true, id⟩
  unfold LcsSt.programKey
  dsimp only
  split
  · refine o.withSlots_leadsTo which ?_
    split
    · exact slotsWithin_trans (fresh key true) (slotsWithin_set ⟨fun h => ⟨h, rfl⟩, fun _ => rfl⟩)
    · exact fresh key true
  · exact o.withSlots_leadsTo which (fresh _ _)

/-! ### The critical commands -/

theorem mayTransit_dest {st dest : Nat} (h : mayTransit st dest = true) : dest - 1 < 4 := by
  unfold mayTransit at h
  grind

theorem Hw.lifecycleTo_otp (h : Hw) (o : LcsSt) (a : List Byte) (ok : Bool) (hd : beAt a 0 1 - 1 < 4) :
    o.LeadsTo (h.lifecycleTo o a ok).otp := by
  have hstate := o.programState_leadsTo hd ok h.draws
  unfold Hw.lifecycleTo
  dsimp only
  split
  · exact .refl o
  · split
    · split
      · exact hstate.trans (LcsSt.revokeAll_leadsTo _ _ _)
      · exact hstate
    · exact hstate

theorem Hw.rotateKey_otp (h : Hw) (o : LcsSt) (a : List Byte) (ok : Bool) : o.LeadsTo (h.rotateKey o a ok).otp := by
  unfold Hw.rotateKey
  dsimp only
  split
  · next i k hfind _ => exact o.programKey_leadsTo _ _ _ _ (by simpa using List.find?_some hfind)
  · exact .refl o

theorem Hw.zeroizeNow_otp (h : Hw) (o : LcsSt) (ok : Bool) : o.LeadsTo (h.zeroizeNow o ok).otp := by
  unfold Hw.zeroizeNow
  dsimp only
  split <;> exact o.revokeAll_leadsTo ok h.draws

theorem Hw.writeImage_otp (h : Hw) (o : LcsSt) (a : List Byte) (ok : Bool) : (h.writeImage o a ok).otp = o := by
  unfold Hw.writeImage
  dsimp only
  split
  · split <;> rfl
  · split <;> rfl
  · rfl

theorem Hw.eraseRecords_otp (h : Hw) (o : LcsSt) (ok : Bool) : (h.eraseRecords o ok).otp = o := by
  unfold Hw.eraseRecords
  dsimp only
  split <;> rfl

theorem Hw.factoryNow_otp (h : Hw) (o : LcsSt) (ok : Bool) : (h.factoryNow o ok).otp = o := by
  unfold Hw.factoryNow
  split <;> rfl

/-- A LIFECYCLE that the state allows names a state to which it may go. -/
theorem Hw.allows_lifecycle {h : Hw} {a : List Byte} (ha : h.allows cmdLifecycle a = true) : beAt a 0 1 - 1 < 4 := by
  simp only [Hw.allows, Bool.and_eq_true, Bool.or_eq_true, decide_eq_true_eq] at ha
  exact mayTransit_dest (ha.2.resolve_left (fun hne => hne rfl))

theorem Hw.perform_otp (h k : Hw) (o : LcsSt) (cmd : Nat) (a : List Byte) (ok : Bool) (ha : k.allows cmd a = true) :
    o.LeadsTo (h.perform o cmd a ok).otp := by
  unfold Hw.perform
  split
  · exact h.lifecycleTo_otp o a ok (Hw.allows_lifecycle ha)
  · exact h.rotateKey_otp o a ok
  · rw [h.writeImage_otp]; exact .refl o
  · rw [h.eraseRecords_otp]; exact .refl o
  · exact .refl o
  · exact .refl o
  · exact h.zeroizeNow_otp o ok
  · exact .refl o
  · rw [h.factoryNow_otp]; exact .refl o

theorem State.authPerform_otp (s : State) (h : Hw) (key : Option Nat) (p : Port) (e : CmdEntry) (ok : Bool) :
    (s.authPerform h key p e ok).otp = (h.perform s.otp (authCmd e.frame.payload) (authArgs e.frame.payload) ok).otp := by
  unfold State.authPerform
  dsimp only
  split <;> rfl

theorem State.authAnswer_otp (s : State) (key : Option Nat) (p : Port) (e : CmdEntry) (n : Nat) (l : List Byte) :
    (s.authAnswer key p e n l).otp = s.otp := (rfl)

theorem State.authTurned_otp (s : State) (h : Hw) (key : Option Nat) (p : Port) (e : CmdEntry) (n : Nat) :
    (s.authTurned h key p e n).otp = s.otp := State.authAnswer_otp _ key p e n []

theorem State.authRun_otp (ctrOk opOk : Bool) (s : State) (p : Port) (e : CmdEntry) :
    s.otp.LeadsTo (s.authRun ctrOk opOk p e).otp := by
  unfold State.authRun
  dsimp only
  split
  · exact .refl _
  · simp only [apply_ite State.otp, State.authTurned_otp, State.authAnswer_otp, State.authPerform_otp]
    split_ifs with _ _ _ _ _ hallow
    on_goal 6 => exact Hw.perform_otp _ _ s.otp _ _ _ hallow
    all_goals exact .refl _

theorem State.takeCommand_otp (is : Frame → Bool) (f : State → Port → CmdEntry → State)
    (hf : ∀ (s : State) p e, s.otp.LeadsTo (f s p e).otp) (s : State) : s.otp.LeadsTo (s.takeCommand is f).otp := by
  unfold State.takeCommand
  simp only [apply_ite State.otp]
  split
  · exact .refl _
  · split
    · simp only [apply_ite State.otp]
      split_ifs
      · exact hf { s with hw := ((s.hw.removeCommand _ _).dupAccept _ _).1 } _ _
      · exact .refl _
      · exact .refl _
    · exact .refl _

theorem State.critical_otp (s : State) (cmd : Nat) (ctrOk opOk : Bool) : s.otp.LeadsTo (s.critical cmd ctrOk opOk).otp := by
  unfold State.critical
  split
  · exact .refl _
  · exact s.takeCommand_otp _ _ (State.authRun_otp ctrOk opOk)

/-! ### Every command -/

theorem exec_critical {c : Instr} (hc : c.isCritical = true) (s : State) :
    ∃ cmd ctrOk opOk, exec c s = .next (s.critical cmd ctrOk opOk) := by
  cases c with
  | lifecycle a b | keyRotate a b | imageWrite a b | recorderErase a b | forcePort a b | resume a b | zeroize a b
  | debugUnlock a b | factoryReset a b => exact ⟨_, a, b, rfl⟩
  | _ => cases hc

theorem exec_otp (c : Instr) (s x : State) (h : exec c s = .next x) : s.otp.LeadsTo x.otp := by
  cases hc : c.isCritical
  · exact (exec_beside c s x hc h).otp ▸ .refl _
  · obtain ⟨cmd, a, b, hx⟩ := exec_critical hc s
    obtain rfl := Host.Outcome.next.inj (hx.symm.trans h)
    exact s.critical_otp cmd a b

/-- A step is a command or nothing. -/
theorem step_next {s x : State} (h : step s = .next x) :
    (s.pending = [] ∧ x = s) ∨ ∃ c rest, s.pending = c :: rest ∧ exec c { s with pending := rest } = .next x := by
  unfold step at h
  split at h
  · next hp => exact Or.inl ⟨hp, (Host.Outcome.next.inj h).symm⟩
  · next c rest hp => exact Or.inr ⟨c, rest, hp, h⟩

theorem step_otp {s x : State} (h : step s = .next x) : s.otp.LeadsTo x.otp := by
  obtain ⟨-, rfl⟩ | ⟨c, rest, -, hx⟩ := step_next h
  · exact .refl _
  · exact exec_otp c { s with pending := rest } x hx

/-- Settles O52: every command leads the array to what programming may make of it. -/
theorem otpNeverGoesBack : Obligations.OtpNeverGoesBack := fun _ _ hs h => step_otp h hs

/-! ### The life-cycle state -/

theorem stateBit_mono {a b : List Nat} (ha : a.length = 3) (hb : b.length = 3)
    (h : ∀ k, k < 3 → bitsWithin (a.getD k 0) (b.getD k 0)) (i : Nat) (hi : stateBit a i = true) : stateBit b i = true := by
  obtain ⟨a0, a1, a2, rfl⟩ := List.length_eq_three.mp ha
  obtain ⟨b0, b1, b2, rfl⟩ := List.length_eq_three.mp hb
  have h0 : natBit a0 i = true → natBit b0 i = true := h 0 (by omega) i
  have h1 : natBit a1 i = true → natBit b1 i = true := h 1 (by omega) i
  have h2 : natBit a2 i = true → natBit b2 i = true := h 2 (by omega) i
  simp only [stateBit, List.filter_cons, decide_eq_true_eq] at hi ⊢
  grind

/-- The highest number below `n` at which a test holds, plus 1, grows with the test. -/
theorem foldl_highest_mono {p q : Nat → Bool} (h : ∀ i, p i = true → q i = true) (n : Nat) :
    (List.range n).foldl (fun s i => if p i then i + 1 else s) 0 ≤ (List.range n).foldl (fun s i => if q i then i + 1 else s) 0 ∧
      (List.range n).foldl (fun s i => if p i then i + 1 else s) 0 ≤ n := by
  induction n with
  | zero => exact ⟨Nat.le_refl _, Nat.le_refl _⟩
  | succ n ih =>
    simp only [List.range_succ, List.foldl_append, List.foldl_cons, List.foldl_nil]
    have := h n
    grind

theorem otpState_mono {a b : LcsSt} (ha : a.shaped = true) (hb : b.shaped = true) (h : a.within b) :
    otpState a.copies ≤ otpState b.copies := by
  obtain ⟨⟨la, -, -⟩, -⟩ := (a.shaped_iff).mp ha
  obtain ⟨⟨lb, -, -⟩, -⟩ := (b.shaped_iff).mp hb
  exact (foldl_highest_mono (stateBit_mono la lb h.1) 4).1

/-- Settles O53: the majority of copies in which no bit clears. -/
theorem lifeCycleNeverGoesBack : Obligations.LifeCycleNeverGoesBack := fun _ _ hs h =>
  let ⟨hwithin, hshaped⟩ := step_otp h hs
  otpState_mono hs hshaped hwithin

end Sys2Proof.Machine

/-! ## The queue, the fault of a command, and the state at reset (R436, R591) -/

namespace Sys2Proof.Machine

theorem State.authPerform_shape (s : State) (h : Hw) (key : Option Nat) (p : Port) (e : CmdEntry) (ok : Bool) :
    ∃ k o, s.authPerform h key p e ok = { s with hw := k, otp := o } := by
  unfold State.authPerform
  dsimp only
  split <;> exact ⟨_, _, rfl⟩

/-- A critical command answers in its frame, not as an access does. -/
theorem State.authRun_shape (ctrOk opOk : Bool) (s : State) (p : Port) (e : CmdEntry) :
    ∃ k o, s.authRun ctrOk opOk p e = { s with hw := k, otp := o } := by
  have answered (key : Option Nat) (n : Nat) : ∃ k o, s.authAnswer key p e n [] = { s with hw := k, otp := o } := ⟨_, _, rfl⟩
  have turned (h : Hw) (key : Option Nat) (n : Nat) : ∃ k o, s.authTurned h key p e n = { s with hw := k, otp := o } :=
    ⟨_, _, rfl⟩
  unfold State.authRun
  dsimp only
  split
  · exact answered _ _
  · split
    · exact answered _ _
    · split
      · exact turned _ _ _
      · split
        · exact turned _ _ _
        · split
          · exact turned _ _ _
          · split
            · exact turned _ _ _
            · split
              · exact s.authPerform_shape _ _ p e opOk
              · exact turned _ _ _

theorem State.critical_beside (s : State) (cmd : Nat) (ctrOk opOk : Bool) :
    (s.critical cmd ctrOk opOk).pending = s.pending ∧ (s.critical cmd ctrOk opOk).status = s.status := by
  unfold State.critical
  split
  · exact ⟨rfl, rfl⟩
  · have hboth := State.takeCommand_keeps (fun t => (t.pending, t.status))
      (fun f => decide (f.ty = 0x30) && decide (authCmd f.payload = cmd ∨ authCmd f.payload = 0 ∨ 9 < authCmd f.payload))
      (State.authRun ctrOk opOk) (fun _ _ => rfl) (fun t p e => by obtain ⟨k, o, hk⟩ := t.authRun_shape ctrOk opOk p e; rw [hk]) s
    exact Prod.mk.inj hboth

theorem exec_pending_status {c : Instr} {s x : State} (h : exec c s = .next x) :
    x.pending = s.pending ∧ (s.status ≤ 8 → x.status ≤ 8) := by
  cases hc : c.isCritical
  · exact ⟨(exec_beside c s x hc h).pending, (exec_beside c s x hc h).status⟩
  · obtain ⟨cmd, a, b, hx⟩ := exec_critical hc s
    obtain rfl := Host.Outcome.next.inj (hx.symm.trans h)
    exact ⟨(s.critical_beside cmd a b).1, (s.critical_beside cmd a b).2.trans_le⟩

/-- Settles O49: no command looks at the queue, and a step takes its front. -/
theorem commandsNeverTouchTheQueue : Obligations.CommandsNeverTouchTheQueue := by
  refine ⟨fun c s x h => (exec_pending_status h).1, fun s x h => ?_⟩
  obtain ⟨hp, rfl⟩ | ⟨c, rest, hp, hx⟩ := step_next h
  · simp [hp]
  · rw [hp]
    exact (exec_pending_status hx).1

/-- Settles O59: an access answers OK, BUSY, ACCESS, DENIED or what it refuses with, and other commands answer none. -/
theorem statusIsAlwaysNamed : Obligations.StatusIsAlwaysNamed := fun _ _ _ hs h => (exec_pending_status h).2 hs

/-- Settles O48: a step is the front command by definition. -/
theorem stepRunsTheFrontCommand : Obligations.StepRunsTheFrontCommand := fun _ _ _ => ⟨rfl, rfl⟩

/-- Settles O55: every group of the state at reset is its literal. -/
theorem resetMeetsTheInvariant : Obligations.ResetMeetsTheInvariant :=
  ⟨by unfold State.Inv; decide, rfl, rfl, rfl, rfl, by decide, fun _ _ => rfl⟩

/-- Refutes O50: the result of a validation that names filter store 65 is not well formed, and without a sealed set it is
answered with the state as it is, not with a fault. -/
theorem not_faultsExactlyOnIllFormedCommands : ¬ Obligations.FaultsExactlyOnIllFormedCommands := fun h =>
  have hfault : exec (.commitValidated [65]) State.reset = .fault .noSuchObject := (h _ _).2 (by decide)
  have hnext : exec (.commitValidated [65]) State.reset = .next State.reset := rfl
  nomatch hfault.symm.trans hnext

end Sys2Proof.Machine

/-! ## A hub in reset (R591, R642) -/

namespace Sys2Proof.Machine

/-- `x` has the hub, the OTP array and the snapshot of `s`. -/
def State.SameHub (s x : State) : Prop := x.hw = s.hw ∧ x.otp = s.otp ∧ x.frozen = s.frozen

theorem State.SameHub.of_next {s t x : State} (h : (Host.Outcome.next t : Out) = .next x) (ht : s.SameHub t) : s.SameHub x :=
  Host.Outcome.next.inj h ▸ ht

/-- No bus serves a hub in reset. -/
theorem Hw.readable_of_not_live {h : Hw} (hl : h.live = false) (q : Requester) : h.readable q = false := by
  have hphase : h.boot.phase = .off ∨ h.boot.phase = .aonReset := by
    simpa [Hw.live, or_iff_not_imp_left] using hl
  obtain hp | hp := hphase <;> simp [Hw.readable, hp]

theorem Hw.writable_of_not_live {h : Hw} (hl : h.live = false) (q : Requester) : h.writable q = false := by
  simp [Hw.writable, h.readable_of_not_live hl]

theorem State.busWrite_of_not_live {s : State} (hl : s.hw.live = false) (q : Requester) (src a : Nat) (v : Word) :
    (s.busWrite q src a v).1 = s := by
  simp [State.busWrite, Hw.writable_of_not_live hl, apply_ite Prod.fst]

theorem Hw.busRead_of_not_live {h : Hw} (hl : h.live = false) (f : Option Hw) (q : Requester) (a : Nat) :
    h.busRead f q a = (h, 0) := by
  simp [Hw.busRead, Hw.readable_of_not_live hl]

theorem State.takeCommand_of_not_live {s : State} (hl : s.hw.live = false) (is : Frame → Bool)
    (f : State → Port → CmdEntry → State) : s.takeCommand is f = s := by
  simp [State.takeCommand, hl]

theorem State.critical_of_not_live {s : State} (hl : s.hw.live = false) (cmd : Nat) (a b : Bool) :
    s.critical cmd a b = s := by
  simp [State.critical, State.takeCommand_of_not_live hl]

theorem State.snapRead_of_not_live {s : State} (hl : s.hw.live = false) : s.snapRead = s := by
  unfold State.snapRead
  dsimp only
  split
  · simp only [State.takeCommand_of_not_live hl, hl, Bool.false_and, Bool.false_eq_true, if_false, ite_self]
  · rfl

/-- A hub in reset answers accesses as one that no bus serves, and nothing else happens. -/
theorem exec_of_not_live {c : Instr} {s x : State} (hl : s.hw.live = false) (hc : c.isStart = false)
    (h : exec c s = .next x) : s.SameHub x := by
  have hr := Hw.readable_of_not_live hl
  have hw := Hw.writable_of_not_live hl
  cases hown : hasOwnShape c
  · obtain ⟨b, f, hf⟩ | ⟨q, b, f, hf⟩ := exec_shape c s hown <;> rw [hf] at h
    · obtain ⟨-, ⟨hlive, -⟩ | ⟨-, rfl⟩⟩ := actOn_next s x b f h
      · exact absurd (hl.symm.trans hlive) Bool.false_ne_true
      · exact ⟨rfl, rfl, rfl⟩
    · obtain ⟨-, rfl⟩ := accWrite_next s x q b f h
      exact ⟨by simp [hw], rfl, rfl⟩
  · unfold exec at h
    cases c with
    | registerWrite q n a v =>
      simp only [execRegisterWrite] at h
      split at h
      · exact .of_next h ⟨by rw [State.busWrite_of_not_live hl], by rw [State.busWrite_of_not_live hl],
          by rw [State.busWrite_of_not_live hl]⟩
      · exact .of_next h ⟨rfl, rfl, rfl⟩
    | rcRead | multiwordLatchRead => exact .of_next h ⟨congrArg Prod.fst (Hw.busRead_of_not_live hl _ _ _), rfl, rfl⟩
    | frameBoundary | commitApply | snapTake | snapTimeout | mspiRead | mspiWrite | commandRestart | erasureComplete =>
      refine .of_next h ?_
      simp only [hl, Bool.false_and, Bool.false_eq_true, if_false]
      exact ⟨rfl, rfl, rfl⟩
    | snapRel q =>
      refine .of_next h ?_
      simp only [hw, Bool.false_eq_true, if_false]
      exact ⟨rfl, rfl, rfl⟩
    | domainWakeDone d =>
      simp only [execDomainWakeDone, hl, Bool.false_eq_true, if_false] at h
      split at h
      · exact .of_next h ⟨rfl, rfl, rfl⟩
      · cases h
    | seqTableWrite q a v =>
      simp only [execSeqTableWrite, hw, Bool.false_eq_true, if_false] at h
      split at h
      · exact .of_next h ⟨rfl, rfl, rfl⟩
      · cases h
    | backfillSubmit q src v =>
      simp only [execBackfillSubmit, hw, Bool.false_eq_true, if_false] at h
      exact .of_next h ⟨rfl, rfl, rfl⟩
    | fltEvtQueueRead q =>
      simp only [execFltEvtQueueRead, hr, Bool.false_eq_true, if_false] at h
      exact .of_next h ⟨rfl, rfl, rfl⟩
    | timNowRead q d =>
      simp only [execTimNowRead, hr, Bool.false_eq_true, if_false] at h
      exact .of_next h ⟨rfl, rfl, rfl⟩
    | regRead | regWrite | capDisc =>
      refine .of_next h ?_
      rw [State.takeCommand_of_not_live hl]
      exact ⟨rfl, rfl, rfl⟩
    | snapRead =>
      refine .of_next h ?_
      rw [State.snapRead_of_not_live hl]
      exact ⟨rfl, rfl, rfl⟩
    | lifecycle | keyRotate | imageWrite | recorderErase | forcePort | resume | zeroize | debugUnlock | factoryReset =>
      refine .of_next h ?_
      rw [State.critical_of_not_live hl]
      exact ⟨rfl, rfl, rfl⟩
    | powerOn | resetN | aonResetBegin | aonResetEnd | otpReadDone => cases hc
    | _ => cases hown

/-- Settles O51: no bus serves a hub in reset, and every other effect is that of a hub that lives. -/
theorem resetHoldsTheHub : Obligations.ResetHoldsTheHub := fun _ _ _ hl hc h => exec_of_not_live hl hc h

end Sys2Proof.Machine

/-! ## What the rows of the harness and the excitation leave unchanged -/

namespace Sys2Proof.Machine

/-! ### Two smaller views of the groups that a raise leaves -/

/-- The groups that the rows of the field die leave: network time, the Bridle, the streams, capture memory, the commit state,
the start and the keys. -/
structure Distant where
  time : TimeSt
  seq : SeqSt
  str : StrSt
  mem : MemSt
  epoch : EpochSt
  boot : BootSt
  lcs : LcsSt

def Hw.distant (h : Hw) : Distant := ⟨h.time, h.seq, h.str, h.mem, h.epoch, h.boot, h.lcs⟩

theorem distant_of_still {g h : Hw} (e : g.still = h.still) : g.distant = h.distant :=
  congrArg (fun x : Still => (⟨x.time, x.seq, x.str, x.mem, x.epoch, x.boot, x.lcs⟩ : Distant)) e

theorem distant_each {α : Type} (h : Hw) (l : List α) (f : Hw → α → Hw) (hf : ∀ h x, (f h x).distant = h.distant) :
    (h.each l f).distant = h.distant := each_keeps Hw.distant f hf l h

/-! ### Detectors and terminals -/

theorem still_field (h : Hw) (x : FieldSt) : ({ h with field := x } : Hw).still = h.still := (rfl)

@[simp] theorem still_setOv (h : Hw) (t v : Nat) : (h.setOv t v).still = h.still := (rfl)
@[simp] theorem still_setClosed (h : Hw) (t : Nat) (w : Word) : (h.setClosed t w).still = h.still := (rfl)
@[simp] theorem still_setPin (h : Hw) (t : Nat) (mv : Int) : (h.setPin t mv).still = h.still := (rfl)
@[simp] theorem still_setProbe (h : Hw) (k : Nat) (p : Option ProbeSt) : (h.setProbe k p).still = h.still := (rfl)
@[simp] theorem still_setOpenBits (h : Hw) (ch v : Nat) : (h.setOpenBits ch v).still = h.still := (rfl)
@[simp] theorem still_setPassedNow (h : Hw) (t : Nat) (b : Bool) : (h.setPassedNow t b).still = h.still := (rfl)
@[simp] theorem still_setCmp (h : Hw) (ch : Nat) (b : Bool) : (h.setCmp ch b).still = h.still := (rfl)
@[simp] theorem still_setCmpClear (h : Hw) (ch : Nat) : (h.setCmpClear ch).still = h.still := (rfl)
@[simp] theorem still_feWindow (h : Hw) (ch s : Nat) : (h.feWindow ch s).still = h.still := (rfl)
@[simp] theorem still_closeRoute (h : Hw) (t : Nat) : (h.closeRoute t).still = h.still := (rfl)

@[simp] theorem still_dropProbe (h : Hw) (t : Nat) : (h.dropProbe t).still = h.still := by
  unfold Hw.dropProbe
  split
  · split <;> simp
  · rfl

theorem still_ite {h k : Hw} {p : Prop} [Decidable p] (hk : k.still = h.still) : (if p then k else h).still = h.still := by
  split
  · exact hk
  · rfl

theorem still_tripped (h : Hw) (t : Nat) (neg : Bool) : (h.tripped t neg).still = h.still := by
  unfold Hw.tripped
  simp only [still_put, still_dropProbe, still_setClosed]
  exact still_field _ _

@[simp] theorem still_ovTrip (h : Hw) (t : Nat) (neg : Bool) : (h.ovTrip t neg).still = h.still := by
  cases hn : natBit (h.ovState t) (b2n neg)
  · rw [ovTrip_of_clear hn, still_raise, still_tripped]
  · exact congrArg Hw.still (if_pos hn)

@[simp] theorem still_ovCause (h : Hw) : h.ovCause.still = h.still := by
  unfold Hw.ovCause
  simp

@[simp] theorem still_wantReclose (h : Hw) (t : Nat) : (h.wantReclose t).still = h.still := by
  unfold Hw.wantReclose
  split <;> simp [still_field]

@[simp] theorem still_ovClear (h : Hw) (t : Nat) (neg : Bool) : (h.ovClear t neg).still = h.still :=
  still_ite (by simp)

@[simp] theorem still_fillOpen (h : Hw) (ch : Nat) : (h.fillOpen ch).still = h.still := by
  unfold Hw.fillOpen Hw.put64
  dsimp only
  split <;> simp

@[simp] theorem still_raiseOpen (h : Hw) (ch : Nat) : (h.raiseOpen ch).still = h.still := by
  exact (still_field _ _).trans (by simp)

@[simp] theorem still_enterOpen (h : Hw) (ch bit : Nat) (always : Bool) : (h.enterOpen ch bit always).still = h.still := by
  unfold Hw.enterOpen
  simp

@[simp] theorem still_leaveOpen (h : Hw) (ch bit : Nat) : (h.leaveOpen ch bit).still = h.still := by
  unfold Hw.leaveOpen
  simp

theorem still_cmpTrip (h : Hw) (ch : Nat) : (h.cmpTrip ch).still = h.still := by
  unfold Hw.cmpTrip
  dsimp only
  split
  · split <;> simp
  · rfl

theorem still_cmpClear (h : Hw) (ch : Nat) : (h.cmpClear ch).still = h.still := by
  unfold Hw.cmpClear
  split <;> simp

theorem still_openStateEnd (h : Hw) (ch : Nat) : (h.openStateEnd ch).still = h.still := by
  unfold Hw.openStateEnd
  dsimp only
  split
  · split <;> simp
  · rfl

theorem still_satTrip (h : Hw) (ch : Nat) : (h.satTrip ch).still = h.still := by
  unfold Hw.satTrip
  split <;> simp

/-- The hold of a strobe notes a window that starts at its instant; the schedule alone sees it. -/
theorem distant_feWindowAt (h : Hw) (ch b : Nat) : (h.feWindowAt ch b).distant = h.distant := by
  unfold Hw.feWindowAt Hw.markHeld
  split
  · split <;> rfl
  · rfl

theorem distant_reclose (h : Hw) (t : Nat) : (h.reclose t).distant = h.distant := by
  unfold Hw.reclose
  split
  · split
    · refine (distant_each _ _ _ fun g ch => ?_).trans (distant_of_still (by simp [still_field]))
      dsimp only
      split
      · exact (distant_of_still (still_enterOpen _ _ _ _)).trans (distant_feWindowAt g ch _)
      · exact (distant_of_still (still_setCmpClear _ _)).trans (distant_feWindowAt g ch _)
    · rfl
  · rfl

/-! ### Probes -/

theorem still_probeVisit (h : Hw) (t : Nat) : (h.probeVisit t).still = h.still := by
  unfold Hw.probeVisit
  dsimp only
  split
  · split
    · simp [still_field]
    · split <;> simp [still_field]
  · rfl

theorem still_probeStart (h : Hw) (t : Nat) : (h.probeStart t).still = h.still := by
  unfold Hw.probeStart
  split
  · split
    · dsimp only
      split <;> simp
    · rfl
  · rfl

theorem still_probeJudge (h : Hw) (t : Nat) (r : Int) : (h.probeJudge t r).still = h.still := by
  unfold Hw.probeJudge
  split
  · split
    · dsimp only
      split
      · simp
      · split
        · simp
        · exact (still_each _ _ _ fun g ch => still_ite (by simp)).trans (by simp [still_field])
    · rfl
  · rfl

theorem still_probeRecovered (h : Hw) (t : Nat) : (h.probeRecovered t).still = h.still := by
  unfold Hw.probeRecovered
  split
  · split <;> simp
  · rfl

/-! ### Drivers -/

theorem still_driverTake (h : Hw) (d x : Nat) : (h.driverTake d x).still = h.still := by
  unfold Hw.driverTake
  simp

theorem still_chopStart (h : Hw) (d : Nat) : (h.chopStart d).still = h.still := by
  unfold Hw.chopStart
  split
  · dsimp only
    split <;> simp
  · rfl

theorem still_chopEdge (h : Hw) (d : Nat) : (h.chopEdge d).still = h.still := by
  unfold Hw.chopEdge
  split
  · dsimp only
    split
    · split <;> simp
    · rfl
  · rfl

@[simp] theorem still_overCause (h : Hw) : h.overCause.still = h.still := by
  unfold Hw.overCause
  simp

theorem still_limitEnter (h : Hw) (d : Nat) : (h.limitEnter d).still = h.still := by
  unfold Hw.limitEnter
  dsimp only
  split <;> simp

theorem still_limitLeave (h : Hw) (d : Nat) : (h.limitLeave d).still = h.still := by
  unfold Hw.limitLeave
  simp

theorem still_overcurrent (h : Hw) (d : Nat) : (h.overcurrent d).still = h.still := by
  unfold Hw.overcurrent
  dsimp only
  split <;> simp

theorem still_totalSeen (h : Hw) (ma : Nat) : (h.totalSeen ma).still = h.still := by
  unfold Hw.totalSeen
  split
  · split <;> simp [still_field]
  · simp [still_field]

theorem still_totalOvercurrent (h : Hw) : h.totalOvercurrent.still = h.still := by
  unfold Hw.totalOvercurrent
  split
  · split <;> simp [still_field]
  · rfl

theorem still_reversed (h : Hw) (d : Nat) : (h.reversed d).still = h.still := by
  unfold Hw.reversed
  dsimp only
  split <;> simp

theorem still_compliant (h : Hw) (d : Nat) : (h.compliant d).still = h.still := by
  unfold Hw.compliant
  dsimp only
  split <;> simp

theorem still_complianceClear (h : Hw) (d : Nat) : (h.complianceClear d).still = h.still := by
  unfold Hw.complianceClear
  split <;> simp

/-! ### The rows -/

/-- An operation on the hub that keeps a view of it keeps that view of the state, and all that stands beside the hub. -/
theorem actOn_keeps {β : Type} (q : Hw → β) {s x : State} {b : Bool} {f : Hw → Hw} (hf : ∀ h, q (f h) = q h)
    (h : actOn s b f = .next x) : q x.hw = q s.hw ∧ x.otp = s.otp ∧ x.frozen = s.frozen ∧ x.pending = s.pending := by
  obtain ⟨-, ⟨-, rfl⟩ | ⟨-, rfl⟩⟩ := actOn_next s x b f h
  · exact ⟨hf s.hw, rfl, rfl, rfl⟩
  · exact ⟨rfl, rfl, rfl, rfl⟩

theorem onPort_keeps {β : Type} (q : Hw → β) {s x : State} {b : Bool} {f : Hw → Hw} (hf : ∀ h, q (f h) = q h)
    (h : onPort s b f = .next x) : q x.hw = q s.hw ∧ x.otp = s.otp ∧ x.frozen = s.frozen ∧ x.pending = s.pending :=
  actOn_keeps q (fun g => when_keeps q f _ g (hf g)) h

theorem accWrite_keeps {β : Type} (q : Hw → β) {s x : State} {r : Requester} {b : Bool} {f : Hw → Hw}
    (hf : ∀ h, q (f h) = q h) (h : accWrite s r b f = .next x) :
    q x.hw = q s.hw ∧ x.otp = s.otp ∧ x.frozen = s.frozen ∧ x.pending = s.pending := by
  obtain ⟨-, rfl⟩ := accWrite_next s x r b f h
  refine ⟨?_, rfl, rfl, rfl⟩
  dsimp only
  split
  · exact hf s.hw
  · rfl

theorem exec_field_distant {c : Instr} {s x : State} (hc : c.isFieldRow = true) (h : exec c s = .next x) :
    x.hw.distant = s.hw.distant ∧ x.otp = s.otp ∧ x.frozen = s.frozen ∧ x.pending = s.pending := by
  have row {b : Bool} {f : Hw → Hw} (hx : actOn s b f = .next x) (hf : ∀ h, (f h).still = h.still) :
      x.hw.distant = s.hw.distant ∧ x.otp = s.otp ∧ x.frozen = s.frozen ∧ x.pending = s.pending :=
    actOn_keeps Hw.distant (fun g => distant_of_still (hf g)) hx
  unfold exec at h
  cases c with
  | ovTrip | ovClear => exact row h fun h => by simp
  | switchCurrentLimit =>
    refine row h fun h => ?_
    dsimp only
    split <;> simp
  | routeReclose => exact actOn_keeps Hw.distant (fun g => distant_reclose g _) h
  | openComparatorTrip => exact row h fun h => still_cmpTrip h _
  | openComparatorClear => exact row h fun h => still_cmpClear h _
  | openStateEnd => exact row h fun h => still_openStateEnd h _
  | saturationTrip => exact row h fun h => still_satTrip h _
  | saturationClear => exact row h fun h => still_put h _ _
  | probeInterval => exact row h fun h => still_probeVisit h _
  | probePulseStart => exact row h fun h => still_probeStart h _
  | probePulseEnd => exact row h fun h => still_probeJudge h _ _
  | probeRecoveryEnd => exact row h fun h => still_probeRecovered h _
  | driverLimitEnter => exact row h fun h => still_limitEnter h _
  | driverLimitLeave => exact row h fun h => still_limitLeave h _
  | excOvercurrent => exact row h fun h => still_overcurrent h _
  | vexcTotalOvercurrent ma => exact row h fun h => (still_totalOvercurrent _).trans (still_totalSeen h ma)
  | excReversed => exact row h fun h => still_reversed h _
  | reversedClear q d v =>
    exact accWrite_keeps Hw.distant (fun g => distant_of_still (by unfold Hw.excStatusWrite; dsimp only; split <;> simp)) h
  | compliance => exact row h fun h => still_compliant h _
  | complianceClear => exact row h fun h => still_complianceClear h _
  | driverChange =>
    refine row h fun h => ?_
    split
    · split
      · exact still_driverTake h _ _
      · rfl
    · rfl
  | chopStart => exact row h fun h => still_chopStart h _
  | chopEdge => exact row h fun h => still_chopEdge h _
  | _ => cases hc

/-- Settles O44: of the groups named, no row of the field die sees one. -/
theorem framesOfTheFieldRows : Obligations.FramesOfTheFieldRows := by
  intro c s x hc h
  obtain ⟨hdistant, hotp, hfrozen, hpending⟩ := exec_field_distant hc h
  obtain ⟨htime, hseq, hstr, hmem, hepoch, hboot, hlcs⟩ := Distant.mk.inj hdistant
  exact ⟨htime, hseq, hstr, hmem, hepoch, hboot, hlcs, hotp, hfrozen, hpending⟩

end Sys2Proof.Machine

/-! ## What the rows of the ports and of control leave unchanged -/

namespace Sys2Proof.Machine

/-! ### Training -/

@[simp] theorem still_setLinkState (h : Hw) (p : Port) (n : Nat) : (h.setLinkState p n).still = h.still :=
  (still_setPort _ _ _).trans (still_put _ _ _)

theorem still_downEnd (h : Hw) (p : Port) : (h.downEnd p).still = h.still := still_ite (by simp)

theorem still_clockLocked (h : Hw) (p : Port) (n : Nat) : (h.clockLocked p n).still = h.still := still_ite (by simp)

theorem still_lockDone (h : Hw) (p : Port) (l : List Nat) : (h.lockDone p l).still = h.still := still_ite (by simp)

@[simp] theorem still_degraded (h : Hw) (p : Port) : (h.degraded p).still = h.still := by
  unfold Hw.degraded
  dsimp only
  split
  · simp
  · split <;> simp

@[simp] theorem still_countReadmit (h : Hw) (p : Port) (l : Nat) : (h.countReadmit p l).still = h.still := by
  unfold Hw.countReadmit
  simp

@[simp] theorem still_sendMarker (h : Hw) (p : Port) (c k : Nat) : (h.sendMarker p c k).still = h.still := by
  unfold Hw.sendMarker
  simp

/-! ### What the receivers hear -/

theorem still_heardLane (p : Port) (lvs : List (List Int)) (a : Heard) (l : Nat) : (a.lane p lvs l).hw.still = a.hw.still := by
  unfold Heard.lane
  simp

/-- The receivers keep their state in the port. -/
@[simp] theorem still_hear (h : Hw) (p : Port) (lvs : List (List Int)) : (h.hear p lvs).hw.still = h.still := by
  unfold Hw.hear
  simp only [List.foldl_cons, List.foldl_nil]
  split <;> simp [still_heardLane]

theorem still_portUp (h : Hw) (p : Port) (n : Nat) : (h.portUp p n).still = h.still := by
  unfold Hw.portUp
  dsimp only
  split
  · split <;> simp
  · simp

theorem still_trainFail (h : Hw) (p : Port) : (h.trainFail p).still = h.still := still_ite (by simp)

theorem still_clockLoss (h : Hw) (p : Port) : (h.clockLoss p).still = h.still := still_ite (by simp)

/-! ### Lanes and width -/

@[simp] theorem still_loseLane (h : Hw) (p : Port) (l : Nat) : (h.loseLane p l).still = h.still := by
  unfold Hw.loseLane
  simp

theorem still_laneDown (h : Hw) (p : Port) (l c b : Nat) : (h.laneDown p l c b).still = h.still := by
  unfold Hw.laneDown
  dsimp only
  repeat' split
  all_goals simp

@[simp] theorem still_takeCells (h : Hw) (p : Port) : (h.takeCells p).still = h.still := by
  unfold Hw.takeCells
  simp

@[simp] theorem still_restripe (h : Hw) (p : Port) : (h.restripe p).still = h.still := by
  unfold Hw.restripe
  dsimp only
  split
  · rfl
  · split
    · simp
    · split <;> simp

theorem still_widthBlock (h : Hw) (p : Port) (n r : Nat) : (h.widthBlock p n r).still = h.still := by
  unfold Hw.widthBlock
  dsimp only
  split <;> simp

theorem still_readmit (h : Hw) (p : Port) (l : Nat) : (h.readmit p l).still = h.still := still_ite (by simp)

theorem still_reEqualise (h : Hw) (p : Port) (l : Nat) : (h.reEqualise p l).still = h.still := by
  unfold Hw.reEqualise
  dsimp only
  repeat' split
  all_goals simp

theorem still_clockStep (h : Hw) (p : Port) : (h.clockStep p).still = h.still := still_ite (by simp)

/-! ### Tracking, sleep and wake -/

theorem still_atBound (h : Hw) (p : Port) (l : Nat) : (h.atBound p l).still = h.still := by
  unfold Hw.atBound
  dsimp only
  split <;> simp

theorem still_setOffset (h : Hw) (p : Port) (l w : Nat) (v : Int) : (h.setOffset p l w v).still = h.still := by
  unfold Hw.setOffset
  simp [still_atBound]

theorem still_recalOut (h : Hw) (p : Port) (l : Nat) : (h.recalOut p l).still = h.still := still_ite (by simp)

@[simp] theorem still_sleepLanes (h : Hw) (p : Port) (l : List Nat) : (h.sleepLanes p l).still = h.still := by
  have send (g : Hw) (k : Nat) : (if l.contains k then g.markLane p ctypeSleep 0 k
      else if natBit (g.port p).nap k then g.trainLane p k else g).still = g.still := by
    split
    · simp
    · split <;> simp
  unfold Hw.sleepLanes
  dsimp only
  exact (still_each _ _ _ fun _ _ => still_setLane _ _ _ _).trans
    ((still_nextSlot _ _).trans ((still_each _ _ _ send).trans (by simp)))

theorem still_laneSleep (h : Hw) (p : Port) : (h.laneSleep p).still = h.still := by
  unfold Hw.laneSleep
  dsimp only
  split
  · simp
  · split <;> simp

theorem still_lanesAsleep (h : Hw) (p : Port) (r : Heard) : (h.lanesAsleep p r).still = r.hw.still := by
  unfold Hw.lanesAsleep
  simp

theorem still_wakeLanes (h : Hw) (p : Port) : (h.wakeLanes p).still = h.still := still_ite (by simp)

/-! ### Control of the two ports -/

theorem still_crcWindow (h : Hw) (p : Port) : (h.crcWindow p).still = h.still := by
  unfold Hw.crcWindow
  dsimp only
  split
  · split
    · rw [still_control]
      split
      · split <;> simp
      · simp
    · rfl
  · rfl

theorem still_giveUp (h : Hw) : h.giveUp.still = h.still := by
  unfold Hw.giveUp
  split
  · dsimp only
    split <;> simp
  · rfl

theorem still_portHealthy (h : Hw) (p : Port) : (h.portHealthy p).still = h.still := still_ite (by simp)

theorem still_revert (h : Hw) : h.revert.still = h.still := by
  unfold Hw.revert
  split
  · exact still_ite (by simp)
  · rfl

theorem still_shadowOut (h : Hw) : h.shadowOut.still = h.still := by
  unfold Hw.shadowOut
  split <;> simp

/-! ### The rows -/

theorem exec_link_still {c : Instr} {s x : State} (hc : c.isLinkRow = true) (h : exec c s = .next x) :
    x.hw.still = s.hw.still ∧ x.otp = s.otp ∧ x.frozen = s.frozen ∧ x.pending = s.pending := by
  have port {b : Bool} {f : Hw → Hw} (hx : onPort s b f = .next x) (hf : ∀ h, (f h).still = h.still) :=
    onPort_keeps Hw.still hf hx
  have hub {b : Bool} {f : Hw → Hw} (hx : actOn s b f = .next x) (hf : ∀ h, (f h).still = h.still) :=
    actOn_keeps Hw.still hf hx
  unfold exec at h
  cases c with
  | portDownEnd p => exact port h fun h => still_downEnd h p
  | clockLaneLocked p n => exact port h fun h => still_clockLocked h p n
  | lockDone p l => exact port h fun h => still_lockDone h p l
  | portUp p lvs =>
    refine port h fun h => ?_
    dsimp only
    split
    · exact (still_portUp _ p _).trans (still_hear h p lvs)
    · exact still_hear h p lvs
  | trainingFail p => exact port h fun h => still_trainFail h p
  | laneDown p l c b => exact port h fun h => still_laneDown h p l c b
  | clockLaneLoss p => exact port h fun h => still_clockLoss h p
  | widthChange p => exact port h fun h => by simp
  | widthBlockReceive p lvs =>
    refine port h fun h => ?_
    dsimp only
    split
    · exact (still_widthBlock _ p _ _).trans (still_hear h p lvs)
    · exact still_hear h p lvs
  | laneReadmit p l => exact port h fun h => still_readmit h p l
  | trackBound p l w up => exact port h fun h => still_when _ _ _ (still_setOffset h p l w _)
  | recalTimeout p l => exact port h fun h => still_recalOut h p l
  | laneReequalise p l => exact port h fun h => still_reEqualise h p l
  | clockEqStep p => exact port h fun h => still_clockStep h p
  | laneSleep p => exact port h fun h => still_laneSleep h p
  | sleepBlockReceive p lvs => exact port h fun h => (still_lanesAsleep h p _).trans (still_hear h p lvs)
  | laneWake p => exact port h fun h => still_when _ _ _ (still_wakeLanes h p)
  | wakeAmReceive p lvs | abortBlockReceive p lvs => exact port h fun h => by simp
  | crcWindowEnd p => exact port h fun h => still_crcWindow h p
  | giveUp => exact hub h still_giveUp
  | portHealthy p => exact hub h fun h => still_portHealthy h p
  | revertHoldExpire => exact hub h still_revert
  | shadowTimeout => exact hub h still_shadowOut
  | _ => cases hc

/-- Settles O45: no row of a port or of control sees a group that a raise leaves. -/
theorem framesOfTheLinkRows : Obligations.FramesOfTheLinkRows := by
  intro c s x hc h
  obtain ⟨hstill, hotp, hfrozen, hpending⟩ := exec_link_still hc h
  obtain ⟨-, hepoch, htime, hsmp, hseq, hstr, hmem, hboot, hlcs, -⟩ := Still.mk.inj hstill
  exact ⟨htime, hsmp, hseq, hstr, hmem, hepoch, hboot, hlcs, hotp, hfrozen, hpending⟩

end Sys2Proof.Machine

/-! ## What the rows of the fault collector leave unchanged -/

namespace Sys2Proof.Machine

theorem still_timerExpire (h : Hw) (i : Nat) : (h.timerExpire i).still = h.still := by
  unfold Hw.timerExpire
  split
  · exact still_ite (by simp)
  · rfl

theorem still_flt (h : Hw) (x : FltSt) : ({ h with flt := x } : Hw).still = h.still := (rfl)

theorem still_clearSource (h : Hw) (i : Nat) : (h.clearSource i).still = h.still := by
  unfold Hw.clearSource
  exact (still_flt _ _).trans (by simp)

theorem still_statusClear (h : Hw) (hi : Bool) (v : Word) : (h.statusClear hi v).still = h.still := by
  unfold Hw.statusClear
  dsimp only
  refine still_each _ _ _ fun g k => ?_
  exact still_ite (still_clearSource g _)

theorem still_resumeSafe (h : Hw) : h.resumeSafe.1.still = h.still := by
  unfold Hw.resumeSafe
  split
  · rfl
  · split <;> rfl

theorem still_safeWrite (h : Hw) (q : Requester) (v : Word) : (h.safeWrite q v).still = h.still := by
  have resume (g : Hw) : (if g.inField then g.raise srcLcsViolation (pathOf q) else g.resumeSafe.1).still = g.still := by
    split
    · exact still_raise g _ _
    · exact still_resumeSafe g
  unfold Hw.safeWrite Hw.clearFlag
  dsimp only
  simp only [still_when, still_enterSafe, resume, still_put]

theorem still_minwEnd (h : Hw) : h.minwEnd.still = h.still := by
  unfold Hw.minwEnd
  split
  · exact still_when _ _ _ rfl
  · rfl

theorem still_moveSwitches (h : Hw) (b : Nat) (l : List SwitchId) : (h.moveSwitches b l).still = h.still := by
  refine (still_field _ _).trans (still_each _ _ _ fun g x => ?_)
  cases x
  · exact still_field _ _
  · exact (still_when _ _ _ (still_field _ _)).trans (still_field _ _)

theorem distant_windows (h : Hw) (b : Nat) (l : List Nat) :
    (h.each l (fun h ch => if h.parked ch then h else h.feWindowAt ch b)).distant = h.distant :=
  distant_each h l _ fun g ch => by
    split
    · rfl
    · exact distant_feWindowAt g ch b

theorem distant_parkEnd (h : Hw) (i : Nat) : (h.parkEnd i).distant = h.distant := by
  unfold Hw.parkEnd
  split
  · refine (distant_each _ _ _ fun g e => ?_).trans rfl
    split
    · exact distant_windows g _ _
    · exact distant_of_still (by simp [Hw.markChange])
  · rfl

theorem distant_safeEnd (h : Hw) : h.safeEnd.distant = h.distant := by
  unfold Hw.safeEnd
  split
  · split
    · refine (distant_windows _ _ _).trans (distant_of_still ?_)
      simp only [still_showFaultOff, Hw.markChange, still_each, still_setDrv, implies_true, still_moveSwitches]
      rfl
    · rfl
  · rfl

theorem still_railTimeout (h : Hw) (r : Nat) : (h.railTimeout r).still = h.still := still_ite (by simp)

/-- What the rows of the fault collector leave: the start has its supplies and its reference to note. -/
def FaultFrame (g h : Hw) : Prop :=
  g.time = h.time ∧ g.seq = h.seq ∧ g.str = h.str ∧ g.mem = h.mem ∧ g.epoch = h.epoch ∧ g.boot.nvm = h.boot.nvm ∧
    g.lcs = h.lcs

theorem FaultFrame.of_distant {g h : Hw} (e : g.distant = h.distant) : FaultFrame g h := by
  obtain ⟨htime, hseq, hstr, hmem, hepoch, hboot, hlcs⟩ := Distant.mk.inj e
  exact ⟨htime, hseq, hstr, hmem, hepoch, congrArg BootSt.nvm hboot, hlcs⟩

theorem faultFrame_railTrip (h : Hw) (r : Nat) : FaultFrame (h.railTrip r) h := by
  unfold Hw.railTrip
  dsimp only
  exact ⟨by simp, by simp, by simp, by simp, by simp, by simp, by simp⟩

theorem faultFrame_refclkLoss (h : Hw) : FaultFrame h.refclkLoss h := by
  unfold Hw.refclkLoss
  split
  · exact .of_distant rfl
  · dsimp only
    exact ⟨by simp, by simp, by simp, by simp, by simp, by simp, by simp⟩

theorem exec_fault_frame {c : Instr} {s x : State} (hc : c.isFaultRow = true) (h : exec c s = .next x) :
    FaultFrame x.hw s.hw ∧ x.otp = s.otp ∧ x.frozen = s.frozen ∧ x.pending = s.pending := by
  have row {b : Bool} {f : Hw → Hw} (hx : actOn s b f = .next x) (hf : ∀ h, (f h).distant = h.distant) :
      FaultFrame x.hw s.hw ∧ x.otp = s.otp ∧ x.frozen = s.frozen ∧ x.pending = s.pending :=
    (actOn_keeps Hw.distant hf hx).imp_left .of_distant
  have write {q : Requester} {b : Bool} {f : Hw → Hw} (hx : accWrite s q b f = .next x) (hf : ∀ h, (f h).still = h.still) :
      FaultFrame x.hw s.hw ∧ x.otp = s.otp ∧ x.frozen = s.frozen ∧ x.pending = s.pending :=
    (accWrite_keeps Hw.still hf hx).imp_left fun e => .of_distant (distant_of_still e)
  have monitor {b : Bool} {f : Hw → Hw} (hx : actOn s b f = .next x) (hf : ∀ h, FaultFrame (f h) h) :
      FaultFrame x.hw s.hw ∧ x.otp = s.otp ∧ x.frozen = s.frozen ∧ x.pending = s.pending := by
    obtain ⟨-, ⟨-, rfl⟩ | ⟨-, rfl⟩⟩ := actOn_next s x b f hx
    · exact ⟨hf s.hw, rfl, rfl, rfl⟩
    · exact ⟨.of_distant rfl, rfl, rfl, rfl⟩
  unfold exec at h
  cases c with
  | faultRaise i n => exact row h fun h => distant_of_still (still_raise h i n)
  | faultCauseEnd i => exact row h fun h => distant_of_still (by simp)
  | reactionTimerExpire i => exact row h fun h => distant_of_still (still_timerExpire h i)
  | faultStatusClear q hi v => exact write h fun h => still_statusClear h hi v
  | parkEnd i => exact row h fun h => distant_parkEnd h i
  | faultNMinwEnd => exact row h fun h => distant_of_still (still_minwEnd h)
  | safeEnter q v | safeResume q v => exact write h fun h => still_safeWrite h q v
  | safeEnd => exact row h distant_safeEnd
  | supplyMonitorTrip r => exact monitor h fun h => faultFrame_railTrip h r
  | fieldRailTimeout r => exact row h fun h => distant_of_still (still_railTimeout h r)
  | refclkLoss => exact monitor h faultFrame_refclkLoss
  | _ => cases hc

/-- Settles O46: of the start, the rows of the collector see the supplies and the reference only. -/
theorem framesOfTheFaultRows : Obligations.FramesOfTheFaultRows := by
  intro c s x hc h
  obtain ⟨⟨htime, hseq, hstr, hmem, hepoch, hnvm, hlcs⟩, hotp, hfrozen, hpending⟩ := exec_fault_frame hc h
  exact ⟨htime, hseq, hstr, hmem, hepoch, hnvm, hlcs, hotp, hfrozen, hpending⟩

end Sys2Proof.Machine

/-! ## What the rows of the event recorder leave unchanged -/

namespace Sys2Proof.Machine

/-- The groups that the rows of the recorder leave: network time, sampling, the Bridle, the streams, capture memory and the
keys. -/
structure Aside where
  time : TimeSt
  smp : SmpSt
  seq : SeqSt
  str : StrSt
  mem : MemSt
  lcs : LcsSt

def Hw.aside (h : Hw) : Aside := ⟨h.time, h.smp, h.seq, h.str, h.mem, h.lcs⟩

theorem aside_of_still {g h : Hw} (e : g.still = h.still) : g.aside = h.aside :=
  congrArg (fun x : Still => (⟨x.time, x.smp, x.seq, x.str, x.mem, x.lcs⟩ : Aside)) e

theorem still_recd (h : Hw) (x : RecSt) : ({ h with recd := x } : Hw).still = h.still := (rfl)

@[simp] theorem still_setSlot (h : Hw) (i : Nat) (x : Option RecSlot) : (h.setSlot i x).still = h.still := (rfl)
@[simp] theorem still_freeSlots (h : Hw) : h.freeSlots.still = h.still := (rfl)
@[simp] theorem still_xingActed (h : Hw) (x : Nat) : (h.xingActed x).still = h.still := (rfl)
@[simp] theorem still_writeSlot (h : Hw) (i : Nat) (l : List Byte) : (h.writeSlot i l).still = h.still := by
  unfold Hw.writeSlot
  exact still_recd _ _

/-! ### Frames of records -/

@[simp] theorem still_classFull (h : Hw) (c : Nat) : (h.classFull c).still = h.still := by
  unfold Hw.classFull
  dsimp only
  split <;> simp

@[simp] theorem still_noRoom (h : Hw) (c : Nat) : (h.noRoom c).still = h.still := by
  unfold Hw.noRoom
  split <;> simp

theorem still_net (h : Hw) (x : NetSt) : ({ h with net := x } : Hw).still = h.still := (rfl)

theorem still_number (h : Hw) (f : Frame) : (h.number f).1.still = h.still := by
  unfold Hw.number
  exact (still_net _ _).trans (still_put _ _ _)

@[simp] theorem still_enqueueOn (h : Hw) (f : Frame) (b : Bool) (o : Option Port) : (h.enqueueOn f b o).1.still = h.still := by
  unfold Hw.enqueueOn
  split
  · rfl
  · split
    · exact (still_net _ _).trans (still_number _ _)
    · exact still_classFull _ _

@[simp] theorem still_enqueue (h : Hw) (f : Frame) : (h.enqueue f).1.still = h.still := still_enqueueOn _ _ _ _

/-! ### Failures of the recorder's memory -/

@[simp] theorem still_bunting (h : Hw) (c l : Nat) : (h.bunting c l).1.still = h.still := by
  unfold Hw.bunting
  dsimp only
  split <;> simp

@[simp] theorem still_storeFail (h : Hw) (a b c d : Nat) : (h.storeFail a b c d).still = h.still := by
  unfold Hw.storeFail
  dsimp only
  split <;> simp

@[simp] theorem still_slotLost (h : Hw) (i : Nat) (x : RecSlot) : (h.slotLost i x).still = h.still := by
  unfold Hw.slotLost
  simp

@[simp] theorem still_sectorFail (h : Hw) (a b c : Nat) : (h.sectorFail a b c).still = h.still := by
  unfold Hw.sectorFail
  rw [still_storeFail]
  split
  · exact still_recd _ _
  · exact still_put _ _ _

theorem aside_draws (h : Hw) (n : Nat) : ({ h with draws := n } : Hw).aside = h.aside := (rfl)

theorem still_sendRecords (fuel : Nat) : ∀ h : Hw, (Hw.sendRecords fuel h).still = h.still := by
  induction fuel with
  | zero => intro h; rfl
  | succ n ih =>
    intro h
    unfold Hw.sendRecords
    dsimp only
    split
    · split <;> simp [ih]
    · rfl

/-- A record of an earlier power cycle goes under an epoch of a free value. -/
theorem aside_sendFetch (fuel : Nat) : ∀ h : Hw, (Hw.sendFetch fuel h).aside = h.aside := by
  induction fuel with
  | zero => intro h; rfl
  | succ n ih =>
    intro h
    unfold Hw.sendFetch
    split
    · split
      · split
        · exact aside_of_still ((still_put _ _ _).trans (still_recd _ _))
        · exact (ih _).trans ((aside_of_still ((still_recd _ _).trans (still_enqueue _ _))).trans (aside_draws h _))
      · rfl
    · rfl

theorem aside_recPump (h : Hw) : h.recPump.aside = h.aside :=
  (aside_sendFetch _ _).trans (aside_of_still (still_sendRecords _ _))

/-! ### The NVM -/

theorem aside_boot (h : Hw) (x : BootSt) : ({ h with boot := x } : Hw).aside = h.aside := (rfl)

theorem aside_nvmSpoil (h : Hw) (a n : Nat) : (h.nvmSpoil a n).aside = h.aside :=
  (aside_draws _ _).trans (aside_boot _ _)

theorem aside_nvmProgram (h : Hw) (a : Nat) (l : List Byte) (ok : Bool) : (h.nvmProgram a l ok).1.aside = h.aside := by
  unfold Hw.nvmProgram
  split
  · exact aside_boot _ _
  · exact aside_nvmSpoil _ _ _

theorem aside_nvmErase (h : Hw) (a : Nat) (ok : Bool) : (h.nvmErase a ok).1.aside = h.aside := by
  unfold Hw.nvmErase
  dsimp only
  split
  · exact aside_boot _ _
  · exact aside_nvmSpoil _ _ _

theorem aside_areaAppend (h : Hw) (b : Nat) (c : Option Nat) (l : List Byte) (ok : Bool) :
    (h.areaAppend b c l ok).1.aside = h.aside :=
  (aside_nvmProgram _ _ _ _).trans (when_keeps Hw.aside _ _ _ (aside_nvmErase _ _ _))

/-! ### The rows -/

theorem still_recReceive (h : Hw) : h.recReceive.still = h.still := by
  have acted (l : List RecTrig) : (({ h with recd := { h.recd with atCrossing := l } } : Hw).xingActed 0).still = h.still :=
    (still_xingActed _ _).trans (still_recd _ _)
  unfold Hw.recReceive
  split
  · split
    · dsimp only
      split
      · exact (still_recd _ _).trans ((still_put _ _ _).trans ((still_setSlot _ _ _).trans (acted _)))
      · exact (still_bump _ _ _).trans (acted _)
    · rfl
  · rfl

theorem aside_assemble (h : Hw) : h.assemble.aside = h.aside := by
  have received : (h.when h.recd.staging.isEmpty Hw.recReceive).still = h.still := still_when _ _ _ (still_recReceive h)
  unfold Hw.assemble
  dsimp only
  split
  · split
    · refine (aside_of_still (still_freeSlots _)).trans ((aside_recPump _).trans (aside_of_still ?_))
      refine Eq.trans ?_ received
      simp only [still_when, still_noRoom, still_xingReq, still_setSlot, still_writeSlot, still_recd]
    · exact aside_of_still ((still_recd _ _).trans received)
  · exact aside_of_still received

theorem aside_setSlot (h : Hw) (i : Nat) (x : Option RecSlot) : (h.setSlot i x).aside = h.aside := (rfl)

theorem aside_recd (h : Hw) (x : RecSt) : ({ h with recd := x } : Hw).aside = h.aside := (rfl)

theorem aside_freeSlots (h : Hw) : h.freeSlots.aside = h.aside := (rfl)

theorem aside_sectorFail (h : Hw) (a b c : Nat) : (h.sectorFail a b c).aside = h.aside := aside_of_still (still_sectorFail h a b c)

theorem aside_flush (h : Hw) (ok : Bool) : (h.flush ok).aside = h.aside := by
  have erased (a p : Nat) : (if p % 16 = 0 then h.nvmErase a ok else (h, true)).1.aside = h.aside := by
    split
    · exact aside_nvmErase h a ok
    · rfl
  unfold Hw.flush
  split
  · split
    · split
      · exact aside_of_still (still_slotLost _ _ _)
      · split
        · rfl
        · next p _ =>
          have he := erased (h.pageAddr p) p
          dsimp only
          generalize (if p % 16 = 0 then h.nvmErase (h.pageAddr p) ok else (h, true)) = e at he ⊢
          split
          · rw [aside_sectorFail, aside_recd, he]
          · split
            · rw [aside_freeSlots, aside_recd, aside_setSlot, aside_recd, aside_nvmProgram, he]
            · rw [aside_sectorFail, aside_recd, aside_nvmProgram, he]
    · rfl
  · rfl

theorem still_scan (h : Hw) : h.scan.still = h.still := by
  unfold Hw.scan
  dsimp only
  split
  · split
    · exact (still_put _ _ _).trans ((still_recd _ _).trans (still_put _ _ _))
    · exact still_put _ _ _
  · exact still_put _ _ _

theorem aside_opsecAppend (h : Hw) (ok : Bool) : (h.opsecAppend ok).aside = h.aside := by
  have appended (c : Option Nat) (l : List Byte) (b : Nat) : ((h.xingReq 2).areaAppend b c l ok).1.aside = h.aside :=
    (aside_areaAppend _ _ _ _ _).trans (aside_of_still (still_xingReq _ _))
  unfold Hw.opsecAppend
  dsimp only
  split
  · exact (aside_of_still (still_recd _ _)).trans (appended _ _ _)
  · exact (aside_of_still ((still_bunting _ _ _).trans ((still_raise _ _ _).trans (still_recd _ _)))).trans (appended _ _ _)

theorem aside_recCtlWrite (h : Hw) (v : Word) : (h.recCtlWrite v).aside = h.aside :=
  (aside_of_still (still_when _ _ _ (still_recTriggerAt _ _ _))).trans rfl

theorem aside_fetchWrite (h : Hw) (d : Option Nat) (v : Word) : (h.fetchWrite d v).aside = h.aside := by
  have written : (h.writeRw REC_FETCH_CTL 0xFFFF v).aside = h.aside := aside_of_still (still_setReg _ _ _)
  unfold Hw.fetchWrite
  dsimp only
  split
  · exact (aside_recPump _).trans ((aside_of_still (still_put _ _ _)).trans ((aside_recd _ _).trans written))
  · exact written

theorem exec_recorder_aside {c : Instr} {s x : State} (hc : c.isRecorderRow = true) (h : exec c s = .next x) :
    x.hw.aside = s.hw.aside ∧ x.otp = s.otp ∧ x.frozen = s.frozen ∧ x.pending = s.pending := by
  have row {b : Bool} {f : Hw → Hw} (hx : actOn s b f = .next x) (hf : ∀ h, (f h).aside = h.aside) := actOn_keeps Hw.aside hf hx
  have write {q : Requester} {b : Bool} {f : Hw → Hw} (hx : accWrite s q b f = .next x) (hf : ∀ h, (f h).aside = h.aside) :=
    accWrite_keeps Hw.aside hf hx
  unfold exec at h
  cases c with
  | recTrigger q v => exact write h fun h => aside_recCtlWrite h v
  | recordAssemble => exact row h fun h => when_keeps Hw.aside _ _ h (aside_assemble h)
  | recordFlush ok => exact row h fun h => when_keeps Hw.aside _ _ h (aside_flush h ok)
  | recorderScan => exact row h fun h => when_keeps Hw.aside _ _ h (aside_of_still (still_scan h))
  | opsecSave ok => exact row h fun h => when_keeps Hw.aside _ _ h (aside_opsecAppend h ok)
  | recFetch q src v => exact write h fun h => aside_fetchWrite h _ v
  | recBuntClr q v => exact write h fun h => aside_of_still (still_each _ _ _ fun g i => by simp)
  | recSlotBadClear q w v => exact write h fun h => rfl
  | _ => cases hc

/-- Settles O47: the recorder's rows see the NVM, the staging set and free values, and none of the groups named. -/
theorem framesOfTheRecorderRows : Obligations.FramesOfTheRecorderRows := by
  intro c s x hc h
  obtain ⟨haside, hotp, hfrozen, hpending⟩ := exec_recorder_aside hc h
  obtain ⟨htime, hsmp, hseq, hstr, hmem, hlcs⟩ := Aside.mk.inj haside
  exact ⟨htime, hsmp, hseq, hstr, hmem, hlcs, hotp, hfrozen, hpending⟩

end Sys2Proof.Machine

/-! ## Statements that fail where a step of a unit that no hub has is abandoned (R514, R558)

No command makes such a step, but these statements are about every state. A safe state abandons the front-end step under way,
and writes the role of the step's unit, or the PREP and LOCAL of the spare that was prepared for it: of unit `u`, the six lowest
bits of the word at 0x21000 + 4 u, whatever register stands there. -/

namespace Sys2Proof.Machine

set_option Elab.async false

/-- The command answers a next state, and that state passes a test. -/
def leaves (c : Instr) (s : State) (test : State → Bool) : Bool :=
  match exec c s with
  | .next x => test x
  | _ => false

theorem leaves_iff {c : Instr} {s : State} {test : State → Bool} :
    leaves c s test = true ↔ ∃ x, exec c s = .next x ∧ test x = true := by
  unfold leaves
  cases exec c s <;> simp

/-- What a command does not leave it does not complete with. -/
theorem not_completes_of_leaves {c : Instr} {s : State} {test : State → Bool} {P : State → Prop}
    (h : leaves c s test = true) (hP : ∀ x, test x = true → ¬ P x) : ¬ Completes c s P := by
  obtain ⟨x, hx, ht⟩ := leaves_iff.mp h
  rintro ⟨y, hy, hp⟩
  obtain rfl := Host.Outcome.next.inj (hx.symm.trans hy)
  exact hP x ht hp

/-- The form in which the counterexamples use it: a command leaves one number where another is claimed. -/
theorem not_completes_of_value {c : Instr} {s : State} {P : State → Prop} {f : State → Nat} {m n : Nat}
    (h : leaves c s (fun x => decide (f x = m)) = true) (hne : m ≠ n) (hP : ∀ x, P x → f x = n) : ¬ Completes c s P :=
  not_completes_of_leaves h (fun x hx hp => hne ((of_decide_eq_true hx).symm.trans (hP x hp)))

/-- CORE of a hub runs. -/
def Hw.withCore (h : Hw) : Hw := { h with clk := { h.clk with core := { h.clk.core with mode := .on } } }

/-- A command waits in port B's FIFO. -/
def Hw.withCommand (h : Hw) (e : CmdEntry) : Hw := h.setPort .b { h.port .b with fifo := [e] }

/-- An AUTH_CMD from hub 4 to hub 3 with that payload. -/
def authFrameOf (payload : List Byte) : CmdEntry :=
  { frame := { ty := 0x30, cls := 1, rsp := false, sr := false, flg := false, src := 4, dst := 3, seq := 5, epoch := 0,
               hops := 7, payload := payload }
    hopsArr := 7, order := 1, trailer := some 1, trailerNs := 0, promoted := false, held := false }

/-! ### A critical command with a bad tag -/

/-- LIFECYCLE with counter 0 and a tag of zeros. -/
def untaggedCommand : CmdEntry := authFrameOf ([9, 9, 0, 1, 0, 8, 0, 0] ++ zeros 8 ++ zeros 8 ++ zeros 16)

/-- A DEVELOP hub without keys that has counted one failed tag; the role of unit 277,508 would stand where AUTH_FAILS stands. -/
def strayTagHub : State :=
  let h : Hw := (((strayUnitHub srcAuthFail 277508).withCore.put SYS_BOOT_MODE 1).put LCS_STATE_STATE 1).put LCS_STATUS_AUTH_FAILS 1
  { State.reset with hw := h.withCommand untaggedCommand }

theorem strayTagHub_turns : strayTagHub.authTurns .b untaggedCommand = true := by decide +kernel

theorem strayTagHub_badTag :
    authOk (strayTagHub.hw.keyOf strayTagHub.hw.lcs.cmdKeys) untaggedCommand.frame = false := by decide +kernel

theorem strayTagHub_expected : satAdd 8 (strayTagHub.hw.get LCS_STATUS_AUTH_FAILS) 1 = 2 := by decide +kernel

/-- The bad tag is the second; the safe state that AUTH_FAIL enters then writes role 1 over the count. -/
theorem strayTagHub_leaves :
    leaves (.lifecycle true true) strayTagHub (fun x => decide (x.hw.get LCS_STATUS_AUTH_FAILS = 1)) = true := by
  decide +kernel

/-- Refutes O60: AUTH_FAIL is mapped to the safe state, which abandons a step of unit 277,508 and writes role 1 over the count
of failed tags: it reads 1 after the second. -/
theorem not_turnedAwayCriticalCommands : ¬ Obligations.TurnedAwayCriticalCommands := by
  unfold Obligations.TurnedAwayCriticalCommands
  intro h
  obtain ⟨hbad, -⟩ := h strayTagHub .b untaggedCommand strayTagHub_turns
  refine not_completes_of_value strayTagHub_leaves (show 1 ≠ 2 by decide) ?_ (hbad strayTagHub_badTag)
  rintro x ⟨-, -, hfails, -⟩
  exact hfails.trans strayTagHub_expected

/-! ### IMAGE_WRITE over bytes that are not erased -/

/-- IMAGE_WRITE of the bytes 1 to 4 at the start of slot 0, with counter 7 and its tag under key 0. -/
def programCommand : CmdEntry :=
  authFrameOf ([9, 9, 0, 3, 0, 12, 0, 0] ++ beBytes 8 7 ++ [0, 1, 0, 0, 0, 0, 0, 0, 1, 2, 3, 4] ++
    [100, 250, 155, 96, 248, 229, 214, 102, 3, 28, 136, 84, 49, 69, 59, 173])

/-- OTP with key 0 in the first command slot. -/
def oneKey : LcsSt := { lcs0 with cmdKeys := [{ key := 0, written := true, revoked := false }, keySlot0, keySlot0, keySlot0] }

/-- A DEVELOP hub with that key and an NVM whose first byte is programmed to 0; the role of unit 277,506 would stand where
LCS_CTR_LO stands. -/
def strayCounterHub : State :=
  let h : Hw := ((strayUnitHub srcNvmWriteFail 277506).withCore.put SYS_BOOT_MODE 1).put LCS_STATE_STATE 1
  let n : Hw := (h.put CFG_NVM_SFDP_OK 1).put CFG_NVM_DENSITY_LOG2 25
  { State.reset with
    otp := oneKey
    hw := { n.withCommand programCommand with lcs := oneKey, boot := { n.boot with nvm := [(0, 0)] } } }

theorem strayCounterHub_ready : strayCounterHub.authReady .b programCommand 3 = true := by decide +kernel

theorem programCommand_op : beAt (authArgs programCommand.frame.payload) 1 1 = 1 := by decide +kernel

theorem programCommand_counter : authCounter programCommand.frame.payload = 7 := by decide +kernel

/-- The counter takes 7; the program then fails, and the safe state that NVM_WRITE_FAIL enters writes role 1 over it. -/
theorem strayCounterHub_leaves : leaves (.imageWrite true true) strayCounterHub
    (fun x => decide (x.hw.get64 LCS_CTR_LO_CTR_LO LCS_CTR_HI_CTR_HI = 5)) = true := by decide +kernel

/-- Refutes O43: an IMAGE_WRITE whose bytes do not read back as written raises NVM_WRITE_FAIL, which is mapped to the safe
state; the safe state abandons a step of unit 277,506 and writes role 1 over LCS_CTR, which reads 5 and not the command's 7. -/
theorem not_criticalCommands : ¬ Obligations.CriticalCommands := by
  unfold Obligations.CriticalCommands
  rintro ⟨-, -, -, -, -, -, himage, -⟩
  refine not_completes_of_value strayCounterHub_leaves (show 5 ≠ 7 by decide) ?_
    (himage strayCounterHub .b programCommand strayCounterHub_ready programCommand_op)
  rintro x ⟨-, -, -, hcounter⟩
  exact hcounter.trans programCommand_counter

/-! ### Cinch blocks and jobs -/

/-- A job of one word. -/
def oneWordJob : JobSt :=
  { src := 0, words := 1, level := 0, pred := 0, send := false, dest := none, done := 0, partBlock := none, partSize := 0,
    toSend := [], off := 0, bseq := 0, freed := 0 }

/-- An empty history block. -/
def emptyBlock : CinBlock :=
  { chan := 1, id := 0, sub := 0, first := 0, last := false, flagged := false, level := 0, pred := 0, input := [], place := 0,
    epoch := 0, saved := (0, []) }

/-- A hub with one copy of the valid bit of memory word 0 upset, and a step of unit `u`. -/
def upsetWordHub (u : Nat) : Hw :=
  { (strayUnitHub srcMemCe u).withCore with mem := { hw0.mem with valid := [(0, 1)] } }

/-- A hub whose engine completes that block beside a job that does not run; the role of unit 146,439 would stand where STATE of
CIN_JOB_STAT stands. -/
def strayBlockHub : State :=
  { State.reset with hw := { upsetWordHub 146439 with
      cin := { hw0.cin with block := some emptyBlock, job := some oneWordJob } } }

theorem strayBlockHub_idle : strayBlockHub.hw.get CIN_JOB_STAT_STATE ≠ 1 := by decide +kernel

/-- Storing the block repairs the valid bit and raises MEM_CE; the safe state writes role 1 over STATE, and the engine takes the
job's block. -/
theorem strayBlockHub_leaves : leaves .cinchBlockDone strayBlockHub (fun x => x.hw.cin.block.isSome) = true := by
  decide +kernel

/-- Refutes O29: with no job running, the engine is not free after a history block. Storing the block repairs a copy of a valid
bit; MEM_CE is mapped to the safe state, which abandons a step of unit 146,439 and writes role 1 over the STATE of the job, and
the engine then takes a block of that job. -/
theorem not_cinchBlocks : ¬ Obligations.CinchBlocks := by
  unfold Obligations.CinchBlocks
  rintro ⟨-, -, -, hdone, -⟩
  refine not_completes_of_leaves strayBlockHub_leaves ?_ (hdone strayBlockHub emptyBlock rfl rfl rfl rfl)
  rintro x hbusy ⟨hfree, -⟩
  rw [hfree strayBlockHub_idle] at hbusy
  exact Bool.false_ne_true hbusy

/-- A hub with a job of memory word 0 to start; the role of unit 146,440 would stand where CIN_JOB_IN stands. -/
def strayJobHub : State :=
  { State.reset with
    hw := (((upsetWordHub 146440).put SYS_BOOT_MODE 1).put MEM_WORK_POOL_LEN_TILES 17).put CIN_JOB_LEN_WORDS 1 }

theorem strayJobHub_writable : strayJobHub.hw.writable .mspi = true := by decide +kernel

theorem strayJobHub_idle : strayJobHub.hw.get CIN_JOB_STAT_STATE = 0 := by decide +kernel

theorem strayJobHub_range : strayJobHub.hw.get CIN_JOB_SRC_SRC = 0 ∧ strayJobHub.hw.get CIN_JOB_LEN_WORDS = 1 := by
  decide +kernel

theorem strayJobHub_pool : strayJobHub.hw.get MEM_WORK_POOL_LEN_TILES = 17 := by decide +kernel

theorem strayJobHub_settings : (strayJobHub.hw.writeRw CIN_JOB_CTL 0x1000013F 0x80000000).get CIN_JOB_CTL_LEVEL = 0 ∧
    (strayJobHub.hw.writeRw CIN_JOB_CTL 0x1000013F 0x80000000).get CIN_JOB_CTL_PRED = 0 := by decide +kernel

/-- The engine reads the job's first word, which repairs the valid bit and raises MEM_CE; the safe state writes role 1 over the
words that the job has read. -/
theorem strayJobHub_leaves :
    leaves (.cinJobGo .mspi 0 0x80000000) strayJobHub (fun x => decide (x.hw.get CIN_JOB_IN_IN = 1)) = true := by
  decide +kernel

/-- Refutes O30: a job that GO starts does not start at 0. The read of its first word repairs a copy of a valid bit; MEM_CE is
mapped to the safe state, which abandons a step of unit 146,440 and writes role 1 over CIN_JOB_IN. -/
theorem not_cinchJobs : ¬ Obligations.CinchJobs := by
  unfold Obligations.CinchJobs
  rintro ⟨hgo, -⟩
  obtain ⟨hsrc, hwords⟩ := strayJobHub_range
  obtain ⟨hlevel, hpred⟩ := strayJobHub_settings
  refine not_completes_of_value strayJobHub_leaves (show 1 ≠ 0 by decide) ?_
    (hgo strayJobHub .mspi 0 0x80000000 strayJobHub_writable (by decide) (by rw [strayJobHub_idle]; decide)
      (by rw [strayJobHub_idle]; decide) (by rw [hsrc, hwords]; decide) (by rw [hwords]; decide)
      (by rw [strayJobHub_pool]) (by rw [hlevel]; decide) (by rw [hpred]; decide))
  rintro x ⟨-, -, hin, -⟩
  exact hin

/-! ### Ports and lanes -/

/-- A port in CLOCK with its clock lane locked, in a relief whose spare is unit 162,821: its LOCAL would stand where the events
of port A stand. -/
def strayClockHub : State :=
  { State.reset with hw := { (strayUnitHub (srcPortClockLaneLoss 0) 0).put (LNK_STATUS_CLK_LOCK 0) 1 with
      field := { hw0.field with relief := [(0, some { strayRelief with newUnit := 162821 })] } } }

theorem strayClockHub_linkOn : strayClockHub.hw.linkOn = true := by decide +kernel

theorem strayClockHub_locked : strayClockHub.hw.on (LNK_STATUS_CLK_LOCK (portNo .a)) = true := by decide +kernel

/-- CLOCK_LANE_LOSS is set before the raise; the safe state then writes LOCAL 0 over it. -/
theorem strayClockHub_leaves :
    leaves (.clockLaneLoss .a) strayClockHub (fun x => !x.hw.on (LNK_EVT_CLOCK_LANE_LOSS (portNo .a))) = true := by
  decide +kernel

/-- Refutes O31: a lost clock lane does not show in LNKx_EVT. PORT_CLOCK_LANE_LOSS is mapped to the safe state, which abandons a
step with a relief prepared for unit 162,821 and writes LOCAL 0 over the event. -/
theorem not_portTraining : ¬ Obligations.PortTraining := by
  unfold Obligations.PortTraining
  rintro ⟨-, -, -, -, -, -, -, -, -, hloss, -⟩
  refine not_completes_of_leaves strayClockHub_leaves ?_ (hloss strayClockHub .a rfl strayClockHub_linkOn strayClockHub_locked)
  rintro x hclear ⟨-, hevent, -⟩
  rw [hevent] at hclear
  exact Bool.false_ne_true hclear

/-- A port in UP, its lanes asleep, that falls to two lanes; the role of unit 162,820 would stand where WIDTH stands. -/
def strayWidthHub : State :=
  let h : Hw := ((strayUnitHub (srcPortWidthDegraded 0) 162820).put (LNK_STATUS_STATE 0) 4).put (LNK_STATUS_HEALTHY 0) 3
  { State.reset with hw := ((h.put (LNK_STATUS_P_HEALTHY 0) 15).put (LNK_STATUS_ACTIVE 0) 15).put (LNK_STATUS_TX_ASLEEP 0) 1 }

theorem strayWidthHub_linkOn : strayWidthHub.hw.linkOn = true := by decide +kernel

theorem strayWidthHub_up : strayWidthHub.hw.up .a = true := by decide +kernel

theorem strayWidthHub_some :
    strayWidthHub.hw.healthy .a &&& strayWidthHub.hw.get (LNK_STATUS_P_HEALTHY (portNo .a)) ≠ 0 := by decide +kernel

theorem strayWidthHub_changed :
    strayWidthHub.hw.active .a ≠ strayWidthHub.hw.healthy .a &&& strayWidthHub.hw.get (LNK_STATUS_P_HEALTHY (portNo .a)) := by
  decide +kernel

theorem strayWidthHub_expected :
    popCount 4 (strayWidthHub.hw.healthy .a &&& strayWidthHub.hw.get (LNK_STATUS_P_HEALTHY (portNo .a))) = 2 := by decide +kernel

/-- WIDTH is 2 when WIDTH_DEGRADED is raised; the safe state then writes role 1 over its two lowest bits. -/
theorem strayWidthHub_leaves :
    leaves (.widthChange .a) strayWidthHub (fun x => decide (x.hw.get (LNK_STATUS_WIDTH (portNo .a)) = 1)) = true := by
  decide +kernel

/-- Refutes O32: a port that restripes over two lanes shows WIDTH 1. PORT_WIDTH_DEGRADED is mapped to the safe state, which
abandons a step of unit 162,820 and writes role 1 over WIDTH. -/
theorem not_lanesAndWidth : ¬ Obligations.LanesAndWidth := by
  unfold Obligations.LanesAndWidth
  rintro ⟨-, -, -, hrestripe, -⟩
  refine not_completes_of_value strayWidthHub_leaves (show 1 ≠ 2 by decide) ?_
    (hrestripe strayWidthHub .a rfl strayWidthHub_linkOn strayWidthHub_up strayWidthHub_some strayWidthHub_changed)
  rintro x ⟨-, hwidth, -⟩
  exact hwidth.trans strayWidthHub_expected

/-- A port in UP; the role of unit 162,828 would stand where the lower threshold's offset of lane 0 stands. -/
def strayBoundHub : State :=
  { State.reset with hw := (strayUnitHub (srcPortTrackBound 0) 162828).put (LNK_STATUS_STATE 0) 4 }

theorem strayBoundHub_linkOn : strayBoundHub.hw.linkOn = true := by decide +kernel

theorem strayBoundHub_up : strayBoundHub.hw.up .a = true := by decide +kernel

/-- The offset stands at its bound of 8 when TRACK_BOUND is raised; the safe state then writes role 1 over its lowest bits. -/
theorem strayBoundHub_leaves :
    leaves (.trackBound .a 0 0 true) strayBoundHub (fun x => decide (x.hw.offset .a 0 0 = 9)) = true := by decide +kernel

/-- Refutes O33: an offset that reaches its bound stands at 9. PORT_TRACK_BOUND is mapped to the safe state, which abandons a
step of unit 162,828 and writes role 1 over the offset. -/
theorem not_laneTuning : ¬ Obligations.LaneTuning := by
  unfold Obligations.LaneTuning
  rintro ⟨hbound, -⟩
  refine not_completes_of_leaves strayBoundHub_leaves ?_
    (hbound strayBoundHub .a 0 0 true rfl strayBoundHub_linkOn strayBoundHub_up (by decide) (by decide))
  rintro x hnine ⟨height, -⟩
  rw [height] at hnine
  exact Bool.false_ne_true hnine

/-! ### A good trailer -/

/-- A LINK_CTL frame without payload, whose number lies outside the window of its source. -/
def strangeFrame : Frame :=
  { ty := 0x40, cls := 1, rsp := false, sr := false, flg := false, src := 4, dst := 3, seq := 8192, epoch := 0, hops := 7,
    payload := [] }

/-- That frame in reception: its SOF block holds all of it. -/
def strangeRx : RxFrame :=
  { sof := strangeFrame.bytes, consumed := true, forwarded := false, queued := false, refused := false, stamp := 0 }

/-- A port in UP that has received that frame and has counted one before it; the role of unit 162,880 would stand where the
count stands. -/
def strayFrameHub : State :=
  let h : Hw := ((strayUnitHub (srcPortDupWindow 0) 162880).put (LNK_STATUS_STATE 0) 4).put (LNK_RX_FRAMES_FRAMES 0) 1
  let r : Hw := h.setPort .a { h.port .a with rx := some strangeRx }
  { State.reset with hw := { r with
      net := { r.net with dup := [{ src := 4, head := 16384, map := 1, warned := false }] } } }

theorem strayFrameHub_linkOn : strayFrameHub.hw.linkOn = true := by decide +kernel

theorem strayFrameHub_up : strayFrameHub.hw.up .a = true := by decide +kernel

theorem strayFrameHub_good :
    ((strangeRx.sof ++ (strayFrameHub.hw.hear .a []).data).take (20 + lenOf strangeRx.sof)).length = 20 + lenOf strangeRx.sof ∧
    beNat (((strangeRx.sof ++ (strayFrameHub.hw.hear .a []).data).take (20 + lenOf strangeRx.sof)).drop (16 + lenOf strangeRx.sof)) =
      crc32c (((strangeRx.sof ++ (strayFrameHub.hw.hear .a []).data).take (20 + lenOf strangeRx.sof)).take 14 ++
        (((strangeRx.sof ++ (strayFrameHub.hw.hear .a []).data).take (20 + lenOf strangeRx.sof)).drop 16).take (lenOf strangeRx.sof)) := by
  decide +kernel

theorem strayFrameHub_expected : satAdd 32 (strayFrameHub.hw.get (LNK_RX_FRAMES_FRAMES (portNo .a))) 1 = 2 := by decide +kernel

/-- The frame is the second; PORT_DUP_WINDOW is then raised, and the safe state writes role 1 over the count. -/
theorem strayFrameHub_leaves : leaves (.frameTrailerCheck .a []) strayFrameHub
    (fun x => decide (x.hw.get (LNK_RX_FRAMES_FRAMES (portNo .a)) = 1)) = true := by decide +kernel

/-- Refutes O34: the second frame with a good trailer leaves a count of 1. Its number lies outside the duplicate window;
PORT_DUP_WINDOW is mapped to the safe state, which abandons a step of unit 162,880 and writes role 1 over the count. -/
theorem not_frameReception : ¬ Obligations.FrameReception := by
  unfold Obligations.FrameReception
  rintro ⟨-, -, -, -, hgood⟩
  refine not_completes_of_value strayFrameHub_leaves (show 1 ≠ 2 by decide) ?_
    (hgood strayFrameHub .a [] strangeRx rfl strayFrameHub_linkOn strayFrameHub_up rfl strayFrameHub_good)
  rintro x ⟨-, hframes, -⟩
  exact hframes.trans strayFrameHub_expected

/-! ### Control between the ports -/

/-- Port A, in DOWN, holds control; port B is healthy at two lanes, the least that it may have. The role of unit 179,204 would
stand where the WIDTH of port B stands. -/
def strayControlHub : State :=
  let h : Hw := ((strayUnitHub (srcPortGiveUp 0) 179204).put LNK_PORT_STATUS_ACTIVE 0).put (LNK_STATUS_STATE 1) 4
  { State.reset with hw := (h.put (LNK_STATUS_WIDTH 1) 2).put (LNK_CTL_MIN_WIDTH 1) 2 }

theorem strayControlHub_active : strayControlHub.hw.activeOf = some .a := by decide +kernel

theorem strayControlHub_cause : strayControlHub.hw.portCause .a ≠ 0 := by decide +kernel

theorem strayControlHub_forcing : strayControlHub.hw.forcing ≠ some .a := by decide +kernel

theorem strayControlHub_expected :
    (if strayControlHub.hw.portCause (otherPort .a) = 0 then portNo (otherPort .a) else 2) = 1 := by decide +kernel

/-- Port B is healthy when port A gives up; the safe state then writes role 1 over its WIDTH, and control goes to EITHER. -/
theorem strayControlHub_leaves : leaves .giveUp strayControlHub (fun x => decide (x.hw.activePort = 2)) = true := by
  decide +kernel

/-- Refutes O36: the active port gives up control to EITHER though the other port was healthy. PORT_GIVE_UP is mapped to the safe
state, which abandons a step of unit 179,204 and writes role 1 over the other port's WIDTH before it is judged. -/
theorem not_dualPortControl : ¬ Obligations.DualPortControl := by
  unfold Obligations.DualPortControl
  rintro ⟨-, -, hgiveUp, -⟩
  refine not_completes_of_value strayControlHub_leaves (show 2 ≠ 1 by decide) ?_
    (hgiveUp strayControlHub .a rfl strayControlHub_active strayControlHub_cause strayControlHub_forcing)
  rintro x ⟨-, hactive, -⟩
  exact hactive.trans strayControlHub_expected

/-! ### The quality of network time -/

/-- A LOCKED hub whose holdover timer has expired, and whose step has failed too often; the role of unit 195,600 would stand
where QUALITY stands. -/
def strayQualityHub : State :=
  let h : Hw := (strayUnitHub srcTimeHoldover 195600).put TIM_STATUS_QUALITY 0
  { State.reset with hw := { h with
      time := { h.time with lastValid := some 0, tick := 2 ^ 40 }
      cal := { h.cal with fe := [(195600, { item0 with fails := 15 })] } } }

theorem strayQualityHub_locked : strayQualityHub.hw.quality = 0 := by decide +kernel

theorem strayQualityHub_due : strayQualityHub.hw.due (0 + strayQualityHub.hw.holdoverNs) = true := by decide +kernel

/-- QUALITY is HOLDOVER when TIME_HOLDOVER is raised; the safe state then writes role 3 over it. -/
theorem strayQualityHub_leaves : leaves .timeHoldover strayQualityHub (fun x => decide (x.hw.quality = 3)) = true := by
  decide +kernel

/-- Refutes O8: the holdover timer leaves QUALITY at UNSET. TIME_HOLDOVER is mapped to the safe state, which abandons a step of
unit 195,600, takes the unit out of service and writes role 3 over QUALITY. -/
theorem not_timeWrites : ¬ Obligations.TimeWrites := by
  unfold Obligations.TimeWrites
  rintro ⟨-, -, -, -, -, -, -, -, -, -, -, hholdover, -⟩
  refine not_completes_of_value strayQualityHub_leaves (show 3 ≠ 1 by decide) ?_
    (hholdover strayQualityHub 0 rfl rfl strayQualityHub_locked strayQualityHub_due rfl rfl)
  rintro x ⟨hquality, -⟩
  exact hquality

/-! ### The fault collector -/

/-- The role of unit 228,656 would stand where TIME_HOLDOVER's INFO stands. -/
def strayInfoHub : State := { State.reset with hw := strayUnitHub srcTimeHoldover 228656 }

/-- INFO is 0 when the reaction acts; the safe state then writes role 1 over it. -/
theorem strayInfoHub_leaves : leaves (.faultRaise srcTimeHoldover 0) strayInfoHub
    (fun x => decide (x.hw.get (FLT_INFO_INFO srcTimeHoldover) = 1)) = true := by decide +kernel

/-- Refutes O38: a raise with INFO 0 leaves INFO 1. The source is mapped to the safe state, which abandons a step of unit 228,656
and writes role 1 over INFO. -/
theorem not_faultRaises : ¬ Obligations.FaultRaises := by
  unfold Obligations.FaultRaises
  rintro ⟨-, hinfo, -⟩
  refine not_completes_of_value strayInfoHub_leaves (show 1 ≠ 0 by decide) ?_
    (hinfo strayInfoHub srcTimeHoldover 0 rfl (by decide) (by decide))
  rintro x ⟨hzero, -⟩
  exact hzero

/-- A hub outside SAFE; the role of unit 228,421 would stand where ACTIVE of FLT_SAFE stands. -/
def straySafeHub : State := { State.reset with hw := (strayUnitHub srcTimeHoldover 228421).put SYS_BOOT_MODE 1 }

theorem straySafeHub_writable : straySafeHub.hw.writable .mspi = true := by decide +kernel

theorem straySafeHub_expected :
    (if straySafeHub.hw.safe = true ∧ straySafeHub.hw.flt.safeEnding = false then straySafeHub.hw.get FLT_SAFE_SOURCE else 0x40) =
      0x40 := by decide +kernel

/-- Role 1 sets ACTIVE before the safe state asks whether it stands already: SOURCE stays 0. -/
theorem straySafeHub_leaves :
    leaves (.safeEnter .mspi 0x80000000) straySafeHub (fun x => decide (x.hw.get FLT_SAFE_SOURCE = 0)) = true := by
  decide +kernel

/-- Refutes O39: ENTER outside SAFE does not name itself as the source. The step of unit 228,421 is abandoned first; its role 1
stands where ACTIVE stands, and SAFE is taken to be in force already. -/
theorem not_faultClearing : ¬ Obligations.FaultClearing := by
  unfold Obligations.FaultClearing
  rintro ⟨-, -, -, henter, -⟩
  refine not_completes_of_value straySafeHub_leaves (show 0 ≠ 0x40 by decide) ?_
    (henter straySafeHub .mspi 0x80000000 straySafeHub_writable (by decide) (by decide))
  rintro x ⟨-, hsource, -⟩
  exact hsource.trans straySafeHub_expected

/-! ### Starts and the loader -/

/-- The OTP read is under way; the role of unit 277,504 would stand where the life-cycle state stands. -/
def strayOtpHub : State :=
  { State.reset with hw := { strayUnitHub srcFilterRomCheck 277504 with boot := { boot0 with phase := .otp } } }

theorem strayOtpHub_expected : otpState strayOtpHub.otp.copies = 0 := by decide +kernel

/-- The state is BLANK when the first filter store reads wrong twice; the safe state then writes role 1 over it. -/
theorem strayOtpHub_leaves :
    leaves (.otpReadDone [0]) strayOtpHub (fun x => decide (x.hw.get LCS_STATE_STATE = 1)) = true := by decide +kernel

/-- Refutes O41: the OTP read of a BLANK array leaves DEVELOP. A filter store reads wrong; FILTER_ROM_CHECK is mapped to the safe
state, which abandons a step of unit 277,504 and writes role 1 over LCS_STATE. -/
theorem not_starts : ¬ Obligations.Starts := by
  unfold Obligations.Starts
  rintro ⟨-, -, -, -, -, hread, -⟩
  refine not_completes_of_value strayOtpHub_leaves (show 1 ≠ 0 by decide) ?_ (hread strayOtpHub [0] rfl rfl)
  rintro x ⟨-, hstate, -⟩
  exact hstate.trans strayOtpHub_expected

/-- No slot is left, and slot 0 had a bad header; the role of unit 228,667 would stand where IMAGE_FALLBACK's INFO stands. -/
def strayFallbackHub : State :=
  { State.reset with hw := { (strayUnitHub srcImageFallback 228667).put (CFG_IMG_FAIL 0) 2 with
      boot := { boot0 with phase := .load [] } } }

theorem strayFallbackHub_failed : strayFallbackHub.hw.get (CFG_IMG_FAIL 0) ≠ 0 := by decide +kernel

theorem strayFallbackHub_notEmpty : strayFallbackHub.hw.get (CFG_IMG_FAIL 0) ≠ 0xB := by decide +kernel

/-- INFO is 2 when the reaction acts; the safe state then writes role 1 over it. -/
theorem strayFallbackHub_leaves : leaves .repeaterMode strayFallbackHub
    (fun x => decide (x.hw.get (FLT_INFO_INFO srcImageFallback) = 1)) = true := by decide +kernel

/-- Refutes O42: repeater mode after a bad header leaves INFO 1 of IMAGE_FALLBACK. The source is mapped to the safe state, which
abandons a step of unit 228,667 and writes role 1 over INFO. -/
theorem not_loader : ¬ Obligations.Loader := by
  unfold Obligations.Loader
  rintro ⟨-, -, -, -, -, -, -, hfallback, -⟩
  refine not_completes_of_value strayFallbackHub_leaves (show 1 ≠ 2 by decide) ?_
    (hfallback strayFallbackHub 0 rfl rfl (by decide) strayFallbackHub_failed strayFallbackHub_notEmpty)
  rintro x ⟨-, hinfo⟩
  exact hinfo

end Sys2Proof.Machine

/-! ## Network time at a tick, and its frames (R484, R489, R491 to R496) -/

namespace Sys2Proof.Machine

/-- The timebase, and one register. -/
def Hw.clockAnd (a : Nat) (h : Hw) : TimeSt × Word := (h.time, h.reg a)

theorem clockAnd_put {a : Nat} (h : Hw) (f : Fld) (v : Nat) (ha : a ≠ f.addr) : (h.put f v).clockAnd a = h.clockAnd a :=
  Prod.ext rfl (reg_put_other h f v ha)

theorem reg_of_clockAnd {a : Nat} {h k : Hw} (hh : k.clockAnd a = h.clockAnd a) : k.reg a = h.reg a :=
  congrArg Prod.snd hh

theorem get_of_clockAnd {h k : Hw} {f : Fld} (hh : k.clockAnd f.addr = h.clockAnd f.addr) : k.get f = h.get f :=
  congrArg (fun p : TimeSt × Word => bits p.2 f.hi f.lo) hh

theorem on_of_clockAnd {h k : Hw} {f : Fld} (hh : k.clockAnd f.addr = h.clockAnd f.addr) : k.on f = h.on f := by
  rw [Hw.on, Hw.on, get_of_clockAnd hh]

theorem time_of_clockAnd {a : Nat} {h k : Hw} (hh : k.clockAnd a = h.clockAnd a) : k.time = h.time :=
  congrArg Prod.fst hh

/-- SET_DONE beside another field of the status of the timebase. -/
theorem setDone_put_beside (h : Hw) (hi lo v : Nat) (hlo : lo ≤ hi) (h31 : hi < 32) (hd : hi < 5 ∨ 5 < lo) :
    (h.put ⟨TIM_STATUS, hi, lo⟩ v).on TIM_STATUS_SET_DONE = h.on TIM_STATUS_SET_DONE := by
  rw [Hw.on, Hw.on, get_put_disjoint h ⟨TIM_STATUS, hi, lo⟩ TIM_STATUS_SET_DONE v hlo h31 (by decide) rfl hd]

/-! ### Sync requests and what follows the tick -/

/-- The register lies beyond those of the strobe scheduler. -/
abbrev BeyondStrobes (a : Nat) : Prop := 0x50000 ≤ a

section
variable {a : Nat} (ha : BeyondStrobes a)
include ha

theorem clockAnd_showPend (h : Hw) : h.showPend.clockAnd a = h.clockAnd a :=
  (clockAnd_put _ _ _ (by change a ≠ 0x40020; omega)).trans (clockAnd_put h _ _ (by change a ≠ 0x40020; omega))

theorem clockAnd_dropIgnored (h : Hw) : h.dropIgnored.clockAnd a = h.clockAnd a := by
  unfold Hw.dropIgnored
  split
  · exact clockAnd_showPend ha _
  · rfl

omit ha in
theorem clockAnd_resolveReq (h : Hw) (r : SyncReq) : (h.resolveReq r).1.clockAnd a = h.clockAnd a := by
  unfold Hw.resolveReq
  split
  · refine foldl_keeps (fun p : Hw × SyncReq => p.1.clockAnd a = h.clockAnd a) _ (fun p k hp => ?_) _ _ rfl
    dsimp only
    split
    · split
      · exact hp
      · exact hp
    · exact hp
  · rfl

theorem clockAnd_settleReqs (h : Hw) : h.settleReqs.clockAnd a = h.clockAnd a :=
  (clockAnd_showPend ha _).trans <| foldl_keeps (fun p : Hw × List SyncReq => p.1.clockAnd a = h.clockAnd a) _
    (fun p r hp => (clockAnd_resolveReq p.1 r).trans hp) _ _ rfl

theorem clockAnd_syncRequest (h : Hw) (t mask src : Nat) : (h.syncRequest t mask src).clockAnd a = h.clockAnd a :=
  clockAnd_settleReqs ha _

theorem clockAnd_pinTick (h : Hw) : h.pinTick.clockAnd a = h.clockAnd a := by
  unfold Hw.pinTick
  split
  · rfl
  · exact clockAnd_syncRequest ha _ _ _ _
  · rfl

/-- R122: the release of sampling. -/
theorem clockAnd_release (h : Hw) : h.release.clockAnd a = h.clockAnd a := by
  unfold Hw.release Hw.showActive
  dsimp only
  rw [clockAnd_put _ _ _ (by change a ≠ 0x40008; omega), clockAnd_put _ _ _ (by change a ≠ 0x40008; omega),
    clockAnd_syncRequest ha, each_keeps (Hw.clockAnd a) (fun h g => h.setGrp g _) (fun _ _ => rfl), clockAnd_put _ _ _ (by change a ≠ 8; omega)]

end

theorem clockAnd_wake (a : Nat) (h : Hw) (d : Domain) : (h.wake d).clockAnd a = h.clockAnd a :=
  Prod.ext (congrArg Still.time (still_wake h d)) (congrArg (fun r => storeGet regReset r a) (regs_wake h d))

theorem clockAnd_setDom (a : Nat) (h : Hw) (d : Domain) (x : DomSt) : (h.setDom d x).clockAnd a = h.clockAnd a := by
  cases d <;> rfl

theorem clockAnd_domTick (a : Nat) (h : Hw) : h.domTick.clockAnd a = h.clockAnd a := by
  refine each_keeps (Hw.clockAnd a) _ (fun h d => ?_) _ h
  dsimp only
  split
  · split
    · exact (clockAnd_wake a _ d).trans (clockAnd_setDom a h d _)
    · exact clockAnd_setDom a h d _
  · rfl

theorem clockAnd_closeMoving (a : Nat) (h : Hw) (x : SwitchId) : (h.closeMoving x).clockAnd a = h.clockAnd a := by
  cases x <;> rfl

theorem clockAnd_switchTick (a : Nat) (h : Hw) : h.switchTick.clockAnd a = h.clockAnd a := by
  unfold Hw.switchTick
  refine (each_keeps (Hw.clockAnd a) _ (fun h q => ?_) _ _).trans (when_keeps (Hw.clockAnd a) _ _ _ ?_)
  · split
    · exact when_keeps (Hw.clockAnd a) _ _ _ rfl
    · rfl
  · exact each_keeps (Hw.clockAnd a) _ (clockAnd_closeMoving a) _ h

/-- What follows the new time at a tick touches neither the timebase nor its status. -/
theorem clockAnd_afterTick (h : Hw) :
    h.dropIgnored.pinTick.domTick.switchTick.clockAnd TIM_STATUS = h.clockAnd TIM_STATUS :=
  calc h.dropIgnored.pinTick.domTick.switchTick.clockAnd TIM_STATUS
    _ = h.dropIgnored.pinTick.domTick.clockAnd TIM_STATUS := clockAnd_switchTick _ _
    _ = h.dropIgnored.pinTick.clockAnd TIM_STATUS := clockAnd_domTick _ _
    _ = h.dropIgnored.clockAnd TIM_STATUS := clockAnd_pinTick (by decide) _
    _ = h.clockAnd TIM_STATUS := clockAnd_dropIgnored (by decide) h

/-! ### The tick (R484, R488, R489) -/

/-- What a tick makes of the timebase where no load waits: `step` is added beside the increment. -/
def TimeSt.ticked (x : TimeSt) (step : Int) : TimeSt :=
  { x with
    now := timeAdd x.now ((x.incrHold.getD x.incr : Int) + step), tick := x.tick + 1, incr := x.incrHold.getD x.incr
    incrHold := x.incrPend, incrPend := none, adjHold := x.adjPend, adjPend := none, setHold := x.setPend, setPend := none }

theorem time_showTimePend (h : Hw) : h.showTimePend.time = h.time := (rfl)

theorem stepBelow_of_nonneg {h : Hw}
    (hnow : 0 ≤ (h.time.now : Int) + ((h.time.incrHold.getD h.time.incr : Int) + h.time.adjHold.getD 0)) :
    h.stepBelow = false := by
  unfold Hw.stepBelow Hw.incrNow
  cases hadj : h.time.adjHold with
  | none => simp
  | some d =>
    rw [hadj, Option.getD_some] at hnow
    rw [Option.any_some, decide_eq_false (by omega), Bool.and_false]

theorem stepBelow_of_load {h : Hw} {t : Nat} (hset : h.time.setHold = some t) : h.stepBelow = false := by
  rw [Hw.stepBelow, hset]; rfl

theorem time_tickTime {h : Hw} (hset : h.time.setHold = none) (hstep : h.stepBelow = false) :
    h.tickTime.time = h.time.ticked (h.time.adjHold.getD 0) := by
  unfold Hw.tickTime
  dsimp only
  rw [hset, hstep]
  rfl

theorem setDone_showTimePend (h : Hw) : h.showTimePend.on TIM_STATUS_SET_DONE = h.on TIM_STATUS_SET_DONE := by
  unfold Hw.showTimePend
  rw [setDone_put_beside _ 4 4 _ (by decide) (by decide) (by decide), setDone_put_beside _ 3 3 _ (by decide) (by decide) (by decide)]

theorem timeLoad_spec (h : Hw) (t : Nat) :
    (h.timeLoad t).time = { h.time with now := t } ∧ (h.timeLoad t).on TIM_STATUS_SET_DONE = true := by
  unfold Hw.timeLoad
  dsimp only
  rw [apply_ite Hw.time, apply_ite (fun k => Hw.on k TIM_STATUS_SET_DONE),
    setDone_put_beside _ 1 0 _ (by decide) (by decide) (by decide),
    on_put_one _ _ (by decide) (by decide), Hw.put_time, Hw.put_time, ite_self, ite_self]
  refine ⟨each_keeps Hw.time _ (fun h k => ?_) _ _, rfl⟩
  split
  · rfl
  · rfl

/-- A waiting load replaces the new time; a step that waited with it is lost (R489). -/
theorem tickTime_of_load {h : Hw} {t : Nat} (hset : h.time.setHold = some t) : h.tickTime =
    ((({ h with time := h.time.ticked (h.time.adjHold.getD 0) } : Hw).timeLoad t).when h.time.adjHold.isSome
      (fun h => h.flag TIM_STATUS_ADJ_REPLACED)).showTimePend := by
  unfold Hw.tickTime
  rw [stepBelow_of_load hset]
  dsimp only
  rw [hset]
  rfl

theorem tickTime_load {h : Hw} {t : Nat} (hset : h.time.setHold = some t) :
    h.tickTime.time.now = t ∧ h.tickTime.time.tick = h.time.tick + 1 ∧ h.tickTime.on TIM_STATUS_SET_DONE = true := by
  rw [tickTime_of_load hset, setDone_showTimePend, time_showTimePend]
  generalize hk : ({ h with time := h.time.ticked (h.time.adjHold.getD 0) } : Hw) = k
  have htick : k.time.tick = h.time.tick + 1 := by rw [← hk]; rfl
  obtain ⟨htime, hdone⟩ := timeLoad_spec k t
  have hflag (c : Bool) := when_keeps (fun h => h.on TIM_STATUS_SET_DONE) (fun h => h.flag TIM_STATUS_ADJ_REPLACED) c
    (k.timeLoad t) (setDone_put_beside _ 9 9 1 (by decide) (by decide) (by decide))
  rw [when_keeps Hw.time (fun h => h.flag TIM_STATUS_ADJ_REPLACED) _ _ (Hw.put_time _ _ _), htime]
  exact ⟨rfl, htick, (hflag _).trans hdone⟩

theorem exec_aonTick {s : State} (hl : s.hw.live = true) (hclk : s.hw.boot.refclkLost = false) :
    exec .aonTick s = .next { s with hw := s.hw.tickTime.dropIgnored.pinTick.domTick.switchTick } := by
  change actOn s true _ = _
  rw [actOn_live s _ hl, hclk]
  rfl

/-- Settles O6: the new time is the tick's own; what follows it touches neither the timebase nor its status. -/
theorem aonTickAdvances : Obligations.AonTickAdvances := by
  unfold Obligations.AonTickAdvances
  refine ⟨?_, ?_, ?_⟩
  · intro s hl hclk hset hnow
    refine ⟨_, exec_aonTick hl hclk, ?_⟩
    dsimp only
    rw [time_of_clockAnd (clockAnd_afterTick _), time_tickTime hset (stepBelow_of_nonneg hnow)]
    exact ⟨rfl, rfl, rfl, rfl, rfl⟩
  · intro s t hl hclk hset
    refine ⟨_, exec_aonTick hl hclk, ?_⟩
    dsimp only
    rw [time_of_clockAnd (clockAnd_afterTick _), on_of_clockAnd (f := TIM_STATUS_SET_DONE) (clockAnd_afterTick _)]
    exact tickTime_load hset
  · intro s hl hlost
    refine ⟨_, actOn_live s _ hl, ?_⟩
    dsimp only
    rw [hlost]
    rfl

/-! ### Valid time frames (R491, R496) -/

theorem clockAnd_enterLocked {a : Nat} (ha : BeyondStrobes a) (hs : a ≠ 0xe0040) (hc : a ≠ 0x10010c) (h : Hw) :
    h.enterLocked.clockAnd a = h.clockAnd a := by
  unfold Hw.enterLocked Hw.causeEnd
  refine (when_keeps (Hw.clockAnd a) _ _ _ (clockAnd_release ha _)).trans ?_
  rw [clockAnd_put _ _ _ hc, clockAnd_put _ _ _ hs]

/-- A valid time frame restarts the holdover timer. -/
theorem clockAnd_validTime {a : Nat} (ha : 0xE0100 ≤ a) (hb : a < 0x100000) (h : Hw) :
    h.validTime.clockAnd a = ({ h.time with lastValid := some h.ns }, h.reg a) := by
  unfold Hw.validTime
  dsimp only
  rw [apply_ite (Hw.clockAnd a), clockAnd_enterLocked (by change 0x50000 ≤ a; omega) (by omega) (by omega), ite_self]
  rfl

theorem lastValid_validTime (h : Hw) : h.validTime.time.lastValid = some h.ns :=
  congrArg (fun p : TimeSt × Word => p.1.lastValid) (clockAnd_validTime (a := 0xE0100) (by decide) (by decide) h)

theorem get_validTime {f : Fld} (ha : 0xE0100 ≤ f.addr) (hb : f.addr < 0x100000) (h : Hw) : h.validTime.get f = h.get f :=
  congrArg (fun p : TimeSt × Word => bits p.2 f.hi f.lo) (clockAnd_validTime ha hb h)

theorem on_validTime {f : Fld} (ha : 0xE0100 ≤ f.addr) (hb : f.addr < 0x100000) (h : Hw) : h.validTime.on f = h.on f := by
  rw [Hw.on, Hw.on, get_validTime ha hb]

/-! ### SYNC and PING (R493, R494) -/

/-- The first message of a kind leaves the port's list. -/
theorem takeTime_of_find {h : Hw} {p : Port} {kind : Nat} {m : PortMsg}
    (hm : (h.port p).timeMsgs.find? (fun y => decide (timeMsg y.frame = kind)) = some m) :
    h.takeTime p kind = (h.setPort p { h.port p with timeMsgs := (h.port p).timeMsgs.erase m }, some m) := by
  rw [Hw.takeTime, hm]

/-- What stands for the last SYNC of port `n`: its difference, the two parts of a number below 2^64. -/
theorem get64_put64 (h : Hw) (n v : Nat) (hv : v < 2 ^ 64) :
    (h.put64 (TIM_RX_DIFF_LO_FRAC n) (TIM_RX_DIFF_HI_NS n) v).get64 (TIM_RX_DIFF_LO_FRAC n) (TIM_RX_DIFF_HI_NS n) = v := by
  unfold Hw.put64 Hw.get64
  rw [get_put_same _ _ _ (by decide : 0 ≤ 31) (by decide : 31 < 32), get_put_other _ (TIM_RX_DIFF_HI_NS n) (TIM_RX_DIFF_LO_FRAC n) _
    (by change 0xe0100 + 16 * n ≠ 0xe0104 + 16 * n; omega), get_put_same _ _ _ (by decide : 0 ≤ 31) (by decide : 31 < 32)]
  change v % 2 ^ 32 + 2 ^ 32 * (v / 2 ^ 32 % 2 ^ 32) = v
  omega

theorem ofSigned_lt (w : Nat) (d : Int) : ofSigned w d < 2 ^ w := by
  have hpos : (0 : Int) < ((2 ^ w : Nat) : Int) := by positivity
  have := Int.emod_lt_of_pos d hpos
  have := Int.emod_nonneg d hpos.ne'
  unfold ofSigned
  omega

/-- The registers of a SYNC of port `n` after its message is put there. -/
def Hw.noteSync (h : Hw) (n diff sat seq : Nat) : Hw :=
  let h1 := ((h.put64 (TIM_RX_DIFF_LO_FRAC n) (TIM_RX_DIFF_HI_NS n) diff).put (TIM_RX_INFO_SAT n) sat).put (TIM_RX_INFO_MSGSEQ n) seq
  h1.put (TIM_RX_INFO_COUNT n) (h1.get (TIM_RX_INFO_COUNT n) + 1)

theorem sync_of_find {h : Hw} {p : Port} {m : PortMsg}
    (hm : (h.port p).timeMsgs.find? (fun y => decide (timeMsg y.frame = 1)) = some m) :
    h.sync p = ((h.setPort p { h.port p with timeMsgs := (h.port p).timeMsgs.erase m }).noteSync (portNo p)
      (ofSigned 64 (satDiff ((m.stamp : Int) - ((timeOrig m.frame : Int) + timeCorr m.frame))))
      (b2n (decide (satDiff ((m.stamp : Int) - ((timeOrig m.frame : Int) + timeCorr m.frame)) ≠
        (m.stamp : Int) - ((timeOrig m.frame : Int) + timeCorr m.frame)))) (timeMsgSeq m.frame)).validTime := by
  rw [Hw.sync, takeTime_of_find hm]
  rfl

/-- A field of TIM_RX_INFO beside another. -/
theorem info_put_beside (h : Hw) (n : Nat) {hi lo hi' lo' : Nat} (v : Nat) (hlo : lo ≤ hi) (h31 : hi < 32) (hlo' : lo' ≤ hi')
    (hd : hi < lo' ∨ hi' < lo) : (h.put ⟨TIM_RX_INFO n, hi, lo⟩ v).get ⟨TIM_RX_INFO n, hi', lo'⟩ = h.get ⟨TIM_RX_INFO n, hi', lo'⟩ :=
  get_put_disjoint h ⟨TIM_RX_INFO n, hi, lo⟩ ⟨TIM_RX_INFO n, hi', lo'⟩ v hlo h31 hlo' rfl hd

theorem noteSync_msgSeq (h : Hw) (n diff sat seq : Nat) :
    (h.noteSync n diff sat seq).get (TIM_RX_INFO_MSGSEQ n) = seq % 2 ^ 16 := by
  unfold Hw.noteSync
  dsimp only
  rw [info_put_beside _ n _ (by decide) (by decide) (by decide) (Or.inr (by decide)), get_put_same _ _ _ (by decide : 0 ≤ 15) (by decide : 15 < 32)]
  rfl

theorem noteSync_count (h : Hw) (n diff sat seq : Nat) :
    (h.noteSync n diff sat seq).get (TIM_RX_INFO_COUNT n) = (h.get (TIM_RX_INFO_COUNT n) + 1) % 2 ^ 8 := by
  unfold Hw.noteSync Hw.put64
  dsimp only
  rw [get_put_same _ _ _ (by decide : 24 ≤ 31) (by decide : 31 < 32), info_put_beside _ n _ (by decide) (by decide) (by decide) (Or.inl (by decide)),
    info_put_beside _ n _ (by decide) (by decide) (by decide) (Or.inl (by decide)),
    get_put_other _ _ (TIM_RX_INFO_COUNT n) _ (by change 0xe0108 + 16 * n ≠ 0xe0104 + 16 * n; omega),
    get_put_other _ _ (TIM_RX_INFO_COUNT n) _ (by change 0xe0108 + 16 * n ≠ 0xe0100 + 16 * n; omega)]
  rfl

theorem noteSync_sat (h : Hw) (n diff seq : Nat) (c : Bool) : (h.noteSync n diff (b2n c) seq).on (TIM_RX_INFO_SAT n) = c := by
  have hget : (h.noteSync n diff (b2n c) seq).get (TIM_RX_INFO_SAT n) = b2n c % 2 ^ (23 + 1 - 23) := by
    unfold Hw.noteSync
    dsimp only
    rw [info_put_beside _ n _ (by decide) (by decide) (by decide) (Or.inr (by decide)),
      info_put_beside _ n _ (by decide) (by decide) (by decide) (Or.inl (by decide)),
      get_put_same _ _ _ (by decide : 23 ≤ 23) (by decide : 23 < 32)]
  rw [Hw.on, hget]
  cases c <;> rfl

theorem noteSync_diff (h : Hw) (n diff sat seq : Nat) (hd : diff < 2 ^ 64) :
    (h.noteSync n diff sat seq).get64 (TIM_RX_DIFF_LO_FRAC n) (TIM_RX_DIFF_HI_NS n) = diff := by
  have hother (k : Hw) (hi lo v : Nat) : (k.put ⟨TIM_RX_INFO n, hi, lo⟩ v).get64 (TIM_RX_DIFF_LO_FRAC n) (TIM_RX_DIFF_HI_NS n) =
      k.get64 (TIM_RX_DIFF_LO_FRAC n) (TIM_RX_DIFF_HI_NS n) := by
    unfold Hw.get64
    rw [get_put_other _ _ (TIM_RX_DIFF_LO_FRAC n) _ (by change 0xe0100 + 16 * n ≠ 0xe0108 + 16 * n; omega),
      get_put_other _ _ (TIM_RX_DIFF_HI_NS n) _ (by change 0xe0104 + 16 * n ≠ 0xe0108 + 16 * n; omega)]
  unfold Hw.noteSync
  exact (hother _ 31 24 _).trans <| (hother _ 15 0 _).trans <| (hother _ 23 23 _).trans (get64_put64 h n diff hd)

theorem time_noteSync (h : Hw) (n diff sat seq : Nat) : (h.noteSync n diff sat seq).time = h.time := by
  unfold Hw.noteSync Hw.put64
  dsimp only
  rw [Hw.put_time, Hw.put_time, Hw.put_time, Hw.put_time, Hw.put_time]

theorem ns_noteSync (h : Hw) (n diff sat seq : Nat) : (h.noteSync n diff sat seq).ns = h.ns := by
  rw [Hw.ns, Hw.ns, time_noteSync]

theorem get_setPort (h : Hw) (p : Port) (x : PortSt) (f : Fld) : (h.setPort p x).get f = h.get f := by cases p <;> rfl

theorem ns_setPort (h : Hw) (p : Port) (x : PortSt) : (h.setPort p x).ns = h.ns := by cases p <;> rfl

theorem egress_number (h : Hw) (f : Frame) : (h.number f).1.net.egress = h.net.egress := by
  simp [Hw.number]

/-- A frame of the hub's own that a class has room for stands last in the queue. -/
theorem egress_enqueueOn {h : Hw} {f : Frame} (pong : Bool) (only : Option Port) (hsrc : f.src ≠ 0) (hroom : h.classRoom f.cls = true) :
    (h.enqueueOn f pong only).1.net.egress = h.net.egress ++ [{
      frame := (h.number f).2, sentA := decide (only = some .b), sentB := decide (only = some .a), firstSent := none, pong := pong }] := by
  unfold Hw.enqueueOn
  rw [if_neg (fun ⟨hzero, _⟩ => hsrc hzero), if_pos hroom]
  dsimp only
  rw [egress_number]

/-- A number changes neither where a frame goes nor whom it comes from. -/
theorem dst_number (h : Hw) (f : Frame) : (h.number f).2.dst = f.dst := by
  unfold Hw.number
  rfl

/-- What the egress queue has and how large its classes are. -/
def Hw.queueAnd (c : Nat) (h : Hw) : List EgDesc × Word := (h.net.egress, h.reg (STR_EGQ_CLASS c))

theorem classRoom_of_queueAnd {h k : Hw} {c : Nat} (hk : k.queueAnd c = h.queueAnd c) : k.classRoom c = h.classRoom c :=
  congrArg (fun p : List EgDesc × Word => decide ((p.1.filter (fun d => decide (d.frame.cls = c))).length < bits p.2 25 16)) hk

theorem net_showPend (h : Hw) : h.showPend.net = h.net := by
  rw [Hw.showPend, Hw.put_net, Hw.put_net]

theorem net_resolveReq (h : Hw) (r : SyncReq) : (h.resolveReq r).1.net = h.net := by
  unfold Hw.resolveReq
  split
  · refine foldl_keeps (fun p : Hw × SyncReq => p.1.net = h.net) _ (fun p k hp => ?_) _ _ rfl
    dsimp only
    split
    · split
      · exact hp
      · exact hp
    · exact hp
  · rfl

theorem net_settleReqs (h : Hw) : h.settleReqs.net = h.net :=
  (net_showPend _).trans <| foldl_keeps (fun p : Hw × List SyncReq => p.1.net = h.net) _
    (fun p r hp => (net_resolveReq p.1 r).trans hp) _ _ rfl

theorem net_release (h : Hw) : h.release.net = h.net := by
  unfold Hw.release Hw.showActive Hw.syncRequest
  dsimp only
  rw [Hw.put_net, Hw.put_net, net_settleReqs]
  exact (each_keeps Hw.net (fun h g => h.setGrp g _) (fun _ _ => rfl) _ _).trans (Hw.put_net h _ _)

theorem net_enterLocked (h : Hw) : h.enterLocked.net = h.net := by
  unfold Hw.enterLocked Hw.causeEnd
  refine (when_keeps Hw.net _ _ _ (net_release _)).trans ?_
  rw [Hw.put_net, Hw.put_net]

theorem queueAnd_validTime (h : Hw) : h.validTime.queueAnd 0 = h.queueAnd 0 := by
  unfold Hw.validTime
  dsimp only
  split
  · refine Prod.ext ((congrArg NetSt.egress (net_enterLocked _)).trans rfl) ?_
    exact (reg_of_clockAnd (clockAnd_enterLocked (a := STR_EGQ_CLASS 0) (by decide) (by decide) (by decide) _)).trans rfl
  · rfl

theorem queueAnd_setPort (c : Nat) (h : Hw) (p : Port) (x : PortSt) : (h.setPort p x).queueAnd c = h.queueAnd c := by
  cases p <;> rfl

/-- The PONG that answers a PING. -/
def Hw.pong (h : Hw) (m : PortMsg) : Frame :=
  h.ownFrame 0x20 0 m.frame.src true (h.get SYS_EPOCH_EPOCH)
    (pongPayload (timeMsgSeq m.frame) (timeAdd m.stamp (-(timeCorr m.frame))))

theorem ping_of_find {h : Hw} {p : Port} {m : PortMsg}
    (hm : (h.port p).timeMsgs.find? (fun y => decide (timeMsg y.frame = 2)) = some m) :
    h.ping p = (((h.setPort p { h.port p with timeMsgs := (h.port p).timeMsgs.erase m }).validTime).enqueueOn
      ((h.setPort p { h.port p with timeMsgs := (h.port p).timeMsgs.erase m }).pong m) true (some p)).1 := by
  unfold Hw.ping Hw.pong
  rw [takeTime_of_find hm]

theorem time_withNet (h : Hw) (n : NetSt) : ({ h with net := n } : Hw).time = h.time := rfl

theorem number_fst (h : Hw) (f : Frame) : (h.number f).1 =
    { h.put STR_SEQ_NEXT (h.get STR_SEQ_NEXT + 1) with
      net := { (h.put STR_SEQ_NEXT (h.get STR_SEQ_NEXT + 1)).net with
        srDone := (h.put STR_SEQ_NEXT (h.get STR_SEQ_NEXT + 1)).net.srDone || decide (h.get STR_SEQ_NEXT = 4095) } } := by
  unfold Hw.number
  dsimp only

theorem time_number (h : Hw) (f : Frame) : (h.number f).1.time = h.time := by
  rw [number_fst, time_withNet, Hw.put_time]

theorem time_enqueueOn {h : Hw} {f : Frame} (pong : Bool) (only : Option Port) (hsrc : f.src ≠ 0) (hroom : h.classRoom f.cls = true) :
    (h.enqueueOn f pong only).1.time = h.time := by
  unfold Hw.enqueueOn
  rw [if_neg (fun ⟨hzero, _⟩ => hsrc hzero), if_pos hroom]
  generalize hn : h.number f = n
  rw [time_withNet, ← hn, time_number]

/-- A SYNC is counted with its difference and restarts the holdover timer (R493, R496). -/
theorem sync_spec {h : Hw} {p : Port} {m : PortMsg} {d : Int}
    (hm : (h.port p).timeMsgs.find? (fun y => decide (timeMsg y.frame = 1)) = some m)
    (hd : (m.stamp : Int) - ((timeOrig m.frame : Int) + timeCorr m.frame) = d) :
    (h.sync p).get (TIM_RX_INFO_MSGSEQ (portNo p)) = timeMsgSeq m.frame % 2 ^ 16 ∧
    (h.sync p).get (TIM_RX_INFO_COUNT (portNo p)) = (h.get (TIM_RX_INFO_COUNT (portNo p)) + 1) % 2 ^ 8 ∧
    (h.sync p).time.lastValid = some h.ns ∧
    (h.sync p).get64 (TIM_RX_DIFF_LO_FRAC (portNo p)) (TIM_RX_DIFF_HI_NS (portNo p)) = ofSigned 64 (satDiff d) ∧
    (h.sync p).on (TIM_RX_INFO_SAT (portNo p)) = decide (satDiff d ≠ d) := by
  have hn : portNo p ≤ 1 := by cases p <;> decide
  generalize hseq : timeMsgSeq m.frame = seq
  rw [sync_of_find hm, hd, hseq]
  generalize hk : h.setPort p { h.port p with timeMsgs := (h.port p).timeMsgs.erase m } = k
  have hget (f : Fld) : k.get f = h.get f := by rw [← hk, get_setPort]
  have hns : k.ns = h.ns := by rw [← hk, ns_setPort]
  generalize portNo p = n at hn ⊢
  have hinfo (k : Hw) (hi lo : Nat) : k.validTime.get ⟨TIM_RX_INFO n, hi, lo⟩ = k.get ⟨TIM_RX_INFO n, hi, lo⟩ :=
    get_validTime (by change 0xe0100 ≤ 0xe0108 + 16 * n; omega) (by change 0xe0108 + 16 * n < 0x100000; omega) k
  have hlow (k : Hw) : k.validTime.get (TIM_RX_DIFF_LO_FRAC n) = k.get (TIM_RX_DIFF_LO_FRAC n) :=
    get_validTime (by change 0xe0100 ≤ 0xe0100 + 16 * n; omega) (by change 0xe0100 + 16 * n < 0x100000; omega) k
  have hhigh (k : Hw) : k.validTime.get (TIM_RX_DIFF_HI_NS n) = k.get (TIM_RX_DIFF_HI_NS n) :=
    get_validTime (by change 0xe0100 ≤ 0xe0104 + 16 * n; omega) (by change 0xe0104 + 16 * n < 0x100000; omega) k
  refine ⟨?_, ?_, ?_, ?_, ?_⟩
  · rw [hinfo, noteSync_msgSeq]
  · rw [hinfo, noteSync_count, hget]
  · rw [lastValid_validTime, ns_noteSync, hns]
  · rw [Hw.get64, hlow, hhigh]
    exact noteSync_diff k n _ _ _ (ofSigned_lt 64 _)
  · rw [Hw.on, hinfo]
    exact noteSync_sat k n _ _ _

/-- A PING is answered with a PONG through its own port and restarts the holdover timer (R494, R496). -/
theorem ping_spec {h : Hw} {p : Port} {m : PortMsg}
    (hm : (h.port p).timeMsgs.find? (fun y => decide (timeMsg y.frame = 2)) = some m) (hroom : h.classRoom 0 = true)
    (hid : h.get SYS_HUB_ID_ID ≠ 0) :
    (h.ping p).time.lastValid = some h.ns ∧ (h.ping p).net.egress.length = h.net.egress.length + 1 ∧
    (h.ping p).net.egress.getLast?.map (fun d => (d.pong, d.frame.dst, d.sentA, d.sentB)) =
      some (true, m.frame.src, decide (p = .b), decide (p = .a)) := by
  rw [ping_of_find hm]
  generalize hk : h.setPort p { h.port p with timeMsgs := (h.port p).timeMsgs.erase m } = k
  have hqueue : k.validTime.queueAnd 0 = h.queueAnd 0 := by rw [queueAnd_validTime, ← hk, queueAnd_setPort]
  have hsrc : (k.pong m).src ≠ 0 := by
    change k.get SYS_HUB_ID_ID ≠ 0
    rwa [← hk, get_setPort]
  have hclass : k.validTime.classRoom (k.pong m).cls = true := (classRoom_of_queueAnd (c := 0) hqueue).trans hroom
  have hegress : k.validTime.net.egress = h.net.egress := congrArg Prod.fst hqueue
  rw [time_enqueueOn true (some p) hsrc hclass, lastValid_validTime, egress_enqueueOn true (some p) hsrc hclass, hegress,
    List.getLast?_concat, ← hk, ns_setPort, List.length_append]
  refine ⟨rfl, rfl, ?_⟩
  rw [Option.map_some, dst_number]
  cases p <;> rfl

/-- Settles O9: the registers of a port's time frames lie beyond what a valid time frame may release, and class 0 keeps
its room. -/
theorem timeFrames : Obligations.TimeFrames := by
  unfold Obligations.TimeFrames
  refine ⟨fun s p m hl hm => ?_, fun s p m hl hm hroom hid => ?_⟩
  · exact ⟨_, actOn_live s _ hl, sync_spec hm rfl⟩
  · exact ⟨_, actOn_live s _ hl, ping_spec hm hroom hid⟩

end Sys2Proof.Machine

/-! ## Reads of the register space and the key slots (R621, R622) -/

namespace Sys2Proof.Machine

/-- The hub with other OTP copies and key slots. -/
def Hw.withLcs (h : Hw) (l : LcsSt) : Hw := { h with lcs := l }

section
variable (h : Hw) (l : LcsSt)

/-! ### What a read shows -/

theorem readable_withLcs (q : Requester) : (h.withLcs l).readable q = h.readable q := rfl

theorem rq_withLcs (q : Requester) : (h.withLcs l).rq q = h.rq q := rfl

theorem coreOn_withLcs : (h.withLcs l).coreOn = h.coreOn := rfl

theorem latched_withLcs (q : Requester) (a : Nat) : (h.withLcs l).latched q a = h.latched q a := rfl

theorem windowEntry_withLcs (q : Requester) (a : Nat) : (h.withLcs l).windowEntry q a = h.windowEntry q a := rfl

theorem windowPoint_withLcs (q : Requester) (a : Nat) : (h.withLcs l).windowPoint q a = h.windowPoint q a := rfl

theorem maskPoint_withLcs (p : Nat) : (h.withLcs l).maskPoint p = h.maskPoint p := rfl

theorem windowWord32_withLcs (q : Requester) (a : Nat) : (h.withLcs l).windowWord32 q a = h.windowWord32 q a := rfl

theorem liveReg_withLcs (a : Nat) : (h.withLcs l).liveReg a = h.liveReg a := rfl

theorem shown_withLcs (a : Nat) : (h.withLcs l).shown none a = h.shown none a := liveReg_withLcs h l a

/-- A front end without a calibrated trim shows its production trim. -/
theorem feTrim_withLcs (hl : l.otpTrims = h.lcs.otpTrims) (u i : Nat) : (h.withLcs l).feTrim u i = h.feTrim u i := by
  have hprod : (h.withLcs l).prodTrim = h.prodTrim := funext (fun k => congrArg (fun t => storeGet (fun _ => 0) t k) hl)
  unfold Hw.feTrim
  rw [hprod]
  rfl

theorem ownReg_withLcs (hl : l.otpTrims = h.lcs.otpTrims) (q : Requester) (a : Nat) :
    (h.withLcs l).ownReg (h.withLcs l) q a = h.ownReg h q a := by
  unfold Hw.ownReg
  simp only [feTrim_withLcs h l hl]
  rfl

theorem viewWord_withLcs (hl : l.otpTrims = h.lcs.otpTrims) (q : Requester) (a : Nat) :
    (h.withLcs l).viewWord none q a = h.viewWord none q a := by
  unfold Hw.viewWord
  rw [Option.getD_none, Option.getD_none, ownReg_withLcs h l hl, windowWord32_withLcs, shown_withLcs]

/-! ### What a read does -/

theorem setLatch_withLcs (q : Requester) (a : Nat) (v : Word) : (h.withLcs l).setLatch q a v = (h.setLatch q a v).withLcs l := rfl

theorem latchWords_withLcs (q : Requester) (base : Nat) (ws : List Word) :
    (h.withLcs l).latchWords q base ws = (h.latchWords q base ws).withLcs l := by
  unfold Hw.latchWords
  exact List.foldl_hom (fun k : Hw => k.withLcs l) (fun k (p : Word × Nat) => setLatch_withLcs k l q p.2 p.1)

theorem when_withLcs (c : Bool) (f : Hw → Hw) (hf : ∀ k : Hw, f (k.withLcs l) = (f k).withLcs l) :
    (h.withLcs l).when c f = (h.when c f).withLcs l := by
  cases c with
  | true => exact hf h
  | false => rfl

theorem evqRead_withLcs : (h.withLcs l).evqRead.1 = h.evqRead.1.withLcs l := by
  unfold Hw.evqRead
  change (match evqFirst h.net.evq with | some i => _ | none => _ : Hw × Word).1 = _
  cases evqFirst h.net.evq with
  | none => rfl
  | some i => rfl

theorem readEffect_withLcs (a : Nat) : (h.withLcs l).readEffect a = (h.readEffect a).withLcs l := by
  unfold Hw.readEffect
  split
  · exact evqRead_withLcs h l
  · split
    · exact when_withLcs h l _ _ (fun _ => rfl)
    · rfl

/-- A result and its hub, on the hub with other key slots. -/
def answerWithLcs {α : Type} (r : Hw × α) (l : LcsSt) : Hw × α := (r.1.withLcs l, r.2)

theorem readPair_withLcs (q : Requester) (key : Nat) (hi : Bool) (w : Word64) :
    (h.withLcs l).readPair q key hi w = answerWithLcs (h.readPair q key hi w) l := by
  cases hi with
  | true => rfl
  | false => rfl

/-- A read below the capture memory window answers the same word and changes the same. -/
theorem busRead_withLcs (hl : l.otpTrims = h.lcs.otpTrims) (q : Requester) {a : Nat} (ha : a < 0x10000000) :
    (h.withLcs l).busRead none q a = answerWithLcs (h.busRead none q a) l := by
  have hmem : ¬ (0x10000000 ≤ a ∧ a < 0x11800000) := fun hm => Nat.not_lt.mpr hm.1 ha
  have hview : (h.withLcs l).viewWord none q = h.viewWord none q := funext (viewWord_withLcs h l hl q)
  unfold Hw.busRead
  dsimp only
  rw [readable_withLcs, if_neg hmem, if_neg hmem, windowEntry_withLcs, readPair_withLcs, readPair_withLcs, windowPoint_withLcs,
    maskPoint_withLcs, latched_withLcs, hview]
  split
  · rfl
  · split
    · rfl
    · split
      · rfl
      · split
        · rfl
        · refine Prod.ext ?_ rfl
          rw [when_withLcs h l _ _ (fun k => latchWords_withLcs k l q _ _)]
          dsimp only [answerWithLcs]
          rw [when_withLcs _ l _ _ (fun k => readEffect_withLcs k l a)]

end

/-- With its own key slots in place of its own, a hub is itself: a read that carries them along keeps them. -/
theorem lcs_busRead (h : Hw) (q : Requester) {a : Nat} (ha : a < 0x10000000) : (h.busRead none q a).1.lcs = h.lcs :=
  congrArg (fun r : Hw × Word => r.1.lcs) (busRead_withLcs h h.lcs rfl q ha)

theorem readWords_withLcs (l : LcsSt) (q : Requester) (n : Nat) : ∀ (a : Nat) (h : Hw), l.otpTrims = h.lcs.otpTrims →
    a + 4 * n ≤ 0x10000000 → Hw.readWords none q n a (h.withLcs l) = answerWithLcs (Hw.readWords none q n a h) l := by
  induction n with
  | zero => intro a h _ _; rfl
  | succ n ih =>
    intro a h hl ha
    have hlow : a < 0x10000000 := by omega
    have hnext := ih (a + 4) (h.busRead none q a).1 (by rw [lcs_busRead h q hlow, hl]) (by omega)
    unfold Hw.readWords
    dsimp only
    rw [busRead_withLcs h l hl q hlow]
    unfold answerWithLcs at hnext ⊢
    dsimp only
    rw [hnext]

theorem wake_withLcs (h : Hw) (l : LcsSt) (d : Domain) : (h.withLcs l).wake d = (h.wake d).withLcs l := by
  have hset (x : DomSt) : (h.withLcs l).setDom d x = (h.setDom d x).withLcs l := by cases d <;> rfl
  have hdom : (h.withLcs l).dom d = h.dom d := by cases d <;> rfl
  unfold Hw.wake
  dsimp only
  rw [hdom, hset, hset]
  split
  · rw [apply_ite (fun k : Hw => k.withLcs l)]
    rfl
  · rfl
  · rfl

theorem xingReq_withLcs (h : Hw) (l : LcsSt) (x : Nat) : (h.withLcs l).xingReq x = (h.xingReq x).withLcs l := by
  unfold Hw.xingReq
  dsimp only
  rw [apply_ite (fun k : Hw => k.withLcs l), apply_ite (fun k : Hw => k.withLcs l)]
  rfl

theorem wakeRequest_withLcs (h : Hw) (l : LcsSt) (x : Nat) : (h.withLcs l).wakeRequest x = (h.wakeRequest x).withLcs l := by
  unfold Hw.wakeRequest
  dsimp only
  rw [xingReq_withLcs, wake_withLcs, coreOn_withLcs]
  exact when_withLcs _ l _ (fun k => k.xingActed x) (fun _ => rfl)

/-- The whole, with other OTP copies and key slots. -/
def State.withKeys (s : State) (l : LcsSt) (o : LcsSt) : State := { s with hw := s.hw.withLcs l, otp := o }

theorem mspiRead_withKeys {s : State} {l o : LcsSt} {a n : Nat} (hf : s.frozen = none) (hl : l.otpTrims = s.hw.lcs.otpTrims)
    (ha : a + 4 * n ≤ 0x10000000) : (s.withKeys l o).mspiRead a n = (s.mspiRead a n).withKeys l o := by
  have hread := readWords_withLcs l .mspi n (a % 2 ^ 32) s.hw hl (by rw [Nat.mod_eq_of_lt (by omega)]; exact ha)
  unfold State.mspiRead State.withKeys
  dsimp only
  rw [readable_withLcs, hf, hread]
  split
  · rfl
  · rfl

theorem mspiAccess_withKeys {s : State} {l o : LcsSt} {a n : Nat} (hf : s.frozen = none) (hl : l.otpTrims = s.hw.lcs.otpTrims)
    (ha : a + 4 * n ≤ 0x10000000) :
    (s.withKeys l o).mspiAccess (.read a n) = (s.mspiAccess (.read a n)).withKeys l o := by
  have hwake : (s.withKeys l o).hw.wakeRequest 7 = (s.hw.wakeRequest 7).withLcs l := wakeRequest_withLcs s.hw l 7
  unfold State.mspiAccess
  rw [hwake]
  by_cases hserved : (s.hw.coreOn || !s.hw.readable .mspi) = true
  · rw [if_pos hserved, if_pos (show ((s.withKeys l o).hw.coreOn || !(s.withKeys l o).hw.readable .mspi) = true from hserved)]
    exact mspiRead_withKeys hf hl ha
  · rw [if_neg hserved, if_neg (show ¬ ((s.withKeys l o).hw.coreOn || !(s.withKeys l o).hw.readable .mspi) = true from hserved)]
    rfl

/-- Settles O57: of the key store a read sees the production trims alone. -/
theorem readsDoNotShowKeys : Obligations.ReadsDoNotShowKeys := by
  unfold Obligations.ReadsDoNotShowKeys
  intro s l o a n hf hl ha
  have haccess : exec (.mspiRead a n) (s.withKeys l o) =
      .next ((if s.hw.live then s.mspiAccess (.read a n) else s).withKeys l o) := by
    change Host.Outcome.next (if s.hw.live then (s.withKeys l o).mspiAccess (.read a n) else s.withKeys l o) = _
    rw [mspiAccess_withKeys hf hl ha, apply_ite (fun x : State => x.withKeys l o)]
  exact ⟨_, _, rfl, haccess, rfl, rfl, rfl⟩

end Sys2Proof.Machine

/-! ## Calibration: steps of the tracks, runs of the list, and RUN_ALL (R510 to R517, R525, R526) -/

namespace Sys2Proof.Machine

theorem get_put_beside (h : Hw) (a : Nat) {hi lo hi' lo' : Nat} (v : Nat) (hlo : lo ≤ hi) (h31 : hi < 32) (hlo' : lo' ≤ hi')
    (hd : hi < lo' ∨ hi' < lo) : (h.put ⟨a, hi, lo⟩ v).get ⟨a, hi', lo'⟩ = h.get ⟨a, hi', lo'⟩ :=
  get_put_disjoint h ⟨a, hi, lo⟩ ⟨a, hi', lo'⟩ v hlo h31 hlo' rfl hd

theorem on_put_beside (h : Hw) (a : Nat) {hi lo hi' lo' : Nat} (v : Nat) (hlo : lo ≤ hi) (h31 : hi < 32) (hlo' : lo' ≤ hi')
    (hd : hi < lo' ∨ hi' < lo) : (h.put ⟨a, hi, lo⟩ v).on ⟨a, hi', lo'⟩ = h.on ⟨a, hi', lo'⟩ := by
  rw [Hw.on, Hw.on, get_put_beside h a v hlo h31 hlo' hd]

theorem get_withCal (h : Hw) (c : CalSt) (f : Fld) : Hw.get { h with cal := c } f = h.get f := rfl

theorem on_withCal (h : Hw) (c : CalSt) (f : Fld) : Hw.on { h with cal := c } f = h.on f := rfl

theorem get_withAdc (h : Hw) (x : AdcSt) (f : Fld) : Hw.get { h with adc := x } f = h.get f := rfl

theorem on_withAdc (h : Hw) (x : AdcSt) (f : Fld) : Hw.on { h with adc := x } f = h.on f := rfl

/-! ### A step starts (R514, R515) -/

/-- A front-end step on unit `u` as it starts. -/
def Hw.feStepOf (h : Hw) (u : Nat) (ch : Option Nat) : CalStep :=
  { unit := u, inPlace := ch.isNone, tStart := (h.feTemp u).getD 0, retries := 0, again := false, plan := h.fePlan u, got := [], first := none }

/-- The front-end track is busy with a step. -/
def Hw.feBusy (h : Hw) (x : CalStep) : Hw :=
  (({ h with cal := { h.cal with feStep := some x } } : Hw).put CAL_STATUS_FE_BUSY 1).put CAL_STATUS_FE_UNIT x.unit

theorem feStep_feBusy (h : Hw) (x : CalStep) : (h.feBusy x).cal.feStep = some x := by
  rw [Hw.feBusy, Hw.put_cal, Hw.put_cal]

theorem on_feBusy (h : Hw) (x : CalStep) : (h.feBusy x).on CAL_STATUS_FE_BUSY = true := by
  unfold Hw.feBusy
  rw [on_put_beside _ CAL_STATUS _ (by decide) (by decide) (by decide) (Or.inl (by decide)), on_put_one _ _ (by decide) (by decide)]

theorem get_feBusy (h : Hw) (x : CalStep) {f : Fld} (hf : f.addr ≠ CAL_STATUS) : (h.feBusy x).get f = h.get f := by
  unfold Hw.feBusy
  rw [get_put_other _ _ _ _ hf, get_put_other _ _ _ _ hf]
  rfl

section
variable {h : Hw} {u : Nat} (hstep : h.cal.feStep = none) (hen : h.on CAL_CTL_FE_EN = true) (hsafe : h.safe = false)
  (hhold : h.cal.pickHold = false)
include hstep hen hsafe hhold

theorem feStepStart_in_place (hp : h.feTrackPick = some (u, none)) :
    h.feStepStart u = (h.feBusy (h.feStepOf u none)).put (FE_UNIT_ROLE u) 2 := by
  unfold Hw.feStepStart
  rw [hp]
  dsimp only
  rw [if_pos ⟨rfl, hstep, hen, hsafe, hhold⟩]
  rfl

theorem feStepStart_relief {ch : Nat} (hp : h.feTrackPick = some (u, some ch)) : ∃ since, h.feStepStart u =
    { h.feBusy (h.feStepOf u (some ch)) with cal := { (h.feBusy (h.feStepOf u (some ch))).cal with feSince := since } } := by
  unfold Hw.feStepStart
  rw [hp]
  dsimp only
  rw [if_pos ⟨rfl, hstep, hen, hsafe, hhold⟩]
  exact ⟨_, rfl⟩

theorem feStepStart_spec {ch : Option Nat} (hu : u < 360) (hp : h.feTrackPick = some (u, ch)) :
    (h.feStepStart u).cal.feStep.map (fun y => (y.unit, y.inPlace, y.retries)) = some (u, ch.isNone, 0) ∧
    (h.feStepStart u).on CAL_STATUS_FE_BUSY = true ∧
    (h.feStepStart u).feRole u = (if ch = none then 2 else h.feRole u) := by
  have hrole : FE_UNIT u ≠ CAL_STATUS := by change 0x21000 + 4 * u ≠ 0xf0018; omega
  cases ch with
  | none =>
    rw [feStepStart_in_place hstep hen hsafe hhold hp, Hw.put_cal, feStep_feBusy, on_put_other _ _ CAL_STATUS_FE_BUSY _ hrole.symm, on_feBusy,
      Hw.feRole, get_put_same _ _ _ (by decide : 0 ≤ 1) (by decide : 1 < 32), if_pos rfl]
    exact ⟨rfl, rfl, rfl⟩
  | some ch =>
    obtain ⟨since, hstart⟩ := feStepStart_relief hstep hen hsafe hhold hp
    rw [hstart, on_withCal, on_feBusy, Hw.feRole, get_withCal, get_feBusy h _ hrole, if_neg (Option.some_ne_none ch)]
    refine ⟨?_, rfl, rfl⟩
    dsimp only
    rw [feStep_feBusy]
    rfl

end

/-- An ADC step on core `c` as it starts. -/
def Hw.adcStepOf (h : Hw) (c : Nat) (p : Option Nat) : CalStep :=
  { unit := c, inPlace := p.isNone, tStart := (h.temp c).getD 0, retries := 0, again := false, plan := [{ setting := 0, input := 0 }],
    got := [], first := none }

/-- The ADC track is busy with a step. -/
def Hw.adcBusy (h : Hw) (x : CalStep) : Hw :=
  (({ h with cal := { h.cal with adcStep := some x } } : Hw).put CAL_STATUS_ADC_BUSY 1).put CAL_STATUS_ADC_CORE x.unit

theorem adcStep_adcBusy (h : Hw) (x : CalStep) : (h.adcBusy x).cal.adcStep = some x := by
  rw [Hw.adcBusy, Hw.put_cal, Hw.put_cal]

theorem on_adcBusy (h : Hw) (x : CalStep) : (h.adcBusy x).on CAL_STATUS_ADC_BUSY = true := by
  unfold Hw.adcBusy
  rw [on_put_beside _ CAL_STATUS _ (by decide) (by decide) (by decide) (Or.inl (by decide)), on_put_one _ _ (by decide) (by decide)]

/-- A step of the ADC track puts its core under calibration, or begins the relief of the core's position. -/
theorem adcStepStart_cases {h : Hw} {c : Nat} {p : Option Nat} (hstep : h.cal.adcStep = none) (hen : h.on CAL_CTL_ADC_EN = true)
    (hp : h.adcTrackPick = some (c, p)) :
    h.adcStepStart c = (h.adcBusy (h.adcStepOf c p)).put (ADC_CORE_STAT_ROLE c) 2 ∨
    p ≠ none ∧ ∃ r, h.adcStepStart c =
      { h.adcBusy (h.adcStepOf c p) with adc := { (h.adcBusy (h.adcStepOf c p)).adc with relief := some r } } := by
  unfold Hw.adcStepStart
  rw [hp]
  dsimp only
  rw [if_pos ⟨rfl, hstep, hen⟩]
  cases p with
  | none => exact Or.inl rfl
  | some p =>
    cases hspare : (h.adcBusy (h.adcStepOf c (some p))).spareCore with
    | none =>
      refine Or.inl ?_
      unfold Hw.adcBusy Hw.adcStepOf at hspare
      dsimp only at hspare
      rw [hspare]
      rfl
    | some n =>
      refine Or.inr ⟨Option.some_ne_none p, ?_⟩
      unfold Hw.adcBusy Hw.adcStepOf at hspare
      dsimp only at hspare
      rw [hspare]
      exact ⟨_, rfl⟩

theorem adcStepStart_spec {h : Hw} {c : Nat} {p : Option Nat} (hc : c < 9) (hstep : h.cal.adcStep = none)
    (hen : h.on CAL_CTL_ADC_EN = true) (hp : h.adcTrackPick = some (c, p)) :
    (h.adcStepStart c).cal.adcStep.map (fun y => (y.unit, y.inPlace, y.retries)) = some (c, p.isNone, 0) ∧
    (h.adcStepStart c).on CAL_STATUS_ADC_BUSY = true ∧ (p = none → (h.adcStepStart c).roleOf c = 2) := by
  have hstat : CAL_STATUS ≠ ADC_CORE_STAT c := by change 0xf0018 ≠ 0x50010 + 4 * c; omega
  rcases adcStepStart_cases hstep hen hp with hs | ⟨hnone, r, hs⟩
  · rw [hs, Hw.put_cal, adcStep_adcBusy, on_put_other _ _ CAL_STATUS_ADC_BUSY _ hstat, on_adcBusy, Hw.roleOf,
      get_put_same _ _ _ (by decide : 0 ≤ 1) (by decide : 1 < 32)]
    exact ⟨rfl, rfl, fun _ => rfl⟩
  · rw [hs]
    generalize hx : h.adcStepOf c p = x
    refine ⟨?_, on_adcBusy h x, fun e => absurd e hnone⟩
    dsimp only
    rw [adcStep_adcBusy, ← hx]
    rfl

/-! ### Runs of the calibration list (R511 to R513, R525) -/

theorem accCnt_emptyAcc_other (h : Hw) {a m : Nat} (hm : m ≠ a) : (h.emptyAcc m).accCnt a = h.accCnt a := by
  have hmm : CAL_ACC_CNT a ≠ CAL_ACC_MM m := by change 0xf0400 + 16 * a ≠ 0xf040c + 16 * m; omega
  unfold Hw.emptyAcc Hw.accCnt
  rw [Hw.get, reg_setReg_other _ _ hmm]
  change Hw.get _ (CAL_ACC_CNT_CNT a) = _
  rw [get_put_other _ _ (CAL_ACC_CNT_CNT a) _ (by change 0xf0400 + 16 * a ≠ 0xf0408 + 16 * m; omega),
    get_put_other _ _ (CAL_ACC_CNT_CNT a) _ (by change 0xf0400 + 16 * a ≠ 0xf0404 + 16 * m; omega),
    get_put_other _ _ (CAL_ACC_CNT_CNT a) _ (by change 0xf0400 + 16 * a ≠ 0xf0400 + 16 * m; omega)]

theorem accCnt_emptyAcc_same (h : Hw) (a : Nat) : (h.emptyAcc a).accCnt a = 0 := by
  have hmm : CAL_ACC_CNT a ≠ CAL_ACC_MM a := by change 0xf0400 + 16 * a ≠ 0xf040c + 16 * a; omega
  unfold Hw.emptyAcc Hw.accCnt
  rw [Hw.get, reg_setReg_other _ _ hmm]
  change Hw.get _ (CAL_ACC_CNT_CNT a) = _
  rw [get_put_other _ _ (CAL_ACC_CNT_CNT a) _ (by change 0xf0400 + 16 * a ≠ 0xf0408 + 16 * a; omega),
    get_put_other _ _ (CAL_ACC_CNT_CNT a) _ (by change 0xf0400 + 16 * a ≠ 0xf0404 + 16 * a; omega),
    get_put_same _ _ _ (by decide : 0 ≤ 31) (by decide : 31 < 32), Nat.zero_mod]

theorem accCnt_withRun (h : Hw) (x : AdcSt) (c : CalSt) (a : Nat) : Hw.accCnt { h with adc := x, cal := c } a = h.accCnt a := rfl

theorem accCnt_startCalRun (h : Hw) {a : Nat} (ha : a < 16) : h.startCalRun.accCnt a = 0 := by
  obtain ⟨g, -, hg⟩ := each_at (fun h => h.accCnt a) Hw.emptyAcc (fun h m hm => accCnt_emptyAcc_other h hm) (List.mem_range.mpr ha)
    List.nodup_range h
  rw [Hw.startCalRun]
  exact (accCnt_withRun _ _ _ a).trans (hg.trans (accCnt_emptyAcc_same g a))

theorem calRun_startCalRun (h : Hw) : h.startCalRun.adc.calRun.map (fun r => (r.pc, r.start)) = some (h.get SEQ_CAL_RGN_BASE, h.time.now) := by
  unfold Hw.startCalRun
  generalize h.each (List.range 16) Hw.emptyAcc = k
  rfl

theorem served_startCalRun (h : Hw) : h.startCalRun.cal.runFe = h.feWants ∧ h.startCalRun.cal.runAdc = h.adcWants ∧
    h.startCalRun.cal.lastRun = h.ns := by
  unfold Hw.startCalRun
  generalize h.each (List.range 16) Hw.emptyAcc = k
  exact ⟨rfl, rfl, rfl⟩

/-- What of the tracks a timeout touches: the run, whom it serves, and their steps. -/
structure TrackView where
  run : Option CalRun
  runFe : Bool
  runAdc : Bool
  feStep : Option CalStep
  adcStep : Option CalStep

def Hw.tracks (h : Hw) : TrackView := ⟨h.adc.calRun, h.cal.runFe, h.cal.runAdc, h.cal.feStep, h.cal.adcStep⟩

theorem tracks_put (h : Hw) (f : Fld) (v : Nat) : (h.put f v).tracks = h.tracks := rfl

theorem tracks_bump (h : Hw) (f : Fld) (n : Nat) : (h.bump f n).tracks = h.tracks := rfl

theorem tracks_noteFail (h : Hw) (a b c d : Nat) : (h.noteFail a b c d).tracks = h.tracks := by
  unfold Hw.noteFail
  rw [tracks_bump, tracks_put, tracks_put, tracks_put, tracks_put, tracks_put]

theorem tracks_stepDone (h : Hw) : h.stepDone.tracks = h.tracks := when_keeps Hw.tracks _ _ h rfl

theorem tracks_setRelief (h : Hw) (k : Nat) (r : Option Relief) : (h.setRelief k r).tracks = h.tracks := rfl

theorem tracks_noFe (h : Hw) : Hw.tracks { h with cal := { h.cal with feStep := none, runFe := false } } =
    { h.tracks with runFe := false, feStep := none } := rfl

/-- The front-end track is free again. -/
def Hw.feFreed (h : Hw) : Hw :=
  ({ h with cal := { h.cal with feStep := none, runFe := false } } : Hw).put CAL_STATUS_FE_BUSY 0

theorem tracks_feFreed (h : Hw) : h.feFreed.tracks = { h.tracks with runFe := false, feStep := none } := by
  rw [Hw.feFreed, tracks_put, tracks_noFe]

theorem tracks_feStepOver (h : Hw) (x : CalStep) :
    (h.feStepOver x).tracks = { h.tracks with runFe := false, feStep := none } := by
  rw [← tracks_feFreed]
  unfold Hw.feStepOver
  dsimp only
  generalize decide (h.failLimit ≤ h.unitFails x.unit) = out
  rw [show Hw.put ({ h with cal := { h.cal with feStep := none, runFe := false } } : Hw) CAL_STATUS_FE_BUSY 0 = h.feFreed from rfl]
  generalize h.feFreed = k
  split
  · split
    · rfl
    · split
      · rw [tracks_put, tracks_put, tracks_setRelief]
      · exact (when_keeps Hw.tracks (fun h => h.put (FE_UNIT_ROLE x.unit) 3) out _ (tracks_put _ _ _)).trans (tracks_setRelief _ _ _)
  · exact when_keeps Hw.tracks _ _ _ (tracks_put k _ _)

theorem tracks_feFail (h : Hw) (result : Nat) (hrun : h.cal.runFe = false) :
    (h.feFail result).tracks = { h.tracks with runFe := false, feStep := none } := by
  unfold Hw.feFail
  split
  · rw [tracks_stepDone, tracks_noteFail, tracks_feStepOver]
    rfl
  next hnone => rw [Hw.tracks, hnone, hrun]

theorem tracks_adcStepOver (h : Hw) (x : CalStep) (passed : Bool) :
    (h.adcStepOver x passed).tracks = { h.tracks with runAdc := false, adcStep := none } := by
  unfold Hw.adcStepOver
  dsimp only
  generalize hk : Hw.put ({ h with cal := { h.cal with adcStep := none, runAdc := false } } : Hw) CAL_STATUS_ADC_BUSY 0 = k
  have htracks : k.tracks = { h.tracks with runAdc := false, adcStep := none } := by
    rw [← hk, tracks_put]; rfl
  rw [tracks_stepDone, ← htracks]
  split
  · rfl
  · split
    · rw [tracks_put]
    · rfl

theorem tracks_adcFail (h : Hw) (result : Nat) (hrun : h.cal.runAdc = false) :
    (h.adcFail result).tracks = { h.tracks with runAdc := false, adcStep := none } := by
  unfold Hw.adcFail
  split
  · rw [tracks_noteFail, tracks_adcStepOver]
  next hnone => rw [Hw.tracks, hnone, hrun]

/-- A timeout drops the run and ends the steps that it served. -/
theorem tracks_calTimeout {h : Hw} (hserves : (h.cal.runFe || h.cal.runAdc) = true)
    (hdue : h.due (h.cal.runSince + msNs (h.get CAL_STEP_TO_TO_MS)) = true) :
    h.calTimeout.tracks = ⟨none, false, false, if h.cal.runFe then none else h.cal.feStep, if h.cal.runAdc then none else h.cal.adcStep⟩ := by
  unfold Hw.calTimeout
  rw [hserves, hdue]
  dsimp only
  generalize hk : ({ h with adc := { h.adc with calRun := none }, cal := { h.cal with runFe := false, runAdc := false } } : Hw) = k
  have hktracks : k.tracks = ⟨none, false, false, h.cal.feStep, h.cal.adcStep⟩ := by rw [← hk]; rfl
  have hfe : (k.when h.cal.runFe (fun h => h.feFail 3)).tracks =
      ⟨none, false, false, if h.cal.runFe then none else h.cal.feStep, h.cal.adcStep⟩ := by
    cases h.cal.runFe with
    | true => exact (tracks_feFail k 3 (congrArg TrackView.runFe hktracks)).trans (by rw [hktracks]; rfl)
    | false => exact hktracks
  generalize hm : k.when h.cal.runFe (fun h => h.feFail 3) = m at hfe
  cases h.cal.runAdc with
  | true => exact (tracks_adcFail m 3 (congrArg TrackView.runAdc hfe)).trans (by rw [hfe]; rfl)
  | false => exact hfe

end Sys2Proof.Machine

/-! ## RUN_ALL and the lane steps (R402, R516 to R518, R523, R524, R526) -/

namespace Sys2Proof.Machine

/-! ### RUN_ALL (R510, R526) -/

/-- The item, due for RUN_ALL. -/
def CalItem.marked (x : CalItem) : CalItem := { x with runAll := true }

theorem feItem_setFeItem (h : Hw) (u v : Nat) (x : CalItem) : (h.setFeItem u x).feItem v = if v = u then x else h.feItem v :=
  storeGet_set (fun _ => item0) h.cal.fe u v x

theorem adcItem_setAdcItem (h : Hw) (c d : Nat) (x : CalItem) : (h.setAdcItem c x).adcItem d = if d = c then x else h.adcItem d :=
  storeGet_set (fun _ => item0) h.cal.adc c d x

theorem slicerItem_setSlicerItem (h : Hw) (i j : Nat) (x : CalItem) :
    (h.setSlicerItem i x).slicerItem j = if j = i then x else h.slicerItem j :=
  storeGet_set (fun _ => item0) h.cal.slicer i j x

theorem delayItem_setDelayItem (h : Hw) (i j : Nat) (x : CalItem) :
    (h.setDelayItem i x).delayItem j = if j = i then x else h.delayItem j :=
  storeGet_set (fun _ => item0) h.cal.delay i j x

def Hw.markFeItem (h : Hw) (u : Nat) : Hw := h.setFeItem u (h.feItem u).marked

def Hw.markAdcItem (h : Hw) (c : Nat) : Hw := h.setAdcItem c (h.adcItem c).marked

def Hw.markLaneItems (h : Hw) (i : Nat) : Hw :=
  (h.setSlicerItem i (h.slicerItem i).marked).setDelayItem i (h.delayItem i).marked

/-- Every front end is marked. -/
def Hw.markFe (h : Hw) : Hw := h.each (List.range nUnit) (fun h u => h.markFeItem u)

/-- Every core is marked. -/
def Hw.markAdc (h : Hw) : Hw := h.each (List.range 9) (fun h c => h.markAdcItem c)

/-- Every item of a lane is marked. -/
def Hw.markLanes (h : Hw) : Hw := h.each (List.range 8) (fun h i => h.markLaneItems i)

/-- Steps under way stay due after they end. -/
def Hw.markSteps (h : Hw) : Hw :=
  let again := Option.map (fun (x : CalStep) => { x with again := true })
  { h with cal := { h.cal with feStep := again h.cal.feStep, adcStep := again h.cal.adcStep } }

theorem runAll_eq (h : Hw) : h.runAll = h.markFe.markAdc.markLanes.markSteps.markSlicers := by
  unfold Hw.runAll Hw.markFe Hw.markAdc Hw.markLanes Hw.markSteps
  dsimp only [Hw.markFeItem, Hw.markAdcItem, Hw.markLaneItems, CalItem.marked]

theorem runAll_markFe (h : Hw) {u : Nat} (hu : u < nUnit) : (h.markFe.feItem u).runAll = true := by
  obtain ⟨g, -, hg⟩ := each_at (fun h => (h.feItem u).runAll) (fun h u => h.markFeItem u)
    (fun h m hm => by rw [Hw.markFeItem, feItem_setFeItem, if_neg hm.symm]) (List.mem_range.mpr hu) List.nodup_range h
  refine hg.trans ?_
  rw [Hw.markFeItem, feItem_setFeItem, if_pos rfl]
  rfl

theorem runAll_markAdc (h : Hw) {c : Nat} (hc : c < 9) : (h.markAdc.adcItem c).runAll = true := by
  obtain ⟨g, -, hg⟩ := each_at (fun h => (h.adcItem c).runAll) (fun h c => h.markAdcItem c)
    (fun h m hm => by rw [Hw.markAdcItem, adcItem_setAdcItem, if_neg hm.symm]) (List.mem_range.mpr hc) List.nodup_range h
  refine hg.trans ?_
  rw [Hw.markAdcItem, adcItem_setAdcItem, if_pos rfl]
  rfl

theorem runAll_markLanes (h : Hw) {i : Nat} (hi : i < 8) :
    (h.markLanes.slicerItem i).runAll = true ∧ (h.markLanes.delayItem i).runAll = true := by
  have hslicer (h : Hw) (m : Nat) (x : CalItem) (y : CalItem) :
      ((h.setSlicerItem m x).setDelayItem m y).slicerItem i = if i = m then x else h.slicerItem i := slicerItem_setSlicerItem h m i x
  have hdelay (h : Hw) (m : Nat) (x : CalItem) (y : CalItem) :
      ((h.setSlicerItem m x).setDelayItem m y).delayItem i = if i = m then y else h.delayItem i := delayItem_setDelayItem _ m i y
  obtain ⟨g, -, hg⟩ := each_at (fun h => ((h.slicerItem i).runAll, (h.delayItem i).runAll))
    (fun h i => h.markLaneItems i)
    (fun h m hm => by rw [Hw.markLaneItems, hslicer, hdelay, if_neg hm.symm, if_neg hm.symm]) (List.mem_range.mpr hi) List.nodup_range h
  rw [Hw.markLaneItems, hslicer, hdelay, if_pos rfl, if_pos rfl] at hg
  rw [Hw.markLanes]
  exact Prod.mk.inj hg

theorem cal_markSlicers (h : Hw) : h.markSlicers.cal = h.cal := by
  refine when_keeps Hw.cal _ _ h (each_keeps Hw.cal _ (fun h i => ?_) _ h)
  refine when_keeps Hw.cal _ _ h ?_
  rw [Hw.setLane_cal, Hw.put_cal, Hw.put_cal]

theorem epoch_markSlicers (h : Hw) : h.markSlicers.epoch = h.epoch := by
  refine when_keeps Hw.epoch _ _ h (each_keeps Hw.epoch _ (fun h i => ?_) _ h)
  refine when_keeps Hw.epoch _ _ h ?_
  rw [Hw.setLane_epoch, Hw.put_epoch, Hw.put_epoch]

theorem fe_markLanes (h : Hw) : h.markLanes.cal.fe = h.cal.fe :=
  each_keeps (fun h => h.cal.fe) (fun h i => h.markLaneItems i) (fun _ _ => rfl) _ h

theorem adc_markLanes (h : Hw) : h.markLanes.cal.adc = h.cal.adc :=
  each_keeps (fun h => h.cal.adc) (fun h i => h.markLaneItems i) (fun _ _ => rfl) _ h

theorem fe_markAdc (h : Hw) : h.markAdc.cal.fe = h.cal.fe :=
  each_keeps (fun h => h.cal.fe) (fun h c => h.markAdcItem c) (fun _ _ => rfl) _ h

theorem epoch_markSteps (h : Hw) : h.markSteps.epoch = h.epoch := rfl

theorem epoch_runAll (h : Hw) : h.runAll.epoch = h.epoch := by
  rw [runAll_eq, epoch_markSlicers, epoch_markSteps]
  calc h.markFe.markAdc.markLanes.epoch
    _ = h.markFe.markAdc.epoch := each_keeps Hw.epoch (fun h i => h.markLaneItems i) (fun _ _ => rfl) _ _
    _ = h.markFe.epoch := each_keeps Hw.epoch (fun h c => h.markAdcItem c) (fun _ _ => rfl) _ _
    _ = h.epoch := each_keeps Hw.epoch (fun h u => h.markFeItem u) (fun _ _ => rfl) _ h

/-- Steps that stay due leave the items as they are. -/
theorem items_markSteps (h : Hw) : h.markSteps.cal.fe = h.cal.fe ∧ h.markSteps.cal.adc = h.cal.adc ∧
    h.markSteps.cal.slicer = h.cal.slicer ∧ h.markSteps.cal.delay = h.cal.delay := ⟨rfl, rfl, rfl, rfl⟩

theorem runAll_spec (h : Hw) {u : Nat} (hu : u < 360) :
    (h.runAll.feItem u).runAll = true ∧ (h.runAll.adcItem (u % 9)).runAll = true ∧
    (h.runAll.delayItem (u % 8)).runAll = true ∧ (h.runAll.slicerItem (u % 8)).runAll = true := by
  obtain ⟨hslicer, hdelay⟩ := runAll_markLanes h.markFe.markAdc (Nat.mod_lt u (by decide : 0 < 8))
  have hunit := runAll_markFe h hu
  have hcore := runAll_markAdc h.markFe (Nat.mod_lt u (by decide : 0 < 9))
  obtain ⟨hfe, hadc, hsl, hdl⟩ := items_markSteps h.markFe.markAdc.markLanes
  rw [Hw.feItem] at hunit ⊢
  rw [Hw.adcItem] at hcore ⊢
  rw [Hw.delayItem] at hdelay ⊢
  rw [Hw.slicerItem] at hslicer ⊢
  rw [runAll_eq, cal_markSlicers, hfe, hadc, hsl, hdl, fe_markLanes, fe_markAdc, adc_markLanes]
  exact ⟨hunit, hcore, hdelay, hslicer⟩

theorem when_true (h : Hw) (f : Hw → Hw) : h.when true f = f h := rfl

theorem calCtlWrite_runAll (h : Hw) {v : Word} (hv : natBit v.toNat 31 = true) : h.calCtlWrite v = (h.stage CAL_CTL 0x7 v).runAll := by
  rw [Hw.calCtlWrite, hv, when_true]

theorem stagedOr_runAll_stage (h : Hw) (a m : Nat) (v : Word) : ((h.stage a m v).runAll).stagedOr a = v &&& BitVec.ofNat 32 m := by
  unfold Hw.stagedOr
  rw [epoch_runAll]
  unfold Hw.stage
  rw [storeGet_set_same]
  rfl

/-! ### Pairs of measurements (R517, R518) -/

theorem lanePairs_agree {m : Nat → Option (List Int)} {taps n : Nat} {a b : List Int} (ha : m 0 = some a) (hb : m 1 = some b)
    (hab : agree a b taps = true) : lanePairs m taps (n + 1) 0 = (.inl b, 0) := by
  unfold lanePairs
  rw [ha, hb]
  exact if_pos hab

theorem lanePairs_none {m : Nat → Option (List Int)} {taps n : Nat} (ha : m 0 = none) : lanePairs m taps (n + 1) 0 = (.inr 1, 0) := by
  unfold lanePairs
  rw [ha]

theorem laneStep_pass (h : Hw) (kind item : Nat) (f : List Int) (retries : Nat) (apply : Hw → List Int → Hw) :
    h.laneStep kind item (.inl f, retries) apply = (apply h f).bump CAL_COUNT_PASSED 1 := rfl

theorem laneStep_precondition (h : Hw) (kind item retries : Nat) (apply : Hw → List Int → Hw) :
    h.laneStep kind item (.inr 1, retries) apply = h.noteFail 1 kind retries item := rfl

theorem get_noteFail (h : Hw) (result kind retries item : Nat) :
    (h.noteFail result kind retries item).get CAL_LAST_RESULT = result % 2 ^ 3 ∧
    (h.noteFail result kind retries item).get CAL_LAST_KIND = kind % 2 ^ 2 ∧
    (h.noteFail result kind retries item).get CAL_LAST_ITEM = item % 2 ^ 10 := by
  have hbeside (k : Hw) (v : Nat) {hi lo hi' lo' : Nat} (hlo : lo ≤ hi) (h31 : hi < 32) (hlo' : lo' ≤ hi') (hd : hi < lo') :
      (k.put ⟨CAL_LAST, hi, lo⟩ v).get ⟨CAL_LAST, hi', lo'⟩ = k.get ⟨CAL_LAST, hi', lo'⟩ :=
    get_put_beside k CAL_LAST v hlo h31 hlo' (Or.inl hd)
  unfold Hw.noteFail Hw.bump
  refine ⟨?_, ?_, ?_⟩
  · rw [get_put_other _ CAL_COUNT_FAILED CAL_LAST_RESULT _ (by decide), hbeside _ _ (by decide) (by decide) (by decide) (by decide),
      hbeside _ _ (by decide) (by decide) (by decide) (by decide), hbeside _ _ (by decide) (by decide) (by decide) (by decide),
      get_put_same _ CAL_LAST_RESULT _ (by decide) (by decide)]
    rfl
  · rw [get_put_other _ CAL_COUNT_FAILED CAL_LAST_KIND _ (by decide), hbeside _ _ (by decide) (by decide) (by decide) (by decide),
      hbeside _ _ (by decide) (by decide) (by decide) (by decide), get_put_same _ CAL_LAST_KIND _ (by decide) (by decide)]
    rfl
  · rw [get_put_other _ CAL_COUNT_FAILED CAL_LAST_ITEM _ (by decide), get_put_same _ CAL_LAST_ITEM _ (by decide) (by decide)]
    rfl

theorem get_noteFail_other (h : Hw) (result kind retries item : Nat) {f : Fld} (hlast : f.addr ≠ CAL_LAST) (hcount : f.addr ≠ CAL_COUNT) :
    (h.noteFail result kind retries item).get f = h.get f := by
  unfold Hw.noteFail Hw.bump
  rw [get_put_other _ _ _ _ hcount, get_put_other _ _ _ _ hlast, get_put_other _ _ _ _ hlast, get_put_other _ _ _ _ hlast,
    get_put_other _ _ _ _ hlast, get_put_other _ _ _ _ hlast]

/-! ### Delay steps (R524) -/

/-- A delay step is taken on a lane. -/
def Hw.mayDelay (h : Hw) (n l : Nat) : Bool :=
  h.running && h.on CAL_CTL_LINK_EN && decide (h.get (LNK_STATUS_STATE n) = 4) && h.isDue (h.delayItem (4 * n + l)) h.laneTemp

/-- A delay value moved by a change, within its field. -/
def delayAt (v : Nat) (d : Int) : Nat := (clampInt 0 65535 ((v : Int) + d)).toNat

theorem delayAt_lt (v : Nat) (d : Int) : delayAt v d < 2 ^ 16 := by
  unfold delayAt clampInt
  omega

/-- The delays of a lane take their production values plus a change. -/
def Hw.applyDelay (h : Hw) (n l : Nat) (d : Int) : Hw :=
  ((h.put (TIM_DLY_TX_PS n l) (delayAt (bits (h.prodReg (TIM_DLY n l)) 31 16) d)).put (TIM_DLY_RX_PS n l)
    (delayAt (bits (h.prodReg (TIM_DLY n l)) 15 0) d)).setDelayItem (4 * n + l) (passedItem h.laneTemp)

theorem delayStep_eq {h : Hw} {p : Port} {l : Nat} (m : List Int) (hm : h.mayDelay (portNo p) l = true) :
    h.delayStep p l m = h.laneStep 3 (4 * portNo p + l)
      (lanePairs (fun k => if decide (h.clk.timing.mode = .on) then delayChange m k else none) (h.get CAL_AGREE_TAPS_TAPS) 4 0)
      (fun h f => h.applyDelay (portNo p) l (f.getD 0 0)) := by
  unfold Hw.delayStep
  exact if_pos hm

theorem mayDelay_intro {h : Hw} {p : Port} {l : Nat} (hrun : h.running = true) (hen : h.on CAL_CTL_LINK_EN = true) (hup : h.up p = true)
    (hdue : h.isDue (h.delayItem (4 * portNo p + l)) h.laneTemp = true) : h.mayDelay (portNo p) l = true := by
  have hstate : decide (h.get (LNK_STATUS_STATE (portNo p)) = 4) = true := hup
  rw [Hw.mayDelay, hrun, hen, hstate, hdue]
  rfl

theorem delayItem_put (h : Hw) (f : Fld) (v i : Nat) : (h.put f v).delayItem i = h.delayItem i := rfl

theorem get_setDelayItem (h : Hw) (i : Nat) (x : CalItem) (f : Fld) : (h.setDelayItem i x).get f = h.get f := rfl

theorem get_setSlicerItem (h : Hw) (i : Nat) (x : CalItem) (f : Fld) : (h.setSlicerItem i x).get f = h.get f := rfl

theorem portNo_le_one (p : Port) : portNo p ≤ 1 := by cases p <;> decide

/-- A delay step whose first two measurements agree applies the second (R517, R524). -/
theorem delayStep_agree {h : Hw} {p : Port} {l : Nat} {m : List Int} {d : Int} {a : List Int} (hl : l < 4)
    (hm : h.mayDelay (portNo p) l = true) (htim : h.clk.timing.mode = .on) (ha : delayChange m 0 = some a)
    (hd : delayChange m 1 = some [d]) (hagree : agree a [d] (h.get CAL_AGREE_TAPS_TAPS) = true) :
    (h.delayStep p l m).get (TIM_DLY_TX_PS (portNo p) l) = delayAt (bits (h.prodReg (TIM_DLY (portNo p) l)) 31 16) d ∧
    (h.delayStep p l m).get (TIM_DLY_RX_PS (portNo p) l) = delayAt (bits (h.prodReg (TIM_DLY (portNo p) l)) 15 0) d ∧
    ((h.delayStep p l m).delayItem (4 * portNo p + l)).done = true := by
  have hpair := lanePairs_agree (m := fun k => if decide (h.clk.timing.mode = .on) then delayChange m k else none)
    (n := 3) (by rw [htim]; exact ha) (by rw [htim]; exact hd) hagree
  have hn := portNo_le_one p
  have hstep : h.delayStep p l m = (h.applyDelay (portNo p) l d).bump CAL_COUNT_PASSED 1 := by
    rw [delayStep_eq m hm, hpair, laneStep_pass]
    rfl
  rw [hstep]
  generalize portNo p = n at hn
  have hcount : TIM_DLY n l ≠ CAL_COUNT := by change 0xE0200 + 0x10 * n + 4 * l ≠ 0xf0020; omega
  refine ⟨?_, ?_, ?_⟩
  · rw [Hw.bump, get_put_other _ _ (TIM_DLY_TX_PS n l) _ hcount, Hw.applyDelay, get_setDelayItem,
      get_put_beside _ _ _ (by decide) (by decide) (by decide) (Or.inl (by decide)), get_put_same _ _ _ (by decide : 16 ≤ 31) (by decide : 31 < 32)]
    exact Nat.mod_eq_of_lt (delayAt_lt _ _)
  · rw [Hw.bump, get_put_other _ _ (TIM_DLY_RX_PS n l) _ hcount, Hw.applyDelay, get_setDelayItem,
      get_put_same _ _ _ (by decide : 0 ≤ 15) (by decide : 15 < 32)]
    exact Nat.mod_eq_of_lt (delayAt_lt _ _)
  · rw [Hw.bump, delayItem_put, Hw.applyDelay, delayItem_setDelayItem, if_pos rfl]
    rfl

/-- A delay step whose first measurement fails its precondition is recorded and changes no delay (R518). -/
theorem delayStep_precondition {h : Hw} {p : Port} {l : Nat} {m : List Int} (hl : l < 4) (hm : h.mayDelay (portNo p) l = true)
    (hfail : h.clk.timing.mode ≠ .on ∨ delayChange m 0 = none) :
    (h.delayStep p l m).get CAL_LAST_RESULT = 1 ∧ (h.delayStep p l m).get CAL_LAST_KIND = 3 ∧
    (h.delayStep p l m).get CAL_LAST_ITEM = 4 * portNo p + l ∧
    (h.delayStep p l m).get (TIM_DLY_TX_PS (portNo p) l) = h.get (TIM_DLY_TX_PS (portNo p) l) ∧
    (h.delayStep p l m).get (TIM_DLY_RX_PS (portNo p) l) = h.get (TIM_DLY_RX_PS (portNo p) l) := by
  have hnone : (if decide (h.clk.timing.mode = .on) then delayChange m 0 else none) = none := by
    rcases hfail with htim | hd
    · rw [decide_eq_false htim]; rfl
    · rw [hd, ite_self]
  have hn := portNo_le_one p
  have hstep : h.delayStep p l m = h.noteFail 1 3 0 (4 * portNo p + l) := by
    rw [delayStep_eq m hm, lanePairs_none (n := 3) hnone, laneStep_precondition]
  rw [hstep]
  obtain ⟨hresult, hkind, hitem⟩ := get_noteFail h 1 3 0 (4 * portNo p + l)
  generalize portNo p = n at hn hresult hkind hitem ⊢
  have hlast : TIM_DLY n l ≠ CAL_LAST := by change 0xE0200 + 0x10 * n + 4 * l ≠ 0xf001c; omega
  have hcount : TIM_DLY n l ≠ CAL_COUNT := by change 0xE0200 + 0x10 * n + 4 * l ≠ 0xf0020; omega
  exact ⟨hresult, hkind, hitem.trans (Nat.mod_eq_of_lt (by omega)), get_noteFail_other h 1 3 0 _ hlast hcount,
    get_noteFail_other h 1 3 0 _ hlast hcount⟩

/-! ### Slicer steps (R402, R523) -/

/-- A slicer step whose first two measurements agree applies the second (R517). -/
theorem slicerStep_agree {h : Hw} {p : Port} {l : Nat} {m a b : List Int} (hm : h.mayRecal p l = true)
    (ha : slicerFields m 0 = some a) (hb : slicerFields m 1 = some b)
    (hagree : agree (a.take 4) (b.take 4) (h.get CAL_AGREE_TAPS_TAPS) = true) :
    h.slicerStep p l m =
      ((h.applySlicer p l b).setSlicerItem (4 * portNo p + l) (passedItem h.laneTemp)).bump CAL_COUNT_PASSED 1 := by
  have hpair := lanePairs_agree (m := fun k => (slicerFields m k).map (fun f => f.take 4)) (n := 3)
    (by rw [ha]; rfl) (by rw [hb]; rfl) hagree
  unfold Hw.slicerStep
  dsimp only
  rw [if_pos hm, hpair, laneStep_pass]
  dsimp only
  rw [hb]
  rfl

/-- The calibrated values of a lane. -/
def Hw.putLink (h : Hw) (n l : Nat) (f : List Int) : Hw :=
  (((h.put (CAL_LINK_PHASE n l) (f.getD 0 0).toNat).put (CAL_LINK_THR_L n l) (f.getD 1 0).toNat).put (CAL_LINK_THR_M n l)
    (f.getD 2 0).toNat).put (CAL_LINK_THR_U n l) (f.getD 3 0).toNat

/-- The offsets of a lane at 0, and no recalibration wanted. -/
def Hw.clearTracking (h : Hw) (n l : Nat) : Hw :=
  ((((h.put (LNK_TRK_PHASE n l) 0).put (LNK_TRK_THR_L n l) 0).put (LNK_TRK_THR_M n l) 0).put (LNK_TRK_THR_U n l) 0).put
    (LNK_TRK_RECAL_PEND n l) 0

theorem applySlicer_eq (h : Hw) (p : Port) (l : Nat) (f : List Int) : ∃ recal x, h.applySlicer p l f =
    ((((h.putLink (portNo p) l f).clearTracking (portNo p) l).put (LNK_STATUS_MY_RECAL (portNo p)) recal).setLane p l x) := by
  unfold Hw.applySlicer
  exact ⟨_, _, rfl⟩

theorem get_setLane (h : Hw) (p : Port) (l : Nat) (x : Lane) (f : Fld) : (h.setLane p l x).get f = h.get f := by cases p <;> rfl

theorem get_clearTracking_other (h : Hw) (n l : Nat) {f : Fld} (hf : f.addr ≠ LNK_TRK n l) : (h.clearTracking n l).get f = h.get f := by
  unfold Hw.clearTracking
  rw [get_put_other _ _ _ _ hf, get_put_other _ _ _ _ hf, get_put_other _ _ _ _ hf, get_put_other _ _ _ _ hf, get_put_other _ _ _ _ hf]

theorem get_clearTracking (h : Hw) (n l : Nat) :
    (h.clearTracking n l).get (LNK_TRK_RECAL_PEND n l) = 0 ∧ (h.clearTracking n l).get (LNK_TRK_PHASE n l) = 0 := by
  unfold Hw.clearTracking
  refine ⟨?_, ?_⟩
  · rw [get_put_same _ _ _ (by decide : 24 ≤ 24) (by decide : 24 < 32), Nat.zero_mod]
  · rw [get_put_beside _ _ _ (by decide) (by decide) (by decide) (Or.inr (by decide)),
      get_put_beside _ _ _ (by decide) (by decide) (by decide) (Or.inl (by decide)),
      get_put_beside _ _ _ (by decide) (by decide) (by decide) (Or.inl (by decide)),
      get_put_beside _ _ _ (by decide) (by decide) (by decide) (Or.inl (by decide)),
      get_put_same _ _ _ (by decide : 15 ≤ 19) (by decide : 19 < 32), Nat.zero_mod]

theorem get_putLink (h : Hw) (n l : Nat) (f : List Int) :
    (h.putLink n l f).get (CAL_LINK_PHASE n l) = (f.getD 0 0).toNat % 64 ∧
    (h.putLink n l f).get (CAL_LINK_THR_L n l) = (f.getD 1 0).toNat % 128 ∧
    (h.putLink n l f).get (CAL_LINK_THR_M n l) = (f.getD 2 0).toNat % 128 ∧
    (h.putLink n l f).get (CAL_LINK_THR_U n l) = (f.getD 3 0).toNat % 128 := by
  unfold Hw.putLink
  refine ⟨?_, ?_, ?_, ?_⟩
  · rw [get_put_beside _ _ _ (by decide) (by decide) (by decide) (Or.inl (by decide)),
      get_put_beside _ _ _ (by decide) (by decide) (by decide) (Or.inl (by decide)),
      get_put_beside _ _ _ (by decide) (by decide) (by decide) (Or.inl (by decide)),
      get_put_same _ _ _ (by decide : 24 ≤ 29) (by decide : 29 < 32)]
    rfl
  · rw [get_put_beside _ _ _ (by decide) (by decide) (by decide) (Or.inr (by decide)),
      get_put_beside _ _ _ (by decide) (by decide) (by decide) (Or.inr (by decide)),
      get_put_same _ _ _ (by decide : 0 ≤ 6) (by decide : 6 < 32)]
    rfl
  · rw [get_put_beside _ _ _ (by decide) (by decide) (by decide) (Or.inr (by decide)),
      get_put_same _ _ _ (by decide : 7 ≤ 13) (by decide : 13 < 32)]
    rfl
  · rw [get_put_same _ _ _ (by decide : 14 ≤ 20) (by decide : 20 < 32)]
    rfl

theorem slicerStep_spec {h : Hw} {p : Port} {l : Nat} {m a b : List Int} (hl : l < 4) (hm : h.mayRecal p l = true)
    (ha : slicerFields m 0 = some a) (hb : slicerFields m 1 = some b)
    (hagree : agree (a.take 4) (b.take 4) (h.get CAL_AGREE_TAPS_TAPS) = true) :
    (h.slicerStep p l m).get (CAL_LINK_PHASE (portNo p) l) = (b.getD 0 0).toNat % 64 ∧
    (h.slicerStep p l m).get (CAL_LINK_THR_L (portNo p) l) = (b.getD 1 0).toNat % 128 ∧
    (h.slicerStep p l m).get (CAL_LINK_THR_M (portNo p) l) = (b.getD 2 0).toNat % 128 ∧
    (h.slicerStep p l m).get (CAL_LINK_THR_U (portNo p) l) = (b.getD 3 0).toNat % 128 ∧
    (h.slicerStep p l m).on (LNK_TRK_RECAL_PEND (portNo p) l) = false ∧ (h.slicerStep p l m).offset p l 3 = 0 := by
  obtain ⟨recal, x, happly⟩ := applySlicer_eq h p l b
  have hn := portNo_le_one p
  have hoffset : (h.slicerStep p l m).offset p l 3 = toSigned 5 ((h.slicerStep p l m).get (LNK_TRK_PHASE (portNo p) l)) := rfl
  rw [hoffset, slicerStep_agree hm ha hb hagree, happly]
  generalize portNo p = n at hn ⊢
  have hcalStatus : CAL_LINK n l ≠ LNK_STATUS n := by change 0xF2000 + 0x20 * n + 4 * l ≠ 0xC0000 + 0x10000 * n + 0x10; omega
  have hcalTrk : CAL_LINK n l ≠ LNK_TRK n l := by change 0xF2000 + 0x20 * n + 4 * l ≠ 0xC0000 + 0x10000 * n + 0x30 + 4 * l; omega
  have hcalCount : CAL_LINK n l ≠ CAL_COUNT := by change 0xF2000 + 0x20 * n + 4 * l ≠ 0xf0020; omega
  have htrkCount : LNK_TRK n l ≠ CAL_COUNT := by change 0xC0000 + 0x10000 * n + 0x30 + 4 * l ≠ 0xf0020; omega
  have htrkStatus : LNK_TRK n l ≠ LNK_STATUS n := by change 0xC0000 + 0x10000 * n + 0x30 + 4 * l ≠ 0xC0000 + 0x10000 * n + 0x10; omega
  have hafter (k : Hw) {f : Fld} (hcount : f.addr ≠ CAL_COUNT) (hstatus : f.addr ≠ LNK_STATUS n) :
      ((((k.put (LNK_STATUS_MY_RECAL n) recal).setLane p l x).setSlicerItem (4 * n + l) (passedItem h.laneTemp)).bump CAL_COUNT_PASSED 1).get f = k.get f := by
    rw [Hw.bump, get_put_other _ _ _ _ hcount, get_setSlicerItem, get_setLane, get_put_other _ _ _ _ hstatus]
  obtain ⟨hphase, hthrL, hthrM, hthrU⟩ := get_putLink h n l b
  obtain ⟨hpend, htrk⟩ := get_clearTracking (h.putLink n l b) n l
  refine ⟨?_, ?_, ?_, ?_, ?_, ?_⟩
  · rw [hafter _ hcalCount hcalStatus, get_clearTracking_other _ _ _ hcalTrk, hphase]
  · rw [hafter _ hcalCount hcalStatus, get_clearTracking_other _ _ _ hcalTrk, hthrL]
  · rw [hafter _ hcalCount hcalStatus, get_clearTracking_other _ _ _ hcalTrk, hthrM]
  · rw [hafter _ hcalCount hcalStatus, get_clearTracking_other _ _ _ hcalTrk, hthrU]
  · rw [Hw.on, hafter _ htrkCount htrkStatus, hpend]
    rfl
  · rw [hafter _ htrkCount htrkStatus, htrk]
    rfl

/-! ### The obligation -/

/-- A command on an object that is there. -/
theorem actOn_there {s : State} {there : Bool} (hl : s.hw.live = true) (ht : there = true) (f : Hw → Hw) :
    actOn s there f = .next { s with hw := f s.hw } := by
  rw [ht, actOn_live s f hl]

/-- A step of a track starts on a running hub with CORE awake. -/
theorem when_ready {h : Hw} (hcore : h.coreOn = true) (hrun : h.running = true) (f : Hw → Hw) :
    h.when (h.coreOn && h.running) f = f h := by
  rw [hcore, hrun]
  rfl

theorem tracks_spec {h : Hw} (hserves : (h.cal.runFe || h.cal.runAdc) = true)
    (hdue : h.due (h.cal.runSince + msNs (h.get CAL_STEP_TO_TO_MS)) = true) :
    h.calTimeout.adc.calRun = none ∧ h.calTimeout.cal.runFe = false ∧ h.calTimeout.cal.runAdc = false ∧
    (h.cal.runAdc = true → h.calTimeout.cal.adcStep = none) ∧ (h.cal.runFe = true → h.calTimeout.cal.feStep = none) := by
  have htracks := tracks_calTimeout hserves hdue
  exact ⟨congrArg TrackView.run htracks, congrArg TrackView.runFe htracks, congrArg TrackView.runAdc htracks,
    fun hadc => (congrArg TrackView.adcStep htracks).trans (if_pos hadc), fun hfe => (congrArg TrackView.feStep htracks).trans (if_pos hfe)⟩

/-- Settles O37: what a step, a run or a write does, one lemma for each above, on a hub that is ready for it. -/
theorem calibration : Obligations.Calibration := by
  unfold Obligations.Calibration
  refine ⟨?_, ?_, ?_, ?_, ?_, ?_, ?_, ?_, ?_⟩
  · intro s u ch hl hcore hrun hu hp hstep hen hsafe hhold
    refine ⟨_, actOn_there hl (decide_eq_true hu) _, ?_⟩
    dsimp only
    rw [when_ready hcore hrun]
    exact feStepStart_spec hstep hen hsafe hhold hu hp
  · intro s c p hl hcore hrun hc hp hstep hen
    refine ⟨_, actOn_there hl (decide_eq_true hc) _, ?_⟩
    dsimp only
    rw [when_ready hcore hrun]
    exact adcStepStart_spec hc hstep hen hp
  · intro s a hl hidle ha hwants
    refine ⟨_, actOn_live s _ hl, ?_⟩
    dsimp only
    rw [hidle, hwants]
    obtain ⟨hfe, hadc, -⟩ := served_startCalRun s.hw
    exact ⟨calRun_startCalRun s.hw, hfe, hadc, accCnt_startCalRun s.hw ha⟩
  · intro s hl hidle hwants hdue
    refine ⟨_, actOn_live s _ hl, ?_⟩
    dsimp only
    rw [hidle, hwants, hdue]
    obtain ⟨-, -, hlast⟩ := served_startCalRun s.hw
    exact ⟨calRun_startCalRun s.hw, hlast⟩
  · intro s hl hserves hdue
    exact ⟨_, actOn_live s _ hl, tracks_spec hserves hdue⟩
  · intro s q v u hw hrunAll hu
    refine ⟨_, accWrite_open s q (fun h => h.calCtlWrite v) hw, ?_⟩
    dsimp only
    rw [calCtlWrite_runAll s.hw hrunAll]
    obtain ⟨hfe, hadc, hdelay, hslicer⟩ := runAll_spec (s.hw.stage CAL_CTL 0x7 v) hu
    exact ⟨hfe, hadc, hdelay, hslicer, stagedOr_runAll_stage s.hw CAL_CTL 0x7 v⟩
  · intro s p l m d a hl hlane hrun hen hup hdue htim ha hd hagree
    exact ⟨_, actOn_there hl (decide_eq_true hlane) _, delayStep_agree hlane (mayDelay_intro hrun hen hup hdue) htim ha hd hagree⟩
  · intro s p l m hl hlane hrun hen hup hdue hfail
    exact ⟨_, actOn_there hl (decide_eq_true hlane) _, delayStep_precondition hlane (mayDelay_intro hrun hen hup hdue) hfail⟩
  · intro s p l m a b hl hlane hmay ha hb hagree
    exact ⟨_, actOn_there hl (decide_eq_true hlane) _, slicerStep_spec hlane hmay ha hb hagree⟩

end Sys2Proof.Machine

/-! ## A slot that is listed twice (R571, R577)

No command lists a slot twice (`storeWf`), but the statement is about every state. What a slot holds is its first entry; the
record that is written next to the NVM may be the second. -/

namespace Sys2Proof.Machine

set_option Elab.async false

/-- A record that the NVM holds already. -/
def flushedRecord : RecSlot := { whole := true, seq := 6, code := 5, flushed := true, sent := false, epoch := 0 }

/-- A record that waits for the NVM. -/
def waitingRecord : RecSlot := { whole := true, seq := 7, code := 5, flushed := false, sent := false, epoch := 0 }

/-- A hub with an NVM region that lists slot 0 twice. -/
def twiceListedHub : State :=
  let h : Hw := ((((hw0.withCore.put SYS_BOOT_MODE 1).put CFG_NVM_SFDP_OK 1).put REC_REGION_SIZE_MIB 1).put REC_STATUS_SCAN_DONE 1)
  { State.reset with hw := { h with
      boot := { h.boot with phase := .running }
      recd := { rec0 with slots := [(0, some flushedRecord), (0, some waitingRecord)], nextPage := 1, opsecInit := true } } }

theorem twiceListedHub_live : twiceListedHub.hw.live = true := by decide +kernel

theorem twiceListedHub_ready : twiceListedHub.hw.flushReady = true := by decide +kernel

theorem twiceListedHub_next :
    (twiceListedHub.hw.slotOrder (fun w => !w.flushed)).head? = some (0, waitingRecord) := by decide +kernel

theorem twiceListedHub_reads : twiceListedHub.hw.readSlot 0 = some (List.replicate 256 0) := by decide +kernel

theorem twiceListedHub_page :
    twiceListedHub.hw.goodPage twiceListedHub.hw.ringPages twiceListedHub.hw.recd.nextPage = some 1 := by decide +kernel

/-- After a program that fails, slot 0 still shows the record that the NVM holds. -/
theorem twiceListedHub_leaves :
    leaves (.recordFlush false) twiceListedHub (fun x => decide (x.hw.recSlot 0 = some flushedRecord)) = true := by decide +kernel

/-- Refutes O40: a flush fails for the second record that slot 0 lists, and the slot shows the first. -/
theorem not_recorder : ¬ Obligations.Recorder := by
  unfold Obligations.Recorder
  rintro ⟨-, -, -, -, hfail, -⟩
  refine not_completes_of_leaves twiceListedHub_leaves ?_
    (hfail twiceListedHub 0 1 waitingRecord _ twiceListedHub_live twiceListedHub_ready twiceListedHub_next rfl twiceListedHub_reads
      twiceListedHub_page (by decide))
  rintro x hx ⟨-, -, -, hslot⟩
  exact absurd ((of_decide_eq_true hx).symm.trans hslot) (by decide)

end Sys2Proof.Machine

/-! ## Views of a class of the egress queue (R425, R449)

What an operation leaves of the queue and of the cap of class 1, in which the hub answers. Everything that a requester can
write leaves both, but that the hub's own sending adds descriptors of other classes, and a port that goes down frees some. -/

namespace Sys2Proof.Machine

set_option Elab.async false

/-- The frames of class 1 that may wait. -/
abbrev answerCap : Fld := ⟨0x83014, 25, 16⟩

/-- A view of the egress queue and of the cap of class 1. -/
abbrev QueueView (β : Type) := List EgDesc → Nat → β

def QueueView.see {β : Type} (V : QueueView β) (h : Hw) : β := V h.net.egress (h.get answerCap)

/-- The view does not see a descriptor of another class come. -/
def QueueView.Deaf {β : Type} (V : QueueView β) : Prop :=
  ∀ (l : List EgDesc) (d : EgDesc) (n : Nat), d.frame.cls ≠ 1 → V (l ++ [d]) n = V l n

namespace QueueView

variable {β : Type} {V : QueueView β}

theorem see_congr {g h : Hw} (he : g.net.egress = h.net.egress) (hc : g.get answerCap = h.get answerCap) : V.see g = V.see h :=
  congrArg₂ V he hc

/-! ### Registers and groups -/

theorem see_setReg (h : Hw) (a : Nat) (w : Word) (ha : a ≠ 0x83014) : V.see (h.setReg a w) = V.see h :=
  see_congr rfl (congrArg (fun w => bits w 25 16) (reg_setReg_other h w (Ne.symm ha)))

theorem see_put (h : Hw) (f : Fld) (v : Nat) (hf : f.addr ≠ 0x83014 ∨ (f.lo ≤ f.hi ∧ f.hi < 16)) :
    V.see (h.put f v) = V.see h := by
  refine see_congr rfl ?_
  by_cases ha : (0x83014 : Nat) = f.addr
  · obtain ⟨hlo, hhi⟩ := hf.resolve_left (fun hf => hf ha.symm)
    exact get_put_disjoint h f answerCap v hlo (by omega) (by decide : 16 ≤ 25) ha (Or.inl hhi)
  · exact get_put_other h f answerCap v ha

/-- A field of a register that stands alone. -/
@[simp ↓] theorem see_put_single (h : Hw) (a hi lo v : Nat) (ha : a ≠ 0x83014 ∨ (lo ≤ hi ∧ hi < 16)) :
    V.see (h.put ⟨a, hi, lo⟩ v) = V.see h := see_put h _ v ha

/-- A field of a register of an array that begins at `a`: beyond the caps, or too low in its word for them. -/
theorem see_put_from (h : Hw) (a b hi lo v : Nat) (hb : a ≤ b) (ha : 0x83014 < a ∨ (lo ≤ hi ∧ hi < 16)) :
    V.see (h.put ⟨b, hi, lo⟩ v) = V.see h :=
  see_put h _ v (ha.imp_left (fun ha => by change b ≠ 0x83014; omega))

@[simp ↓] theorem see_put_array (h : Hw) (a x hi lo v : Nat) (ha : 0x83014 < a ∨ (lo ≤ hi ∧ hi < 16)) :
    V.see (h.put ⟨a + x, hi, lo⟩ v) = V.see h := see_put_from h a _ hi lo v (by omega) ha

@[simp ↓] theorem see_put_array2 (h : Hw) (a x y hi lo v : Nat) (ha : 0x83014 < a ∨ (lo ≤ hi ∧ hi < 16)) :
    V.see (h.put ⟨a + x + y, hi, lo⟩ v) = V.see h := see_put_from h a _ hi lo v (by omega) ha

@[simp ↓] theorem see_put_array3 (h : Hw) (a x y z hi lo v : Nat) (ha : 0x83014 < a ∨ (lo ≤ hi ∧ hi < 16)) :
    V.see (h.put ⟨a + x + y + z, hi, lo⟩ v) = V.see h := see_put_from h a _ hi lo v (by omega) ha

@[simp ↓] theorem see_bump (h : Hw) (f : Fld) (n : Nat) (hf : ∀ v, V.see (h.put f v) = V.see h) :
    V.see (h.bump f n) = V.see h := hf _

@[simp ↓] theorem see_setPort (h : Hw) (p : Port) (x : PortSt) : V.see (h.setPort p x) = V.see h := by cases p <;> rfl

@[simp ↓] theorem see_flt (h : Hw) (x : FltSt) : V.see { h with flt := x } = V.see h := (rfl)
@[simp ↓] theorem see_recd (h : Hw) (x : RecSt) : V.see { h with recd := x } = V.see h := (rfl)
@[simp ↓] theorem see_field (h : Hw) (x : FieldSt) : V.see { h with field := x } = V.see h := (rfl)
@[simp ↓] theorem see_smp (h : Hw) (x : SmpSt) : V.see { h with smp := x } = V.see h := (rfl)
@[simp ↓] theorem see_adc (h : Hw) (x : AdcSt) : V.see { h with adc := x } = V.see h := (rfl)
@[simp ↓] theorem see_seq (h : Hw) (x : SeqSt) : V.see { h with seq := x } = V.see h := (rfl)
@[simp ↓] theorem see_str (h : Hw) (x : StrSt) : V.see { h with str := x } = V.see h := (rfl)
@[simp ↓] theorem see_trg (h : Hw) (x : TrgSt) : V.see { h with trg := x } = V.see h := (rfl)
@[simp ↓] theorem see_mem (h : Hw) (x : MemSt) : V.see { h with mem := x } = V.see h := (rfl)
@[simp ↓] theorem see_cin (h : Hw) (x : CinSt) : V.see { h with cin := x } = V.see h := (rfl)
@[simp ↓] theorem see_cal (h : Hw) (x : CalSt) : V.see { h with cal := x } = V.see h := (rfl)
@[simp ↓] theorem see_boot (h : Hw) (x : BootSt) : V.see { h with boot := x } = V.see h := (rfl)
@[simp ↓] theorem see_time (h : Hw) (x : TimeSt) : V.see { h with time := x } = V.see h := (rfl)
@[simp ↓] theorem see_epoch (h : Hw) (x : EpochSt) : V.see { h with epoch := x } = V.see h := (rfl)
@[simp ↓] theorem see_clk (h : Hw) (x : ClkSt) : V.see { h with clk := x } = V.see h := (rfl)
@[simp ↓] theorem see_reqs (h : Hw) (x : Store ReqSt) : V.see { h with reqs := x } = V.see h := (rfl)
@[simp ↓] theorem see_draw (h : Hw) : V.see h.draw = V.see h := (rfl)

/-- Beside the queue, a view sees nothing of the links. -/
@[simp ↓] theorem see_net (h : Hw) (x : NetSt) (hx : x.egress = h.net.egress) : V.see { h with net := x } = V.see h :=
  see_congr hx rfl

/-! ### Combinators -/

@[simp ↓] theorem see_when (h : Hw) (c : Bool) (f : Hw → Hw) (hf : V.see (f h) = V.see h) : V.see (h.when c f) = V.see h :=
  when_keeps V.see f c h hf

@[simp ↓] theorem see_each {α : Type} (h : Hw) (l : List α) (f : Hw → α → Hw) (hf : ∀ h x, V.see (f h x) = V.see h) :
    V.see (h.each l f) = V.see h := each_keeps V.see f hf l h

theorem see_each_mem {α : Type} (h : Hw) (l : List α) (f : Hw → α → Hw) (hf : ∀ h, ∀ x ∈ l, V.see (f h x) = V.see h) :
    V.see (h.each l f) = V.see h := each_keeps_mem V.see f l hf h

/-- A fold that carries something beside the hub. -/
theorem see_foldl {α γ : Type} (l : List α) (f : Hw × γ → α → Hw × γ) (hf : ∀ p x, V.see (f p x).1 = V.see p.1) :
    ∀ p : Hw × γ, V.see (l.foldl f p).1 = V.see p.1 := by
  induction l with
  | nil => intro p; rfl
  | cons x t ih => intro p; exact (ih (f p x)).trans (hf p x)

/-! ### Clock domains and crossings -/

@[simp ↓] theorem see_setXing (h : Hw) (x : Nat) (c : Crossing) : V.see (h.setXing x c) = V.see h := (rfl)

@[simp ↓] theorem see_xingReq (h : Hw) (x : Nat) : V.see (h.xingReq x) = V.see h := by
  unfold Hw.xingReq
  dsimp only
  split
  · simp
  · split <;> simp +decide [xingOvr]

@[simp ↓] theorem see_wake (h : Hw) (d : Domain) : V.see (h.wake d) = V.see h := wake_keeps V.see (fun _ _ => rfl) h d

/-! ### The lanes of a port -/

theorem see_of_unwired {g h : Hw} (hg : g.unwired = h.unwired) : V.see g = V.see h := by
  have hsee : V.see g.unwired = V.see h.unwired := congrArg V.see hg
  exact hsee

@[simp ↓] theorem see_fillLanes (h : Hw) (p : Port) : V.see (h.fillLanes p) = V.see h := see_of_unwired (unwired_fillLanes h p)

@[simp ↓] theorem see_sendStriped (h : Hw) (p : Port) (bs : List (Bool × List Byte)) : V.see (h.sendStriped p bs) = V.see h :=
  see_of_unwired (unwired_sendStriped h p bs)

@[simp ↓] theorem see_setLane (h : Hw) (p : Port) (l : Nat) (x : Lane) : V.see (h.setLane p l x) = V.see h := see_setPort h p _

@[simp ↓] theorem see_dropRx (h : Hw) (p : Port) : V.see (h.dropRx p) = V.see h := by
  unfold Hw.dropRx
  split
  · dsimp only
    simp
  · rfl

/-! ### Control of the two ports -/

@[simp ↓] theorem see_holdCheck (h : Hw) : V.see h.holdCheck = V.see h := (rfl)

@[simp ↓] theorem see_setActive (h : Hw) (a : Nat) : V.see (h.setActive a) = V.see h := by
  unfold Hw.setActive; split <;> simp +decide

@[simp ↓] theorem see_control (h : Hw) : V.see h.control = V.see h := by
  unfold Hw.control; split <;> simp

/-! ### Recorder triggers, causes and items -/

@[simp ↓] theorem see_recTriggerAt (h : Hw) (c : Nat) (ws : Option (List Word)) : V.see (h.recTriggerAt c ws) = V.see h := by
  unfold Hw.recTriggerAt; split <;> simp

@[simp ↓] theorem see_setUnit (h : Hw) (n : Nat) (u : UnitSt) : V.see (h.setUnit n u) = V.see h := (rfl)

@[simp ↓] theorem see_unitCauses (h : Hw) (n : Nat) (late : Bool) (cs : List TrgCause) :
    V.see (h.unitCauses n late cs) = V.see h := by
  unfold Hw.unitCauses; split <;> simp

@[simp ↓] theorem see_unitCause (h : Hw) (n : Nat) (c : TrgCause) : V.see (h.unitCause n c) = V.see h :=
  see_unitCauses h n false [c]

@[simp ↓] theorem see_unitsCause (h : Hw) (c : TrgCause) : V.see (h.unitsCause c) = V.see h := by
  unfold Hw.unitsCause; simp

@[simp ↓] theorem see_eventItem (h : Hw) (e : EventItem) : V.see (h.eventItem e) = V.see h := (rfl)

@[simp ↓] theorem see_evqWrite (h : Hw) (c i x : Nat) : V.see (h.evqWrite c i x).1 = V.see h := by
  unfold Hw.evqWrite; split
  · rfl
  · simp +decide

@[simp ↓] theorem see_pullFaultN (h : Hw) : V.see h.pullFaultN = V.see h := (rfl)
@[simp ↓] theorem see_setObjects (h : Hw) (i : Nat) (l : List Nat) : V.see (h.setObjects i l) = V.see h := (rfl)
@[simp ↓] theorem see_setForce (h : Hw) (i : Nat) (r : Option Nat) : V.see (h.setForce i r) = V.see h := (rfl)
@[simp ↓] theorem see_setTimer (h : Hw) (i : Nat) (t : Option Nat) : V.see (h.setTimer i t) = V.see h := (rfl)

/-! ### Drivers

An object names a driver below 1,024; the registers of drivers beyond would reach the caps. -/

@[simp ↓] theorem see_setDrv (h : Hw) (d : Nat) (x : DriverSt) : V.see (h.setDrv d x) = V.see h := (rfl)

@[simp ↓] theorem see_exWindow (h : Hw) (d x ch : Nat) : V.see (h.exWindow d x ch) = V.see h := (rfl)

@[simp ↓] theorem see_exWindows (h : Hw) (d x : Nat) : V.see (h.exWindows d x) = V.see h := by
  unfold Hw.exWindows; simp

theorem see_putDrv (h : Hw) (d hi lo v : Nat) (hd : d < 1024) : V.see (h.put ⟨EXC_STATUS d, hi, lo⟩ v) = V.see h :=
  see_put h _ v (Or.inl (by change 0x30600 + 4 * d ≠ 0x83014; omega))

@[simp ↓] theorem see_setPol (h : Hw) (d v : Nat) (hd : d < 1024) : V.see (h.setPol d v) = V.see h := by
  unfold Hw.setPol
  rw [see_when _ _ _ (see_setDrv _ _ _), see_putDrv h d _ _ v hd]

@[simp ↓] theorem see_zeroDriver (h : Hw) (d : Nat) (hd : d < 1024) : V.see (h.zeroDriver d) = V.see h := by
  unfold Hw.zeroDriver; simp [hd]

theorem see_showFaultOff (h : Hw) (ds : List Nat) (hds : ∀ d ∈ ds, d < 1024) : V.see (h.showFaultOff ds) = V.see h :=
  see_each_mem h ds _ (fun h d hd => see_putDrv h d _ _ _ (hds d hd))

theorem see_zeroDrivers (h : Hw) (ds : List Nat) (hds : ∀ d ∈ ds, d < 1024) : V.see (h.each ds Hw.zeroDriver) = V.see h :=
  see_each_mem h ds _ (fun h d hd => see_zeroDriver h d (hds d hd))

theorem see_stopDrivers (h : Hw) (ds : List Nat) (hds : ∀ d ∈ ds, d < 1024) : V.see (h.stopDrivers ds) = V.see h :=
  (see_showFaultOff _ ds hds).trans (see_zeroDrivers h ds hds)

/-! ### Reactions and raises

Of all sources, 34 and 42 alone, a port's CRC rate, may take a port down. -/

@[simp ↓] theorem see_noteFail (h : Hw) (a b c d : Nat) : V.see (h.noteFail a b c d) = V.see h := by
  unfold Hw.noteFail; simp +decide

@[simp ↓] theorem see_setRelief (h : Hw) (k : Nat) (r : Option Relief) : V.see (h.setRelief k r) = V.see h := (rfl)

@[simp ↓] theorem see_feStepOver (h : Hw) (x : CalStep) : V.see (h.feStepOver x) = V.see h := by
  unfold Hw.feStepOver; dsimp only
  repeat' split
  all_goals simp +decide

@[simp ↓] theorem see_abandonFeStep (h : Hw) : V.see h.abandonFeStep = V.see h := by
  unfold Hw.abandonFeStep; split <;> simp

@[simp ↓] theorem see_flt_field (h : Hw) (x : FltSt) (y : FieldSt) : V.see { h with flt := x, field := y } = V.see h := (rfl)

@[simp ↓] theorem see_enterSafe (h : Hw) (i : Nat) : V.see (h.enterSafe i) = V.see h := by
  have hds : ∀ d ∈ List.range nDrv, d < 1024 := fun d hd => Nat.lt_trans (List.mem_range.1 hd) (by decide)
  unfold Hw.enterSafe
  dsimp only
  rw [see_showFaultOff _ _ hds, see_zeroDrivers _ _ hds, see_flt_field]
  split <;> simp +decide

@[simp ↓] theorem see_resetBlock (h : Hw) (i x : Nat) (hi : i ≠ 34 ∧ i ≠ 42) : V.see (h.resetBlock i x) = V.see h := by
  unfold Hw.resetBlock
  dsimp only
  split
  · rfl
  split
  · rfl
  split
  · split <;> simp +decide
  split
  next hport => exact absurd hport hi.1
  split
  next hport => exact absurd hport hi.2
  rfl

@[simp ↓] theorem see_reactOn (h : Hw) (i r x : Nat) (hi : i ≠ 34 ∧ i ≠ 42) : V.see (h.reactOn i r x) = V.see h := by
  unfold Hw.reactOn
  split
  · exact see_stopDrivers h _ (View.objDrivers_lt i x)
  · exact see_resetBlock h i x hi
  · exact see_enterSafe h i
  · rfl

@[simp ↓] theorem see_reactAll (h : Hw) (i : Nat) (hi : i ≠ 34 ∧ i ≠ 42) : V.see (h.reactAll i) = V.see h := by
  unfold Hw.reactAll; simp [hi]

theorem see_raiseN (fuel : Nat) : ∀ (h : Hw) (i info : Nat), (i ≠ 34 ∧ i ≠ 42) → V.see (raiseN fuel h i info) = V.see h := by
  induction fuel with
  | zero => intro h i info _; rfl
  | succ n ih =>
    intro h i info hi
    have hqueue (h : Hw) : V.see (raiseN n h srcEvqOverrun 0) = V.see h := ih h _ _ (by decide)
    have htimer (h : Hw) : V.see (raiseN n h srcEscalationTimer i) = V.see h := ih h _ _ (by decide)
    have hesc (h : Hw) (x : Nat) : V.see (raiseN n h srcEscalated x) = V.see h := ih h _ _ (by decide)
    unfold raiseN
    dsimp only
    repeat' split
    all_goals simp +decide [hi, hqueue, htimer, hesc, statusBit, causeBit]

/-- No view sees a raise, but that of a CRC rate, whose reaction may take its port down. -/
@[simp ↓] theorem see_raise (h : Hw) (i info : Nat) (hi : i ≠ 34 ∧ i ≠ 42) : V.see (h.raise i info) = V.see h :=
  see_raiseN 4 h i info hi

/-! ### Frames of the hub's own (R425, R449) -/

@[simp ↓] theorem see_number (h : Hw) (f : Frame) : V.see (h.number f).1 = V.see h := by
  refine see_congr (egress_number h f) ?_
  rw [number_fst, get_net]
  exact get_put_other h STR_SEQ_NEXT answerCap _ (by decide)

omit V in
theorem cls_number (h : Hw) (f : Frame) : (h.number f).2.cls = f.cls := by
  unfold Hw.number
  rfl

@[simp ↓] theorem see_classFull (h : Hw) (c : Nat) : V.see (h.classFull c) = V.see h := by
  unfold Hw.classFull; dsimp only; split
  · rfl
  · simp +decide

theorem see_append (hV : V.Deaf) (h : Hw) (d : EgDesc) (hd : d.frame.cls ≠ 1) :
    V.see { h with net := { h.net with egress := h.net.egress ++ [d] } } = V.see h := hV _ _ _ hd

theorem see_enqueueOn (hV : V.Deaf) (h : Hw) (f : Frame) (pong : Bool) (only : Option Port) (hf : f.cls ≠ 1) :
    V.see (h.enqueueOn f pong only).1 = V.see h := by
  unfold Hw.enqueueOn
  split
  · rfl
  split
  · refine (see_append hV _ _ ?_).trans (see_number h f)
    exact (cls_number h f).trans_ne hf
  · exact see_classFull h f.cls

@[simp ↓] theorem see_enqueue (hV : V.Deaf) (h : Hw) (f : Frame) (hf : f.cls ≠ 1) : V.see (h.enqueue f).1 = V.see h :=
  see_enqueueOn hV h f false none hf

end QueueView
end Sys2Proof.Machine

/-! ## Views of a class of the egress queue: memory, segments, jobs and the recorder -/

namespace Sys2Proof.Machine

set_option Elab.async false

namespace QueueView

variable {β : Type} {V : QueueView β}

/-! ### The classes of the hub's own frames -/

omit V in
@[simp] theorem cls_gapFrame (h : Hw) (dst epoch : Nat) (l : List Byte) : (h.gapFrame dst epoch l).cls = 3 := (rfl)

omit V in
@[simp] theorem cls_segFrame (h : Hw) (x : SegSt) (l : List Byte) (b : Bool) : (h.segFrame x l b).cls = 5 := (rfl)

omit V in
@[simp] theorem cls_bulkFrame (h : Hw) (d : Option Nat) (epoch : Nat) (b : Bool) (l : List Byte) :
    (h.bulkFrame d epoch b l).cls = 7 := (rfl)

omit V in
@[simp] theorem cls_recordFrame (h : Hw) (dst kind epoch : Nat) (l : List (List Byte)) :
    (recordFrame h dst kind epoch l).cls = 6 := (rfl)

/-! ### Sampling, injected lists and streams -/

@[simp ↓] theorem see_setGrp (h : Hw) (g : Nat) (x : GroupSt) : V.see (h.setGrp g x) = V.see h := (rfl)

@[simp ↓] theorem see_showPend (h : Hw) : V.see h.showPend = V.see h := by
  unfold Hw.showPend; simp +decide

@[simp ↓] theorem see_resolveReq (h : Hw) (r : SyncReq) : V.see (h.resolveReq r).1 = V.see h := by
  unfold Hw.resolveReq
  split
  · refine see_foldl _ _ (fun p g => ?_) _
    split
    · split <;> simp
    · rfl
  · rfl

@[simp ↓] theorem see_settleReqs (h : Hw) : V.see h.settleReqs = V.see h := by
  unfold Hw.settleReqs
  rw [see_showPend, see_smp]
  refine see_foldl _ _ (fun p r => ?_) _
  exact see_resolveReq p.1 r

@[simp ↓] theorem see_syncRequest (h : Hw) (t mask src : Nat) : V.see (h.syncRequest t mask src) = V.see h := by
  unfold Hw.syncRequest; simp

@[simp ↓] theorem see_showActive (h : Hw) : V.see h.showActive = V.see h := by
  unfold Hw.showActive; simp +decide

@[simp ↓] theorem see_setIlAt (h : Hw) (l ns start : Nat) : V.see (h.setIlAt l ns start) = V.see h := (rfl)

@[simp ↓] theorem see_setChain (h : Hw) (s : Nat) (c : Chain) : V.see (h.setChain s c) = V.see h := (rfl)

/-! ### Gap records and segments -/

@[simp ↓] theorem see_flushGaps (hV : V.Deaf) (h : Hw) : V.see h.flushGaps = V.see h := by
  unfold Hw.flushGaps
  dsimp only
  rw [see_trg, see_foldl]
  · exact see_trg h _
  · intro p g
    split <;> simp [hV]

@[simp ↓] theorem see_missDone (hV : V.Deaf) (h : Hw) (x : SegStream) (p : Nat × Nat → Bool) : V.see (h.missDone x p).1 = V.see h := by
  unfold Hw.missDone
  dsimp only
  split <;> simp [hV]

@[simp ↓] theorem see_setSeg (h : Hw) (k : Nat) (x : Option SegSt) : V.see (h.setSeg k x) = V.see h := (rfl)

@[simp ↓] theorem see_setSegWord (h : Hw) (k i : Nat) (w : Word) : V.see (h.setSegWord k i w) = V.see h := (rfl)

@[simp ↓] theorem see_segPut (h : Hw) (k i hi lo v : Nat) : V.see (h.segPut k i hi lo v) = V.see h :=
  see_setSegWord h k i _

@[simp ↓] theorem see_setSegState (h : Hw) (k v : Nat) : V.see (h.setSegState k v) = V.see h :=
  see_segPut h k 0 31 30 v

@[simp ↓] theorem see_closeSeg (hV : V.Deaf) (h : Hw) (k : Nat) (cut : Bool) : V.see (h.closeSeg k cut) = V.see h := by
  unfold Hw.closeSeg
  split
  · split
    · dsimp only
      rw [see_trg, see_setSegState, see_when _ _ _ (by simp), see_setSeg]
      refine see_foldl _ _ (fun p y => ?_) _
      exact see_missDone hV p.1 y _
    · rfl
  · rfl

@[simp ↓] theorem see_cutSegs (hV : V.Deaf) (h : Hw) (p : SegSt → Bool) : V.see (h.cutSegs p) = V.see h := by
  unfold Hw.cutSegs
  refine see_each h _ _ (fun h q => ?_)
  split
  · split <;> simp [hV]
  · rfl

@[simp ↓] theorem see_setJob (h : Hw) (j : Option JobSt) : V.see (h.setJob j) = V.see h := (rfl)

@[simp ↓] theorem see_jobAbort (h : Hw) : V.see h.jobAbort = V.see h := by
  unfold Hw.jobAbort
  dsimp only
  repeat' split
  all_goals simp +decide

@[simp ↓] theorem see_enterState (h : Hw) (n s : Nat) (signal : Bool) : V.see (h.enterState n s signal) = V.see h := by
  unfold Hw.enterState; simp

@[simp ↓] theorem see_enterStart (h : Hw) (n : Nat) : V.see (h.enterStart n) = V.see h := by
  unfold Hw.enterStart; simp

@[simp ↓] theorem see_markSlicers (h : Hw) : V.see h.markSlicers = V.see h := by
  unfold Hw.markSlicers
  refine see_when _ _ _ (see_each _ _ _ (fun h i => see_when _ _ _ ?_))
  simp

/-! ### Capture memory -/

@[simp ↓] theorem see_noteMem (h : Hw) (ue : Bool) (y w c : Nat) (b : Bool) : V.see (h.noteMem ue y w c b) = V.see h := by
  unfold Hw.noteMem; dsimp only; split
  · rfl
  · simp +decide

@[simp ↓] theorem see_memCe (h : Hw) (y w c t : Nat) (b : Bool) : V.see (h.memCe y w c t b) = V.see h := by
  unfold Hw.memCe; simp +decide

@[simp ↓] theorem see_setValid (h : Hw) (a v : Nat) : V.see (h.setValid a v) = V.see h := (rfl)

@[simp ↓] theorem see_setMemStored (h : Hw) (a : Nat) (c : Word72) : V.see (h.setMemStored a c) = V.see h := (rfl)

@[simp ↓] theorem see_setEntryUpset (h : Hw) (t : Nat) (u : Word72) : V.see (h.setEntryUpset t u) = V.see h := (rfl)

@[simp ↓] theorem see_checkValid (h : Hw) (a c : Nat) : V.see (h.checkValid a c) = V.see h := by
  unfold Hw.checkValid; dsimp only; split <;> simp

@[simp ↓] theorem see_retire (h : Hw) (t c : Nat) : V.see (h.retire t c) = V.see h := by
  unfold Hw.retire; split
  · rfl
  · simp +decide

@[simp ↓] theorem see_memUe (h : Hw) (y w c : Nat) : V.see (h.memUe y w c) = V.see h := by
  unfold Hw.memUe; simp +decide

@[simp ↓] theorem see_memRead (h : Hw) (a c : Nat) : V.see (h.memRead a c).1 = V.see h := by
  unfold Hw.memRead
  dsimp only
  repeat' split
  all_goals simp

@[simp ↓] theorem see_takeWord (h : Hw) (a c : Nat) : V.see (h.takeWord a c).1 = V.see h := see_memRead h a c

@[simp ↓] theorem see_passRead (h : Hw) (t : Nat) : V.see (h.passRead t).1 = V.see h := by
  unfold Hw.passRead
  refine see_foldl _ _ (fun p i => ?_) _
  exact see_memRead p.1 _ _

@[simp ↓] theorem see_checkEntry (h : Hw) (t : Nat) : V.see (h.checkEntry t) = V.see h := by
  unfold Hw.checkEntry
  split
  · rfl
  · split <;> simp +decide

@[simp ↓] theorem see_verifyTile (h : Hw) (t : Nat) : V.see (h.verifyTile t) = V.see h := by
  unfold Hw.verifyTile
  dsimp only
  repeat' split
  all_goals simp +decide

@[simp ↓] theorem see_useTile (h : Hw) (t : Nat) : V.see (h.useTile t) = V.see h := see_when _ _ _ (see_verifyTile h t)

@[simp ↓] theorem see_useTiles (h : Hw) (l : List Nat) : V.see (h.useTiles l) = V.see h := see_each _ _ _ see_useTile

@[simp ↓] theorem see_consumeWords (h : Hw) (l : List Nat) (c : Nat) : V.see (h.consumeWords l c).1 = V.see h := by
  unfold Hw.consumeWords
  refine (see_foldl _ _ (fun p a => ?_) _).trans (see_useTiles h l)
  exact see_takeWord p.1 a c

@[simp ↓] theorem see_readBytes (h : Hw) (word : Nat → Nat) (n : Nat) : V.see (h.readBytes word n).1 = V.see h :=
  see_consumeWords h _ _

/-! ### Segments and jobs -/

@[simp ↓] theorem see_nextBseq (h : Hw) : V.see h.nextBseq.1 = V.see h := see_net h _ rfl

@[simp ↓] theorem see_releaseSeg (h : Hw) (k : Nat) : V.see (h.releaseSeg k) = V.see h := by
  unfold Hw.releaseSeg; simp

@[simp ↓] theorem see_readoutOver (h : Hw) (k : Nat) : V.see (h.readoutOver k) = V.see h :=
  (see_trg _ _).trans (see_releaseSeg h k)

@[simp ↓] theorem see_segBlockSent (h : Hw) (o : SegOut) : V.see (h.segBlockSent o) = V.see h := by
  unfold Hw.segBlockSent
  dsimp only
  repeat' split
  all_goals simp

@[simp ↓] theorem see_segPump (hV : V.Deaf) (n : Nat) : ∀ h : Hw, V.see (Hw.segPump n h) = V.see h := by
  induction n with
  | zero => intro h; rfl
  | succ n ih =>
    intro h
    unfold Hw.segPump
    dsimp only
    repeat' split
    all_goals simp [hV, ih]

@[simp ↓] theorem see_jobPump (hV : V.Deaf) (n : Nat) : ∀ h : Hw, V.see (Hw.jobPump n h) = V.see h := by
  induction n with
  | zero => intro h; rfl
  | succ n ih =>
    intro h
    unfold Hw.jobPump
    dsimp only
    repeat' split
    all_goals simp +decide [hV, ih]

@[simp ↓] theorem see_cinPump (hV : V.Deaf) (h : Hw) : V.see h.cinPump = V.see h := (see_jobPump hV _ _).trans (see_segPump hV _ h)

/-! ### The recorder -/

@[simp ↓] theorem see_setSlot (h : Hw) (i : Nat) (x : Option RecSlot) : V.see (h.setSlot i x) = V.see h := (rfl)

@[simp ↓] theorem see_freeSlots (h : Hw) : V.see h.freeSlots = V.see h := (rfl)

@[simp ↓] theorem see_bunting (h : Hw) (c l : Nat) : V.see (h.bunting c l).1 = V.see h := by
  unfold Hw.bunting
  dsimp only
  split <;> simp +decide

@[simp ↓] theorem see_storeFail (h : Hw) (c l n k : Nat) : V.see (h.storeFail c l n k) = V.see h := by
  unfold Hw.storeFail
  dsimp only
  split <;> simp +decide

@[simp ↓] theorem see_slotLost (h : Hw) (i : Nat) (x : RecSlot) : V.see (h.slotLost i x) = V.see h := by
  unfold Hw.slotLost; simp +decide

@[simp ↓] theorem see_sendRecords (hV : V.Deaf) (n : Nat) : ∀ h : Hw, V.see (Hw.sendRecords n h) = V.see h := by
  induction n with
  | zero => intro h; rfl
  | succ n ih =>
    intro h
    unfold Hw.sendRecords
    dsimp only
    repeat' split
    all_goals simp [hV, ih]

@[simp ↓] theorem see_sendFetch (hV : V.Deaf) (n : Nat) : ∀ h : Hw, V.see (Hw.sendFetch n h) = V.see h := by
  induction n with
  | zero => intro h; rfl
  | succ n ih =>
    intro h
    unfold Hw.sendFetch
    dsimp only
    repeat' split
    all_goals simp +decide [hV, ih]

@[simp ↓] theorem see_recPump (hV : V.Deaf) (h : Hw) : V.see h.recPump = V.see h := (see_sendFetch hV _ _).trans (see_sendRecords hV _ h)
end QueueView
end Sys2Proof.Machine

/-! ## Views of a class of the egress queue: what a register access leaves -/

namespace Sys2Proof.Machine

set_option Elab.async false

namespace QueueView

variable {β : Type} {V : QueueView β}

/-! ### Registers and groups -/

@[simp ↓] theorem see_setReg_single (h : Hw) (a : Nat) (w : Word) (ha : a ≠ 0x83014) : V.see (h.setReg a w) = V.see h :=
  see_setReg h a w ha

@[simp ↓] theorem see_setReg_array2 (h : Hw) (a x y : Nat) (w : Word) (ha : 0x83014 < a) :
    V.see (h.setReg (a + x + y) w) = V.see h := see_setReg h _ w (by omega)

@[simp ↓] theorem see_clearBits (h : Hw) (a m : Nat) (v : Word) (ha : a ≠ 0x83014) : V.see (h.clearBits a m v) = V.see h :=
  see_setReg h a _ ha

@[simp ↓] theorem see_clearOnRead (h : Hw) (a rc : Nat) (ha : a ≠ 0x83014) : V.see (h.clearOnRead a rc) = V.see h :=
  see_setReg h a _ ha

@[simp ↓] theorem see_writeRw (h : Hw) (a m : Nat) (v : Word) (ha : a ≠ 0x83014) : V.see (h.writeRw a m v) = V.see h :=
  see_setReg h a _ ha

@[simp ↓] theorem see_flag (h : Hw) (f : Fld) (hf : f.addr ≠ 0x83014) : V.see (h.flag f) = V.see h :=
  see_put h f 1 (Or.inl hf)

@[simp ↓] theorem see_causeEnd (h : Hw) (i : Nat) : V.see (h.causeEnd i) = V.see h := by
  unfold Hw.causeEnd causeBit; simp +decide

@[simp ↓] theorem see_stage (h : Hw) (a m : Nat) (v : Word) : V.see (h.stage a m v) = V.see h := (rfl)

@[simp ↓] theorem see_setRq (h : Hw) (q : Requester) (r : ReqSt) : V.see (h.setRq q r) = V.see h := (rfl)

@[simp ↓] theorem see_setLatch (h : Hw) (q : Requester) (a : Nat) (v : Word) : V.see (h.setLatch q a v) = V.see h := (rfl)

@[simp ↓] theorem see_setHeld (h : Hw) (q : Requester) (a : Nat) (v : Option Word) :
    V.see (h.setHeld q a v) = V.see h := (rfl)

@[simp ↓] theorem see_dropHeld (h : Hw) (q : Requester) (a n : Nat) : V.see (h.dropHeld q a n) = V.see h :=
  see_each _ _ _ (fun _ _ => rfl)

@[simp ↓] theorem see_clearFlag (h : Hw) (f : Fld) (v : Word) (c : Bool) (hf : f.addr ≠ 0x83014) :
    V.see (h.clearFlag f v c) = V.see h := see_when _ _ _ (see_put h f 0 (Or.inl hf))

@[simp ↓] theorem see_ite (c : Prop) [Decidable c] (f g : Hw) :
    V.see (if c then f else g) = if c then V.see f else V.see g := apply_ite ..

/-! ### Reads -/

@[simp ↓] theorem see_readPair (h : Hw) (q : Requester) (k : Nat) (b : Bool) (w : Word64) :
    V.see (h.readPair q k b w).1 = V.see h := by
  unfold Hw.readPair; split <;> rfl

@[simp ↓] theorem see_latchWords (h : Hw) (q : Requester) (b : Nat) (ws : List Word) :
    V.see (h.latchWords q b ws) = V.see h :=
  see_each h (ws.zip (valueWords (b + 4) ws.length)) _ (fun _ _ => rfl)

@[simp ↓] theorem see_evqRead (h : Hw) : V.see h.evqRead.1 = V.see h := by
  unfold Hw.evqRead; split <;> rfl

/-- The register of the caps has no field that a read clears or a write changes at once. -/
theorem regRowAt_caps : (regRowAt 0x83014).map (fun r => (r.rw, r.rc, r.w1c)) = some (0, 0, 0) := by decide +kernel

theorem ne_caps_of_regRowAt {a : Nat} {r : RegRow} (hr : regRowAt a = some r) (hx : r.rw ≠ 0 ∨ r.rc ≠ 0 ∨ r.w1c ≠ 0) :
    a ≠ 0x83014 := by
  rintro rfl
  have hcaps := regRowAt_caps
  rw [hr, Option.map_some, Option.some.injEq, Prod.mk.injEq, Prod.mk.injEq] at hcaps
  obtain ⟨hrw, hrc, hw1c⟩ := hcaps
  exact hx.elim (· hrw) (fun hx => hx.elim (· hrc) (· hw1c))

theorem see_when_of {h : Hw} {c : Prop} [Decidable c] {f : Hw → Hw} (hf : c → V.see (f h) = V.see h) :
    V.see (h.when (decide c) f) = V.see h := by
  by_cases hc : c
  · exact see_when _ _ _ (hf hc)
  · rw [decide_eq_false hc]
    rfl

@[simp ↓] theorem see_readEffect (h : Hw) (a : Nat) : V.see (h.readEffect a) = V.see h := by
  unfold Hw.readEffect
  split
  · simp
  split
  next r hr => exact see_when_of (fun hrc => see_clearOnRead h a r.rc (ne_caps_of_regRowAt hr (.inr (.inl hrc))))
  · rfl

@[simp ↓] theorem see_busRead (h : Hw) (fr : Option Hw) (q : Requester) (a : Nat) :
    V.see (h.busRead fr q a).1 = V.see h := by
  unfold Hw.busRead
  dsimp only
  repeat' split
  all_goals simp +decide

theorem see_readWords (fr : Option Hw) (q : Requester) (n : Nat) :
    ∀ (a : Nat) (h : Hw), V.see (Hw.readWords fr q n a h).1 = V.see h := by
  induction n with
  | zero => intro a h; rfl
  | succ n ih => intro a h; exact (ih _ _).trans (see_busRead h fr q a)

/-! ### Writes of SYS and the front of the hub (R36, R41, R208) -/

@[simp ↓] theorem see_seal (h : Hw) (p n : Nat) : V.see (h.seal p n) = V.see h := by
  unfold Hw.seal; simp +decide

@[simp ↓] theorem see_commitGo (h : Hw) (q : Requester) (src : Nat) (v : Word) :
    V.see (h.commitGo q src v) = V.see h := by
  unfold Hw.commitGo; simp +decide

@[simp ↓] theorem see_snapAsk (h : Hw) (q : Requester) : V.see (h.snapAsk q) = V.see h := by
  unfold Hw.snapAsk; simp +decide

theorem see_snapWrite (s : State) (q : Requester) (v : Word) : V.see (s.snapWrite q v).hw = V.see s.hw := by
  have hrel (s : State) : V.see (s.snapRel q).hw = V.see s.hw := by
    unfold State.snapRel State.snapRelease
    split
    · dsimp only
      rw [see_epoch]
      simp +decide
    · rfl
  unfold State.snapWrite
  dsimp only
  repeat' split
  all_goals simp +decide [hrel]

@[simp ↓] theorem see_release (h : Hw) : V.see h.release = V.see h := by
  unfold Hw.release; simp +decide

@[simp ↓] theorem see_startFree (h : Hw) (v : Word) : V.see (h.startFree v) = V.see h := by
  unfold Hw.startFree; simp +decide

/-! ### Writes of the terminals, sampling and the converters -/

@[simp ↓] theorem see_wantReclose (h : Hw) (t : Nat) : V.see (h.wantReclose t) = V.see h := by
  unfold Hw.wantReclose; simp +decide

@[simp ↓] theorem see_ovCause (h : Hw) : V.see h.ovCause = V.see h := see_when _ _ _ (see_causeEnd h _)

@[simp ↓] theorem see_setOv (h : Hw) (t v : Nat) : V.see (h.setOv t v) = V.see h := (rfl)

@[simp ↓] theorem see_tstatAny (h : Hw) (t : Nat) (v : Word) : V.see (h.tstatAny t v) = V.see h := by
  unfold Hw.tstatAny Hw.tstatWrite; simp +decide

theorem see_excStatusWrite (h : Hw) (d : Nat) (v : Word) (hd : d < 1024) : V.see (h.excStatusWrite d v) = V.see h := by
  have hover : V.see (h.when (natBit v.toNat 19 && !h.on (EXC_STATUS_LIMIT d)) (fun h => h.put (EXC_STATUS_OVERCURRENT d) 0)) =
      V.see h := see_when _ _ _ (see_putDrv h d _ _ 0 hd)
  unfold Hw.excStatusWrite
  dsimp only
  split
  · rw [see_showFaultOff _ [d] (fun e he => List.mem_singleton.1 he ▸ hd), see_setDrv, see_putDrv _ d _ _ 0 hd]
    exact hover
  · exact hover

@[simp ↓] theorem see_cancelSource (h : Hw) (src : Nat) : V.see (h.cancelSource src) = V.see h := by
  unfold Hw.cancelSource; simp +decide

@[simp ↓] theorem see_syncT2Write (h : Hw) (q : Requester) (v : Word) : V.see (h.syncT2Write q v) = V.see h := by
  unfold Hw.syncT2Write
  extract_lets ns lo h1 h2 had s2 h3
  have hregs : V.see h2 = V.see h := by
    change V.see ((((h.dropHeld q SMP_SYNC_T0 3).writeRw SMP_SYNC_T0 0x3FFFFFFF ns).setReg SMP_SYNC_T1 lo).writeRw
      SMP_SYNC_T2 0xFFFFFF v) = V.see h
    simp +decide
  have hcancel : V.see h3 = V.see h := (see_cancelSource _ 2).trans ((see_smp h2 _).trans hregs)
  clear_value h3
  split
  · have hflag : V.see (h3.when had (fun h => h.flag SMP_SYNC_STATUS_REPLACED)) = V.see h3 :=
      see_when h3 had _ (see_flag h3 _ (by decide))
    exact ((see_showPend _).trans ((see_smp _ _).trans hflag)).trans hcancel
  · exact hcancel

@[simp ↓] theorem see_rehabWrite (h : Hw) (c : Nat) : V.see (h.rehabWrite c) = V.see h :=
  see_when _ _ _ (by simp)

@[simp ↓] theorem see_hkCtlWrite (h : Hw) (v : Word) : V.see (h.hkCtlWrite v) = V.see h := by
  unfold Hw.hkCtlWrite; simp +decide

theorem see_listStart (h : Hw) (l n : Nat) (hl : l < 16) : V.see (h.listStart l n) = V.see h := by
  have hput (h : Hw) (hi lo v : Nat) : V.see (h.put ⟨ADC_IL_STAT l, hi, lo⟩ v) = V.see h :=
    see_put h _ v (Or.inl (by change 0x50104 + 8 * l ≠ 0x83014; omega))
  unfold Hw.listStart
  split
  · exact (see_setIlAt _ _ _ _).trans (hput _ _ _ _)
  split
  · exact see_bump _ _ _ (hput _ _ _)
  · exact (see_adc _ _).trans (hput _ _ _ _)

theorem see_ilCtlWrite (h : Hw) (l : Nat) (v : Word) (hl : l < 16) : V.see (h.ilCtlWrite l v) = V.see h :=
  (see_when _ _ _ (see_listStart _ l _ hl)).trans (see_stage h _ _ v)

/-! ### Writes of the filters, the table, streams and the trigger -/

@[simp ↓] theorem see_swapRequest (h : Hw) (s b : Nat) : V.see (h.swapRequest s b) = V.see h := by
  unfold Hw.swapRequest; simp +decide

@[simp ↓] theorem see_filSwap (h : Hw) (v : Word) : V.see (h.filSwap v) = V.see h := by
  unfold Hw.filSwap; simp +decide

@[simp ↓] theorem see_tableWrite (h : Hw) (q : Requester) (a : Nat) (v : Word) :
    V.see (h.tableWrite q a v).1 = V.see h := by
  unfold Hw.tableWrite
  dsimp only
  repeat' split
  · exact see_setHeld ..
  · exact (see_setHeld ..).trans (see_put _ _ _ (by decide))
  · exact (see_epoch ..).trans (see_setHeld ..)

@[simp ↓] theorem see_backfillWrite (h : Hw) (q : Requester) (d : Option Nat) (v : Word) :
    V.see (h.backfillWrite q d v).1 = V.see h := by
  have hregs (lo hi n : Word) : V.see (((((h.dropHeld q STR_BF_FIRST_LO 4).setReg STR_BF_FIRST_LO lo).setReg
      STR_BF_FIRST_HI hi).setReg STR_BF_COUNT n).writeRw STR_BF_CTL 0x1FFFFFF v) = V.see h := by simp +decide
  unfold Hw.backfillWrite
  dsimp only
  repeat' split
  · exact (see_str ..).trans (hregs _ _ _)
  · exact see_flag _ _ (by decide)
  · exact hregs _ _ _

@[simp ↓] theorem see_maskWrite (h : Hw) (q : Requester) (a : Nat) (v : Word) : V.see (h.maskWrite q a v) = V.see h := by
  unfold Hw.maskWrite
  dsimp only
  split <;> rfl

@[simp ↓] theorem see_trgRestart (h : Hw) (v : Word) : V.see (h.trgRestart v) = V.see h :=
  see_each _ _ _ (fun h n => see_when _ _ _ (see_enterStart h n))

@[simp ↓] theorem see_trgFire (h : Hw) (v : Word) : V.see (h.trgFire v) = V.see h :=
  see_each _ _ _ (fun h n => see_when _ _ _ (see_unitCause h n _))

@[simp ↓] theorem see_segRel (h : Hw) (v : Word) : V.see (h.segRel v) = V.see h := by
  unfold Hw.segRel
  dsimp only
  split <;> simp +decide

/-! ### Writes of capture memory and the cinch -/

@[simp ↓] theorem see_memClear (h : Hw) (v : Word) : V.see (h.memClear v) = V.see h := by
  unfold Hw.memClear; simp +decide

@[simp ↓] theorem see_flipArm (h : Hw) (q : Requester) (v : Word) : V.see (h.flipArm q v) = V.see h := by
  unfold Hw.flipArm; simp +decide

@[simp ↓] theorem see_resealStart (h : Hw) (t : Nat) (v : Word) : V.see (h.resealStart t v) = V.see h :=
  see_when _ _ _ (by simp)

@[simp ↓] theorem see_flipDone (h : Hw) : V.see h.flipDone = V.see h := by
  unfold Hw.flipDone; simp +decide

@[simp ↓] theorem see_storeCode (h : Hw) (a : Nat) (c : Word72) (w : Option Requester) :
    V.see (h.storeCode a c w) = V.see h := by
  unfold Hw.storeCode; simp +decide

@[simp ↓] theorem see_memWrite (h : Hw) (a : Nat) (w : Word64) (src : Nat) (q : Option Requester) :
    V.see (h.memWrite a w src q) = V.see h := by
  unfold Hw.memWrite Hw.putEntry Hw.meetWrite; simp +decide

@[simp ↓] theorem see_memWriteHalf (h : Hw) (a : Nat) (b : Bool) (w : Word) (src : Nat) (q : Option Requester) :
    V.see (h.memWriteHalf a b w src q) = V.see h := by
  unfold Hw.memWriteHalf; simp +decide

@[simp ↓] theorem see_windowWrite (h : Hw) (q : Requester) (a : Nat) (v : Word) :
    V.see (h.windowWrite q a v) = V.see h := by
  unfold Hw.windowWrite
  dsimp only
  repeat' split
  all_goals simp +decide

@[simp ↓] theorem see_consumeHalves (h : Hw) (l : List (Nat × Bool)) (c : Nat) :
    V.see (h.consumeHalves l c).1 = V.see h := by
  unfold Hw.consumeHalves
  refine (see_foldl _ _ (fun p a => ?_) _).trans (see_useTiles h _)
  exact see_takeWord p.1 _ c

@[simp ↓] theorem see_takeInput (h : Hw) (place : Nat → Nat × Bool) (p n : Nat) :
    V.see (h.takeInput place p n).1 = V.see h := see_consumeHalves h _ _

@[simp ↓] theorem see_setBlock (h : Hw) (b : CinBlock) : V.see (h.setBlock b) = V.see h := by
  unfold Hw.setBlock; simp +decide

@[simp ↓] theorem see_jobTake (h : Hw) : V.see h.jobTake = V.see h := by
  unfold Hw.jobTake
  dsimp only
  repeat' split
  all_goals simp +decide

@[simp ↓] theorem see_jobGo (h : Hw) (d : Option Nat) : V.see (h.jobGo d) = V.see h := by
  unfold Hw.jobGo; simp +decide

@[simp ↓] theorem see_jobResume (h : Hw) (m : Bool) : V.see (h.jobResume m) = V.see h := by
  unfold Hw.jobResume
  dsimp only
  repeat' split
  all_goals simp +decide

@[simp ↓] theorem see_jobCtl (h : Hw) (d : Option Nat) (v : Word) : V.see (h.jobCtl d v) = V.see h := by
  unfold Hw.jobCtl; simp +decide

@[simp ↓] theorem see_outRd (h : Hw) (v : Word) : V.see (h.outRd v) = V.see h := by
  unfold Hw.outRd; simp +decide

/-! ### Writes of the links and of time -/

@[simp ↓] theorem see_crcMonWrite (h : Hw) (p : Port) (v : Word) : V.see (h.crcMonWrite p v) = V.see h := by
  have hword : V.see (h.writeRw (LNK_CRC_MON (portNo p)) 0xFFFFFFFF v) = V.see h :=
    see_writeRw h _ _ v (by change 0xC0000 + 0x10000 * portNo p + 0x120 ≠ 0x83014; omega)
  unfold Hw.crcMonWrite
  extract_lets n h1
  have hreg : V.see h1 = V.see h := hword
  clear_value h1
  split
  · exact ((see_control _).trans ((see_causeEnd _ _).trans (see_setPort h1 p _))).trans hreg
  · exact hreg

@[simp ↓] theorem see_portCtlWrite (h : Hw) (q : Requester) (v : Word) : V.see (h.portCtlWrite q v) = V.see h := by
  unfold Hw.portCtlWrite Hw.closedWrite Hw.setForcePort; simp +decide

@[simp ↓] theorem see_incrWrite (h : Hw) (q : Requester) (v : Word) : V.see (h.incrWrite q v) = V.see h := by
  unfold Hw.incrWrite; simp +decide

@[simp ↓] theorem see_stepReject (h : Hw) (n : Nat) : V.see (h.stepReject n) = V.see h := by
  unfold Hw.stepReject; simp +decide

@[simp ↓] theorem see_showTimePend (h : Hw) : V.see h.showTimePend = V.see h := by
  unfold Hw.showTimePend; simp +decide

@[simp ↓] theorem see_adjWrite (h : Hw) (q : Requester) (v : Word) : V.see (h.adjWrite q v) = V.see h := by
  unfold Hw.adjWrite
  extract_lets frac h1 step
  have hregs : V.see h1 = V.see h := by
    change V.see (((h.dropHeld q TIM_ADJ_FRAC 2).setReg TIM_ADJ_FRAC frac).setReg TIM_ADJ_NS v) = V.see h
    simp +decide
  clear_value h1
  split
  · exact (see_stepReject h1 0).trans hregs
  · have hflag : V.see (h1.when h1.time.adjPend.isSome (fun h => h.flag TIM_STATUS_ADJ_REPLACED)) = V.see h1 :=
      see_when h1 _ _ (see_flag h1 _ (by decide))
    exact ((see_showTimePend _).trans ((see_time _ _).trans hflag)).trans hregs

@[simp ↓] theorem see_setWrite (h : Hw) (q : Requester) (v : Word) : V.see (h.setWrite q v) = V.see h := by
  unfold Hw.setWrite; simp +decide

@[simp ↓] theorem see_enterLocked (h : Hw) : V.see h.enterLocked = V.see h := by
  unfold Hw.enterLocked; simp +decide

@[simp ↓] theorem see_ctlWrite (h : Hw) (v : Word) : V.see (h.ctlWrite v) = V.see h := by
  unfold Hw.ctlWrite; simp +decide

/-! ### Writes of calibration, faults and the recorder -/

@[simp ↓] theorem see_runAll (h : Hw) : V.see h.runAll = V.see h := by
  unfold Hw.runAll Hw.setFeItem Hw.setAdcItem Hw.setSlicerItem Hw.setDelayItem; simp +decide

@[simp ↓] theorem see_calCtlWrite (h : Hw) (v : Word) : V.see (h.calCtlWrite v) = V.see h := by
  unfold Hw.calCtlWrite; simp +decide

@[simp ↓] theorem see_judgeTemps (h : Hw) : V.see h.judgeTemps = V.see h := by
  unfold Hw.judgeTemps
  dsimp only
  repeat' split
  all_goals simp +decide

@[simp ↓] theorem see_clearSource (h : Hw) (i : Nat) : V.see (h.clearSource i) = V.see h := by
  unfold Hw.clearSource statusBit
  dsimp only
  rw [see_flt]
  simp +decide

@[simp ↓] theorem see_statusClear (h : Hw) (b : Bool) (v : Word) : V.see (h.statusClear b v) = V.see h := by
  unfold Hw.statusClear; simp +decide

@[simp ↓] theorem see_resumeSafe (h : Hw) : V.see h.resumeSafe.1 = V.see h := by
  unfold Hw.resumeSafe
  split
  · rfl
  split
  · exact see_put_single h _ _ _ _ (by decide)
  · rfl

@[simp ↓] theorem see_safeWrite (h : Hw) (q : Requester) (v : Word) : V.see (h.safeWrite q v) = V.see h := by
  unfold Hw.safeWrite; simp +decide

@[simp ↓] theorem see_recCtlWrite (h : Hw) (v : Word) : V.see (h.recCtlWrite v) = V.see h := by
  unfold Hw.recCtlWrite; simp +decide

@[simp ↓] theorem see_buntClear (h : Hw) (v : Word) : V.see (h.buntClear v) = V.see h := by
  refine see_each h _ _ (fun h i => see_when h _ _ ?_)
  exact (see_put_array _ _ _ _ _ _ (by decide)).trans (see_put_array h _ _ _ _ _ (by decide))

@[simp ↓] theorem see_fetchWrite (hV : V.Deaf) (h : Hw) (d : Option Nat) (v : Word) : V.see (h.fetchWrite d v) = V.see h := by
  have hctl : V.see (h.writeRw REC_FETCH_CTL 0xFFFF v) = V.see h := see_writeRw h _ _ v (by decide)
  unfold Hw.fetchWrite
  dsimp only
  split
  · rw [see_recPump hV, see_put_single _ _ _ _ _ (by decide), see_recd]
    exact hctl
  · exact hctl

/-! ### The access as a whole -/

theorem see_pageWrite (h g : Hw) (q : Requester) (a : Nat) (v : Word) (hg : h.pageWrite q a v = some g) :
    V.see g = V.see h := by
  unfold Hw.pageWrite at hg
  dsimp only at hg
  repeat' split at hg
  all_goals (cases hg <;> rfl)

/-- A write that has an effect of its own, but that of a port's control, which may take the port down. -/
theorem see_ownWrite (hV : V.Deaf) (h : Hw) (q : Requester) (src a : Nat) (v : Word) (r : Hw × Nat)
    (hctlA : a ≠ LNK_CTL 0) (hctlB : a ≠ LNK_CTL 1) (hr : h.ownWrite q src a v = some r) : V.see r.1 = V.see h := by
  have hdrv (x : Nat) (hx : 0x30600 ≤ a ∧ x < nDrv) : V.see (h.excStatusWrite x v) = V.see h :=
    see_excStatusWrite h x v (Nat.lt_trans hx.2 (by decide))
  have hlist (hl : 0x50100 ≤ a ∧ a < 0x50180 ∧ a % 8 = 0) : V.see (h.ilCtlWrite ((a - 0x50100) / 8) v) = V.see h :=
    see_ilCtlWrite h _ v (by omega)
  have htemps : V.see ((h.writeRw FLT_CTL 0xFF v).judgeTemps) = V.see h :=
    (see_judgeTemps _).trans (see_writeRw h _ _ v (by decide))
  have hlinkA (hl : a = LNK_CTL 0) : V.see (h.linkCtl .a v) = V.see h := absurd hl hctlA
  have hlinkB (hl : a = LNK_CTL 1) : V.see (h.linkCtl .b v) = V.see h := absurd hl hctlB
  unfold Hw.ownWrite at hr
  dsimp only at hr
  repeat' split at hr
  all_goals cases hr
  all_goals simp [*]

@[simp ↓] theorem see_plainWrite (h : Hw) (a : Nat) (v : Word) : V.see (h.plainWrite a v) = V.see h := by
  unfold Hw.plainWrite
  split
  next r hr =>
    extract_lets h1 h2
    have hrw : V.see h1 = V.see h := see_when_of (fun hx => see_writeRw h a r.rw v (ne_caps_of_regRowAt hr (.inl hx)))
    have hrws : V.see h2 = V.see h1 := see_when _ _ _ (see_stage h1 a r.rws v)
    clear_value h2
    refine (see_when_of (fun hx => ?_)).trans (hrws.trans hrw)
    exact see_clearBits h2 a _ v (ne_caps_of_regRowAt hr (.inr (.inr hx)))
  · rfl

@[simp ↓] theorem see_stagedPair (h : Hw) (q : Requester) (a : Nat) (v : Word) :
    V.see (h.stagedPair q a v) = V.see h := by
  unfold Hw.stagedPair; simp +decide

theorem see_busWrite (hV : V.Deaf) (h : Hw) (q : Requester) (src a : Nat) (v : Word) (hctlA : a ≠ LNK_CTL 0)
    (hctlB : a ≠ LNK_CTL 1) : V.see (h.busWrite q src a v).1 = V.see h := by
  unfold Hw.busWrite
  split
  next g hg => exact see_pageWrite h g q a v hg
  split
  next r hr => exact see_ownWrite hV h q src a v r hctlA hctlB hr
  dsimp only
  repeat' split
  all_goals simp

end QueueView
end Sys2Proof.Machine

/-! ## Room for answers, and the ports, over register accesses (R428, R437) -/

namespace Sys2Proof.Machine

set_option Elab.async false

/-! ### Class 1 keeps its room -/

/-- Whether class 1 has room. -/
def answerRoom : QueueView Bool := fun l n => decide ((l.filter (fun d => decide (d.frame.cls = 1))).length < n)

theorem see_answerRoom (h : Hw) : answerRoom.see h = h.classRoom 1 := (rfl)

theorem answerRoom_deaf : answerRoom.Deaf := by
  intro l d n hd
  simp [answerRoom, hd]

/-- The queue itself. -/
def egressView : QueueView (List EgDesc) := fun l _ => l

theorem see_egressView (h : Hw) : egressView.see h = h.net.egress := (rfl)

theorem classRoom_sweep {h : Hw} (hr : h.classRoom 1 = true) : h.sweep.classRoom 1 = true := by
  have hlt := of_decide_eq_true hr
  refine decide_eq_true (Nat.lt_of_le_of_lt ?_ hlt)
  exact (List.filter_sublist.filter _).length_le

theorem classRoom_portDown {h : Hw} {p : Port} (hr : h.classRoom 1 = true) : (h.portDown p).classRoom 1 = true := by
  have hlanes (g : Hw) (n : Nat) (l : Nat) : answerRoom.see (((g.put (LNK_LANE_LOCKED n l) 0).put (LNK_LANE_READMIT n l) 0).put
      (LNK_LANE_GOOD_MS n l) 0) = answerRoom.see g := by simp
  unfold Hw.portDown
  extract_lets n g recal h1 x h2 h3 h4
  have hroom : answerRoom.see h4 = answerRoom.see h :=
    calc answerRoom.see h4 = answerRoom.see h3 := QueueView.see_each h3 _ _ (fun g l => hlanes g n l)
      _ = answerRoom.see h2 := QueueView.see_each h2 _ _ (fun g l => QueueView.see_setLane g p l _)
      _ = answerRoom.see h1 := QueueView.see_setPort h1 p _
      _ = answerRoom.see (g.setReg (LNK_STATUS n) 0) := QueueView.see_put_array2 _ _ _ _ _ _ _ (by decide)
      _ = answerRoom.see g := QueueView.see_setReg_array2 g _ _ _ 0 (by decide)
      _ = answerRoom.see h := by simp [g]
  clear_value h4
  have hsweep : h4.sweep.classRoom 1 = true := classRoom_sweep (hroom.trans hr)
  exact (QueueView.see_control (V := answerRoom) h4.sweep).trans hsweep

theorem classRoom_linkCtl {h : Hw} {p : Port} (v : Word) (hr : h.classRoom 1 = true) : (h.linkCtl p v).classRoom 1 = true := by
  have hctl : answerRoom.see (((h.fillLanes p).writeRw (LNK_CTL (portNo p)) 0xF0000 v).stage (LNK_CTL (portNo p)) 0x7 v) =
      answerRoom.see h := by
    rw [QueueView.see_stage, QueueView.see_writeRw _ _ _ _ (by cases p <;> decide), QueueView.see_fillLanes]
  unfold Hw.linkCtl
  extract_lets a
  cases natBit v.toNat 31
  · exact hctl.trans hr
  · exact classRoom_portDown (hctl.trans hr)

theorem busWrite_linkCtl (h : Hw) (q : Requester) (src : Nat) (v : Word) :
    (h.busWrite q src (LNK_CTL 0) v).1 = h.linkCtl .a v ∧ (h.busWrite q src (LNK_CTL 1) v).1 = h.linkCtl .b v := ⟨rfl, rfl⟩

theorem classRoom_busWrite {s : State} (q : Requester) (src a : Nat) (v : Word) (hr : s.hw.classRoom 1 = true) :
    (s.busWrite q src a v).1.hw.classRoom 1 = true := by
  unfold State.busWrite
  split
  · exact hr
  split
  · exact hr
  split
  · exact (QueueView.see_snapWrite (V := answerRoom) s q v).trans hr
  dsimp only
  obtain ⟨hctlA, hctlB⟩ := busWrite_linkCtl s.hw q src v
  by_cases ha : a = LNK_CTL 0
  · rw [ha, hctlA]
    exact classRoom_linkCtl v hr
  by_cases hb : a = LNK_CTL 1
  · rw [hb, hctlB]
    exact classRoom_linkCtl v hr
  exact (QueueView.see_busWrite answerRoom_deaf s.hw q src a v ha hb).trans hr

/-- What a REG_WRITE writes leaves room for its answer. -/
theorem classRoom_writeWords (q : Requester) (src : Nat) (vs : List Word) : ∀ (s : State) (a n : Nat),
    s.hw.classRoom 1 = true → (s.writeWords q src a vs n).1.hw.classRoom 1 = true := by
  induction vs with
  | nil => intro s a n hr; exact hr
  | cons v vs ih =>
    intro s a n hr
    have hword := classRoom_busWrite q src a v hr
    rw [State.writeWords]
    split
    · exact ih _ _ _ hword
    · exact hword

/-! ### Reads leave the ports -/

/-- The view of the two ports. -/
def portsView : View (PortSt × PortSt) where
  look s := (s.portA, s.portB)
  look_put _ _ _ _ _ := rfl

theorem port_of_portsView {g h : Hw} (hg : portsView.see g = portsView.see h) (p : Port) : g.port p = h.port p := by
  cases p
  · exact congrArg Prod.fst hg
  · exact congrArg Prod.snd hg

theorem ports_readEffect (h : Hw) (a : Nat) : portsView.see (h.readEffect a) = portsView.see h := by
  unfold Hw.readEffect
  split
  · unfold Hw.evqRead
    split <;> rfl
  split
  · exact View.see_when _ _ _ rfl
  · rfl

theorem ports_readPair (h : Hw) (q : Requester) (k : Nat) (b : Bool) (w : Word64) :
    portsView.see (h.readPair q k b w).1 = portsView.see h := by
  unfold Hw.readPair
  split <;> rfl

theorem ports_latchWords (h : Hw) (q : Requester) (b : Nat) (ws : List Word) :
    portsView.see (h.latchWords q b ws) = portsView.see h :=
  View.see_each h (ws.zip (valueWords (b + 4) ws.length)) _ (fun _ _ => rfl)

theorem ports_busRead (h : Hw) (fr : Option Hw) (q : Requester) (a : Nat) :
    portsView.see (h.busRead fr q a).1 = portsView.see h := by
  have hlatch (g : Hw) (q : Requester) (a : Nat) (w : Word) : portsView.see (g.setLatch q a w) = portsView.see g := rfl
  unfold Hw.busRead
  dsimp only
  repeat' split
  all_goals simp [hlatch, ports_readEffect, ports_readPair, ports_latchWords]

theorem ports_readWords (fr : Option Hw) (q : Requester) (n : Nat) :
    ∀ (a : Nat) (h : Hw), portsView.see (Hw.readWords fr q n a h).1 = portsView.see h := by
  induction n with
  | zero => intro a h; rfl
  | succ n ih => intro a h; exact (ih _ _).trans (ports_busRead h fr q a)

/-! ### Ranges of a snapshot -/

theorem readRanges_keeps {β : Type} (g : Hw → β) (fr : Option Hw) (q : Requester)
    (hread : ∀ (n a : Nat) (h : Hw), g (Hw.readWords fr q n a h).1 = g h) (l : List (Nat × Nat)) :
    ∀ h : Hw, g (Hw.readRanges fr q l h).1 = g h := by
  induction l with
  | nil => intro h; rfl
  | cons x l ih => intro h; exact (ih _).trans (hread x.2 x.1 h)

end Sys2Proof.Machine

/-! ## Commands that a hub takes from its FIFOs, and their answers (R428, R429, R434, R435, R437, R438, R440) -/

namespace Sys2Proof.Machine

set_option Elab.async false

/-! ### An answer stands last in the queue -/

/-- What an answer shows of itself: its type, its class, RSP, whom it goes to, and its payload. -/
def EgDesc.shows (d : EgDesc) : Nat × Nat × Bool × Nat × List Byte :=
  (d.frame.ty, d.frame.cls, d.frame.rsp, d.frame.dst, d.frame.payload)

theorem number_snd (h : Hw) (f : Frame) : (h.number f).2 = { f with seq := h.get STR_SEQ_NEXT, sr := !h.net.srDone } := by
  unfold Hw.number
  rfl

theorem egress_enqueueOn_rsp {h : Hw} {f : Frame} (only : Option Port) (hrsp : f.rsp = true) (hroom : h.classRoom f.cls = true) :
    (h.enqueueOn f false only).1.net.egress = h.net.egress ++ [{
      frame := (h.number f).2, sentA := decide (only = some .b), sentB := decide (only = some .a), firstSent := none, pong := false }] := by
  unfold Hw.enqueueOn
  rw [if_neg (fun ⟨_, hno⟩ => Bool.noConfusion (hrsp.symm.trans hno)), if_pos hroom]
  dsimp only
  rw [egress_number]

/-- R428: the answer of a hub with room in class 1. -/
theorem shows_respond {h : Hw} (p : Port) (e : CmdEntry) (l : List Byte) (hr : h.classRoom 1 = true) :
    (h.respond p e l).net.egress.getLast?.map EgDesc.shows = some (e.frame.ty, 1, true, e.frame.src, l) := by
  unfold Hw.respond
  dsimp only
  rw [egress_enqueueOn_rsp _ rfl hr, List.getLast?_concat, Option.map_some, EgDesc.shows, number_snd]
  rfl

theorem ports_respond (h : Hw) (p : Port) (e : CmdEntry) (l : List Byte) : portsView.see (h.respond p e l) = portsView.see h :=
  View.see_enqueueOn h _ _ _

/-! ### A command is taken -/

/-- The hub with another duplicate table. -/
def Hw.withDup (h : Hw) (dup : List DupEntry) : Hw := { h with net := { h.net with dup := dup } }

/-- What the check of a frame against the duplicate table leaves, and whether it accepts the frame (R429): an accepted frame
changes the table; a refused one is counted, and may be reported. -/
theorem dupAccept_cases {h : Hw} {p : Port} {f : Frame} {r : Hw × Bool} (hr : h.dupAccept p f = r) :
    (∃ dup, r = (h.withDup dup, true)) ∨ (∃ hi lo, r = (h.bump ⟨LNK_DUP (portNo p), hi, lo⟩ 1, false)) ∨
    ∃ hi lo dup, r = (((h.bump ⟨LNK_DUP (portNo p), hi, lo⟩ 1).withDup dup).raise (srcPortDupWindow (portNo p)) f.src, false) := by
  unfold Hw.dupAccept at hr
  extract_lets n rest accept fresh at hr
  split at hr
  · exact Or.inl ⟨h.net.dup, hr.symm⟩
  split at hr
  · exact Or.inl ⟨_, hr.symm⟩
  extract_lets d b at hr
  split at hr
  · exact Or.inl ⟨_, hr.symm⟩
  split at hr
  · split at hr
    · exact Or.inr (Or.inl ⟨_, _, hr.symm⟩)
    · exact Or.inl ⟨_, hr.symm⟩
  split at hr
  · exact Or.inl ⟨_, hr.symm⟩
  · split at hr
    · exact Or.inr (Or.inl ⟨_, _, hr.symm⟩)
    · exact Or.inr (Or.inr ⟨_, _, _, hr.symm⟩)

/-- What taking a command has left of the hub: the entry has left its FIFO, and class 1 has the room it had. -/
structure Taken (h g : Hw) (p : Port) (e : CmdEntry) : Prop where
  egress : g.net.egress = h.net.egress
  epoch : g.epoch = h.epoch
  get : ∀ f, g.get f = h.get f
  fifo : (g.port p).fifo = (h.port p).fifo.filter (fun y => decide (y.order ≠ e.order))

theorem taken_withDup (h : Hw) (p : Port) (e : CmdEntry) (dup : List DupEntry) :
    Taken h ((h.removeCommand p e).withDup dup) p e where
  egress := by cases p <;> rfl
  epoch := by cases p <;> rfl
  get f := (get_net _ _ f).trans (get_setPort h p _ f)
  fifo := by cases p <;> rfl

theorem taken_of_accepted {h : Hw} {p : Port} {e : CmdEntry} (ha : ((h.removeCommand p e).dupAccept p e.frame).2 = true) :
    Taken h ((h.removeCommand p e).dupAccept p e.frame).1 p e := by
  rcases dupAccept_cases (h := h.removeCommand p e) (p := p) (f := e.frame) rfl with ⟨dup, hx⟩ | ⟨_, _, hx⟩ | ⟨_, _, _, hx⟩
  · rw [hx]
    exact taken_withDup h p e dup
  · rw [hx] at ha
    exact Bool.noConfusion ha
  · rw [hx] at ha
    exact Bool.noConfusion ha

namespace Taken

variable {h g : Hw} {p : Port} {e : CmdEntry} (ht : Taken h g p e)
include ht

theorem classRoom : g.classRoom 1 = h.classRoom 1 := by
  rw [Hw.classRoom, Hw.classRoom, Hw.classFill, Hw.classFill, ht.egress, ht.get]

theorem running : g.running = h.running := by
  rw [Hw.running, Hw.running, ht.get]

/-- The same of the state that the command's own effect begins with. -/
theorem state_running (s : State) : ({ s with hw := g } : State).hw.running = h.running := ht.running

theorem state_get (s : State) (f : Fld) : ({ s with hw := g } : State).hw.get f = h.get f := ht.get f

/-- The answer of a command, and its FIFO, where what it has done has left class 1 room and the ports as they were. -/
theorem answered {k : Hw} (hroom : k.classRoom 1 = true) (hports : portsView.see k = portsView.see g) (l : List Byte) :
    (k.respond p e l).net.egress.getLast?.map EgDesc.shows = some (e.frame.ty, 1, true, e.frame.src, l) ∧
    ((k.respond p e l).port p).fifo = (h.port p).fifo.filter (fun y => decide (y.order ≠ e.order)) := by
  refine ⟨shows_respond p e l hroom, ?_⟩
  rw [port_of_portsView ((ports_respond k p e l).trans hports), ht.fifo]

/-- The same of a command that has done nothing else. -/
theorem answered_at_once (hroom : h.classRoom 1 = true) (l : List Byte) :
    (g.respond p e l).net.egress.getLast?.map EgDesc.shows = some (e.frame.ty, 1, true, e.frame.src, l) ∧
    ((g.respond p e l).port p).fifo = (h.port p).fifo.filter (fun y => decide (y.order ≠ e.order)) :=
  ht.answered (ht.classRoom.trans hroom) rfl l

end Taken

section TakeCommand

variable {s : State} {p : Port} {e : CmdEntry} {is : Frame → Bool} {f : State → Port → CmdEntry → State}
  (hl : s.hw.live = true) (hc : s.hw.coreOn = true) (hr : s.hw.classRoom 1 = true) (hn : s.hw.nextCommand = some (p, e))
  (his : is e.frame = true)
include hl hc hr hn his

theorem takeCommand_accepted (ha : ((s.hw.removeCommand p e).dupAccept p e.frame).2 = true) :
    s.takeCommand is f = f { s with hw := ((s.hw.removeCommand p e).dupAccept p e.frame).1 } p e := by
  simp [State.takeCommand, hl, hc, hr, hn, his, ha]

theorem takeCommand_duplicate (ha : ((s.hw.removeCommand p e).dupAccept p e.frame).2 = false) :
    s.takeCommand is f = { s with hw := ((s.hw.removeCommand p e).dupAccept p e.frame).1 } := by
  simp [State.takeCommand, hl, hc, hr, hn, his, ha]

end TakeCommand

/-! ### Duplicates (R429) -/

/-- A frame that is not accepted is counted and perhaps reported: the queue and the ports stand. -/
theorem dupAccept_refused {h : Hw} {p : Port} {f : Frame} (ha : (h.dupAccept p f).2 = false) :
    egressView.see (h.dupAccept p f).1 = egressView.see h ∧ portsView.see (h.dupAccept p f).1 = portsView.see h := by
  have hsrc : srcPortDupWindow (portNo p) ≠ 34 ∧ srcPortDupWindow (portNo p) ≠ 42 := by cases p <;> decide
  rcases dupAccept_cases (h := h) (p := p) (f := f) rfl with ⟨dup, hx⟩ | ⟨hi, lo, hx⟩ | ⟨hi, lo, dup, hx⟩
  · rw [hx] at ha
    exact Bool.noConfusion ha
  · rw [hx]
    exact ⟨rfl, rfl⟩
  · rw [hx]
    exact ⟨(QueueView.see_raise _ _ _ hsrc).trans rfl, (View.see_raise _ _ _ (Or.inr hsrc)).trans rfl⟩

/-- A duplicate has left its FIFO, and has no answer. -/
theorem duplicate_spec {h : Hw} {p : Port} {e : CmdEntry} (ha : ((h.removeCommand p e).dupAccept p e.frame).2 = false) :
    ((h.removeCommand p e).dupAccept p e.frame).1.net.egress = h.net.egress ∧
    (((h.removeCommand p e).dupAccept p e.frame).1.port p).fifo =
      (h.port p).fifo.filter (fun y => decide (y.order ≠ e.order)) := by
  obtain ⟨hegress, hports⟩ := dupAccept_refused ha
  constructor
  · refine hegress.trans ?_
    cases p <;> rfl
  · rw [port_of_portsView hports]
    cases p <;> rfl

/-! ### What each command does of itself (R437, R438, R440) -/

section Commands

variable {s : State} {p : Port} {e : CmdEntry}

theorem turnAway_running {h : Hw} (hr : h.running = true) (b c : Bool) : h.turnAway b c = none := by
  simp [Hw.turnAway, hr]

theorem regRead_words (hr : s.hw.running = true) (hf : regForm e.frame.payload false = 0) : s.regRead p e =
    State.respond { s with
      hw := (Hw.readWords s.frozen (reqOfPort p) (regCount e.frame.payload) (regAddr e.frame.payload) s.hw).1
      rdata := (Hw.readWords s.frozen (reqOfPort p) (regCount e.frame.payload) (regAddr e.frame.payload) s.hw).2
      status := 0 } p e
      (regHead e.frame.payload 0 (regCount e.frame.payload) ++
        (Hw.readWords s.frozen (reqOfPort p) (regCount e.frame.payload) (regAddr e.frame.payload) s.hw).2.flatMap
          (fun w => beBytes 4 w.toNat)) := by
  simp [State.regRead, turnAway_running hr, hf]

theorem regRead_malformed (hr : s.hw.running = true) (hf : regForm e.frame.payload false ≠ 0) : s.regRead p e =
    s.respond p e (regHead e.frame.payload (regForm e.frame.payload false) 0) := by
  simp [State.regRead, turnAway_running hr, hf]

/-- The words of a REG_WRITE. -/
def writtenWords (r : List Byte) : List Word := (List.range (regCount r)).map (fun i => BitVec.ofNat 32 (beAt r (12 + 4 * i) 4))

theorem regWrite_words (hr : s.hw.running = true) (hf : regForm e.frame.payload true = 0) {w : State × Nat × Nat}
    (hw : w = s.writeWords (reqOfPort p) e.frame.src (regAddr e.frame.payload) (writtenWords e.frame.payload) 0) :
    s.regWrite p e = State.respond { w.1 with rdata := [], status := w.2.1 } p e (regHead e.frame.payload w.2.1 w.2.2) := by
  subst hw
  simp [State.regWrite, turnAway_running hr, hf, writtenWords]

theorem regWrite_malformed (hr : s.hw.running = true) (hf : regForm e.frame.payload true ≠ 0) : s.regWrite p e =
    s.respond p e (regHead e.frame.payload (regForm e.frame.payload true) 0) := by
  simp [State.regWrite, turnAway_running hr, hf]

theorem regWrite_busy (hr : s.hw.running = false) (hm : s.hw.get SYS_BOOT_MODE ≠ 2) : s.regWrite p e =
    s.respond p e (regHead e.frame.payload 1 0) := by
  simp [State.regWrite, Hw.turnAway, hr, hm]

theorem regWrite_noImage (hr : s.hw.running = false) (hm : s.hw.get SYS_BOOT_MODE = 2) : s.regWrite p e =
    s.respond p e (regHead e.frame.payload 8 0) := by
  simp [State.regWrite, Hw.turnAway, hr, hm]

theorem capDisc_words (hn : e.frame.payload.length = 8) (hz : beAt e.frame.payload 2 2 = 0) : s.capDisc p e =
    s.respond p e (e.frame.payload.take 2 ++ [0, byte (portNo p)] ++ slice e.frame.payload 4 4 ++ [byte e.hopsArr, 0] ++
      beBytes 2 (18 - beAt e.frame.payload 4 4) ++
      (s.hw.liveReg SYS_ID :: (s.frozen.getD s.hw).liveReg SYS_EPOCH :: (List.range (18 - beAt e.frame.payload 4 4)).map
        (fun i => s.hw.liveReg (0x100 + 4 * (beAt e.frame.payload 4 4 + i)))).flatMap (fun w => beBytes 4 w.toNat)) := by
  have hpad : padded e.frame.payload 8 = e.frame.payload := by simp [padded, zeros, hn]
  have hcount : min 1019 (18 - beAt e.frame.payload 4 4) = 18 - beAt e.frame.payload 4 4 := by omega
  have hmore : ¬ 1019 < 18 - beAt e.frame.payload 4 4 := by omega
  unfold State.capDisc
  dsimp only
  rw [hpad, if_neg (by simp [hn, hz]), hcount, decide_eq_false hmore]
  simp [byte, b2n]

theorem capDisc_malformed (hf : e.frame.payload.length ≠ 8 ∨ beAt (padded e.frame.payload 8) 2 2 ≠ 0) : s.capDisc p e =
    s.respond p e ((padded e.frame.payload 8).take 2 ++ [4, byte (portNo p)] ++ slice (padded e.frame.payload 8) 4 4) := by
  unfold State.capDisc
  dsimp only
  rw [if_pos hf]
  simp [byte]

end Commands

end Sys2Proof.Machine

/-! ## SNAP_READ and LINK_CTL (R397, R438, R441) -/

namespace Sys2Proof.Machine

set_option Elab.async false

/-! ### SNAP_READ (R438) -/

section SnapRead

variable {s : State} {p : Port} {e : CmdEntry}
  (hl : s.hw.live = true) (hc : s.hw.coreOn = true) (hn : s.hw.nextCommand = some (p, e))
  (hty : e.frame.ty = 0x03) (hrun : s.hw.running = true) (hf : snapForm e.frame.payload = 0)
include hl hc hn hty hrun hf

theorem snapRead_owned (hr : s.hw.classRoom 1 = true) (ha : ((s.hw.removeCommand p e).dupAccept p e.frame).2 = true)
    (ht : s.hw.snapTaken (reqOfPort p) = false) (ho : s.hw.snapOwned (reqOfPort p) = true) :
    s.snapRead = if s.hw.epoch.snapAuto then
      (({ s with hw := ((s.hw.removeCommand p e).dupAccept p e.frame).1 } : State).snapAnswer p e).snapRelease
      else ({ s with hw := ((s.hw.removeCommand p e).dupAccept p e.frame).1 } : State).snapAnswer p e := by
  unfold State.snapRead
  dsimp only
  rw [hn]
  dsimp only
  rw [turnAway_running hrun, hf, ht, ho, if_neg (by simp [hty]), if_neg (by simp), if_pos rfl,
    takeCommand_accepted hl hc hr hn (by simp [hty]) ha]
  dsimp only
  rw [(taken_of_accepted ha).epoch]

theorem snapRead_taken (hr : s.hw.classRoom 1 = true) (ha : ((s.hw.removeCommand p e).dupAccept p e.frame).2 = true)
    (ht : s.hw.snapTaken (reqOfPort p) = true) : s.snapRead =
      ({ s with hw := ((s.hw.removeCommand p e).dupAccept p e.frame).1 } : State).respond p e
        (snapHead e.frame.payload 7 0) := by
  have hrun' : ((s.hw.removeCommand p e).dupAccept p e.frame).1.running = true :=
    (taken_of_accepted ha).running.trans hrun
  unfold State.snapRead
  dsimp only
  rw [hn]
  dsimp only
  rw [turnAway_running hrun, hf, ht, if_neg (by simp [hty]), if_pos (by simp),
    takeCommand_accepted hl hc hr hn (by simp [hty]) ha]
  dsimp only
  rw [turnAway_running hrun']
  rfl

/-- Nobody holds a snapshot or waits for one: the hub asks for one for the port, which is not due yet. -/
theorem snapRead_asks (ht : s.hw.snapTaken (reqOfPort p) = false) (hheld : s.hw.on SYS_SNAP_HELD = false)
    (hreq : s.hw.epoch.snapReq = none) (hseq : s.hw.seq.running = true) (hb : s.hw.nextBoundary = none) :
    s.snapRead = { s with hw := { s.hw with epoch := { s.hw.epoch with
      snapReq := some (reqOfPort p), snapSeen := s.hw.smp.lastBoundary, snapAuto := true } } } := by
  have howned : s.hw.snapOwned (reqOfPort p) = false := by simp [Hw.snapOwned, hheld]
  have hport : reqOfPort p ≠ .loader := by cases p <;> decide
  have hask : s.hw.snapAsk (reqOfPort p) = { s.hw with epoch := { s.hw.epoch with
      snapReq := some (reqOfPort p), snapSeen := s.hw.smp.lastBoundary } } := by
    simp [Hw.snapAsk, hport, ht, hheld, hreq]
  have hnow : s.hw.boundaryNow.isSome = true → s.hw.boundaryNow = s.hw.smp.lastBoundary := by
    unfold Hw.boundaryNow
    split
    next b hlast => split <;> simp [hlast]
    · simp
  generalize hx : ({ s with hw := { s.hw with epoch := { s.hw.epoch with
      snapReq := some (reqOfPort p), snapSeen := s.hw.smp.lastBoundary, snapAuto := true } } } : State) = x
  have hdue : x.hw.snapDue = false := by
    have hnext : x.hw.nextBoundary = none := hx ▸ hb
    have hlate : (x.hw.boundaryNow.isSome && decide (x.hw.boundaryNow ≠ x.hw.epoch.snapSeen)) = false := by
      subst hx
      change (s.hw.boundaryNow.isSome && decide (s.hw.boundaryNow ≠ s.hw.smp.lastBoundary)) = false
      cases hsome : s.hw.boundaryNow.isSome
      · rfl
      · rw [hnow hsome]; simp
    have hrunning : x.hw.seq.running = true := hx ▸ hseq
    rw [Hw.snapDue, hnext, hlate, hrunning]
    simp
  have htake : x.snapTake = x := by
    unfold State.snapTake
    split
    · rw [hdue]; rfl
    · rfl
  have hnot : x.hw.snapOwned (reqOfPort p) = false := hx ▸ howned
  unfold State.snapRead
  dsimp only
  rw [hn]
  dsimp only
  rw [turnAway_running hrun, hf, ht, howned, hl, hc, hreq, hask, if_neg (by simp [hty]), if_neg (by simp),
    if_neg (by simp), if_pos (by simp)]
  dsimp only
  have hasks : (if (none : Option Requester).isSome = true then s else x) = x := rfl
  rw [hx, hasks, htake, hnot]
  rfl

end SnapRead

/-! ### Beside the queues and lanes of a port -/

/-- The clocks, the time, and of each port the link messages that wait and how long it is held awake. -/
def Hw.linkCalls (h : Hw) : ClkSt × TimeSt × (Port → List PortMsg × Nat) :=
  (h.clk, h.time, fun p => ((h.port p).linkMsgs, (h.port p).holdAwake))

theorem linkCalls_of_unwired {g h : Hw} (hg : g.unwired = h.unwired) : g.linkCalls = h.linkCalls := by
  have hunwired (k : Hw) : k.unwired.linkCalls = k.linkCalls := Prod.ext rfl (Prod.ext rfl (funext fun p => by cases p <;> rfl))
  rw [← hunwired g, hg, hunwired h]

theorem linkCalls_setPort (h : Hw) (p : Port) (x : PortSt) (hm : x.linkMsgs = (h.port p).linkMsgs)
    (ha : x.holdAwake = (h.port p).holdAwake) : (h.setPort p x).linkCalls = h.linkCalls := by
  refine Prod.ext (Hw.setPort_clk h p x) (Prod.ext (Hw.setPort_time h p x) (funext fun r => ?_))
  cases p <;> cases r
  · exact Prod.ext hm ha
  · rfl
  · rfl
  · exact Prod.ext hm ha

theorem linkCalls_put (h : Hw) (f : Fld) (v : Nat) : (h.put f v).linkCalls = h.linkCalls := rfl

theorem linkCalls_setReg (h : Hw) (a : Nat) (w : Word) : (h.setReg a w).linkCalls = h.linkCalls := rfl

theorem linkCalls_setLane (h : Hw) (p : Port) (l : Nat) (x : Lane) : (h.setLane p l x).linkCalls = h.linkCalls :=
  linkCalls_setPort h p _ rfl rfl

theorem linkCalls_dropRx (h : Hw) (p : Port) : (h.dropRx p).linkCalls = h.linkCalls := by
  unfold Hw.dropRx
  split
  · extract_lets x h1 y cut h2
    have hport : h1.linkCalls = h.linkCalls := linkCalls_setPort h p _ rfl rfl
    have hother : h2.linkCalls = h1.linkCalls := when_keeps Hw.linkCalls _ _ h1 (linkCalls_setPort h1 (otherPort p) _ rfl rfl)
    clear_value h2
    exact (when_keeps Hw.linkCalls _ _ h2 (linkCalls_of_unwired (unwired_sendStriped h2 _ _))).trans (hother.trans hport)
  · rfl

theorem linkCalls_holdCheck (h : Hw) : h.holdCheck.linkCalls = h.linkCalls := rfl

theorem linkCalls_setActive (h : Hw) (a : Nat) : (h.setActive a).linkCalls = h.linkCalls := by
  unfold Hw.setActive
  split
  · rfl
  · extract_lets hold h1
    have hcount : h1.linkCalls = h.linkCalls := (linkCalls_put _ _ _).trans (linkCalls_put h _ _)
    clear_value h1
    have hA : (h1.setPort .a (hold h1.net.portA)).linkCalls = h1.linkCalls := linkCalls_setPort h1 .a _ rfl rfl
    have hB : ((h1.setPort .a (hold h1.net.portA)).setPort .b (hold h1.net.portB)).linkCalls =
        (h1.setPort .a (hold h1.net.portA)).linkCalls := linkCalls_setPort _ .b _ rfl rfl
    exact (linkCalls_holdCheck _).trans (hB.trans (hA.trans hcount))

theorem linkCalls_control (h : Hw) : h.control.linkCalls = h.linkCalls := by
  unfold Hw.control
  split
  next p _ => exact linkCalls_setActive h (portNo p)
  · rfl

theorem linkCalls_portDown (h : Hw) (p : Port) : (h.portDown p).linkCalls = h.linkCalls := by
  unfold Hw.portDown
  extract_lets n g recal h1 x h2 h3 h4
  have hlanes : h4.linkCalls = h.linkCalls :=
    calc h4.linkCalls = h3.linkCalls :=
        each_keeps Hw.linkCalls _ (fun k l => (linkCalls_put _ _ _).trans ((linkCalls_put _ _ _).trans (linkCalls_put k _ _))) _ h3
      _ = h2.linkCalls := each_keeps Hw.linkCalls _ (fun k l => linkCalls_setLane k p l _) _ h2
      _ = h1.linkCalls := linkCalls_setPort h1 p _ rfl rfl
      _ = g.linkCalls := (linkCalls_put _ _ _).trans (linkCalls_setReg g _ 0)
      _ = (h.dropRx p).linkCalls := linkCalls_of_unwired (unwired_fillLanes _ p)
      _ = h.linkCalls := linkCalls_dropRx h p
  clear_value h4
  exact (linkCalls_control h4.sweep).trans hlanes

theorem unwired_sendMarker (h : Hw) (p : Port) (ctype kind : Nat) : (h.sendMarker p ctype kind).unwired = h.unwired := by
  unfold Hw.sendMarker
  rw [unwired_nextSlot, unwired_each _ _ _ (fun h l => unwired_markLane h p _ _ l), unwired_padSlot, unwired_fillLanes]

theorem linkCalls_wakeLanes (h : Hw) (p : Port) : (h.wakeLanes p).linkCalls = h.linkCalls := by
  unfold Hw.wakeLanes
  split
  · extract_lets h1 x h2 h3
    have hput : h1.linkCalls = h.linkCalls :=
      (linkCalls_put (h.fillLanes p) _ _).trans (linkCalls_of_unwired (unwired_fillLanes h p))
    have hport : h2.linkCalls = h1.linkCalls := linkCalls_setPort h1 p _ rfl rfl
    have hblocks : h3.linkCalls = h2.linkCalls := linkCalls_of_unwired <| unwired_each _ _ _ (fun k _ =>
      (unwired_nextSlot _ p).trans (unwired_each _ _ _ (fun k l => unwired_setLane k p l _)))
    clear_value h3
    exact (linkCalls_of_unwired (unwired_sendMarker h3 p _ _)).trans (hblocks.trans (hport.trans hput))
  · rfl

/-! ### A port that goes down is in DOWN -/

theorem get_holdCheck (h : Hw) (f : Fld) : h.holdCheck.get f = h.get f := rfl

theorem get_control (h : Hw) (f : Fld) (hs : f.addr ≠ LNK_PORT_STATUS) (hc : f.addr ≠ LNK_SWITCH_COUNT) :
    h.control.get f = h.get f := by
  have hactive (a : Nat) : (h.setActive a).get f = h.get f := by
    unfold Hw.setActive
    split
    · rfl
    · extract_lets hold h1
      have hput : h1.get f = h.get f := by
        change ((h.put LNK_PORT_STATUS_ACTIVE a).bump LNK_SWITCH_COUNT_SWITCHES 1).get f = h.get f
        rw [Hw.bump, get_put_other _ LNK_SWITCH_COUNT_SWITCHES f _ hc, get_put_other h LNK_PORT_STATUS_ACTIVE f _ hs]
      clear_value h1
      exact (get_holdCheck _ f).trans ((get_setPort _ .b _ f).trans ((get_setPort h1 .a _ f).trans hput))
  unfold Hw.control
  split
  next p _ => exact hactive (portNo p)
  · rfl

theorem linkState_portDown (h : Hw) (p : Port) : (h.portDown p).linkState p = 0 := by
  have hlane (k : Hw) (l : Nat) : (((k.put (LNK_LANE_LOCKED (portNo p) l) 0).put (LNK_LANE_READMIT (portNo p) l) 0).put
      (LNK_LANE_GOOD_MS (portNo p) l) 0).linkState p = k.linkState p := by
    have haddr : (LNK_STATUS_STATE (portNo p)).addr ≠ LNK_LANE (portNo p) l := by
      change 0xC0000 + 0x10000 * portNo p + 0x10 ≠ 0xC0000 + 0x10000 * portNo p + 0x20 + 4 * l
      omega
    rw [Hw.linkState, get_put_other _ (LNK_LANE_GOOD_MS (portNo p) l) _ _ haddr,
      get_put_other _ (LNK_LANE_READMIT (portNo p) l) _ _ haddr, get_put_other _ (LNK_LANE_LOCKED (portNo p) l) _ _ haddr]
    rfl
  unfold Hw.portDown
  extract_lets n g recal h1 x h2 h3 h4
  have hdown : h4.linkState p = 0 :=
    calc h4.linkState p = h3.linkState p := each_keeps (fun k : Hw => k.linkState p) _ hlane _ h3
      _ = h2.linkState p := each_keeps (fun k : Hw => k.linkState p) _ (fun k l => get_setLane k p l _ _) _ h2
      _ = h1.linkState p := get_setPort h1 p _ _
      _ = (g.setReg (LNK_STATUS n) 0).linkState p :=
        get_put_disjoint _ (LNK_STATUS_MY_RECAL n) (LNK_STATUS_STATE n) recal (by decide : 16 ≤ 19) (by decide : 19 < 32)
          (by decide : 29 ≤ 31) rfl (Or.inl (by decide : 19 < 29))
      _ = bits (0 : Word) 31 29 := congrArg (bits · 31 29) (reg_setReg_same g (LNK_STATUS n) 0)
      _ = 0 := by decide
  clear_value h4
  refine (get_control h4.sweep _ ?_ ?_).trans hdown
  · cases p <;> decide
  · cases p <;> decide

/-! ### A crossing's request (R543) -/

theorem busy_xingReq (h : Hw) (k : Nat) : ((h.xingReq k).xing k).busy = true := by
  unfold Hw.xingReq
  dsimp only
  split
  · rw [xing_setXing, if_pos rfl]
  next hb =>
    have hbusy : (h.xing k).busy = true := by simpa using hb
    split
    · rw [xing_setXing, if_pos rfl]
      exact hbusy
    · exact hbusy

theorem busy_wakeRequest (h : Hw) (k : Nat) : ((h.wakeRequest k).xing k).busy = true := by
  refine (xing_when_acted _ _ k k).1.trans ?_
  rw [xing_wake]
  exact busy_xingReq h k

theorem ports_wakeRequest (h : Hw) (k : Nat) : portsView.see (h.wakeRequest k) = portsView.see h := by
  refine (View.see_when _ _ _ (View.see_setXing _ k _)).trans ?_
  rw [View.see_wake, View.see_xingReq]

theorem ns_wakeRequest (h : Hw) (k : Nat) : (h.wakeRequest k).ns = h.ns := by
  have htime : (h.wakeRequest k).time = h.time := by
    refine (when_keeps Hw.time _ _ _ rfl).trans ?_
    exact congrArg Still.time ((still_wake (h.xingReq k) .core).trans (still_xingReq h k))
  rw [Hw.ns, Hw.ns, htime]

/-! ### LINK_CTL (R441) -/

section LinkCtl

variable {h : Hw} {p : Port} {m : PortMsg} {rest : List PortMsg} (hm : (h.port p).linkMsgs = m :: rest)
include hm

theorem takeLink_first {op : Nat} (ho : beAt m.frame.payload 0 1 = op) :
    h.takeLink p op = (h.setPort p { h.port p with linkMsgs := rest }, some m.frame) := by
  simp [Hw.takeLink, hm, ho]

theorem linkRetrain_spec (ho : beAt m.frame.payload 0 1 = 3) :
    ((h.linkRetrain p).port p).linkMsgs = rest ∧ (h.linkRetrain p).linkState p = 0 := by
  have hdown : h.linkRetrain p = (h.setPort p { h.port p with linkMsgs := rest }).portDown p := by
    rw [Hw.linkRetrain, takeLink_first hm ho]
  rw [hdown]
  refine ⟨?_, linkState_portDown _ p⟩
  have hlinkCalls := linkCalls_portDown (h.setPort p { h.port p with linkMsgs := rest }) p
  have hmsgs := congrArg (fun x : ClkSt × TimeSt × (Port → List PortMsg × Nat) => (x.2.2 p).1) hlinkCalls
  refine hmsgs.trans ?_
  change ((h.setPort p { h.port p with linkMsgs := rest }).port p).linkMsgs = rest
  rw [port_setPort]

theorem linkStatus_spec (ho : beAt m.frame.payload 0 1 = 2) :
    ((h.linkStatus p).port p).linkMsgs = rest ∧
    ((h.linkStatus p).port p).answers.length = (h.port p).answers.length + 1 ∧
    ((h.linkStatus p).port p).answers.getLast?.map (fun f => (f.ty, f.cls, f.rsp, f.dst)) = some (0x40, 1, true, m.frame.src) ∧
    ((h.linkStatus p).port p).answers.getLast?.map (fun f => f.payload) =
      some ([2, 0, 0, 0] ++ beBytes 4 (h.reg (LNK_STATUS (portNo p))).toNat ++ beBytes 2 (h.get SYS_HUB_ID_ID) ++ [0, 0]) := by
  have hstatus : h.linkStatus p = (h.setPort p { h.port p with linkMsgs := rest }).portAnswer p 0x40 m.frame.src
      ([2, 0, 0, 0] ++ beBytes 4 (h.reg (LNK_STATUS (portNo p))).toNat ++ beBytes 2 (h.get SYS_HUB_ID_ID) ++ [0, 0]) := by
    rw [Hw.linkStatus, takeLink_first hm ho]
    dsimp only
    rw [get_setPort, Hw.reg, Hw.reg, Hw.setPort_regs]
  rw [hstatus]
  generalize [2, 0, 0, 0] ++ beBytes 4 (h.reg (LNK_STATUS (portNo p))).toNat ++ beBytes 2 (h.get SYS_HUB_ID_ID) ++ [0, 0] = l
  generalize hg : h.setPort p { h.port p with linkMsgs := rest } = g
  have hport : g.port p = { h.port p with linkMsgs := rest } := by rw [← hg, port_setPort]
  have hnumber (f : Frame) : (g.number f).1.port p = g.port p :=
    port_of_portsView (View.see_number g f) p
  unfold Hw.portAnswer
  dsimp only
  rw [port_setPort, hnumber, number_snd, hport]
  dsimp only
  rw [List.getLast?_concat]
  exact ⟨rfl, List.length_append, rfl, rfl⟩

/-- What WAKE leaves, once CORE has been asked for, in a hub whose port takes the demand for its lanes. -/
theorem linkWake_eq (ho : beAt m.frame.payload 0 1 = 1) : ∃ g : Hw,
    g = (h.setPort p { h.port p with linkMsgs := rest }).wakeRequest (5 + portNo p) ∧
    h.linkWake p = if beAt m.frame.payload 2 2 = 0 then g else
      (g.setPort p { g.port p with holdAwake := max (g.port p).holdAwake (g.ns + 1000000 * beAt m.frame.payload 2 2) }).wakeLanes p := by
  refine ⟨_, rfl, ?_⟩
  rw [Hw.linkWake, takeLink_first hm ho]

theorem linkWake_spec (hon : h.linkOn = true) (ho : beAt m.frame.payload 0 1 = 1) :
    ((h.linkWake p).port p).linkMsgs = rest ∧ ((h.linkWake p).xing (5 + portNo p)).busy = true ∧
    (h.clk.core.mode = .off → (h.linkWake p).clk.core.mode = .waking) ∧
    (h.linkWake p).ns + 1000000 * beAt m.frame.payload 2 2 ≤ max ((h.linkWake p).port p).holdAwake (h.linkWake p).ns := by
  obtain ⟨g, hg, heq⟩ := linkWake_eq hm ho
  have hmsgs : (g.port p).linkMsgs = rest := by
    rw [hg, port_of_portsView (ports_wakeRequest _ _), port_setPort]
  have hbusy : (g.xing (5 + portNo p)).busy = true := hg ▸ busy_wakeRequest _ _
  have hmode : h.clk.core.mode = .off → g.clk.core.mode = .waking := by
    intro hoff
    simp only [Hw.linkOn, Bool.and_eq_true, decide_eq_true_eq, Bool.not_eq_true'] at hon
    obtain ⟨⟨-, hotp⟩, hclk⟩ := hon
    rw [hg]
    refine core_wakeRequest _ ⟨Or.inl ?_, ?_, ?_⟩
    · exact (congrArg (fun c : ClkSt => c.core.mode) (Hw.setPort_clk h p _)).trans hoff
    · rw [Hw.setPort_boot]; exact hclk
    · rw [Hw.setPort_boot]; exact hotp
  clear hg
  by_cases hms : beAt m.frame.payload 2 2 = 0
  · rw [heq, if_pos hms, hms]
    exact ⟨hmsgs, hbusy, hmode, by omega⟩
  · rw [heq, if_neg hms]
    generalize beAt m.frame.payload 2 2 = ms
    generalize hk : g.setPort p { g.port p with holdAwake := max (g.port p).holdAwake (g.ns + 1000000 * ms) } = k
    have hport : k.port p = { g.port p with holdAwake := max (g.port p).holdAwake (g.ns + 1000000 * ms) } := by
      rw [← hk, port_setPort]
    have hclk : k.clk = g.clk := hk ▸ Hw.setPort_clk g p _
    have hns : k.ns = g.ns := hk ▸ ns_setPort g p _
    obtain ⟨hclk', hrest⟩ := Prod.mk.inj (linkCalls_wakeLanes k p)
    obtain ⟨htime', hports'⟩ := Prod.mk.inj hrest
    obtain ⟨hmsgs', hawake'⟩ := Prod.mk.inj (congrFun hports' p)
    have hns' : (k.wakeLanes p).ns = k.ns := congrArg (fun t : TimeSt => 40 * t.tick) htime'
    refine ⟨?_, ?_, ?_, ?_⟩
    · rw [hmsgs', hport]; exact hmsgs
    · rw [Hw.xing, hclk', hclk]; exact hbusy
    · rw [hclk', hclk]; exact hmode
    · rw [hawake', hns', hns, hport]
      dsimp only
      omega

end LinkCtl

end Sys2Proof.Machine

/-! ## Commands received in frames (R428, R429, R434 to R441) -/

namespace Sys2Proof.Machine

set_option Elab.async false

section Commands

variable {s : State} {p : Port} {e : CmdEntry}
  (hl : s.hw.live = true) (hc : s.hw.coreOn = true) (hr : s.hw.classRoom 1 = true) (hn : s.hw.nextCommand = some (p, e))
include hl hc hr hn

section Accepted

variable (ha : ((s.hw.removeCommand p e).dupAccept p e.frame).2 = true)
include ha

theorem exec_regRead (hty : e.frame.ty = 0x01) : exec .regRead s =
    .next (({ s with hw := ((s.hw.removeCommand p e).dupAccept p e.frame).1 } : State).regRead p e) :=
  congrArg Host.Outcome.next (takeCommand_accepted hl hc hr hn (decide_eq_true hty) ha)

theorem exec_regWrite (hty : e.frame.ty = 0x02) : exec .regWrite s =
    .next (({ s with hw := ((s.hw.removeCommand p e).dupAccept p e.frame).1 } : State).regWrite p e) :=
  congrArg Host.Outcome.next (takeCommand_accepted hl hc hr hn (decide_eq_true hty) ha)

theorem exec_capDisc (hty : e.frame.ty = 0x31) : exec .capDisc s =
    .next (({ s with hw := ((s.hw.removeCommand p e).dupAccept p e.frame).1 } : State).capDisc p e) :=
  congrArg Host.Outcome.next (takeCommand_accepted hl hc hr hn (decide_eq_true hty) ha)

end Accepted

theorem exec_regWrite_duplicate (ha : ((s.hw.removeCommand p e).dupAccept p e.frame).2 = false) (hty : e.frame.ty = 0x02) :
    exec .regWrite s = .next { s with hw := ((s.hw.removeCommand p e).dupAccept p e.frame).1 } :=
  congrArg Host.Outcome.next (takeCommand_duplicate hl hc hr hn (decide_eq_true hty) ha)

end Commands

theorem exec_linkCtl {s : State} {p : Port} (hl : s.hw.live = true) (ho : s.hw.linkOn = true) :
    exec (.linkCtlWake p) s = .next { s with hw := s.hw.linkWake p } ∧
    exec (.linkCtlStatus p) s = .next { s with hw := s.hw.linkStatus p } ∧
    exec (.linkCtlRetrain p) s = .next { s with hw := s.hw.linkRetrain p } := by
  have hport (f : Hw → Hw) : onPort s true f = .next { s with hw := f s.hw } := by
    rw [onPort, actOn_live s _ hl, ho]
    rfl
  exact ⟨hport _, hport _, hport _⟩

/-- The room of class 1 and the ports, after the words of a request have been read. -/
theorem readWords_keeps (fr : Option Hw) (q : Requester) (n a : Nat) (h : Hw) :
    (Hw.readWords fr q n a h).1.classRoom 1 = h.classRoom 1 ∧ portsView.see (Hw.readWords fr q n a h).1 = portsView.see h :=
  ⟨QueueView.see_readWords (V := answerRoom) fr q n a h, ports_readWords fr q n a h⟩

theorem readRanges_spec (fr : Option Hw) (q : Requester) (l : List (Nat × Nat)) (h : Hw) :
    (Hw.readRanges fr q l h).1.classRoom 1 = h.classRoom 1 ∧ portsView.see (Hw.readRanges fr q l h).1 = portsView.see h :=
  ⟨readRanges_keeps (fun h => h.classRoom 1) fr q (fun n a h => (readWords_keeps fr q n a h).1) l h,
    readRanges_keeps portsView.see fr q (fun n a h => (readWords_keeps fr q n a h).2) l h⟩

theorem net_snapRelease (s : State) : s.snapRelease.hw.net = s.hw.net := by
  unfold State.snapRelease
  dsimp only
  rw [Hw.put_net, Hw.put_net]

theorem port_of_net {g h : Hw} (hg : g.net = h.net) (p : Port) : g.port p = h.port p := by
  cases p
  · exact congrArg NetSt.portA hg
  · exact congrArg NetSt.portB hg

/-- The answer to a SNAP_READ whose port holds the snapshot. -/
theorem snapAnswer_spec {s : State} {g : Hw} {p : Port} {e : CmdEntry} (ht : Taken s.hw g p e) (hr : s.hw.classRoom 1 = true) :
    (({ s with hw := g } : State).snapAnswer p e).hw.net.egress.getLast?.map EgDesc.shows =
      some (e.frame.ty, 1, true, e.frame.src, snapHead e.frame.payload 0 ((s.frozen.getD g).get SYS_EPOCH_EPOCH) ++
        ((Hw.readRanges s.frozen (reqOfPort p) (snapRanges e.frame.payload) g).2).flatMap (fun w => beBytes 4 w.toNat)) ∧
    ((({ s with hw := g } : State).snapAnswer p e).hw.port p).fifo =
      (s.hw.port p).fifo.filter (fun y => decide (y.order ≠ e.order)) ∧
    (({ s with hw := g } : State).snapAnswer p e).frozen = s.frozen := by
  obtain ⟨hroom, hports⟩ := readRanges_spec s.frozen (reqOfPort p) (snapRanges e.frame.payload) g
  obtain ⟨hshows, hfifo⟩ := ht.answered (hroom.trans (ht.classRoom.trans hr)) hports
    (snapHead e.frame.payload 0 ((s.frozen.getD g).get SYS_EPOCH_EPOCH) ++
      ((Hw.readRanges s.frozen (reqOfPort p) (snapRanges e.frame.payload) g).2).flatMap (fun w => beBytes 4 w.toNat))
  exact ⟨hshows, hfifo, rfl⟩

/-- The snapshot of a SNAP_READ of the hub's own asking is released with its answer, and no other is. -/
theorem snapRelease_answer (x : State) (auto : Bool) :
    (if auto then x.snapRelease else x).hw.net = x.hw.net ∧
    (if auto then x.snapRelease else x).frozen = if auto then none else x.frozen := by
  cases auto
  · exact ⟨rfl, rfl⟩
  · exact ⟨net_snapRelease x, rfl⟩

/-- Settles O28: a command that is taken leaves the room of class 1 and the ports as they were, whatever it reads or writes
then, so that its answer stands last in the queue. -/
theorem transactions : Obligations.Transactions := by
  unfold Obligations.Transactions
  refine ⟨?_, ?_, ?_, ?_, ?_, ?_, ?_, ?_, ?_, ?_, ?_, ?_, ?_, ?_, ?_⟩
  · intro s p e hl hc hr hn hty ha hrun hf
    have ht := taken_of_accepted ha
    obtain ⟨hroom, hports⟩ := readWords_keeps s.frozen (reqOfPort p) (regCount e.frame.payload) (regAddr e.frame.payload)
      ((s.hw.removeCommand p e).dupAccept p e.frame).1
    have hanswer := ht.answered (hroom.trans (ht.classRoom.trans hr)) hports
    refine ⟨_, exec_regRead hl hc hr hn ha hty, ?_⟩
    rw [regRead_words ((ht.state_running s).trans hrun) hf]
    exact ⟨(hanswer _).1, rfl, rfl, (hanswer _).2⟩
  · intro s p e hl hc hr hn hty ha hrun hf
    have ht := taken_of_accepted ha
    refine ⟨_, exec_regRead hl hc hr hn ha hty, ?_⟩
    rw [regRead_malformed ((ht.state_running s).trans hrun) hf]
    exact ht.answered_at_once hr _
  · intro s p e w hl hc hr hn hty ha hrun hf hw
    have ht := taken_of_accepted ha
    have hroom : w.1.hw.classRoom 1 = true := hw ▸ classRoom_writeWords _ _ _ _ _ _ (ht.classRoom.trans hr)
    refine ⟨_, exec_regWrite hl hc hr hn ha hty, ?_⟩
    rw [regWrite_words ((ht.state_running s).trans hrun) hf hw]
    exact ⟨shows_respond p e _ hroom, rfl, rfl, rfl⟩
  · intro s p e hl hc hr hn hty ha hrun hf
    have ht := taken_of_accepted ha
    refine ⟨_, exec_regWrite hl hc hr hn ha hty, ?_⟩
    rw [regWrite_malformed ((ht.state_running s).trans hrun) hf]
    exact ht.answered_at_once hr _
  · intro s p e hl hc hr hn hty ha hrun hm
    have ht := taken_of_accepted ha
    refine ⟨_, exec_regWrite hl hc hr hn ha hty, ?_⟩
    rw [regWrite_busy ((ht.state_running s).trans hrun) (fun h => hm ((ht.state_get s _).symm.trans h))]
    exact ht.answered_at_once hr _
  · intro s p e hl hc hr hn hty ha hrun hm
    have ht := taken_of_accepted ha
    refine ⟨_, exec_regWrite hl hc hr hn ha hty, ?_⟩
    rw [regWrite_noImage ((ht.state_running s).trans hrun) ((ht.state_get s _).trans hm)]
    exact ht.answered_at_once hr _
  · intro s p e hl hc hr hn hty ha
    exact ⟨_, exec_regWrite_duplicate hl hc hr hn ha hty, rfl, duplicate_spec ha⟩
  · intro s p e hl hc hr hn hty ha hrun hf hfree howned
    obtain ⟨hshows, hfifo, hfrozen⟩ := snapAnswer_spec (taken_of_accepted ha) hr
    refine ⟨_, congrArg Host.Outcome.next (snapRead_owned hl hc hn hty hrun hf hr ha hfree howned), ?_⟩
    generalize ({ s with hw := ((s.hw.removeCommand p e).dupAccept p e.frame).1 } : State).snapAnswer p e = x at *
    obtain ⟨hnet, hkept⟩ := snapRelease_answer x s.hw.epoch.snapAuto
    rw [hnet, hkept, port_of_net hnet]
    exact ⟨hshows, fun hauto => by rw [hauto]; exact hfrozen, fun hauto => by rw [hauto]; rfl, hfifo⟩
  · intro s p e hl hc hr hn hty ha hrun hf htaken
    obtain ⟨hshows, hfifo⟩ := (taken_of_accepted ha).answered_at_once hr (snapHead e.frame.payload 7 0)
    exact ⟨_, congrArg Host.Outcome.next (snapRead_taken hl hc hn hty hrun hf hr ha htaken), hshows, rfl, hfifo⟩
  · intro s p e hl hc hr hn hty hrun hf hfree hheld hreq hseq hb
    exact ⟨_, congrArg Host.Outcome.next (snapRead_asks hl hc hn hty hrun hf hfree hheld hreq hseq hb), rfl, rfl, rfl, rfl⟩
  · intro s p e hl hc hr hn hty ha hlen hz
    refine ⟨_, exec_capDisc hl hc hr hn ha hty, ?_⟩
    rw [capDisc_words hlen hz]
    exact (taken_of_accepted ha).answered_at_once hr _
  · intro s p e hl hc hr hn hty ha hf
    refine ⟨_, exec_capDisc hl hc hr hn ha hty, ?_⟩
    rw [capDisc_malformed hf]
    exact (taken_of_accepted ha).answered_at_once hr _
  · intro s p m rest hl ho hm hop
    obtain ⟨hmsgs, hbusy, hmode, hawake⟩ := linkWake_spec hm ho hop
    exact ⟨_, (exec_linkCtl hl ho).1, hmsgs, fun _ => hbusy, hmode, hawake⟩
  · intro s p m rest hl ho hm hop
    exact ⟨_, (exec_linkCtl hl ho).2.1, linkStatus_spec hm hop⟩
  · intro s p m rest hl ho hm hop
    exact ⟨_, (exec_linkCtl hl ho).2.2, linkRetrain_spec hm hop⟩

end Sys2Proof.Machine
